-- ==== Sys2Proof/Word.lean ====
section
/-! DEFINITION. The word types of the PSC-960: a register word and a memory byte. -/

namespace Sys2Proof

/-- A 32-bit register word (R63, R65). -/
abbrev Word := BitVec 32

/-- One byte of the module's memories (R54). -/
abbrev Byte := BitVec 8

end Sys2Proof
end

