-- ==== Sys2Proof/Syntax.lean ====
section
/-! DEFINITION. The commands the module takes, one constructor per row of spec/opcode_table.json, and the data that some of
them carry: a station image by its contents. -/

namespace Sys2Proof

/-! ### The station image (R88, R130 to R132, R141, R144, R148)

The spec does not give the layout of an image's bytes, so a command that makes an image known carries its contents. -/

/-- A task as the image declares it: its execution budget in µs (R132), the bytes and the initial values of its state, the bytes
of its frozen image, constants and scratch (R139, R142), whether its state is retentive (R141), and where its code and its output buffer lie (R153). -/
structure ImageTask where
  task : Fin 32
  budget : BitVec 32 := 0
  state : BitVec 24 := 0
  init : List Byte := []
  frozen : BitVec 24 := 0
  consts : List Byte := []
  scratch : BitVec 24 := 0
  retain : Bool := false
  code : BitVec 40 := 0
  codeLen : BitVec 24 := 0
  outBuf : BitVec 40 := 0
  outLen : BitVec 24 := 0
deriving DecidableEq, Repr

/-- A directory entry as the image writes it: W1, W2, bits 12 to 8 of W3 (R146), and the initial value. -/
structure ImageEntry where
  index : Fin 32768
  w1 : BitVec 32 := 0
  w2 : BitVec 32 := 0
  w3 : BitVec 32 := 0
  init : List Byte := []
deriving DecidableEq, Repr

/-- A register that the image writes: page, offset, index of a window (0 for a plain register), value. -/
structure ImageReg where
  page : BitVec 9
  off : BitVec 12
  idx : BitVec 12 := 0
  val : BitVec 32
deriving DecidableEq, Repr

/-- What a run of logical lines holds: the state of its task from a byte offset on, the value of an entry, the force shadow of an
entry (R388). -/
inductive CopyPart where
  | state (ofs : BitVec 24)
  | value (i : Fin 32768)
  | shadow (i : Fin 32768)
deriving DecidableEq, Repr

/-- A run of logical 64-byte lines of a copy region (R384, R388). -/
structure CopyArea where
  region : Fin 6
  task : Fin 32
  first : BitVec 32
  lines : BitVec 32
  part : CopyPart
deriving DecidableEq, Repr

/-- A word of a loop record (R167) that the image writes. -/
structure ImageLoop where
  slot : Fin 1024
  word : Fin 64
  val : BitVec 32
deriving DecidableEq, Repr

/-- What an instance of the program holds (R121): a task, a cell, a loop slot, a directory entry, or variables of a task from a
byte offset on. -/
inductive InstItem where
  | task (k : Fin 32)
  | cell (c : Fin 4096)
  | slot (n : Fin 1024)
  | entry (i : Fin 32768)
  | vars (k : Fin 32) (ofs len : BitVec 24)
deriving DecidableEq, Repr

/-- An instance: the hash of its path name, its type, what it holds (R121). -/
structure ImageInst where
  hash : BitVec 64
  type : BitVec 32
  item : InstItem
deriving DecidableEq, Repr

/-- How many tasks, cells, loop slots, folds and directory entries an image needs (R123 reason 4). -/
structure ImageNeeds where
  tasks : BitVec 32 := 0
  cells : BitVec 32 := 0
  slots : BitVec 32 := 0
  folds : BitVec 32 := 0
  entries : BitVec 32 := 0
deriving DecidableEq, Repr

/-- A station image by its contents. -/
structure StationImage where
  /-- SHA-256 of the image as signed (R386). -/
  hash : BitVec 256 := 0
  carrier : Fin 8 := 0
  anyCarrier : Bool := true
  /-- CAP_IDs that the image requires (R40, R79). -/
  caps : List (BitVec 16) := []
  autorun : Bool := false
  /-- Built for determinism (R151). -/
  built : Bool := true
  tasks : List ImageTask := []
  /-- Bytes of `PLACE.SHED_ORDER`, position 0 first (R135). -/
  shedOrder : List Byte := []
  /-- Event source and the task that handles it (R148). -/
  handlers : List (Fin 1024 × Fin 32) := []
  regs : List ImageReg := []
  entries : List ImageEntry := []
  loops : List ImageLoop := []
  areas : List CopyArea := []
  instances : List ImageInst := []
  needs : ImageNeeds := {}
  /-- First bytes of tiers 1, 2 and 3 that the image leaves to PLACE (R130). -/
  free1 : BitVec 32 := 0
  free2 : BitVec 32 := 0
  free3 : BitVec 32 := 0
deriving DecidableEq, Repr

/-- What the checks of R40 find in a station image, in the order of R40: the slot can be read, it holds an image, the SHA-256 of
its key, the signature and the format version. -/
structure ImageCheck where
  readable : Bool := true
  held : Bool := true
  key : BitVec 256 := 0
  signature : Bool := true
  format : Bool := true
deriving DecidableEq, Repr

/-- What SUP reads as PD1 starts (R21, R38, R42): the inputs and the cell in mV, the temperatures in 0.125 °C, the slot pins,
IDENTIFY; the tallies with no valid record (R435); the half-phases that the recovery refresh completes (R459). -/
structure StartReading where
  vinA : BitVec 16 := 24000
  vinB : BitVec 16 := 24000
  cell : BitVec 16 := 3000
  temp : BitVec 16 := 200
  hot : BitVec 16 := 240
  slot : BitVec 6 := 0
  identify : Bool := false
  badTallies : List (Fin 256) := []
  halves : Fin 4 := 0
deriving DecidableEq, Repr

/-! ### Operands of some commands -/

/-- What the read of a record or of a memory word meets (R56, R166). -/
inductive Ecc where
  | good
  | corrected
  | uncorrectable (word : Fin 64)
deriving DecidableEq, Repr

/-- What an encoder input brings (R208, R211). -/
inductive EncEvent where
  /-- A count edge; `fwd` is the quadrature phase, or the level of B (high is forward). -/
  | count (fwd : Bool)
  /-- The rising edge of Z while A and B are both high. -/
  | zref
  /-- A and B change within one filter time. -/
  | quad
  /-- More than 4,000,000 counts/s over 1 µs. -/
  | rate
deriving DecidableEq, Repr

/-- How the start of a domain goes (R33, R35): its transient in mA, and whether it reports power good within 1 ms. -/
structure StartRun where
  ma : BitVec 16
  good : Bool
deriving DecidableEq, Repr

/-- The domain whose start fails, and whether by its inrush or for want of power good (R35). -/
structure StartFault where
  d : Fin 12
  inrush : Bool
deriving DecidableEq, Repr

/-- How an attempt on a CAN bus ends (R343, R345): 0 sent, 1 arbitration lost, 2 error; and the nanoseconds since its start of
frame. -/
structure CanEnd where
  result : Fin 3
  took : BitVec 32
deriving DecidableEq, Repr

/-- What the PLL of a mains source shows by a crossing of its input (R217): its phase, and its speed in angle units per ns
(binary64). -/
structure PllOut where
  phase : Word
  w : BitVec 64
deriving DecidableEq, Repr

/-- What an access of a core pair asks for; the width is 2^n bytes. -/
inductive CoreOp where
  | read (n : Fin 4)
  | write (n : Fin 4) (v : BitVec 64)
  | fetch (n : Fin 4)
  /-- A write of the floating-point mode field (R152). -/
  | fpMode
  /-- A read of a cycle counter or another time source of the core (R153). -/
  | time
deriving DecidableEq, Repr

/-- What a REGISTER_WRITE writes: a register of a page, or a word of a tier-0 window through SUP (R60). -/
inductive WriteTarget where
  | page (p : BitVec 9) (off : BitVec 12)
  | tier0 (n : Fin 4) (off : BitVec 20)
deriving DecidableEq, Repr

/-! ### The commands -/

/-- The commands of spec/opcode_table.json: those with operands first, then those without, each in the order of the table (Lean's
compiler builds only the first 245 constructors that carry data, so six rare ones stand last among those with operands). `m` is
the master of an access (R74): 0 local firmware, 1 ship manager, 2 service port, 3 partner. Frames are lists of their bytes as
they stand on the wire. -/
inductive Instr where
  /-- SUPPLY_VALID (R25). The combined supply stays at or above 17.5 V for 10 ms, so PD0 starts or changes to the main
  supply and hold-up charging begins. -/
  | supplyValid (cell ranOut : Bool)
  /-- PD1_START (R42). PD1 starts 2 ms after supply valid; the boot ROM captures the reset cause and reads the slot
  identity, the IDENTIFY button and the MRAM markers. -/
  | pd1Start (r : StartReading)
  /-- SLOT_ID_POLL (R22). Every 100 ms until a valid code is latched, SUP reads the slot identity pins and latches the
  first valid code. -/
  | slotIdPoll (raw : BitVec 6)
  /-- SLOT_ID_DEADLINE (R22). No valid slot code is latched by supply valid + 10 s; SUP records 0x00C SUB 0 and stays
  start-failed. -/
  | slotIdDeadline (raw : BitVec 6)
  /-- SLOT_ID_SAMPLE (R22). Every 1 s SUP samples the slot pins into LIVE_RAW and compares the sample with the latched
  code. -/
  | slotIdSample (raw : BitVec 6)
  /-- FW_SLOT_VERIFY (R39). The boot ROM completes its check of a firmware slot; on success the firmware runs and PD2
  starts at t_fw. -/
  | fwSlotVerify (reason : Fin 10) (run : StartRun)
  /-- DOMAIN_START (R33). The next power domain in start order is enabled at its 2 ms spacing, and its blocks start.
  -/
  | domainStart (run : StartRun)
  /-- DOMAIN_START_FAULT (R35). A domain reports no power good within 1 ms, or exceeds inrush by more than 10 %, and
  is switched off and marked failed. -/
  | domainStartFault (f : StartFault)
  /-- DOMAIN_RETRY (R35). After the last start step, PWR retries each failed domain once and applies the outcome for
  that domain. -/
  | domainRetry (tries : List (Fin 12 × StartRun))
  /-- POWER_GOOD_LOST (R497). A domain among PD2 to PD11 loses power good while on; it is marked failed and its blocks
  are fenced. -/
  | powerGoodLost (d : Fin 12)
  /-- DOM_OFF (R36). Setting a PWR.DOM_OFF bit switches the domain off if all of its blocks are off, stopped or
  fenced. -/
  | domOff (m : Fin 4) (d : Fin 12)
  /-- DOM_ON (R36). Clearing a PWR.DOM_OFF bit starts the domain again under the start rules. -/
  | domOn (m : Fin 4) (d : Fin 12) (run : StartRun)
  /-- SUPPLY_INPUT_LOST (R25). Input A or B falls below 16.5 V, so its OK bit clears, its FAULT bit is set and 0x004
  is recorded. -/
  | supplyInputLost (b : Bool) (mv : BitVec 16)
  /-- SUPPLY_INPUT_RESTORED (R25). Input A or B rises to 17.5 V or more and records 0x005. -/
  | supplyInputRestored (b : Bool) (mv : BitVec 16)
  /-- LOW_INPUT (R25). The combined input enters or leaves 16.5 V to 18.0 V, and VIN_LOW changes. -/
  | lowInput (enters : Bool)
  /-- RESTART_AFTER_HOLDUP (R30). The sequence has ended and the supply is valid, so the module starts again with
  reset cause 0x3. -/
  | restartAfterHoldup (r : StartReading)
  /-- HOLDUP_MEASURE (R27). Once the capacitor is full and every 24 h, SUP measures the hold-up time into HOLDUP_T. -/
  | holdupMeasure (t : BitVec 16)
  /-- HOLDUP_TEST (R27). SUP command 0x04 starts a hold-up measurement. -/
  | holdupTest (m : Fin 4)
  /-- CELL_MEASURE (R31). Every 60 s SUP measures the backup cell voltage. -/
  | cellMeasure (mv : BitVec 16)
  /-- IMAGE_VERIFY (R40). Verification of the station image completes at t_iv, checking key, signature, format,
  carrier code and capabilities. -/
  | imageVerify (im : StationImage) (c : ImageCheck)
  /-- STOP_REACHED (R42). The image is loaded, the instance map is built, the initial placement is made, the module
  enters Stop, records 0x003 and closes the alarm contact. -/
  | stopReached (bad : List (Fin 4096))
  /-- TEMP_WARN (R48). The case temperature crosses CASE_WARN upward, or falls 2 °C below it, and records 0x00E. -/
  | tempWarn (t : BitVec 16)
  /-- OVER_TEMPERATURE_SHUTDOWN (R48). The case reaches +130 °C; 0x00F is recorded and the SHUTDOWN sequence runs. -/
  | overTemperatureShutdown (t : BitVec 16)
  /-- OVER_TEMPERATURE_RESTART (R48). After 60 s at or below +110 °C, the module restarts with cause 0x7. -/
  | overTemperatureRestart (r : StartReading)
  /-- RESTART (R46). The RESTART command shuts down as SHUTDOWN does and then starts again from PD1 with cause 0x4. -/
  | restart (m : Fin 4)
  /-- SHUTDOWN (R46). The SHUTDOWN command runs the shutdown steps and parks the module. -/
  | shutdown (m : Fin 4)
  /-- SHUTDOWN_TAIL (R46). Once PD2 is off, the recorder tail, tally flush, rest image and completion marker follow,
  and the module parks. -/
  | shutdownTail (part : Fin 3)
  /-- IDENTIFY (R47). SUP command 0x05 starts the identify function. -/
  | identify (m : Fin 4)
  /-- RECORDER_CLEAR (R449). The unlocked command empties the recorder, writes 0x001 and moves every cursor. -/
  | recorderClear (m : Fin 4)
  /-- KEY_ENROL (R51). The unlocked command enrols a key hash in an image key slot. -/
  | keyEnrol (m : Fin 4) (arg : BitVec 16)
  /-- KEY_REVOKE (R51). The unlocked command revokes an image key slot, one-way. -/
  | keyRevoke (m : Fin 4) (arg : BitVec 16)
  /-- FW_SLOT_PREFER (R51). The unlocked command chooses the preferred firmware slot for the next start. -/
  | fwSlotPrefer (m : Fin 4) (arg : BitVec 16)
  /-- FW_LOAD (R51). The unlocked command starts writing a firmware image into the slot not running. -/
  | fwLoad (m : Fin 4) (arg : BitVec 16)
  /-- FW_LOAD_COMPLETE (R51). The firmware load ends, verified under R39, with its RESULT. -/
  | fwLoadComplete (flashError : Bool) (reason : Fin 10)
  /-- IMAGE_LOAD (R51). The unlocked command starts writing a station image into the inactive image slot. -/
  | imageLoad (m : Fin 4) (arg : BitVec 16)
  /-- IMAGE_LOAD_COMPLETE (R51). The image load ends, verified under R40, with its RESULT. -/
  | imageLoadComplete (flashError : Bool) (im : StationImage) (c : ImageCheck)
  /-- UNLOCK (R51). Writes of the two key words to SUP.UNLOCK within 1 ms unlock the next CMD write. -/
  | unlock (m : Fin 4) (key : BitVec 32)
  /-- FLASH_READ (R51). FLASH_CMD OP 1 starts a read of flash blocks to memory. -/
  | flashRead (m : Fin 4)
  /-- FLASH_WRITE (R51). FLASH_CMD OP 2 starts a write of flash blocks from memory. -/
  | flashWrite (m : Fin 4)
  /-- FLASH_ERASE (R51). FLASH_CMD OP 3 starts an erase of flash blocks. -/
  | flashErase (m : Fin 4)
  /-- FLASH_OPERATION_DONE (R49). A flash operation ends, setting DONE, or ERROR with its ERR_CODE. -/
  | flashOperationDone (corrected : BitVec 16) (failed : Bool)
  /-- CLOCK_FAULT (R53). The reference fails or a derived clock loses lock; the CLK bit is set and 0x014 is recorded.
  -/
  | clockFault (k : Fin 4)
  /-- REF_DRIFT (R53). The 64 s comparison of the reference with the calendar crystal exceeds REF_DEV_LIMIT. -/
  | refDrift (dev : BitVec 16)
  /-- REGISTER_WRITE (R7). A write to a register field that has no row of its own takes effect under its class, access
  and owner rules. -/
  | registerWrite (m : Fin 4) (t : WriteTarget) (v : BitVec 32)
  /-- COMMIT_GO (R69). COMMIT.GO copies all shadows into the apply buffer and sets PENDING. -/
  | commitGo (m : Fin 4) (page : BitVec 9)
  /-- DISCARD (R71). COMMIT.DISCARD cancels a pending commit and reloads the shadows from the applied values. -/
  | discard (m : Fin 4) (page : BitVec 9)
  /-- COMMIT_APPLY (R69). At the block's boundary, the apply buffer is checked and takes effect in one step, and
  STAGE_SEQ rises. -/
  | commitApply (page : BitVec 9) (unit : Option (Fin 32))
  /-- OWNER_WRITE (R75). A write to OWNER, accepted by rank, changes the page owner and records 0x029. -/
  | ownerWrite (m : Fin 4) (page : BitVec 9) (v : Fin 4)
  /-- FAULT_EN_WRITE (R66). A write to FAULT_EN changes which bits FLT sees; setting a bit whose fault is set is a
  rising edge. -/
  | faultEnWrite (m : Fin 4) (page : BitVec 9) (v : BitVec 32)
  /-- FAULT_CLEAR (R412). A W1C write to a page FAULT bit clears it unless its condition still stands. -/
  | faultClear (m : Fin 4) (page : BitVec 9) (mask : BitVec 32)
  /-- RUN (R67). Writing CTRL.RUN = 1 takes a stopped block to running, or held if HOLD is 1. -/
  | run (m : Fin 4) (page : BitVec 9)
  /-- RUN_CLEAR (R67). Writing CTRL.RUN = 0 takes a running, held or degraded block to stopped. -/
  | runClear (m : Fin 4) (page : BitVec 9)
  /-- HOLD (R67). Writing CTRL.HOLD = 1 takes a running block to held. -/
  | hold (m : Fin 4) (page : BitVec 9)
  /-- HOLD_CLEAR (R67). Writing CTRL.HOLD = 0 takes a held block back to running. -/
  | holdClear (m : Fin 4) (page : BitVec 9)
  /-- CORE_PAIR_ACCESS (R54). A core pair makes a memory or register access through the physical map, in the execution of
  `task` where `inTask` holds. -/
  | corePairAccess (p : Fin 4) (op : CoreOp) (a : BitVec 40) (priv bad corr : Bool) (ecc : Ecc) (task : Fin 32)
      (inTask : Bool)
  /-- LOCKSTEP_MISMATCH (R58). The two cores of a pair disagree; the pair stops issuing accesses, is fenced and
  records 0x025. -/
  | lockstepMismatch (p : Fin 4) (point : Fin 4)
  /-- LOCKSTEP_SELFTEST (R59). A pair's lock-step self-test ends; a pair that failed to detect an injected mismatch is
  fenced. -/
  | lockstepSelftest (p : Fin 4) (failed : BitVec 4)
  /-- CORE_PAIR_RUN_OFF (R496). RUN = 0 on a pair stops it at once, or starts a placement run of cause 4 if it hosts
  tasks. -/
  | corePairRunOff (m p : Fin 4)
  /-- CORE_PAIR_RUN_ON (R496). RUN = 1 makes a stopped pair running, and it takes tasks at the next placement run. -/
  | corePairRunOn (m p : Fin 4)
  /-- EVENT_TAKE (R81). A read of its own EVENT_TAKE by a pair takes the highest-priority queued event. -/
  | eventTake (p : Fin 4)
  /-- TASK_FREEZE (R91). At S_n SEQ freezes the task's input image, latches τ_n and the fast counts, and the task
  becomes ready. -/
  | taskFreeze (k : Fin 32)
  /-- TASK_EXECUTION_END (R96). A task finishes its execution and TSTAT shows its execution time. -/
  | taskExecutionEnd (k : Fin 32) (us : BitVec 32) (outs : List (Fin 32768 × Fin 16 × List Byte)) (lines : List
      (BitVec 32 × List Byte))
  /-- TASK_PUBLISH (R91). At P_n the task's outputs and state are published, CYCLE_OUT is launched and the copy to the
  partner begins. -/
  | taskPublish (k : Fin 32) (copyLate : Bool)
  /-- TASK_APPLY (R91). At S_{n+1} on-board outputs and bound stations apply cycle n's outputs together. -/
  | taskApply (k : Fin 32)
  /-- SEQ_RUN (R101). RUN = 1 written to SEQ in Stop is checked and starts a Run entry at T_run. -/
  | seqRun (m : Fin 4)
  /-- SEQ_STOP (R104). RUN = 0 in Run or Hold sets STOP_PENDING, and no task freezes after it. -/
  | seqStop (m : Fin 4)
  /-- SEQ_HOLD (R106). HOLD = 1 holds each masked task from its next freeze instant. -/
  | seqHold (m : Fin 4)
  /-- SEQ_RELEASE (R108). HOLD = 0 releases held tasks, which freeze again at their next freeze instant. -/
  | seqRelease (m : Fin 4)
  /-- HOLD_MASK (R106). A write of HOLD_MASK changes which tasks are held from their next freeze instant. -/
  | holdMask (m : Fin 4) (v : BitVec 32)
  /-- STEP (R110). A STEP bit runs exactly one cycle of a held task at its next freeze instant. -/
  | step (m : Fin 4) (v : BitVec 32)
  /-- TON (R114). The cell instruction evaluates an on-delay timer with τ_n. -/
  | ton (k : Fin 32) (c : Fin 4096) (inp : Bool) (pt : BitVec 64)
  /-- TOF (R114). The cell instruction evaluates an off-delay timer with τ_n. -/
  | tof (k : Fin 32) (c : Fin 4096) (inp : Bool) (pt : BitVec 64)
  /-- TP (R114). The cell instruction evaluates a pulse timer with τ_n. -/
  | tp (k : Fin 32) (c : Fin 4096) (inp : Bool) (pt : BitVec 64)
  /-- CTU (R115). The cell instruction evaluates an up counter. -/
  | ctu (k : Fin 32) (c : Fin 4096) (cu r : Bool) (pv : BitVec 64)
  /-- CTD (R115). The cell instruction evaluates a down counter. -/
  | ctd (k : Fin 32) (c : Fin 4096) (cd ld : Bool) (pv : BitVec 64)
  /-- CTUD (R115). The cell instruction evaluates an up-down counter. -/
  | ctud (k : Fin 32) (c : Fin 4096) (cu cd r ld : Bool) (pv : BitVec 64)
  /-- R_TRIG (R115). The cell instruction evaluates a rising edge detector. -/
  | rTrig (k : Fin 32) (c : Fin 4096) (clk : Bool)
  /-- F_TRIG (R115). The cell instruction evaluates a falling edge detector. -/
  | fTrig (k : Fin 32) (c : Fin 4096) (clk : Bool)
  /-- FAST (R116). The cell instruction returns the latched count minus the base of a FAST cell, or resets the base.
  -/
  | fast (k : Fin 32) (c : Fin 4096) (reset : Bool)
  /-- FAST_EDGE (R116). A counted edge on a FAST cell's DIO channel raises its running count. -/
  | fastEdge (ch : Fin 64) (rising : Bool)
  /-- PREPARE (R118). XCHG_CMD PREPARE starts building the new image, instance map and placement in the background. -/
  | prepare (m : Fin 4)
  /-- EXCHANGE_PREPARED (R118). Preparation completes with STATE 2 and 0x045, or fails with STATE 5. -/
  | exchangePrepared (built partner : Bool)
  /-- APPLY (R119). XCHG_CMD APPLY starts the search for an exchange window. -/
  | apply (m : Fin 4) (partner : Bool)
  /-- EXCHANGE_WINDOW (R120). At window X the module changes to the new image in one step and records 0x046. -/
  | exchangeWindow (ns : BitVec 32)
  /-- CANCEL (R118). XCHG_CMD CANCEL discards a preparation or search and returns STATE to 0. -/
  | cancel (m : Fin 4)
  /-- REPLACE (R138). PLACE.CMD REPLACE starts a placement run of cause 2, or is refused with a RESULT. -/
  | replace (m : Fin 4)
  /-- ABANDON_MOVES (R140). PLACE.CMD code 2 abandons outstanding moves. -/
  | abandonMoves (m : Fin 4)
  /-- PLACEMENT_RUN_FENCE (R149). After a pair is fenced, PLACE re-places its tasks on the healthy pairs within 100 µs
  and starts their tier-0 fills. -/
  | placementRunFence (p : Fin 4) (ran : List (Fin 32 × BitVec 32))
  /-- TIER0_FILL_DONE (R150). A moved task's tier-0 fill finishes after S_{n+1}, and the task becomes ready. -/
  | tier0FillDone (k : Fin 32)
  /-- DIRECTORY_WRITE (R146). A core-pair write to the directory is accepted in Stop to W0 to W2, and is otherwise
  refused with 0x058. -/
  | directoryWrite (i : Fin 32768) (w : Fin 4) (v : BitVec 32)
  /-- FORCE (R147). FORCE_CMD force requests a force of the selected entry. -/
  | force (m : Fin 4)
  /-- FORCE_RELEASE (R147). FORCE_CMD release requests the release of a forced entry. -/
  | forceRelease (m : Fin 4)
  /-- LPE_RUN_ON (R157). LPE RUN = 1 gives every enabled slot INIT and records 0x087. -/
  | lpeRunOn (m : Fin 4)
  /-- LPE_RUN_OFF (R157). LPE RUN = 0 writes OUT_SAFE with SUBST to every enabled slot and records 0x087. -/
  | lpeRunOff (m : Fin 4)
  /-- LOOP_SAMPLE (R172). A loop slot latches its inputs at its time, angle or image trigger and evaluates its PID
  sample. -/
  | loopSample (n : Fin 1024) (ecc : Ecc)
  /-- SLOT_COMMIT_TIMEOUT (R169). A disabled, Off or event-triggered slot takes a checked commit 1 s after the check.
  -/
  | slotCommitTimeout (n : Fin 1024)
  /-- LOOP_OUTPUT_WRITE (R164). At the next loop base tick the slot writes its output, STAT and quality entries. -/
  | loopOutputWrite (n : Fin 1024) (delay : BitVec 64) (due : BitVec 16)
  /-- LOOP_RECORD_WRITE (R166). A write to a loop record word goes to its shadow, takes effect at the next latch, or
  is refused if Locked. -/
  | loopRecordWrite (n : Fin 1024) (w : Fin 64) (v : Word) (ecc : Ecc)
  /-- FOLD_SAMPLE (R186). All members of a fold sample together; the fold selects a source and the others track its
  output. -/
  | foldSample (f : Fin 128) (n : Fin 1024) (ecc : Ecc)
  /-- TRACE_ARM (R201). The channel command ARM arms a trace channel at the next loop base tick. -/
  | traceArm (c : Fin 16) (m : Fin 4)
  /-- ARM_ALL (R201). LPT.ARM_ALL arms the selected channels at the same loop base tick. -/
  | armAll (mask : BitVec 16) (m : Fin 4)
  /-- TRACE_FORCE (R202). The channel command FORCE triggers the channel at its next sample. -/
  | traceForce (c : Fin 16) (m : Fin 4)
  /-- TRACE_STOP (R201). The channel command STOP stops an armed or triggered channel, or idles it. -/
  | traceStop (c : Fin 16) (m : Fin 4)
  /-- ENCODER_COUNT (R208). An accepted encoder or tooth edge moves the source's count and angle, and refines
  predictions. -/
  | encoderCount (n : Fin 4) (ev : EncEvent) (age : Fin 21)
  /-- WIRE (R211). The receiver detects an open or shorted pair, and the source goes to Lost. -/
  | wire (n : Fin 4) (stands : Bool)
  /-- STANDSTILL (R215). No count arrives for STALL_MS, so the source enters Standstill and writes speed 0.0. -/
  | standstill (n : Fin 4)
  /-- MAINS_CROSSING (R217). A positive-going zero crossing updates the PLL, rms voltage and frequency of a mains
  source. -/
  | mainsCrossing (j : Fin 4) (vrms phase4 : Word) (w4 : BitVec 64) (phase5 : Word) (w5 : BitVec 64)
  /-- MAINS_SIGNAL_LOST (R218). The signal stays below V_MIN for 40 ms, and the mains source goes to Lost. -/
  | mainsSignalLost (i : Fin 2)
  /-- ANGLE_READ (R206). A read of ASRCn.ANGLE latches REV_SNAP and SNAP_T. -/
  | angleRead (n : Fin 6)
  /-- SLOT_ARM (R236). SLOT_CMD ARM arms an event slot and computes its target. -/
  | slotArm (m : Fin 4)
  /-- SLOT_DISARM (R236). SLOT_CMD DISARM disarms an event slot. -/
  | slotDisarm (m : Fin 4)
  /-- ACTION_ISSUE (R223). At its predicted instant, an event slot issues its action and takes its next target. -/
  | actionIssue (k : Fin 256) (busy : Bool)
  /-- MOVE_ABS (R242). The axis command moves to the target with a profile; a change of TGT without BIND_CMD acts the
  same. -/
  | moveAbs (n : Fin 8)
  /-- MOVE_REL (R242). The axis command moves by TGT from the current target or position. -/
  | moveRel (n : Fin 8)
  /-- VELOCITY (R242). The axis command runs at VMAX in the direction of TGT. -/
  | velocity (n : Fin 8)
  /-- AXIS_STOP (R242). The axis command STOP decelerates to rest at DEC. -/
  | axisStop (n : Fin 8)
  /-- QUICK_STOP (R242). The axis command decelerates to rest at QDEC. -/
  | quickStop (n : Fin 8)
  /-- HOME (R255). The axis command starts the homing sequence of HOME_CFG.MODE. -/
  | home (n : Fin 8)
  /-- GEAR_IN (R248). The axis command engages gearing at once or at the next crossing. -/
  | gearIn (n : Fin 8)
  /-- GEAR_OUT (R242). The axis command leaves gearing and decelerates at DEC. -/
  | gearOut (n : Fin 8)
  /-- MOVE_DONE (R245). A move ends at rest exactly on its target, and AT_TARGET is set. -/
  | moveDone (n : Fin 8)
  /-- GEAR_RATIO_APPLIED (R250). The bellwether crosses GEAR_AT and the new ratio applies with a new anchor, recording
  0x0E6. -/
  | gearRatioApplied (n : Fin 8)
  /-- GEAR_LAG (R251). abs(LAG) exceeds LAG_MAX and records 0x0E7. -/
  | gearLag (n : Fin 8)
  /-- GEAR_SRC (R249). The bellwether becomes unusable; gearing ends and 0x0E8 is recorded. -/
  | gearSrc (n : Fin 8)
  /-- SWITCH_QUALIFIED (R252). A limit or reference input holds a new level for QUAL_N samples, and the level
  qualifies with its capture point. -/
  | switchQualified (n : Fin 8) (sw : Fin 3) (active : Bool) (capt : Int)
  /-- HOMING_COMPLETE (R255). The homing back-off move ends; HOMED is set and 0x0E2 is recorded. -/
  | homingComplete (n : Fin 8)
  /-- CHATTER (R253). More than CHAT_MAX chatter edges fall within 1 s and record 0x0E5: a raw edge of the switch to `level`, which
  the model judges. -/
  | chatter (n : Fin 8) (sw : Fin 3) (level : Bool)
  /-- VMOT_MISSING (R259). VMOT below 18.0 V turns the bridges off and faults AX0 to AX3. -/
  | vmotMissing (mv : BitVec 16)
  /-- VMOT_LOW (R259). VMOT between 18.0 V and 21.6 V clears VMOT_OK, and motion continues. -/
  | vmotLow (mv : BitVec 16)
  /-- VMOT_OVER (R259). VMOT above 52.8 V acts as missing. -/
  | vmotOver (mv : BitVec 16)
  /-- VMOT_RESTORED (R259). VMOT returns within range and records 0x0E9 SUB 3. -/
  | vmotRestored (mv : BitVec 16)
  /-- OVERCURRENT (R262). A bridge leg above 4.5 A opens the coils and faults the axis. -/
  | overcurrent (n : Fin 4) (phase : Fin 2)
  /-- OPEN_COIL (R262). At rest the peak stays below i_t / 2 for 8 periods, and the axis faults. -/
  | openCoil (n : Fin 4) (phase : Fin 2)
  /-- THERMAL_WARNING (R262). A bridge above +135 °C records 0x0EA kind 3. -/
  | thermalWarning (n : Fin 4) (phase : Fin 2) (temp : BitVec 16)
  /-- THERMAL_SHUTDOWN (R262). A bridge above +150 °C opens the coils and faults the axis. -/
  | thermalShutdown (n : Fin 4) (phase : Fin 2) (temp : BitVec 16)
  /-- HOLD_DELAY (R260). HOLD_DELAY after rest expires, and the coil current changes to I_HOLD. -/
  | holdDelay (n : Fin 4)
  /-- PTP_TIMESTAMP (R273). A PTP event message crosses the MDI and its instant enters the timestamp FIFO. -/
  | ptpTimestamp (port : Fin 4) (sent : Bool) (msgType : BitVec 4) (domain : BitVec 8) (seqId : BitVec 16)
  /-- SYNC_ACCEPTED (R274). A matching Sync is accepted for a domain, restoring it if it was lost. -/
  | syncAccepted (port : Fin 4) (domNum : BitVec 8) (ident : BitVec 64) (srcPort : BitVec 16)
  /-- DOMAIN_LOST (R274). No Sync is accepted within SYNC_TMO, so the domain is lost and 0x107 is recorded. -/
  | domainLost (dom : Fin 2)
  /-- FIRST_STN (R275). STEP_CMD takes the first step of station time, or keeps it pending while SEQ is in Run or
  Hold. -/
  | firstStn (m : Fin 4)
  /-- FIRST_STP (R275). STEP_CMD takes the first step of stamp time at the next tick. -/
  | firstStp (m : Fin 4)
  /-- STEP_STN (R278). STEP_CMD steps station time outside Run and Hold, with flushes and recomputations. -/
  | stepStn (m : Fin 4)
  /-- STEP_STP (R278). STEP_CMD steps stamp time outside Run and Hold. -/
  | stepStp (m : Fin 4)
  /-- STEP_BOTH (R278). STEP_CMD steps both counters outside Run and Hold. -/
  | stepBoth (m : Fin 4)
  /-- STN_ADJ (R276). A write of STN_ADJ loads the station residual, which is removed at STN_SLEW. -/
  | stnAdj (m : Fin 4) (v : BitVec 32)
  /-- STN_INC (R268). A write of the base increment within ±1,000 ppm is taken, or ignored with 0x10B. -/
  | stnInc (m : Fin 4) (v : BitVec 32)
  /-- DOM_OFS (R281). A write of a domain's prepared offset updates the estimate and may load the stamp residual or
  end holdover. -/
  | domOfs (m : Fin 4) (dom : Fin 2) (v : BitVec 32)
  /-- STN_DOM (R280). A write of DOM_SEL.STN_DOM changes the station domain at the next tick and records 0x109. -/
  | stnDom (m : Fin 4) (dom : Fin 2)
  /-- STP_SWITCH (R282). The command changes the stamp domain to an eligible other domain. -/
  | stpSwitch (m : Fin 4)
  /-- FRAME_LAUNCH (R284). A launch-time queue's head frame reaches its launch instant and is sent, returning its
  transmit instant. -/
  | frameLaunch (port : Fin 4) (queue : Fin 8)
  /-- ANNOUNCE_RETURN (R308). A returning ANNOUNCE copy is timed for T_ring, and may close the ring. -/
  | announceReturn (dir : Bool) (us : BitVec 16)
  /-- JOIN (R301). A JOIN frame is matched to a station page and answered with an OFFER within 10 ms. -/
  | join (frame : List Byte)
  /-- ACCEPT (R300). A JOIN with ACCEPT = 1 confirms an offer, and the module sends BIND within 10 ms. -/
  | accept (frame : List Byte)
  /-- OFFER_LAPSE (R300). An offer not accepted within 100 ms lapses, and the page returns to Waiting. -/
  | offerLapse (a : Fin 250)
  /-- CYCLE_IN (R311). A CYCLE_IN frame is checked and, if good, writes its inputs into the image. -/
  | cycleIn (frame : List Byte)
  /-- EVALUATE_STATIONS (R313). At each freeze instant of a task's grid DWY counts misses, marks inputs stale and
  writes STAT. -/
  | evaluateStations (k : Fin 32)
  /-- STN_READMIT (R315). STN.CMD READMIT meets the readmit condition for the next qualifying freeze. -/
  | stnReadmit (a : Fin 250) (m : Fin 4)
  /-- STN_LEAVE (R325). STN.CMD LEAVE sends LEAVE with reason 17 and ends the binding. -/
  | stnLeave (a : Fin 250) (m : Fin 4)
  /-- REJOIN (R317). A REJOIN from the last bound MAC is answered with BIND directly, or is handled as a JOIN. -/
  | rejoin (frame : List Byte)
  /-- LEAVE (R318). A LEAVE from a station ends its binding. -/
  | leave (frame : List Byte)
  /-- LINK_CHANGE (R327). An Ethernet port's link changes state and records 0x180. -/
  | linkChange (port : Fin 4) (speed : Fin 4)
  /-- TXQ_TAIL (R328). A write of TXQ_TAIL gives the port new transmit descriptors. -/
  | txqTail (port : Fin 4) (m : Fin 4) (tail : BitVec 10)
  /-- TX_WRITE_BACK (R329). A transmit descriptor completes and is written back with its status. -/
  | txWriteBack (port : Fin 4)
  /-- FRAME_RECEIVE (R332). A received frame passes the checks, duplicate discard, rules and storm limit into its
  receive queue. -/
  | frameReceive (port : Fin 4) (fcsOk : Bool) (frame : List Byte)
  /-- RXQ_TAIL (R328). A write of RXQ_TAIL supplies receive descriptors. -/
  | rxqTail (port : Fin 4) (m : Fin 4) (tail : BitVec 10)
  /-- LAN_LOST (R331). No frame arrives on a PRP LAN for LAN_TMO, so the LAN is lost and 0x181 is recorded. -/
  | lanLost (lan : Fin 2)
  /-- TX_SUBMIT (R342). A write of TX_SUBMIT copies a CAN transmit entry and makes it pending, or is refused. -/
  | txSubmit (can : Fin 4) (m : Fin 4) (k : Fin 64) (busFree : Bool)
  /-- TX_ABORT (R342). A write of TX_ABORT ends a pending CAN entry with outcome ABORTED. -/
  | txAbort (can : Fin 4) (m : Fin 4) (k : Fin 64)
  /-- TX_DONE (R342). A W1C write of TX_DONE acknowledges a completed CAN entry. -/
  | txDone (can : Fin 4) (m : Fin 4) (mask : BitVec 64)
  /-- CAN_TX_COMPLETE (R345). A CAN transmit entry completes with its outcome and raises its event. -/
  | canTxComplete (can : Fin 4) (ending : CanEnd)
  /-- CAN_RECEIVE (R346). A received CAN frame is filtered and stored in the receive ring, or dropped on overrun. -/
  | canReceive (can : Fin 4) (took : BitVec 32) (resRecessive : Bool) (w0 : BitVec 32) (brs esi : Bool) (dlc : Fin 16) (data : List
      Byte)
  /-- RX_ACK (R346). A write of RX_ACK returns filled receive entries to the controller. -/
  | rxAck (can : Fin 4) (m : Fin 4) (count : BitVec 8)
  /-- CAN_BUS_ERROR (R348). A bus error changes TEC or REC and may change the error state. -/
  | canBusError (can : Fin 4) (tec : BitVec 9) (rxc : BitVec 8) (lec dlec : Fin 7)
  /-- RECOVER (R348). CAN command RECOVER starts bus-off recovery. -/
  | recover (can : Fin 4) (m : Fin 4)
  /-- RECOVERY_DONE (R348). After 128 idle sequences the controller returns to error active. -/
  | recoveryDone (can : Fin 4)
  /-- START_ABR (R349). CAN command START_ABR starts bit-rate detection in listen-only mode. -/
  | startAbr (can : Fin 4) (m : Fin 4)
  /-- ABR_FAIL (R349). No candidate succeeds within ABR.TMO and 0x1A3 SUB 1 is recorded. -/
  | abrFail (can : Fin 4)
  /-- DIO_LEVEL_ACCEPTED (R359). A new input level holds for FILT and is accepted, writing the IN entry and any edge
  entry. -/
  | dioLevelAccepted (ch : Fin 64) (level : Bool) (age : BitVec 32)
  /-- OVERLOAD (R361). An output stays in current limit for 5 ms and records 0x1C1. -/
  | overload (ch : Fin 64) (ma : BitVec 16)
  /-- DIO_THERMAL (R361). An output switch's sensor trips, and the channel opens and stays open. -/
  | dioThermal (ch : Fin 64)
  /-- DIO_RESTART (R361). A RESTART bit restarts a cool, thermally shut-down channel, or is refused. -/
  | dioRestart (m : Fin 4) (g : Fin 8) (mask : BitVec 8)
  /-- TEST_PULSE (R362). Every TP_PERIOD an off output is pulsed for 300 µs and checked for wire break. -/
  | testPulse (ch : Fin 64) (low : Bool)
  /-- OPEN_LOAD (R362). An on output draws less than 2 mA for 100 ms and records 0x1C3 SUB 1. -/
  | openLoad (ch : Fin 64) (ma : BitVec 16)
  /-- READBACK (R363). Terminal level differs from command for 10 ms and records 0x1C4. -/
  | readback (ch : Fin 64)
  /-- FS_MISSING (R366). The field supply is below 9.0 V for 1 ms; switches open and inputs are BAD. -/
  | fsMissing (g : Fin 8) (mv : BitVec 16)
  /-- FS_LOW (R366). The field supply is below 19.2 V for 1 ms; inputs are UNCERTAIN. -/
  | fsLow (g : Fin 8) (mv : BitVec 16)
  /-- FS_RESTORED (R366). The field supply leaves a condition after 10 ms above its exit threshold. -/
  | fsRestored (g : Fin 8) (mv : BitVec 16)
  /-- ANALOGUE_CONVERSION (R368). An analogue channel ends a conversion and writes its value or readback with quality.
  -/
  | analogueConversion (n : Fin 16) (i : BitVec 32) (mv : BitVec 16)
  /-- ANALOGUE_READBACK (R369). An output's loop current deviates by more than 0.2 mA for 100 ms and records 0x1E8. -/
  | analogueReadback (n : Fin 16) (dev : BitVec 32)
  /-- NO_LOOP (R370). The loop current of a passive output falls below 3.6 mA, or returns. -/
  | noLoop (n : Fin 16) (lost : Bool)
  /-- ISLAND_THERMAL (R371). A power stage trips its thermal limit and records 0x1E2. -/
  | islandThermal (n : Fin 16)
  /-- ANA_RESTART (R371). ANA command RESTART restarts a cooled power stage, or is refused. -/
  | anaRestart (m : Fin 4) (n : Fin 16)
  /-- MISWIRE (R373). A channel's current limit or reverse voltage puts it into mis-wiring. -/
  | miswire (n : Fin 16) (mv : BitVec 32)
  /-- MISWIRE_RETEST (R373). Every 1 s the channel tests its terminals again and resumes when clear. -/
  | miswireRetest (n : Fin 16) (clear : Bool) (mv : BitVec 32)
  /-- ISLAND (R373). An island loses its link, calibration or converter and records 0x1E7. -/
  | island (n : Fin 16) (kind : Fin 3)
  /-- HART_SEND (R374). HART_CMD SEND starts a HART transaction, or is refused with RESULT 6. -/
  | hartSend (m : Fin 4) (n : Fin 16)
  /-- HART_ABORT (R374). HART_CMD ABORT ends a running transaction. -/
  | hartAbort (m : Fin 4) (n : Fin 16)
  /-- HART_TAKE (R374). HART_CMD TAKE frees HART_RX to receive burst frames. -/
  | hartTake (m : Fin 4) (n : Fin 16)
  /-- HART_TRANSACTION_END (R374). A HART transaction ends with its RESULT and raises its event. -/
  | hartTransactionEnd (n : Fin 16) (result : Fin 3) (tries : BitVec 8) (response : List Byte)
  /-- HART_BURST (R374). A burst frame arrives outside a transaction and is stored or counted lost. -/
  | hartBurst (n : Fin 16) (frame : List Byte)
  /-- HEARTBEAT (R385). A received HEARTBEAT gives the partner's state and the offset and delay stamps. -/
  | heartbeat (l : Fin 2) (f : List Byte) (mask : BitVec 32)
  /-- LANE_CHANGE (R382). A Dervor lane goes up or down and records 0x203. -/
  | laneChange (l : Fin 2) (up : Bool)
  /-- PAIRING (R386). A received PAIRING is checked, pairing the modules or refusing with a reason. -/
  | pairing (l : Fin 2) (f : List Byte) (carrier : Fin 8)
  /-- COMMIT (R388). A received COMMIT applies all copied lines of a task cycle in one step on the standby. -/
  | commit (l : Fin 2) (f : List Byte)
  /-- COPY_FRAME (R384). A received COPY frame's lines are held until their COMMIT. -/
  | copyFrame (l : Fin 2) (f : List Byte)
  /-- LOOP (R390). A received LOOP frame is gathered, and a complete snapshot is loaded. -/
  | loop (l : Fin 2) (f : List Byte)
  /-- HANDOVER (R392). A received HANDOVER tells the standby of the hand instant or fault yield. -/
  | handover (l : Fin 2) (f : List Byte)
  /-- REQUEST (R384). A received REQUEST is executed as partner and answered with RESPONSE. -/
  | request (l : Fin 2) (f : List Byte)
  /-- RESPONSE (R384). A received RESPONSE gives the result of an earlier REQUEST. -/
  | response (l : Fin 2) (f : List Byte)
  /-- PARTNER_DUTY_RELEASED (R391). PARTNER_DUTY_IN changes, and with heartbeats lost a standby takes over or claims
  into Stop. -/
  | partnerDutyReleased (asserted : Bool)
  /-- TAKE_IN (R391). PARTNER_TAKE_IN is asserted, and the standby claims for a fault yield or handover. -/
  | takeIn (asserted : Bool)
  /-- SWITCH (R392). PAIR.CMD SWITCH requests a handover at a hand instant H. -/
  | switch (m : Fin 4)
  /-- RESYNC (R387). PAIR.CMD RESYNC on the standby starts a full copy again. -/
  | resync (m : Fin 4)
  /-- SHADOW_CHECK (R396). The standby finishes re-executing a copied cycle and compares its digest with the duty's.
  -/
  | shadowCheck (p : Fin 4) (d : BitVec 64)
  /-- SELFTEST (R399). Every PERIOD_S the standby tests its outputs, inputs, pairs and lanes. -/
  | selftest (dio : List (Fin 64)) (aout ain : List (Fin 16)) (cores : List (Fin 4 × Fin 4))
  /-- FAULT_SOURCE_RISE (R408). A fault source rises and FLT takes the reaction of its class within 1 µs. -/
  | faultSourceRise (parity : Option (BitVec 9 × BitVec 12))
  /-- SRC_CLEAR (R412). FLT.SRC_CLEAR clears the selected source on every raising page, unless its condition stands.
  -/
  | srcClear (m : Fin 4)
  /-- READMIT_PAGE (R413). FLT.READMIT KIND 0 re-admits a fenced page, or refuses it with a RESULT. -/
  | readmitPage (m : Fin 4) (id : BitVec 9)
  /-- READMIT_TASK (R415). FLT.READMIT KIND 1 re-admits a shed task and places it. -/
  | readmitTask (m : Fin 4) (kind : Fin 3) (id : BitVec 9)
  /-- FE_CLEAR (R418). A write of FE_CLEAR re-arms LEG. -/
  | feClear (m : Fin 4)
  /-- PRESET (R437). TLY.CMD PRESET sets a permitted counter and records 0x242. -/
  | preset (m : Fin 4)
  /-- ADD (R437). TLY.CMD ADD adds PRESET_LO to a firmware counter. -/
  | add (m : Fin 4)
  /-- FLUSH (R435). TLY.CMD FLUSH writes changed counters to MRAM. -/
  | flush (m : Fin 4)
  /-- THRESH_HI (R436). A write of THRESH_HI applies the 64-bit threshold and may re-arm its test. -/
  | threshHi (m : Fin 4) (v : BitVec 32)
  /-- TLY_UNLOCK (R437). The unlock sequence written to TLY.UNLOCK permits the next PRESET of indices 13 to 92. -/
  | tlyUnlock (m : Fin 4) (key : BitVec 32)
  /-- RECORD_WRITE (R440). The record at the head of the queue is written to MRAM and verified. -/
  | recordWrite (ok : Bool)
  /-- SUMMARY_RECORD (R442). A code's bucket refills to BURST with suppressed records pending, and REC writes a
  summary record. -/
  | summaryRecord (code : BitVec 12)
  /-- LOG_CMD (R454). A write of LOG_CMD submits a firmware record with code 0x400 to 0xFFF. -/
  | logCmd (m : Fin 4) (code : BitVec 12) (sub : BitVec 3)
  /-- WRAP_ACK (R441). A write of WRAP_ACK moves n wraps from PEND into EPOCH. -/
  | wrapAck (m : Fin 4) (n : BitVec 2)
  /-- EPOCH (R441). A write of EPOCH sets it, clears PEND and EPOCH_STALE and records 0x247. -/
  | epoch (m : Fin 4) (v : BitVec 32)
  /-- WIN_W0_READ (R445). A read of WIN_W0 by the cursor's master locks the window. -/
  | winW0Read (c m : Fin 4)
  /-- WIN_W7_READ (R445). A read of WIN_W7 by the cursor's master unlocks the window and advances the cursor. -/
  | winW7Read (c m : Fin 4)
  /-- SEEK_OLDEST (R448). SEEK code 1 moves the cursor to the oldest record. -/
  | seekOldest (c m : Fin 4)
  /-- SEEK_END (R448). SEEK code 2 moves the cursor to the newest record plus one. -/
  | seekEnd (c m : Fin 4)
  /-- SEEK_SEQ (R448). SEEK code 3 moves the cursor to the sequence in SEEK_SEQ, if held. -/
  | seekSeq (c m : Fin 4)
  /-- REQ (R460). A bit of PNL.REQ snapshots a region of the frame buffer as a request. -/
  | req (m : Fin 4) (mask : BitVec 8)
  /-- COMMON_DRIVE_DONE (R456). A 400 µs common drive completes and the in-progress marker clears. -/
  | commonDriveDone (markerOk : Bool) (driveErr : Fin 3)
  /-- REST_CMD_TEXT (R464). REST_CMD code 1 draws the rest image with cause 8 from REST_TEXT. -/
  | restCmdText (m : Fin 4)
  /-- REST_CMD_BLANK (R464). REST_CMD code 2 draws the rest image with cause 0. -/
  | restCmdBlank (m : Fin 4)
  /-- TEMP_RANGE (R457). The panel temperature leaves or returns to its drive range, and drives stop or resume. -/
  | tempRange (t : BitVec 16)
  /-- ESTIMATE_EXPIRED (R281). A domain's DOMx_OFS has not been written within EST_MAX ms, so DOMx_EST_OK clears and
  the domain is no longer eligible. -/
  | estimateExpired (dom : Fin 2)
  /-- FAR_CLEARED (R277). A counter's residual, counting down by its slew trim, falls to FAR_NS or below, so FAR
  clears and 0x108 is recorded. -/
  | farCleared (stp : Bool)
  /-- PARTNER_LINE_TIMEOUT (R400). DUTY_IN stays released for 5 ms while the partner reports duty, or TAKE_IN stays
  asserted 1 ms without a yield, so LINE is set and 0x209 is recorded. -/
  | partnerLineTimeout (take : Bool)
  /-- EDGE_W1_READ (R360). A read of EDGE_W1 removes the oldest edge entry from the selected channel's buffer and
  frees space. -/
  | edgeW1Read (g : Fin 8)
  /-- STN_NS_READ (R269). A read of STN_NS or STP_NS latches the upper word into STN_SNAP_HI or STP_SNAP_HI. -/
  | stnNsRead (stp : Bool)
  /-- EMITTER_FAULT (R471). An emitter is open or short for 100 ms, is left dark and records 0x270. -/
  | emitterFault (i : Fin 12) (colour : Fin 3) (short : Bool)
  /-- ISLAND_LINK_RESTORED (R412). An analogue island's barrier link, calibration or converter returns, ending the
  ISLAND condition so that a clear is accepted. -/
  | islandLinkRestored (n : Fin 16)
  /-- CLOCK_LOCK_RESTORED (R412). The reference returns or a derived clock regains lock, and the CLK condition source
  stops standing. -/
  | clockLockRestored (k : Fin 4)
  /-- POWER_STAGE_COOLED (R361). A DIO switch, stepper bridge or analogue power stage cools below its restart
  temperature (COOL), so restart and clear become accepted. -/
  | powerStageCooled (kind : Fin 3) (n : Fin 64)
  /-- ISLAND_READY (R34). An analogue island becomes ready at most 20 ms after its own start, and an active input's
  transmitter supply switches on. -/
  | islandReady (n : Fin 16) (ma : BitVec 16)
  /-- TALLY_TIME_COUNT (R434). Each second the time tallies advance and the case temperature bin is sampled, which can
  reach a threshold. -/
  | tallyTimeCount (temp : BitVec 16)
  /-- DIP (R25). The combined input falls below 16.5 V for 2 µs to 0.5 ms; DIP_COUNT rises and 0x008 is recorded. -/
  | dip
  /-- SUPPLY_LOSS (R28). The loss of the combined input qualifies at t0 + 0.5 ms; the hold-up sequence starts, partner
  lines and the alarm are released, and outputs go off. -/
  | supplyLoss
  /-- HOLDUP_DOMAINS_OFF (R28). At t0 + 0.6 ms PD11 to PD2 are switched off together. -/
  | holdupDomainsOff
  /-- HOLDUP_RECORDER_TAIL (R28). At t0 + 1.0 ms 0x006 is recorded, the recorder tail is written to MRAM and the
  tallies are flushed. -/
  | holdupRecorderTail
  /-- HOLDUP_REST_IMAGE (R28). At t0 + 3.0 ms the panel is driven to its rest image with cause SUPPLY LOST. -/
  | holdupRestImage
  /-- HOLDUP_COMPLETION (R28). At t0 + 17 ms the completion marker is written, PD1 switches off and PD0 changes to the
  cell. -/
  | holdupCompletion
  /-- SUP_WATCHDOG_EXPIRY (R38). The SUP watchdog expires; the R28 steps run and the module restarts from PD1 with
  cause 0x5. -/
  | supWatchdogExpiry
  /-- SUP_UNCORRECTABLE_ERROR (R38). An uncorrectable error in the SUP core or memory runs the R28 steps and restarts
  with cause 0x6. -/
  | supUncorrectableError
  /-- IDENTIFY_PRESS (R47). A press of IDENTIFY shorter than 2 s starts the identify function for 30 s and records
  0x016. -/
  | identifyPress
  /-- MAINTENANCE_START (R47). IDENTIFY is still held 5 s after PD1 start, so the module makes a maintenance start
  without loading the image. -/
  | maintenanceStart
  /-- IDENTIFY_RELEASE (R47). IDENTIFY, held at PD1 start, is released before 5 s, and the start goes on normally. -/
  | identifyRelease
  /-- IDENTIFY_END (R470). The 30 s identify period ends, and the blinking of indicator 11 stops. -/
  | identifyEnd
  /-- SHUTDOWN_DOMAIN_OFF (R46). During shutdown, the next domain in reverse start order is switched off, 2 ms after
  the previous one. -/
  | shutdownDomainOff
  /-- RUN_ENTRY (R102). At T_run SEQ enters Run or Hold, resets non-retentive cells and loops take their Run
  behaviour. -/
  | runEntry
  /-- AUTORUN (R103). For an image marked for automatic run, SUP writes RUN = 1 1 ms after the module may first run.
  -/
  | autorun
  /-- STOP_COMPLETE (R104). At T_stop SEQ is stopped, outputs take safe values, stations are held and loops take their
  stop behaviour. -/
  | stopComplete
  /-- EXCHANGE_SEARCH_TIMEOUT (R123). No window is found within 2 s, and APPLY is refused with reason 6. -/
  | exchangeSearchTimeout
  /-- MOVE_STALLED (R140). Moves still outstanding 10 s after a run are abandoned and record 0x057. -/
  | moveStalled
  /-- FORCE_TAKE_EFFECT (R147). At the next base tick, a force or release takes effect on the value location and the
  force shadow. -/
  | forceTakeEffect
  /-- SYNC_REQUEST (R229). The REQ entry rises with EN 1, and the synchroniser starts waiting for its checks. -/
  | syncRequest
  /-- SYNC_FREEZE (R231). At t_i − 2 ms the close angle and prediction are frozen. -/
  | syncFreeze
  /-- SYNC_CLOSE (R232). At t_i the close channel switches on and 0x0C9 is recorded. -/
  | syncClose
  /-- SYNC_FEEDBACK (R232). The breaker feedback rises, the closing time and contact phase are captured, and the state
  is Closed. -/
  | syncFeedback
  /-- SYNC_PULSE_END (R232). The close pulse ends after PULSE_MS or 20 ms after feedback. -/
  | syncPulseEnd
  /-- CB_NO_CLOSE (R233). No feedback arrives within 2 × TCLOSE + 100 ms, so the synchroniser aborts with reason 7. -/
  | cbNoClose
  /-- SYNC_TMO (R233). SYNC_TMO expires since the request rose, so the synchroniser aborts with reason 4. -/
  | syncTmo
  /-- STATION_TIME_WRAP (R270). STN_NS wraps, STN_HI rises and EVD source 0x320 is raised. -/
  | stationTimeWrap
  /-- STAMP_TIME_WRAP (R270). STP_NS wraps, STP_HI rises, REC's PEND rises and source 0x321 is raised. -/
  | stampTimeWrap
  /-- TS_W3_READ (R289). A read of TS_W3 removes the timestamp entry shown. -/
  | tsW3Read
  /-- RESIDUAL_CLEARED (R282). The stamp residual reaches 0 during a change, STP_STATE becomes locked and 0x105 is
  recorded. -/
  | residualCleared
  /-- ANNOUNCE (R300). Every ANN_MS the duty sends an ANNOUNCE frame on the ring. -/
  | announce
  /-- CLAIM_WAIT (R379). Slot B's CLAIM_WAIT expires with DUTY_IN still released, and it claims. -/
  | claimWait
  /-- CLAIM_CHECK (R379). 20 µs after a claim DUTY_IN is read, and the module becomes duty or resolves a collision. -/
  | claimCheck
  /-- HEARTBEAT_SEND (R385). Every 100 µs each module sends HEARTBEAT. -/
  | heartbeatSend
  /-- HEARTBEAT_LOSS (R385). No heartbeat arrives for HB_MISS × 100 µs + 50 µs and 0x204 is recorded. -/
  | heartbeatLoss
  /-- PAIRING_SEND (R386). Every 10 ms while Seeking or Refused a module sends PAIRING. -/
  | pairingSend
  /-- LOOP_SNAPSHOT (R390). At each 1 ms boundary the duty takes a loop snapshot and sends its 67 LOOP frames. -/
  | loopSnapshot
  /-- HAND_INSTANT (R392). At H the duty takes a snapshot, sends HANDOVER, releases DUTY_OUT and asserts YIELD_OUT. -/
  | handInstant
  /-- HANDOVER_NO_WINDOW (R392). No hand instant is found within 2 s, and the handover is refused with RESULT 3. -/
  | handoverNoWindow
  /-- YIELD_OUT_RELEASE (R380). YIELD_OUT is released when DUTY_IN is seen asserted, or after 10 ms. -/
  | yieldOutRelease
  /-- PAIR_SYNC_TMO (R387). The standby is not Ready 10 s after pairing; SYNC_TMO is set and the full copy restarts.
  -/
  | pairSyncTmo
  /-- ROTATION (R398). After ROT_H hours of duty, or at each 60 s retry, the duty starts a handover with cause 4. -/
  | rotation
  /-- DATE_READ (R423). A read of CAL.DATE latches TIME and FRAC. -/
  | dateRead
  /-- CAL_COMMIT_APPLY (R424). At the next 32.768 kHz edge after GO, the written CAL groups are checked and applied.
  -/
  | calCommitApply
  /-- ALARM_FIRE (R426). Counting reaches the alarm instant, and the alarm fires. -/
  | alarmFire
  /-- WAKE (R429). A wake instant raises EVD source 0x381 and WAKE_COUNT. -/
  | wake
  /-- OSCILLATOR_STOP (R430). The crystal gives no edge for 2 ms; OSF is set and 0x123 is recorded. -/
  | oscillatorStop
  /-- LBF (R431). The cell falls below 2.5 V while unpowered and LBF is latched. -/
  | lbf
  /-- YEAR_WRAP (R432). CAL counts past 2199 to 2000, sets OSF and records 0x125. -/
  | yearWrap
  /-- TALLY_FLUSH (R435). Every 60 s TLY writes changed counters and cursor sequences to MRAM. -/
  | tallyFlush
  /-- RECORD_RECEIVE (R440). An event record reaches REC and is admitted to the queue or suppressed. -/
  | recordReceive
  /-- REGION_UPDATE_START (R461). A pending region update starts once MIN_GAP has passed for all its commons. -/
  | regionUpdateStart
  /-- READY_LOST (R387). The standby's newest copy or loop snapshot grows too old, or the offset fault lasts 100 ms,
  so it loses Ready and records 0x208 or 0x20E. -/
  | readyLost
  /-- VALUE_LO_READ (R453). A read of TLY.VALUE_LO latches VALUE_HI of the selected counter. -/
  | valueLoRead
deriving DecidableEq, Repr

end Sys2Proof
end

