-- ==== Sys2Proof/Decode.lean ====
section
/-! DEFINITION. The words of commands. Every row of spec/opcode_table.json has an empty list of fields: the block takes commands
and has no instruction words, so no word spells a command. -/

namespace Sys2Proof

/-- The command that a word spells by the bits of the table: none, for the table gives no row any bits. -/
def decodeTableWord (_nbits _w : Nat) : Option Instr := none

end Sys2Proof
end

