-- ==== Sys2Proof/Config.lean ====
section
/-! DEFINITION. What one module fixes for its life, and the free values: constants without a body, so that no proof
can see their value. -/

namespace Sys2Proof.Config

/-- A FREE VALUE: what the spec leaves open. The `n`-th use of it is `freeWord n`; `State.freeUses` counts the uses
(assumption 1). -/
opaque freeWord : Nat → Word

/-- `DIR.HW_REV` (R86): the hardware build of this module. -/
opaque hwRev : Word

/-- `DIR.SERIAL_LO` and `DIR.SERIAL_HI` (R86). -/
opaque serialLo : Word
opaque serialHi : Word

/-- Bytes 0 to 5 of the address of port `p`, as `ETH.MAC_HI` and `ETH.MAC_LO` show it (R338). -/
opaque mac : Nat → BitVec 48

/-- The fused minimum firmware security version `SUP.KEYS.FW_MIN_VER` (R39, R51). -/
opaque fwMinVer : BitVec 8

/-- The version of the firmware in slot `i`, as P2 of code 0x002 gives it (R50). -/
opaque fwVersion : Nat → Word

/-- The SHA-256 over this module's capability walk (R76, R386): a constant of the hardware, not computed here (assumption 13). -/
opaque capDigest : BitVec 256

/-- The `CAN.NBT` word that bit-rate detection writes for a rate in kbit/s: R349 gives the rate and the 87.5 % sample
point, not the word (assumption 12). -/
opaque abrTiming : Nat → Word

/-- The current target in mA of a stepper phase for `i` mA rms at `k`/1024 of an electrical turn (R260): `i` × √2 × cos, rounded as the
spec does not say. -/
opaque phaseCurrent : Nat → Nat → BitVec 16

/-- PNL's 5 × 7 font (R463): the five dots of row `r` of a character, bit 0 the leftmost. The spec does not draw it. -/
opaque glyph : Nat → Nat → BitVec 5

/-- Where a page's first capability structure lies. R77 fixes only that it is a multiple of 4 from 0x040 to 0xFF8 and
that software must not assume it (assumption 2, DESIGN CHOICE). -/
def capBase : Nat := 0xF00

/-- The reset value of a register for which the spec gives none (assumption 3, DESIGN CHOICE). -/
def noResetValue : Word := 0

/-- What a byte of memory that nothing has written reads as (assumption 4, DESIGN CHOICE, unsafe). -/
def unwrittenByte : Byte := 0

end Sys2Proof.Config
end

