-- ==== Sys2Proof/Machine/Regs.lean ====
section
/-! DEFINITION. The register tables of the spec: every field of every page as a place (offset, high bit, low bit), and
every field as a row with its access code, class, reset value and permitted range (R6, R7, and the register tables
R51 to R53, R65, R84 to R86, R126 to R128, R156, R182, R204, R205, R236, R238, R266, R289, R324, R325, R338, R353, R376,
R377, R402, R403, R420, R421, R452 to R455, R473, R474). A field of an array of registers takes the register's index. -/

namespace Sys2Proof.Machine

/-- A field of a page: the register's offset, and the field's high and low bit (R3, R4). -/
structure Fld where
  off : Nat
  hi : Nat
  lo : Nat
deriving DecidableEq, Repr

/-- The access codes of R6. -/
inductive Access where | ro | rw | wo | w1c | rc
deriving DecidableEq, Repr

/-- The classes of R7; `none` where the table has a dash. -/
inductive FClass where | none | live | staged | locked
deriving DecidableEq, Repr

/-- One field of one register (or of an array of `cnt` registers, `stride` bytes apart). -/
structure RegRow where
  off : Nat
  cnt : Nat
  stride : Nat
  hi : Nat
  lo : Nat
  acc : Access
  cls : FClass
  reset : Nat
  min : Nat
  max : Nat
deriving DecidableEq, Repr

/-! ### SUP: R51 (01_module_hardware.md) -/

def SUP.FAULT.FLASH_ERR : Fld := ⟨0x010, 25, 25⟩
def SUP.FAULT.FW_FALLBACK : Fld := ⟨0x010, 24, 24⟩
def SUP.FAULT.IMAGE_BAD : Fld := ⟨0x010, 23, 23⟩
def SUP.FAULT.SLOT_ID_CHANGED : Fld := ⟨0x010, 22, 22⟩
def SUP.FAULT.TEMP_WARN : Fld := ⟨0x010, 21, 21⟩
def SUP.FAULT.CELL_LOW : Fld := ⟨0x010, 20, 20⟩
def SUP.FAULT.HOLDUP_LOW : Fld := ⟨0x010, 19, 19⟩
def SUP.FAULT.VIN_LOW : Fld := ⟨0x010, 18, 18⟩
def SUP.FAULT.SUPB_LOST : Fld := ⟨0x010, 17, 17⟩
def SUP.FAULT.SUPA_LOST : Fld := ⟨0x010, 16, 16⟩
def SUP.RESET_CAUSE.FW_FALLBACK : Fld := ⟨0x040, 13, 13⟩
def SUP.RESET_CAUSE.FW_SLOT : Fld := ⟨0x040, 12, 12⟩
def SUP.RESET_CAUSE.HOLDUP_DONE : Fld := ⟨0x040, 9, 9⟩
def SUP.RESET_CAUSE.MAINT : Fld := ⟨0x040, 8, 8⟩
def SUP.RESET_CAUSE.CAUSE : Fld := ⟨0x040, 3, 0⟩
def SUP.SLOT_ID.LIVE_RAW : Fld := ⟨0x044, 29, 24⟩
def SUP.SLOT_ID.CARRIER : Fld := ⟨0x044, 22, 20⟩
def SUP.SLOT_ID.POSITION : Fld := ⟨0x044, 17, 16⟩
def SUP.SLOT_ID.VALID : Fld := ⟨0x044, 8, 8⟩
def SUP.SLOT_ID.RAW : Fld := ⟨0x044, 5, 0⟩
def SUP.SUPPLY.IN_HOLDUP : Fld := ⟨0x048, 5, 5⟩
def SUP.SUPPLY.CELL_LOW : Fld := ⟨0x048, 4, 4⟩
def SUP.SUPPLY.HOLDUP_OK : Fld := ⟨0x048, 3, 3⟩
def SUP.SUPPLY.VIN_LOW : Fld := ⟨0x048, 2, 2⟩
def SUP.SUPPLY.SUPB_OK : Fld := ⟨0x048, 1, 1⟩
def SUP.SUPPLY.SUPA_OK : Fld := ⟨0x048, 0, 0⟩
def SUP.VIN.VIN_B : Fld := ⟨0x04C, 31, 16⟩
def SUP.VIN.VIN_A : Fld := ⟨0x04C, 15, 0⟩
def SUP.HOLDUP.HOLDUP_T : Fld := ⟨0x050, 15, 0⟩
def SUP.CELL.CELL_MV : Fld := ⟨0x054, 15, 0⟩
def SUP.TEMP.HOTSPOT : Fld := ⟨0x058, 31, 16⟩
def SUP.TEMP.CASE : Fld := ⟨0x058, 15, 0⟩
def SUP.TEMP_WARN.CASE_WARN : Fld := ⟨0x05C, 15, 0⟩
def SUP.CMD.ARG : Fld := ⟨0x060, 23, 8⟩
def SUP.CMD.CODE : Fld := ⟨0x060, 7, 0⟩
def SUP.UNLOCK : Fld := ⟨0x064, 31, 0⟩
def SUP.CMD_ADDR_LO : Fld := ⟨0x068, 31, 0⟩
def SUP.CMD_ADDR_HI.ADDR_HI : Fld := ⟨0x06C, 7, 0⟩
def SUP.CMD_STATUS.BUSY : Fld := ⟨0x070, 8, 8⟩
def SUP.CMD_STATUS.RESULT : Fld := ⟨0x070, 7, 0⟩
def SUP.CMD_LEN.BLOCKS : Fld := ⟨0x0A0, 18, 0⟩
def SUP.IMAGE_STATUS.IMAGE_CARRIER : Fld := ⟨0x074, 18, 16⟩
def SUP.IMAGE_STATUS.REASON : Fld := ⟨0x074, 11, 8⟩
def SUP.IMAGE_STATUS.ANY_CARRIER : Fld := ⟨0x074, 3, 3⟩
def SUP.IMAGE_STATUS.LOADED : Fld := ⟨0x074, 2, 2⟩
def SUP.IMAGE_STATUS.VERIFIED : Fld := ⟨0x074, 1, 1⟩
def SUP.IMAGE_STATUS.ACTIVE_SLOT : Fld := ⟨0x074, 0, 0⟩
def SUP.BOOT_TIME.MS : Fld := ⟨0x078, 15, 0⟩
def SUP.DIP_COUNT.COUNT : Fld := ⟨0x07C, 15, 0⟩
def SUP.ALARM.ALM_ON_FENCE : Fld := ⟨0x080, 8, 8⟩
def SUP.ALARM.ALM_CLOSED : Fld := ⟨0x080, 0, 0⟩
def SUP.KEYS.FW_MIN_VER : Fld := ⟨0x084, 31, 24⟩
def SUP.KEYS.IMG_REVOKED : Fld := ⟨0x084, 15, 8⟩
def SUP.KEYS.IMG_ENROLLED : Fld := ⟨0x084, 7, 0⟩
def SUP.FLASH_BLOCK.BLOCK : Fld := ⟨0x088, 20, 0⟩
def SUP.FLASH_COUNT.COUNT : Fld := ⟨0x08C, 15, 0⟩
def SUP.FLASH_DMA_LO : Fld := ⟨0x090, 31, 0⟩
def SUP.FLASH_DMA_HI.ADDR_HI : Fld := ⟨0x094, 7, 0⟩
def SUP.FLASH_CMD.OP : Fld := ⟨0x098, 1, 0⟩
def SUP.FLASH_STATUS.CORRECTED : Fld := ⟨0x09C, 31, 16⟩
def SUP.FLASH_STATUS.ERR_CODE : Fld := ⟨0x09C, 7, 4⟩
def SUP.FLASH_STATUS.ERROR : Fld := ⟨0x09C, 2, 2⟩
def SUP.FLASH_STATUS.DONE : Fld := ⟨0x09C, 1, 1⟩
def SUP.FLASH_STATUS.BUSY : Fld := ⟨0x09C, 0, 0⟩

/-! ### PWR: R52 (01_module_hardware.md) -/

def PWR.FAULT.INRUSH : Fld := ⟨0x010, 21, 21⟩
def PWR.FAULT.OFF_REFUSED : Fld := ⟨0x010, 20, 20⟩
def PWR.FAULT.CORE_DOM_LOST : Fld := ⟨0x010, 19, 19⟩
def PWR.FAULT.IO_DOM_LOST : Fld := ⟨0x010, 18, 18⟩
def PWR.FAULT.PAIR_DOM_LOST : Fld := ⟨0x010, 17, 17⟩
def PWR.FAULT.DOM_START : Fld := ⟨0x010, 16, 16⟩
def PWR.DOM_STATE.STATE : Fld := ⟨0x040, 23, 0⟩
def PWR.DOM_FAULT.DOM : Fld := ⟨0x044, 11, 0⟩
def PWR.SEQ.PARKED : Fld := ⟨0x048, 10, 10⟩
def PWR.SEQ.HOLDUP : Fld := ⟨0x048, 9, 9⟩
def PWR.SEQ.DONE : Fld := ⟨0x048, 8, 8⟩
def PWR.SEQ.STEP : Fld := ⟨0x048, 3, 0⟩
def PWR.DOM_OFF.OFF_HI : Fld := ⟨0x04C, 11, 9⟩
def PWR.DOM_OFF.OFF_PAIR : Fld := ⟨0x04C, 6, 3⟩
def PWR.INRUSH.PEAK_DOM : Fld := ⟨0x050, 19, 16⟩
def PWR.INRUSH.PEAK_MA : Fld := ⟨0x050, 15, 0⟩
def PWR.INPUT_MW.MW : Fld := ⟨0x054, 15, 0⟩

/-! ### CLK: R53 (01_module_hardware.md) -/

def CLK.FAULT.REF_DRIFT : Fld := ⟨0x010, 20, 20⟩
def CLK.FAULT.ENG_UNLOCK : Fld := ⟨0x010, 19, 19⟩
def CLK.FAULT.CORE_UNLOCK : Fld := ⟨0x010, 18, 18⟩
def CLK.FAULT.FABRIC_UNLOCK : Fld := ⟨0x010, 17, 17⟩
def CLK.FAULT.REF_FAIL : Fld := ⟨0x010, 16, 16⟩
def CLK.STATUS_X.REF_DEV : Fld := ⟨0x040, 31, 16⟩
def CLK.STATUS_X.ENG_LOCK : Fld := ⟨0x040, 3, 3⟩
def CLK.STATUS_X.CORE_LOCK : Fld := ⟨0x040, 2, 2⟩
def CLK.STATUS_X.FABRIC_LOCK : Fld := ⟨0x040, 1, 1⟩
def CLK.STATUS_X.REF_OK : Fld := ⟨0x040, 0, 0⟩
def CLK.REF_DEV_LIMIT.LIMIT : Fld := ⟨0x044, 15, 0⟩

/-! ### HDR: R65 (02_register_architecture.md) -/

def HDR.PAGE_ID.BLOCK_TYPE : Fld := ⟨0x000, 31, 16⟩
def HDR.PAGE_ID.INSTANCE : Fld := ⟨0x000, 15, 8⟩
def HDR.PAGE_ID.PAGE_REV : Fld := ⟨0x000, 7, 0⟩
def HDR.CAP_PTR.NEXT_PAGE : Fld := ⟨0x004, 31, 16⟩
def HDR.CAP_PTR.FIRST_CAP : Fld := ⟨0x004, 15, 0⟩
def HDR.STATUS.STATE : Fld := ⟨0x008, 31, 28⟩
def HDR.CTRL.HOLD : Fld := ⟨0x00C, 1, 1⟩
def HDR.CTRL.RUN : Fld := ⟨0x00C, 0, 0⟩
def HDR.FAULT.REG_PARITY : Fld := ⟨0x010, 5, 5⟩
def HDR.FAULT.ACCESS_WIDTH : Fld := ⟨0x010, 4, 4⟩
def HDR.FAULT.STAGE_INVALID : Fld := ⟨0x010, 3, 3⟩
def HDR.FAULT.COMMIT_BUSY : Fld := ⟨0x010, 2, 2⟩
def HDR.FAULT.OWNER_REFUSED : Fld := ⟨0x010, 1, 1⟩
def HDR.FAULT.CFG_LOCKED : Fld := ⟨0x010, 0, 0⟩
def HDR.FAULT_EN : Fld := ⟨0x014, 31, 0⟩
def HDR.COMMIT.DISCARD : Fld := ⟨0x018, 2, 2⟩
def HDR.COMMIT.PENDING : Fld := ⟨0x018, 1, 1⟩
def HDR.COMMIT.GO : Fld := ⟨0x018, 0, 0⟩
def HDR.STAGE_SEQ : Fld := ⟨0x01C, 31, 0⟩
def HDR.OWNER : Fld := ⟨0x020, 1, 0⟩
def HDR.POWER.DOMAIN : Fld := ⟨0x024, 11, 8⟩
def HDR.POWER.DOM_STATE : Fld := ⟨0x024, 1, 0⟩

/-! ### EVD: R84 (02_register_architecture.md) -/

def EVD.FAULT.QUEUE_OVF : Fld := ⟨0x010, 16, 16⟩
def EVD.ROUTE_INDEX.SOURCE : Fld := ⟨0x040, 9, 0⟩
def EVD.ROUTE_DATA.EN : Fld := ⟨0x044, 31, 31⟩
def EVD.ROUTE_DATA.MANAGED : Fld := ⟨0x044, 30, 30⟩
def EVD.ROUTE_DATA.PRIO : Fld := ⟨0x044, 29, 28⟩
def EVD.ROUTE_DATA.PAIR : Fld := ⟨0x044, 25, 24⟩
def EVD.ROUTE_DATA.VECTOR : Fld := ⟨0x044, 11, 0⟩
def EVD.QDEPTH : Fld := ⟨0x048, 31, 0⟩
def EVD.QOVF_COUNT : Fld := ⟨0x04C, 31, 0⟩

/-! ### CP: R85 (02_register_architecture.md) -/

def CP.FAULT.ECC_UNCORR : Fld := ⟨0x010, 17, 17⟩
def CP.FAULT.LOCKSTEP : Fld := ⟨0x010, 16, 16⟩
def CP.EVENT_TAKE.VALID : Fld := ⟨0x040, 31, 31⟩
def CP.EVENT_TAKE.MOVED : Fld := ⟨0x040, 30, 30⟩
def CP.EVENT_TAKE.PRIO : Fld := ⟨0x040, 29, 28⟩
def CP.EVENT_TAKE.SOURCE : Fld := ⟨0x040, 25, 16⟩
def CP.EVENT_TAKE.VECTOR : Fld := ⟨0x040, 11, 0⟩
def CP.EVENT_STAMP : Fld := ⟨0x044, 31, 0⟩
def CP.LS_COUNT : Fld := ⟨0x048, 31, 0⟩
def CP.LS_INFO.POINT : Fld := ⟨0x04C, 7, 0⟩
def CP.ECC_CORR : Fld := ⟨0x050, 31, 0⟩

/-! ### DIR: R86 (02_register_architecture.md) -/

def DIR.PRODUCT.FAMILY : Fld := ⟨0x040, 31, 16⟩
def DIR.PRODUCT.PART : Fld := ⟨0x040, 15, 0⟩
def DIR.HW_REV : Fld := ⟨0x044, 31, 0⟩
def DIR.SERIAL_LO : Fld := ⟨0x048, 31, 0⟩
def DIR.SERIAL_HI : Fld := ⟨0x04C, 31, 0⟩
def DIR.PAGE_COUNT.COUNT : Fld := ⟨0x050, 9, 0⟩

/-! ### SEQ: R126, R127 (03_cyclic_execution.md) -/

def SEQ.STATUS.XCHG_ACTIVE : Fld := ⟨0x008, 3, 3⟩
def SEQ.STATUS.STOP_PENDING : Fld := ⟨0x008, 2, 2⟩
def SEQ.STATUS.RUN_PENDING : Fld := ⟨0x008, 1, 1⟩
def SEQ.STATUS.SHED_ANY : Fld := ⟨0x008, 0, 0⟩
def SEQ.FAULT.HOLD_REFUSED : Fld := ⟨0x010, 19, 19⟩
def SEQ.FAULT.XCHG_REFUSED : Fld := ⟨0x010, 18, 18⟩
def SEQ.FAULT.RUN_REFUSED : Fld := ⟨0x010, 17, 17⟩
def SEQ.FAULT.OVERRUN : Fld := ⟨0x010, 16, 16⟩
def SEQ.TICK_LO : Fld := ⟨0x040, 31, 0⟩
def SEQ.TICK_HI : Fld := ⟨0x044, 31, 0⟩
def SEQ.HOLD_MASK : Fld := ⟨0x048, 31, 0⟩
def SEQ.HELD : Fld := ⟨0x04C, 31, 0⟩
def SEQ.STEP : Fld := ⟨0x050, 31, 0⟩
def SEQ.OVR3 : Fld := ⟨0x054, 31, 0⟩
def SEQ.DET_LAPSED : Fld := ⟨0x058, 31, 0⟩
def SEQ.SHED : Fld := ⟨0x05C, 31, 0⟩
def SEQ.XCHG_CMD.CODE : Fld := ⟨0x060, 1, 0⟩
def SEQ.XCHG_STATUS.REASON : Fld := ⟨0x064, 15, 8⟩
def SEQ.XCHG_STATUS.STATE : Fld := ⟨0x064, 2, 0⟩
def SEQ.XCHG_TIME : Fld := ⟨0x068, 31, 0⟩
def SEQ.XCHG_MATCH.NEW : Fld := ⟨0x06C, 31, 16⟩
def SEQ.XCHG_MATCH.MATCHED : Fld := ⟨0x06C, 15, 0⟩
def SEQ.XCHG_DROP.DROPPED : Fld := ⟨0x070, 15, 0⟩
def SEQ.CFG.TASK_COUNT : Fld := ⟨0x074, 13, 8⟩
def SEQ.CFG.AUTORUN : Fld := ⟨0x074, 0, 0⟩
def SEQ.RUN_INFO.LAST_REFUSAL : Fld := ⟨0x078, 7, 0⟩
def SEQ.PERIOD.TICKS (i : Nat) : Fld := ⟨0x100 + i * 0x20, 15, 0⟩
def SEQ.PHASE.TICKS (i : Nat) : Fld := ⟨0x104 + i * 0x20, 15, 0⟩
def SEQ.PUB.OFS (i : Nat) : Fld := ⟨0x108 + i * 0x20, 19, 0⟩
def SEQ.LIN (i : Nat) : Fld := ⟨0x10C + i * 0x20, 7, 0⟩
def SEQ.ATTR.ENABLE (i : Nat) : Fld := ⟨0x110 + i * 0x20, 15, 15⟩
def SEQ.ATTR.REDUNDANT (i : Nat) : Fld := ⟨0x110 + i * 0x20, 10, 10⟩
def SEQ.ATTR.SHEDDABLE (i : Nat) : Fld := ⟨0x110 + i * 0x20, 9, 9⟩
def SEQ.ATTR.SHUTDOWN (i : Nat) : Fld := ⟨0x110 + i * 0x20, 8, 8⟩
def SEQ.ATTR.PRIO (i : Nat) : Fld := ⟨0x110 + i * 0x20, 4, 0⟩
def SEQ.CYCLE (i : Nat) : Fld := ⟨0x114 + i * 0x20, 31, 0⟩
def SEQ.TSTAT.EXEC_US (i : Nat) : Fld := ⟨0x118 + i * 0x20, 31, 16⟩
def SEQ.TSTAT.CONSEC_OVR (i : Nat) : Fld := ⟨0x118 + i * 0x20, 11, 8⟩
def SEQ.TSTAT.STATE (i : Nat) : Fld := ⟨0x118 + i * 0x20, 2, 0⟩
def SEQ.TOVR (i : Nat) : Fld := ⟨0x11C + i * 0x20, 31, 0⟩

/-! ### TMR: R128 (03_cyclic_execution.md) -/

def TMR.FAULT.RETAIN_LOST : Fld := ⟨0x010, 17, 17⟩
def TMR.FAULT.CELL_ACCESS : Fld := ⟨0x010, 16, 16⟩
def TMR.CELL_INDEX.INDEX : Fld := ⟨0x040, 11, 0⟩
def TMR.CELL_W (i : Nat) : Fld := ⟨0x044 + i * 0x4, 31, 0⟩
def TMR.TT_INDEX.TASK : Fld := ⟨0x064, 4, 0⟩
def TMR.TT_LO : Fld := ⟨0x068, 31, 0⟩
def TMR.TT_HI : Fld := ⟨0x06C, 31, 0⟩
def TMR.CELLS_USED.COUNT : Fld := ⟨0x070, 12, 0⟩

/-! ### PLACE: R156 (04_placement_and_determinism.md) -/

def PLACE.STATUS.MOVING : Fld := ⟨0x008, 3, 3⟩
def PLACE.STATUS.RUNNING : Fld := ⟨0x008, 2, 2⟩
def PLACE.STATUS.SD_UNPLACED : Fld := ⟨0x008, 1, 1⟩
def PLACE.STATUS.CAP_SHED : Fld := ⟨0x008, 0, 0⟩
def PLACE.FAULT.OVERCOMMIT : Fld := ⟨0x010, 22, 22⟩
def PLACE.FAULT.MOVE_STALLED : Fld := ⟨0x010, 21, 21⟩
def PLACE.FAULT.DIR_WRITE : Fld := ⟨0x010, 20, 20⟩
def PLACE.FAULT.DET_LAPSE : Fld := ⟨0x010, 19, 19⟩
def PLACE.FAULT.SD_DISPLACED : Fld := ⟨0x010, 18, 18⟩
def PLACE.FAULT.SD_UNPLACED : Fld := ⟨0x010, 17, 17⟩
def PLACE.FAULT.BUDGET_EXCEEDED : Fld := ⟨0x010, 16, 16⟩
def PLACE.CMD.CODE : Fld := ⟨0x040, 1, 0⟩
def PLACE.CMD_STATUS.BUSY : Fld := ⟨0x044, 8, 8⟩
def PLACE.CMD_STATUS.RESULT : Fld := ⟨0x044, 7, 0⟩
def PLACE.RUN_INFO.CAUSE : Fld := ⟨0x048, 31, 28⟩
def PLACE.RUN_INFO.COUNT : Fld := ⟨0x048, 15, 0⟩
def PLACE.LAST_RUN : Fld := ⟨0x04C, 31, 0⟩
def PLACE.U_LIMIT.PERMILLE : Fld := ⟨0x050, 9, 0⟩
def PLACE.GUARD.US : Fld := ⟨0x054, 9, 0⟩
def PLACE.TASK_PAIR_LO : Fld := ⟨0x058, 31, 0⟩
def PLACE.TASK_PAIR_HI : Fld := ⟨0x05C, 31, 0⟩
def PLACE.PAIR_LOAD.MEAS (i : Nat) : Fld := ⟨0x060 + i * 0x4, 31, 16⟩
def PLACE.PAIR_LOAD.BUDGET (i : Nat) : Fld := ⟨0x060 + i * 0x4, 15, 0⟩
def PLACE.PAIR_SLACK (i : Nat) : Fld := ⟨0x070 + i * 0x4, 31, 0⟩
def PLACE.TASK_INDEX.TASK : Fld := ⟨0x080, 4, 0⟩
def PLACE.TASK_BUDGET : Fld := ⟨0x084, 31, 0⟩
def PLACE.TASK_MEAS : Fld := ⟨0x088, 31, 0⟩
def PLACE.TASK_RESP : Fld := ⟨0x08C, 31, 0⟩
def PLACE.TASK_TIER0 : Fld := ⟨0x090, 31, 0⟩
def PLACE.TIER0_USED_AB.CPB_KIB : Fld := ⟨0x094, 26, 16⟩
def PLACE.TIER0_USED_AB.CPA_KIB : Fld := ⟨0x094, 10, 0⟩
def PLACE.DET.MODE : Fld := ⟨0x09C, 4, 1⟩
def PLACE.DET.BUILT : Fld := ⟨0x09C, 0, 0⟩
def PLACE.LAPSE_INFO.CAUSE : Fld := ⟨0x0A0, 27, 24⟩
def PLACE.LAPSE_INFO.TASK : Fld := ⟨0x0A0, 20, 16⟩
def PLACE.LAPSE_ADDR_LO : Fld := ⟨0x0A4, 31, 0⟩
def PLACE.LAPSE_ADDR_HI.ADDR_HI : Fld := ⟨0x0A8, 7, 0⟩
def PLACE.SHED_CAP : Fld := ⟨0x0AC, 31, 0⟩
def PLACE.DIGEST_LO : Fld := ⟨0x0B0, 31, 0⟩
def PLACE.DIGEST_HI : Fld := ⟨0x0B4, 31, 0⟩
def PLACE.DIGEST_CYCLE : Fld := ⟨0x0B8, 31, 0⟩
def PLACE.OVERCOMMIT : Fld := ⟨0x0BC, 31, 0⟩
def PLACE.FORCE_INDEX.INDEX : Fld := ⟨0x0C0, 14, 0⟩
def PLACE.FORCE_V (i : Nat) : Fld := ⟨0x0C4 + i * 0x4, 31, 0⟩
def PLACE.FORCE_CMD.CODE : Fld := ⟨0x0D4, 1, 0⟩
def PLACE.SHED_ORDER (i : Nat) : Fld := ⟨0x0E0 + i * 0x4, 31, 0⟩

/-! ### LPE: R182, R204 (05_loop_engine.md, 06_folds_regions_and_trace.md) -/

def LPE.STATUS.ECC_OFF_ANY : Fld := ⟨0x008, 3, 3⟩
def LPE.STATUS.APPLYING : Fld := ⟨0x008, 2, 2⟩
def LPE.STATUS.NONFINITE_ANY : Fld := ⟨0x008, 1, 1⟩
def LPE.STATUS.PV_BAD_ANY : Fld := ⟨0x008, 0, 0⟩
def LPE.FAULT.MODE_REQ_BAD : Fld := ⟨0x010, 21, 21⟩
def LPE.FAULT.CAS_FALLBACK : Fld := ⟨0x010, 20, 20⟩
def LPE.FAULT.MEM_ECC : Fld := ⟨0x010, 19, 19⟩
def LPE.FAULT.NONFINITE : Fld := ⟨0x010, 18, 18⟩
def LPE.FAULT.PV_BAD : Fld := ⟨0x010, 17, 17⟩
def LPE.FAULT.LATE : Fld := ⟨0x010, 16, 16⟩
def LPE.SLOT_INDEX.SLOT : Fld := ⟨0x040, 9, 0⟩
def LPE.SLOT_STATE : Fld := ⟨0x044, 31, 0⟩
def LPE.SLOT_PEND.ECC_OFF : Fld := ⟨0x048, 1, 1⟩
def LPE.SLOT_PEND.PENDING : Fld := ⟨0x048, 0, 0⟩
def LPE.LOAD.KEVAL : Fld := ⟨0x04C, 12, 0⟩
def LPE.PEAK_TICK.COUNT : Fld := ⟨0x050, 15, 0⟩
def LPE.LATE_COUNT : Fld := ⟨0x054, 31, 0⟩
def LPE.LAST_LATE.SLOT : Fld := ⟨0x058, 25, 16⟩
def LPE.LAST_LATE.DELAY : Fld := ⟨0x058, 15, 0⟩
def LPE.EVAL_LO : Fld := ⟨0x05C, 31, 0⟩
def LPE.EVAL_HI : Fld := ⟨0x060, 31, 0⟩
def LPE.COUNTS.PV_BAD : Fld := ⟨0x064, 26, 16⟩
def LPE.COUNTS.ENABLED : Fld := ⟨0x064, 10, 0⟩
def LPE.ECC_CORR : Fld := ⟨0x068, 31, 0⟩
def LPE.VIEW (i : Nat) : Fld := ⟨0x400 + i * 0x4, 31, 0⟩
def LPE.FOLD_INDEX.FOLD : Fld := ⟨0x070, 6, 0⟩
def LPE.FOLD_CFG.ENABLE : Fld := ⟨0x074, 31, 31⟩
def LPE.FOLD_CFG.SELECT : Fld := ⟨0x074, 30, 30⟩
def LPE.FOLD_OUT.VALID : Fld := ⟨0x078, 31, 31⟩
def LPE.FOLD_OUT.INDEX : Fld := ⟨0x078, 14, 0⟩
def LPE.FOLD_SAFE : Fld := ⟨0x07C, 31, 0⟩
def LPE.FOLD_SEL.CASE : Fld := ⟨0x080, 31, 29⟩
def LPE.FOLD_SEL.PENDING : Fld := ⟨0x080, 28, 28⟩
def LPE.FOLD_SEL.SOURCE : Fld := ⟨0x080, 26, 24⟩
def LPE.FOLD_SEL.COMPETE : Fld := ⟨0x080, 23, 16⟩
def LPE.FOLD_SEL.COMMAND : Fld := ⟨0x080, 15, 8⟩
def LPE.FOLD_SEL.MEMBERS : Fld := ⟨0x080, 7, 0⟩
def LPE.FOLD_W : Fld := ⟨0x084, 31, 0⟩
def LPE.FOLD_CHG : Fld := ⟨0x088, 31, 0⟩
def LPE.REG_INDEX.TABLE : Fld := ⟨0x08C, 9, 0⟩
def LPE.REG_USERS.USERS : Fld := ⟨0x090, 10, 0⟩
def LPE.REG_W_STATE.PENDING : Fld := ⟨0x094, 31, 31⟩
def LPE.REG_W (i : Nat) : Fld := ⟨0x500 + i * 0x4, 31, 0⟩

/-! ### LPT: R205 (06_folds_regions_and_trace.md) -/

def LPT.STATUS.DONE : Fld := ⟨0x008, 15, 0⟩
def LPT.ARM_ALL.MASK : Fld := ⟨0x040, 15, 0⟩
def LPT.CFG.DECIM (i : Nat) : Fld := ⟨0x100 + i * 0x40, 31, 16⟩
def LPT.CFG.SLOT (i : Nat) : Fld := ⟨0x100 + i * 0x40, 9, 0⟩
def LPT.NODES.NODE3 (i : Nat) : Fld := ⟨0x104 + i * 0x40, 31, 24⟩
def LPT.NODES.NODE2 (i : Nat) : Fld := ⟨0x104 + i * 0x40, 23, 16⟩
def LPT.NODES.NODE1 (i : Nat) : Fld := ⟨0x104 + i * 0x40, 15, 8⟩
def LPT.NODES.NODE0 (i : Nat) : Fld := ⟨0x104 + i * 0x40, 7, 0⟩
def LPT.TRIG.SRC (i : Nat) : Fld := ⟨0x108 + i * 0x40, 31, 28⟩
def LPT.TRIG.DIR (i : Nat) : Fld := ⟨0x108 + i * 0x40, 27, 26⟩
def LPT.TRIG.NODE (i : Nat) : Fld := ⟨0x108 + i * 0x40, 25, 24⟩
def LPT.TRIG.XCH (i : Nat) : Fld := ⟨0x108 + i * 0x40, 19, 16⟩
def LPT.TRIG.PRE (i : Nat) : Fld := ⟨0x108 + i * 0x40, 11, 0⟩
def LPT.LEVEL (i : Nat) : Fld := ⟨0x10C + i * 0x40, 31, 0⟩
def LPT.CMD.CODE (i : Nat) : Fld := ⟨0x110 + i * 0x40, 1, 0⟩
def LPT.CH_STATUS.STATE (i : Nat) : Fld := ⟨0x114 + i * 0x40, 31, 29⟩
def LPT.CH_STATUS.VALID (i : Nat) : Fld := ⟨0x114 + i * 0x40, 28, 16⟩
def LPT.CH_STATUS.WR_POS (i : Nat) : Fld := ⟨0x114 + i * 0x40, 11, 0⟩
def LPT.TRIG_POS.POS (i : Nat) : Fld := ⟨0x118 + i * 0x40, 11, 0⟩
def LPT.FIRST.POS (i : Nat) : Fld := ⟨0x11C + i * 0x40, 11, 0⟩
def LPT.TRIG_T_LO (i : Nat) : Fld := ⟨0x120 + i * 0x40, 31, 0⟩
def LPT.TRIG_T_HI (i : Nat) : Fld := ⟨0x124 + i * 0x40, 31, 0⟩
def LPT.SAMPLES (i : Nat) : Fld := ⟨0x128 + i * 0x40, 31, 0⟩

/-! ### ANG: R236 (07_angle_engine.md) -/

def ANG.STATUS.SYNC_ACTIVE : Fld := ⟨0x008, 0, 0⟩
def ANG.FAULT.CB_NO_CLOSE : Fld := ⟨0x010, 18, 18⟩
def ANG.FAULT.SYNC_ABORT : Fld := ⟨0x010, 17, 17⟩
def ANG.FAULT.LATE_EVENT : Fld := ⟨0x010, 16, 16⟩
def ANG.SLOT_INDEX.SLOT : Fld := ⟨0x040, 7, 0⟩
def ANG.SLOT_CMD.CODE : Fld := ⟨0x044, 1, 0⟩
def ANG.SLOT_STAT.ARMED : Fld := ⟨0x048, 31, 31⟩
def ANG.SLOT_STAT.SCHEDULED : Fld := ⟨0x048, 30, 30⟩
def ANG.SLOT_STAT.LAST_CAUSE : Fld := ⟨0x048, 29, 27⟩
def ANG.SLOT_PRED_LO : Fld := ⟨0x04C, 31, 0⟩
def ANG.SLOT_PRED_HI : Fld := ⟨0x050, 31, 0⟩
def ANG.SLOT_TGT_LO : Fld := ⟨0x054, 31, 0⟩
def ANG.SLOT_TGT_HI : Fld := ⟨0x058, 31, 0⟩
def ANG.SLOT_FIRED : Fld := ⟨0x05C, 31, 0⟩
def ANG.FIRED_TOTAL : Fld := ⟨0x060, 31, 0⟩
def ANG.LATE_COUNT : Fld := ⟨0x064, 31, 0⟩
def ANG.LATE_TOL.TOL : Fld := ⟨0x068, 15, 0⟩
def ANG.LAST_LATE.SLOT : Fld := ⟨0x06C, 31, 24⟩
def ANG.LAST_LATE.LATE : Fld := ⟨0x06C, 23, 0⟩
def ANG.SLOT_W (i : Nat) : Fld := ⟨0x100 + i * 0x4, 31, 0⟩
def ANG.SYNC_CFG.EN : Fld := ⟨0x200, 31, 31⟩
def ANG.SYNC_CFG.SLOT : Fld := ⟨0x200, 23, 16⟩
def ANG.SYNC_CFG.CLOSE_CH : Fld := ⟨0x200, 13, 8⟩
def ANG.SYNC_CFG.FB_VALID : Fld := ⟨0x200, 7, 7⟩
def ANG.SYNC_CFG.FB_CH : Fld := ⟨0x200, 5, 0⟩
def ANG.SYNC_REQ.VALID : Fld := ⟨0x204, 31, 31⟩
def ANG.SYNC_REQ.INDEX : Fld := ⟨0x204, 14, 0⟩
def ANG.SYNC_TCLOSE.US : Fld := ⟨0x208, 19, 0⟩
def ANG.SYNC_SLIP_LO : Fld := ⟨0x20C, 31, 0⟩
def ANG.SYNC_SLIP_HI : Fld := ⟨0x210, 31, 0⟩
def ANG.SYNC_DSLIP : Fld := ⟨0x214, 31, 0⟩
def ANG.SYNC_DV : Fld := ⟨0x218, 31, 0⟩
def ANG.SYNC_VBUS_MIN : Fld := ⟨0x21C, 31, 0⟩
def ANG.SYNC_PHASE_WIN : Fld := ⟨0x220, 31, 0⟩
def ANG.SYNC_PULSE.MS : Fld := ⟨0x224, 15, 0⟩
def ANG.SYNC_TMO.S : Fld := ⟨0x228, 15, 0⟩
def ANG.SYNC_OUT.VALID (i : Nat) : Fld := ⟨0x22C + i * 0x4, 31, 31⟩
def ANG.SYNC_OUT.INDEX (i : Nat) : Fld := ⟨0x22C + i * 0x4, 14, 0⟩
def ANG.SYNC_STATE.STATE : Fld := ⟨0x240, 31, 28⟩
def ANG.SYNC_STATE.REASON : Fld := ⟨0x240, 27, 24⟩
def ANG.SYNC_PHI : Fld := ⟨0x244, 31, 0⟩
def ANG.SYNC_SLIP : Fld := ⟨0x248, 31, 0⟩
def ANG.SYNC_DVM : Fld := ⟨0x24C, 31, 0⟩
def ANG.SYNC_TI_LO : Fld := ⟨0x250, 31, 0⟩
def ANG.SYNC_TI_HI : Fld := ⟨0x254, 31, 0⟩
def ANG.SYNC_TCLOSE_MEAS : Fld := ⟨0x258, 31, 0⟩
def ANG.SYNC_PHI_CONTACT : Fld := ⟨0x25C, 31, 0⟩

/-! ### ASRC: R238 (07_angle_engine.md) -/

def ASRC.STATUS.SRC_STATE : Fld := ⟨0x008, 27, 24⟩
def ASRC.STATUS.DIR : Fld := ⟨0x008, 23, 23⟩
def ASRC.STATUS.LOWSPD : Fld := ⟨0x008, 22, 22⟩
def ASRC.STATUS.REFERENCED : Fld := ⟨0x008, 21, 21⟩
def ASRC.FAULT.RATE : Fld := ⟨0x010, 20, 20⟩
def ASRC.FAULT.QUAD : Fld := ⟨0x010, 19, 19⟩
def ASRC.FAULT.WIRE : Fld := ⟨0x010, 18, 18⟩
def ASRC.FAULT.REF_ERR : Fld := ⟨0x010, 17, 17⟩
def ASRC.FAULT.LOST : Fld := ⟨0x010, 16, 16⟩
def ASRC.CFG.INVERT : Fld := ⟨0x040, 28, 28⟩
def ASRC.CFG.DIR_SRC : Fld := ⟨0x040, 27, 26⟩
def ASRC.CFG.MISSING : Fld := ⟨0x040, 25, 24⟩
def ASRC.CFG.GAP : Fld := ⟨0x040, 23, 16⟩
def ASRC.CFG.FILT : Fld := ⟨0x040, 15, 8⟩
def ASRC.CFG.Z_EN : Fld := ⟨0x040, 3, 3⟩
def ASRC.CFG.MODE : Fld := ⟨0x040, 2, 0⟩
def ASRC.CPR : Fld := ⟨0x044, 20, 0⟩
def ASRC.ZERO : Fld := ⟨0x048, 31, 0⟩
def ASRC.REF_TOL.COUNTS : Fld := ⟨0x04C, 15, 0⟩
def ASRC.STALL.STALL_MS : Fld := ⟨0x050, 31, 16⟩
def ASRC.STALL.LOWSPD_US : Fld := ⟨0x050, 15, 0⟩
def ASRC.SPD_PITCH.COUNTS : Fld := ⟨0x054, 11, 0⟩
def ASRC.SCALE : Fld := ⟨0x058, 31, 0⟩
def ASRC.SPEED_OUT.VALID : Fld := ⟨0x05C, 31, 31⟩
def ASRC.SPEED_OUT.INDEX : Fld := ⟨0x05C, 14, 0⟩
def ASRC.DIR_IN.VALID : Fld := ⟨0x060, 31, 31⟩
def ASRC.DIR_IN.INDEX : Fld := ⟨0x060, 14, 0⟩
def ASRC.MAINS.PLL_BW : Fld := ⟨0x064, 5, 4⟩
def ASRC.MAINS.INPUT : Fld := ⟨0x064, 1, 0⟩
def ASRC.PT_RATIO : Fld := ⟨0x068, 31, 0⟩
def ASRC.PHASE_OFS : Fld := ⟨0x06C, 31, 0⟩
def ASRC.V_MIN : Fld := ⟨0x070, 31, 0⟩
def ASRC.VOLT_OUT.VALID : Fld := ⟨0x074, 31, 31⟩
def ASRC.VOLT_OUT.INDEX : Fld := ⟨0x074, 14, 0⟩
def ASRC.ANGLE : Fld := ⟨0x080, 31, 0⟩
def ASRC.REV_SNAP : Fld := ⟨0x084, 31, 0⟩
def ASRC.SNAP_T : Fld := ⟨0x088, 31, 0⟩
def ASRC.EDGE_ANGLE : Fld := ⟨0x08C, 31, 0⟩
def ASRC.EDGE_T : Fld := ⟨0x090, 31, 0⟩
def ASRC.SPEED : Fld := ⟨0x094, 31, 0⟩
def ASRC.ACCEL : Fld := ⟨0x098, 31, 0⟩
def ASRC.COUNT : Fld := ⟨0x09C, 31, 0⟩
def ASRC.REF_DEV : Fld := ⟨0x0A0, 31, 0⟩
def ASRC.QUAD_CNT : Fld := ⟨0x0A4, 31, 0⟩
def ASRC.VRMS : Fld := ⟨0x0A8, 31, 0⟩
def ASRC.REF_COUNT : Fld := ⟨0x0AC, 31, 0⟩

/-! ### AX: R266 (08_motion.md) -/

def AX.STATUS.AX_STATE : Fld := ⟨0x008, 27, 24⟩
def AX.STATUS.HOMED : Fld := ⟨0x008, 23, 23⟩
def AX.STATUS.KIND : Fld := ⟨0x008, 22, 22⟩
def AX.STATUS.LIM_NEG : Fld := ⟨0x008, 21, 21⟩
def AX.STATUS.LIM_POS : Fld := ⟨0x008, 20, 20⟩
def AX.STATUS.REF : Fld := ⟨0x008, 19, 19⟩
def AX.STATUS.AT_TARGET : Fld := ⟨0x008, 18, 18⟩
def AX.STATUS.VMOT_OK : Fld := ⟨0x008, 17, 17⟩
def AX.FAULT.CMD_REFUSED : Fld := ⟨0x010, 25, 25⟩
def AX.FAULT.GEAR_SRC : Fld := ⟨0x010, 24, 24⟩
def AX.FAULT.GEAR_LAG : Fld := ⟨0x010, 23, 23⟩
def AX.FAULT.CHATTER : Fld := ⟨0x010, 22, 22⟩
def AX.FAULT.HOME_ABORT : Fld := ⟨0x010, 21, 21⟩
def AX.FAULT.LIMIT_HIT : Fld := ⟨0x010, 20, 20⟩
def AX.FAULT.THERMAL : Fld := ⟨0x010, 19, 19⟩
def AX.FAULT.OPEN_COIL : Fld := ⟨0x010, 18, 18⟩
def AX.FAULT.OVERCURRENT : Fld := ⟨0x010, 17, 17⟩
def AX.FAULT.VMOT : Fld := ⟨0x010, 16, 16⟩
def AX.CFG.ROTARY : Fld := ⟨0x040, 31, 31⟩
def AX.CFG.HOMED_KEEP : Fld := ⟨0x040, 30, 30⟩
def AX.CFG.STOP_BEH : Fld := ⟨0x040, 29, 28⟩
def AX.CFG.SOFT_EN : Fld := ⟨0x040, 27, 27⟩
def AX.SW_CH.LN_VALID : Fld := ⟨0x044, 31, 31⟩
def AX.SW_CH.LN_POL : Fld := ⟨0x044, 30, 30⟩
def AX.SW_CH.LN_CH : Fld := ⟨0x044, 29, 24⟩
def AX.SW_CH.LP_VALID : Fld := ⟨0x044, 23, 23⟩
def AX.SW_CH.LP_POL : Fld := ⟨0x044, 22, 22⟩
def AX.SW_CH.LP_CH : Fld := ⟨0x044, 21, 16⟩
def AX.SW_CH.RF_VALID : Fld := ⟨0x044, 15, 15⟩
def AX.SW_CH.RF_POL : Fld := ⟨0x044, 14, 14⟩
def AX.SW_CH.RF_CH : Fld := ⟨0x044, 13, 8⟩
def AX.SW_QUAL.CHAT_MAX : Fld := ⟨0x048, 31, 24⟩
def AX.SW_QUAL.QUAL_N : Fld := ⟨0x048, 19, 16⟩
def AX.SW_QUAL.QUAL_US : Fld := ⟨0x048, 15, 0⟩
def AX.QDEC : Fld := ⟨0x04C, 31, 0⟩
def AX.SOFT_MIN_LO : Fld := ⟨0x050, 31, 0⟩
def AX.SOFT_MIN_HI : Fld := ⟨0x054, 31, 0⟩
def AX.SOFT_MAX_LO : Fld := ⟨0x058, 31, 0⟩
def AX.SOFT_MAX_HI : Fld := ⟨0x05C, 31, 0⟩
def AX.CURRENT.I_HOLD : Fld := ⟨0x060, 27, 16⟩
def AX.CURRENT.I_RUN : Fld := ⟨0x060, 11, 0⟩
def AX.CHOP.HOLD_DELAY : Fld := ⟨0x064, 31, 16⟩
def AX.CHOP.HYST : Fld := ⟨0x064, 15, 8⟩
def AX.CHOP.TOFF_MIN : Fld := ⟨0x064, 7, 0⟩
def AX.STEPDIR.DIR_SETUP : Fld := ⟨0x068, 23, 16⟩
def AX.STEPDIR.STEP_POL : Fld := ⟨0x068, 15, 15⟩
def AX.STEPDIR.DIR_POL : Fld := ⟨0x068, 14, 14⟩
def AX.STEPDIR.PW : Fld := ⟨0x068, 9, 0⟩
def AX.POS_SCALE : Fld := ⟨0x06C, 31, 0⟩
def AX.BIND_CMD : Fld := ⟨0x070, 31, 0⟩
def AX.BIND_TGT : Fld := ⟨0x074, 31, 0⟩
def AX.BIND_RATIO : Fld := ⟨0x078, 31, 0⟩
def AX.BIND_STAT : Fld := ⟨0x07C, 31, 0⟩
def AX.BIND_POS : Fld := ⟨0x080, 31, 0⟩
def AX.GEAR_CFG.FOLLOW : Fld := ⟨0x084, 31, 30⟩
def AX.GEAR_CFG.AT_EN : Fld := ⟨0x084, 29, 29⟩
def AX.GEAR_CFG.SRC_KIND : Fld := ⟨0x084, 28, 27⟩
def AX.GEAR_CFG.SRC : Fld := ⟨0x084, 26, 24⟩
def AX.GEAR_CFG.LAG_MAX : Fld := ⟨0x084, 23, 0⟩
def AX.GEAR_NUM : Fld := ⟨0x088, 31, 0⟩
def AX.GEAR_DEN : Fld := ⟨0x08C, 31, 0⟩
def AX.GEAR_AT : Fld := ⟨0x090, 31, 0⟩
def AX.HOME_CFG.MODE : Fld := ⟨0x094, 31, 30⟩
def AX.HOME_CFG.DIR : Fld := ⟨0x094, 29, 29⟩
def AX.HOME_CFG.PROFILE : Fld := ⟨0x094, 28, 26⟩
def AX.HOME_CFG.ASRC : Fld := ⟨0x094, 25, 23⟩
def AX.HOME_POS_LO : Fld := ⟨0x098, 31, 0⟩
def AX.HOME_POS_HI : Fld := ⟨0x09C, 31, 0⟩
def AX.HOME_BACKOFF : Fld := ⟨0x0A0, 31, 0⟩
def AX.HOME_MAX_DIST : Fld := ⟨0x0A4, 31, 0⟩
def AX.STROKE.MODE : Fld := ⟨0x0A8, 31, 31⟩
def AX.STROKE.LEN : Fld := ⟨0x0A8, 30, 0⟩
def AX.POS_LO : Fld := ⟨0x0C0, 31, 0⟩
def AX.POS_HI : Fld := ⟨0x0C4, 31, 0⟩
def AX.TGT_LO : Fld := ⟨0x0C8, 31, 0⟩
def AX.TGT_HI : Fld := ⟨0x0CC, 31, 0⟩
def AX.VEL : Fld := ⟨0x0D0, 31, 0⟩
def AX.LAG : Fld := ⟨0x0D4, 31, 0⟩
def AX.CAPT_LO : Fld := ⟨0x0D8, 31, 0⟩
def AX.CAPT_HI : Fld := ⟨0x0DC, 31, 0⟩
def AX.HOME_INFO.LAST_ABORT : Fld := ⟨0x0E0, 23, 16⟩
def AX.HOME_INFO.LAST_REFUSAL : Fld := ⟨0x0E0, 15, 8⟩
def AX.HOME_INFO.ACK_SEQ : Fld := ⟨0x0E0, 7, 0⟩
def AX.CHAT_CNT.COUNT : Fld := ⟨0x0E4, 23, 0⟩
def AX.CHOP_OFS.OFS_B : Fld := ⟨0x0E8, 31, 16⟩
def AX.CHOP_OFS.OFS_A : Fld := ⟨0x0E8, 15, 0⟩
def AX.I_MEAS.I_B : Fld := ⟨0x0EC, 31, 16⟩
def AX.I_MEAS.I_A : Fld := ⟨0x0EC, 15, 0⟩
def AX.BRIDGE.VMOT_MV : Fld := ⟨0x0F0, 31, 16⟩
def AX.BRIDGE.TEMP : Fld := ⟨0x0F0, 15, 0⟩
def AX.STROKES : Fld := ⟨0x0F4, 31, 0⟩
def AX.TRAVEL_LO : Fld := ⟨0x0F8, 31, 0⟩
def AX.TRAVEL_HI : Fld := ⟨0x0FC, 31, 0⟩
def AX.PROF_VMAX (i : Nat) : Fld := ⟨0x100 + i * 0x10, 31, 0⟩
def AX.PROF_ACC (i : Nat) : Fld := ⟨0x104 + i * 0x10, 31, 0⟩
def AX.PROF_DEC (i : Nat) : Fld := ⟨0x108 + i * 0x10, 31, 0⟩
def AX.PROF_DIST (i : Nat) : Fld := ⟨0x10C + i * 0x10, 31, 0⟩

/-! ### TIME: R289 (09_time_and_synchronisation.md) -/

def TIME.STATUS.STN_STATE : Fld := ⟨0x008, 27, 24⟩
def TIME.STATUS.STP_STATE : Fld := ⟨0x008, 23, 20⟩
def TIME.STATUS.STN_DOM : Fld := ⟨0x008, 19, 19⟩
def TIME.STATUS.STP_DOM : Fld := ⟨0x008, 18, 18⟩
def TIME.STATUS.STN_FAR : Fld := ⟨0x008, 17, 17⟩
def TIME.STATUS.STP_FAR : Fld := ⟨0x008, 16, 16⟩
def TIME.STATUS.STP_TRUST : Fld := ⟨0x008, 15, 15⟩
def TIME.STATUS.STEP_PENDING : Fld := ⟨0x008, 14, 14⟩
def TIME.STATUS.DOMA_SYNC_OK : Fld := ⟨0x008, 13, 13⟩
def TIME.STATUS.DOMB_SYNC_OK : Fld := ⟨0x008, 12, 12⟩
def TIME.STATUS.DOMA_EST_OK : Fld := ⟨0x008, 11, 11⟩
def TIME.STATUS.DOMB_EST_OK : Fld := ⟨0x008, 10, 10⟩
def TIME.FAULT.TS_OVF : Fld := ⟨0x010, 25, 25⟩
def TIME.FAULT.LT_LATE : Fld := ⟨0x010, 24, 24⟩
def TIME.FAULT.STP_HOLDOVER : Fld := ⟨0x010, 23, 23⟩
def TIME.FAULT.STN_HOLDOVER : Fld := ⟨0x010, 22, 22⟩
def TIME.FAULT.DOMB_LOST : Fld := ⟨0x010, 21, 21⟩
def TIME.FAULT.DOMA_LOST : Fld := ⟨0x010, 20, 20⟩
def TIME.FAULT.STP_FAR : Fld := ⟨0x010, 19, 19⟩
def TIME.FAULT.STN_FAR : Fld := ⟨0x010, 18, 18⟩
def TIME.FAULT.STEP_REFUSED : Fld := ⟨0x010, 16, 16⟩
def TIME.STN_NS : Fld := ⟨0x040, 31, 0⟩
def TIME.STN_SNAP_HI : Fld := ⟨0x044, 31, 0⟩
def TIME.STP_NS : Fld := ⟨0x048, 31, 0⟩
def TIME.STP_SNAP_HI : Fld := ⟨0x04C, 31, 0⟩
def TIME.STN_INC : Fld := ⟨0x050, 31, 0⟩
def TIME.STN_ADJ : Fld := ⟨0x054, 31, 0⟩
def TIME.STN_SLEW.PPM : Fld := ⟨0x058, 8, 0⟩
def TIME.STP_SLEW.PPM : Fld := ⟨0x05C, 8, 0⟩
def TIME.FAR_NS : Fld := ⟨0x060, 31, 0⟩
def TIME.DOM_SEL.STP_SWITCH : Fld := ⟨0x064, 8, 8⟩
def TIME.DOM_SEL.STN_DOM : Fld := ⟨0x064, 0, 0⟩
def TIME.DOM_CFG.EN (i : Nat) : Fld := ⟨0x068 + i * 0x4, 31, 31⟩
def TIME.DOM_CFG.PORTS (i : Nat) : Fld := ⟨0x068 + i * 0x4, 27, 24⟩
def TIME.DOM_CFG.DOMAIN_NUM (i : Nat) : Fld := ⟨0x068 + i * 0x4, 23, 16⟩
def TIME.DOM_CFG.SYNC_TMO (i : Nat) : Fld := ⟨0x068 + i * 0x4, 15, 0⟩
def TIME.DOM_SRC_LO (i : Nat) : Fld := ⟨0x070 + i * 0xC, 31, 0⟩
def TIME.DOM_SRC_MID (i : Nat) : Fld := ⟨0x074 + i * 0xC, 31, 0⟩
def TIME.DOM_SRC_HI.MATCH_EN (i : Nat) : Fld := ⟨0x078 + i * 0xC, 16, 16⟩
def TIME.DOM_SRC_HI.PORT (i : Nat) : Fld := ⟨0x078 + i * 0xC, 15, 0⟩
def TIME.DOM_INC (i : Nat) : Fld := ⟨0x088 + i * 0x4, 31, 0⟩
def TIME.DOM_OFS (i : Nat) : Fld := ⟨0x090 + i * 0x4, 31, 0⟩
def TIME.EST_MAX.MS : Fld := ⟨0x098, 15, 0⟩
def TIME.DOM_LAST_SYNC (i : Nat) : Fld := ⟨0x09C + i * 0x4, 31, 0⟩
def TIME.STEP_LO : Fld := ⟨0x0A4, 31, 0⟩
def TIME.STEP_HI : Fld := ⟨0x0A8, 31, 0⟩
def TIME.STEP_CMD.CODE : Fld := ⟨0x0AC, 2, 0⟩
def TIME.STEP_INFO.RESULT : Fld := ⟨0x0B0, 7, 0⟩
def TIME.TS_LEVEL.COUNT : Fld := ⟨0x0B4, 6, 0⟩
def TIME.TS_OVF : Fld := ⟨0x0B8, 31, 0⟩
def TIME.TS_W0.VALID : Fld := ⟨0x0C0, 31, 31⟩
def TIME.TS_W0.DIR : Fld := ⟨0x0C0, 30, 30⟩
def TIME.TS_W0.PORT : Fld := ⟨0x0C0, 29, 28⟩
def TIME.TS_W0.MSG_TYPE : Fld := ⟨0x0C0, 27, 24⟩
def TIME.TS_W0.DOMAIN : Fld := ⟨0x0C0, 23, 16⟩
def TIME.TS_W0.SEQ_ID : Fld := ⟨0x0C0, 15, 0⟩
def TIME.TS_W1 : Fld := ⟨0x0C4, 31, 0⟩
def TIME.TS_W2 : Fld := ⟨0x0C8, 31, 0⟩
def TIME.LT_CFG.LT_EN (i : Nat) : Fld := ⟨0x100 + i * 0x4, 31, 31⟩
def TIME.LT_CFG.LATE_SEND (i : Nat) : Fld := ⟨0x100 + i * 0x4, 30, 30⟩
def TIME.LT_LATE_CNT.SENT (i : Nat) : Fld := ⟨0x180 + i * 0x4, 31, 16⟩
def TIME.LT_LATE_CNT.DROPPED (i : Nat) : Fld := ⟨0x180 + i * 0x4, 15, 0⟩

/-! ### DWY: R324 (10_droveway.md) -/

def DWY.STATUS.RING_OPEN : Fld := ⟨0x008, 2, 2⟩
def DWY.STATUS.ANNOUNCING : Fld := ⟨0x008, 1, 1⟩
def DWY.STATUS.RATE_1G : Fld := ⟨0x008, 0, 0⟩
def DWY.FAULT.UNKNOWN_JOIN : Fld := ⟨0x010, 19, 19⟩
def DWY.FAULT.DISCARD : Fld := ⟨0x010, 18, 18⟩
def DWY.FAULT.CAPACITY : Fld := ⟨0x010, 17, 17⟩
def DWY.FAULT.RING_OPEN : Fld := ⟨0x010, 16, 16⟩
def DWY.CFG.PCP : Fld := ⟨0x040, 31, 29⟩
def DWY.CFG.VID : Fld := ⟨0x040, 27, 16⟩
def DWY.CFG.ANN_MS : Fld := ⟨0x040, 15, 0⟩
def DWY.MAX_PAYLOAD.BYTES : Fld := ⟨0x044, 10, 0⟩
def DWY.VERSIONS.VER_MAX : Fld := ⟨0x048, 15, 8⟩
def DWY.VERSIONS.VER_MIN : Fld := ⟨0x048, 7, 0⟩
def DWY.T_RING.MAX_US : Fld := ⟨0x04C, 31, 16⟩
def DWY.T_RING.LAST_US : Fld := ⟨0x04C, 15, 0⟩
def DWY.LOAD.PERMILLE : Fld := ⟨0x050, 9, 0⟩
def DWY.TASK_INDEX.TASK : Fld := ⟨0x054, 4, 0⟩
def DWY.TASK_STN.COUNT : Fld := ⟨0x058, 7, 0⟩
def DWY.TASK_IN_MARGIN : Fld := ⟨0x05C, 31, 0⟩
def DWY.TASK_OUT_MARGIN : Fld := ⟨0x060, 31, 0⟩
def DWY.DISC_CNT : Fld := ⟨0x064, 31, 0⟩
def DWY.UNKNOWN_CNT : Fld := ⟨0x068, 31, 0⟩
def DWY.ACTIVE (i : Nat) : Fld := ⟨0x080 + i * 0x4, 31, 0⟩
def DWY.LOST (i : Nat) : Fld := ⟨0x0A0 + i * 0x4, 31, 0⟩

/-! ### STN: R325 (10_droveway.md) -/

def STN.STATUS.ST_STATE : Fld := ⟨0x008, 27, 24⟩
def STN.STATUS.SAFE_CODE : Fld := ⟨0x008, 23, 23⟩
def STN.STATUS.METHOD : Fld := ⟨0x008, 22, 22⟩
def STN.STATUS.TIME_OK : Fld := ⟨0x008, 21, 21⟩
def STN.STATUS.OUT_SAFE : Fld := ⟨0x008, 20, 20⟩
def STN.STATUS.MISS_RUN : Fld := ⟨0x008, 15, 12⟩
def STN.FAULT.WINDOW : Fld := ⟨0x010, 20, 20⟩
def STN.FAULT.CODE_ERR : Fld := ⟨0x010, 19, 19⟩
def STN.FAULT.JOIN_REFUSED : Fld := ⟨0x010, 18, 18⟩
def STN.FAULT.MISS : Fld := ⟨0x010, 17, 17⟩
def STN.FAULT.LOST : Fld := ⟨0x010, 16, 16⟩
def STN.CFG.ENABLE : Fld := ⟨0x040, 31, 31⟩
def STN.CFG.ANY : Fld := ⟨0x040, 30, 30⟩
def STN.CFG.REQ_SAFE : Fld := ⟨0x040, 29, 29⟩
def STN.CFG.READMIT : Fld := ⟨0x040, 28, 28⟩
def STN.CFG.METHODS : Fld := ⟨0x040, 27, 26⟩
def STN.CFG.TASK : Fld := ⟨0x040, 25, 21⟩
def STN.CFG.N_MISS : Fld := ⟨0x040, 19, 16⟩
def STN.CFG.PLACE_ID : Fld := ⟨0x040, 15, 0⟩
def STN.TYPE.VENDOR : Fld := ⟨0x044, 31, 16⟩
def STN.TYPE.MODEL : Fld := ⟨0x044, 15, 0⟩
def STN.HOLD.HOLD_T : Fld := ⟨0x048, 15, 0⟩
def STN.BIND_STAT.VALID : Fld := ⟨0x04C, 31, 31⟩
def STN.BIND_STAT.INDEX : Fld := ⟨0x04C, 14, 0⟩
def STN.BIND_READMIT.VALID : Fld := ⟨0x050, 31, 31⟩
def STN.BIND_READMIT.INDEX : Fld := ⟨0x050, 14, 0⟩
def STN.CMD.CODE : Fld := ⟨0x054, 1, 0⟩
def STN.MAP.VALID (i : Nat) : Fld := ⟨0x080 + i * 0x4, 31, 31⟩
def STN.MAP.DIR (i : Nat) : Fld := ⟨0x080 + i * 0x4, 30, 30⟩
def STN.MAP.INDEX (i : Nat) : Fld := ⟨0x080 + i * 0x4, 29, 15⟩
def STN.MAP.OFS (i : Nat) : Fld := ⟨0x080 + i * 0x4, 10, 0⟩
def STN.GEN : Fld := ⟨0x100, 7, 0⟩
def STN.ST_MAC_LO : Fld := ⟨0x104, 31, 0⟩
def STN.ST_MAC_HI.MAC_HI : Fld := ⟨0x108, 15, 0⟩
def STN.ST_ID.PLACE_ID : Fld := ⟨0x10C, 15, 0⟩
def STN.ST_TYPE : Fld := ⟨0x110, 31, 0⟩
def STN.NEG.VER : Fld := ⟨0x114, 31, 24⟩
def STN.NEG.MAX_PAYLOAD : Fld := ⟨0x114, 10, 0⟩
def STN.SLOT.D_SLOT : Fld := ⟨0x118, 23, 0⟩
def STN.LENS.IN_LEN : Fld := ⟨0x11C, 26, 16⟩
def STN.LENS.OUT_LEN : Fld := ⟨0x11C, 10, 0⟩
def STN.T_PREP.US : Fld := ⟨0x120, 15, 0⟩
def STN.LAST_IN : Fld := ⟨0x124, 31, 0⟩
def STN.LAST_ACK : Fld := ⟨0x128, 31, 0⟩
def STN.MARGIN : Fld := ⟨0x12C, 31, 0⟩
def STN.MISSES : Fld := ⟨0x130, 31, 0⟩
def STN.CODE_ERRS : Fld := ⟨0x134, 31, 0⟩
def STN.LOSSES : Fld := ⟨0x138, 31, 0⟩
def STN.REASON.LEAVE : Fld := ⟨0x13C, 15, 8⟩
def STN.REASON.REFUSAL : Fld := ⟨0x13C, 7, 0⟩

/-! ### ETH: R338 (11_ship_network_and_can.md) -/

def ETH.STATUS.SPEED : Fld := ⟨0x008, 27, 26⟩
def ETH.STATUS.LINK : Fld := ⟨0x008, 25, 25⟩
def ETH.STATUS.LAN_OK : Fld := ⟨0x008, 24, 24⟩
def ETH.STATUS.PRP_ACTIVE : Fld := ⟨0x008, 23, 23⟩
def ETH.FAULT.WRONG_LAN : Fld := ⟨0x010, 21, 21⟩
def ETH.FAULT.TX_DESC : Fld := ⟨0x010, 20, 20⟩
def ETH.FAULT.RX_NOBUF : Fld := ⟨0x010, 19, 19⟩
def ETH.FAULT.STORM : Fld := ⟨0x010, 18, 18⟩
def ETH.FAULT.LAN_LOST : Fld := ⟨0x010, 17, 17⟩
def ETH.FAULT.LINK_DOWN : Fld := ⟨0x010, 16, 16⟩
def ETH.CFG.PRP : Fld := ⟨0x040, 31, 31⟩
def ETH.CFG.DEF_DROP : Fld := ⟨0x040, 30, 30⟩
def ETH.CFG.ADV : Fld := ⟨0x040, 29, 27⟩
def ETH.CFG.LAN_TMO : Fld := ⟨0x040, 15, 0⟩
def ETH.MAC_LO : Fld := ⟨0x044, 31, 0⟩
def ETH.MAC_HI : Fld := ⟨0x048, 15, 0⟩
def ETH.TXQ_INDEX.QUEUE : Fld := ⟨0x04C, 2, 0⟩
def ETH.TXQ_BASE_LO : Fld := ⟨0x050, 31, 0⟩
def ETH.TXQ_BASE_HI.ADDR_HI : Fld := ⟨0x054, 7, 0⟩
def ETH.TXQ_SIZE.SIZE : Fld := ⟨0x058, 10, 0⟩
def ETH.TXQ_TAIL.TAIL : Fld := ⟨0x05C, 9, 0⟩
def ETH.TXQ_HEAD.HEAD : Fld := ⟨0x060, 9, 0⟩
def ETH.RXQ_INDEX.QUEUE : Fld := ⟨0x064, 2, 0⟩
def ETH.RXQ_BASE_LO : Fld := ⟨0x068, 31, 0⟩
def ETH.RXQ_BASE_HI.ADDR_HI : Fld := ⟨0x06C, 7, 0⟩
def ETH.RXQ_SIZE.EVT : Fld := ⟨0x070, 31, 31⟩
def ETH.RXQ_SIZE.SIZE : Fld := ⟨0x070, 10, 0⟩
def ETH.RXQ_TAIL.TAIL : Fld := ⟨0x074, 9, 0⟩
def ETH.RXQ_HEAD.HEAD : Fld := ⟨0x078, 9, 0⟩
def ETH.STORM.RATE (i : Nat) : Fld := ⟨0x080 + i * 0x4, 31, 16⟩
def ETH.STORM.BURST (i : Nat) : Fld := ⟨0x080 + i * 0x4, 15, 0⟩
def ETH.RULE_INDEX.RULE : Fld := ⟨0x090, 9, 0⟩
def ETH.RULE_W (i : Nat) : Fld := ⟨0x094 + i * 0x4, 31, 0⟩
def ETH.RX_CNT : Fld := ⟨0x0A4, 31, 0⟩
def ETH.TX_CNT : Fld := ⟨0x0A8, 31, 0⟩
def ETH.DROP_CNT : Fld := ⟨0x0AC, 31, 0⟩
def ETH.DUP_CNT : Fld := ⟨0x0B0, 31, 0⟩
def ETH.WRONG_LAN_CNT : Fld := ⟨0x0B4, 31, 0⟩

/-! ### CAN: R353 (11_ship_network_and_can.md) -/

def CAN.STATUS.ERR_STATE : Fld := ⟨0x008, 27, 26⟩
def CAN.STATUS.RECOVERING : Fld := ⟨0x008, 25, 25⟩
def CAN.STATUS.ABR_ACTIVE : Fld := ⟨0x008, 24, 24⟩
def CAN.STATUS.ON_BUS : Fld := ⟨0x008, 23, 23⟩
def CAN.FAULT.ABR_FAIL : Fld := ⟨0x010, 19, 19⟩
def CAN.FAULT.TX_REFUSED : Fld := ⟨0x010, 18, 18⟩
def CAN.FAULT.RX_OVR : Fld := ⟨0x010, 17, 17⟩
def CAN.FAULT.BUS_OFF : Fld := ⟨0x010, 16, 16⟩
def CAN.CFG.FD_EN : Fld := ⟨0x040, 31, 31⟩
def CAN.CFG.LISTEN : Fld := ⟨0x040, 30, 30⟩
def CAN.CFG.AUTO_REC : Fld := ⟨0x040, 29, 29⟩
def CAN.CFG.BOFF_ABORT : Fld := ⟨0x040, 28, 28⟩
def CAN.CFG.PEX : Fld := ⟨0x040, 27, 27⟩
def CAN.NBT.BRP : Fld := ⟨0x044, 31, 26⟩
def CAN.NBT.TSEG1 : Fld := ⟨0x044, 25, 18⟩
def CAN.NBT.TSEG2 : Fld := ⟨0x044, 17, 10⟩
def CAN.NBT.SJW : Fld := ⟨0x044, 9, 2⟩
def CAN.DBT.BRP : Fld := ⟨0x048, 31, 27⟩
def CAN.DBT.TSEG1 : Fld := ⟨0x048, 26, 21⟩
def CAN.DBT.TSEG2 : Fld := ⟨0x048, 20, 16⟩
def CAN.DBT.SJW : Fld := ⟨0x048, 15, 11⟩
def CAN.DBT.TDC_EN : Fld := ⟨0x048, 10, 10⟩
def CAN.DBT.TDCO : Fld := ⟨0x048, 7, 0⟩
def CAN.TXQ_BASE_LO : Fld := ⟨0x04C, 31, 0⟩
def CAN.TXQ_BASE_HI.ADDR_HI : Fld := ⟨0x050, 7, 0⟩
def CAN.RXQ_BASE_LO : Fld := ⟨0x054, 31, 0⟩
def CAN.RXQ_BASE_HI.ADDR_HI : Fld := ⟨0x058, 7, 0⟩
def CAN.TX_SUBMIT.ENTRY : Fld := ⟨0x05C, 5, 0⟩
def CAN.TX_ABORT.ENTRY : Fld := ⟨0x060, 5, 0⟩
def CAN.TX_PEND_LO : Fld := ⟨0x064, 31, 0⟩
def CAN.TX_PEND_HI : Fld := ⟨0x068, 31, 0⟩
def CAN.TX_DONE_LO : Fld := ⟨0x06C, 31, 0⟩
def CAN.TX_DONE_HI : Fld := ⟨0x070, 31, 0⟩
def CAN.RX_HEAD.HEAD : Fld := ⟨0x074, 6, 0⟩
def CAN.RX_TAIL.TAIL : Fld := ⟨0x078, 6, 0⟩
def CAN.RX_ACK.COUNT : Fld := ⟨0x07C, 7, 0⟩
def CAN.RX_OVR : Fld := ⟨0x080, 31, 0⟩
def CAN.ERR.TEC : Fld := ⟨0x084, 31, 24⟩
def CAN.ERR.REC : Fld := ⟨0x084, 23, 16⟩
def CAN.ERR.LEC : Fld := ⟨0x084, 15, 12⟩
def CAN.ERR.DLEC : Fld := ⟨0x084, 11, 8⟩
def CAN.BOFF_CNT : Fld := ⟨0x088, 31, 0⟩
def CAN.PEX_CNT : Fld := ⟨0x08C, 31, 0⟩
def CAN.ABR.RATE : Fld := ⟨0x090, 31, 16⟩
def CAN.ABR.TMO : Fld := ⟨0x090, 15, 0⟩
def CAN.CMD.CODE : Fld := ⟨0x094, 1, 0⟩
def CAN.FILT_GEN.GEN : Fld := ⟨0x098, 7, 0⟩
def CAN.FILT_CFG.NOMATCH : Fld := ⟨0x09C, 31, 31⟩
def CAN.FILT_CFG.SELF : Fld := ⟨0x09C, 30, 30⟩
def CAN.BIND_STAT : Fld := ⟨0x0A0, 31, 0⟩
def CAN.RULE_INDEX.RULE : Fld := ⟨0x0A4, 5, 0⟩
def CAN.RULE_W0.VALID : Fld := ⟨0x0A8, 31, 31⟩
def CAN.RULE_W0.REJECT : Fld := ⟨0x0A8, 30, 30⟩
def CAN.RULE_W0.IDE : Fld := ⟨0x0A8, 29, 29⟩
def CAN.RULE_W0.ID : Fld := ⟨0x0A8, 28, 0⟩
def CAN.RULE_W1.MASK : Fld := ⟨0x0AC, 28, 0⟩

/-! ### DIOG: R376 (12_field_io.md) -/

def DIOG.STATUS.FS_MISSING : Fld := ⟨0x008, 1, 1⟩
def DIOG.STATUS.FS_LOW : Fld := ⟨0x008, 0, 0⟩
def DIOG.FAULT.EDGE_OVF : Fld := ⟨0x010, 22, 22⟩
def DIOG.FAULT.READBACK : Fld := ⟨0x010, 21, 21⟩
def DIOG.FAULT.WIRE_BREAK : Fld := ⟨0x010, 20, 20⟩
def DIOG.FAULT.THERMAL : Fld := ⟨0x010, 19, 19⟩
def DIOG.FAULT.OVERLOAD : Fld := ⟨0x010, 18, 18⟩
def DIOG.FAULT.FS_LOW : Fld := ⟨0x010, 17, 17⟩
def DIOG.FAULT.FS_MISSING : Fld := ⟨0x010, 16, 16⟩
def DIOG.GCFG.TP_PERIOD : Fld := ⟨0x040, 31, 16⟩
def DIOG.GCFG.SPER : Fld := ⟨0x040, 15, 0⟩
def DIOG.FS_MV.MV : Fld := ⟨0x044, 15, 0⟩
def DIOG.LEVELS.CMD : Fld := ⟨0x048, 23, 16⟩
def DIOG.LEVELS.RAW : Fld := ⟨0x048, 15, 8⟩
def DIOG.LEVELS.LEVEL : Fld := ⟨0x048, 7, 0⟩
def DIOG.RESTART.CH : Fld := ⟨0x04C, 7, 0⟩
def DIOG.EDGE_SEL.CH : Fld := ⟨0x050, 2, 0⟩
def DIOG.EDGE_W0 : Fld := ⟨0x054, 31, 0⟩
def DIOG.EDGE_W1.VALID : Fld := ⟨0x058, 31, 31⟩
def DIOG.EDGE_W1.LEVEL : Fld := ⟨0x058, 30, 30⟩
def DIOG.EDGE_W1.LOST : Fld := ⟨0x058, 29, 29⟩
def DIOG.EDGE_W1.UNTRUSTED : Fld := ⟨0x058, 28, 28⟩
def DIOG.EDGE_W1.HI : Fld := ⟨0x058, 23, 0⟩
def DIOG.EDGE_LOST : Fld := ⟨0x05C, 31, 0⟩
def DIOG.CH_CFG.MODE (i : Nat) : Fld := ⟨0x080 + i * 0x4, 31, 29⟩
def DIOG.CH_CFG.TYPE (i : Nat) : Fld := ⟨0x080 + i * 0x4, 28, 28⟩
def DIOG.CH_CFG.EDGE (i : Nat) : Fld := ⟨0x080 + i * 0x4, 27, 26⟩
def DIOG.CH_CFG.EDGE_EVT (i : Nat) : Fld := ⟨0x080 + i * 0x4, 25, 25⟩
def DIOG.CH_CFG.INVERT (i : Nat) : Fld := ⟨0x080 + i * 0x4, 24, 24⟩
def DIOG.CH_CFG.SAFE (i : Nat) : Fld := ⟨0x080 + i * 0x4, 23, 22⟩
def DIOG.CH_CFG.TP_EN (i : Nat) : Fld := ⟨0x080 + i * 0x4, 21, 21⟩
def DIOG.CH_CFG.OL_EN (i : Nat) : Fld := ⟨0x080 + i * 0x4, 20, 20⟩
def DIOG.CH_CFG.RB_EN (i : Nat) : Fld := ⟨0x080 + i * 0x4, 19, 19⟩
def DIOG.CH_CFG.FILT (i : Nat) : Fld := ⟨0x080 + i * 0x4, 15, 0⟩
def DIOG.CH_BIND.OUT_VALID (i : Nat) : Fld := ⟨0x0A0 + i * 0x4, 31, 31⟩
def DIOG.CH_BIND.OUT_INDEX (i : Nat) : Fld := ⟨0x0A0 + i * 0x4, 30, 16⟩
def DIOG.CH_BIND.IN_VALID (i : Nat) : Fld := ⟨0x0A0 + i * 0x4, 15, 15⟩
def DIOG.CH_BIND.IN_INDEX (i : Nat) : Fld := ⟨0x0A0 + i * 0x4, 14, 0⟩
def DIOG.CH_STAT.MA (i : Nat) : Fld := ⟨0x0C0 + i * 0x4, 31, 16⟩
def DIOG.CH_STAT.EDGES (i : Nat) : Fld := ⟨0x0C0 + i * 0x4, 15, 8⟩
def DIOG.CH_STAT.COOL (i : Nat) : Fld := ⟨0x0C0 + i * 0x4, 7, 7⟩
def DIOG.CH_STAT.IN_LIMIT (i : Nat) : Fld := ⟨0x0C0 + i * 0x4, 6, 6⟩
def DIOG.CH_STAT.THERMAL_OFF (i : Nat) : Fld := ⟨0x0C0 + i * 0x4, 5, 5⟩
def DIOG.CH_STAT.WIRE_BREAK (i : Nat) : Fld := ⟨0x0C0 + i * 0x4, 4, 4⟩
def DIOG.CH_STAT.READBACK_ERR (i : Nat) : Fld := ⟨0x0C0 + i * 0x4, 3, 3⟩
def DIOG.OPS (i : Nat) : Fld := ⟨0x0E0 + i * 0x4, 31, 0⟩

/-! ### ANA: R377 (12_field_io.md) -/

def ANA.STATUS.CLK_STEP : Fld := ⟨0x008, 27, 26⟩
def ANA.STATUS.COMPLIANCE : Fld := ⟨0x008, 25, 25⟩
def ANA.STATUS.NO_LOOP : Fld := ⟨0x008, 24, 24⟩
def ANA.STATUS.THERMAL : Fld := ⟨0x008, 23, 23⟩
def ANA.STATUS.MISWIRE : Fld := ⟨0x008, 22, 22⟩
def ANA.STATUS.READY : Fld := ⟨0x008, 21, 21⟩
def ANA.STATUS.POWER_CH : Fld := ⟨0x008, 20, 20⟩
def ANA.FAULT.ISLAND : Fld := ⟨0x010, 23, 23⟩
def ANA.FAULT.READBACK : Fld := ⟨0x010, 22, 22⟩
def ANA.FAULT.HART : Fld := ⟨0x010, 21, 21⟩
def ANA.FAULT.NO_LOOP : Fld := ⟨0x010, 20, 20⟩
def ANA.FAULT.MISWIRE : Fld := ⟨0x010, 19, 19⟩
def ANA.FAULT.THERMAL : Fld := ⟨0x010, 18, 18⟩
def ANA.FAULT.COMPLIANCE : Fld := ⟨0x010, 17, 17⟩
def ANA.FAULT.RANGE : Fld := ⟨0x010, 16, 16⟩
def ANA.CFG.TYPE : Fld := ⟨0x040, 31, 29⟩
def ANA.CFG.CHAR : Fld := ⟨0x040, 28, 27⟩
def ANA.CFG.SAFE : Fld := ⟨0x040, 26, 25⟩
def ANA.CFG.HART_EN : Fld := ⟨0x040, 24, 24⟩
def ANA.CFG.CONV : Fld := ⟨0x040, 23, 20⟩
def ANA.CFG.TAB_N : Fld := ⟨0x040, 13, 8⟩
def ANA.I_LO : Fld := ⟨0x044, 31, 0⟩
def ANA.I_HI : Fld := ⟨0x048, 31, 0⟩
def ANA.EU_LO : Fld := ⟨0x04C, 31, 0⟩
def ANA.EU_HI : Fld := ⟨0x050, 31, 0⟩
def ANA.CUTOFF : Fld := ⟨0x054, 31, 0⟩
def ANA.BAD_LO : Fld := ⟨0x058, 31, 0⟩
def ANA.BAD_HI : Fld := ⟨0x05C, 31, 0⟩
def ANA.LIM_LO : Fld := ⟨0x060, 31, 0⟩
def ANA.LIM_HI : Fld := ⟨0x064, 31, 0⟩
def ANA.SAFE_VAL : Fld := ⟨0x068, 31, 0⟩
def ANA.SUPPLY.TX_DV : Fld := ⟨0x06C, 8, 0⟩
def ANA.BIND.OUT_VALID : Fld := ⟨0x070, 31, 31⟩
def ANA.BIND.OUT_INDEX : Fld := ⟨0x070, 30, 16⟩
def ANA.BIND.IN_VALID : Fld := ⟨0x070, 15, 15⟩
def ANA.BIND.IN_INDEX : Fld := ⟨0x070, 14, 0⟩
def ANA.CMD.CODE : Fld := ⟨0x074, 1, 0⟩
def ANA.VALUE : Fld := ⟨0x080, 31, 0⟩
def ANA.MA : Fld := ⟨0x084, 31, 0⟩
def ANA.SUPPLY_MV.MV : Fld := ⟨0x088, 15, 0⟩
def ANA.UPD_US : Fld := ⟨0x08C, 31, 0⟩
def ANA.TEMP.T : Fld := ⟨0x090, 15, 0⟩
def ANA.HART_CFG.RETRIES : Fld := ⟨0x0A0, 9, 8⟩
def ANA.HART_CFG.PREAMBLES : Fld := ⟨0x0A0, 4, 0⟩
def ANA.HART_CMD.CODE : Fld := ⟨0x0A4, 1, 0⟩
def ANA.HART_STATUS.RESULT : Fld := ⟨0x0A8, 31, 28⟩
def ANA.HART_STATUS.TAKEN : Fld := ⟨0x0A8, 27, 27⟩
def ANA.HART_STATUS.RX_LEN : Fld := ⟨0x0A8, 15, 8⟩
def ANA.HART_STATUS.TRIES : Fld := ⟨0x0A8, 7, 0⟩
def ANA.HART_LEN.TX_LEN : Fld := ⟨0x0AC, 7, 0⟩
def ANA.BURST_LOST : Fld := ⟨0x0B0, 31, 0⟩
def ANA.TABLE (i : Nat) : Fld := ⟨0x100 + i * 0x4, 31, 0⟩
def ANA.HART_TX (i : Nat) : Fld := ⟨0x200 + i * 0x4, 31, 0⟩
def ANA.HART_RX (i : Nat) : Fld := ⟨0x300 + i * 0x4, 31, 0⟩

/-! ### DVL: R402 (13_redundancy.md) -/

def DVL.STATUS.HB_OK : Fld := ⟨0x008, 3, 3⟩
def DVL.STATUS.LINK_OK : Fld := ⟨0x008, 2, 2⟩
def DVL.STATUS.LANE1_UP : Fld := ⟨0x008, 1, 1⟩
def DVL.STATUS.LANE0_UP : Fld := ⟨0x008, 0, 0⟩
def DVL.FAULT.COPY_FAIL : Fld := ⟨0x010, 19, 19⟩
def DVL.FAULT.CRC : Fld := ⟨0x010, 18, 18⟩
def DVL.FAULT.LANE_DOWN : Fld := ⟨0x010, 17, 17⟩
def DVL.FAULT.LINK_LOST : Fld := ⟨0x010, 16, 16⟩
def DVL.CFG.HB_MISS : Fld := ⟨0x040, 11, 8⟩
def DVL.CFG.LANE_EN : Fld := ⟨0x040, 1, 0⟩
def DVL.PROTO.VER_MAX : Fld := ⟨0x044, 15, 8⟩
def DVL.PROTO.VER_MIN : Fld := ⟨0x044, 7, 0⟩
def DVL.PEER_OFS_LO : Fld := ⟨0x048, 31, 0⟩
def DVL.PEER_OFS_HI : Fld := ⟨0x04C, 31, 0⟩
def DVL.LINK_DELAY : Fld := ⟨0x050, 31, 0⟩
def DVL.COPY_RATE.KIB_MS : Fld := ⟨0x054, 15, 0⟩
def DVL.COPY_LATE : Fld := ⟨0x058, 31, 0⟩
def DVL.TX_FRAMES : Fld := ⟨0x05C, 31, 0⟩
def DVL.RX_FRAMES : Fld := ⟨0x060, 31, 0⟩
def DVL.DUP_DISC : Fld := ⟨0x064, 31, 0⟩
def DVL.CRC_ERRS.LANE1 : Fld := ⟨0x068, 31, 16⟩
def DVL.CRC_ERRS.LANE0 : Fld := ⟨0x068, 15, 0⟩

/-! ### PAIR: R403 (13_redundancy.md) -/

def PAIR.STATUS.PAIR_STATE : Fld := ⟨0x008, 27, 24⟩
def PAIR.STATUS.ROLE : Fld := ⟨0x008, 23, 22⟩
def PAIR.STATUS.READY : Fld := ⟨0x008, 21, 21⟩
def PAIR.STATUS.HANDOVER : Fld := ⟨0x008, 20, 20⟩
def PAIR.STATUS.DUTY_IN : Fld := ⟨0x008, 19, 19⟩
def PAIR.STATUS.TAKE_IN : Fld := ⟨0x008, 18, 18⟩
def PAIR.STATUS.DUTY_OUT : Fld := ⟨0x008, 17, 17⟩
def PAIR.STATUS.YIELD_OUT : Fld := ⟨0x008, 16, 16⟩
def PAIR.STATUS.SHADOW_OFF : Fld := ⟨0x008, 15, 15⟩
def PAIR.STATUS.FW_DIFF : Fld := ⟨0x008, 14, 14⟩
def PAIR.STATUS.CAP_DIFF : Fld := ⟨0x008, 13, 13⟩
def PAIR.FAULT.BOTH_DUTY : Fld := ⟨0x010, 25, 25⟩
def PAIR.FAULT.LINE : Fld := ⟨0x010, 24, 24⟩
def PAIR.FAULT.PAIR_REFUSED : Fld := ⟨0x010, 23, 23⟩
def PAIR.FAULT.SELFTEST : Fld := ⟨0x010, 22, 22⟩
def PAIR.FAULT.SHADOW_STATE : Fld := ⟨0x010, 21, 21⟩
def PAIR.FAULT.SHADOW_PAIR : Fld := ⟨0x010, 20, 20⟩
def PAIR.FAULT.TIME_OFS : Fld := ⟨0x010, 19, 19⟩
def PAIR.FAULT.YIELD_REFUSED : Fld := ⟨0x010, 18, 18⟩
def PAIR.FAULT.SYNC_TMO : Fld := ⟨0x010, 17, 17⟩
def PAIR.FAULT.PARTNER_LOST : Fld := ⟨0x010, 16, 16⟩
def PAIR.CFG.CLAIM_WAIT : Fld := ⟨0x040, 31, 24⟩
def PAIR.CFG.SHADOW_EN : Fld := ⟨0x040, 17, 17⟩
def PAIR.CFG.ROT_H : Fld := ⟨0x040, 15, 0⟩
def PAIR.OFS_MAX : Fld := ⟨0x044, 31, 0⟩
def PAIR.SELFTEST_CFG.PERIOD_S : Fld := ⟨0x048, 15, 0⟩
def PAIR.CMD.CODE : Fld := ⟨0x04C, 1, 0⟩
def PAIR.CMD_STATUS.BUSY : Fld := ⟨0x050, 8, 8⟩
def PAIR.CMD_STATUS.RESULT : Fld := ⟨0x050, 7, 0⟩
def PAIR.PAIR_INFO.PROTO : Fld := ⟨0x054, 31, 24⟩
def PAIR.PAIR_INFO.REFUSAL : Fld := ⟨0x054, 23, 16⟩
def PAIR.PAIR_INFO.PARTNER_POS : Fld := ⟨0x054, 15, 8⟩
def PAIR.PARTNER_FW : Fld := ⟨0x058, 31, 0⟩
def PAIR.PARTNER_SERIAL_LO : Fld := ⟨0x05C, 31, 0⟩
def PAIR.PARTNER_SERIAL_HI : Fld := ⟨0x060, 31, 0⟩
def PAIR.ROT_LEFT : Fld := ⟨0x064, 31, 0⟩
def PAIR.LAST_SWITCH.CAUSE : Fld := ⟨0x068, 31, 28⟩
def PAIR.LAST_SWITCH.GAP_US : Fld := ⟨0x068, 27, 0⟩
def PAIR.SWITCHES : Fld := ⟨0x06C, 31, 0⟩
def PAIR.COPY_AGE : Fld := ⟨0x070, 31, 0⟩
def PAIR.LOOP_AGE : Fld := ⟨0x074, 31, 0⟩
def PAIR.SHADOW_STAT.TASK : Fld := ⟨0x078, 31, 27⟩
def PAIR.SHADOW_STAT.RESULT : Fld := ⟨0x078, 26, 24⟩
def PAIR.SHADOW_STAT.PAIR : Fld := ⟨0x078, 1, 0⟩
def PAIR.SHADOW_CYCLE : Fld := ⟨0x07C, 31, 0⟩
def PAIR.SHADOW_OK : Fld := ⟨0x080, 31, 0⟩
def PAIR.SHADOW_SKIP : Fld := ⟨0x084, 31, 0⟩
def PAIR.SHADOW_BAD : Fld := ⟨0x088, 31, 0⟩
def PAIR.SELFTEST.FAILED : Fld := ⟨0x08C, 4, 0⟩

/-! ### FLT: R420 (14_faults.md) -/

def FLT.STATUS.YIELD_ANY : Fld := ⟨0x008, 3, 3⟩
def FLT.STATUS.FENCE_ANY : Fld := ⟨0x008, 2, 2⟩
def FLT.STATUS.DEGRADE_ANY : Fld := ⟨0x008, 1, 1⟩
def FLT.STATUS.NOTE_ANY : Fld := ⟨0x008, 0, 0⟩
def FLT.FAULT.READMIT_REFUSED : Fld := ⟨0x010, 17, 17⟩
def FLT.FAULT.CLEAR_REFUSED : Fld := ⟨0x010, 16, 16⟩
def FLT.ACTIVE (i : Nat) : Fld := ⟨0x040 + i * 0x4, 31, 0⟩
def FLT.SRC_INDEX.SOURCE : Fld := ⟨0x080, 8, 0⟩
def FLT.SRC_CFG.DEFAULT : Fld := ⟨0x084, 11, 10⟩
def FLT.SRC_CFG.COND : Fld := ⟨0x084, 8, 8⟩
def FLT.SRC_CFG.ALLOWED : Fld := ⟨0x084, 7, 4⟩
def FLT.SRC_CFG.CLASS : Fld := ⟨0x084, 1, 0⟩
def FLT.SRC_STAT.ACTIVE : Fld := ⟨0x088, 31, 31⟩
def FLT.SRC_STAT.CAUSE : Fld := ⟨0x088, 30, 30⟩
def FLT.SRC_STAT.RAISES : Fld := ⟨0x088, 15, 0⟩
def FLT.SRC_CLEAR.CLEAR : Fld := ⟨0x08C, 0, 0⟩
def FLT.SRC_PAGES (i : Nat) : Fld := ⟨0x090 + i * 0x4, 31, 0⟩
def FLT.SRC_LAST_T : Fld := ⟨0x0D0, 31, 0⟩
def FLT.SRC_REFUSED : Fld := ⟨0x0D4, 31, 0⟩
def FLT.READMIT.KIND : Fld := ⟨0x0D8, 31, 30⟩
def FLT.READMIT.ID : Fld := ⟨0x0D8, 8, 0⟩
def FLT.CMD_STATUS.BUSY : Fld := ⟨0x0DC, 8, 8⟩
def FLT.CMD_STATUS.RESULT : Fld := ⟨0x0DC, 7, 0⟩
def FLT.FENCED (i : Nat) : Fld := ⟨0x0E0 + i * 0x4, 31, 0⟩

/-! ### LEG: R421 (14_faults.md) -/

def LEG.FE_ADDR_LO : Fld := ⟨0x040, 31, 0⟩
def LEG.FE_ADDR_HI.ADDR_HI : Fld := ⟨0x044, 7, 0⟩
def LEG.FE_INFO.VALID : Fld := ⟨0x048, 31, 31⟩
def LEG.FE_INFO.MORE : Fld := ⟨0x048, 30, 30⟩
def LEG.FE_INFO.MASTER : Fld := ⟨0x048, 11, 8⟩
def LEG.FE_INFO.TYPE : Fld := ⟨0x048, 1, 0⟩
def LEG.FE_TIME : Fld := ⟨0x04C, 31, 0⟩
def LEG.FE_CLEAR.CLEAR : Fld := ⟨0x050, 0, 0⟩
def LEG.FE_COUNT : Fld := ⟨0x054, 31, 0⟩

/-! ### CAL: R452 (15_calendar_tallies_recorder.md) -/

def CAL.STATUS.TRUST : Fld := ⟨0x008, 27, 26⟩
def CAL.STATUS.OSF : Fld := ⟨0x008, 25, 25⟩
def CAL.STATUS.LBF : Fld := ⟨0x008, 24, 24⟩
def CAL.FAULT.YEAR_WRAP : Fld := ⟨0x010, 20, 20⟩
def CAL.FAULT.ALARM_LATE : Fld := ⟨0x010, 19, 19⟩
def CAL.FAULT.LBF : Fld := ⟨0x010, 18, 18⟩
def CAL.FAULT.OSF : Fld := ⟨0x010, 17, 17⟩
def CAL.FAULT.BAD_DATE : Fld := ⟨0x010, 16, 16⟩
def CAL.DATE : Fld := ⟨0x040, 31, 0⟩
def CAL.TIME : Fld := ⟨0x044, 31, 0⟩
def CAL.FRAC : Fld := ⟨0x048, 7, 0⟩
def CAL.SET_DATE : Fld := ⟨0x050, 31, 0⟩
def CAL.SET_TIME : Fld := ⟨0x054, 31, 0⟩
def CAL.APPLY_T : Fld := ⟨0x058, 31, 0⟩
def CAL.ADJ : Fld := ⟨0x05C, 31, 0⟩
def CAL.ALARM_DATE.DATE_EN : Fld := ⟨0x060, 31, 31⟩
def CAL.ALARM_DATE.DATE : Fld := ⟨0x060, 30, 0⟩
def CAL.ALARM_TIME.EN : Fld := ⟨0x064, 31, 31⟩
def CAL.ALARM_TIME.TIME : Fld := ⟨0x064, 30, 0⟩
def CAL.ALARM_STAT.FIRED : Fld := ⟨0x068, 31, 31⟩
def CAL.ALARM_STAT.LATE : Fld := ⟨0x068, 30, 30⟩
def CAL.ALARM_STAT.WHILE_OFF : Fld := ⟨0x068, 29, 29⟩
def CAL.LAST_FIRED : Fld := ⟨0x06C, 31, 0⟩
def CAL.WAKE.EN : Fld := ⟨0x070, 31, 31⟩
def CAL.WAKE.PERIOD : Fld := ⟨0x070, 22, 0⟩
def CAL.WAKE_COUNT : Fld := ⟨0x074, 31, 0⟩

/-! ### TLY: R453 (15_calendar_tallies_recorder.md) -/

def TLY.STATUS.WARN_ANY : Fld := ⟨0x008, 1, 1⟩
def TLY.STATUS.FLUSHING : Fld := ⟨0x008, 0, 0⟩
def TLY.FAULT.PRESET_REFUSED : Fld := ⟨0x010, 18, 18⟩
def TLY.FAULT.TALLY_LOST : Fld := ⟨0x010, 17, 17⟩
def TLY.FAULT.THRESHOLD : Fld := ⟨0x010, 16, 16⟩
def TLY.INDEX.COUNTER : Fld := ⟨0x040, 7, 0⟩
def TLY.VALUE_LO : Fld := ⟨0x044, 31, 0⟩
def TLY.VALUE_HI : Fld := ⟨0x048, 31, 0⟩
def TLY.THRESH_LO : Fld := ⟨0x04C, 31, 0⟩
def TLY.THRESH_HI : Fld := ⟨0x050, 31, 0⟩
def TLY.PRESET_LO : Fld := ⟨0x054, 31, 0⟩
def TLY.PRESET_HI : Fld := ⟨0x058, 31, 0⟩
def TLY.CMD.CODE : Fld := ⟨0x05C, 1, 0⟩
def TLY.UNLOCK : Fld := ⟨0x060, 31, 0⟩
def TLY.CMD_STATUS.RESULT : Fld := ⟨0x064, 7, 0⟩
def TLY.WARN (i : Nat) : Fld := ⟨0x080 + i * 0x4, 31, 0⟩

/-! ### REC: R454 (15_calendar_tallies_recorder.md) -/

def REC.STATUS.EPOCH_STALE : Fld := ⟨0x008, 0, 0⟩
def REC.FAULT.MRAM_ERR : Fld := ⟨0x010, 19, 19⟩
def REC.FAULT.EPOCH_STALE : Fld := ⟨0x010, 18, 18⟩
def REC.FAULT.WRAP_LATE : Fld := ⟨0x010, 17, 17⟩
def REC.FAULT.QUEUE_FULL : Fld := ⟨0x010, 16, 16⟩
def REC.EPOCH : Fld := ⟨0x040, 31, 0⟩
def REC.PEND : Fld := ⟨0x044, 1, 0⟩
def REC.WRAP_ACK.N : Fld := ⟨0x048, 1, 0⟩
def REC.NEWEST_SEQ : Fld := ⟨0x04C, 31, 0⟩
def REC.OLDEST_SEQ : Fld := ⟨0x050, 31, 0⟩
def REC.HELD.COUNT : Fld := ⟨0x054, 18, 0⟩
def REC.QUEUE.LEVEL : Fld := ⟨0x058, 10, 0⟩
def REC.GLOBAL.RATE : Fld := ⟨0x05C, 31, 16⟩
def REC.GLOBAL.BURST : Fld := ⟨0x05C, 15, 0⟩
def REC.CODE_INDEX.CODE : Fld := ⟨0x060, 11, 0⟩
def REC.CODE_CFG.RATE : Fld := ⟨0x064, 31, 16⟩
def REC.CODE_CFG.BURST : Fld := ⟨0x064, 15, 8⟩
def REC.CODE_CFG.SEV : Fld := ⟨0x064, 7, 5⟩
def REC.CODE_STAT.SUPP : Fld := ⟨0x068, 7, 0⟩
def REC.LOG_P (i : Nat) : Fld := ⟨0x06C + i * 0x4, 31, 0⟩
def REC.LOG_CMD.CODE : Fld := ⟨0x078, 31, 20⟩
def REC.LOG_CMD.SUB : Fld := ⟨0x078, 10, 8⟩
def REC.LOG_STATUS.RESULT : Fld := ⟨0x07C, 7, 0⟩
def REC.SUPP_TOTAL : Fld := ⟨0x080, 31, 0⟩
def REC.WRITTEN : Fld := ⟨0x084, 31, 0⟩

/-! ### RCUR: R455 (15_calendar_tallies_recorder.md) -/

def RCUR.STATUS.AT_END : Fld := ⟨0x008, 0, 0⟩
def RCUR.FAULT.LAPPED : Fld := ⟨0x010, 17, 17⟩
def RCUR.FAULT.BAD_RECORD : Fld := ⟨0x010, 16, 16⟩
def RCUR.WIN_W (i : Nat) : Fld := ⟨0x040 + i * 0x4, 31, 0⟩
def RCUR.WIN_STATUS.VALID : Fld := ⟨0x060, 31, 31⟩
def RCUR.WIN_STATUS.BAD : Fld := ⟨0x060, 30, 30⟩
def RCUR.WIN_STATUS.LOCKED : Fld := ⟨0x060, 29, 29⟩
def RCUR.CURSOR.INDEX : Fld := ⟨0x064, 17, 0⟩
def RCUR.CURSOR_SEQ : Fld := ⟨0x068, 31, 0⟩
def RCUR.LOST : Fld := ⟨0x06C, 31, 0⟩
def RCUR.BEHIND.COUNT : Fld := ⟨0x070, 18, 0⟩
def RCUR.SEEK.CODE : Fld := ⟨0x074, 1, 0⟩
def RCUR.SEEK_SEQ : Fld := ⟨0x078, 31, 0⟩
def RCUR.SEEK_STATUS.RESULT : Fld := ⟨0x07C, 7, 0⟩

/-! ### PNL: R473 (16_front_panel.md) -/

def PNL.STATUS.DRIVE : Fld := ⟨0x008, 27, 25⟩
def PNL.STATUS.REGION : Fld := ⟨0x008, 24, 22⟩
def PNL.STATUS.COMMON : Fld := ⟨0x008, 21, 17⟩
def PNL.STATUS.PENDING : Fld := ⟨0x008, 7, 0⟩
def PNL.FAULT.MARKER_ERR : Fld := ⟨0x010, 19, 19⟩
def PNL.FAULT.TEMP_RANGE : Fld := ⟨0x010, 18, 18⟩
def PNL.FAULT.RECOVERY : Fld := ⟨0x010, 17, 17⟩
def PNL.FAULT.DRIVE_ERR : Fld := ⟨0x010, 16, 16⟩
def PNL.CFG.MIN_GAP : Fld := ⟨0x040, 31, 16⟩
def PNL.REGION.EN (i : Nat) : Fld := ⟨0x044 + i * 0x4, 31, 31⟩
def PNL.REGION.LAST (i : Nat) : Fld := ⟨0x044 + i * 0x4, 12, 8⟩
def PNL.REGION.FIRST (i : Nat) : Fld := ⟨0x044 + i * 0x4, 4, 0⟩
def PNL.REQ.MASK : Fld := ⟨0x064, 7, 0⟩
def PNL.REST_CMD.CODE : Fld := ⟨0x068, 1, 0⟩
def PNL.REST_NAME (i : Nat) : Fld := ⟨0x070 + i * 0x4, 31, 0⟩
def PNL.REST_TEXT (i : Nat) : Fld := ⟨0x080 + i * 0x4, 31, 0⟩
def PNL.REST_CAUSE.CAUSE : Fld := ⟨0x090, 3, 0⟩
def PNL.TEMP.T : Fld := ⟨0x094, 15, 0⟩
def PNL.DRIVES : Fld := ⟨0x098, 31, 0⟩
def PNL.REPLACED : Fld := ⟨0x09C, 31, 0⟩
def PNL.FB (i : Nat) : Fld := ⟨0x400 + i * 0x4, 31, 0⟩

/-! ### IND: R474 (16_front_panel.md) -/

def IND.STATUS.OVERRIDE : Fld := ⟨0x008, 1, 1⟩
def IND.STATUS.IDENTIFY : Fld := ⟨0x008, 0, 0⟩
def IND.FAULT.SHORT : Fld := ⟨0x010, 17, 17⟩
def IND.FAULT.OPEN : Fld := ⟨0x010, 16, 16⟩
def IND.CFG.SRC (i : Nat) : Fld := ⟨0x040 + i * 0x4, 31, 30⟩
def IND.CFG.BLINK (i : Nat) : Fld := ⟨0x040 + i * 0x4, 29, 28⟩
def IND.CFG.R (i : Nat) : Fld := ⟨0x040 + i * 0x4, 23, 16⟩
def IND.CFG.G (i : Nat) : Fld := ⟨0x040 + i * 0x4, 15, 8⟩
def IND.CFG.B (i : Nat) : Fld := ⟨0x040 + i * 0x4, 7, 0⟩
def IND.BRIGHT.LEVEL : Fld := ⟨0x070, 7, 0⟩
def IND.I_TOTAL.CODES : Fld := ⟨0x074, 15, 0⟩
def IND.LAST_FAULT.INDICATOR : Fld := ⟨0x078, 15, 8⟩
def IND.LAST_FAULT.COLOUR : Fld := ⟨0x078, 1, 0⟩
def IND.GAMMA_R.CODE (i : Nat) : Fld := ⟨0x100 + i * 0x4, 9, 0⟩
def IND.GAMMA_G.CODE (i : Nat) : Fld := ⟨0x200 + i * 0x4, 9, 0⟩
def IND.GAMMA_B.CODE (i : Nat) : Fld := ⟨0x300 + i * 0x4, 9, 0⟩

/-! ### The rows -/

def rowsSup0 : List RegRow := [
  ⟨0x010, 1, 0x4, 25, 25, .w1c, .none, 0, 0, 1⟩,
  ⟨0x010, 1, 0x4, 24, 24, .w1c, .none, 0, 0, 1⟩,
  ⟨0x010, 1, 0x4, 23, 23, .w1c, .none, 0, 0, 1⟩,
  ⟨0x010, 1, 0x4, 22, 22, .w1c, .none, 0, 0, 1⟩,
  ⟨0x010, 1, 0x4, 21, 21, .w1c, .none, 0, 0, 1⟩,
  ⟨0x010, 1, 0x4, 20, 20, .w1c, .none, 0, 0, 1⟩,
  ⟨0x010, 1, 0x4, 19, 19, .w1c, .none, 0, 0, 1⟩,
  ⟨0x010, 1, 0x4, 18, 18, .w1c, .none, 0, 0, 1⟩,
  ⟨0x010, 1, 0x4, 17, 17, .w1c, .none, 0, 0, 1⟩,
  ⟨0x010, 1, 0x4, 16, 16, .w1c, .none, 0, 0, 1⟩,
  ⟨0x040, 1, 0x4, 13, 13, .ro, .none, 0, 0, 1⟩,
  ⟨0x040, 1, 0x4, 12, 12, .ro, .none, 0, 0, 1⟩,
  ⟨0x040, 1, 0x4, 9, 9, .ro, .none, 0, 0, 1⟩,
  ⟨0x040, 1, 0x4, 8, 8, .ro, .none, 0, 0, 1⟩,
  ⟨0x040, 1, 0x4, 3, 0, .ro, .none, 0, 0, 15⟩,
  ⟨0x044, 1, 0x4, 29, 24, .ro, .none, 0, 0, 63⟩,
  ⟨0x044, 1, 0x4, 22, 20, .ro, .none, 0, 0, 7⟩,
  ⟨0x044, 1, 0x4, 17, 16, .ro, .none, 0, 0, 3⟩,
  ⟨0x044, 1, 0x4, 8, 8, .ro, .none, 0, 0, 1⟩,
  ⟨0x044, 1, 0x4, 5, 0, .ro, .none, 0, 0, 63⟩,
  ⟨0x048, 1, 0x4, 5, 5, .ro, .none, 0, 0, 1⟩,
  ⟨0x048, 1, 0x4, 4, 4, .ro, .none, 0, 0, 1⟩,
  ⟨0x048, 1, 0x4, 3, 3, .ro, .none, 0, 0, 1⟩,
  ⟨0x048, 1, 0x4, 2, 2, .ro, .none, 0, 0, 1⟩,
  ⟨0x048, 1, 0x4, 1, 1, .ro, .none, 0, 0, 1⟩,
  ⟨0x048, 1, 0x4, 0, 0, .ro, .none, 0, 0, 1⟩,
  ⟨0x04C, 1, 0x4, 31, 16, .ro, .none, 0, 0, 65535⟩,
  ⟨0x04C, 1, 0x4, 15, 0, .ro, .none, 0, 0, 65535⟩,
  ⟨0x050, 1, 0x4, 15, 0, .ro, .none, 0, 0, 65535⟩,
  ⟨0x054, 1, 0x4, 15, 0, .ro, .none, 0, 0, 65535⟩,
  ⟨0x058, 1, 0x4, 31, 16, .ro, .none, 0, 0, 65535⟩,
  ⟨0x058, 1, 0x4, 15, 0, .ro, .none, 0, 0, 65535⟩,
  ⟨0x05C, 1, 0x4, 15, 0, .rw, .live, 0x2A8, 0, 65535⟩,
  ⟨0x060, 1, 0x4, 23, 8, .wo, .live, 0, 0, 65535⟩,
  ⟨0x060, 1, 0x4, 7, 0, .wo, .live, 0, 0, 255⟩,
  ⟨0x064, 1, 0x4, 31, 0, .wo, .live, 0, 0, 4294967295⟩,
  ⟨0x068, 1, 0x4, 31, 0, .rw, .live, 0, 0, 4294967295⟩,
  ⟨0x06C, 1, 0x4, 7, 0, .rw, .live, 0, 0, 255⟩,
  ⟨0x070, 1, 0x4, 8, 8, .ro, .none, 0, 0, 1⟩,
  ⟨0x070, 1, 0x4, 7, 0, .ro, .none, 0, 0, 255⟩]
def rowsSup1 : List RegRow := [
  ⟨0x0A0, 1, 0x4, 18, 0, .rw, .live, 0, 1, 262144⟩,
  ⟨0x074, 1, 0x4, 18, 16, .ro, .none, 0, 0, 7⟩,
  ⟨0x074, 1, 0x4, 11, 8, .ro, .none, 0, 0, 15⟩,
  ⟨0x074, 1, 0x4, 3, 3, .ro, .none, 0, 0, 1⟩,
  ⟨0x074, 1, 0x4, 2, 2, .ro, .none, 0, 0, 1⟩,
  ⟨0x074, 1, 0x4, 1, 1, .ro, .none, 0, 0, 1⟩,
  ⟨0x074, 1, 0x4, 0, 0, .ro, .none, 0, 0, 1⟩,
  ⟨0x078, 1, 0x4, 15, 0, .ro, .none, 0, 0, 65535⟩,
  ⟨0x07C, 1, 0x4, 15, 0, .rc, .none, 0, 0, 65535⟩,
  ⟨0x080, 1, 0x4, 8, 8, .rw, .live, 0, 0, 1⟩,
  ⟨0x080, 1, 0x4, 0, 0, .ro, .none, 0, 0, 1⟩,
  ⟨0x084, 1, 0x4, 31, 24, .ro, .none, 0, 0, 255⟩,
  ⟨0x084, 1, 0x4, 15, 8, .ro, .none, 0, 0, 255⟩,
  ⟨0x084, 1, 0x4, 7, 0, .ro, .none, 0, 0, 255⟩,
  ⟨0x088, 1, 0x4, 20, 0, .rw, .live, 0, 0, 2097151⟩,
  ⟨0x08C, 1, 0x4, 15, 0, .rw, .live, 0, 0, 65535⟩,
  ⟨0x090, 1, 0x4, 31, 0, .rw, .live, 0, 0, 4294967295⟩,
  ⟨0x094, 1, 0x4, 7, 0, .rw, .live, 0, 0, 255⟩,
  ⟨0x098, 1, 0x4, 1, 0, .wo, .live, 0, 0, 3⟩,
  ⟨0x09C, 1, 0x4, 31, 16, .rc, .none, 0, 0, 65535⟩,
  ⟨0x09C, 1, 0x4, 7, 4, .ro, .none, 0, 0, 15⟩,
  ⟨0x09C, 1, 0x4, 2, 2, .w1c, .none, 0, 0, 1⟩,
  ⟨0x09C, 1, 0x4, 1, 1, .w1c, .none, 0, 0, 1⟩,
  ⟨0x09C, 1, 0x4, 0, 0, .ro, .none, 0, 0, 1⟩]
def rowsSup : List RegRow := rowsSup0 ++ rowsSup1

def rowsPwr : List RegRow := [
  ⟨0x010, 1, 0x4, 21, 21, .w1c, .none, 0, 0, 1⟩,
  ⟨0x010, 1, 0x4, 20, 20, .w1c, .none, 0, 0, 1⟩,
  ⟨0x010, 1, 0x4, 19, 19, .w1c, .none, 0, 0, 1⟩,
  ⟨0x010, 1, 0x4, 18, 18, .w1c, .none, 0, 0, 1⟩,
  ⟨0x010, 1, 0x4, 17, 17, .w1c, .none, 0, 0, 1⟩,
  ⟨0x010, 1, 0x4, 16, 16, .w1c, .none, 0, 0, 1⟩,
  ⟨0x040, 1, 0x4, 23, 0, .ro, .none, 0, 0, 16777215⟩,
  ⟨0x044, 1, 0x4, 11, 0, .w1c, .none, 0, 0, 4095⟩,
  ⟨0x048, 1, 0x4, 10, 10, .ro, .none, 0, 0, 1⟩,
  ⟨0x048, 1, 0x4, 9, 9, .ro, .none, 0, 0, 1⟩,
  ⟨0x048, 1, 0x4, 8, 8, .ro, .none, 0, 0, 1⟩,
  ⟨0x048, 1, 0x4, 3, 0, .ro, .none, 0, 0, 15⟩,
  ⟨0x04C, 1, 0x4, 11, 9, .rw, .live, 0, 0, 7⟩,
  ⟨0x04C, 1, 0x4, 6, 3, .rw, .live, 0, 0, 15⟩,
  ⟨0x050, 1, 0x4, 19, 16, .ro, .none, 0, 0, 15⟩,
  ⟨0x050, 1, 0x4, 15, 0, .ro, .none, 0, 0, 65535⟩,
  ⟨0x054, 1, 0x4, 15, 0, .ro, .none, 0, 0, 65535⟩]

def rowsClk : List RegRow := [
  ⟨0x010, 1, 0x4, 20, 20, .w1c, .none, 0, 0, 1⟩,
  ⟨0x010, 1, 0x4, 19, 19, .w1c, .none, 0, 0, 1⟩,
  ⟨0x010, 1, 0x4, 18, 18, .w1c, .none, 0, 0, 1⟩,
  ⟨0x010, 1, 0x4, 17, 17, .w1c, .none, 0, 0, 1⟩,
  ⟨0x010, 1, 0x4, 16, 16, .w1c, .none, 0, 0, 1⟩,
  ⟨0x040, 1, 0x4, 31, 16, .ro, .none, 0, 0, 65535⟩,
  ⟨0x040, 1, 0x4, 3, 3, .ro, .none, 0, 0, 1⟩,
  ⟨0x040, 1, 0x4, 2, 2, .ro, .none, 0, 0, 1⟩,
  ⟨0x040, 1, 0x4, 1, 1, .ro, .none, 0, 0, 1⟩,
  ⟨0x040, 1, 0x4, 0, 0, .ro, .none, 0, 0, 1⟩,
  ⟨0x044, 1, 0x4, 15, 0, .rw, .live, 0xC8, 0, 65535⟩]

def rowsHdr : List RegRow := [
  ⟨0x000, 1, 0x4, 31, 16, .ro, .none, 0, 0, 65535⟩,
  ⟨0x000, 1, 0x4, 15, 8, .ro, .none, 0, 0, 255⟩,
  ⟨0x000, 1, 0x4, 7, 0, .ro, .none, 1, 0, 255⟩,
  ⟨0x004, 1, 0x4, 31, 16, .ro, .none, 0, 0, 65535⟩,
  ⟨0x004, 1, 0x4, 15, 0, .ro, .none, 0, 0, 65535⟩,
  ⟨0x008, 1, 0x4, 31, 28, .ro, .none, 0, 0, 15⟩,
  ⟨0x00C, 1, 0x4, 1, 1, .rw, .live, 0, 0, 1⟩,
  ⟨0x00C, 1, 0x4, 0, 0, .rw, .live, 0, 0, 1⟩,
  ⟨0x010, 1, 0x4, 5, 5, .w1c, .none, 0, 0, 1⟩,
  ⟨0x010, 1, 0x4, 4, 4, .w1c, .none, 0, 0, 1⟩,
  ⟨0x010, 1, 0x4, 3, 3, .w1c, .none, 0, 0, 1⟩,
  ⟨0x010, 1, 0x4, 2, 2, .w1c, .none, 0, 0, 1⟩,
  ⟨0x010, 1, 0x4, 1, 1, .w1c, .none, 0, 0, 1⟩,
  ⟨0x010, 1, 0x4, 0, 0, .w1c, .none, 0, 0, 1⟩,
  ⟨0x014, 1, 0x4, 31, 0, .rw, .live, 0xFFFFFFFF, 0, 4294967295⟩,
  ⟨0x018, 1, 0x4, 2, 2, .wo, .live, 0, 0, 1⟩,
  ⟨0x018, 1, 0x4, 1, 1, .ro, .none, 0, 0, 1⟩,
  ⟨0x018, 1, 0x4, 0, 0, .wo, .live, 0, 0, 1⟩,
  ⟨0x01C, 1, 0x4, 31, 0, .ro, .none, 0, 0, 4294967295⟩,
  ⟨0x020, 1, 0x4, 1, 0, .rw, .live, 0, 0, 3⟩,
  ⟨0x024, 1, 0x4, 11, 8, .ro, .none, 0, 0, 15⟩,
  ⟨0x024, 1, 0x4, 1, 0, .ro, .none, 0, 0, 3⟩]

def rowsEvd : List RegRow := [
  ⟨0x010, 1, 0x4, 16, 16, .w1c, .none, 0, 0, 1⟩,
  ⟨0x040, 1, 0x4, 9, 0, .rw, .live, 0, 0, 1023⟩,
  ⟨0x044, 1, 0x4, 31, 31, .rw, .live, 0, 0, 1⟩,
  ⟨0x044, 1, 0x4, 30, 30, .ro, .none, 0, 0, 1⟩,
  ⟨0x044, 1, 0x4, 29, 28, .rw, .live, 0, 0, 3⟩,
  ⟨0x044, 1, 0x4, 25, 24, .rw, .live, 0, 0, 3⟩,
  ⟨0x044, 1, 0x4, 11, 0, .rw, .live, 0, 0, 4095⟩,
  ⟨0x048, 1, 0x4, 31, 0, .ro, .none, 0, 0, 4294967295⟩,
  ⟨0x04C, 1, 0x4, 31, 0, .rc, .none, 0, 0, 4294967295⟩]

def rowsCp : List RegRow := [
  ⟨0x010, 1, 0x4, 17, 17, .w1c, .none, 0, 0, 1⟩,
  ⟨0x010, 1, 0x4, 16, 16, .w1c, .none, 0, 0, 1⟩,
  ⟨0x040, 1, 0x4, 31, 31, .rc, .none, 0, 0, 1⟩,
  ⟨0x040, 1, 0x4, 30, 30, .rc, .none, 0, 0, 1⟩,
  ⟨0x040, 1, 0x4, 29, 28, .rc, .none, 0, 0, 3⟩,
  ⟨0x040, 1, 0x4, 25, 16, .rc, .none, 0, 0, 1023⟩,
  ⟨0x040, 1, 0x4, 11, 0, .rc, .none, 0, 0, 4095⟩,
  ⟨0x044, 1, 0x4, 31, 0, .ro, .none, 0, 0, 4294967295⟩,
  ⟨0x048, 1, 0x4, 31, 0, .ro, .none, 0, 0, 4294967295⟩,
  ⟨0x04C, 1, 0x4, 7, 0, .ro, .none, 0, 0, 255⟩,
  ⟨0x050, 1, 0x4, 31, 0, .rc, .none, 0, 0, 4294967295⟩]

def rowsDir : List RegRow := [
  ⟨0x040, 1, 0x4, 31, 16, .ro, .none, 1, 0, 65535⟩,
  ⟨0x040, 1, 0x4, 15, 0, .ro, .none, 0x960, 0, 65535⟩,
  ⟨0x044, 1, 0x4, 31, 0, .ro, .none, 0, 0, 4294967295⟩,
  ⟨0x048, 1, 0x4, 31, 0, .ro, .none, 0, 0, 4294967295⟩,
  ⟨0x04C, 1, 0x4, 31, 0, .ro, .none, 0, 0, 4294967295⟩,
  ⟨0x050, 1, 0x4, 9, 0, .ro, .none, 0x146, 0, 1023⟩]

def rowsSeq : List RegRow := [
  ⟨0x008, 1, 0x4, 3, 3, .ro, .none, 0, 0, 1⟩,
  ⟨0x008, 1, 0x4, 2, 2, .ro, .none, 0, 0, 1⟩,
  ⟨0x008, 1, 0x4, 1, 1, .ro, .none, 0, 0, 1⟩,
  ⟨0x008, 1, 0x4, 0, 0, .ro, .none, 0, 0, 1⟩,
  ⟨0x010, 1, 0x4, 19, 19, .w1c, .none, 0, 0, 1⟩,
  ⟨0x010, 1, 0x4, 18, 18, .w1c, .none, 0, 0, 1⟩,
  ⟨0x010, 1, 0x4, 17, 17, .w1c, .none, 0, 0, 1⟩,
  ⟨0x010, 1, 0x4, 16, 16, .w1c, .none, 0, 0, 1⟩,
  ⟨0x040, 1, 0x4, 31, 0, .ro, .none, 0, 0, 4294967295⟩,
  ⟨0x044, 1, 0x4, 31, 0, .ro, .none, 0, 0, 4294967295⟩,
  ⟨0x048, 1, 0x4, 31, 0, .rw, .live, 0, 0, 4294967295⟩,
  ⟨0x04C, 1, 0x4, 31, 0, .ro, .none, 0, 0, 4294967295⟩,
  ⟨0x050, 1, 0x4, 31, 0, .wo, .live, 0, 0, 4294967295⟩,
  ⟨0x054, 1, 0x4, 31, 0, .w1c, .none, 0, 0, 4294967295⟩,
  ⟨0x058, 1, 0x4, 31, 0, .w1c, .none, 0, 0, 4294967295⟩,
  ⟨0x05C, 1, 0x4, 31, 0, .ro, .none, 0, 0, 4294967295⟩,
  ⟨0x060, 1, 0x4, 1, 0, .wo, .live, 0, 0, 3⟩,
  ⟨0x064, 1, 0x4, 15, 8, .ro, .none, 0, 0, 255⟩,
  ⟨0x064, 1, 0x4, 2, 0, .ro, .none, 0, 0, 7⟩,
  ⟨0x068, 1, 0x4, 31, 0, .ro, .none, 0, 0, 4294967295⟩,
  ⟨0x06C, 1, 0x4, 31, 16, .ro, .none, 0, 0, 65535⟩,
  ⟨0x06C, 1, 0x4, 15, 0, .ro, .none, 0, 0, 65535⟩,
  ⟨0x070, 1, 0x4, 15, 0, .ro, .none, 0, 0, 65535⟩,
  ⟨0x074, 1, 0x4, 13, 8, .ro, .none, 0, 0, 63⟩,
  ⟨0x074, 1, 0x4, 0, 0, .ro, .none, 0, 0, 1⟩,
  ⟨0x078, 1, 0x4, 7, 0, .ro, .none, 0, 0, 255⟩,
  ⟨0x100, 32, 0x20, 15, 0, .rw, .staged, 0, 4, 40000⟩,
  ⟨0x104, 32, 0x20, 15, 0, .rw, .staged, 0, 0, 65535⟩,
  ⟨0x108, 32, 0x20, 19, 0, .rw, .staged, 0, 0, 1048575⟩,
  ⟨0x10C, 32, 0x20, 7, 0, .rw, .staged, 0x14, 5, 100⟩,
  ⟨0x110, 32, 0x20, 15, 15, .rw, .locked, 0, 0, 1⟩,
  ⟨0x110, 32, 0x20, 10, 10, .rw, .locked, 0, 0, 1⟩,
  ⟨0x110, 32, 0x20, 9, 9, .rw, .locked, 0, 0, 1⟩,
  ⟨0x110, 32, 0x20, 8, 8, .rw, .locked, 0, 0, 1⟩,
  ⟨0x110, 32, 0x20, 4, 0, .rw, .locked, 0, 0, 31⟩,
  ⟨0x114, 32, 0x20, 31, 0, .ro, .none, 0, 0, 4294967295⟩,
  ⟨0x118, 32, 0x20, 31, 16, .ro, .none, 0, 0, 65535⟩,
  ⟨0x118, 32, 0x20, 11, 8, .ro, .none, 0, 0, 15⟩,
  ⟨0x118, 32, 0x20, 2, 0, .ro, .none, 0, 0, 7⟩,
  ⟨0x11C, 32, 0x20, 31, 0, .rc, .none, 0, 0, 4294967295⟩]

def rowsTmr : List RegRow := [
  ⟨0x010, 1, 0x4, 17, 17, .w1c, .none, 0, 0, 1⟩,
  ⟨0x010, 1, 0x4, 16, 16, .w1c, .none, 0, 0, 1⟩,
  ⟨0x040, 1, 0x4, 11, 0, .rw, .live, 0, 0, 4095⟩,
  ⟨0x044, 1, 0x4, 31, 16, .rw, .locked, 0, 0, 65535⟩,
  ⟨0x044, 1, 0x4, 7, 0, .rw, .locked, 0, 0, 255⟩,
  ⟨0x04C, 6, 0x4, 31, 0, .rw, .locked, 0, 0, 4294967295⟩,
  ⟨0x064, 1, 0x4, 4, 0, .rw, .live, 0, 0, 31⟩,
  ⟨0x068, 1, 0x4, 31, 0, .ro, .none, 0, 0, 4294967295⟩,
  ⟨0x06C, 1, 0x4, 31, 0, .ro, .none, 0, 0, 4294967295⟩,
  ⟨0x070, 1, 0x4, 12, 0, .ro, .none, 0, 0, 8191⟩]

def rowsPlace0 : List RegRow := [
  ⟨0x008, 1, 0x4, 3, 3, .ro, .none, 0, 0, 1⟩,
  ⟨0x008, 1, 0x4, 2, 2, .ro, .none, 0, 0, 1⟩,
  ⟨0x008, 1, 0x4, 1, 1, .ro, .none, 0, 0, 1⟩,
  ⟨0x008, 1, 0x4, 0, 0, .ro, .none, 0, 0, 1⟩,
  ⟨0x010, 1, 0x4, 22, 22, .w1c, .none, 0, 0, 1⟩,
  ⟨0x010, 1, 0x4, 21, 21, .w1c, .none, 0, 0, 1⟩,
  ⟨0x010, 1, 0x4, 20, 20, .w1c, .none, 0, 0, 1⟩,
  ⟨0x010, 1, 0x4, 19, 19, .w1c, .none, 0, 0, 1⟩,
  ⟨0x010, 1, 0x4, 18, 18, .w1c, .none, 0, 0, 1⟩,
  ⟨0x010, 1, 0x4, 17, 17, .w1c, .none, 0, 0, 1⟩,
  ⟨0x010, 1, 0x4, 16, 16, .w1c, .none, 0, 0, 1⟩,
  ⟨0x040, 1, 0x4, 1, 0, .wo, .live, 0, 0, 3⟩,
  ⟨0x044, 1, 0x4, 8, 8, .ro, .none, 0, 0, 1⟩,
  ⟨0x044, 1, 0x4, 7, 0, .ro, .none, 0, 0, 255⟩,
  ⟨0x048, 1, 0x4, 31, 28, .ro, .none, 0, 0, 15⟩,
  ⟨0x048, 1, 0x4, 15, 0, .ro, .none, 0, 0, 65535⟩,
  ⟨0x04C, 1, 0x4, 31, 0, .ro, .none, 0, 0, 4294967295⟩,
  ⟨0x050, 1, 0x4, 9, 0, .rw, .staged, 0x384, 100, 1000⟩,
  ⟨0x054, 1, 0x4, 9, 0, .rw, .staged, 0x32, 0, 1000⟩,
  ⟨0x058, 1, 0x4, 31, 0, .ro, .none, 0, 0, 4294967295⟩,
  ⟨0x05C, 1, 0x4, 31, 0, .ro, .none, 0, 0, 4294967295⟩,
  ⟨0x060, 4, 0x4, 31, 16, .ro, .none, 0, 0, 65535⟩,
  ⟨0x060, 4, 0x4, 15, 0, .ro, .none, 0, 0, 65535⟩,
  ⟨0x070, 4, 0x4, 31, 0, .ro, .none, 0, 0, 4294967295⟩,
  ⟨0x080, 1, 0x4, 4, 0, .rw, .live, 0, 0, 31⟩,
  ⟨0x084, 1, 0x4, 31, 0, .ro, .none, 0, 0, 4294967295⟩,
  ⟨0x088, 1, 0x4, 31, 0, .ro, .none, 0, 0, 4294967295⟩,
  ⟨0x08C, 1, 0x4, 31, 0, .ro, .none, 0, 0, 4294967295⟩,
  ⟨0x090, 1, 0x4, 31, 0, .ro, .none, 0, 0, 4294967295⟩,
  ⟨0x094, 1, 0x4, 26, 16, .ro, .none, 0, 0, 2047⟩,
  ⟨0x094, 1, 0x4, 10, 0, .ro, .none, 0, 0, 2047⟩,
  ⟨0x09C, 1, 0x4, 4, 1, .ro, .none, 0xF, 0, 15⟩,
  ⟨0x09C, 1, 0x4, 0, 0, .ro, .none, 0, 0, 1⟩,
  ⟨0x0A0, 1, 0x4, 27, 24, .ro, .none, 0, 0, 15⟩,
  ⟨0x0A0, 1, 0x4, 20, 16, .ro, .none, 0, 0, 31⟩,
  ⟨0x0A4, 1, 0x4, 31, 0, .ro, .none, 0, 0, 4294967295⟩,
  ⟨0x0A8, 1, 0x4, 7, 0, .ro, .none, 0, 0, 255⟩,
  ⟨0x0AC, 1, 0x4, 31, 0, .ro, .none, 0, 0, 4294967295⟩,
  ⟨0x0B0, 1, 0x4, 31, 0, .ro, .none, 0, 0, 4294967295⟩,
  ⟨0x0B4, 1, 0x4, 31, 0, .ro, .none, 0, 0, 4294967295⟩]
def rowsPlace1 : List RegRow := [
  ⟨0x0B8, 1, 0x4, 31, 0, .ro, .none, 0, 0, 4294967295⟩,
  ⟨0x0BC, 1, 0x4, 31, 0, .ro, .none, 0, 0, 4294967295⟩,
  ⟨0x0C0, 1, 0x4, 14, 0, .rw, .live, 0, 0, 32767⟩,
  ⟨0x0C4, 4, 0x4, 31, 0, .rw, .live, 0, 0, 4294967295⟩,
  ⟨0x0D4, 1, 0x4, 1, 0, .wo, .live, 0, 0, 3⟩,
  ⟨0x0E0, 8, 0x4, 31, 0, .ro, .none, 0, 0, 4294967295⟩]
def rowsPlace : List RegRow := rowsPlace0 ++ rowsPlace1

def rowsLpe0 : List RegRow := [
  ⟨0x008, 1, 0x4, 3, 3, .ro, .none, 0, 0, 1⟩,
  ⟨0x008, 1, 0x4, 2, 2, .ro, .none, 0, 0, 1⟩,
  ⟨0x008, 1, 0x4, 1, 1, .ro, .none, 0, 0, 1⟩,
  ⟨0x008, 1, 0x4, 0, 0, .ro, .none, 0, 0, 1⟩,
  ⟨0x010, 1, 0x4, 21, 21, .w1c, .none, 0, 0, 1⟩,
  ⟨0x010, 1, 0x4, 20, 20, .w1c, .none, 0, 0, 1⟩,
  ⟨0x010, 1, 0x4, 19, 19, .w1c, .none, 0, 0, 1⟩,
  ⟨0x010, 1, 0x4, 18, 18, .w1c, .none, 0, 0, 1⟩,
  ⟨0x010, 1, 0x4, 17, 17, .w1c, .none, 0, 0, 1⟩,
  ⟨0x010, 1, 0x4, 16, 16, .w1c, .none, 0, 0, 1⟩,
  ⟨0x040, 1, 0x4, 9, 0, .rw, .live, 0, 0, 1023⟩,
  ⟨0x044, 1, 0x4, 31, 0, .ro, .none, 0, 0, 4294967295⟩,
  ⟨0x048, 1, 0x4, 1, 1, .ro, .none, 0, 0, 1⟩,
  ⟨0x048, 1, 0x4, 0, 0, .ro, .none, 0, 0, 1⟩,
  ⟨0x04C, 1, 0x4, 12, 0, .ro, .none, 0, 0, 8191⟩,
  ⟨0x050, 1, 0x4, 15, 0, .rc, .none, 0, 0, 65535⟩,
  ⟨0x054, 1, 0x4, 31, 0, .rc, .none, 0, 0, 4294967295⟩,
  ⟨0x058, 1, 0x4, 25, 16, .ro, .none, 0, 0, 1023⟩,
  ⟨0x058, 1, 0x4, 15, 0, .ro, .none, 0, 0, 65535⟩,
  ⟨0x05C, 1, 0x4, 31, 0, .ro, .none, 0, 0, 4294967295⟩,
  ⟨0x060, 1, 0x4, 31, 0, .ro, .none, 0, 0, 4294967295⟩,
  ⟨0x064, 1, 0x4, 26, 16, .ro, .none, 0, 0, 2047⟩,
  ⟨0x064, 1, 0x4, 10, 0, .ro, .none, 0, 0, 2047⟩,
  ⟨0x068, 1, 0x4, 31, 0, .rc, .none, 0, 0, 4294967295⟩,
  ⟨0x400, 64, 0x4, 31, 0, .ro, .none, 0, 0, 4294967295⟩,
  ⟨0x070, 1, 0x4, 6, 0, .rw, .live, 0, 0, 127⟩,
  ⟨0x074, 1, 0x4, 31, 31, .rw, .staged, 0, 0, 1⟩,
  ⟨0x074, 1, 0x4, 30, 30, .rw, .staged, 0, 0, 1⟩,
  ⟨0x078, 1, 0x4, 31, 31, .rw, .staged, 0, 0, 1⟩,
  ⟨0x078, 1, 0x4, 14, 0, .rw, .staged, 0, 0, 32767⟩,
  ⟨0x07C, 1, 0x4, 31, 0, .rw, .staged, 0, 0, 4294967295⟩,
  ⟨0x080, 1, 0x4, 31, 29, .ro, .none, 0, 0, 7⟩,
  ⟨0x080, 1, 0x4, 28, 28, .ro, .none, 0, 0, 1⟩,
  ⟨0x080, 1, 0x4, 26, 24, .ro, .none, 0, 0, 7⟩,
  ⟨0x080, 1, 0x4, 23, 16, .ro, .none, 0, 0, 255⟩,
  ⟨0x080, 1, 0x4, 15, 8, .ro, .none, 0, 0, 255⟩,
  ⟨0x080, 1, 0x4, 7, 0, .ro, .none, 0, 0, 255⟩,
  ⟨0x084, 1, 0x4, 31, 0, .ro, .none, 0, 0, 4294967295⟩,
  ⟨0x088, 1, 0x4, 31, 0, .rc, .none, 0, 0, 4294967295⟩,
  ⟨0x08C, 1, 0x4, 9, 0, .rw, .live, 0, 0, 1023⟩]
def rowsLpe1 : List RegRow := [
  ⟨0x090, 1, 0x4, 10, 0, .ro, .none, 0, 0, 2047⟩,
  ⟨0x094, 1, 0x4, 31, 31, .ro, .none, 0, 0, 1⟩,
  ⟨0x500, 1, 0x4, 9, 8, .rw, .staged, 0, 0, 3⟩,
  ⟨0x500, 1, 0x4, 4, 0, .rw, .staged, 0, 0, 31⟩,
  ⟨0x504, 61, 0x4, 31, 0, .rw, .staged, 0, 0, 4294967295⟩]
def rowsLpe : List RegRow := rowsLpe0 ++ rowsLpe1

def rowsLpt : List RegRow := [
  ⟨0x008, 1, 0x4, 15, 0, .ro, .none, 0, 0, 65535⟩,
  ⟨0x040, 1, 0x4, 15, 0, .wo, .live, 0, 0, 65535⟩,
  ⟨0x100, 16, 0x40, 31, 16, .rw, .staged, 1, 1, 65535⟩,
  ⟨0x100, 16, 0x40, 9, 0, .rw, .staged, 0, 0, 1023⟩,
  ⟨0x104, 16, 0x40, 31, 24, .rw, .staged, 0, 0, 255⟩,
  ⟨0x104, 16, 0x40, 23, 16, .rw, .staged, 0, 0, 255⟩,
  ⟨0x104, 16, 0x40, 15, 8, .rw, .staged, 0, 0, 255⟩,
  ⟨0x104, 16, 0x40, 7, 0, .rw, .staged, 0, 0, 255⟩,
  ⟨0x108, 16, 0x40, 31, 28, .rw, .staged, 0, 0, 15⟩,
  ⟨0x108, 16, 0x40, 27, 26, .rw, .staged, 0, 0, 2⟩,
  ⟨0x108, 16, 0x40, 25, 24, .rw, .staged, 0, 0, 3⟩,
  ⟨0x108, 16, 0x40, 19, 16, .rw, .staged, 0, 0, 15⟩,
  ⟨0x108, 16, 0x40, 11, 0, .rw, .staged, 0, 0, 4095⟩,
  ⟨0x10C, 16, 0x40, 31, 0, .rw, .staged, 0, 0, 4294967295⟩,
  ⟨0x110, 16, 0x40, 1, 0, .wo, .live, 0, 0, 3⟩,
  ⟨0x114, 16, 0x40, 31, 29, .ro, .none, 0, 0, 7⟩,
  ⟨0x114, 16, 0x40, 28, 16, .ro, .none, 0, 0, 8191⟩,
  ⟨0x114, 16, 0x40, 11, 0, .ro, .none, 0, 0, 4095⟩,
  ⟨0x118, 16, 0x40, 11, 0, .ro, .none, 0, 0, 4095⟩,
  ⟨0x11C, 16, 0x40, 11, 0, .ro, .none, 0, 0, 4095⟩,
  ⟨0x120, 16, 0x40, 31, 0, .ro, .none, 0, 0, 4294967295⟩,
  ⟨0x124, 16, 0x40, 31, 0, .ro, .none, 0, 0, 4294967295⟩,
  ⟨0x128, 16, 0x40, 31, 0, .ro, .none, 0, 0, 4294967295⟩]

def rowsAng0 : List RegRow := [
  ⟨0x008, 1, 0x4, 0, 0, .ro, .none, 0, 0, 1⟩,
  ⟨0x010, 1, 0x4, 18, 18, .w1c, .none, 0, 0, 1⟩,
  ⟨0x010, 1, 0x4, 17, 17, .w1c, .none, 0, 0, 1⟩,
  ⟨0x010, 1, 0x4, 16, 16, .w1c, .none, 0, 0, 1⟩,
  ⟨0x040, 1, 0x4, 7, 0, .rw, .live, 0, 0, 255⟩,
  ⟨0x044, 1, 0x4, 1, 0, .wo, .live, 0, 0, 3⟩,
  ⟨0x048, 1, 0x4, 31, 31, .ro, .none, 0, 0, 1⟩,
  ⟨0x048, 1, 0x4, 30, 30, .ro, .none, 0, 0, 1⟩,
  ⟨0x048, 1, 0x4, 29, 27, .ro, .none, 0, 0, 7⟩,
  ⟨0x04C, 1, 0x4, 31, 0, .ro, .none, 0, 0, 4294967295⟩,
  ⟨0x050, 1, 0x4, 31, 0, .ro, .none, 0, 0, 4294967295⟩,
  ⟨0x054, 1, 0x4, 31, 0, .ro, .none, 0, 0, 4294967295⟩,
  ⟨0x058, 1, 0x4, 31, 0, .ro, .none, 0, 0, 4294967295⟩,
  ⟨0x05C, 1, 0x4, 31, 0, .rc, .none, 0, 0, 4294967295⟩,
  ⟨0x060, 1, 0x4, 31, 0, .rc, .none, 0, 0, 4294967295⟩,
  ⟨0x064, 1, 0x4, 31, 0, .rc, .none, 0, 0, 4294967295⟩,
  ⟨0x068, 1, 0x4, 15, 0, .rw, .staged, 0x3E8, 0, 65535⟩,
  ⟨0x06C, 1, 0x4, 31, 24, .ro, .none, 0, 0, 255⟩,
  ⟨0x06C, 1, 0x4, 23, 0, .ro, .none, 0, 0, 16777215⟩,
  ⟨0x100, 1, 0x4, 31, 18, .rw, .staged, 0, 0, 16383⟩,
  ⟨0x100, 1, 0x4, 14, 0, .rw, .staged, 0, 0, 32767⟩,
  ⟨0x104, 2, 0x4, 31, 0, .rw, .staged, 0, 0, 4294967295⟩,
  ⟨0x10C, 1, 0x4, 18, 16, .rw, .staged, 0, 0, 7⟩,
  ⟨0x10C, 1, 0x4, 7, 0, .rw, .staged, 0, 0, 255⟩,
  ⟨0x110, 2, 0x4, 31, 16, .rw, .staged, 0, 0, 65535⟩,
  ⟨0x110, 2, 0x4, 14, 0, .rw, .staged, 0, 0, 32767⟩,
  ⟨0x200, 1, 0x4, 31, 31, .rw, .staged, 0, 0, 1⟩,
  ⟨0x200, 1, 0x4, 23, 16, .rw, .staged, 0, 0, 255⟩,
  ⟨0x200, 1, 0x4, 13, 8, .rw, .staged, 0, 0, 63⟩,
  ⟨0x200, 1, 0x4, 7, 7, .rw, .staged, 0, 0, 1⟩,
  ⟨0x200, 1, 0x4, 5, 0, .rw, .staged, 0, 0, 63⟩,
  ⟨0x204, 1, 0x4, 31, 31, .rw, .staged, 0, 0, 1⟩,
  ⟨0x204, 1, 0x4, 14, 0, .rw, .staged, 0, 0, 32767⟩,
  ⟨0x208, 1, 0x4, 19, 0, .rw, .staged, 0x13880, 10000, 500000⟩,
  ⟨0x20C, 1, 0x4, 31, 0, .rw, .staged, 0x3CA3D70A, 0, 4294967295⟩,
  ⟨0x210, 1, 0x4, 31, 0, .rw, .staged, 0x3E4CCCCD, 0, 4294967295⟩,
  ⟨0x214, 1, 0x4, 31, 0, .rw, .staged, 0x3D4CCCCD, 0, 4294967295⟩,
  ⟨0x218, 1, 0x4, 31, 0, .rw, .staged, 0, 0, 4294967295⟩,
  ⟨0x21C, 1, 0x4, 31, 0, .rw, .staged, 0, 0, 4294967295⟩,
  ⟨0x220, 1, 0x4, 31, 0, .rw, .staged, 0x71C71C7, 0, 4294967295⟩,
  ⟨0x224, 1, 0x4, 15, 0, .rw, .staged, 0x12C, 50, 2000⟩,
  ⟨0x228, 1, 0x4, 15, 0, .rw, .staged, 0x78, 1, 3600⟩,
  ⟨0x22C, 4, 0x4, 31, 31, .rw, .staged, 0, 0, 1⟩,
  ⟨0x22C, 4, 0x4, 14, 0, .rw, .staged, 0, 0, 32767⟩,
  ⟨0x240, 1, 0x4, 31, 28, .ro, .none, 0, 0, 15⟩,
  ⟨0x240, 1, 0x4, 27, 24, .ro, .none, 0, 0, 15⟩]
def rowsAng1 : List RegRow := [
  ⟨0x244, 1, 0x4, 31, 0, .ro, .none, 0, 0, 4294967295⟩,
  ⟨0x248, 1, 0x4, 31, 0, .ro, .none, 0, 0, 4294967295⟩,
  ⟨0x24C, 1, 0x4, 31, 0, .ro, .none, 0, 0, 4294967295⟩,
  ⟨0x250, 1, 0x4, 31, 0, .ro, .none, 0, 0, 4294967295⟩,
  ⟨0x254, 1, 0x4, 31, 0, .ro, .none, 0, 0, 4294967295⟩,
  ⟨0x258, 1, 0x4, 31, 0, .ro, .none, 0, 0, 4294967295⟩,
  ⟨0x25C, 1, 0x4, 31, 0, .ro, .none, 0, 0, 4294967295⟩]
def rowsAng : List RegRow := rowsAng0 ++ rowsAng1

def rowsAsrc0 : List RegRow := [
  ⟨0x008, 1, 0x4, 27, 24, .ro, .none, 0, 0, 15⟩,
  ⟨0x008, 1, 0x4, 23, 23, .ro, .none, 0, 0, 1⟩,
  ⟨0x008, 1, 0x4, 22, 22, .ro, .none, 0, 0, 1⟩,
  ⟨0x008, 1, 0x4, 21, 21, .ro, .none, 0, 0, 1⟩,
  ⟨0x010, 1, 0x4, 20, 20, .w1c, .none, 0, 0, 1⟩,
  ⟨0x010, 1, 0x4, 19, 19, .w1c, .none, 0, 0, 1⟩,
  ⟨0x010, 1, 0x4, 18, 18, .w1c, .none, 0, 0, 1⟩,
  ⟨0x010, 1, 0x4, 17, 17, .w1c, .none, 0, 0, 1⟩,
  ⟨0x010, 1, 0x4, 16, 16, .w1c, .none, 0, 0, 1⟩,
  ⟨0x040, 1, 0x4, 28, 28, .rw, .locked, 0, 0, 1⟩,
  ⟨0x040, 1, 0x4, 27, 26, .rw, .locked, 0, 0, 2⟩,
  ⟨0x040, 1, 0x4, 25, 24, .rw, .locked, 1, 1, 2⟩,
  ⟨0x040, 1, 0x4, 23, 16, .rw, .staged, 0xC, 10, 40⟩,
  ⟨0x040, 1, 0x4, 15, 8, .rw, .staged, 2, 0, 20⟩,
  ⟨0x040, 1, 0x4, 3, 3, .rw, .locked, 0, 0, 1⟩,
  ⟨0x040, 1, 0x4, 2, 0, .rw, .locked, 0, 0, 7⟩,
  ⟨0x044, 1, 0x4, 20, 0, .rw, .locked, 0, 0, 2097151⟩,
  ⟨0x048, 1, 0x4, 31, 0, .rw, .locked, 0, 0, 4294967295⟩,
  ⟨0x04C, 1, 0x4, 15, 0, .rw, .staged, 4, 2, 65535⟩,
  ⟨0x050, 1, 0x4, 31, 16, .rw, .staged, 0xC8, 10, 60000⟩,
  ⟨0x050, 1, 0x4, 15, 0, .rw, .staged, 0x4E20, 100, 65535⟩,
  ⟨0x054, 1, 0x4, 11, 0, .rw, .staged, 1, 1, 4095⟩,
  ⟨0x058, 1, 0x4, 31, 0, .rw, .staged, 0x42700000, 0, 4294967295⟩,
  ⟨0x05C, 1, 0x4, 31, 31, .rw, .staged, 0, 0, 1⟩,
  ⟨0x05C, 1, 0x4, 14, 0, .rw, .staged, 0, 0, 32767⟩,
  ⟨0x060, 1, 0x4, 31, 31, .rw, .staged, 0, 0, 1⟩,
  ⟨0x060, 1, 0x4, 14, 0, .rw, .staged, 0, 0, 32767⟩,
  ⟨0x064, 1, 0x4, 5, 4, .rw, .staged, 1, 0, 2⟩,
  ⟨0x064, 1, 0x4, 1, 0, .rw, .locked, 0, 0, 3⟩,
  ⟨0x068, 1, 0x4, 31, 0, .rw, .staged, 0x3F800000, 0, 4294967295⟩,
  ⟨0x06C, 1, 0x4, 31, 0, .rw, .staged, 0, 0, 4294967295⟩,
  ⟨0x070, 1, 0x4, 31, 0, .rw, .staged, 0x41A00000, 0, 4294967295⟩,
  ⟨0x074, 1, 0x4, 31, 31, .rw, .staged, 0, 0, 1⟩,
  ⟨0x074, 1, 0x4, 14, 0, .rw, .staged, 0, 0, 32767⟩,
  ⟨0x080, 1, 0x4, 31, 0, .ro, .none, 0, 0, 4294967295⟩,
  ⟨0x084, 1, 0x4, 31, 0, .ro, .none, 0, 0, 4294967295⟩,
  ⟨0x088, 1, 0x4, 31, 0, .ro, .none, 0, 0, 4294967295⟩,
  ⟨0x08C, 1, 0x4, 31, 0, .ro, .none, 0, 0, 4294967295⟩,
  ⟨0x090, 1, 0x4, 31, 0, .ro, .none, 0, 0, 4294967295⟩,
  ⟨0x094, 1, 0x4, 31, 0, .ro, .none, 0, 0, 4294967295⟩]
def rowsAsrc1 : List RegRow := [
  ⟨0x098, 1, 0x4, 31, 0, .ro, .none, 0, 0, 4294967295⟩,
  ⟨0x09C, 1, 0x4, 31, 0, .ro, .none, 0, 0, 4294967295⟩,
  ⟨0x0A0, 1, 0x4, 31, 0, .ro, .none, 0, 0, 4294967295⟩,
  ⟨0x0A4, 1, 0x4, 31, 0, .rc, .none, 0, 0, 4294967295⟩,
  ⟨0x0A8, 1, 0x4, 31, 0, .ro, .none, 0, 0, 4294967295⟩,
  ⟨0x0AC, 1, 0x4, 31, 0, .ro, .none, 0, 0, 4294967295⟩]
def rowsAsrc : List RegRow := rowsAsrc0 ++ rowsAsrc1

def rowsAx0 : List RegRow := [
  ⟨0x008, 1, 0x4, 27, 24, .ro, .none, 0, 0, 15⟩,
  ⟨0x008, 1, 0x4, 23, 23, .ro, .none, 0, 0, 1⟩,
  ⟨0x008, 1, 0x4, 22, 22, .ro, .none, 0, 0, 1⟩,
  ⟨0x008, 1, 0x4, 21, 21, .ro, .none, 0, 0, 1⟩,
  ⟨0x008, 1, 0x4, 20, 20, .ro, .none, 0, 0, 1⟩,
  ⟨0x008, 1, 0x4, 19, 19, .ro, .none, 0, 0, 1⟩,
  ⟨0x008, 1, 0x4, 18, 18, .ro, .none, 0, 0, 1⟩,
  ⟨0x008, 1, 0x4, 17, 17, .ro, .none, 0, 0, 1⟩,
  ⟨0x010, 1, 0x4, 25, 25, .w1c, .none, 0, 0, 1⟩,
  ⟨0x010, 1, 0x4, 24, 24, .w1c, .none, 0, 0, 1⟩,
  ⟨0x010, 1, 0x4, 23, 23, .w1c, .none, 0, 0, 1⟩,
  ⟨0x010, 1, 0x4, 22, 22, .w1c, .none, 0, 0, 1⟩,
  ⟨0x010, 1, 0x4, 21, 21, .w1c, .none, 0, 0, 1⟩,
  ⟨0x010, 1, 0x4, 20, 20, .w1c, .none, 0, 0, 1⟩,
  ⟨0x010, 1, 0x4, 19, 19, .w1c, .none, 0, 0, 1⟩,
  ⟨0x010, 1, 0x4, 18, 18, .w1c, .none, 0, 0, 1⟩,
  ⟨0x010, 1, 0x4, 17, 17, .w1c, .none, 0, 0, 1⟩,
  ⟨0x010, 1, 0x4, 16, 16, .w1c, .none, 0, 0, 1⟩,
  ⟨0x040, 1, 0x4, 31, 31, .rw, .locked, 0, 0, 1⟩,
  ⟨0x040, 1, 0x4, 30, 30, .rw, .staged, 0, 0, 1⟩,
  ⟨0x040, 1, 0x4, 29, 28, .rw, .staged, 0, 0, 2⟩,
  ⟨0x040, 1, 0x4, 27, 27, .rw, .staged, 0, 0, 1⟩,
  ⟨0x044, 1, 0x4, 31, 31, .rw, .locked, 0, 0, 1⟩,
  ⟨0x044, 1, 0x4, 30, 30, .rw, .locked, 0, 0, 1⟩,
  ⟨0x044, 1, 0x4, 29, 24, .rw, .locked, 0, 0, 63⟩,
  ⟨0x044, 1, 0x4, 23, 23, .rw, .locked, 0, 0, 1⟩,
  ⟨0x044, 1, 0x4, 22, 22, .rw, .locked, 0, 0, 1⟩,
  ⟨0x044, 1, 0x4, 21, 16, .rw, .locked, 0, 0, 63⟩,
  ⟨0x044, 1, 0x4, 15, 15, .rw, .locked, 0, 0, 1⟩,
  ⟨0x044, 1, 0x4, 14, 14, .rw, .locked, 0, 0, 1⟩,
  ⟨0x044, 1, 0x4, 13, 8, .rw, .locked, 0, 0, 63⟩,
  ⟨0x048, 1, 0x4, 31, 24, .rw, .staged, 0xA, 1, 255⟩,
  ⟨0x048, 1, 0x4, 19, 16, .rw, .staged, 3, 1, 15⟩,
  ⟨0x048, 1, 0x4, 15, 0, .rw, .staged, 0x64, 10, 10000⟩,
  ⟨0x04C, 1, 0x4, 31, 0, .rw, .staged, 0xF4240, 1, 4294967295⟩,
  ⟨0x050, 1, 0x4, 31, 0, .rw, .staged, 0, 0, 4294967295⟩,
  ⟨0x054, 1, 0x4, 31, 0, .rw, .staged, 0, 0, 4294967295⟩,
  ⟨0x058, 1, 0x4, 31, 0, .rw, .staged, 0, 0, 4294967295⟩,
  ⟨0x05C, 1, 0x4, 31, 0, .rw, .staged, 0, 0, 4294967295⟩,
  ⟨0x060, 1, 0x4, 27, 16, .rw, .staged, 0, 0, 4095⟩]
def rowsAx1 : List RegRow := [
  ⟨0x060, 1, 0x4, 11, 0, .rw, .staged, 0, 0, 2500⟩,
  ⟨0x064, 1, 0x4, 31, 16, .rw, .staged, 0x1F4, 0, 65535⟩,
  ⟨0x064, 1, 0x4, 15, 8, .rw, .staged, 0x32, 25, 250⟩,
  ⟨0x064, 1, 0x4, 7, 0, .rw, .staged, 0x14, 20, 200⟩,
  ⟨0x068, 1, 0x4, 23, 16, .rw, .staged, 2, 1, 100⟩,
  ⟨0x068, 1, 0x4, 15, 15, .rw, .staged, 0, 0, 1⟩,
  ⟨0x068, 1, 0x4, 14, 14, .rw, .staged, 0, 0, 1⟩,
  ⟨0x068, 1, 0x4, 9, 0, .rw, .staged, 0x19, 25, 1000⟩,
  ⟨0x06C, 1, 0x4, 31, 0, .rw, .staged, 0x3F800000, 0, 4294967295⟩,
  ⟨0x070, 1, 0x4, 31, 31, .rw, .staged, 0, 0, 1⟩,
  ⟨0x070, 1, 0x4, 14, 0, .rw, .staged, 0, 0, 32767⟩,
  ⟨0x074, 1, 0x4, 31, 31, .rw, .staged, 0, 0, 1⟩,
  ⟨0x074, 1, 0x4, 14, 0, .rw, .staged, 0, 0, 32767⟩,
  ⟨0x078, 1, 0x4, 31, 31, .rw, .staged, 0, 0, 1⟩,
  ⟨0x078, 1, 0x4, 14, 0, .rw, .staged, 0, 0, 32767⟩,
  ⟨0x07C, 1, 0x4, 31, 31, .rw, .staged, 0, 0, 1⟩,
  ⟨0x07C, 1, 0x4, 14, 0, .rw, .staged, 0, 0, 32767⟩,
  ⟨0x080, 1, 0x4, 31, 31, .rw, .staged, 0, 0, 1⟩,
  ⟨0x080, 1, 0x4, 14, 0, .rw, .staged, 0, 0, 32767⟩,
  ⟨0x084, 1, 0x4, 31, 30, .rw, .staged, 0, 0, 2⟩,
  ⟨0x084, 1, 0x4, 29, 29, .rw, .staged, 0, 0, 1⟩,
  ⟨0x084, 1, 0x4, 28, 27, .rw, .locked, 0, 0, 1⟩,
  ⟨0x084, 1, 0x4, 26, 24, .rw, .locked, 0, 0, 7⟩,
  ⟨0x084, 1, 0x4, 23, 0, .rw, .staged, 0xFFFFFF, 0, 16777215⟩,
  ⟨0x088, 1, 0x4, 31, 0, .rw, .staged, 1, 0, 4294967295⟩,
  ⟨0x08C, 1, 0x4, 31, 0, .rw, .staged, 1, 1, 4294967295⟩,
  ⟨0x090, 1, 0x4, 31, 0, .rw, .staged, 0, 0, 4294967295⟩,
  ⟨0x094, 1, 0x4, 31, 30, .rw, .staged, 0, 0, 3⟩,
  ⟨0x094, 1, 0x4, 29, 29, .rw, .staged, 0, 0, 1⟩,
  ⟨0x094, 1, 0x4, 28, 26, .rw, .staged, 0, 0, 7⟩,
  ⟨0x094, 1, 0x4, 25, 23, .rw, .staged, 0, 0, 7⟩,
  ⟨0x098, 1, 0x4, 31, 0, .rw, .staged, 0, 0, 4294967295⟩,
  ⟨0x09C, 1, 0x4, 31, 0, .rw, .staged, 0, 0, 4294967295⟩,
  ⟨0x0A0, 1, 0x4, 31, 0, .rw, .staged, 0, 0, 4294967295⟩,
  ⟨0x0A4, 1, 0x4, 31, 0, .rw, .staged, 0, 0, 4294967295⟩,
  ⟨0x0A8, 1, 0x4, 31, 31, .rw, .staged, 0, 0, 1⟩,
  ⟨0x0A8, 1, 0x4, 30, 0, .rw, .staged, 0x3E8, 1, 2147483647⟩,
  ⟨0x0C0, 1, 0x4, 31, 0, .ro, .none, 0, 0, 4294967295⟩,
  ⟨0x0C4, 1, 0x4, 31, 0, .ro, .none, 0, 0, 4294967295⟩,
  ⟨0x0C8, 1, 0x4, 31, 0, .ro, .none, 0, 0, 4294967295⟩,
  ⟨0x0CC, 1, 0x4, 31, 0, .ro, .none, 0, 0, 4294967295⟩,
  ⟨0x0D0, 1, 0x4, 31, 0, .ro, .none, 0, 0, 4294967295⟩,
  ⟨0x0D4, 1, 0x4, 31, 0, .ro, .none, 0, 0, 4294967295⟩,
  ⟨0x0D8, 1, 0x4, 31, 0, .ro, .none, 0, 0, 4294967295⟩,
  ⟨0x0DC, 1, 0x4, 31, 0, .ro, .none, 0, 0, 4294967295⟩]
def rowsAx2 : List RegRow := [
  ⟨0x0E0, 1, 0x4, 23, 16, .ro, .none, 0, 0, 255⟩,
  ⟨0x0E0, 1, 0x4, 15, 8, .ro, .none, 0, 0, 255⟩,
  ⟨0x0E0, 1, 0x4, 7, 0, .ro, .none, 0, 0, 255⟩,
  ⟨0x0E4, 1, 0x4, 23, 0, .rc, .none, 0, 0, 16777215⟩,
  ⟨0x0E8, 1, 0x4, 31, 16, .ro, .none, 0, 0, 65535⟩,
  ⟨0x0E8, 1, 0x4, 15, 0, .ro, .none, 0, 0, 65535⟩,
  ⟨0x0EC, 1, 0x4, 31, 16, .ro, .none, 0, 0, 65535⟩,
  ⟨0x0EC, 1, 0x4, 15, 0, .ro, .none, 0, 0, 65535⟩,
  ⟨0x0F0, 1, 0x4, 31, 16, .ro, .none, 0, 0, 65535⟩,
  ⟨0x0F0, 1, 0x4, 15, 0, .ro, .none, 0, 0, 65535⟩,
  ⟨0x0F4, 1, 0x4, 31, 0, .ro, .none, 0, 0, 4294967295⟩,
  ⟨0x0F8, 1, 0x4, 31, 0, .ro, .none, 0, 0, 4294967295⟩,
  ⟨0x0FC, 1, 0x4, 31, 0, .ro, .none, 0, 0, 4294967295⟩,
  ⟨0x100, 8, 0x10, 31, 0, .rw, .staged, 0, 0, 4294967295⟩,
  ⟨0x104, 8, 0x10, 31, 0, .rw, .staged, 0, 0, 4294967295⟩,
  ⟨0x108, 8, 0x10, 31, 0, .rw, .staged, 0, 0, 4294967295⟩,
  ⟨0x10C, 8, 0x10, 31, 0, .rw, .staged, 0, 0, 4294967295⟩]
def rowsAx : List RegRow := rowsAx0 ++ rowsAx1 ++ rowsAx2

def rowsTime0 : List RegRow := [
  ⟨0x008, 1, 0x4, 27, 24, .ro, .none, 0, 0, 15⟩,
  ⟨0x008, 1, 0x4, 23, 20, .ro, .none, 0, 0, 15⟩,
  ⟨0x008, 1, 0x4, 19, 19, .ro, .none, 0, 0, 1⟩,
  ⟨0x008, 1, 0x4, 18, 18, .ro, .none, 0, 0, 1⟩,
  ⟨0x008, 1, 0x4, 17, 17, .ro, .none, 0, 0, 1⟩,
  ⟨0x008, 1, 0x4, 16, 16, .ro, .none, 0, 0, 1⟩,
  ⟨0x008, 1, 0x4, 15, 15, .ro, .none, 0, 0, 1⟩,
  ⟨0x008, 1, 0x4, 14, 14, .ro, .none, 0, 0, 1⟩,
  ⟨0x008, 1, 0x4, 13, 13, .ro, .none, 0, 0, 1⟩,
  ⟨0x008, 1, 0x4, 12, 12, .ro, .none, 0, 0, 1⟩,
  ⟨0x008, 1, 0x4, 11, 11, .ro, .none, 0, 0, 1⟩,
  ⟨0x008, 1, 0x4, 10, 10, .ro, .none, 0, 0, 1⟩,
  ⟨0x010, 1, 0x4, 25, 25, .w1c, .none, 0, 0, 1⟩,
  ⟨0x010, 1, 0x4, 24, 24, .w1c, .none, 0, 0, 1⟩,
  ⟨0x010, 1, 0x4, 23, 23, .w1c, .none, 0, 0, 1⟩,
  ⟨0x010, 1, 0x4, 22, 22, .w1c, .none, 0, 0, 1⟩,
  ⟨0x010, 1, 0x4, 21, 21, .w1c, .none, 0, 0, 1⟩,
  ⟨0x010, 1, 0x4, 20, 20, .w1c, .none, 0, 0, 1⟩,
  ⟨0x010, 1, 0x4, 19, 19, .w1c, .none, 0, 0, 1⟩,
  ⟨0x010, 1, 0x4, 18, 18, .w1c, .none, 0, 0, 1⟩,
  ⟨0x010, 1, 0x4, 16, 16, .w1c, .none, 0, 0, 1⟩,
  ⟨0x040, 1, 0x4, 31, 0, .ro, .none, 0, 0, 4294967295⟩,
  ⟨0x044, 1, 0x4, 31, 0, .ro, .none, 0, 0, 4294967295⟩,
  ⟨0x048, 1, 0x4, 31, 0, .ro, .none, 0, 0, 4294967295⟩,
  ⟨0x04C, 1, 0x4, 31, 0, .ro, .none, 0, 0, 4294967295⟩,
  ⟨0x050, 1, 0x4, 31, 0, .rw, .live, 0xA000000, 0, 4294967295⟩,
  ⟨0x054, 1, 0x4, 31, 0, .rw, .live, 0, 0, 4294967295⟩,
  ⟨0x058, 1, 0x4, 8, 0, .rw, .live, 0x1F4, 1, 500⟩,
  ⟨0x05C, 1, 0x4, 8, 0, .rw, .live, 0x1F4, 1, 500⟩,
  ⟨0x060, 1, 0x4, 31, 0, .rw, .live, 0x2710, 0, 4294967295⟩,
  ⟨0x064, 1, 0x4, 8, 8, .wo, .live, 0, 0, 1⟩,
  ⟨0x064, 1, 0x4, 0, 0, .rw, .live, 0, 0, 1⟩,
  ⟨0x068, 2, 0x4, 31, 31, .rw, .staged, 0, 0, 1⟩,
  ⟨0x068, 2, 0x4, 27, 24, .rw, .staged, 0, 0, 15⟩,
  ⟨0x068, 2, 0x4, 23, 16, .rw, .staged, 0, 0, 255⟩,
  ⟨0x068, 2, 0x4, 15, 0, .rw, .staged, 0x3E8, 10, 10000⟩,
  ⟨0x070, 2, 0xC, 31, 0, .rw, .staged, 0, 0, 4294967295⟩,
  ⟨0x074, 2, 0xC, 31, 0, .rw, .staged, 0, 0, 4294967295⟩,
  ⟨0x078, 2, 0xC, 16, 16, .rw, .staged, 0, 0, 1⟩,
  ⟨0x078, 2, 0xC, 15, 0, .rw, .staged, 0, 0, 65535⟩]
def rowsTime1 : List RegRow := [
  ⟨0x088, 2, 0x4, 31, 0, .rw, .live, 0xA000000, 0, 4294967295⟩,
  ⟨0x090, 2, 0x4, 31, 0, .rw, .live, 0, 0, 4294967295⟩,
  ⟨0x098, 1, 0x4, 15, 0, .rw, .live, 0x7D0, 10, 60000⟩,
  ⟨0x09C, 2, 0x4, 31, 0, .ro, .none, 0, 0, 4294967295⟩,
  ⟨0x0A4, 1, 0x4, 31, 0, .rw, .live, 0, 0, 4294967295⟩,
  ⟨0x0A8, 1, 0x4, 31, 0, .rw, .live, 0, 0, 4294967295⟩,
  ⟨0x0AC, 1, 0x4, 2, 0, .wo, .live, 0, 0, 7⟩,
  ⟨0x0B0, 1, 0x4, 7, 0, .ro, .none, 0, 0, 255⟩,
  ⟨0x0B4, 1, 0x4, 6, 0, .ro, .none, 0, 0, 127⟩,
  ⟨0x0B8, 1, 0x4, 31, 0, .rc, .none, 0, 0, 4294967295⟩,
  ⟨0x0C0, 1, 0x4, 31, 31, .ro, .none, 0, 0, 1⟩,
  ⟨0x0C0, 1, 0x4, 30, 30, .ro, .none, 0, 0, 1⟩,
  ⟨0x0C0, 1, 0x4, 29, 28, .ro, .none, 0, 0, 3⟩,
  ⟨0x0C0, 1, 0x4, 27, 24, .ro, .none, 0, 0, 15⟩,
  ⟨0x0C0, 1, 0x4, 23, 16, .ro, .none, 0, 0, 255⟩,
  ⟨0x0C0, 1, 0x4, 15, 0, .ro, .none, 0, 0, 65535⟩,
  ⟨0x0C4, 1, 0x4, 31, 0, .ro, .none, 0, 0, 4294967295⟩,
  ⟨0x0C8, 1, 0x4, 31, 0, .ro, .none, 0, 0, 4294967295⟩,
  ⟨0x100, 32, 0x4, 31, 31, .rw, .staged, 0, 0, 1⟩,
  ⟨0x100, 32, 0x4, 30, 30, .rw, .staged, 0, 0, 1⟩,
  ⟨0x180, 4, 0x4, 31, 16, .rc, .none, 0, 0, 65535⟩,
  ⟨0x180, 4, 0x4, 15, 0, .rc, .none, 0, 0, 65535⟩]
def rowsTime : List RegRow := rowsTime0 ++ rowsTime1

def rowsDwy : List RegRow := [
  ⟨0x008, 1, 0x4, 2, 2, .ro, .none, 0, 0, 1⟩,
  ⟨0x008, 1, 0x4, 1, 1, .ro, .none, 0, 0, 1⟩,
  ⟨0x008, 1, 0x4, 0, 0, .ro, .none, 0, 0, 1⟩,
  ⟨0x010, 1, 0x4, 19, 19, .w1c, .none, 0, 0, 1⟩,
  ⟨0x010, 1, 0x4, 18, 18, .w1c, .none, 0, 0, 1⟩,
  ⟨0x010, 1, 0x4, 17, 17, .w1c, .none, 0, 0, 1⟩,
  ⟨0x010, 1, 0x4, 16, 16, .w1c, .none, 0, 0, 1⟩,
  ⟨0x040, 1, 0x4, 31, 29, .rw, .staged, 6, 0, 7⟩,
  ⟨0x040, 1, 0x4, 27, 16, .rw, .staged, 0, 0, 4095⟩,
  ⟨0x040, 1, 0x4, 15, 0, .rw, .staged, 0x64, 10, 1000⟩,
  ⟨0x044, 1, 0x4, 10, 0, .rw, .staged, 0x5A0, 64, 1440⟩,
  ⟨0x048, 1, 0x4, 15, 8, .ro, .none, 0x11, 0, 255⟩,
  ⟨0x048, 1, 0x4, 7, 0, .ro, .none, 0x10, 0, 255⟩,
  ⟨0x04C, 1, 0x4, 31, 16, .ro, .none, 0, 0, 65535⟩,
  ⟨0x04C, 1, 0x4, 15, 0, .ro, .none, 0, 0, 65535⟩,
  ⟨0x050, 1, 0x4, 9, 0, .ro, .none, 0, 0, 1023⟩,
  ⟨0x054, 1, 0x4, 4, 0, .rw, .live, 0, 0, 31⟩,
  ⟨0x058, 1, 0x4, 7, 0, .ro, .none, 0, 0, 255⟩,
  ⟨0x05C, 1, 0x4, 31, 0, .ro, .none, 0, 0, 4294967295⟩,
  ⟨0x060, 1, 0x4, 31, 0, .ro, .none, 0, 0, 4294967295⟩,
  ⟨0x064, 1, 0x4, 31, 0, .rc, .none, 0, 0, 4294967295⟩,
  ⟨0x068, 1, 0x4, 31, 0, .rc, .none, 0, 0, 4294967295⟩,
  ⟨0x080, 8, 0x4, 31, 0, .ro, .none, 0, 0, 4294967295⟩,
  ⟨0x0A0, 8, 0x4, 31, 0, .ro, .none, 0, 0, 4294967295⟩]

def rowsStn0 : List RegRow := [
  ⟨0x008, 1, 0x4, 27, 24, .ro, .none, 0, 0, 15⟩,
  ⟨0x008, 1, 0x4, 23, 23, .ro, .none, 0, 0, 1⟩,
  ⟨0x008, 1, 0x4, 22, 22, .ro, .none, 0, 0, 1⟩,
  ⟨0x008, 1, 0x4, 21, 21, .ro, .none, 0, 0, 1⟩,
  ⟨0x008, 1, 0x4, 20, 20, .ro, .none, 0, 0, 1⟩,
  ⟨0x008, 1, 0x4, 15, 12, .ro, .none, 0, 0, 15⟩,
  ⟨0x010, 1, 0x4, 20, 20, .w1c, .none, 0, 0, 1⟩,
  ⟨0x010, 1, 0x4, 19, 19, .w1c, .none, 0, 0, 1⟩,
  ⟨0x010, 1, 0x4, 18, 18, .w1c, .none, 0, 0, 1⟩,
  ⟨0x010, 1, 0x4, 17, 17, .w1c, .none, 0, 0, 1⟩,
  ⟨0x010, 1, 0x4, 16, 16, .w1c, .none, 0, 0, 1⟩,
  ⟨0x040, 1, 0x4, 31, 31, .rw, .staged, 0, 0, 1⟩,
  ⟨0x040, 1, 0x4, 30, 30, .rw, .staged, 0, 0, 1⟩,
  ⟨0x040, 1, 0x4, 29, 29, .rw, .staged, 0, 0, 1⟩,
  ⟨0x040, 1, 0x4, 28, 28, .rw, .staged, 0, 0, 1⟩,
  ⟨0x040, 1, 0x4, 27, 26, .rw, .staged, 1, 1, 3⟩,
  ⟨0x040, 1, 0x4, 25, 21, .rw, .staged, 0, 0, 31⟩,
  ⟨0x040, 1, 0x4, 19, 16, .rw, .staged, 3, 1, 15⟩,
  ⟨0x040, 1, 0x4, 15, 0, .rw, .staged, 0, 0, 65535⟩,
  ⟨0x044, 1, 0x4, 31, 16, .rw, .staged, 0, 0, 65535⟩,
  ⟨0x044, 1, 0x4, 15, 0, .rw, .staged, 0, 0, 65535⟩,
  ⟨0x048, 1, 0x4, 15, 0, .rw, .staged, 0x3E8, 5, 60000⟩,
  ⟨0x04C, 1, 0x4, 31, 31, .rw, .staged, 0, 0, 1⟩,
  ⟨0x04C, 1, 0x4, 14, 0, .rw, .staged, 0, 0, 32767⟩,
  ⟨0x050, 1, 0x4, 31, 31, .rw, .staged, 0, 0, 1⟩,
  ⟨0x050, 1, 0x4, 14, 0, .rw, .staged, 0, 0, 32767⟩,
  ⟨0x054, 1, 0x4, 1, 0, .wo, .live, 0, 0, 3⟩,
  ⟨0x080, 32, 0x4, 31, 31, .rw, .staged, 0, 0, 1⟩,
  ⟨0x080, 32, 0x4, 30, 30, .rw, .staged, 0, 0, 1⟩,
  ⟨0x080, 32, 0x4, 29, 15, .rw, .staged, 0, 0, 32767⟩,
  ⟨0x080, 32, 0x4, 10, 0, .rw, .staged, 0, 0, 2047⟩,
  ⟨0x100, 1, 0x4, 7, 0, .ro, .none, 0, 0, 255⟩,
  ⟨0x104, 1, 0x4, 31, 0, .ro, .none, 0, 0, 4294967295⟩,
  ⟨0x108, 1, 0x4, 15, 0, .ro, .none, 0, 0, 65535⟩,
  ⟨0x10C, 1, 0x4, 15, 0, .ro, .none, 0, 0, 65535⟩,
  ⟨0x110, 1, 0x4, 31, 0, .ro, .none, 0, 0, 4294967295⟩,
  ⟨0x114, 1, 0x4, 31, 24, .ro, .none, 0, 0, 255⟩,
  ⟨0x114, 1, 0x4, 10, 0, .ro, .none, 0, 0, 2047⟩,
  ⟨0x118, 1, 0x4, 23, 0, .ro, .none, 0, 0, 16777215⟩,
  ⟨0x11C, 1, 0x4, 26, 16, .ro, .none, 0, 0, 2047⟩]
def rowsStn1 : List RegRow := [
  ⟨0x11C, 1, 0x4, 10, 0, .ro, .none, 0, 0, 2047⟩,
  ⟨0x120, 1, 0x4, 15, 0, .ro, .none, 0, 0, 65535⟩,
  ⟨0x124, 1, 0x4, 31, 0, .ro, .none, 0, 0, 4294967295⟩,
  ⟨0x128, 1, 0x4, 31, 0, .ro, .none, 0, 0, 4294967295⟩,
  ⟨0x12C, 1, 0x4, 31, 0, .rc, .none, 0xFFFFFFFF, 0, 4294967295⟩,
  ⟨0x130, 1, 0x4, 31, 0, .rc, .none, 0, 0, 4294967295⟩,
  ⟨0x134, 1, 0x4, 31, 0, .rc, .none, 0, 0, 4294967295⟩,
  ⟨0x138, 1, 0x4, 31, 0, .ro, .none, 0, 0, 4294967295⟩,
  ⟨0x13C, 1, 0x4, 15, 8, .ro, .none, 0, 0, 255⟩,
  ⟨0x13C, 1, 0x4, 7, 0, .ro, .none, 0, 0, 255⟩]
def rowsStn : List RegRow := rowsStn0 ++ rowsStn1

def rowsEth : List RegRow := [
  ⟨0x008, 1, 0x4, 27, 26, .ro, .none, 0, 0, 3⟩,
  ⟨0x008, 1, 0x4, 25, 25, .ro, .none, 0, 0, 1⟩,
  ⟨0x008, 1, 0x4, 24, 24, .ro, .none, 0, 0, 1⟩,
  ⟨0x008, 1, 0x4, 23, 23, .ro, .none, 0, 0, 1⟩,
  ⟨0x010, 1, 0x4, 21, 21, .w1c, .none, 0, 0, 1⟩,
  ⟨0x010, 1, 0x4, 20, 20, .w1c, .none, 0, 0, 1⟩,
  ⟨0x010, 1, 0x4, 19, 19, .w1c, .none, 0, 0, 1⟩,
  ⟨0x010, 1, 0x4, 18, 18, .w1c, .none, 0, 0, 1⟩,
  ⟨0x010, 1, 0x4, 17, 17, .w1c, .none, 0, 0, 1⟩,
  ⟨0x010, 1, 0x4, 16, 16, .w1c, .none, 0, 0, 1⟩,
  ⟨0x040, 1, 0x4, 31, 31, .rw, .locked, 0, 0, 1⟩,
  ⟨0x040, 1, 0x4, 30, 30, .rw, .staged, 0, 0, 1⟩,
  ⟨0x040, 1, 0x4, 29, 27, .rw, .locked, 7, 1, 7⟩,
  ⟨0x040, 1, 0x4, 15, 0, .rw, .staged, 0x3E8, 10, 10000⟩,
  ⟨0x044, 1, 0x4, 31, 0, .ro, .none, 0, 0, 4294967295⟩,
  ⟨0x048, 1, 0x4, 15, 0, .ro, .none, 0, 0, 65535⟩,
  ⟨0x04C, 1, 0x4, 2, 0, .rw, .live, 0, 0, 7⟩,
  ⟨0x050, 1, 0x4, 31, 0, .rw, .locked, 0, 0, 4294967295⟩,
  ⟨0x054, 1, 0x4, 7, 0, .rw, .locked, 0, 0, 255⟩,
  ⟨0x058, 1, 0x4, 10, 0, .rw, .locked, 0, 0, 2047⟩,
  ⟨0x05C, 1, 0x4, 9, 0, .rw, .live, 0, 0, 1023⟩,
  ⟨0x060, 1, 0x4, 9, 0, .ro, .none, 0, 0, 1023⟩,
  ⟨0x064, 1, 0x4, 2, 0, .rw, .live, 0, 0, 7⟩,
  ⟨0x068, 1, 0x4, 31, 0, .rw, .locked, 0, 0, 4294967295⟩,
  ⟨0x06C, 1, 0x4, 7, 0, .rw, .locked, 0, 0, 255⟩,
  ⟨0x070, 1, 0x4, 31, 31, .rw, .staged, 0, 0, 1⟩,
  ⟨0x070, 1, 0x4, 10, 0, .rw, .locked, 0, 0, 2047⟩,
  ⟨0x074, 1, 0x4, 9, 0, .rw, .live, 0, 0, 1023⟩,
  ⟨0x078, 1, 0x4, 9, 0, .ro, .none, 0, 0, 1023⟩,
  ⟨0x080, 4, 0x4, 31, 16, .rw, .staged, 0, 0, 65535⟩,
  ⟨0x080, 4, 0x4, 15, 0, .rw, .staged, 0xFFFF, 1, 65535⟩,
  ⟨0x090, 1, 0x4, 9, 0, .rw, .live, 0, 0, 1023⟩,
  ⟨0x094, 1, 0x4, 31, 24, .rw, .staged, 0, 0, 255⟩,
  ⟨0x094, 1, 0x4, 15, 0, .rw, .staged, 0, 0, 65535⟩,
  ⟨0x098, 1, 0x4, 31, 25, .rw, .staged, 0, 0, 127⟩,
  ⟨0x098, 1, 0x4, 11, 0, .rw, .staged, 0, 0, 4095⟩,
  ⟨0x09C, 1, 0x4, 31, 0, .rw, .staged, 0, 0, 4294967295⟩,
  ⟨0x0A0, 1, 0x4, 31, 16, .rw, .staged, 0, 0, 65535⟩,
  ⟨0x0A4, 1, 0x4, 31, 0, .rc, .none, 0, 0, 4294967295⟩,
  ⟨0x0A8, 1, 0x4, 31, 0, .rc, .none, 0, 0, 4294967295⟩,
  ⟨0x0AC, 1, 0x4, 31, 0, .rc, .none, 0, 0, 4294967295⟩,
  ⟨0x0B0, 1, 0x4, 31, 0, .rc, .none, 0, 0, 4294967295⟩,
  ⟨0x0B4, 1, 0x4, 31, 0, .rc, .none, 0, 0, 4294967295⟩]

def rowsCan0 : List RegRow := [
  ⟨0x008, 1, 0x4, 27, 26, .ro, .none, 0, 0, 3⟩,
  ⟨0x008, 1, 0x4, 25, 25, .ro, .none, 0, 0, 1⟩,
  ⟨0x008, 1, 0x4, 24, 24, .ro, .none, 0, 0, 1⟩,
  ⟨0x008, 1, 0x4, 23, 23, .ro, .none, 0, 0, 1⟩,
  ⟨0x010, 1, 0x4, 19, 19, .w1c, .none, 0, 0, 1⟩,
  ⟨0x010, 1, 0x4, 18, 18, .w1c, .none, 0, 0, 1⟩,
  ⟨0x010, 1, 0x4, 17, 17, .w1c, .none, 0, 0, 1⟩,
  ⟨0x010, 1, 0x4, 16, 16, .w1c, .none, 0, 0, 1⟩,
  ⟨0x040, 1, 0x4, 31, 31, .rw, .locked, 0, 0, 1⟩,
  ⟨0x040, 1, 0x4, 30, 30, .rw, .locked, 0, 0, 1⟩,
  ⟨0x040, 1, 0x4, 29, 29, .rw, .staged, 1, 0, 1⟩,
  ⟨0x040, 1, 0x4, 28, 28, .rw, .staged, 0, 0, 1⟩,
  ⟨0x040, 1, 0x4, 27, 27, .rw, .staged, 1, 0, 1⟩,
  ⟨0x044, 1, 0x4, 31, 26, .rw, .locked, 1, 1, 32⟩,
  ⟨0x044, 1, 0x4, 25, 18, .rw, .locked, 2, 2, 255⟩,
  ⟨0x044, 1, 0x4, 17, 10, .rw, .locked, 2, 2, 128⟩,
  ⟨0x044, 1, 0x4, 9, 2, .rw, .locked, 1, 0, 255⟩,
  ⟨0x048, 1, 0x4, 31, 27, .rw, .locked, 1, 1, 16⟩,
  ⟨0x048, 1, 0x4, 26, 21, .rw, .locked, 1, 1, 32⟩,
  ⟨0x048, 1, 0x4, 20, 16, .rw, .locked, 1, 1, 16⟩,
  ⟨0x048, 1, 0x4, 15, 11, .rw, .locked, 1, 0, 31⟩,
  ⟨0x048, 1, 0x4, 10, 10, .rw, .locked, 0, 0, 1⟩,
  ⟨0x048, 1, 0x4, 7, 0, .rw, .locked, 0, 0, 255⟩,
  ⟨0x04C, 1, 0x4, 31, 0, .rw, .locked, 0, 0, 4294967295⟩,
  ⟨0x050, 1, 0x4, 7, 0, .rw, .locked, 0, 0, 255⟩,
  ⟨0x054, 1, 0x4, 31, 0, .rw, .locked, 0, 0, 4294967295⟩,
  ⟨0x058, 1, 0x4, 7, 0, .rw, .locked, 0, 0, 255⟩,
  ⟨0x05C, 1, 0x4, 5, 0, .wo, .live, 0, 0, 63⟩,
  ⟨0x060, 1, 0x4, 5, 0, .wo, .live, 0, 0, 63⟩,
  ⟨0x064, 1, 0x4, 31, 0, .ro, .none, 0, 0, 4294967295⟩,
  ⟨0x068, 1, 0x4, 31, 0, .ro, .none, 0, 0, 4294967295⟩,
  ⟨0x06C, 1, 0x4, 31, 0, .w1c, .none, 0, 0, 4294967295⟩,
  ⟨0x070, 1, 0x4, 31, 0, .w1c, .none, 0, 0, 4294967295⟩,
  ⟨0x074, 1, 0x4, 6, 0, .ro, .none, 0, 0, 127⟩,
  ⟨0x078, 1, 0x4, 6, 0, .ro, .none, 0, 0, 127⟩,
  ⟨0x07C, 1, 0x4, 7, 0, .wo, .live, 0, 0, 255⟩,
  ⟨0x080, 1, 0x4, 31, 0, .rc, .none, 0, 0, 4294967295⟩,
  ⟨0x084, 1, 0x4, 31, 24, .ro, .none, 0, 0, 255⟩,
  ⟨0x084, 1, 0x4, 23, 16, .ro, .none, 0, 0, 255⟩,
  ⟨0x084, 1, 0x4, 15, 12, .ro, .none, 0, 0, 15⟩]
def rowsCan1 : List RegRow := [
  ⟨0x084, 1, 0x4, 11, 8, .ro, .none, 0, 0, 15⟩,
  ⟨0x088, 1, 0x4, 31, 0, .ro, .none, 0, 0, 4294967295⟩,
  ⟨0x08C, 1, 0x4, 31, 0, .rc, .none, 0, 0, 4294967295⟩,
  ⟨0x090, 1, 0x4, 31, 16, .ro, .none, 0, 0, 65535⟩,
  ⟨0x090, 1, 0x4, 15, 0, .rw, .staged, 0xA, 1, 3600⟩,
  ⟨0x094, 1, 0x4, 1, 0, .wo, .live, 0, 0, 3⟩,
  ⟨0x098, 1, 0x4, 7, 0, .ro, .none, 0, 0, 255⟩,
  ⟨0x09C, 1, 0x4, 31, 31, .rw, .staged, 1, 0, 1⟩,
  ⟨0x09C, 1, 0x4, 30, 30, .rw, .staged, 0, 0, 1⟩,
  ⟨0x0A0, 1, 0x4, 31, 31, .rw, .staged, 0, 0, 1⟩,
  ⟨0x0A0, 1, 0x4, 14, 0, .rw, .staged, 0, 0, 32767⟩,
  ⟨0x0A4, 1, 0x4, 5, 0, .rw, .live, 0, 0, 63⟩,
  ⟨0x0A8, 1, 0x4, 31, 31, .rw, .staged, 0, 0, 1⟩,
  ⟨0x0A8, 1, 0x4, 30, 30, .rw, .staged, 0, 0, 1⟩,
  ⟨0x0A8, 1, 0x4, 29, 29, .rw, .staged, 0, 0, 1⟩,
  ⟨0x0A8, 1, 0x4, 28, 0, .rw, .staged, 0, 0, 536870911⟩,
  ⟨0x0AC, 1, 0x4, 28, 0, .rw, .staged, 0, 0, 536870911⟩]
def rowsCan : List RegRow := rowsCan0 ++ rowsCan1

def rowsDiog0 : List RegRow := [
  ⟨0x008, 1, 0x4, 1, 1, .ro, .none, 0, 0, 1⟩,
  ⟨0x008, 1, 0x4, 0, 0, .ro, .none, 0, 0, 1⟩,
  ⟨0x010, 1, 0x4, 22, 22, .w1c, .none, 0, 0, 1⟩,
  ⟨0x010, 1, 0x4, 21, 21, .w1c, .none, 0, 0, 1⟩,
  ⟨0x010, 1, 0x4, 20, 20, .w1c, .none, 0, 0, 1⟩,
  ⟨0x010, 1, 0x4, 19, 19, .w1c, .none, 0, 0, 1⟩,
  ⟨0x010, 1, 0x4, 18, 18, .w1c, .none, 0, 0, 1⟩,
  ⟨0x010, 1, 0x4, 17, 17, .w1c, .none, 0, 0, 1⟩,
  ⟨0x010, 1, 0x4, 16, 16, .w1c, .none, 0, 0, 1⟩,
  ⟨0x040, 1, 0x4, 31, 16, .rw, .staged, 0x3C, 1, 3600⟩,
  ⟨0x040, 1, 0x4, 15, 0, .rw, .staged, 0x64, 10, 1000⟩,
  ⟨0x044, 1, 0x4, 15, 0, .ro, .none, 0, 0, 65535⟩,
  ⟨0x048, 1, 0x4, 23, 16, .ro, .none, 0, 0, 255⟩,
  ⟨0x048, 1, 0x4, 15, 8, .ro, .none, 0, 0, 255⟩,
  ⟨0x048, 1, 0x4, 7, 0, .ro, .none, 0, 0, 255⟩,
  ⟨0x04C, 1, 0x4, 7, 0, .wo, .live, 0, 0, 255⟩,
  ⟨0x050, 1, 0x4, 2, 0, .rw, .live, 0, 0, 7⟩,
  ⟨0x054, 1, 0x4, 31, 0, .ro, .none, 0, 0, 4294967295⟩,
  ⟨0x058, 1, 0x4, 31, 31, .rc, .none, 0, 0, 1⟩,
  ⟨0x058, 1, 0x4, 30, 30, .rc, .none, 0, 0, 1⟩,
  ⟨0x058, 1, 0x4, 29, 29, .rc, .none, 0, 0, 1⟩,
  ⟨0x058, 1, 0x4, 28, 28, .rc, .none, 0, 0, 1⟩,
  ⟨0x058, 1, 0x4, 23, 0, .rc, .none, 0, 0, 16777215⟩,
  ⟨0x05C, 1, 0x4, 31, 0, .rc, .none, 0, 0, 4294967295⟩,
  ⟨0x080, 8, 0x4, 31, 29, .rw, .locked, 0, 0, 4⟩,
  ⟨0x080, 8, 0x4, 28, 28, .rw, .staged, 0, 0, 1⟩,
  ⟨0x080, 8, 0x4, 27, 26, .rw, .staged, 0, 0, 3⟩,
  ⟨0x080, 8, 0x4, 25, 25, .rw, .staged, 0, 0, 1⟩,
  ⟨0x080, 8, 0x4, 24, 24, .rw, .staged, 0, 0, 1⟩,
  ⟨0x080, 8, 0x4, 23, 22, .rw, .staged, 0, 0, 2⟩,
  ⟨0x080, 8, 0x4, 21, 21, .rw, .staged, 0, 0, 1⟩,
  ⟨0x080, 8, 0x4, 20, 20, .rw, .staged, 0, 0, 1⟩,
  ⟨0x080, 8, 0x4, 19, 19, .rw, .staged, 0, 0, 1⟩,
  ⟨0x080, 8, 0x4, 15, 0, .rw, .staged, 0, 0, 65535⟩,
  ⟨0x0A0, 8, 0x4, 31, 31, .rw, .staged, 0, 0, 1⟩,
  ⟨0x0A0, 8, 0x4, 30, 16, .rw, .staged, 0, 0, 32767⟩,
  ⟨0x0A0, 8, 0x4, 15, 15, .rw, .staged, 0, 0, 1⟩,
  ⟨0x0A0, 8, 0x4, 14, 0, .rw, .staged, 0, 0, 32767⟩,
  ⟨0x0C0, 8, 0x4, 31, 16, .ro, .none, 0, 0, 65535⟩,
  ⟨0x0C0, 8, 0x4, 15, 8, .ro, .none, 0, 0, 255⟩]
def rowsDiog1 : List RegRow := [
  ⟨0x0C0, 8, 0x4, 7, 7, .ro, .none, 0, 0, 1⟩,
  ⟨0x0C0, 8, 0x4, 6, 6, .ro, .none, 0, 0, 1⟩,
  ⟨0x0C0, 8, 0x4, 5, 5, .ro, .none, 0, 0, 1⟩,
  ⟨0x0C0, 8, 0x4, 4, 4, .ro, .none, 0, 0, 1⟩,
  ⟨0x0C0, 8, 0x4, 3, 3, .ro, .none, 0, 0, 1⟩,
  ⟨0x0E0, 8, 0x4, 31, 0, .ro, .none, 0, 0, 4294967295⟩]
def rowsDiog : List RegRow := rowsDiog0 ++ rowsDiog1

def rowsAna0 : List RegRow := [
  ⟨0x008, 1, 0x4, 27, 26, .ro, .none, 0, 0, 3⟩,
  ⟨0x008, 1, 0x4, 25, 25, .ro, .none, 0, 0, 1⟩,
  ⟨0x008, 1, 0x4, 24, 24, .ro, .none, 0, 0, 1⟩,
  ⟨0x008, 1, 0x4, 23, 23, .ro, .none, 0, 0, 1⟩,
  ⟨0x008, 1, 0x4, 22, 22, .ro, .none, 0, 0, 1⟩,
  ⟨0x008, 1, 0x4, 21, 21, .ro, .none, 0, 0, 1⟩,
  ⟨0x008, 1, 0x4, 20, 20, .ro, .none, 0, 0, 1⟩,
  ⟨0x010, 1, 0x4, 23, 23, .w1c, .none, 0, 0, 1⟩,
  ⟨0x010, 1, 0x4, 22, 22, .w1c, .none, 0, 0, 1⟩,
  ⟨0x010, 1, 0x4, 21, 21, .w1c, .none, 0, 0, 1⟩,
  ⟨0x010, 1, 0x4, 20, 20, .w1c, .none, 0, 0, 1⟩,
  ⟨0x010, 1, 0x4, 19, 19, .w1c, .none, 0, 0, 1⟩,
  ⟨0x010, 1, 0x4, 18, 18, .w1c, .none, 0, 0, 1⟩,
  ⟨0x010, 1, 0x4, 17, 17, .w1c, .none, 0, 0, 1⟩,
  ⟨0x010, 1, 0x4, 16, 16, .w1c, .none, 0, 0, 1⟩,
  ⟨0x040, 1, 0x4, 31, 29, .rw, .locked, 0, 0, 4⟩,
  ⟨0x040, 1, 0x4, 28, 27, .rw, .staged, 0, 0, 2⟩,
  ⟨0x040, 1, 0x4, 26, 25, .rw, .staged, 0, 0, 2⟩,
  ⟨0x040, 1, 0x4, 24, 24, .rw, .staged, 0, 0, 1⟩,
  ⟨0x040, 1, 0x4, 23, 20, .rw, .staged, 0, 0, 6⟩,
  ⟨0x040, 1, 0x4, 13, 8, .rw, .staged, 2, 2, 32⟩,
  ⟨0x044, 1, 0x4, 31, 0, .rw, .staged, 0x40800000, 0, 4294967295⟩,
  ⟨0x048, 1, 0x4, 31, 0, .rw, .staged, 0x41A00000, 0, 4294967295⟩,
  ⟨0x04C, 1, 0x4, 31, 0, .rw, .staged, 0, 0, 4294967295⟩,
  ⟨0x050, 1, 0x4, 31, 0, .rw, .staged, 0x42C80000, 0, 4294967295⟩,
  ⟨0x054, 1, 0x4, 31, 0, .rw, .staged, 0, 0, 4294967295⟩,
  ⟨0x058, 1, 0x4, 31, 0, .rw, .staged, 0x40666666, 0, 4294967295⟩,
  ⟨0x05C, 1, 0x4, 31, 0, .rw, .staged, 0x41A80000, 0, 4294967295⟩,
  ⟨0x060, 1, 0x4, 31, 0, .rw, .staged, 0x40733333, 0, 4294967295⟩,
  ⟨0x064, 1, 0x4, 31, 0, .rw, .staged, 0x41A40000, 0, 4294967295⟩,
  ⟨0x068, 1, 0x4, 31, 0, .rw, .staged, 0, 0, 4294967295⟩,
  ⟨0x06C, 1, 0x4, 8, 0, .rw, .staged, 0xF0, 120, 280⟩,
  ⟨0x070, 1, 0x4, 31, 31, .rw, .staged, 0, 0, 1⟩,
  ⟨0x070, 1, 0x4, 30, 16, .rw, .staged, 0, 0, 32767⟩,
  ⟨0x070, 1, 0x4, 15, 15, .rw, .staged, 0, 0, 1⟩,
  ⟨0x070, 1, 0x4, 14, 0, .rw, .staged, 0, 0, 32767⟩,
  ⟨0x074, 1, 0x4, 1, 0, .wo, .live, 0, 0, 3⟩,
  ⟨0x080, 1, 0x4, 31, 0, .ro, .none, 0, 0, 4294967295⟩,
  ⟨0x084, 1, 0x4, 31, 0, .ro, .none, 0, 0, 4294967295⟩,
  ⟨0x088, 1, 0x4, 15, 0, .ro, .none, 0, 0, 65535⟩]
def rowsAna1 : List RegRow := [
  ⟨0x08C, 1, 0x4, 31, 0, .ro, .none, 0, 0, 4294967295⟩,
  ⟨0x090, 1, 0x4, 15, 0, .ro, .none, 0, 0, 65535⟩,
  ⟨0x0A0, 1, 0x4, 9, 8, .rw, .staged, 2, 0, 3⟩,
  ⟨0x0A0, 1, 0x4, 4, 0, .rw, .staged, 5, 5, 20⟩,
  ⟨0x0A4, 1, 0x4, 1, 0, .wo, .live, 0, 0, 3⟩,
  ⟨0x0A8, 1, 0x4, 31, 28, .ro, .none, 0, 0, 15⟩,
  ⟨0x0A8, 1, 0x4, 27, 27, .ro, .none, 1, 0, 1⟩,
  ⟨0x0A8, 1, 0x4, 15, 8, .ro, .none, 0, 0, 255⟩,
  ⟨0x0A8, 1, 0x4, 7, 0, .ro, .none, 0, 0, 255⟩,
  ⟨0x0AC, 1, 0x4, 7, 0, .rw, .live, 0, 4, 255⟩,
  ⟨0x0B0, 1, 0x4, 31, 0, .rc, .none, 0, 0, 4294967295⟩,
  ⟨0x100, 64, 0x4, 31, 0, .rw, .staged, 0, 0, 4294967295⟩,
  ⟨0x200, 64, 0x4, 31, 0, .rw, .live, 0, 0, 4294967295⟩,
  ⟨0x300, 64, 0x4, 31, 0, .ro, .none, 0, 0, 4294967295⟩]
def rowsAna : List RegRow := rowsAna0 ++ rowsAna1

def rowsDvl : List RegRow := [
  ⟨0x008, 1, 0x4, 3, 3, .ro, .none, 0, 0, 1⟩,
  ⟨0x008, 1, 0x4, 2, 2, .ro, .none, 0, 0, 1⟩,
  ⟨0x008, 1, 0x4, 1, 1, .ro, .none, 0, 0, 1⟩,
  ⟨0x008, 1, 0x4, 0, 0, .ro, .none, 0, 0, 1⟩,
  ⟨0x010, 1, 0x4, 19, 19, .w1c, .none, 0, 0, 1⟩,
  ⟨0x010, 1, 0x4, 18, 18, .w1c, .none, 0, 0, 1⟩,
  ⟨0x010, 1, 0x4, 17, 17, .w1c, .none, 0, 0, 1⟩,
  ⟨0x010, 1, 0x4, 16, 16, .w1c, .none, 0, 0, 1⟩,
  ⟨0x040, 1, 0x4, 11, 8, .rw, .staged, 3, 2, 15⟩,
  ⟨0x040, 1, 0x4, 1, 0, .rw, .locked, 3, 1, 3⟩,
  ⟨0x044, 1, 0x4, 15, 8, .ro, .none, 1, 0, 255⟩,
  ⟨0x044, 1, 0x4, 7, 0, .ro, .none, 1, 0, 255⟩,
  ⟨0x048, 1, 0x4, 31, 0, .ro, .none, 0, 0, 4294967295⟩,
  ⟨0x04C, 1, 0x4, 31, 0, .ro, .none, 0, 0, 4294967295⟩,
  ⟨0x050, 1, 0x4, 31, 0, .ro, .none, 0, 0, 4294967295⟩,
  ⟨0x054, 1, 0x4, 15, 0, .ro, .none, 0, 0, 65535⟩,
  ⟨0x058, 1, 0x4, 31, 0, .rc, .none, 0, 0, 4294967295⟩,
  ⟨0x05C, 1, 0x4, 31, 0, .rc, .none, 0, 0, 4294967295⟩,
  ⟨0x060, 1, 0x4, 31, 0, .rc, .none, 0, 0, 4294967295⟩,
  ⟨0x064, 1, 0x4, 31, 0, .rc, .none, 0, 0, 4294967295⟩,
  ⟨0x068, 1, 0x4, 31, 16, .rc, .none, 0, 0, 65535⟩,
  ⟨0x068, 1, 0x4, 15, 0, .rc, .none, 0, 0, 65535⟩]

def rowsPair0 : List RegRow := [
  ⟨0x008, 1, 0x4, 27, 24, .ro, .none, 0, 0, 15⟩,
  ⟨0x008, 1, 0x4, 23, 22, .ro, .none, 0, 0, 3⟩,
  ⟨0x008, 1, 0x4, 21, 21, .ro, .none, 0, 0, 1⟩,
  ⟨0x008, 1, 0x4, 20, 20, .ro, .none, 0, 0, 1⟩,
  ⟨0x008, 1, 0x4, 19, 19, .ro, .none, 0, 0, 1⟩,
  ⟨0x008, 1, 0x4, 18, 18, .ro, .none, 0, 0, 1⟩,
  ⟨0x008, 1, 0x4, 17, 17, .ro, .none, 0, 0, 1⟩,
  ⟨0x008, 1, 0x4, 16, 16, .ro, .none, 0, 0, 1⟩,
  ⟨0x008, 1, 0x4, 15, 15, .ro, .none, 0, 0, 1⟩,
  ⟨0x008, 1, 0x4, 14, 14, .ro, .none, 0, 0, 1⟩,
  ⟨0x008, 1, 0x4, 13, 13, .ro, .none, 0, 0, 1⟩,
  ⟨0x010, 1, 0x4, 25, 25, .w1c, .none, 0, 0, 1⟩,
  ⟨0x010, 1, 0x4, 24, 24, .w1c, .none, 0, 0, 1⟩,
  ⟨0x010, 1, 0x4, 23, 23, .w1c, .none, 0, 0, 1⟩,
  ⟨0x010, 1, 0x4, 22, 22, .w1c, .none, 0, 0, 1⟩,
  ⟨0x010, 1, 0x4, 21, 21, .w1c, .none, 0, 0, 1⟩,
  ⟨0x010, 1, 0x4, 20, 20, .w1c, .none, 0, 0, 1⟩,
  ⟨0x010, 1, 0x4, 19, 19, .w1c, .none, 0, 0, 1⟩,
  ⟨0x010, 1, 0x4, 18, 18, .w1c, .none, 0, 0, 1⟩,
  ⟨0x010, 1, 0x4, 17, 17, .w1c, .none, 0, 0, 1⟩,
  ⟨0x010, 1, 0x4, 16, 16, .w1c, .none, 0, 0, 1⟩,
  ⟨0x040, 1, 0x4, 31, 24, .rw, .staged, 0x14, 0, 255⟩,
  ⟨0x040, 1, 0x4, 17, 17, .rw, .staged, 1, 0, 1⟩,
  ⟨0x040, 1, 0x4, 15, 0, .rw, .staged, 0xA8, 0, 8760⟩,
  ⟨0x044, 1, 0x4, 31, 0, .rw, .live, 0x3E8, 100, 100000⟩,
  ⟨0x048, 1, 0x4, 15, 0, .rw, .staged, 0x3C, 10, 3600⟩,
  ⟨0x04C, 1, 0x4, 1, 0, .wo, .live, 0, 0, 3⟩,
  ⟨0x050, 1, 0x4, 8, 8, .ro, .none, 0, 0, 1⟩,
  ⟨0x050, 1, 0x4, 7, 0, .ro, .none, 0, 0, 255⟩,
  ⟨0x054, 1, 0x4, 31, 24, .ro, .none, 0, 0, 255⟩,
  ⟨0x054, 1, 0x4, 23, 16, .ro, .none, 0, 0, 255⟩,
  ⟨0x054, 1, 0x4, 15, 8, .ro, .none, 0, 0, 255⟩,
  ⟨0x058, 1, 0x4, 31, 0, .ro, .none, 0, 0, 4294967295⟩,
  ⟨0x05C, 1, 0x4, 31, 0, .ro, .none, 0, 0, 4294967295⟩,
  ⟨0x060, 1, 0x4, 31, 0, .ro, .none, 0, 0, 4294967295⟩,
  ⟨0x064, 1, 0x4, 31, 0, .ro, .none, 0, 0, 4294967295⟩,
  ⟨0x068, 1, 0x4, 31, 28, .ro, .none, 0, 0, 15⟩,
  ⟨0x068, 1, 0x4, 27, 0, .ro, .none, 0, 0, 268435455⟩,
  ⟨0x06C, 1, 0x4, 31, 0, .ro, .none, 0, 0, 4294967295⟩,
  ⟨0x070, 1, 0x4, 31, 0, .ro, .none, 0, 0, 4294967295⟩]
def rowsPair1 : List RegRow := [
  ⟨0x074, 1, 0x4, 31, 0, .ro, .none, 0, 0, 4294967295⟩,
  ⟨0x078, 1, 0x4, 31, 27, .ro, .none, 0, 0, 31⟩,
  ⟨0x078, 1, 0x4, 26, 24, .ro, .none, 0, 0, 7⟩,
  ⟨0x078, 1, 0x4, 1, 0, .ro, .none, 0, 0, 3⟩,
  ⟨0x07C, 1, 0x4, 31, 0, .ro, .none, 0, 0, 4294967295⟩,
  ⟨0x080, 1, 0x4, 31, 0, .rc, .none, 0, 0, 4294967295⟩,
  ⟨0x084, 1, 0x4, 31, 0, .rc, .none, 0, 0, 4294967295⟩,
  ⟨0x088, 1, 0x4, 31, 0, .ro, .none, 0, 0, 4294967295⟩,
  ⟨0x08C, 1, 0x4, 4, 0, .ro, .none, 0, 0, 31⟩]
def rowsPair : List RegRow := rowsPair0 ++ rowsPair1

def rowsFlt : List RegRow := [
  ⟨0x008, 1, 0x4, 3, 3, .ro, .none, 0, 0, 1⟩,
  ⟨0x008, 1, 0x4, 2, 2, .ro, .none, 0, 0, 1⟩,
  ⟨0x008, 1, 0x4, 1, 1, .ro, .none, 0, 0, 1⟩,
  ⟨0x008, 1, 0x4, 0, 0, .ro, .none, 0, 0, 1⟩,
  ⟨0x010, 1, 0x4, 17, 17, .w1c, .none, 0, 0, 1⟩,
  ⟨0x010, 1, 0x4, 16, 16, .w1c, .none, 0, 0, 1⟩,
  ⟨0x040, 16, 0x4, 31, 0, .ro, .none, 0, 0, 4294967295⟩,
  ⟨0x080, 1, 0x4, 8, 0, .rw, .live, 0, 0, 511⟩,
  ⟨0x084, 1, 0x4, 11, 10, .ro, .none, 0, 0, 3⟩,
  ⟨0x084, 1, 0x4, 8, 8, .ro, .none, 0, 0, 1⟩,
  ⟨0x084, 1, 0x4, 7, 4, .ro, .none, 0, 0, 15⟩,
  ⟨0x084, 1, 0x4, 1, 0, .rw, .staged, 0, 0, 3⟩,
  ⟨0x088, 1, 0x4, 31, 31, .ro, .none, 0, 0, 1⟩,
  ⟨0x088, 1, 0x4, 30, 30, .ro, .none, 0, 0, 1⟩,
  ⟨0x088, 1, 0x4, 15, 0, .ro, .none, 0, 0, 65535⟩,
  ⟨0x08C, 1, 0x4, 0, 0, .wo, .live, 0, 0, 1⟩,
  ⟨0x090, 16, 0x4, 31, 0, .ro, .none, 0, 0, 4294967295⟩,
  ⟨0x0D0, 1, 0x4, 31, 0, .ro, .none, 0, 0, 4294967295⟩,
  ⟨0x0D4, 1, 0x4, 31, 0, .rc, .none, 0, 0, 4294967295⟩,
  ⟨0x0D8, 1, 0x4, 31, 30, .wo, .live, 0, 0, 3⟩,
  ⟨0x0D8, 1, 0x4, 8, 0, .wo, .live, 0, 0, 511⟩,
  ⟨0x0DC, 1, 0x4, 8, 8, .ro, .none, 0, 0, 1⟩,
  ⟨0x0DC, 1, 0x4, 7, 0, .ro, .none, 0, 0, 255⟩,
  ⟨0x0E0, 16, 0x4, 31, 0, .ro, .none, 0, 0, 4294967295⟩]

def rowsLeg : List RegRow := [
  ⟨0x040, 1, 0x4, 31, 0, .ro, .none, 0, 0, 4294967295⟩,
  ⟨0x044, 1, 0x4, 7, 0, .ro, .none, 0, 0, 255⟩,
  ⟨0x048, 1, 0x4, 31, 31, .ro, .none, 0, 0, 1⟩,
  ⟨0x048, 1, 0x4, 30, 30, .ro, .none, 0, 0, 1⟩,
  ⟨0x048, 1, 0x4, 11, 8, .ro, .none, 0, 0, 15⟩,
  ⟨0x048, 1, 0x4, 1, 0, .ro, .none, 0, 0, 3⟩,
  ⟨0x04C, 1, 0x4, 31, 0, .ro, .none, 0, 0, 4294967295⟩,
  ⟨0x050, 1, 0x4, 0, 0, .wo, .live, 0, 0, 1⟩,
  ⟨0x054, 1, 0x4, 31, 0, .rc, .none, 0, 0, 4294967295⟩]

def rowsCal : List RegRow := [
  ⟨0x008, 1, 0x4, 27, 26, .ro, .none, 0, 0, 3⟩,
  ⟨0x008, 1, 0x4, 25, 25, .ro, .none, 1, 0, 1⟩,
  ⟨0x008, 1, 0x4, 24, 24, .ro, .none, 0, 0, 1⟩,
  ⟨0x010, 1, 0x4, 20, 20, .w1c, .none, 0, 0, 1⟩,
  ⟨0x010, 1, 0x4, 19, 19, .w1c, .none, 0, 0, 1⟩,
  ⟨0x010, 1, 0x4, 18, 18, .w1c, .none, 0, 0, 1⟩,
  ⟨0x010, 1, 0x4, 17, 17, .w1c, .none, 1, 0, 1⟩,
  ⟨0x010, 1, 0x4, 16, 16, .w1c, .none, 0, 0, 1⟩,
  ⟨0x040, 1, 0x4, 31, 0, .ro, .none, 0x7D0C101, 0, 4294967295⟩,
  ⟨0x044, 1, 0x4, 31, 0, .ro, .none, 0, 0, 4294967295⟩,
  ⟨0x048, 1, 0x4, 7, 0, .ro, .none, 0, 0, 255⟩,
  ⟨0x050, 1, 0x4, 31, 0, .rw, .staged, 0x7D00101, 0, 4294967295⟩,
  ⟨0x054, 1, 0x4, 31, 0, .rw, .staged, 0, 0, 4294967295⟩,
  ⟨0x058, 1, 0x4, 31, 0, .ro, .none, 0, 0, 4294967295⟩,
  ⟨0x05C, 1, 0x4, 31, 0, .ro, .none, 0, 0, 4294967295⟩,
  ⟨0x060, 1, 0x4, 31, 31, .rw, .staged, 0, 0, 1⟩,
  ⟨0x060, 1, 0x4, 30, 0, .rw, .staged, 0, 0, 2147483647⟩,
  ⟨0x064, 1, 0x4, 31, 31, .rw, .staged, 0, 0, 1⟩,
  ⟨0x064, 1, 0x4, 30, 0, .rw, .staged, 0, 0, 2147483647⟩,
  ⟨0x068, 1, 0x4, 31, 31, .w1c, .none, 0, 0, 1⟩,
  ⟨0x068, 1, 0x4, 30, 30, .w1c, .none, 0, 0, 1⟩,
  ⟨0x068, 1, 0x4, 29, 29, .w1c, .none, 0, 0, 1⟩,
  ⟨0x06C, 1, 0x4, 31, 0, .ro, .none, 0, 0, 4294967295⟩,
  ⟨0x070, 1, 0x4, 31, 31, .rw, .staged, 0, 0, 1⟩,
  ⟨0x070, 1, 0x4, 22, 0, .rw, .staged, 0x40, 1, 5529600⟩,
  ⟨0x074, 1, 0x4, 31, 0, .rc, .none, 0, 0, 4294967295⟩]

def rowsTly : List RegRow := [
  ⟨0x008, 1, 0x4, 1, 1, .ro, .none, 0, 0, 1⟩,
  ⟨0x008, 1, 0x4, 0, 0, .ro, .none, 0, 0, 1⟩,
  ⟨0x010, 1, 0x4, 18, 18, .w1c, .none, 0, 0, 1⟩,
  ⟨0x010, 1, 0x4, 17, 17, .w1c, .none, 0, 0, 1⟩,
  ⟨0x010, 1, 0x4, 16, 16, .w1c, .none, 0, 0, 1⟩,
  ⟨0x040, 1, 0x4, 7, 0, .rw, .live, 0, 0, 255⟩,
  ⟨0x044, 1, 0x4, 31, 0, .ro, .none, 0, 0, 4294967295⟩,
  ⟨0x048, 1, 0x4, 31, 0, .ro, .none, 0, 0, 4294967295⟩,
  ⟨0x04C, 1, 0x4, 31, 0, .rw, .live, 0, 0, 4294967295⟩,
  ⟨0x050, 1, 0x4, 31, 0, .rw, .live, 0, 0, 4294967295⟩,
  ⟨0x054, 1, 0x4, 31, 0, .rw, .live, 0, 0, 4294967295⟩,
  ⟨0x058, 1, 0x4, 31, 0, .rw, .live, 0, 0, 4294967295⟩,
  ⟨0x05C, 1, 0x4, 1, 0, .wo, .live, 0, 0, 3⟩,
  ⟨0x060, 1, 0x4, 31, 0, .wo, .live, 0, 0, 4294967295⟩,
  ⟨0x064, 1, 0x4, 7, 0, .ro, .none, 0, 0, 255⟩,
  ⟨0x080, 8, 0x4, 31, 0, .ro, .none, 0, 0, 4294967295⟩]

def rowsRec : List RegRow := [
  ⟨0x008, 1, 0x4, 0, 0, .ro, .none, 0, 0, 1⟩,
  ⟨0x010, 1, 0x4, 19, 19, .w1c, .none, 0, 0, 1⟩,
  ⟨0x010, 1, 0x4, 18, 18, .w1c, .none, 0, 0, 1⟩,
  ⟨0x010, 1, 0x4, 17, 17, .w1c, .none, 0, 0, 1⟩,
  ⟨0x010, 1, 0x4, 16, 16, .w1c, .none, 0, 0, 1⟩,
  ⟨0x040, 1, 0x4, 31, 0, .rw, .live, 0, 0, 4294967295⟩,
  ⟨0x044, 1, 0x4, 1, 0, .ro, .none, 0, 0, 3⟩,
  ⟨0x048, 1, 0x4, 1, 0, .wo, .live, 0, 0, 3⟩,
  ⟨0x04C, 1, 0x4, 31, 0, .ro, .none, 0, 0, 4294967295⟩,
  ⟨0x050, 1, 0x4, 31, 0, .ro, .none, 0, 0, 4294967295⟩,
  ⟨0x054, 1, 0x4, 18, 0, .ro, .none, 0, 0, 524287⟩,
  ⟨0x058, 1, 0x4, 10, 0, .ro, .none, 0, 0, 2047⟩,
  ⟨0x05C, 1, 0x4, 31, 16, .rw, .live, 0x2710, 1, 10000⟩,
  ⟨0x05C, 1, 0x4, 15, 0, .rw, .live, 0x3E8, 1, 10000⟩,
  ⟨0x060, 1, 0x4, 11, 0, .rw, .live, 0, 0, 4095⟩,
  ⟨0x064, 1, 0x4, 31, 16, .rw, .live, 0xA0, 0, 65535⟩,
  ⟨0x064, 1, 0x4, 15, 8, .rw, .live, 0x14, 1, 255⟩,
  ⟨0x064, 1, 0x4, 7, 5, .rw, .live, 0, 0, 7⟩,
  ⟨0x068, 1, 0x4, 7, 0, .ro, .none, 0, 0, 255⟩,
  ⟨0x06C, 3, 0x4, 31, 0, .rw, .live, 0, 0, 4294967295⟩,
  ⟨0x078, 1, 0x4, 31, 20, .wo, .live, 0, 0, 4095⟩,
  ⟨0x078, 1, 0x4, 10, 8, .wo, .live, 0, 0, 7⟩,
  ⟨0x07C, 1, 0x4, 7, 0, .ro, .none, 0, 0, 255⟩,
  ⟨0x080, 1, 0x4, 31, 0, .rc, .none, 0, 0, 4294967295⟩,
  ⟨0x084, 1, 0x4, 31, 0, .rc, .none, 0, 0, 4294967295⟩]

def rowsRcur : List RegRow := [
  ⟨0x008, 1, 0x4, 0, 0, .ro, .none, 0, 0, 1⟩,
  ⟨0x010, 1, 0x4, 17, 17, .w1c, .none, 0, 0, 1⟩,
  ⟨0x010, 1, 0x4, 16, 16, .w1c, .none, 0, 0, 1⟩,
  ⟨0x040, 8, 0x4, 31, 0, .ro, .none, 0, 0, 4294967295⟩,
  ⟨0x060, 1, 0x4, 31, 31, .ro, .none, 0, 0, 1⟩,
  ⟨0x060, 1, 0x4, 30, 30, .ro, .none, 0, 0, 1⟩,
  ⟨0x060, 1, 0x4, 29, 29, .ro, .none, 0, 0, 1⟩,
  ⟨0x064, 1, 0x4, 17, 0, .ro, .none, 0, 0, 262143⟩,
  ⟨0x068, 1, 0x4, 31, 0, .ro, .none, 0, 0, 4294967295⟩,
  ⟨0x06C, 1, 0x4, 31, 0, .rc, .none, 0, 0, 4294967295⟩,
  ⟨0x070, 1, 0x4, 18, 0, .ro, .none, 0, 0, 524287⟩,
  ⟨0x074, 1, 0x4, 1, 0, .wo, .live, 0, 0, 3⟩,
  ⟨0x078, 1, 0x4, 31, 0, .rw, .live, 0, 0, 4294967295⟩,
  ⟨0x07C, 1, 0x4, 7, 0, .ro, .none, 0, 0, 255⟩]

def rowsPnl : List RegRow := [
  ⟨0x008, 1, 0x4, 27, 25, .ro, .none, 0, 0, 7⟩,
  ⟨0x008, 1, 0x4, 24, 22, .ro, .none, 0, 0, 7⟩,
  ⟨0x008, 1, 0x4, 21, 17, .ro, .none, 0, 0, 31⟩,
  ⟨0x008, 1, 0x4, 7, 0, .ro, .none, 0, 0, 255⟩,
  ⟨0x010, 1, 0x4, 19, 19, .w1c, .none, 0, 0, 1⟩,
  ⟨0x010, 1, 0x4, 18, 18, .w1c, .none, 0, 0, 1⟩,
  ⟨0x010, 1, 0x4, 17, 17, .w1c, .none, 0, 0, 1⟩,
  ⟨0x010, 1, 0x4, 16, 16, .w1c, .none, 0, 0, 1⟩,
  ⟨0x040, 1, 0x4, 31, 16, .rw, .staged, 0x3E8, 1000, 60000⟩,
  ⟨0x044, 8, 0x4, 31, 31, .rw, .staged, 0, 0, 1⟩,
  ⟨0x044, 8, 0x4, 12, 8, .rw, .staged, 0, 0, 31⟩,
  ⟨0x044, 8, 0x4, 4, 0, .rw, .staged, 0, 0, 31⟩,
  ⟨0x064, 1, 0x4, 7, 0, .wo, .live, 0, 0, 255⟩,
  ⟨0x068, 1, 0x4, 1, 0, .wo, .live, 0, 0, 3⟩,
  ⟨0x070, 4, 0x4, 31, 0, .rw, .live, 0, 0, 4294967295⟩,
  ⟨0x080, 4, 0x4, 31, 0, .rw, .live, 0, 0, 4294967295⟩,
  ⟨0x090, 1, 0x4, 3, 0, .ro, .none, 0, 0, 15⟩,
  ⟨0x094, 1, 0x4, 15, 0, .ro, .none, 0, 0, 65535⟩,
  ⟨0x098, 1, 0x4, 31, 0, .ro, .none, 0, 0, 4294967295⟩,
  ⟨0x09C, 1, 0x4, 31, 0, .rc, .none, 0, 0, 4294967295⟩,
  ⟨0x400, 96, 0x4, 31, 0, .rw, .live, 0, 0, 4294967295⟩]

def rowsInd : List RegRow := [
  ⟨0x008, 1, 0x4, 1, 1, .ro, .none, 0, 0, 1⟩,
  ⟨0x008, 1, 0x4, 0, 0, .ro, .none, 0, 0, 1⟩,
  ⟨0x010, 1, 0x4, 17, 17, .w1c, .none, 0, 0, 1⟩,
  ⟨0x010, 1, 0x4, 16, 16, .w1c, .none, 0, 0, 1⟩,
  ⟨0x040, 12, 0x4, 31, 30, .rw, .live, 2, 0, 2⟩,
  ⟨0x040, 12, 0x4, 29, 28, .rw, .live, 0, 0, 3⟩,
  ⟨0x040, 12, 0x4, 23, 16, .rw, .live, 0, 0, 255⟩,
  ⟨0x040, 12, 0x4, 15, 8, .rw, .live, 0, 0, 255⟩,
  ⟨0x040, 12, 0x4, 7, 0, .rw, .live, 0, 0, 255⟩,
  ⟨0x070, 1, 0x4, 7, 0, .rw, .live, 0x80, 0, 255⟩,
  ⟨0x074, 1, 0x4, 15, 0, .ro, .none, 0, 0, 65535⟩,
  ⟨0x078, 1, 0x4, 15, 8, .ro, .none, 0, 0, 255⟩,
  ⟨0x078, 1, 0x4, 1, 0, .ro, .none, 0, 0, 3⟩,
  ⟨0x100, 64, 0x4, 9, 0, .rw, .staged, 0, 0, 1023⟩,
  ⟨0x200, 64, 0x4, 9, 0, .rw, .staged, 0, 0, 1023⟩,
  ⟨0x300, 64, 0x4, 9, 0, .rw, .staged, 0, 0, 1023⟩]

end Sys2Proof.Machine
end

