-- ==== Sys2Proof/Machine/Pages.lean ====
section
/-! DEFINITION. The populated register pages (R62), their block kinds, instances and power domains, the capability
structures (R76, R77, R79), the reset words of the registers, and the fault-source numbers and classes (R405, R407). -/

namespace Sys2Proof.Machine

/-- The block kinds of R62. -/
inductive Kind where
  | dir | sup | pwr | clk | time | evd | cp | place | seq | tmr | lpe | lpt | ang | asrc | ax | eth | can | diog | ana
  | dwy | dvl | pair | flt | leg | cal | tly | recorder | rcur | pnl | ind | stn
deriving DecidableEq, Repr

/-! Page indices (R62). -/
def pgDIR : Nat := 0x000
def pgSUP : Nat := 0x001
def pgPWR : Nat := 0x002
def pgCLK : Nat := 0x003
def pgTIME : Nat := 0x004
def pgEVD : Nat := 0x005
def pgCP (p : Nat) : Nat := 0x008 + p
def pgPLACE : Nat := 0x010
def pgSEQ : Nat := 0x011
def pgTMR : Nat := 0x012
def pgLPE : Nat := 0x018
def pgLPT : Nat := 0x019
def pgANG : Nat := 0x020
def pgASRC (i : Nat) : Nat := 0x021 + i
def pgAX (i : Nat) : Nat := 0x028 + i
def pgETH (i : Nat) : Nat := 0x030 + i
def pgCAN (i : Nat) : Nat := 0x038 + i
def pgDIOG (i : Nat) : Nat := 0x040 + i
def pgANA (i : Nat) : Nat := 0x048 + i
def pgDWY : Nat := 0x058
def pgDVL : Nat := 0x060
def pgPAIR : Nat := 0x061
def pgFLT : Nat := 0x068
def pgLEG : Nat := 0x069
def pgCAL : Nat := 0x070
def pgTLY : Nat := 0x071
def pgREC : Nat := 0x072
def pgRCUR (c : Nat) : Nat := 0x073 + c
def pgPNL : Nat := 0x078
def pgIND : Nat := 0x079
def pgSTN (a : Nat) : Nat := 0x100 + a

/-- The block kind and the instance of page `n`; `none` for a reserved index (R62). -/
def pageKind (n : Nat) : Option (Kind × Nat) :=
  if n = 0x000 then some (.dir, 0) else if n = 0x001 then some (.sup, 0)
  else if n = 0x002 then some (.pwr, 0) else if n = 0x003 then some (.clk, 0)
  else if n = 0x004 then some (.time, 0) else if n = 0x005 then some (.evd, 0)
  else if n < 0x008 then none else if n ≤ 0x00B then some (.cp, n - 0x008)
  else if n = 0x010 then some (.place, 0) else if n = 0x011 then some (.seq, 0)
  else if n = 0x012 then some (.tmr, 0) else if n = 0x018 then some (.lpe, 0)
  else if n = 0x019 then some (.lpt, 0) else if n = 0x020 then some (.ang, 0)
  else if n < 0x020 then none
  else if n ≤ 0x026 then some (.asrc, n - 0x021)
  else if n < 0x028 then none else if n ≤ 0x02F then some (.ax, n - 0x028)
  else if n ≤ 0x033 then some (.eth, n - 0x030)
  else if n < 0x038 then none else if n ≤ 0x03B then some (.can, n - 0x038)
  else if n < 0x040 then none else if n ≤ 0x047 then some (.diog, n - 0x040)
  else if n ≤ 0x057 then some (.ana, n - 0x048)
  else if n = 0x058 then some (.dwy, 0) else if n = 0x060 then some (.dvl, 0)
  else if n = 0x061 then some (.pair, 0) else if n = 0x068 then some (.flt, 0)
  else if n = 0x069 then some (.leg, 0) else if n = 0x070 then some (.cal, 0)
  else if n = 0x071 then some (.tly, 0) else if n = 0x072 then some (.recorder, 0)
  else if n < 0x073 then none else if n ≤ 0x076 then some (.rcur, n - 0x073)
  else if n = 0x078 then some (.pnl, 0) else if n = 0x079 then some (.ind, 0)
  else if n < 0x100 then none else if n ≤ 0x1F9 then some (.stn, n - 0x100)
  else none

def populated (n : Nat) : Bool := (pageKind n).isSome

/-- All populated pages in ascending order (R62, R76). -/
def allPages : List Nat := (List.range 0x1FA).filter populated

/-- `PAGE_ID.BLOCK_TYPE` (R62). -/
def blockType : Kind → Nat
  | .dir => 0x0001 | .sup => 0x0002 | .pwr => 0x0003 | .clk => 0x0004 | .time => 0x0005 | .evd => 0x0006
  | .cp => 0x0010 | .place => 0x0011 | .seq => 0x0012 | .tmr => 0x0013 | .lpe => 0x0018 | .lpt => 0x0019
  | .ang => 0x0020 | .asrc => 0x0021 | .ax => 0x0028 | .eth => 0x0030 | .can => 0x0038 | .diog => 0x0040
  | .ana => 0x0048 | .dwy => 0x0058 | .dvl => 0x0060 | .pair => 0x0061 | .flt => 0x0068 | .leg => 0x0069
  | .cal => 0x0070 | .tly => 0x0071 | .recorder => 0x0072 | .rcur => 0x0073 | .pnl => 0x0078 | .ind => 0x0079
  | .stn => 0x0059

/-- The power domain of a block (R32, R62). -/
def domainOfKind : Kind → Nat → Nat
  | .cp, i => 3 + i
  | .place, _ | .seq, _ | .tmr, _ | .lpe, _ | .lpt, _ | .ang, _ => 7
  | .asrc, i => if i ≤ 3 then 10 else 11
  | .ax, _ | .diog, _ => 10
  | .eth, _ | .dwy, _ | .stn, _ => 8
  | .can, _ | .dvl, _ => 9
  | .ana, _ => 11
  | .cal, _ => 0
  | .dir, _ | .sup, _ | .pwr, _ | .clk, _ | .time, _ | .evd, _ | .pair, _ | .flt, _ | .leg, _ | .tly, _ | .recorder, _
  | .rcur, _ | .pnl, _ | .ind, _ => 1

def domainOf (n : Nat) : Nat :=
  match pageKind n with
  | some (k, i) => domainOfKind k i
  | none => 1

/-- The block-specific rows of a page's registers. -/
def kindRows : Kind → List RegRow
  | .dir => rowsDir | .sup => rowsSup | .pwr => rowsPwr | .clk => rowsClk | .time => rowsTime | .evd => rowsEvd
  | .cp => rowsCp | .place => rowsPlace | .seq => rowsSeq | .tmr => rowsTmr | .lpe => rowsLpe | .lpt => rowsLpt
  | .ang => rowsAng | .asrc => rowsAsrc | .ax => rowsAx | .eth => rowsEth | .can => rowsCan | .diog => rowsDiog
  | .ana => rowsAna | .dwy => rowsDwy | .dvl => rowsDvl | .pair => rowsPair | .flt => rowsFlt | .leg => rowsLeg
  | .cal => rowsCal | .tly => rowsTly | .recorder => rowsRec | .rcur => rowsRcur | .pnl => rowsPnl | .ind => rowsInd
  | .stn => rowsStn

/-- A row covers the register at offset `off`. -/
def RegRow.covers (r : RegRow) (off : Nat) : Bool :=
  decide (r.off ≤ off) && decide ((off - r.off) % r.stride = 0) && decide ((off - r.off) / r.stride < r.cnt)

/-- The fields of the register at `off` of a page of kind `k`, the common header's (R65) among them. -/
def rowsAt (k : Kind) (off : Nat) : List RegRow :=
  (if off < 0x040 then rowsHdr.filter (fun r => r.covers off) else []) ++ (kindRows k).filter (fun r => r.covers off)

/-- The bits of a field as a mask. -/
def maskOf (hi lo : Nat) : Nat := (2 ^ (hi - lo + 1) - 1) * 2 ^ lo

/-- Blocks whose `CTRL.RUN` always reads 1 (R65). -/
def runAlwaysOne : Kind → Bool
  | .dir | .sup | .pwr | .clk | .time | .evd | .pair | .flt | .leg | .cal | .tly | .recorder | .rcur | .pnl | .ind
  | .stn => true
  | .cp | .place | .seq | .tmr | .lpe | .lpt | .ang | .asrc | .ax | .eth | .can | .diog | .ana | .dwy | .dvl => false

/-! ### Fault sources (R405, R407) -/

/-- The first source number of a block kind's bits, the width of one instance, and whether the instances share them. -/
def srcBase : Kind → Option (Nat × Nat × Bool)
  | .sup => some (6, 10, false) | .pwr => some (16, 6, false) | .clk => some (22, 5, false)
  | .time => some (27, 10, false) | .evd => some (37, 1, false) | .cp => some (38, 2, false)
  | .place => some (46, 7, false) | .seq => some (53, 4, false) | .tmr => some (89, 2, false)
  | .lpe => some (91, 6, false) | .ang => some (97, 3, false) | .asrc => some (100, 5, false)
  | .ax => some (130, 10, false) | .eth => some (210, 6, false) | .can => some (234, 4, false)
  | .diog => some (250, 7, false) | .ana => some (306, 8, false) | .dwy => some (434, 4, false)
  | .stn => some (438, 5, true) | .dvl => some (443, 4, false) | .pair => some (447, 10, false)
  | .flt => some (457, 4, false) | .cal => some (461, 8, false) | .tly => some (469, 4, false)
  | .recorder => some (473, 4, false) | .rcur => some (477, 2, true) | .pnl => some (479, 4, false)
  | .ind => some (483, 2, false)
  | .dir | .lpt | .leg => none

/-- Bit `b` of a page's fault sources: `b < 32` is FAULT bit b; on SEQ, `32 + k` is `SEQ.OVR3` bit k. The source number
of R405. -/
def srcNum (page b : Nat) : Option Nat :=
  match pageKind page with
  | none => none
  | some (k, i) =>
    if b < 6 then some b
    else if 32 ≤ b then (if k = Kind.seq ∧ b < 64 then some (57 + (b - 32)) else none)
    else match srcBase k with
      | none => none
      | some (base, w, shared) =>
        if 16 ≤ b ∧ b - 16 < w then some (base + (if shared then 0 else i * w) + (b - 16)) else none

/-- Which page kind, instance and bit a source number names (the first instance of a shared source). -/
def srcBit (n : Nat) : Option (Kind × Nat × Nat) :=
  if n < 6 then some (.dir, 0, n)
  else if 57 ≤ n ∧ n ≤ 88 then some (.seq, 0, 32 + (n - 57))
  else
    let cand : List (Kind × Nat) := [(.sup, 1), (.pwr, 1), (.clk, 1), (.time, 1), (.evd, 1), (.cp, 4), (.place, 1),
      (.seq, 1), (.tmr, 1), (.lpe, 1), (.ang, 1), (.asrc, 6), (.ax, 8), (.eth, 4), (.can, 4), (.diog, 8), (.ana, 16),
      (.dwy, 1), (.stn, 1), (.dvl, 1), (.pair, 1), (.flt, 1), (.cal, 1), (.tly, 1), (.recorder, 1), (.rcur, 1), (.pnl, 1),
      (.ind, 1)]
    cand.findSome? (fun kc =>
      match srcBase kc.1 with
      | none => none
      | some (base, w, _) =>
        if base ≤ n ∧ n < base + w * kc.2 then some (kc.1, (n - base) / w, 16 + (n - base) % w) else none)

/-- The bit is one that the page's register table names. -/
def faultBitNamed (k : Kind) (b : Nat) : Bool :=
  decide (b < 6) || decide (32 ≤ b) ||
    (kindRows k).any (fun r => decide (r.off = 0x010) && decide (r.lo ≤ b) && decide (b ≤ r.hi)
      && decide (r.acc = .w1c))

/-- The default class of a fault bit, from the register descriptions: 0 NOTE, 1 DEGRADE, 2 FENCE, 3 YIELD. -/
def defaultClass (k : Kind) (b : Nat) : Nat :=
  if b = 5 then 2
  else if b < 6 then 0
  else if 32 ≤ b then 1
  else match k with
  | .sup => if b = 25 ∨ b = 19 then 1 else 0
  | .pwr => if b = 19 ∨ b = 18 then 3 else if b = 17 then 2 else if b = 16 then 1 else 0
  | .clk => if 16 ≤ b ∧ b ≤ 19 then 3 else 0
  | .evd => if b = 16 then 1 else 0
  | .cp => if b = 16 ∨ b = 17 then 2 else 0
  | .tmr => if b = 16 then 1 else 0
  | .place => if b = 22 then 1 else if b = 18 ∨ b = 17 then 3 else 0
  | .lpe => if b = 19 ∨ b = 18 then 1 else 0
  | .ang => if b = 18 then 1 else 0
  | .asrc => if b = 20 ∨ b = 18 ∨ b = 17 ∨ b = 16 then 1 else 0
  | .ax => if b = 17 then 2 else if b = 24 ∨ b = 23 ∨ b = 19 ∨ b = 18 ∨ b = 16 then 1 else 0
  | .dwy => if b = 17 then 1 else 0
  | .stn => if b = 16 then 1 else 0
  | .can => if b = 16 then 1 else 0
  | .diog => if b = 19 ∨ b = 16 then 1 else 0
  | .ana => if b = 23 then 2 else if b = 19 ∨ b = 18 ∨ b = 17 then 1 else 0
  | .dvl => if b = 16 then 1 else 0
  | .pair => if b = 20 then 2 else if b = 24 ∨ b = 22 ∨ b = 21 then 1 else 0
  | .recorder => if b = 19 then 1 else 0
  | .pnl => if b = 16 then 1 else 0
  | .dir | .time | .seq | .lpt | .eth | .flt | .leg | .cal | .tly | .rcur | .ind => 0

/-- `SRC_CFG.ALLOWED` (R407): bit c set where class c can be assigned. -/
def allowedMask (k : Kind) (b : Nat) : Nat :=
  match k with
  | .cp => if b = 16 then 0b1100 else 0b1111
  | .place => if b = 17 ∨ b = 18 then 0b1100 else 0b1111
  | .pair => if b = 20 then 0b0101 else 0b1111
  | _ => 0b1111

/-- `SRC_CFG.COND` (R412): the bits whose chapter gives them an entry and an exit. -/
def condBit (k : Kind) (b : Nat) : Bool :=
  match k with
  | .sup => decide (b = 16 ∨ b = 17 ∨ b = 18 ∨ b = 19 ∨ b = 20 ∨ b = 21 ∨ b = 22)
  | .clk => decide (b = 16 ∨ b = 17 ∨ b = 18 ∨ b = 19 ∨ b = 20)
  | .time => decide (b = 18 ∨ b = 19 ∨ b = 20 ∨ b = 21 ∨ b = 22 ∨ b = 23)
  | .place => decide (b = 17)
  | .asrc => decide (b = 18)
  | .ax => decide (b = 16 ∨ b = 19)
  | .eth => decide (b = 16 ∨ b = 17)
  | .can => decide (b = 16)
  | .diog => decide (b = 16 ∨ b = 17 ∨ b = 19)
  | .ana => decide (b = 17 ∨ b = 18 ∨ b = 19 ∨ b = 20 ∨ b = 23)
  | .dwy => decide (b = 16)
  | .dvl => decide (b = 16 ∨ b = 17)
  | .pair => decide (b = 16 ∨ b = 19)
  | .cal => decide (b = 17 ∨ b = 18)
  | .recorder => decide (b = 18)
  | .pnl => decide (b = 18)
  | .ind => decide (b = 16 ∨ b = 17)
  | _ => false

/-- Default class, COND and ALLOWED of a source number; NOTE, 0 and 0b0001 for a number that names no bit (R405). -/
def srcInfo (n : Nat) : Nat × Bool × Nat :=
  match srcBit n with
  | none => (0, false, 1)
  | some (k, _, b) =>
    if faultBitNamed k b then (defaultClass k b, condBit k b, allowedMask k b) else (0, false, 1)

/-- The reset table of R467: point k is floor(1,000 × (k / 63)^2.2 + 0.5). -/
def gammaReset : List Nat := [
  0, 0, 1, 1, 2, 4, 6, 8, 11, 14, 17, 22, 26, 31, 37, 43,
  49, 56, 64, 72, 80, 89, 99, 109, 120, 131, 143, 155, 168, 181, 195, 210,
  225, 241, 257, 274, 292, 310, 329, 348, 368, 389, 410, 432, 454, 477, 501, 525,
  550, 575, 601, 628, 656, 684, 712, 742, 772, 802, 834, 866, 898, 931, 965, 1000]

/-! ### Reset words -/

/-- The word a register of page `page` holds at reset, from the Reset column of its table (R4, R65). Windows shown
through an index register hold it at every index `idx`. -/
def resetWord (page off idx : Nat) : Word :=
  match pageKind page with
  | none => 0
  | some (k, i) =>
    let base := ((rowsAt k off).map (fun r => r.reset * 2 ^ r.lo)).foldl (· + ·) 0
    let special :=
      match k with
      | .time => if off = 0x06C then 1 * 2 ^ 16 else 0
      | .ax => if off = 0x008 ∧ 4 ≤ i then 2 ^ 22 else 0
      | .ana => if off = 0x008 ∧ i ≤ 3 then 2 ^ 20 else 0
      | .flt => if off = 0x084 then
          (srcInfo idx).1 * 2 ^ 10 + (if (srcInfo idx).2.1 then 2 ^ 8 else 0) + (srcInfo idx).2.2 * 2 ^ 4 + (srcInfo idx).1
        else 0
      | .ind => if 0x100 ≤ off ∧ off < 0x400 then gammaReset.getD ((off - 0x100) / 4 % 64) 0 else 0
      | _ => 0
    BitVec.ofNat 32 (base + special)

/-! ### The capability walk (R76, R77, R79) -/

/-- Identifier and parameter word of the capability structures of a page, in the order of the chain (R79). -/
def pageCaps (k : Kind) (i : Nat) : List (Nat × Nat) :=
  match k with
  | .cp => [(0x0101, 800 * 2 ^ 16 + 1024)]
  | .place => [(0x0110, 4), (0x0111, 0b1111)]
  | .seq => [(0x0120, 250 * 2 ^ 16 + 32)]
  | .tmr => [(0x0121, 4096)]
  | .lpe => [(0x0130, 16 * 2 ^ 24 + 128 * 2 ^ 16 + 1024)]
  | .lpt => [(0x0131, 4096 * 2 ^ 16 + 16)]
  | .ang => [(0x0140, 256), (0x0143, 1)]
  | .asrc => if i ≤ 3 then [(0x0141, 4000)] else [(0x0142, 40 * 2 ^ 8 + 70)]
  | .ax => if i ≤ 3 then [(0x0150, 2500 * 2 ^ 16 + 256)] else [(0x0151, 2000)]
  | .time => [(0x0160, 2)]
  | .eth => if i ≤ 1 then [(0x0161, 8), (0x0162, 1024)] else [(0x0161, 8), (0x0163, 0)]
  | .can => [(0x0170, 8000 * 2 ^ 16 + 1000)]
  | .diog => [(0x0180, 100), (0x0181, 64)]
  | .ana => if i ≤ 3 then [(0x0190, 7), (0x0191, 4), (0x0192, 28)] else [(0x0190, 7), (0x0191, 4)]
  | .dwy => [(0x01A0, 250)]
  | .dvl => [(0x01B0, 2)]
  | .leg => [(0x01C0, 0)]
  | .recorder => [(0x01D0, 262144)]
  | .tly => [(0x01D1, 256)]
  | .pnl => [(0x01E0, 96 * 2 ^ 16 + 32)]
  | .dir | .sup | .pwr | .clk | .evd | .pair | .flt | .cal | .rcur | .ind | .stn => []

/-- The word of a page's capability chain at `off`: each structure is 3 words, one after another from `Config.capBase`. -/
def capWord (k : Kind) (i off : Nat) : Option Nat :=
  let caps := pageCaps k i
  if Config.capBase ≤ off ∧ (off - Config.capBase) / 12 < caps.length then
    let j := (off - Config.capBase) / 12
    match caps[j]? with
    | none => none
    | some (cid, par) =>
      let w := (off - Config.capBase) % 12 / 4
      some (if w = 0 then cid * 2 ^ 16 + 1 * 2 ^ 8 + 3
        else if w = 1 then (if j + 1 < caps.length then Config.capBase + (j + 1) * 12 else 0)
        else par)
  else none

/-- `CAP_PTR.NEXT_PAGE` (R76): the next populated page, or 0xFFFF. -/
def nextPage (n : Nat) : Nat :=
  match allPages.find? (fun m => decide (n < m)) with
  | some m => m
  | none => 0xFFFF

end Sys2Proof.Machine
end

