-- ==== Sys2Proof/Machine/Store.lean ====
section
/-! DEFINITION. Sparse stores: a list of (key, value) pairs in one canonical form. Keys rise strictly, and no entry
equals what an unlisted key reads as. Registers, windows and the module's memories are stores. -/

namespace Sys2Proof.Machine

/-- A sparse map from numbers to values. -/
abbrev Store (α : Type) := List (Nat × α)

/-- What key `k` reads as; `d` is what an unlisted key reads as. -/
def Store.get {α : Type} (d : α) : Store α → Nat → α
  | [], _ => d
  | (k', v) :: r, k => if k' = k then v else Store.get d r k

/-- The entry `(k, v)` in its place: before the first greater key, or instead of an equal one. -/
def Store.ins {α : Type} : Store α → Nat → α → Store α
  | [], k, v => [(k, v)]
  | (k', v') :: r, k, v =>
    if k < k' then (k, v) :: (k', v') :: r else if k = k' then (k, v) :: r else (k', v') :: Store.ins r k v

/-- Writing `v` at key `k` keeps the canonical form: writing the unlisted value `d` removes the entry. -/
def Store.set {α : Type} [DecidableEq α] (d : α) (m : Store α) (k : Nat) (v : α) : Store α :=
  if v = d then m.filter (fun e => e.1 != k) else Store.ins m k v

/-- Keys rise strictly. -/
def Store.sorted {α : Type} : Store α → Bool
  | [] => true
  | [_] => true
  | (k, _) :: (k', v') :: r => decide (k < k') && Store.sorted ((k', v') :: r)

/-- The canonical form: keys rise strictly, and no entry holds what its unlisted key reads as. -/
def Store.wf {α : Type} [DecidableEq α] (d : Nat → α) (m : Store α) : Bool :=
  Store.sorted m && m.all (fun e => decide (e.2 ≠ d e.1))

/-- The entries whose key satisfies `p`. -/
def Store.keep {α : Type} (p : Nat → Bool) (m : Store α) : Store α := m.filter (fun e => p e.1)

/-! ### Byte memory (R54) -/

/-- The module's memories: bytes at 40-bit physical addresses, in canonical form. -/
abbrev Memory := Store Byte

/-- The canonical form of memory. -/
def Memory.wf (m : Memory) : Bool := Store.wf (fun _ => Config.unwrittenByte) m

def Memory.rd (m : Memory) (a : Nat) : Byte := Store.get Config.unwrittenByte m a
def Memory.wr (m : Memory) (a : Nat) (b : Byte) : Memory := Store.set Config.unwrittenByte m a b

/-- `n` bytes from address `a` on. -/
def Memory.bytes (m : Memory) (a : Nat) : Nat → List Byte
  | 0 => []
  | n + 1 => Memory.rd m a :: Memory.bytes m (a + 1) n

/-- The number that little-endian bytes give. -/
def leNat : List Byte → Nat
  | [] => 0
  | b :: r => b.toNat + 256 * leNat r

/-- The `n` little-endian bytes of a number. -/
def leBytes (v : Nat) : Nat → List Byte
  | 0 => []
  | n + 1 => BitVec.ofNat 8 v :: leBytes (v / 256) n

/-- Store bytes from address `a` on, lowest address first. -/
def Memory.put (m : Memory) (a : Nat) : List Byte → Memory
  | [] => m
  | b :: r => Memory.put (Memory.wr m a b) (a + 1) r

/-- The little-endian value of `n` bytes at `a`. -/
def Memory.rdLE (m : Memory) (a n : Nat) : Nat := leNat (Memory.bytes m a n)

/-- Store `v` as `n` little-endian bytes at `a`. -/
def Memory.wrLE (m : Memory) (a n v : Nat) : Memory := Memory.put m a (leBytes v n)

/-- Every listed byte of `[a, a + n)` removed: the range reads as never written. -/
def Memory.erase (m : Memory) (a n : Nat) : Memory := Store.keep (fun k => decide (k < a) || decide (a + n ≤ k)) m

/-- Copy `n` bytes from `src` of `from` to `dst` of `m`. Only listed bytes are moved, so a large range costs nothing. -/
def Memory.copy (m : Memory) (dst : Nat) (source : Memory) (src n : Nat) : Memory :=
  (Store.keep (fun k => decide (src ≤ k) && decide (k < src + n)) source).foldl
    (fun acc e => Memory.wr acc (dst + (e.1 - src)) e.2) (Memory.erase m dst n)

/-! ### Small sets of numbers, as rising lists -/

def insNum (x : Nat) : List Nat → List Nat
  | [] => [x]
  | y :: r => if x < y then x :: y :: r else if x = y then y :: r else y :: insNum x r

def delNum (x : Nat) (l : List Nat) : List Nat := l.filter (fun y => y != x)

end Sys2Proof.Machine
end

