-- ==== Sys2Proof/Machine/State.lean ====
section
/-! DEFINITION. The state of the PSC-960 as plain data, the reasons a step can stop, and the state at reset.

Every register field of spec/ lives in `regs` under `page, offset, index` (`regKey`): the value in effect, or for a
Staged field the applied value; `shad` holds the shadows of the Staged fields (R68) and `buf` the apply buffers (R69).
The other fields hold what the spec gives the blocks behind their registers: memories, queues, sequences in progress,
pins and the counters of TIME. -/

namespace Sys2Proof.Machine

/-- Why a step can stop with a fault. No command of this model does so: a bus error and the other exceptions of R61 are
outcomes that the state records (`State.bus`). -/
inductive Fault where
  /-- Nobody raises it: kept so that the outcome type has a fault. Safe: no statement rests on it. -/
  | none
deriving DecidableEq, Repr

/-- Why a step can be refused. -/
inductive Refusal where
  /-- Raised by `exec` for a command that has no meaning yet, by its mnemonic. Safe: nothing is claimed of it. -/
  | notModelled (mnemonic : String)
deriving DecidableEq, Repr

/-! ### Parts of the state -/

/-- Where the supervisor stands between no supply and the running firmware (R38 to R46). -/
inductive Phase where
  /-- No valid supply: PD1 is off. -/
  | unpowered
  /-- Supply valid, PD0 on the main supply, PD1 not yet started (R42). -/
  | supplied
  /-- PD1 is on and the boot ROM checks a firmware slot (R39). -/
  | rom
  /-- Both firmware slots failed (R39). -/
  | romRecovery
  /-- The SUP firmware runs. -/
  | firmware
  /-- A hold-up, shutdown or restart sequence runs (R28, R46). -/
  | sequence
  /-- Parked after SHUTDOWN (R46). -/
  | parked
deriving DecidableEq, Repr

/-- Which sequence of R28 runs, and so what follows it. -/
inductive SeqKind where
  | none | supplyLoss | watchdog | uncorrectable | shutdown | restart | overTemp
deriving DecidableEq, Repr

/-- The supervisor's boot and shut-down state (R22, R28, R30, R38 to R47, R51). -/
structure Boot where
  phase : Phase := .unpowered
  /-- The cause that the next PD1 start captures (R38). -/
  nextCause : Nat := 1
  /-- PD0 holds power, from the main supply or the cell (R31, R42). -/
  pd0 : Bool := false
  /-- A valid supply stands (R25). -/
  supplyValid : Bool := false
  /-- Firmware slot preferred for the next start (R39, R51); kept in flash. -/
  prefFw : Nat := 0
  /-- Slots found bad in this start (R39). -/
  fwFailed : List Nat := []
  /-- IDENTIFY was held at PD1 start and neither released nor held for 5 s (R47). -/
  idWait : Bool := false
  /-- Maintenance start confirmed (R47). -/
  maint : Bool := false
  /-- Start-failed state (R35, R41). -/
  startFailed : Bool := false
  /-- The slot-identity deadline has passed without a code (R22). -/
  idDeadline : Bool := false
  /-- Stop or Run has been reached since the last start (R45). -/
  reachedStop : Bool := false
  /-- A differing slot-identity episode runs (R22). -/
  idEpisode : Bool := false
  /-- Domains that failed their start and await the one retry (R35). -/
  retry : List Nat := []
  /-- The sequence that runs (R28, R46) and the last row of R28 it completed, counted from 1 (R50, code 0x007). -/
  seqKind : SeqKind := .none
  seqDone : Nat := 0
  /-- Next place in the reverse start order of SHUTDOWN (R46), 0 to 10. -/
  shutPos : Nat := 0
  /-- The completion marker and the last completed step, in MRAM (R28, R30). -/
  marker : Bool := true
  markerStep : Nat := 0
  /-- The cause text of the rest image that a sequence will draw (R46, R464). -/
  restCause : Nat := 0
  /-- A hold-up measurement has been made since supply valid (R27). -/
  holdupMeasured : Bool := false
  /-- The unlock of R51: 0 locked, 1 first key seen, 2 unlocked; and the reference tick of the first key. -/
  unlock : Nat := 0
  unlockAt : Nat := 0
  /-- The SUP watchdog has expired in this start (R45). -/
  watchdogHit : Bool := false
  /-- The identify period runs (R47, R470). -/
  identify : Bool := false
  /-- Case warning standing (R48), and over-temperature shut-down standing. -/
  warm : Bool := false
  overTemp : Bool := false
  /-- Image key hashes enrolled: slot 0 to 7 (R51), 256-bit numbers in MRAM. -/
  keyHash : Store Nat := []
  /-- The SUP command in progress that ends in a row of its own: 0x04, 0x14 or 0x15; 0 none. -/
  busyCmd : Nat := 0
  /-- CMD_ADDR and CMD_LEN as they stood at the CMD write of the load in progress (R51). -/
  loadAddr : Nat := 0
  loadLen : Nat := 0
  /-- The start-failed state came from the check of the active image, so no image is in use (R41). -/
  imageFailed : Bool := false
  /-- The flash operation in progress: OP, first block, count, memory address (R49). -/
  flashOp : Nat := 0
  flashBlock : Nat := 0
  flashCount : Nat := 0
  flashDma : Nat := 0
  /-- ms of reference time at which Stop was reached is shown in BOOT_TIME; the reference tick of supply valid. -/
  svTick : Nat := 0
deriving DecidableEq, Repr

/-- The inputs that SUP reads and that are not register fields (R21, R47), as they stood when it last read them. -/
structure Pins where
  /-- SLOT_ID pins as they stand, RAW[5:0] (R21). -/
  slotId : BitVec 6 := 0
  /-- IDENTIFY is pressed (R47). -/
  identify : Bool := false
deriving DecidableEq, Repr

/-- The counters of TIME (R267, R269, R276) and the reference count. -/
structure Clocks where
  /-- 100 MHz reference ticks since PD1 start (the model's own count of reference time). -/
  ref : Nat := 0
  /-- The 56-bit accumulator of station time: STN_NS and its 24-bit fraction (R267), and the upper word (R269). -/
  stn : BitVec 56 := 0
  stnHi : BitVec 32 := 0
  stp : BitVec 56 := 0
  stpHi : BitVec 32 := 0
  /-- Residuals in 2^-24 ns (R276). -/
  stnRes : Int := 0
  stpRes : Int := 0
  /-- The base increment of stamp time in force (R281). -/
  stpInc : Nat := 0x0A000000
  /-- First steps taken, and the pending station step with its offset (R275). -/
  stnStepped : Bool := false
  stpStepped : Bool := false
  pendOfs : Int := 0
  /-- Station-time steps taken: LPE and ANG compare it with the value they last saw (R278). -/
  stnSteps : Nat := 0
  /-- Domain A, domain B is lost (R274). -/
  lostA : Bool := false
  lostB : Bool := false
  /-- The reference ticks of the last accepted Sync of each domain, or of the start of its watch (R274), and of the last write of its
  DOMx_OFS (R281). -/
  syncA : Nat := 0
  syncB : Nat := 0
  estA : Nat := 0
  estB : Nat := 0
  /-- The reference tick of the change of stamp domain in progress (R282). -/
  changeAt : Nat := 0
  /-- The reference tick of the last 0x10C record; at most one a second (R273). -/
  tsOvfAt : Option Nat := none
deriving DecidableEq, Repr

/-- One timestamp FIFO entry (R273): the words TS_W0 to TS_W2. -/
structure TsEntry where
  w0 : Word
  stn : Word
  stp : Word
deriving DecidableEq, Repr

/-- An event record on its way to REC: what its block raised, with the stamp of that instant (R438). -/
structure RecEv where
  code : Nat
  page : Nat
  sub : Nat
  p0 : Nat
  p1 : Nat
  p2 : Nat
  ns : Nat
  wrap : Nat
  late : Bool
  /-- The reference tick of the raising. -/
  at_ : Nat
deriving DecidableEq, Repr

/-- A record in REC's queue (R440): the event with its suppression summary. -/
structure QRec where
  ev : RecEv
  /-- CODE_CFG.SEV at the admission. -/
  sev : Nat := 0
  supp : Bool := false
  count : Nat := 0
deriving DecidableEq, Repr

/-- A token bucket (R442, R443): the level in 1/(65,536 × 10^8) token and the reference tick of the last accrual;
`full` means that it has not been used since PD1 start and holds its BURST. -/
structure Bucket where
  full : Bool := true
  level : Nat := 0
  at_ : Nat := 0
deriving DecidableEq, Repr

/-- The recorder behind its registers (R438 to R449). -/
structure Recorder where
  /-- Records raised and not yet received by REC, oldest first. -/
  raised : List RecEv := []
  /-- The queue of R440, oldest first. -/
  queue : List QRec := []
  /-- Sequence and ring index of the next record written (R444); both follow from MRAM. -/
  nextSeq : Nat := 0
  nextIdx : Nat := 0
  /-- Ring records held, 0 to 262,144 (R454). -/
  held : Nat := 0
  /-- The recorder is ready since the last PD1 start (R42). -/
  ready : Bool := false
  /-- Records suppressed because the queue was full since code 0x246 was last due (R440). -/
  fullCount : Nat := 0
  /-- Token buckets of the codes (R442) and the global one (R443). -/
  buckets : Store Bucket := []
  gbucket : Bucket := {}
  /-- SOURCE_PAGE of the last suppressed record of each code (R442). -/
  suppPage : Store Nat := []
  /-- Sequences of cursors 0 to 3 as saved in MRAM (R448). -/
  saved : Store Nat := []
deriving DecidableEq, Repr

/-- One queued event of a core pair (R81). -/
structure EvEntry where
  pair : Nat
  src : Nat
  prio : Nat
  vec : Nat
  stamp : Nat
  moved : Bool := false
deriving DecidableEq, Repr

/-- The event distributor behind its registers (R80 to R83). -/
structure EventDist where
  /-- Entries of all four pairs' queues in arrival order. -/
  queue : List EvEntry := []
  /-- Sources whose route is being moved (R82) and the events they hold back, in order: (source, stamp). -/
  moving : List Nat := []
  heldBack : List (Nat × Nat) := []
  /-- The dedicated line (R83): (pair, kind) deliveries, kind 0 power fail, 4 + p the fenced pair p. -/
  lines : List (Nat × Nat) := []
deriving DecidableEq, Repr

/-- The fault collector behind its registers (R404 to R416). A fault bit is the number `page * 64 + bit`, with bit 32 + k
for `SEQ.OVR3` bit k. -/
structure FaultColl where
  /-- FLT's own copy of the raised bits (R404), rising. -/
  held : List Nat := []
  /-- Rising edges that FLT has not yet reacted to (R408), oldest first. -/
  edges : List Nat := []
  /-- Conditions of condition sources that stand (R412), rising. -/
  conds : List Nat := []
  /-- Fenced pages (R410), rising, and the fault bits that fenced them. -/
  fenced : List Nat := []
  fencedBy : List (Nat × Nat) := []
  /-- Raised bits whose DEGRADE reaction set their page degraded (R409), rising. -/
  degraded : List Nat := []
  /-- Pages that a block's own condition keeps degraded (R409). -/
  ownDegraded : List Nat := []
deriving DecidableEq, Repr

/-- The outcome of the last access on the fabric (R61, R63): the data it returned, or the exception it raised. -/
structure BusResult where
  /-- 0 none; 1 to 5 the exception causes of R61. -/
  cause : Nat := 0
  data : BitVec 64 := 0
deriving DecidableEq, Repr

/-- A calendar instant (R422): the binary fields of CAL and the prescaler below FRAC. -/
structure CalTime where
  year : Nat := 2000
  month : Nat := 1
  day : Nat := 1
  hour : Nat := 0
  minute : Nat := 0
  second : Nat := 0
  frac : Nat := 0
  /-- Crystal cycles within the 1/256 s, 0 to 127. -/
  presc : Nat := 0
deriving DecidableEq, Repr

/-- CAL behind its registers (R422 to R431). -/
structure Calendar where
  now : CalTime := {}
  /-- Groups written since the last applied commit (R424): set, alarm, wake. -/
  wSet : Bool := false
  wAlarm : Bool := false
  wWake : Bool := false
  /-- The same of the commit in the apply buffer (R69). -/
  gSet : Bool := false
  gAlarm : Bool := false
  gWake : Bool := false
  /-- The DATE and TIME words of an alarm that fired while PD1 was off (R428). -/
  offFire : Option (Nat × Nat) := none
  /-- Phase of the crystal against the reference, in 1/10^8 cycle (assumption 10). -/
  phase : Nat := 0
  /-- Counting reached the 1/256 s that stands, and the alarm (R426), the wake grid (R429) have not met it yet. -/
  alarmAt : Bool := false
  wakeAt : Bool := false
deriving DecidableEq, Repr

/-- TLY behind its registers (R434 to R437). -/
structure Tallies where
  /-- Current 64-bit values. -/
  val : Store Nat := []
  /-- Thresholds, kept in MRAM (R436). -/
  thr : Store Nat := []
  /-- The two MRAM records of each counter (R435): record w of counter i, at 2 i + w, is value × 2^32 + sequence. -/
  recs : Store Nat := []
  /-- THRESH_LO held until THRESH_HI is written (R453). -/
  thrHeld : Option Nat := none
  /-- Unlock of R437: 0, 1, 2 as `Boot.unlock`. -/
  unlock : Nat := 0
  unlockAt : Nat := 0
  /-- Intervals of 60 s written (R435) and seconds counted (R434) since PD1 start. -/
  flushes : Nat := 0
  secs : Nat := 0
deriving DecidableEq, Repr

/-- A frame that the module has sent on a wire: the port or line, its kind and its contents as numbers. -/
structure Sent where
  /-- 0 to 3 ETH ports, 4 to 7 CAN controllers, 8 and 9 Dervor lanes, 10 the service port, 11 to 26 HART channels. -/
  port : Nat
  kind : Nat
  body : List Nat
  /-- The instant of station time at which it leaves. -/
  at_ : Nat := 0
deriving DecidableEq, Repr

/-- One source node of the PRP duplicate table: its address and the sequence numbers seen, each with the reference tick
at which its first copy arrived (R331). The list is ordered by last use, most recent first. -/
structure PrpNode where
  mac : Nat
  seen : List (Nat × Nat) := []
deriving DecidableEq, Repr

/-- An Ethernet port behind its registers (R326 to R336). -/
structure EthRt where
  /-- The reference tick at which the wire is free after a launched frame, and the launch-time queues whose head came to its instant
  and waits for the wire (R285). -/
  busy : Nat := 0
  held : List Nat := []
  /-- Transmit queues stopped at a descriptor with OWN = 0, until TAIL is written (R328). -/
  stopped : List Nat := []
  /-- Tokens of storm classes 0 to 3, and the 1 ms boundary of station time of their last refill (R334). -/
  storm : Store Nat := []
  stormAt : Nat := 0
  /-- Drops since the last 0x182 record per class, wrong-LAN count since the last 0x185 record. -/
  stormDrops : Store Nat := []
  wrongSince : Nat := 0
  /-- Duplicate table of the pair (ETH0) or of the ring port pair (ETH2). -/
  nodes : List PrpNode := []
  /-- Ring frames that this port has taken for forwarding (R290). -/
  ringSeen : List PrpNode := []
  /-- Redundancy control trailer sequence number of the next DUP frame (R330). -/
  rctSeq : Nat := 0
  /-- The LAN has been seen, so that a loss can follow (R331). -/
  lanLost : Bool := false
  /-- The reference tick of the last frame on the LAN (R331). -/
  lanAt : Nat := 0
deriving DecidableEq, Repr

/-- A CAN transmit entry as the controller copied it at the submit (R342). -/
structure CanTx where
  entry : Nat
  w0 : Nat
  w1 : Nat
  data : List Nat
  /-- Submission order. -/
  order : Nat
  tries : Nat := 0
  /-- Stamp time at the start of the last transmit attempt; none without an attempt. -/
  stamp : Option Nat := none
  /-- Outcome of the entry if the attempt on the bus fails: 4 after R344, 5 after TX_ABORT; 0 none. -/
  ending : Nat := 0
deriving DecidableEq, Repr

/-- A CAN controller behind its registers (R341 to R351). -/
structure CanRt where
  /-- Pending entries in submission order. -/
  pend : List CanTx := []
  nextOrder : Nat := 0
  /-- The entry whose attempt is on the bus (R343, R344). -/
  onBus : Option Nat := none
  /-- Receive entries that belong to software, 0 to 128. -/
  filled : Nat := 0
  /-- Frames dropped since the last 0x1A1 record; an overrun since the last status entry (R351). -/
  ovrSince : Nat := 0
  ovrBind : Bool := false
  /-- Bit-rate detection: candidate in trial and error-free frames seen at it (R349). -/
  abrCand : Nat := 0
  abrGood : Nat := 0
  /-- Time of START_ABR, from which ABR.TMO runs. -/
  abrAt : Nat := 0
  /-- Value last written to the BIND_STAT entry. -/
  statOut : Option Nat := none
deriving DecidableEq, Repr

/-- A panel drive in progress or waiting (R459, R460, R464): the commons still to be driven with their 96 dots. -/
structure PanelJob where
  /-- `PNL.STATUS.DRIVE`: 1 region, 2 rest, 3 recovery. -/
  kind : Nat
  region : Nat := 0
  rows : List (Nat × Nat)
  /-- Rest drives: the cause, whether all lines are drawn, and whether 0x261 is recorded (R464). -/
  cause : Nat := 0
  all : Bool := true
  quiet : Bool := false
  /-- Commons of the whole drive. -/
  total : Nat
deriving DecidableEq, Repr

/-- The panel behind PNL (R456 to R465). -/
structure Panel where
  /-- Dots of each common, bit c for column c, and the polarity of its next drive: both outlast the power. -/
  image : Store Nat := []
  polarity : Store Nat := []
  /-- The in-progress marker in MRAM: common, polarity, kind of drive (R458). -/
  marker : Option (Nat × Nat × Nat) := none
  job : Option PanelJob := none
  /-- The running region update ends with the common in drive (R465). -/
  stopAfter : Bool := false
  /-- Reference tick at which the drive of the common began (R456). -/
  driveAt : Nat := 0
  /-- Pending region updates in order of their latest request (R461), and rest drives that wait (R465). -/
  updates : List PanelJob := []
  rests : List PanelJob := []
  /-- The panel temperature is outside its drive range (R457). -/
  tempOut : Bool := false
  /-- Reference tick + 1 of the last drive of each common. -/
  driven : Store Nat := []
  /-- Emitters left dark: indicator × 3 + colour, 36 more for a short (R471). -/
  dark : List Nat := []
deriving DecidableEq, Repr

/-- One entry of an edge buffer (R360): the words that EDGE_W0 and EDGE_W1 show. -/
structure EdgeEntry where
  ns : Nat
  hi : Nat
  level : Bool
  lost : Bool
  untrusted : Bool
deriving DecidableEq, Repr

/-- A digital channel behind its registers (R357 to R364). -/
structure DioRt where
  /-- The state commanded of the switch (an image-driven, angle-driven or safe command, INVERT applied). -/
  want : Bool := false
  /-- A level has been accepted since the channel started (R359). -/
  accepted : Bool := false
  /-- Edge buffer, oldest first; a run of lost edges stands, and the next stored edge carries LOST (R360). -/
  edges : List EdgeEntry := []
  lostRun : Bool := false
  /-- The switch follows its command from the next loop base tick on (R361, R366). -/
  held : Bool := false
  /-- Reference tick of the switch's last change, and of the channel's last test pulse (R361 to R363). -/
  changedAt : Nat := 0
  pulseAt : Option Nat := none
deriving DecidableEq, Repr

/-- An analogue island behind its registers (R367 to R374). -/
structure AnaRt where
  /-- Current commanded, binary32 mA; `none` is high impedance. -/
  cmd : Option (BitVec 32) := none
  /-- The command taken but not yet in force, on a passive output at a reduced step (R370). -/
  next : Option (Option (BitVec 32)) := none
  /-- 0 in range, 1 below BAD_LO, 2 above BAD_HI (R368). -/
  range : Nat := 0
  /-- Consecutive conversions short of the command, and within 0.1 mA of it (R372). -/
  short : Nat := 0
  good : Nat := 0
  /-- The compliance supply rises to 28 V; the reference tick at which it stood there (R372). -/
  boost : Bool := false
  at28 : Option Nat := none
  /-- READBACK reported and the deviation not over (R369). -/
  rbErr : Bool := false
  /-- The power stage is below its restart temperature (R371). -/
  cool : Bool := true
  /-- Island fault that stands: 0 none, 1 link, 2 calibration, 3 converter (R373). -/
  island : Nat := 0
  /-- The grid instant of the last conversion (R368). -/
  convAt : Option Nat := none
  /-- Reference tick of the first of the conversions in a row that deviate by more than 0.2 mA (R369). -/
  devAt : Option Nat := none
  /-- Reference tick of the last test of the terminals in mis-wiring (R373). -/
  testAt : Nat := 0
  /-- What a running HART transaction sends (R374). -/
  frame : List Nat := []
  /-- A HART transaction runs (R374). -/
  hart : Bool := false
deriving DecidableEq, Repr

/-- A value waiting for its write instant (R164): a slot's, or a fold's. -/
structure LoopWrite where
  value : BitVec 32
  /-- Quality bits as `Quality`, and the word of a bound STAT entry (R168). -/
  qual : Nat
  stat : Nat := 0
  /-- The write instant: the first loop base tick strictly after the sample. -/
  at_ : Nat := 0
deriving DecidableEq, Repr

/-- What LPE keeps of a slot beside its record (R161, R163, R177, R195 to R197). -/
structure LoopRt where
  /-- KP, KD and TF of the previous sample; `ran` once there was one since the slot was enabled. -/
  kp : BitVec 32 := 0
  kd : BitVec 32 := 0
  tf : BitVec 32 := 0
  ran : Bool := false
  /-- A commit changed the biquads in use since the previous sample. -/
  bqNew : Bool := false
  /-- An invalid mode request has been recorded and no valid one has come. -/
  reqBad : Bool := false
  /-- The scheduling variable is unusable. -/
  schedBad : Bool := false
  /-- Station-time steps seen (R278). -/
  steps : Nat := 0
  /-- E + 1 of the event that triggers a sample of an angle-triggered slot (R161); 0 for none. -/
  trig : Nat := 0
  /-- An instant of the slot fell between the snapshot and the tick at which a new duty's LPE resumes: it samples there (R393). -/
  resume : Bool := false
  /-- No control sample has run since T_run: the first one soft-starts (R179). -/
  soft : Bool := false
  write : Option LoopWrite := none
deriving DecidableEq, Repr

/-- A trace channel behind its registers (R201, R202). -/
structure TraceRt where
  /-- Value of the tested node at the previous sample. -/
  prev : Option (BitVec 32) := none
  /-- Samples until the next one is recorded, and records still to take once triggered. -/
  skip : Nat := 0
  left : Nat := 0
  forced : Bool := false
  /-- Extended station time of the last ARM and of the last trigger. -/
  armedAt : Nat := 0
  trigAt : Option Nat := none
  /-- Commands that wait for the next loop base tick, or for RUN (R201, R205). -/
  cmds : List Nat := []
deriving DecidableEq, Repr

/-- The loop engine behind its registers (R157 to R202). Word w of the record of slot s has the key 64 s + w. -/
structure LoopEngine where
  recs : Store (BitVec 32) := []
  shad : Store (BitVec 32) := []
  buf : Store (BitVec 32) := []
  /-- Slots with shadow values that no commit has taken, and slots that have yet to take the checked commit (R169). -/
  pend : List Nat := []
  taking : List Nat := []
  /-- Of the checked commit: slots that have yet to take its region tables, folds that have yet to take its fold words, and the
  extended station time of the check (R169, R192, R204). -/
  tabWait : List Nat := []
  foldWait : List Nat := []
  checked : Nat := 0
  /-- Slots that are Off because of a record word with an uncorrectable error (R166): (slot, word). -/
  eccOff : List (Nat × Nat) := []
  slots : Store LoopRt := []
  folds : Store (Option LoopWrite) := []
  trace : Store TraceRt := []
  /-- The loop base tick of the latest sample, and the samples so far at it (R158). -/
  dueTick : Nat := 0
  due : Nat := 0
deriving DecidableEq, Repr

/-- A limit or reference switch behind its registers (R252, R253). Its qualified level is the level that STATUS shows. -/
structure AxSwitch where
  /-- The raw input level; none before an edge has come. -/
  raw : Option Bool := none
  /-- The level of the last sample, and the consecutive samples at it, up to 15. -/
  last : Bool := false
  count : Nat := 0
  /-- The candidate: axis position at the first raw edge away from the qualified level, and its instant. -/
  cand : Option Int := none
  candAt : Nat := 0
  /-- The instants of the chatter edges of the last 1 s. -/
  edges : List Nat := []
deriving DecidableEq, Repr

/-- An axis behind its registers (R239 to R264). Positions are in 2^-32 microstep, velocities in 2^-32 microstep/s. -/
structure AxRt where
  p : Int := 0
  v : Int := 0
  tgt : Int := 0
  /-- What the generator does: 0 rests, 1 moves to `tgt`, 2 runs in direction `vneg`, 3 decelerates at `dec`. -/
  plan : Nat := 0
  prof : Nat := 0
  vneg : Bool := false
  dec : Nat := 0
  /-- Coils, or the step outputs: 0 open or high impedance, 1 at I_RUN, 2 at I_HOLD. -/
  coils : Nat := 0
  /-- The coils open when the axis has come to rest. -/
  openAtRest : Bool := false
  /-- Values taken from the bound entries: command word, target, ratio; GEN of TGT at the last take (R241). -/
  cmd : Nat := 0
  tgtIn : Int := 0
  tgtGen : Nat := 0
  tgtNew : Bool := false
  num : Int := 0
  den : Nat := 1
  /-- Gearing (R248): anchor, ratio in force, highest coordinate, distance, last coordinate; an engagement or a new ratio
  that waits for its crossing. -/
  ba : Int := 0
  pa : Int := 0
  gnum : Int := 1
  gden : Nat := 1
  gtop : Int := 0
  gpath : Int := 0
  glast : Int := 0
  gwait : Bool := false
  gnew : Option (Int × Nat) := none
  /-- Homing (R255): 0 none, 1 search, 2 decelerates after the capture, 3 moves to the back-off. -/
  home : Nat := 0
  homeFrom : Int := 0
  /-- Travel since the last reversal or stroke, and the direction of the last step (R264). -/
  leg : Nat := 0
  neg : Bool := false
  /-- The position coordinate of the first crossing of GEAR_AT since a ratio or an engagement waits (R250): B_c. -/
  gat : Option Int := none
  /-- The limit and reference switches: 0 negative, 1 positive, 2 reference (R252). -/
  sw : Store AxSwitch := []
  /-- STEP and DIR of AX4 to AX7 before their polarities (R263): leading edges of the step pulses, the direction line and its
  changes to come, in reference time. -/
  steps : List Nat := []
  dirNeg : Bool := false
  dirs : List (Nat × Bool) := []
deriving DecidableEq, Repr

/-- An angle source behind its registers (R206 to R219). `w` and `a` are binary64 patterns. -/
structure AsrcRt where
  /-- Count since the reference, unbounded, and the offset of its extended angle. -/
  c : Int := 0
  base : Int := 0
  /-- The base point of the extrapolation: station time and extended angle of the last count (R212). -/
  t : Nat := 0
  x : Int := 0
  w : Nat := 0
  a : Nat := 0
  /-- The last speed-pitch edge; how much of R212's history there is: 0 none, 1 one edge, 2 one interval, 3 more. -/
  pt : Nat := 0
  px : Int := 0
  pdt : Nat := 0
  hist : Nat := 0
  pn : Nat := 0
  /-- Consecutive intervals within LOWSPD_US while in low-speed mode (R215). -/
  good : Nat := 0
  /-- One count against the confirmed direction has come (R216). -/
  rev1 : Bool := false
  /-- Tooth wheel (R210): the last interval; a gap may lie before the last tooth; teeth since the last gap. -/
  lastInt : Nat := 0
  gapCand : Bool := false
  teeth : Nat := 0
  teethOk : Bool := false
  /-- Lost: the next reference sets the count anew (R211). -/
  relearn : Bool := false
  /-- Mains (R218): consecutive good cycles, and cycles with a phase error above 5°. -/
  lock : Nat := 0
  bad : Nat := 0
deriving DecidableEq, Repr

/-- An event slot behind its registers (R220 to R224). -/
structure AngSlot where
  /-- ARM, EN and REP leave it armed; it is armed in effect only while its source allows it (R219). -/
  armed : Bool := false
  tgt : Option Int := none
  pred : Option Nat := none
  /-- Its words have been written since the last GO; a commit that has not applied takes them (R236). -/
  pend : Bool := false
  going : Bool := false
deriving DecidableEq, Repr

/-- The synchroniser behind its registers (R228 to R233). -/
structure SyncRt where
  /-- The last crossing: station time, φ, slip; the slip before it. -/
  t : Nat := 0
  phi : Int := 0
  slip : BitVec 32 := 0
  seen : Bool := false
  /-- t_c and t_i. -/
  tc : Nat := 0
  ti : Nat := 0
  /-- The close pulse runs. -/
  pulse : Bool := false
  /-- SEQ has been in Run since the request (R233 reason 5). -/
  inRun : Bool := false
  /-- E + 1 of the latest issue of ANG's issue stage (R225). -/
  issued : Nat := 0
deriving DecidableEq, Repr

/-- A Droveway station page behind its registers (R299 to R315). -/
structure StnRt where
  seed : Nat := 0
  /-- FIRST_CYCLE of the binding, confirmed by an accepted CYCLE_IN (R309). -/
  first : Nat := 0
  confirmed : Bool := false
  /-- The cycle of the latest accepted CYCLE_IN and whether it was good (R311, R312). -/
  acc : Option (Nat × Bool) := none
  /-- Why frames of the current cycle were not accepted: 3 code failure, 4 late (R313); 0 neither. -/
  why : Nat := 0
  /-- Consecutive good cycles in Bound (R315). -/
  goodRun : Nat := 0
  /-- READMIT commanded; GEN of the READMIT entry when the page entered Bound (R315). -/
  cmd : Bool := false
  readGen : Nat := 0
  /-- From the JOIN: METHODS, CAPS, and the T_ring used at the offer in µs (R298, R307). -/
  tRing : Nat := 0
  /-- Reference tick + 1 of the latest start of a binding, or of the offer (R300). -/
  started : Nat := 0
  /-- The MAC and the page configuration of the last binding (R317); an end of the binding keeps them. -/
  mac : Nat := 0
  cfg : List Nat := []
deriving DecidableEq, Repr

/-- DWY behind its registers (R300, R308, R319). -/
structure Droveway where
  stn : Store StnRt := []
  /-- GEN of each page, in MRAM. -/
  gen : Store Nat := []
  /-- JOIN and REJOIN frames handled in this ANNOUNCE period. -/
  joins : Nat := 0
  /-- Round trips in µs of the last 16 ANNOUNCE frames, newest first; the latest value per direction. -/
  trips : List Nat := []
  lastA : Nat := 0
  lastB : Nat := 0
  /-- A copy of the latest ANNOUNCE has returned per direction; periods without one. -/
  retA : Bool := true
  retB : Bool := true
  noA : Nat := 0
  noB : Nat := 0
  /-- Reference tick + 1 of the latest ANNOUNCE (R300). -/
  annAt : Nat := 0
  /-- Per task, the freeze instant + 1 at which its stations were evaluated last (R313). -/
  evalAt : Store Nat := []
deriving DecidableEq, Repr

/-- The current cycle of a task, from its freeze to its publish or abandonment (R91 to R97). -/
structure TaskCycle where
  /-- Index of the freeze instant (R90), the instant S_n, and the task time τ_n (R112). -/
  m : Nat := 0
  at_ : Nat := 0
  tau : Nat := 0
  /-- The frozen image: entry, value, W3 (R91, R145). -/
  frozen : List (Nat × Nat × Nat) := []
  /-- Ready: the tier-0 fill is not still running (R150). -/
  ready : Bool := true
  done : Bool := false
  /-- It has overrun (R97), or lapsed in another way (R153). -/
  late : Bool := false
  lapsed : Bool := false
  /-- The pair whose fence lost it (R150). -/
  lost : Option Nat := none
  /-- What the execution wrote into its working copy: output entries with quality and value, lines of state. -/
  outs : List (Nat × Nat × List Byte) := []
  lines : List (Nat × List Byte) := []
  /-- The words of the cells it has called, as they stood before the first call (R93, R154). -/
  cells : List (Nat × List Word) := []
  /-- The first execution after a takeover (R393). -/
  takeover : Bool := false
deriving DecidableEq, Repr

/-- The value of an entry as one access gives it: the entry, the value as a little-endian number, W3. -/
structure OutVal where
  entry : Nat
  val : Nat
  w3 : Nat
deriving DecidableEq, Repr

/-- Where PLACE puts the data of a task (R141): addresses of its home, working copy, frozen-image buffer, constants and
scratch. -/
structure TaskPlace where
  home : Nat := 0
  wcopy : Nat := 0
  frozen : Nat := 0
  consts : Nat := 0
  scratch : Nat := 0
deriving DecidableEq, Repr

/-- A load as a fraction of natural numbers (R133). -/
abbrev Load := Nat × Nat

/-- An assignment of tasks to pairs (R134, R135): the tasks of each pair that may take tasks, those of no pair, those shed with
the step of R135, those over-committed, of them those that this run placed so, and the shut-down-class tasks that displaced
others. -/
structure Plan where
  pairs : List (Nat × List Nat) := []
  left : List Nat := []
  shed : List (Nat × Nat) := []
  full : List Nat := []
  overs : List Nat := []
  moved : List Nat := []
deriving DecidableEq, Repr

/-- What an exchange carries over (R121, R122): tasks, cells, loop slots and entries from their old numbers to their new ones;
task variables as (old task, offset), (new task, offset), bytes. -/
structure InstanceMap where
  matched : Nat := 0
  fresh : Nat := 0
  dropped : Nat := 0
  tasks : List (Nat × Nat) := []
  cells : List (Nat × Nat) := []
  slots : List (Nat × Nat) := []
  entries : List (Nat × Nat) := []
  vars : List ((Nat × Nat) × (Nat × Nat) × Nat) := []
deriving DecidableEq, Repr

/-- A task behind its registers (R88 to R112, R130 to R142, R154). -/
structure TaskRt where
  cur : Option TaskCycle := none
  /-- H_j, the task time of the last executed cycle (kept in tier 3), and of the last executed freeze (R112, R128). -/
  held : Int := 0
  lastTau : Option Nat := none
  frzTau : Nat := 0
  /-- A step is pending (R110). -/
  step : Bool := false
  /-- It has published since Run entry, so that its outputs apply (R102). -/
  live : Bool := false
  /-- PLACE: host pair, target of an outstanding move, tier-0 fill in progress. -/
  host : Option Nat := none
  goal : Option Nat := none
  fill : Bool := false
  /-- Execution times of the last 1,024 executed cycles in µs, newest first (R132), and whether M_j > B_j is recorded. -/
  meas : List Nat := []
  overB : Bool := false
  resp : Nat := 0
  tier0 : Nat := 0
  place : TaskPlace := {}
  /-- Offsets in tier 0 of the host of the working copy, the frozen-image buffer, constants and scratch (R142). -/
  inTier0 : List (Option Nat) := []
  /-- The on-board output values latched at the last P_n (R91). -/
  latched : List OutVal := []
  /-- S_n + 1 of the freeze instant at which a new period took effect (R127); 0 none. -/
  gridAt : Nat := 0
  digest : Nat := 0
  digestCycle : Nat := 0
  /-- E + 1 of the last publish; the lines of the last copy sent (R389). -/
  pubAt : Nat := 0
  lastLines : List (Nat × Nat × List Byte) := []
  /-- On the standby: the frozen image of its latest freeze instant (R381): index, τ_n at H_j, entries. -/
  sbFrozen : Option (Nat × List (Nat × Nat × Nat)) := none
  /-- After a takeover: the first execution is still to come (R393). -/
  resume : Bool := false
deriving DecidableEq, Repr

/-- SEQ, TMR and PLACE behind their registers (R88 to R156). -/
structure Sequencer where
  /-- From T_run to T_stop (R100 to R104). -/
  running : Bool := false
  tasks : Store TaskRt := []
  /-- Any master has written SEQ's RUN in this start, so the automatic run is dropped (R103). -/
  touched : Bool := false
  /-- Who wrote RUN or HOLD last (P2 of code 0x040). -/
  writer : Nat := 0
  /-- Station images: what each slot of the flash holds once verified; the loaded one. -/
  images : Store (Option StationImage) := []
  image : Option StationImage := none
  /-- The preparation of an exchange (R118): the image, the instance map, the placement. -/
  prep : Option (StationImage × InstanceMap × Plan) := none
  /-- E of the APPLY whose search runs (R119). -/
  searchAt : Nat := 0
  /-- The latest publish or loop write instant + 1, and what the entries written then held before it (R92, R164). -/
  pubAt : Nat := 0
  before : List OutVal := []
  /-- Retentive cells as tier 3 keeps them (R117): the words of a cell. -/
  kept : Store (List Word) := []
  /-- E + 1 of the last placement run (R138). -/
  lastRun : Nat := 0
  /-- Pages that PLACE keeps degraded are in `FaultColl`; tasks placed over-committed and shed are register masks. -/
  unplaced : List Nat := []
  /-- The outputs of the last cell call: Q or QU, QD, ET, CV or count (R111). -/
  cellQ : Bool := false
  cellQd : Bool := false
  cellV : Nat := 0
deriving DecidableEq, Repr

/-- A committed copy of a task on the standby (R384, R388). -/
structure Copied where
  cycle : Nat := 0
  tau : Nat := 0
  held : Int := 0
  pubT : Nat := 0
  digest : Nat := 0
  eligible : Bool := false
deriving DecidableEq, Repr

/-- The Dervor link and the pair behind their registers (R378 to R400). -/
structure PairRt where
  /-- SEQ of the next frame; SEQ values accepted, newest first (R382). -/
  txSeq : Nat := 0
  seen : List Nat := []
  /-- A claim waits for its 20 µs check: 0 none, 1 at Stop entry, 2 a takeover; with its cause of R391. Slot B waits
  CLAIM_WAIT. -/
  claim : Nat := 0
  cause : Nat := 0
  waiting : Bool := false
  /-- The partner's last heartbeat: role, state, mode, FLAGS, COMMITS; its T_TX and its receipt here; the T_TX of our last. -/
  pRole : Nat := 0
  pState : Nat := 0
  pMode : Nat := 0
  pFlags : Nat := 0
  pCommits : Nat := 0
  pShTask : Nat := 255
  pShCycle : Nat := 0
  pLastPub : Nat := 0
  pTx : Nat := 0
  pRx : Nat := 0
  myTx : Nat := 0
  /-- Reference ticks + 1 at which heartbeats were lost and DUTY_IN was released, while that stands; not Ready when the
  earlier of the two arose. -/
  lostAt : Nat := 0
  freeAt : Nat := 0
  unready : Bool := false
  /-- RESULT of the partner's latest PAIRING. -/
  pResult : Option Nat := none
  /-- COMMITs sent. -/
  commits : Nat := 0
  /-- Lines received and not committed: task, cycle, region, line, bytes; COPY frames received of (task, cycle). -/
  lines : List (Nat × Nat × Nat × Nat × List Byte) := []
  frames : List (Nat × Nat × Nat) := []
  copied : Store Copied := []
  full : List Nat := []
  /-- Snapshot in reception: number, time, parts; E + 1 of the last one loaded; our own number. -/
  snapIn : Nat := 0
  snapT : Nat := 0
  parts : List (Nat × List Byte) := []
  snapAt : Nat := 0
  snapNo : Nat := 0
  /-- A handover in progress: its cause and E of its request (R392). -/
  hoCause : Nat := 0
  hoAt : Nat := 0
  /-- The shadow check (R396): task and cycle asked for, skips in a row, first pair of a mismatch. -/
  shTask : Nat := 255
  shCycle : Nat := 0
  shSkips : Nat := 0
  shPair : Option Nat := none
  /-- The DIGEST to compare with, once the check of the asked cycle can run; the copied frozen-image lines of it. -/
  shDigest : Option Nat := none
  shFrozen : List (Nat × List Byte) := []
  /-- Reference tick at which this module became duty or the last switchover was (R398); 0x20B recorded in the episode. -/
  dutyAt : Nat := 0
  rotSeen : Bool := false
  /-- The first condition of R387 that fails, 0 none; READY_LOST reports of age and offset. -/
  oldCopy : Bool := false
  oldSnap : Bool := false
  ofsBad : Bool := false
  /-- Reference tick + 1 at which the offset failure began. -/
  ofsAt : Nat := 0
  /-- Of the last snapshot, per axis: AX_STATE, HOMED, at rest, running negative (R390, R393). -/
  axSnap : Store (Nat × Bool × Bool × Bool) := []
  /-- Copies sent in the last 100 ms: reference tick and bytes (R389). -/
  copyLog : List (Nat × Nat) := []
  /-- A DVL write or read asked of the partner: TAG of the next request. -/
  tag : Nat := 0
  lastResponse : Option (Nat × Nat × Nat) := none
  /-- E at which the old duty last published (R394), while the gap is open. -/
  gapFrom : Option Nat := none
  /-- Reference ticks at which CLAIM_WAIT began, DUTY_OUT was asserted for a claim, YIELD_OUT was asserted, and TAKE_IN last rose. -/
  waitAt : Nat := 0
  claimAt : Nat := 0
  yieldAt : Nat := 0
  takeAt : Nat := 0
  /-- Reference ticks of our last heartbeat, of the last one received, of the last PAIRING sent, of the pairing, of the last rotation
  asked for and of the last self-test; of each lane's last valid frame. -/
  hbAt : Option Nat := none
  rxAt : Nat := 0
  pairingAt : Option Nat := none
  pairedAt : Nat := 0
  rotAt : Option Nat := none
  testAt : Option Nat := none
  laneAt : Store (Option Nat) := []
  /-- The 1 ms boundary of the last snapshot sent. -/
  snapSent : Option Nat := none
deriving DecidableEq, Repr

/-- The whole state of the block, and the queue of the commands that wait. -/
structure State where
  /-- Register values in effect, under `regKey page offset index`. -/
  regs : Store Word := []
  /-- Shadows of the Staged registers (R68). -/
  shad : Store Word := []
  /-- Apply buffers of pending commits (R69). -/
  buf : Store Word := []
  /-- All memories of R54. -/
  mem : Memory := []
  /-- The flash, block b at b × 4,096 (R49). -/
  flash : Memory := []
  /-- 64-bit words (address / 8) that fail with an uncorrectable ECC error until written (R56). -/
  ecc : List Nat := []
  boot : Boot := {}
  pins : Pins := {}
  clk : Clocks := {}
  tsFifo : List TsEntry := []
  recd : Recorder := {}
  evd : EventDist := {}
  flt : FaultColl := {}
  bus : BusResult := {}
  cal : Calendar := {}
  tly : Tallies := {}
  /-- Frames sent, newest first (the model's own record of the wires). -/
  sent : List Sent := []
  eth : Store EthRt := []
  can : Store CanRt := []
  /-- Quality bits kept with each force shadow of the directory (R147). -/
  forceQ : Store Nat := []
  /-- Requested forces and releases that wait for the next base tick (R147): index and, for a force, the 16 bytes. -/
  forceReq : List (Nat × Option Nat) := []
  /-- Reference tick + 1 of the last record of each kind that is recorded at most once a second. -/
  lastRec : Store Nat := []
  pnl : Panel := {}
  dio : Store DioRt := []
  ana : Store AnaRt := []
  lpe : LoopEngine := {}
  /-- Extended station time + 1 of the last freeze of each task (R91). -/
  frozeAt : Store Nat := []
  ax : Store AxRt := []
  asrc : Store AsrcRt := []
  ang : Store AngSlot := []
  sync : SyncRt := {}
  dwy : Droveway := {}
  seq : Sequencer := {}
  pair : PairRt := {}
  /-- The number of free values used so far: the model's own field (assumption 1). -/
  freeUses : Nat := 0
  /-- Commands that wait, first in, first out. -/
  pending : List Instr := []
deriving DecidableEq, Repr

/-- The machine right after reset: no supply has been valid yet (R44 'no supply'), every register at the value of the
Reset column of its table or, where the spec gives none, at `Config.noResetValue`, every memory unwritten, nothing
waiting. -/
def State.reset : State := {}

end Sys2Proof.Machine
end

