-- ==== Sys2Proof/Machine/Ops.lean ====
section
/-! DEFINITION. The shared operations: registers and their fields, the page states and power domains, event records,
fault bits, the event distributor, station and stamp time, ownership. -/

namespace Sys2Proof.Machine

/-- The outcome of a command. -/
abbrev Out := Host.Outcome State Fault Refusal

/-! ### Numbers -/

/-- Bits `hi:lo` of a number. -/
def bits (n hi lo : Nat) : Nat := n / 2 ^ lo % 2 ^ (hi - lo + 1)

/-- Bit `b` of a number. -/
def bitOf (n b : Nat) : Bool := n / 2 ^ b % 2 == 1

/-- `n` with bits `hi:lo` replaced by `v` (modulo the field's width). -/
def putBits (n hi lo v : Nat) : Nat :=
  n - bits n hi lo * 2 ^ lo + v % 2 ^ (hi - lo + 1) * 2 ^ lo

/-- The signed reading of the low `w` bits of `n`. -/
def signed (w n : Nat) : Int :=
  let m := n % 2 ^ w
  if m < 2 ^ (w - 1) then Int.ofNat m else Int.ofNat m - Int.ofNat (2 ^ w)

/-- The low `w` bits of a signed number. -/
def unsigned (w : Nat) (i : Int) : Nat := (i % Int.ofNat (2 ^ w)).toNat

def b2n (b : Bool) : Nat := if b then 1 else 0

/-- A count that stops at its greatest value. -/
def satAdd (m n k : Nat) : Nat := if n + k ≤ m then n + k else m

/-! ### Registers -/

/-- The key of the register at offset `off` of page `page`; `idx` is the index of a window (0 for a plain register). -/
def regKey (page off idx : Nat) : Nat := (idx * 512 + page) * 4096 + off

def keyPage (k : Nat) : Nat := k / 4096 % 512
def keyOff (k : Nat) : Nat := k % 4096
def keyIdx (k : Nat) : Nat := k / 4096 / 512

/-- The reset word of a key. -/
def keyReset (k : Nat) : Word := resetWord (keyPage k) (keyOff k) (keyIdx k)

/-- The number of a fault bit in FLT. -/
def faultKey (page bit : Nat) : Nat := page * 64 + bit

namespace State

/-- The value in effect of a register. -/
def reg (s : State) (page off : Nat) (idx : Nat := 0) : Word :=
  Store.get (resetWord page off idx) s.regs (regKey page off idx)

def setReg (s : State) (page off : Nat) (w : Word) (idx : Nat := 0) : State :=
  { s with regs := Store.set (resetWord page off idx) s.regs (regKey page off idx) w }

/-- The value in effect of a field, as a number. -/
def get (s : State) (page : Nat) (f : Fld) (idx : Nat := 0) : Nat := bits (s.reg page f.off idx).toNat f.hi f.lo

/-- Write a field; the value is taken modulo the field's width. -/
def put (s : State) (page : Nat) (f : Fld) (v : Nat) (idx : Nat := 0) : State :=
  s.setReg page f.off (BitVec.ofNat 32 (putBits (s.reg page f.off idx).toNat f.hi f.lo v)) idx

def putB (s : State) (page : Nat) (f : Fld) (b : Bool) (idx : Nat := 0) : State := s.put page f (b2n b) idx

def on (s : State) (page : Nat) (f : Fld) (idx : Nat := 0) : Bool := s.get page f idx != 0

/-- The shadow of a Staged register (R68). -/
def shadow (s : State) (page off : Nat) (idx : Nat := 0) : Word :=
  Store.get (resetWord page off idx) s.shad (regKey page off idx)

def setShadow (s : State) (page off : Nat) (w : Word) (idx : Nat := 0) : State :=
  { s with shad := Store.set (resetWord page off idx) s.shad (regKey page off idx) w }

def setBoot (s : State) (b : Boot) : State := { s with boot := b }

/-- Count up in a field that saturates. -/
def incSat (s : State) (page : Nat) (f : Fld) (k : Nat := 1) (idx : Nat := 0) : State :=
  s.put page f (satAdd (2 ^ (f.hi - f.lo + 1) - 1) (s.get page f idx) k) idx

/-- Count up in a field modulo its width. -/
def incMod (s : State) (page : Nat) (f : Fld) (k : Nat := 1) (idx : Nat := 0) : State :=
  s.put page f (s.get page f idx + k) idx

/-- The next free value: a word that nothing constrains (assumption 1). -/
def freeWord (s : State) : Word := Config.freeWord s.freeUses
def useFree (s : State) (n : Nat := 1) : State := { s with freeUses := s.freeUses + n }

/-- `n` free bytes, to be followed by `useFree n`. -/
def freeBytes (s : State) (n : Nat) : List Byte := (List.range n).map (fun i => (Config.freeWord (s.freeUses + i)).setWidth 8)

/-! ### Power domains and page states (R32, R64, R67) -/

/-- `PWR.DOM_STATE` of domain `d`: 0 off, 1 starting, 2 on, 3 failed. -/
def dom (s : State) (d : Nat) : Nat := bits (s.get pgPWR PWR.DOM_STATE.STATE) (2 * d + 1) (2 * d)

def setDom (s : State) (d v : Nat) : State :=
  s.put pgPWR PWR.DOM_STATE.STATE (putBits (s.get pgPWR PWR.DOM_STATE.STATE) (2 * d + 1) (2 * d) v)

/-- The domain of a page is on. -/
def pageOn (s : State) (page : Nat) : Bool := s.dom (domainOf page) == 2

/-- `STATUS.STATE` as it reads: 0 off while the domain is off or starts, 5 fenced while it has failed (R64, R67). -/
def st (s : State) (page : Nat) : Nat :=
  match s.dom (domainOf page) with
  | 0 | 1 => 0
  | 3 => 5
  | _ => s.get page HDR.STATUS.STATE

def setSt (s : State) (page v : Nat) : State := s.put page HDR.STATUS.STATE v

/-- The run-time part of a task. -/
def task (s : State) (k : Nat) : TaskRt := Store.get {} s.seq.tasks k
def setTask (s : State) (k : Nat) (t : TaskRt) : State := { s with seq := { s.seq with tasks := Store.set {} s.seq.tasks k t } }

/-- A core pair hosts a task (R496). -/
def hostsTask (s : State) (p : Nat) : Bool := s.seq.tasks.any (fun e => e.2.host == some p)

/-- A DEGRADE reaction or a condition of the block's own keeps the page degraded (R409). -/
def isDegraded (s : State) (page : Nat) : Bool :=
  s.flt.ownDegraded.contains page || s.flt.degraded.any (fun k => k / 64 == page)

/-- The STATE that the stored RUN and HOLD of a page give (R67, R414). SEQ is in Run from T_run to T_stop and TMR follows it
(R100); PLACE runs while an image is loaded (R131); a core pair runs on while it hosts tasks (R496); a station page follows
ENABLE (R325). Only SEQ, ETH and CAN support hold: every other block with a RUN of its own says that it has none. -/
def runState (s : State) (page : Nat) : Nat :=
  match pageKind page with
  | none => 0
  | some (k, i) =>
    match k with
    | .seq => if s.seq.running then (if s.on pgSEQ HDR.CTRL.HOLD then 4 else 3) else 2
    | .tmr => if s.seq.running then (if s.on pgSEQ HDR.CTRL.HOLD then 4 else if s.isDegraded pgSEQ then 6 else 3) else 2
    | .place => if s.seq.image.isSome then 3 else 2
    | .cp => if s.on page HDR.CTRL.RUN || s.hostsTask i then 3 else 2
    | .stn => if s.on page STN.CFG.ENABLE then 3 else 2
    | .eth | .can => if s.on page HDR.CTRL.RUN then (if s.on page HDR.CTRL.HOLD then 4 else 3) else 2
    | _ => if runAlwaysOne k then 3 else if s.on page HDR.CTRL.RUN then 3 else 2

def isFenced (s : State) (page : Nat) : Bool := s.flt.fenced.contains page

/-- STATE of a page whose domain is on, from its RUN and HOLD, its degradation and its fence (R67, R409, R410). -/
def refreshState (s : State) (page : Nat) : State :=
  if s.isFenced page then s.setSt page 5
  else
    let r := s.runState page
    s.setSt page (if r = 3 ∧ s.isDegraded page = true then 6 else r)

/-- A condition of the block's own degrades the page, or ceases to. -/
def ownDegrade (s : State) (page : Nat) (d : Bool) : State :=
  ({ s with flt := { s.flt with ownDegraded := (
      if d then insNum page s.flt.ownDegraded else delNum page s.flt.ownDegraded) } } : State).refreshState page

/-- The block runs: STATE is running, held or degraded. -/
def active (s : State) (page : Nat) : Bool := s.st page == 3 || s.st page == 4 || s.st page == 6

/-! ### Time (R89, R267, R269) -/

/-- `TIME.STN_NS`, `TIME.STP_NS`. -/
def stnNs (s : State) : Nat := s.clk.stn.toNat / 2 ^ 24
def stpNs (s : State) : Nat := s.clk.stp.toNat / 2 ^ 24

/-- Extended station time E and extended stamp time (R269). -/
def e (s : State) : Nat := s.clk.stnHi.toNat * 2 ^ 32 + s.stnNs
def eStp (s : State) : Nat := s.clk.stpHi.toNat * 2 ^ 32 + s.stpNs

/-- TICK of R89. -/
def tick (s : State) : Nat := s.e / 250000

/-- Reference time since PD1 start in ns. -/
def refNs (s : State) : Nat := s.clk.ref * 10

/-! ### Event records (R438, R441) -/

/-- A parameter word of a record: the value the code's row names, or a free value where the row names none
(assumption 1). -/
def param (s : State) (p : List Nat) (k : Nat) : Nat :=
  match p[k]? with
  | some v => v % 4294967296
  | none => (Config.freeWord (s.freeUses + k)).toNat

/-- A block raises an event record: it is stamped here and REC receives it later (R440). -/
def note (s : State) (page code : Nat) (sub : Nat := 0) (p : List Nat := []) : State :=
  { s with
    freeUses := s.freeUses + 3
    recd := { s.recd with raised := s.recd.raised ++ [{
      code := code, page := page, sub := sub, p0 := s.param p 0, p1 := s.param p 1, p2 := s.param p 2
      ns := s.stpNs
      wrap := (s.get pgREC REC.EPOCH + s.get pgREC REC.PEND) % 4294967296
      late := !(s.on pgTIME TIME.STATUS.STP_TRUST) || s.on pgREC REC.STATUS.EPOCH_STALE
      at_ := s.clk.ref }] } }

/-! ### Faults (R66, R404, R412) -/

/-- PD1 is on: the supervisor has started it and it has not been switched off since (R42). -/
def pd1 (s : State) : Bool := s.boot.phase != .unpowered && s.boot.phase != .supplied

/-- FLT, while PD1 is on, sees a rising edge of a bit that it does not hold and has not queued: RAISES counts it and
SRC_LAST_T takes its instant (R420). -/
def edge (s : State) (key : Nat) : State :=
  if !s.pd1 || s.flt.held.contains key || s.flt.edges.contains key then s
  else match srcNum (key / 64) (key % 64) with
    | none => s
    | some n =>
      (({ s with flt := { s.flt with edges := s.flt.edges ++ [key] } } : State).incSat pgFLT FLT.SRC_STAT.RAISES 1 n).put
        pgFLT FLT.SRC_LAST_T s.stnNs n

/-- A block sets bit `b` of its page's FAULT register; FLT sees it where FAULT_EN has the bit (R66). -/
def setFault (s : State) (page b : Nat) : State :=
  let s1 := s.setReg page 0x010 (s.reg page 0x010 ||| BitVec.ofNat 32 (2 ^ b))
  if bitOf (s.reg page 0x014).toNat b then s1.edge (faultKey page b) else s1

/-- The condition behind a fault bit begins or ends to stand (R412). -/
def cond (s : State) (page b : Nat) (stands : Bool) : State :=
  { s with flt := { s.flt with conds := (
      if stands then insNum (faultKey page b) s.flt.conds else delNum (faultKey page b) s.flt.conds) } }

/-- The block's page clears a fault bit; FLT no longer holds it (R412). -/
def clearFault (s : State) (page b : Nat) : State :=
  let s1 := s.setReg page 0x010 (s.reg page 0x010 &&& ~~~ BitVec.ofNat 32 (2 ^ b))
  { s1 with flt := { s1.flt with
      held := delNum (faultKey page b) s1.flt.held
      edges := s1.flt.edges.filter (fun x => x != faultKey page b)
      degraded := delNum (faultKey page b) s1.flt.degraded } }

/-- The class in force of a source number (R407). -/
def classOf (s : State) (src : Nat) : Nat := s.get pgFLT FLT.SRC_CFG.CLASS src

/-- The class in force of a fault bit of a page. -/
def classOfBit (s : State) (key : Nat) : Nat :=
  match srcNum (key / 64) (key % 64) with
  | some n => s.classOf n
  | none => 0

/-- A source of class `c` is active. -/
def activeClass (s : State) (c : Nat) : Bool := s.flt.held.any (fun k => s.classOfBit k == c)

/-! ### Events (R80 to R82) -/

/-- The number of entries queued for a pair. -/
def evDepth (s : State) (pair : Nat) : Nat := (s.evd.queue.filter (fun q => q.pair == pair)).length

/-- An event of source `src` for a pair whose queue is full is dropped (R81). -/
def evDrop (s : State) (pair src : Nat) : State :=
  ((s.put pgEVD ⟨0x04C, 8 * pair + 7, 8 * pair⟩
      (satAdd 255 (bits (s.reg pgEVD 0x04C).toNat (8 * pair + 7) (8 * pair)) 1)).setFault pgEVD 16).note pgEVD 0x028
    pair [src]

/-- An event of source `src` with station-time stamp `stamp` enters the queue of its routed pair, or is dropped (R81). DESIGN
CHOICE (assumption 219): its PRIO and VECTOR are those of the route at this instant, not those at the take. -/
def enqueueEvent (s : State) (src stamp : Nat) (moved : Bool) : State :=
  let pair := s.get pgEVD EVD.ROUTE_DATA.PAIR src
  if s.evDepth pair < 256 then
    { s with evd := { s.evd with queue := s.evd.queue ++ [{
        pair := pair, src := src, prio := s.get pgEVD EVD.ROUTE_DATA.PRIO src
        vec := s.get pgEVD EVD.ROUTE_DATA.VECTOR src, stamp := stamp, moved := moved }] } }
  else s.evDrop pair src

/-- A hardware event of source `src` arrives (R81); a source whose route is being moved holds it back (R82). -/
def event (s : State) (src : Nat) : State :=
  if s.on pgEVD EVD.ROUTE_DATA.EN src then
    (if s.evd.moving.contains src then
      { s with evd := { s.evd with heldBack := s.evd.heldBack ++ [(src, s.stnNs)] } }
    else s.enqueueEvent src s.stnNs false)
  else s

/-- An event on the dedicated line to every pair that is not fenced (R83). -/
def lineEvent (s : State) (kind : Nat) : State :=
  { s with evd := { s.evd with
      lines := s.evd.lines ++ ((List.range 4).filter (fun p => s.st (pgCP p) != 5)).map (fun p => (p, kind)) } }

/-! ### Tallies (R434, R436) -/

/-- The current value of counter `i`; indices 120 to 127 are reserved and read 0. -/
def tally (s : State) (i : Nat) : Nat := Store.get 0 s.tly.val i

/-- Counter `i` stands at or above its non-zero threshold and its test is armed: the WARN bit, THRESHOLD, source 0x388
and code 0x241 (R436). -/
def tallyCheck (s : State) (i : Nat) : State :=
  let v := s.tally i
  let thr := Store.get 0 s.tly.thr i
  if thr ≠ 0 ∧ thr ≤ v ∧ bitOf (s.get pgTLY (TLY.WARN (i / 32))) (i % 32) = false then
    ((((s.put pgTLY (TLY.WARN (i / 32)) (s.get pgTLY (TLY.WARN (i / 32)) + 2 ^ (i % 32))).setFault pgTLY 16).event
      0x388).note pgTLY 0x241 0 [i, v, v / 4294967296])
  else s

/-- Set counter `i`, saturating at 2^64 − 1, and test its threshold. -/
def tallySet (s : State) (i v : Nat) : State :=
  if 120 ≤ i ∧ i ≤ 127 then s
  else ({ s with tly := { s.tly with val := Store.set 0 s.tly.val i (min v 18446744073709551615) } } : State).tallyCheck i

/-- Counter `i` counts `n` up. -/
def tallyAdd (s : State) (i n : Nat) : State := s.tallySet i (s.tally i + n)

/-- The counter that counts the records of a code (R434). -/
def tallyOfCode (code : Nat) : Option Nat :=
  if code = 0x002 then some 12 else if code = 0x006 then some 115 else if code = 0x008 then some 116
  else if code = 0x025 then some 117 else if code = 0x143 then some 119 else if code = 0x205 then some 110
  else if code = 0x046 then some 111 else none

/-- A block raises an event record, and the tally that counts its code rises (R434, R438). -/
def raise (s : State) (page code : Nat) (sub : Nat := 0) (p : List Nat := []) : State :=
  let s1 := s.note page code sub p
  match tallyOfCode code with
  | some i => s1.tallyAdd i 1
  | none => s1

/-! ### Ownership (R73 to R75) -/

/-- The master that OWNER of a page names. -/
def owner (s : State) (page : Nat) : Nat := s.get page HDR.OWNER

/-- A write that R73 refuses: OWNER_REFUSED and code 0x020. -/
def refuseOwner (s : State) (page off m : Nat) : State :=
  (s.setFault page 1).raise page 0x020 0 [off, m, s.owner page]

/-! ### Frames -/

/-- A frame leaves on a wire. -/
def send (s : State) (port kind : Nat) (body : List Nat) : State :=
  { s with sent := { port := port, kind := kind, body := body, at_ := s.e } :: s.sent }

/-! ### Mode questions -/

/-- SEQ is in Run or Hold: its STATE is running, held or degraded (R100, R275). -/
def inRun (s : State) : Bool := s.st pgSEQ == 3 || s.st pgSEQ == 4 || s.st pgSEQ == 6

/-- A hold-up, shutdown or restart sequence runs. -/
def inSequence (s : State) : Bool := s.boot.seqKind != .none

/-- An output may be driven (R44, R356): Stop has been reached, the module is duty or runs without a partner, the block's
domain is on, it is not fenced, and no hold-up or shutdown sequence runs. -/
def mayDrive (s : State) (page : Nat) : Bool :=
  s.boot.reachedStop && (s.get pgPAIR PAIR.STATUS.ROLE == 1 || s.get pgPAIR PAIR.STATUS.PAIR_STATE == 1)
    && s.pageOn page && !s.isFenced page && !s.inSequence && s.boot.phase != .parked

/-- The alarm contact conducts (R19, R45). -/
def alarmClosed (s : State) : Bool :=
  s.boot.reachedStop && !s.boot.watchdogHit && !s.activeClass 3 && !s.inSequence && s.boot.phase != .parked
    && !(s.on pgSUP SUP.ALARM.ALM_ON_FENCE && s.activeClass 2)

end State

/-! ### Folds of state transformers -/

/-- Apply `f` to each of a list of numbers in turn. -/
def forEach (l : List Nat) (f : State → Nat → State) (s : State) : State := l.foldl f s

/-- `f` where `c` holds, the state unchanged where it does not. -/
def onlyIf (c : Bool) (f : State → State) (s : State) : State := if c then f s else s

/-! ### Staged words (R69 to R71) -/

/-- The bits of the Staged fields of a register. -/
def stagedMask (page off : Nat) : Nat :=
  match pageKind page with
  | some (k, _) => ((rowsAt k off).filter (fun r => r.cls == FClass.staged)).foldl (fun acc r => acc + maskOf r.hi r.lo) 0
  | none => 0

/-- The bits of the fields that the table gives a register (R5). -/
def fieldMask (page off : Nat) : Nat :=
  match pageKind page with
  | some (k, _) => (rowsAt k off).foldl (fun acc r => acc ||| maskOf r.hi r.lo) 0
  | none => 0

namespace State

/-- Keys of the Staged registers of a page that are listed in `m`. -/
def stagedIn (page : Nat) (m : Store Word) : List Nat :=
  (m.map (fun e => e.1)).filter (fun k => keyPage k == page && stagedMask page (keyOff k) != 0)

/-- Keys whose value in `m` can differ from the applied one. -/
def stagedKeys (s : State) (page : Nat) (m : Store Word) : List Nat := (stagedIn page m ++ stagedIn page s.regs).dedup

/-- The applied word that the buffer gives a register: its Staged fields from the buffer, the others as they stand. -/
def merged (s : State) (page k : Nat) : Word :=
  let m := BitVec.ofNat 32 (stagedMask page (keyOff k))
  (Store.get (keyReset k) s.regs k &&& ~~~ m) ||| (Store.get (keyReset k) s.buf k &&& m)

/-- The state in which the buffered words `keys` of a page are applied. -/
def withBuffer (s : State) (page : Nat) (keys : List Nat) : State :=
  { s with regs := keys.foldl (fun r k => Store.set (keyReset k) r k (s.merged page k)) s.regs }

/-- The pending commit of a page ends: PENDING clears and its buffer is dropped. -/
def commitDrop (s : State) (page : Nat) : State :=
  ({ s with buf := s.buf.filter (fun e => keyPage e.1 != page) } : State).put page HDR.COMMIT.PENDING 0

/-- The commit has taken effect. -/
def commitDone (s : State) (page : Nat) : State := (s.commitDrop page).incMod page HDR.STAGE_SEQ

end State
end Sys2Proof.Machine
end

