-- ==== Sys2Proof/Machine/Image.lean ====
section
/-! DEFINITION. The process image: the directory and its entries (R144, R145), values in the memory tiers, the
producer's write with its quality (R145, R147), and memory as the blocks reach it. -/

namespace Sys2Proof.Machine

/-- Bases of the physical map (R54). -/
def dramBase : Nat := 0x0000000000
def tier0Alias : Nat := 0x0100000000
def tier0Base (p : Nat) : Nat := 0x0100100000 + p * 0x100000
def tier1Base : Nat := 0x0110000000
def mramRec : Nat := 0x0120000000
def mramRet : Nat := 0x0120800000
def mramCfg : Nat := 0x0120C00000
def loopBase : Nat := 0x0130000000
def dirBase : Nat := 0x0130100000
def traceBase : Nat := 0x0130200000
def pageBase : Nat := 0x0140000000
def forceBase : Nat := 0x0110780000

/-- An address in tier 1 or tier 2, with `n` bytes: where descriptors, buffers and CAN arrays lie (R328, R341). -/
def inTier12 (a n : Nat) : Bool :=
  decide (a + n ≤ 0x80000000) || (decide (tier1Base ≤ a) && decide (a + n ≤ tier1Base + 0x800000))

/-- Trace memory, which FLASH_DMA may point into for a write to the flash (R199). -/
def inTrace (a n : Nat) : Bool := decide (traceBase ≤ a) && decide (a + n ≤ traceBase + 0x100000)

/-- Bytes of one element of a directory TYPE (R145); 0 for a free or reserved type. -/
def typeSize (t : Nat) : Nat :=
  if t = 1 ∨ t = 2 ∨ t = 6 ∨ t = 12 then 1
  else if t = 3 ∨ t = 7 ∨ t = 13 then 2
  else if t = 4 ∨ t = 8 ∨ t = 14 ∨ t = 10 ∨ t = 17 then 4
  else if t = 5 ∨ t = 9 ∨ t = 15 ∨ t = 11 ∨ t = 16 then 8
  else 0

/-- Quality bits of W3 as a number: BAD 8, STALE 4, UNCERTAIN 2, SUBST 1 (R144). -/
abbrev Quality := Nat
def qBAD : Quality := 8
def qSTALE : Quality := 4
def qUNCERTAIN : Quality := 2
def qSUBST : Quality := 1

def OutVal.bad (o : OutVal) : Bool := bitOf o.w3 31
def OutVal.gen (o : OutVal) : Nat := bits o.w3 27 16
def OutVal.word (o : OutVal) : Word := BitVec.ofNat 32 o.val

namespace State

def memRd (s : State) (a n : Nat) : Nat := Memory.rdLE s.mem a n

/-- 64-bit words that `n` bytes from `a` on are written to: they fail no more (R56). DESIGN CHOICE (assumption 220): a write
of fewer than 8 bytes makes its whole word good. -/
def eccClear (s : State) (a n : Nat) : State :=
  { s with ecc := s.ecc.filter (fun x => !(decide (a / 8 ≤ x) && decide (8 * x < a + n))) }

def memWr (s : State) (a n v : Nat) : State := { s.eccClear a n with mem := Memory.wrLE s.mem a n v }
def memPut (s : State) (a : Nat) (b : List Byte) : State := { s.eccClear a b.length with mem := Memory.put s.mem a b }

/-- `n` bytes at `dst` become those at `src` of `source`. -/
def memCopy (s : State) (dst : Nat) (source : Memory) (src n : Nat) : State :=
  { s.eccClear dst n with mem := Memory.copy s.mem dst source src n }

/-- Word `w` of directory entry `i` (R144). -/
def dirW (s : State) (i w : Nat) : Nat := s.memRd (dirBase + i * 16 + w * 4) 4
def setDirW (s : State) (i w v : Nat) : State := s.memWr (dirBase + i * 16 + w * 4) 4 v

def dirType (s : State) (i : Nat) : Nat := bits (s.dirW i 1) 31 26
def dirCount (s : State) (i : Nat) : Nat := bits (s.dirW i 1) 25 16
def dirProdKind (s : State) (i : Nat) : Nat := bits (s.dirW i 1) 15 13
def dirProdId (s : State) (i : Nat) : Nat := bits (s.dirW i 1) 12 0
def dirConsumers (s : State) (i : Nat) : Nat := s.dirW i 2
def dirQual (s : State) (i : Nat) : Quality := bits (s.dirW i 3) 31 28
def dirGen (s : State) (i : Nat) : Nat := bits (s.dirW i 3) 27 16
def dirForced (s : State) (i : Nat) : Bool := bitOf (s.dirW i 3) 13
def dirBit (s : State) (i b : Nat) : Bool := bitOf (s.dirW i 3) b

/-- Value size of an entry in bytes (R145). -/
def dirSize (s : State) (i : Nat) : Nat := typeSize (s.dirType i) * s.dirCount i

/-- The address of an entry's value (R144): tier, offset and, in tier 0, the pair. -/
def dirAddr (s : State) (i : Nat) : Nat :=
  let w0 := s.dirW i 0
  let ofs := bits w0 28 0 * 4
  match bits w0 31 30 with
  | 0 => tier0Base (bits (s.dirW i 3) 7 6) + ofs
  | 1 => tier1Base + ofs
  | 2 => dramBase + ofs
  | _ => mramRet + ofs

/-- The value standing in an entry, as a little-endian number. -/
def imgVal (s : State) (i : Nat) : Nat := s.memRd (s.dirAddr i) (s.dirSize i)

/-- BOOL uses bit 0 of its byte (R145). -/
def imgBool (s : State) (i : Nat) : Bool := bitOf (s.memRd (s.dirAddr i) 1) 0

/-- The first four bytes of an entry: a REAL, UDINT, DINT or WORD value. -/
def imgWord (s : State) (i : Nat) : Word := BitVec.ofNat 32 (s.memRd (s.dirAddr i) 4)

def imgBad (s : State) (i : Nat) : Bool := bitOf (s.dirQual i) 3

/-- An entry as one access gives it (R145). -/
def imgOut (s : State) (i : Nat) : OutVal := { entry := i, val := s.imgVal i, w3 := s.dirW i 3 }

/-- What entry `i` held strictly before instant `at_`: what publishes and loop output writes of that very instant
replaced (R92, R164). -/
def imgBefore (s : State) (i at_ : Nat) : OutVal :=
  match if s.seq.pubAt = at_ + 1 then s.seq.before.find? (fun o => o.entry == i) else none with
  | some o => o
  | none => s.imgOut i

/-- What entry `i` holds before a publish or a loop output write at instant `p` (R92, R164). -/
def keepBefore (s : State) (p i : Nat) : State :=
  let old := if s.seq.pubAt = p + 1 then s.seq.before else []
  { s with seq := { s.seq with pubAt := p + 1, before := if old.any (fun o => o.entry == i) then old else s.imgOut i :: old } }

/-- The process image as a read at this instant sees it: with what the entries written by publishes and loop outputs of this very
instant held before (R164, R180). -/
def asBefore (s : State) : State :=
  if s.seq.pubAt = s.e + 1 then
    s.seq.before.foldl (fun (u : State) o => (u.memWr (u.dirAddr o.entry) (u.dirSize o.entry) o.val).setDirW o.entry 3 o.w3) s
  else s

/-- The producer's write of a value and its quality (R145, R147). While the entry is forced, the value goes to the force
shadow and the quality is kept with it; GEN counts the write in either case, and RISE and FALL of a BOOL compare with
the producer's previous value. -/
def imgWrite (s : State) (i : Nat) (v : Nat) (q : Quality) : State :=
  let forced := s.dirForced i
  let a := if forced then forceBase + i * 16 else s.dirAddr i
  let old := bitOf (s.memRd a 1) 0
  let new := bitOf v 0
  let isBool := s.dirType i == 1
  let w3 := s.dirW i 3
  let w3a := putBits w3 27 16 (bits w3 27 16 + 1)
  let w3b := if isBool then putBits (putBits w3a 15 15 (b2n (!old && new))) 14 14 (b2n (old && !new)) else w3a
  let w3c := if forced then w3b else putBits w3b 31 28 q
  let s1 := (s.memWr a (s.dirSize i) v).setDirW i 3 w3c
  if forced then { s1 with forceQ := Store.set 0 s1.forceQ i q } else s1

/-- A write of a word into an entry. -/
def imgWriteWord (s : State) (i : Nat) (v : Word) (q : Quality) : State := s.imgWrite i v.toNat q
def imgWriteBool (s : State) (i : Nat) (v : Bool) (q : Quality) : State := s.imgWrite i (b2n v) q

/-- A change of quality bits alone, the value kept: `f` maps the old bits to the new ones. While the entry is forced, the
bits kept with the shadow change. -/
def imgQual (s : State) (i : Nat) (f : Quality → Quality) : State :=
  if s.dirForced i then { s with forceQ := Store.set 0 s.forceQ i (f (Store.get 0 s.forceQ i)) }
  else s.setDirW i 3 (putBits (s.dirW i 3) 31 28 (f (s.dirQual i)))

/-- A record that is made at most once a second of reference time: `key` names the kind and the unit. -/
def mayRecord (s : State) (key : Nat) : Bool :=
  let l := Store.get 0 s.lastRec key
  l == 0 || decide (l - 1 + 100000000 ≤ s.clk.ref)

def markRecord (s : State) (key : Nat) : State :=
  { s with lastRec := Store.set 0 s.lastRec key (s.clk.ref + 1) }

/-! ### First-error capture (R417) -/

/-- LEG captures an access that ends in a bus error: `ty` 0 read, 1 write, 2 fetch; `master` as `FE_INFO.MASTER`. -/
def legCapture (s : State) (addr ty master : Nat) : State :=
  let s1 := s.incSat pgLEG LEG.FE_COUNT
  if s.on pgLEG LEG.FE_INFO.VALID then s1.put pgLEG LEG.FE_INFO.MORE 1
  else (((((s1.put pgLEG LEG.FE_ADDR_LO addr).put pgLEG LEG.FE_ADDR_HI.ADDR_HI (addr / 2 ^ 32)).put pgLEG
    LEG.FE_INFO.VALID 1).put pgLEG LEG.FE_INFO.MASTER master).put pgLEG LEG.FE_INFO.TYPE ty).put pgLEG LEG.FE_TIME
    s.stnNs

/-- A DMA access that meets an address not permitted to it: LEG and code 0x027 (R87, R417). -/
def dmaError (s : State) (page addr ty master : Nat) : State :=
  (s.legCapture addr ty master).raise page 0x027 0 [addr, addr / 2 ^ 32, ty]

/-! ### Accesses to pages from outside (R64, R73) -/

/-- Register pages are served: PD1 is on and the part is not in ROM recovery (R39, R62). -/
def served (s : State) : Bool :=
  s.boot.phase != .unpowered && s.boot.phase != .supplied && s.boot.phase != .romRecovery

/-- Commands of master `m` are served: in a maintenance start those of the service port alone (R47). -/
def servedTo (s : State) (m : Nat) : Bool := s.served && (!s.boot.maint || m == 2)

/-- Any write to a SUP register but UNLOCK ends an unlock sequence that has seen only its first key (R51). -/
def supTouch (s : State) : State :=
  if s.boot.unlock = 1 then (s.setBoot { s.boot with unlock := 0 }) else s

/-- Any write to a TLY register but UNLOCK ends an unlock sequence that has seen only its first key (R437). -/
def tlyTouch (s : State) : State :=
  if s.tly.unlock = 1 then { s with tly := { s.tly with unlock := 0 } } else s

/-- A write to the register at `off` of a page comes between two keys of its unlock sequence (R51, R437). -/
def pageTouch (s : State) (page off : Nat) : State :=
  if page = pgSUP ∧ off ≠ 0x064 then s.supTouch else if page = pgTLY ∧ off ≠ 0x060 then s.tlyTouch else s

/-- A write by master `m` to an action register at `off` of a page: not served at all; refused by owner (R73); ignored
while the block's domain is off or has failed (R64); else `f`. -/
def action (s : State) (page off m : Nat) (f : State → State) : State :=
  if !s.servedTo m then s
  else if s.owner page != m then s.refuseOwner page off m
  else if decide (0x040 ≤ off) && !s.pageOn page then s
  else f (s.pageTouch page off)

/-- The same for a command register with a result field: a refusal by owner also writes `v` to it (R73). -/
def actionRes (s : State) (page off m : Nat) (res : Fld) (v : Nat) (f : State → State) : State :=
  if s.servedTo m && s.owner page != m then (s.refuseOwner page off m).put page res v else s.action page off m f

/-- A read access on the fabric returns `v`. -/
def answer (s : State) (v : Nat) : State := { s with bus := { cause := 0, data := BitVec.ofNat 64 v } }

end State

end Sys2Proof.Machine
end

