-- ==== Sys2Proof/Machine/Cal.lean ====
section
/-! DEFINITION. CAL: the calendar in PD0, its commit groups, the alarm, the wake grid and the trust flags (R422 to
R432). -/

namespace Sys2Proof.Machine

/-- A year from 2000 to 2199 is a leap year when it is divisible by 4, except 2100 (R422). -/
def leap (y : Nat) : Bool := y % 4 == 0 && y != 2100

/-- The length of a month (R422). -/
def monthLen (y m : Nat) : Nat :=
  if m = 2 then (if leap y then 29 else 28) else if m = 4 ∨ m = 6 ∨ m = 9 ∨ m = 11 then 30 else 31

/-- Days from 2000-01-01 to the first day of year 2000 + n. -/
def daysToYear : Nat → Nat
  | 0 => 0
  | n + 1 => daysToYear n + (if leap (2000 + n) then 366 else 365)

/-- Days of year `y` before month `m + 1`. -/
def daysToMonth (y : Nat) : Nat → Nat
  | 0 => 0
  | n + 1 => daysToMonth y n + monthLen y (n + 1)

/-- Days since 2000-01-01. -/
def dayNum (y m d : Nat) : Nat := daysToYear (y - 2000) + daysToMonth y (m - 1) + (d - 1)

/-- 1 for Monday to 7 for Sunday (R422); 2000-01-01 was a Saturday. -/
def weekday (y m d : Nat) : Nat := (dayNum y m d + 5) % 7 + 1

/-- The month and day of day number `n` of year `y`, searched from month 12 down. -/
def monthOf (y n : Nat) : Nat → Nat × Nat
  | 0 => (1, n + 1)
  | m + 1 => if daysToMonth y m ≤ n then (m + 1, n - daysToMonth y m + 1) else monthOf y n m

/-- The year of a day number, searched from 2000 + k down, and the day within it. -/
def yearOf (n : Nat) : Nat → Nat × Nat
  | 0 => (2000, n)
  | k + 1 => if daysToYear (k + 1) ≤ n then (2000 + (k + 1), n - daysToYear (k + 1)) else yearOf n k

/-- Year, month and day of a day number. -/
def dateOf (n : Nat) : Nat × Nat × Nat :=
  let (y, r) := yearOf n 199
  let (m, d) := monthOf y r 12
  (y, m, d)

/-- The date word of R452. -/
def dateWord (y m d : Nat) : Nat := y * 65536 + weekday y m d * 8192 + m * 256 + d

/-- The time word of R452. -/
def timeWord (h mi sec : Nat) : Nat := h * 65536 + mi * 256 + sec

namespace CalTime

def date (t : CalTime) : Nat := dateWord t.year t.month t.day
def time (t : CalTime) : Nat := timeWord t.hour t.minute t.second
def day0 (t : CalTime) : Nat := dayNum t.year t.month t.day
def secOfDay (t : CalTime) : Nat := t.hour * 3600 + t.minute * 60 + t.second

/-- The instant in 1/256 s since 2000-01-01 00:00:00. -/
def units (t : CalTime) : Nat := (t.day0 * 86400 + t.secOfDay) * 256 + t.frac

/-- The next second (R422), the last second of 2199 aside. -/
def nextSecond (t : CalTime) : CalTime :=
  if t.second < 59 then { t with second := t.second + 1 }
  else if t.minute < 59 then { t with second := 0, minute := t.minute + 1 }
  else if t.hour < 23 then { t with second := 0, minute := 0, hour := t.hour + 1 }
  else if t.day < monthLen t.year t.month then { t with second := 0, minute := 0, hour := 0, day := t.day + 1 }
  else if t.month < 12 then { t with second := 0, minute := 0, hour := 0, day := 1, month := t.month + 1 }
  else { t with second := 0, minute := 0, hour := 0, day := 1, month := 1, year := t.year + 1 }

/-- The last 1/256 s of 2199 (R432). -/
def last (t : CalTime) : Bool :=
  t.year == 2199 && t.month == 12 && t.day == 31 && t.secOfDay == 86399 && t.frac == 255

end CalTime

/-- The fields of a date word and of a time word. -/
def wYear (w : Nat) : Nat := bits w 27 16
def wMonth (w : Nat) : Nat := bits w 11 8
def wDay (w : Nat) : Nat := bits w 4 0
def wHour (w : Nat) : Nat := bits w 20 16
def wMin (w : Nat) : Nat := bits w 13 8
def wSec (w : Nat) : Nat := bits w 5 0

/-- The reason of R425 for a date word: 0 good, 1 a field out of range, 2 a day that the month does not have. -/
def dateReason (w : Nat) : Nat :=
  if 2000 ≤ wYear w ∧ wYear w ≤ 2199 ∧ 1 ≤ wMonth w ∧ wMonth w ≤ 12 ∧ 1 ≤ wDay w then
    (if wDay w ≤ monthLen (wYear w) (wMonth w) then 0 else 2)
  else 1

/-- The reason of R425 for a time word. -/
def timeReason (w : Nat) : Nat := if wHour w ≤ 23 ∧ wMin w ≤ 59 ∧ wSec w ≤ 59 then 0 else 1

/-- A date word without its weekday, for comparing dates. -/
def dateRank (w : Nat) : Nat := wYear w * 512 + wMonth w * 32 + wDay w

namespace State

/-- TRUST follows OSF and LBF (R431). -/
def calTrust (s : State) : State :=
  s.put pgCAL CAL.STATUS.TRUST
    (if s.on pgCAL CAL.STATUS.OSF then 0 else if s.on pgCAL CAL.STATUS.LBF then 1 else 2)

/-- OSF is set (R430): FAULT.OSF and its condition with it (R431). -/
def setOsf (s : State) : State :=
  (((s.put pgCAL CAL.STATUS.OSF 1).setFault pgCAL 17).cond pgCAL 17 true).calTrust

/-- LBF is latched (R431). -/
def setLbf (s : State) : State :=
  (((s.put pgCAL CAL.STATUS.LBF 1).setFault pgCAL 18).cond pgCAL 18 true).calTrust

/-- The apply-buffer value of a register of CAL. -/
def calBuf (s : State) (off : Nat) : Nat := (Store.get (resetWord pgCAL off 0) s.buf (regKey pgCAL off 0)).toNat

/-- A fire of the alarm on the instant with words `date` and `time` (R426, R427): `sub` 0 by counting, 1 at an apply. -/
def alarmFire (s : State) (sub date time : Nat) : State :=
  let s1 := (s.put pgCAL CAL.ALARM_STAT.FIRED 1).put pgCAL CAL.LAST_FIRED date
  let s2 := if s1.on pgCAL CAL.ALARM_DATE.DATE_EN then
      (s1.put pgCAL CAL.ALARM_TIME.EN 0).setShadow pgCAL 0x064 (s1.shadow pgCAL 0x064 &&& 0x7FFFFFFF#32)
    else s1
  let s3 := if sub = 1 then (s2.put pgCAL CAL.ALARM_STAT.LATE 1).setFault pgCAL 19 else s2
  if s3.pd1 then (s3.event 0x380).raise pgCAL 0x122 sub [date, time]
  else { s3.put pgCAL CAL.ALARM_STAT.WHILE_OFF 1 with cal := { s3.cal with offFire := some (date, time) } }

/-- The daily alarm may fire on a date: it is later than LAST_FIRED, or LAST_FIRED is 0 (R426). -/
def alarmDateOk (s : State) (date : Nat) : Bool :=
  s.get pgCAL CAL.LAST_FIRED == 0 || decide (dateRank (s.get pgCAL CAL.LAST_FIRED) < dateRank date)

/-- Counting reaches an instant (R422, R426, R429). -/
def calCount (s : State) (t : CalTime) : State := { s with cal := { s.cal with now := t, alarmAt := true, wakeAt := true } }

/-- Counting has reached the alarm instant: a second whose time of day is the alarm's, and its date for a dated alarm; a
daily alarm only later than LAST_FIRED. -/
def alarmDue (s : State) : Bool :=
  let t := s.cal.now
  let tw := s.get pgCAL CAL.ALARM_TIME.TIME
  let dw := s.get pgCAL CAL.ALARM_DATE.DATE
  s.cal.alarmAt && s.on pgCAL CAL.ALARM_TIME.EN && t.frac == 0 && t.time == timeWord (wHour tw) (wMin tw) (wSec tw)
    && (if s.on pgCAL CAL.ALARM_DATE.DATE_EN then dateRank t.date == dateRank dw else s.alarmDateOk t.date)

/-- A wake instant: midnight, and every PERIOD × 1/64 s after it. -/
def wakeDue (s : State) : Bool :=
  let t := s.cal.now
  s.cal.wakeAt && s.on pgCAL CAL.WAKE.EN && t.frac % 4 == 0
    && (t.secOfDay * 64 + t.frac / 4) % max 1 (s.get pgCAL CAL.WAKE.PERIOD) == 0

/-- The alarm fires by counting (R426, R428). -/
def alarmReached (s : State) : State :=
  if s.alarmDue then
    ({ s with cal := { s.cal with alarmAt := false } } : State).alarmFire 0 s.cal.now.date s.cal.now.time
  else s

/-- A wake instant (R429). -/
def wakeReached (s : State) : State :=
  if s.wakeDue then
    let s1 := ({ s with cal := { s.cal with wakeAt := false } } : State).incMod pgCAL CAL.WAKE_COUNT
    if s1.pd1 then s1.event 0x381 else s1
  else s

/-- The alarm instant that a set from `old` to `new` crosses, as its date and time words (R427). -/
def alarmCrossed (s : State) (old new : CalTime) : Option (Nat × Nat) :=
  let tw := s.get pgCAL CAL.ALARM_TIME.TIME
  let sod := wHour tw * 3600 + wMin tw * 60 + wSec tw
  let time := timeWord (wHour tw) (wMin tw) (wSec tw)
  if !s.on pgCAL CAL.ALARM_TIME.EN then none
  else if s.on pgCAL CAL.ALARM_DATE.DATE_EN then
    let dw := s.get pgCAL CAL.ALARM_DATE.DATE
    let a := (dayNum (wYear dw) (wMonth dw) (wDay dw) * 86400 + sod) * 256
    if old.units < a ∧ a ≤ new.units then some (dateWord (wYear dw) (wMonth dw) (wDay dw), time) else none
  else
    let day := if sod ≤ new.secOfDay then some new.day0 else if new.day0 = 0 then none else some (new.day0 - 1)
    match day with
    | none => none
    | some d =>
      let (y, m, dd) := dateOf d
      if old.units < (d * 86400 + sod) * 256 ∧ s.alarmDateOk (dateWord y m dd) = true then
        some (dateWord y m dd, time)
      else none

/-- The apply of a set group (R424, R427). -/
def calSet (s : State) : State :=
  let dw := s.calBuf 0x050
  let tw := s.calBuf 0x054
  let old := s.cal.now
  let new : CalTime := { year := wYear dw, month := wMonth dw, day := wDay dw, hour := wHour tw, minute := wMin tw
                         second := wSec tw, frac := 0, presc := 0 }
  let diff : Int := (new.units : Int) - old.units
  let adj : Int := if 2147483647 < diff then 2147483647 else if diff < -2147483648 then -2147483648 else diff
  let s0 : State := { s with cal := { s.cal with now := new, alarmAt := false, wakeAt := false } }
  let s1 := ((((s0.setReg pgCAL 0x050 (BitVec.ofNat 32 dw)).setReg pgCAL 0x054 (BitVec.ofNat 32 tw)).put pgCAL
    CAL.APPLY_T s.stpNs).put pgCAL CAL.ADJ (unsigned 32 adj)).put pgCAL CAL.STATUS.OSF 0
  let s2 := ((((s1.put pgCAL CAL.STATUS.LBF 0).cond pgCAL 17 false).cond pgCAL 18 false).calTrust).raise pgCAL 0x120 0
    [new.date, new.time, unsigned 32 adj]
  if 0 < diff then
    (match s2.alarmCrossed old new with
    | some (d, t) => s2.alarmFire 1 d t
    | none => s2)
  else s2

/-- The end of a commit of CAL without effect (R425). -/
def calReject (s : State) (sub dOff tOff reason : Nat) : State :=
  let c := s.cal
  let s1 : State := { s.put pgCAL HDR.COMMIT.PENDING 0 with cal := { c with
    wSet := c.wSet || c.gSet, wAlarm := c.wAlarm || c.gAlarm, wWake := c.wWake || c.gWake
    gSet := false, gAlarm := false, gWake := false } }
  if sub = 2 then (s1.setFault pgCAL 16).raise pgCAL 0x121 2
    [s.freeWord.toNat, (Config.freeWord (s.freeUses + 1)).toNat, reason]
  else (s1.setFault pgCAL 16).raise pgCAL 0x121 sub [s.calBuf dOff, s.calBuf tOff, reason]

/-- The boundary of a commit of CAL (R424, R425). -/
def calApply (s : State) : State :=
  if !s.on pgCAL HDR.COMMIT.PENDING then s
  else
    let c := s.cal
    let setR := if !c.gSet then 0
      else if timeReason (s.calBuf 0x054) ≠ 0 ∧ dateReason (s.calBuf 0x050) ≠ 2 then 1 else dateReason (s.calBuf 0x050)
    let alR := if !c.gAlarm then 0
      else
        let dr := if bitOf (s.calBuf 0x060) 31 then dateReason (s.calBuf 0x060) else 0
        if timeReason (s.calBuf 0x064) ≠ 0 ∧ dr ≠ 2 then 1 else dr
    let per := bits (s.calBuf 0x070) 22 0
    let wkR := if !c.gWake || (decide (1 ≤ per) && decide (per ≤ 5529600)) then 0 else 1
    if setR ≠ 0 then s.calReject 0 0x050 0x054 setR
    else if alR ≠ 0 then s.calReject 1 0x060 0x064 alR
    else if wkR ≠ 0 then s.calReject 2 0 0 wkR
    else
      let s0 : State := { (s.put pgCAL HDR.COMMIT.PENDING 0).incMod pgCAL HDR.STAGE_SEQ with
        cal := { c with gSet := false, gAlarm := false, gWake := false, alarmAt := c.alarmAt && !c.gAlarm
                        wakeAt := c.wakeAt && !c.gWake } }
      let s1 := if c.gWake then s0.setReg pgCAL 0x070 (BitVec.ofNat 32 (s.calBuf 0x070)) else s0
      let s2 := if c.gAlarm then ((s1.setReg pgCAL 0x060 (BitVec.ofNat 32 (s.calBuf 0x060))).setReg pgCAL 0x064
        (BitVec.ofNat 32 (s.calBuf 0x064))).put pgCAL CAL.LAST_FIRED 0 else s1
      if c.gSet then s2.calSet else s2

end State

/-! ### The commands -/

/-- DATE_READ (R423): the read of DATE latches TIME and FRAC. -/
def execDateRead (s : State) : Out :=
  if !s.served then .next s
  else
    let t := s.cal.now
    .next (((s.put pgCAL CAL.TIME t.time).put pgCAL CAL.FRAC t.frac).answer t.date)

/-- CAL_COMMIT_APPLY (R424, R425): the first 32.768 kHz edge after GO. -/
def execCalCommitApply (s : State) : Out := .next s.calApply

/-- ALARM_FIRE (R426, R428): counting reaches the alarm instant. -/
def execAlarmFire (s : State) : Out :=
  .next (if s.boot.pd0 then s.alarmReached else s)

/-- WAKE (R429). -/
def execWake (s : State) : Out :=
  .next (if s.boot.pd0 then s.wakeReached else s)

/-- OSCILLATOR_STOP (R430): the crystal gives no edge for 2 ms. -/
def execOscillatorStop (s : State) : Out :=
  if !s.boot.pd0 then .next s
  else .next (if s.pd1 then s.setOsf.raise pgCAL 0x123 1 else s.setOsf)

/-- LBF (R431): the cell falls below 2.5 V while supplies A and B are both absent. -/
def execLbf (s : State) : Out :=
  if !s.boot.pd0 || s.boot.supplyValid then .next s else .next s.setLbf

/-- YEAR_WRAP (R432): counting goes on from the last 1/256 s of 2199; that midnight is an instant of the alarm and of the
wake grid too (R426, R429). -/
def execYearWrap (s : State) : Out :=
  if !s.boot.pd0 || !s.cal.now.last then .next s
  else
    let s2 := (s.calCount { year := 2000, month := 1, day := 1 }).setOsf.setFault pgCAL 20
    .next ((if s2.pd1 then s2.raise pgCAL 0x125 else s2).alarmReached.wakeReached)

end Sys2Proof.Machine
end

