-- ==== Sys2Proof/Machine/Can.lean ====
section
/-! DEFINITION. The CAN controllers: transmit entries, arbitration, the receive ring, filters, error states, bit-rate
detection and the status entry (R339 to R351). -/

namespace Sys2Proof.Machine
namespace State

def canRt (s : State) (n : Nat) : CanRt := Store.get {} s.can n
def setCanRt (s : State) (n : Nat) (r : CanRt) : State := { s with can := Store.set {} s.can n r }

def canTxBase (s : State) (n : Nat) : Nat :=
  s.get (pgCAN n) CAN.TXQ_BASE_LO + s.get (pgCAN n) CAN.TXQ_BASE_HI.ADDR_HI * 2 ^ 32
def canRxBase (s : State) (n : Nat) : Nat :=
  s.get (pgCAN n) CAN.RXQ_BASE_LO + s.get (pgCAN n) CAN.RXQ_BASE_HI.ADDR_HI * 2 ^ 32

/-- The 64-bit masks TX_PEND and TX_DONE. -/
def canMask (s : State) (n : Nat) (lo hi : Fld) : Nat := s.get (pgCAN n) lo + s.get (pgCAN n) hi * 2 ^ 32
def setCanMask (s : State) (n : Nat) (lo hi : Fld) (m : Nat) : State :=
  (s.put (pgCAN n) lo m).put (pgCAN n) hi (m / 2 ^ 32)

def canPendMask (s : State) (n : Nat) : Nat := s.canMask n CAN.TX_PEND_LO CAN.TX_PEND_HI
def canDoneMask (s : State) (n : Nat) : Nat := s.canMask n CAN.TX_DONE_LO CAN.TX_DONE_HI

/-- The status entry of R351, without the overrun bit. -/
def canStatWord (s : State) (n : Nat) : Nat :=
  let st := if s.on (pgCAN n) CAN.STATUS.ON_BUS then s.get (pgCAN n) CAN.STATUS.ERR_STATE
    else if s.get (pgCAN n) CAN.STATUS.ERR_STATE = 2 then 2 else 3
  st + s.get (pgCAN n) CAN.CFG.LISTEN * 4 + s.get (pgCAN n) CAN.ERR.TEC * 8 + s.get (pgCAN n) CAN.ERR.REC * 2048
    + b2n (s.canRt n).ovrBind * 2 ^ 19

/-- At a loop base tick the controller writes its BIND_STAT entry when a bit of it has changed (R351). -/
def canStat (s : State) (n : Nat) : State :=
  let b := s.get (pgCAN n) CAN.BIND_STAT
  let w := s.canStatWord n
  if bitOf b 31 && decide ((s.canRt n).statOut ≠ some w) then
    (s.imgWrite (bits b 14 0) w 0).setCanRt n { s.canRt n with statOut := some w, ovrBind := false }
  else s

/-- The error state that TEC and REC give (R348): bus off is left only by recovery. -/
def canState (s : State) (n tec rec : Nat) : Nat :=
  if 255 < tec ∨ s.get (pgCAN n) CAN.STATUS.ERR_STATE = 2 then 2 else if 128 ≤ tec ∨ 128 ≤ rec then 1 else 0

/-- Write an entry's outcome, tries and the stamp of its last attempt back, clear PEND, set DONE, raise 0x344 + n (R342, R345);
without an attempt the stamp is a free value (assumption 261). -/
def canFinish (s : State) (n : Nat) (t : CanTx) (outcome : Nat) : State :=
  let a := s.canTxBase n + t.entry * 80
  let r := s.canRt n
  let s0 := s.memWr (a + 8) 4 (putBits (putBits (s.memRd (a + 8) 4) 31 28 outcome) 15 0 t.tries)
  let s1 := match t.stamp with
    | some v => s0.memWr (a + 12) 4 v
    | none => (s0.memWr (a + 12) 4 s0.freeWord.toNat).useFree
  let s2 := s1.setCanRt n { r with
    pend := r.pend.filter (fun x => x.entry != t.entry)
    onBus := if r.onBus = some t.entry then none else r.onBus }
  let s3 := s2.setCanMask n CAN.TX_PEND_LO CAN.TX_PEND_HI (putBits (s2.canPendMask n) t.entry t.entry 0)
  (s3.setCanMask n CAN.TX_DONE_LO CAN.TX_DONE_HI (putBits (s3.canDoneMask n) t.entry t.entry 1)).event (0x344 + n)

/-- New error counters (R348): the error state follows, each change recorded and signalled; at bus off the pending entries
stay, or complete with BUS_OFF, and recovery begins at once under AUTO_REC. -/
def canCounters (s : State) (n tec rec : Nat) : State :=
  let old := s.get (pgCAN n) CAN.STATUS.ERR_STATE
  let new := s.canState n tec rec
  let s1 := (s.put (pgCAN n) CAN.ERR.TEC (satAdd 255 tec 0)).put (pgCAN n) CAN.ERR.REC (satAdd 255 rec 0)
  if new = old then s1
  else
    let s2 := ((s1.put (pgCAN n) CAN.STATUS.ERR_STATE new).raise (pgCAN n) 0x1A0 new [tec, rec]).event (0x348 + n)
    if new = 2 then
      let s3 := (((s2.setFault (pgCAN n) 16).cond (pgCAN n) 16 true).incMod (pgCAN n) CAN.BOFF_CNT).putB (pgCAN n)
        CAN.STATUS.RECOVERING (s.on (pgCAN n) CAN.CFG.AUTO_REC)
      let s4 := (s3.put (pgCAN n) CAN.STATUS.ON_BUS 0).setCanRt n { s3.canRt n with onBus := none }
      if s.on (pgCAN n) CAN.CFG.BOFF_ABORT then
        (s4.canRt n).pend.foldl (fun s t => s.canFinish n t 6) s4
      else s4
    else s2

/-- A running controller takes part in the bus once Stop is reached, and no more in a hold-up or shutdown sequence (R29, R44);
until then it is recessive. -/
def canJoin (s : State) (n : Nat) : State :=
  if s.on (pgCAN n) HDR.CTRL.RUN && s.active (pgCAN n) then
    (s.put (pgCAN n) CAN.STATUS.ON_BUS (b2n (s.get (pgCAN n) CAN.STATUS.ERR_STATE != 2 && s.boot.reachedStop
      && !s.inSequence)))
  else s

/-- A refused submit or acknowledgement (R342, R346). -/
def canRefuse (s : State) (n sub p0 : Nat) : State :=
  (s.setFault (pgCAN n) 18).raise (pgCAN n) 0x1A2 sub [p0]

end State

/-- The bits that arbitrate, in bus order, as a number: the lowest wins (R343). -/
def arbKey (w0 : Nat) : Nat :=
  let id11 := bits w0 28 18
  if bitOf w0 31 then id11 * 2 ^ 22 + 2 ^ 21 + 2 ^ 20 + bits w0 17 0 * 4 + bits w0 30 30 * 2 + bits w0 29 29
  else id11 * 2 ^ 22 + bits w0 30 30 * 2 ^ 21 + bits w0 29 29 * 2 ^ 19

/-- The entry that would win arbitration among the pending ones; equal entries in order of submission (R343). -/
def arbWinner : List CanTx → Option CanTx
  | [] => none
  | t :: r =>
    match arbWinner r with
    | none => some t
    | some u => if arbKey t.w0 ≤ arbKey u.w0 then some t else some u

/-- Data bytes of a DLC (R341). -/
def dlcBytes (fd : Bool) (dlc : Nat) : Nat :=
  if dlc ≤ 8 then dlc
  else if !fd then 8
  else if dlc = 9 then 12 else if dlc = 10 then 16 else if dlc = 11 then 20 else if dlc = 12 then 24
  else if dlc = 13 then 32 else if dlc = 14 then 48 else 64

/-- TX_SUBMIT (R342, R344): master `m` submits transmit entry `k`; `busFree` says that the bus is free, so that the attempt
of the winning entry starts at once. -/
def execTxSubmit (can : Fin 4) (m : Fin 4) (k : Fin 64) (busFree : Bool) (s : State) : Out :=
  let n := can.val
  .next (s.action (pgCAN n) 0x05C m.val (fun s =>
    let a := s.canTxBase n + k.val * 80
    let w0 := s.memRd a 4
    let w1 := s.memRd (a + 4) 4
    let fd := bitOf w0 29
    if bitOf (s.canPendMask n) k.val || bitOf (s.canDoneMask n) k.val || (fd && bitOf w0 30)
        || (fd && !s.on (pgCAN n) CAN.CFG.FD_EN) then s.canRefuse n 0 k.val
    else
      let r := s.canRt n
      let same := r.pend.filter (fun t => bits t.w0 28 0 == bits w0 28 0 && bitOf t.w0 31 == bitOf w0 31)
      let s1 := if bitOf w1 28 then same.foldl (fun s t =>
          if r.onBus = some t.entry then
            s.setCanRt n { s.canRt n with
              pend := (s.canRt n).pend.map (fun u => if u.entry = t.entry then { u with ending := 4 } else u) }
          else s.canFinish n t 4) s
        else s
      let t : CanTx := { entry := k.val, w0 := w0, w1 := w1, order := r.nextOrder
                         data := (Memory.bytes s.mem (a + 16) (dlcBytes fd (bits w1 27 24))).map (fun b => b.toNat) }
      let r1 := s1.canRt n
      let pend := r1.pend ++ [t]
      let s2 := s1.setCanRt n { r1 with
        pend := pend
        nextOrder := r1.nextOrder + 1
        onBus := if busFree && r1.onBus.isNone && s.on (pgCAN n) CAN.STATUS.ON_BUS && !s.on (pgCAN n) CAN.CFG.LISTEN
            && s.get (pgCAN n) CAN.STATUS.ERR_STATE != 2
          then (arbWinner pend).map (fun u => u.entry) else r1.onBus }
      s2.setCanMask n CAN.TX_PEND_LO CAN.TX_PEND_HI (putBits (s2.canPendMask n) k.val k.val 1)))

/-- TX_ABORT (R342): a pending entry ends with outcome 5; an attempt already on the bus completes first. -/
def execTxAbort (can : Fin 4) (m : Fin 4) (k : Fin 64) (s : State) : Out :=
  let n := can.val
  .next (s.action (pgCAN n) 0x060 m.val (fun s =>
    match (s.canRt n).pend.find? (fun t => t.entry == k.val) with
    | none => s
    | some t =>
      if (s.canRt n).onBus = some t.entry then
        s.setCanRt n { s.canRt n with
          pend := (s.canRt n).pend.map (fun u => if u.entry = t.entry then { u with ending := 5 } else u) }
      else s.canFinish n t 5))

/-- TX_DONE (R342): master `m` acknowledges completed entries with a write of ones to TX_DONE_LO and TX_DONE_HI. -/
def execTxDone (can : Fin 4) (m : Fin 4) (mask : BitVec 64) (s : State) : Out :=
  let n := can.val
  .next (s.action (pgCAN n) 0x06C m.val (fun s =>
    s.setCanMask n CAN.TX_DONE_LO CAN.TX_DONE_HI
      ((BitVec.ofNat 64 (s.canDoneMask n)) &&& ~~~ mask).toNat))

/-- A received frame as the controller stores it (R341): W0, the BRS and ESI bits, the DLC and its data. -/
def canRuleOf (s : State) (n w0 : Nat) (own : Bool) : Option Nat :=
  if own && !s.on (pgCAN n) CAN.FILT_CFG.SELF then none
  else (List.range 64).find? (fun i =>
    s.on (pgCAN n) CAN.RULE_W0.VALID i
      && decide (((BitVec.ofNat 29 w0) ^^^ (BitVec.ofNat 29 (s.get (pgCAN n) CAN.RULE_W0.ID i)))
          &&& (BitVec.ofNat 29 (s.get (pgCAN n) CAN.RULE_W1.MASK i)) = 0)
      && decide (s.get (pgCAN n) CAN.RULE_W0.IDE i = bits w0 31 31))

/-- A frame is stored in the receive ring with the stamp time of its start, or dropped on overrun (R346). The controller writes
the receive fields alone (R341). -/
def canStore (n w0 brsEsi dlc rule stamp : Nat) (data : List Byte) (s : State) : State :=
  let r := s.canRt n
  if 128 ≤ r.filled then
    let cnt := r.ovrSince + 1
    let s1 := ((s.incMod (pgCAN n) CAN.RX_OVR).setFault (pgCAN n) 17).setCanRt n { r with ovrSince := cnt, ovrBind := true }
    if s1.mayRecord (0x1400 + n) then
      ((s1.markRecord (0x1400 + n)).raise (pgCAN n) 0x1A1 0 [cnt]).setCanRt n { r with ovrSince := 0, ovrBind := true }
    else s1
  else
    let head := s.get (pgCAN n) CAN.RX_HEAD.HEAD
    let a := s.canRxBase n + head * 80
    let w1 := putBits (putBits (putBits (putBits (s.memRd (a + 4) 4) 31 30 brsEsi) 27 24 dlc) 23 16
      (s.get (pgCAN n) CAN.FILT_GEN.GEN)) 15 10 rule
    let s1 := ((((s.memWr a 4 w0).memWr (a + 4) 4 w1).memWr (a + 12) 4 stamp).memPut (a + 16)
      (data ++ s.freeBytes (64 - data.length))).useFree (64 - data.length)
    ((s1.put (pgCAN n) CAN.RX_HEAD.HEAD ((head + 1) % 128)).setCanRt n { r with filled := r.filled + 1 }).event (0x340 + n)

/-- A valid frame meets the rules (R346, R347): the lowest matching one accepts or rejects it; without a match NOMATCH decides,
save for an own frame, which only a rule under SELF accepts. -/
def canOffer (n : Nat) (own : Bool) (w0 brsEsi dlc stamp : Nat) (data : List Byte) (s : State) : State :=
  let rule := canRuleOf s n w0 own
  let accept := match rule with
    | some i => !s.on (pgCAN n) CAN.RULE_W0.REJECT i
    | none => !own && s.on (pgCAN n) CAN.FILT_CFG.NOMATCH
  let fd := bitOf w0 29
  let len := if bitOf w0 30 then 0 else dlcBytes fd dlc
  if accept then canStore n w0 (if fd then brsEsi else 0) dlc (rule.getD 63) stamp (data.take len) s else s

/-- Without RUN the controller leaves the bus at the end of the current frame (R350). -/
def canLeave (n : Nat) (s : State) : State :=
  if !s.on (pgCAN n) HDR.CTRL.RUN && (s.canRt n).onBus.isNone then s.put (pgCAN n) CAN.STATUS.ON_BUS 0 else s

/-- How an attempt that began `took` ns ago ends: sent and acknowledged, arbitration lost, or an error or no acknowledgement. A
frame that was sent meets the controller's own rules. -/
def canAttempt (n : Nat) (t : CanTx) (result took : Nat) (s : State) : State :=
  let at_ := (s.stpNs + 2 ^ 32 - took) % 2 ^ 32
  let t1 := { t with tries := satAdd 65535 t.tries 1, stamp := some at_ }
  if result = 0 then
    let esi := b2n (s.get (pgCAN n) CAN.STATUS.ERR_STATE == 1)
    let s0 := canOffer n true t.w0 (bits t.w1 31 31 * 2 + esi) (bits t.w1 27 24) at_ (t.data.map (BitVec.ofNat 8)) s
    let s1 := (s0.send (4 + n) 1 ([t.w0, t.w1] ++ t.data)).canFinish n t1 1
    s1.canCounters n (s1.get (pgCAN n) CAN.ERR.TEC - 1) (s1.get (pgCAN n) CAN.ERR.REC)
  else if t.ending ≠ 0 then s.canFinish n t1 t.ending
  else if bitOf t.w1 29 then s.canFinish n t1 (if result = 1 then 2 else 3)
  else
    let r := s.canRt n
    s.setCanRt n { r with onBus := none, pend := r.pend.map (fun u => if u.entry = t.entry then t1 else u) }

/-- CAN_TX_COMPLETE (R343 to R345): the attempt of the entry on the bus, or of the entry that wins arbitration, ends with
`result` 0 sent, 1 arbitration lost, 2 error, `took` ns after its start of frame. A one-shot entry, a replaced or an aborted one
completes; any other is retried. -/
def execCanTxComplete (can : Fin 4) (ending : CanEnd) (s : State) : Out :=
  let n := can.val
  let r := s.canRt n
  if !s.on (pgCAN n) CAN.STATUS.ON_BUS || s.on (pgCAN n) CAN.CFG.LISTEN || s.get (pgCAN n) CAN.STATUS.ERR_STATE == 2 then
    .next s
  else
    let pick := match r.onBus with
      | some k => r.pend.find? (fun t => t.entry == k)
      | none => arbWinner r.pend
    match pick with
    | none => .next s
    | some t => .next (canLeave n (canAttempt n t ending.result.val ending.took.toNat s))

/-- Candidate bit rates of R349 in kbit/s, fastest first. -/
def abrRates : List Nat := [1000, 800, 500, 250, 125, 100, 50, 20, 10]

/-- CAN_RECEIVE (R339, R346, R347, R349): a frame becomes valid for the receiver. `took` is the time in ns
since its start of frame; `resRecessive` an FD frame whose res bit is recessive: a protocol exception event with PEX = 1, a form
error without. In bit-rate detection the second error-free frame in a row at the candidate in trial sets NBT. -/
def execCanReceive (can : Fin 4) (took : BitVec 32) (resRecessive : Bool) (w0 : BitVec 32) (brs esi : Bool) (dlc : Fin 16) (data : List Byte)
    (s : State) : Out :=
  let n := can.val
  let fd := bitOf w0.toNat 29
  if s.on (pgCAN n) CAN.STATUS.ABR_ACTIVE then
    (if fd then .next s
    else
      let r := s.canRt n
      if r.abrGood = 0 then .next (s.setCanRt n { r with abrGood := 1 })
      else
        let rate := abrRates.getD r.abrCand 10
        .next (((((s.setReg (pgCAN n) 0x044 (Config.abrTiming rate)).put (pgCAN n) CAN.ABR.RATE rate).put (pgCAN n)
          CAN.STATUS.ABR_ACTIVE 0).setCanRt n { r with abrGood := 0 }).raise (pgCAN n) 0x1A3 0 [rate]))
  else if !s.on (pgCAN n) CAN.STATUS.ON_BUS || s.get (pgCAN n) CAN.STATUS.ERR_STATE == 2 then .next s
  else if fd && resRecessive then
    (if s.on (pgCAN n) CAN.CFG.PEX then .next (s.incMod (pgCAN n) CAN.PEX_CNT)
    else if s.on (pgCAN n) CAN.CFG.LISTEN then .next (s.put (pgCAN n) CAN.ERR.LEC 2)
    else .next ((s.put (pgCAN n) CAN.ERR.LEC 2).canCounters n (s.get (pgCAN n) CAN.ERR.TEC)
      (s.get (pgCAN n) CAN.ERR.REC + 1)))
  else
    let rec0 := s.get (pgCAN n) CAN.ERR.REC
    let s0 := if s.on (pgCAN n) CAN.CFG.LISTEN then s
      else s.canCounters n (s.get (pgCAN n) CAN.ERR.TEC) (if 127 < rec0 then 127 else rec0 - 1)
    .next (canOffer n false w0.toNat (b2n brs * 2 + b2n esi) dlc.val ((s.stpNs + 2 ^ 32 - took.toNat) % 2 ^ 32) data s0)

/-- RX_ACK (R346): master `m` returns `count` filled receive entries, oldest first. -/
def execRxAck (can : Fin 4) (m : Fin 4) (count : BitVec 8) (s : State) : Out :=
  let n := can.val
  .next (s.action (pgCAN n) 0x07C m.val (fun s =>
    let r := s.canRt n
    if r.filled < count.toNat then s.raise (pgCAN n) 0x1A2 1 [count.toNat]
    else (s.put (pgCAN n) CAN.RX_TAIL.TAIL ((s.get (pgCAN n) CAN.RX_TAIL.TAIL + count.toNat) % 128)).setCanRt n
      { r with filled := r.filled - count.toNat }))

/-- CAN_BUS_ERROR (R348): an error on the bus; `tec` and `rec` are the counters that ISO 11898-1 gives after it, `lec` and
`dlec` the kind of error in the nominal and the data phase. Listen-only counters do not change (R349); in bit-rate
detection the next candidate is tried. -/
def execCanBusError (can : Fin 4) (tec : BitVec 9) (rec : BitVec 8) (lec dlec : Fin 7) (s : State) : Out :=
  let n := can.val
  if s.on (pgCAN n) CAN.STATUS.ABR_ACTIVE then
    .next (s.setCanRt n { s.canRt n with abrGood := 0, abrCand := ((s.canRt n).abrCand + 1) % 9 })
  else if !s.on (pgCAN n) CAN.STATUS.ON_BUS then .next s
  else
    let s1 := (s.put (pgCAN n) CAN.ERR.LEC lec.val).put (pgCAN n) CAN.ERR.DLEC dlec.val
    if s.on (pgCAN n) CAN.CFG.LISTEN || s.get (pgCAN n) CAN.STATUS.ERR_STATE == 2 then .next s1
    else .next (s1.canCounters n tec.toNat rec.toNat)

/-- RECOVER (R348): bus-off recovery begins. -/
def execRecover (can : Fin 4) (m : Fin 4) (s : State) : Out :=
  let n := can.val
  .next (s.action (pgCAN n) 0x094 m.val (fun s =>
    if s.get (pgCAN n) CAN.STATUS.ERR_STATE = 2 then s.put (pgCAN n) CAN.STATUS.RECOVERING 1 else s))

/-- RECOVERY_DONE (R348): after 128 idle sequences the controller is error active with TEC and REC at 0. -/
def execRecoveryDone (can : Fin 4) (s : State) : Out :=
  let n := can.val
  if s.get (pgCAN n) CAN.STATUS.ERR_STATE ≠ 2 ∨ s.get (pgCAN n) CAN.STATUS.RECOVERING = 0 then .next s
  else
    let s1 := ((((s.put (pgCAN n) CAN.STATUS.ERR_STATE 0).put (pgCAN n) CAN.STATUS.RECOVERING 0).put (pgCAN n)
      CAN.ERR.TEC 0).put (pgCAN n) CAN.ERR.REC 0).cond (pgCAN n) 16 false
    .next (((s1.raise (pgCAN n) 0x1A0 0 [0, 0]).event (0x348 + n)).canJoin n)

/-- START_ABR (R349): bit-rate detection starts, in listen-only mode alone. -/
def execStartAbr (can : Fin 4) (m : Fin 4) (s : State) : Out :=
  let n := can.val
  .next (s.action (pgCAN n) 0x094 m.val (fun s =>
    if s.on (pgCAN n) CAN.CFG.LISTEN then
      (s.put (pgCAN n) CAN.STATUS.ABR_ACTIVE 1).setCanRt n { s.canRt n with abrCand := 0, abrGood := 0, abrAt := s.e }
    else s))

/-- ABR_FAIL (R349): no candidate succeeded within ABR.TMO. -/
def execAbrFail (can : Fin 4) (s : State) : Out :=
  let n := can.val
  if s.on (pgCAN n) CAN.STATUS.ABR_ACTIVE
      && decide ((s.canRt n).abrAt + s.get (pgCAN n) CAN.ABR.TMO * 1000000000 ≤ s.e) then
    .next (((s.put (pgCAN n) CAN.STATUS.ABR_ACTIVE 0).setFault (pgCAN n) 19).raise (pgCAN n) 0x1A3 1)
  else .next s

/-- A fenced controller goes recessive and ends its pending entries with FENCED (R350). -/
def canFence (n : Nat) (s : State) : State :=
  (s.canRt n).pend.foldl (fun s t => s.canFinish n t 7) (s.put (pgCAN n) CAN.STATUS.ON_BUS 0)

end Sys2Proof.Machine
end

