-- ==== Sys2Proof/Machine/Crc.lean ====
section
/-! DEFINITION. The three codes of the spec: CRC-16 of a record (R439), CRC-32C of Droveway and the tallies (R294, R435),
CRC-64 of the cycle digest (R154). -/

namespace Sys2Proof.Machine

/-- One shift of CRC-16 with polynomial 0x1021, most significant bit first (R439). -/
def crc16Bit (c : BitVec 16) : BitVec 16 := if c.msb then (c <<< 1) ^^^ 0x1021#16 else c <<< 1

def crc16Byte (c : BitVec 16) (b : Byte) : BitVec 16 :=
  let c0 := c ^^^ (b.setWidth 16 <<< 8)
  crc16Bit (crc16Bit (crc16Bit (crc16Bit (crc16Bit (crc16Bit (crc16Bit (crc16Bit c0)))))))

/-- CRC-16 with initial value 0xFFFF, no reflection, no final XOR (R439). -/
def crc16 (l : List Byte) : BitVec 16 := l.foldl crc16Byte 0xFFFF#16

/-- One shift of the reflected CRC-32C (R294). -/
def crc32Bit (c : BitVec 32) : BitVec 32 := if c.getLsbD 0 then (c >>> 1) ^^^ 0x82F63B78#32 else c >>> 1

def crc32Byte (c : BitVec 32) (b : Byte) : BitVec 32 :=
  let c0 := c ^^^ b.setWidth 32
  crc32Bit (crc32Bit (crc32Bit (crc32Bit (crc32Bit (crc32Bit (crc32Bit (crc32Bit c0)))))))

/-- The E2E code of R294 with initial value `init`. -/
def crc32c (init : BitVec 32) (l : List Byte) : BitVec 32 := l.foldl crc32Byte init ^^^ 0xFFFFFFFF#32

/-- One shift of the CRC-64 of ECMA-182, most significant bit first (R154). -/
def crc64Bit (c : BitVec 64) : BitVec 64 := if c.msb then (c <<< 1) ^^^ 0x42F0E1EBA9EA3693#64 else c <<< 1

def crc64Byte (c : BitVec 64) (b : Byte) : BitVec 64 :=
  let c0 := c ^^^ (b.setWidth 64 <<< 56)
  crc64Bit (crc64Bit (crc64Bit (crc64Bit (crc64Bit (crc64Bit (crc64Bit (crc64Bit c0)))))))

/-- The CRC of the cycle digest: initial value 0, no reflection, no final inversion (R154). -/
def crc64 (l : List Byte) : BitVec 64 := l.foldl crc64Byte 0

end Sys2Proof.Machine
end

