-- ==== Sys2Proof/Machine/Float.lean ====
section
/-! DEFINITION. binary32 and binary64 arithmetic as R171 and R152 give it: the exact result rounded once to nearest, ties
to even, as if the exponent range were unbounded; a subnormal operand reads as zero and a subnormal result is zero, each
with its sign; every NaN is the canonical one. -/

namespace Sys2Proof.Machine

/-- A format: fraction bits and exponent bits. -/
structure Fmt where
  mb : Nat
  eb : Nat
deriving DecidableEq, Repr

def fmt32 : Fmt := ⟨23, 8⟩
def fmt64 : Fmt := ⟨52, 11⟩

/-- A value: NaN, an infinity, or the number (−1)^neg × m × 2^e. -/
inductive Fl where
  | nan
  | inf (neg : Bool)
  | num (neg : Bool) (m : Nat) (e : Int)
deriving DecidableEq, Repr

namespace Fmt

def bias (f : Fmt) : Nat := 2 ^ (f.eb - 1) - 1
def emax (f : Fmt) : Nat := 2 ^ f.eb - 1

/-- The sign bit as a number. -/
def sign (f : Fmt) (neg : Bool) : Nat := if neg then 2 ^ (f.mb + f.eb) else 0

/-- The canonical quiet NaN (R152). -/
def qnan (f : Fmt) : Nat := f.emax * 2 ^ f.mb + 2 ^ (f.mb - 1)
def infinity (f : Fmt) (neg : Bool) : Nat := f.sign neg + f.emax * 2 ^ f.mb
def zero (f : Fmt) (neg : Bool) : Nat := f.sign neg

/-- The value of a bit pattern; subnormals read as zero. -/
def dec (f : Fmt) (b : Nat) : Fl :=
  let neg := b / 2 ^ (f.mb + f.eb) % 2 == 1
  let ex := b / 2 ^ f.mb % 2 ^ f.eb
  let fr := b % 2 ^ f.mb
  if ex = 0 then .num neg 0 0
  else if ex = f.emax then (if fr = 0 then .inf neg else .nan)
  else .num neg (2 ^ f.mb + fr) ((ex : Int) - f.bias - f.mb)

/-- The exact value `n` × 2^e, `n` > 0, or a little more where `sticky`, rounded. -/
def roundNat (f : Fmt) (neg : Bool) (n : Nat) (e : Int) (sticky : Bool) : Nat :=
  let k := if n.log2 + 1 < f.mb + 3 then f.mb + 3 - (n.log2 + 1) else 0
  let q := (n * 2 ^ k) * 2 + (if sticky then 1 else 0)
  let drop := q.log2 + 1 - (f.mb + 1)
  let m0 := q / 2 ^ drop
  let r := q % 2 ^ drop
  let half := 2 ^ (drop - 1)
  let m1 := if half < r ∨ (r = half ∧ m0 % 2 = 1) then m0 + 1 else m0
  let e1 := e - k - 1 + drop
  let m2 := if m1 = 2 ^ (f.mb + 1) then 2 ^ f.mb else m1
  let e2 := if m1 = 2 ^ (f.mb + 1) then e1 + 1 else e1
  let be : Int := e2 + f.mb + f.bias
  if be ≤ 0 then f.zero neg
  else if (f.emax : Int) ≤ be then f.infinity neg
  else f.sign neg + be.toNat * 2 ^ f.mb + (m2 - 2 ^ f.mb)

/-- The exact value `n / d` × 2^e rounded. -/
def roundRat (f : Fmt) (neg : Bool) (n d : Nat) (e : Int) : Nat :=
  if n = 0 then f.zero neg
  else
    let k := d.log2 + f.mb + 4
    let q := n * 2 ^ k / d
    let r := n * 2 ^ k % d
    f.roundNat neg q (e - k) (decide (r ≠ 0))

/-- The bit pattern of a value, rounded to the format. -/
def enc (f : Fmt) : Fl → Nat
  | .nan => f.qnan
  | .inf neg => f.infinity neg
  | .num neg m e => if m = 0 then f.zero neg else f.roundNat neg m e false

/-- The integer i × 2^e rounded; a zero has sign `zneg`. -/
def ofScaled (f : Fmt) (i : Int) (e : Int) (zneg : Bool) : Nat :=
  if i = 0 then f.zero zneg else f.roundNat (decide (i < 0)) i.natAbs e false

/-- An integer rounded to the format. -/
def ofInt (f : Fmt) (i : Int) : Nat := f.ofScaled i 0 false

/-- The signed integer that a number is at exponent `e` at or below its own. -/
def atExp (neg : Bool) (m : Nat) (e e' : Int) : Int :=
  let v : Int := Int.ofNat (m * 2 ^ (e - e').toNat)
  if neg then -v else v

def add (f : Fmt) (a b : Nat) : Nat :=
  match f.dec a, f.dec b with
  | .nan, _ => f.qnan
  | _, .nan => f.qnan
  | .inf x, .inf y => if x = y then f.infinity x else f.qnan
  | .inf x, _ => f.infinity x
  | _, .inf y => f.infinity y
  | .num s m e, .num s' m' e' =>
    let lo := min e e'
    f.ofScaled (atExp s m e lo + atExp s' m' e' lo) lo (s && s')

/-- The sign of a pattern turned over. -/
def neg (f : Fmt) (a : Nat) : Nat :=
  if a / 2 ^ (f.mb + f.eb) % 2 = 1 then a - 2 ^ (f.mb + f.eb) else a + 2 ^ (f.mb + f.eb)

def sub (f : Fmt) (a b : Nat) : Nat :=
  match f.dec b with
  | .nan => f.qnan
  | _ => f.add a (f.neg b)

def mul (f : Fmt) (a b : Nat) : Nat :=
  match f.dec a, f.dec b with
  | .nan, _ => f.qnan
  | _, .nan => f.qnan
  | .inf x, .inf y => f.infinity (x != y)
  | .inf x, .num s m _ => if m = 0 then f.qnan else f.infinity (x != s)
  | .num s m _, .inf y => if m = 0 then f.qnan else f.infinity (s != y)
  | .num s m e, .num s' m' e' => if m * m' = 0 then f.zero (s != s') else f.roundNat (s != s') (m * m') (e + e') false

def div (f : Fmt) (a b : Nat) : Nat :=
  match f.dec a, f.dec b with
  | .nan, _ => f.qnan
  | _, .nan => f.qnan
  | .inf _, .inf _ => f.qnan
  | .inf x, .num s _ _ => f.infinity (x != s)
  | .num s _ _, .inf y => f.zero (s != y)
  | .num s m e, .num s' m' e' =>
    if m' = 0 then (if m = 0 then f.qnan else f.infinity (s != s'))
    else f.roundRat (s != s') m m' (e - e')

/-- The integer square root, by bits from 2^k down. -/
def isqrtFrom (n : Nat) : Nat → Nat → Nat
  | 0, r => if (r + 1) * (r + 1) ≤ n then r + 1 else r
  | k + 1, r =>
    let t := r + 2 ^ (k + 1)
    isqrtFrom n k (if t * t ≤ n then t else r)

def isqrt (n : Nat) : Nat := isqrtFrom n (n.log2 / 2 + 1) 0

def sqrt (f : Fmt) (a : Nat) : Nat :=
  match f.dec a with
  | .nan => f.qnan
  | .inf x => if x then f.qnan else f.infinity false
  | .num s m e =>
    if m = 0 then f.zero s
    else if s then f.qnan
    else
      let e0 := e - (2 * (f.mb + 4) : Nat)
      let m0 := m * 2 ^ (2 * (f.mb + 4))
      let odd := e0 % 2 = 1
      let m1 := if odd then m0 * 2 else m0
      let e1 := if odd then e0 - 1 else e0
      let r := isqrt m1
      f.roundNat false r (e1 / 2) (decide (r * r ≠ m1))

/-- a < b and a ≤ b; false for a NaN. -/
def lt (f : Fmt) (a b : Nat) : Bool :=
  match f.dec a, f.dec b with
  | .nan, _ => false
  | _, .nan => false
  | .inf x, .inf y => x && !y
  | .inf x, _ => x
  | _, .inf y => !y
  | .num s m e, .num s' m' e' =>
    let lo := min e e'
    decide (atExp s m e lo < atExp s' m' e' lo)

def isNan (f : Fmt) (a : Nat) : Bool := f.dec a == .nan

def le (f : Fmt) (a b : Nat) : Bool := !f.isNan a && !f.isNan b && !f.lt b a

/-- Equal in value. -/
def eq (f : Fmt) (a b : Nat) : Bool := f.le a b && f.le b a

def finite (f : Fmt) (a : Nat) : Bool :=
  match f.dec a with
  | .num _ _ _ => true
  | _ => false

/-- `min(a, b)` returns a if a ≤ b and b otherwise (R171). -/
def min' (f : Fmt) (a b : Nat) : Nat := if f.le a b then a else b
/-- `max(a, b)` returns a if a ≥ b and b otherwise (R171). -/
def max' (f : Fmt) (a b : Nat) : Nat := if f.le b a then a else b

/-- The magnitude. -/
def abs (f : Fmt) (a : Nat) : Nat := a % 2 ^ (f.mb + f.eb)

/-- The value as an exact fraction; `none` for a NaN or an infinity. -/
def toFrac (f : Fmt) (a : Nat) : Option (Int × Nat) :=
  match f.dec a with
  | .num s m e =>
    let n : Int := Int.ofNat (m * 2 ^ e.toNat)
    some (if s then -n else n, 2 ^ (-e).toNat)
  | _ => none

/-- Toward zero. -/
def trunc (f : Fmt) (a : Nat) : Int :=
  match f.toFrac a with
  | some (n, d) => n.tdiv d
  | none => 0

/-- The integer nearest to n / d, ties to even. -/
def nearestEven (n : Int) (d : Nat) : Int :=
  let q := n / d
  let r := n % d
  if 2 * r < d then q else if (d : Int) < 2 * r then q + 1 else if q % 2 = 0 then q else q + 1

def nearest (f : Fmt) (a : Nat) : Int :=
  match f.toFrac a with
  | some (n, d) => nearestEven n d
  | none => 0

/-- A pattern of format `f` rounded to format `g`. -/
def conv (f g : Fmt) (a : Nat) : Nat := g.enc (f.dec a)

end Fmt

/-! ### binary32 on words -/

namespace F32

def lift2 (op : Nat → Nat → Nat) (a b : Word) : Word := BitVec.ofNat 32 (op a.toNat b.toNat)

def add : Word → Word → Word := lift2 fmt32.add
def sub : Word → Word → Word := lift2 fmt32.sub
def mul : Word → Word → Word := lift2 fmt32.mul
def div : Word → Word → Word := lift2 fmt32.div
def min : Word → Word → Word := lift2 fmt32.min'
def max : Word → Word → Word := lift2 fmt32.max'
def sqrt (a : Word) : Word := BitVec.ofNat 32 (fmt32.sqrt a.toNat)
def neg (a : Word) : Word := BitVec.ofNat 32 (fmt32.neg a.toNat)
def abs (a : Word) : Word := a &&& 0x7FFFFFFF#32
def lt (a b : Word) : Bool := fmt32.lt a.toNat b.toNat
def le (a b : Word) : Bool := fmt32.le a.toNat b.toNat
def eq (a b : Word) : Bool := fmt32.eq a.toNat b.toNat
def finite (a : Word) : Bool := fmt32.finite a.toNat
def ofInt (i : Int) : Word := BitVec.ofNat 32 (fmt32.ofInt i)
/-- n / d rounded once. -/
def ofRat (n : Int) (d : Nat) : Word := BitVec.ofNat 32 (fmt32.roundRat (decide (n < 0)) n.natAbs d 0)
def zero : Word := 0
def one : Word := 0x3F800000#32

end F32

end Sys2Proof.Machine
end

