-- ==== Sys2Proof/Machine/Ana.lean ====
section
/-! DEFINITION. The analogue islands: conversion, output current, compliance, passive outputs, mis-wiring, island faults
and HART (R367 to R374). -/

namespace Sys2Proof.Machine

/-- a − b > n / d on two binary32 numbers, exactly; false where one is not finite. -/
def f32Exceeds (a b : Word) (n d : Nat) : Bool :=
  match fmt32.toFrac a.toNat, fmt32.toFrac b.toNat with
  | some (p, q), some (r, t) => decide ((n : Int) * q * t < (p * t - r * q) * d)
  | _, _ => false

/-- A binary32 current in mA as whole µA, as a 32-bit word. -/
def microAmp (a : Word) : Nat :=
  match fmt32.toFrac a.toNat with
  | some (n, d) => unsigned 32 (Fmt.nearestEven (n * 1000) d)
  | none => 0

/-- The HART check byte: the exclusive OR of the frame's bytes (assumption 20). -/
def hartCheck (l : List Byte) : Byte := l.foldl (· ^^^ ·) 0

/-- The bytes that `n` words hold, byte b of a word in bits [8b+7:8b]. -/
def wordsBytes (l : List Word) : List Byte := l.flatMap (fun w => leBytes w.toNat 4)

namespace State

def anaRt (s : State) (n : Nat) : AnaRt := Store.get {} s.ana n
def setAnaRt (s : State) (n : Nat) (r : AnaRt) : State := { s with ana := Store.set {} s.ana n r }

/-- A whole register of island `n`, as a binary32 word. -/
def anaW (s : State) (n : Nat) (f : Fld) : Word := s.reg (pgANA n) f.off

def anaType (s : State) (n : Nat) : Nat := s.get (pgANA n) ANA.CFG.TYPE
def anaIn (s : State) (n : Nat) : Bool := s.anaType n == 1 || s.anaType n == 2
def anaOut (s : State) (n : Nat) : Bool := s.anaType n == 3 || s.anaType n == 4

/-- TABLE word `i`. -/
def anaTab (s : State) (n i : Nat) : Word := s.reg (pgANA n) (ANA.TABLE i).off

/-- `ai_value` of R368. -/
def aiValue (s : State) (n : Nat) (i : Word) : Word :=
  let x := F32.div (F32.sub i (s.anaW n ANA.I_LO)) (F32.sub (s.anaW n ANA.I_HI) (s.anaW n ANA.I_LO))
  let scale (x : Word) := F32.add (s.anaW n ANA.EU_LO) (F32.mul x (F32.sub (s.anaW n ANA.EU_HI) (s.anaW n ANA.EU_LO)))
  match s.get (pgANA n) ANA.CFG.CHAR with
  | 1 =>
    let x := F32.max x F32.zero
    scale (if F32.lt x (s.anaW n ANA.CUTOFF) then F32.zero else F32.sqrt x)
  | 2 =>
    let m := s.get (pgANA n) ANA.CFG.TAB_N
    let tx (k : Nat) := s.anaTab n (2 * k)
    let ty (k : Nat) := s.anaTab n (2 * k + 1)
    if F32.le x (tx 0) then ty 0
    else if F32.le (tx (m - 1)) x then ty (m - 1)
    else
      let k := ((List.range m).filter (fun k => F32.le (tx k) x)).getLastD 0
      let f := F32.div (F32.sub x (tx k)) (F32.sub (tx (k + 1)) (tx k))
      F32.add (ty k) (F32.mul f (F32.sub (ty (k + 1)) (ty k)))
  | _ => scale x

/-- The current that a command converts to (R369), before the clamp. -/
def aoRaw (s : State) (n : Nat) (v : Word) : Word :=
  F32.add (s.anaW n ANA.I_LO)
    (F32.mul (F32.div (F32.sub v (s.anaW n ANA.EU_LO)) (F32.sub (s.anaW n ANA.EU_HI) (s.anaW n ANA.EU_LO)))
      (F32.sub (s.anaW n ANA.I_HI) (s.anaW n ANA.I_LO)))

/-- `i_cmd` of R369. -/
def aoCurrent (s : State) (n : Nat) (v : Word) : Word :=
  F32.min (F32.max (s.aoRaw n v) (s.anaW n ANA.LIM_LO)) (s.anaW n ANA.LIM_HI)

/-- A measured loop current in engineering units, linearly (R369). -/
def aoReadback (s : State) (n : Nat) (i : Word) : Word :=
  F32.add (s.anaW n ANA.EU_LO)
    (F32.mul (F32.div (F32.sub i (s.anaW n ANA.I_LO)) (F32.sub (s.anaW n ANA.I_HI) (s.anaW n ANA.I_LO)))
      (F32.sub (s.anaW n ANA.EU_HI) (s.anaW n ANA.EU_LO)))

/-- The current driven: none before the island is ready (R34), while the output may not drive (R356), in mis-wiring or with an
island fault; LIM_LO in the thermal limit (R371). -/
def anaDriven (s : State) (n : Nat) : Option Word :=
  if s.mayDrive (pgANA n) && s.active (pgANA n) && s.anaOut n && s.on (pgANA n) ANA.STATUS.READY && !s.on (pgANA n) ANA.STATUS.MISWIRE
      && (s.anaRt n).island == 0 then
    (if s.on (pgANA n) ANA.STATUS.THERMAL then (s.anaRt n).cmd.map (fun _ => s.anaW n ANA.LIM_LO) else (s.anaRt n).cmd)
  else none

/-- The step of a passive output at current `c` (R370): a higher step needs 0.2 mA above its lower edge. -/
def anaStepAt (c : Word) (cur : Nat) : Nat :=
  let above (n : Nat) := f32Exceeds c F32.zero n 10 || !f32Exceeds (F32.ofRat n 10) c 0 1
  let ok (k edge : Nat) := above (if cur < k then edge + 2 else edge)
  if ok 3 80 then 3 else if ok 2 60 then 2 else if ok 1 45 then 1 else 0

/-- `UPD_US` of a step (R370). -/
def updUs (step : Nat) : Nat := if step = 0 then 100000 else if step = 1 then 20000 else if step = 2 then 5000 else 0

/-- The clock step of a passive output follows the lower of the commanded and the measured current (R370); a change is recorded at
most once per second. -/
def anaClock (s : State) (n : Nat) : State :=
  let pg := pgANA n
  if s.anaType n ≠ 4 then s
  else
    let i := s.anaW n ANA.MA
    let c := match (s.anaRt n).cmd with
      | some c => F32.min c i
      | none => i
    let new := anaStepAt c (s.get pg ANA.STATUS.CLK_STEP)
    if new = s.get pg ANA.STATUS.CLK_STEP then s
    else
      let s1 := s.put pg ANA.STATUS.CLK_STEP new
      if s1.mayRecord (0x1600 + n) then (s1.markRecord (0x1600 + n)).raise pg 0x1E4 0 [n, new, updUs new] else s1

/-- A command takes effect, the clock step of a lower current with it (R370). -/
def anaSet (s : State) (n : Nat) (c : Option Word) : State :=
  (s.setAnaRt n { s.anaRt n with cmd := c, next := none }).anaClock n

/-- A new command of an output: at once, or at the next update instant of a passive output at a reduced step (R370). -/
def anaCommand (s : State) (n : Nat) (c : Option Word) : State :=
  if s.anaType n = 4 ∧ s.get (pgANA n) ANA.STATUS.CLK_STEP < 3 then s.setAnaRt n { s.anaRt n with next := some c }
  else s.anaSet n c

/-- An update instant of a passive output (R370). -/
def anaUpdate (s : State) (n : Nat) : State :=
  match (s.anaRt n).next with
  | some c => s.anaSet n c
  | none => s

/-- The safe behaviour of an output (R369): 0 SAFE_VAL, 1 hold last, 2 high impedance. -/
def anaSafe (s : State) (n : Nat) : State :=
  match s.get (pgANA n) ANA.CFG.SAFE with
  | 0 => s.anaCommand n (some (s.aoCurrent n (s.anaW n ANA.SAFE_VAL)))
  | 2 => s.anaCommand n none
  | _ => s

def anaSafeAll (s : State) : State :=
  forEach ((List.range 16).filter (fun n => s.anaOut n)) (fun s n => s.anaSafe n) s

/-- The outputs whose OUT entry is `i`. -/
def anaOutOf (s : State) (i : Nat) : List Nat :=
  (List.range 16).filter (fun n => s.anaOut n && s.on (pgANA n) ANA.BIND.OUT_VALID
    && s.get (pgANA n) ANA.BIND.OUT_INDEX == i)

/-- The outputs bound to an entry take a value of it at an instant of R355. -/
def anaApply (s : State) (o : OutVal) : State :=
  if s.st pgSEQ = 2 then s
  else forEach (s.anaOutOf o.entry) (fun s n =>
    if o.bad || !F32.finite o.word then s.anaSafe n
    else s.anaCommand n (some (s.aoCurrent n o.word))) s

/-- The outputs bound to entry `i` take its value as it stands. -/
def anaTake (s : State) (i : Nat) : State := s.anaApply (s.imgOut i)

def anaSafeOf (s : State) (i : Nat) : State := forEach (s.anaOutOf i) (fun s n => s.anaSafe n) s

/-- The channel writes its IN entry (R354). -/
def anaWriteIn (s : State) (n : Nat) (v : Word) (q : Quality) : State :=
  let pg := pgANA n
  let s1 := s.setReg pg ANA.VALUE.off v
  if s1.on pg ANA.BIND.IN_VALID then s1.imgWriteWord (s1.get pg ANA.BIND.IN_INDEX) v q else s1

/-- The value or readback is written BAD. -/
def anaBad (s : State) (n : Nat) : State := s.anaWriteIn n (s.anaW n ANA.VALUE) qBAD

/-- Something of R368, R371 or R373 makes the value BAD. -/
def anaBroken (s : State) (n : Nat) : Bool :=
  s.on (pgANA n) ANA.STATUS.MISWIRE || s.on (pgANA n) ANA.STATUS.THERMAL || (s.anaRt n).island != 0
    || s.isFenced (pgANA n) || s.anaType n == 0

/-- The island is fenced (R410). -/
def anaFence (s : State) (n : Nat) : State :=
  (s.setAnaRt n { s.anaRt n with cmd := none, next := none }).anaBad n

/-- Range of an input current: 0 in, 1 below BAD_LO, 2 above BAD_HI; crossings are recorded (R368). -/
def anaRange (s : State) (n : Nat) (i : Word) : State :=
  let pg := pgANA n
  let r := s.anaRt n
  let new := if F32.lt i (s.anaW n ANA.BAD_LO) then 1 else if F32.lt (s.anaW n ANA.BAD_HI) i then 2 else 0
  if new = r.range then s
  else
    let sub := if new = 1 then 0 else if new = 2 then 1 else 2
    ((s.setAnaRt n { r with range := new }).setFault pg 16).raise pg 0x1E0 sub [n, microAmp i]

/-- Conversion period in ms (R368, R377). -/
def anaConvMs (s : State) (n : Nat) : Nat := [1, 2, 5, 10, 20, 50, 100].getD (s.get (pgANA n) ANA.CFG.CONV) 100

/-- The supply of an island in mV at the end of a conversion (R371). On a power channel the supply of an active output moves, by at
most 2 V per ms up and 0.5 V per ms down, towards the loop's voltage and 2 V of headroom, or to 28 V while its current is
short; an active input's is TX_DV. Any other island's is measured as `mv`. -/
def anaSupply (s : State) (n mv : Nat) : Nat :=
  let pg := pgANA n
  if 4 ≤ n then mv
  else if s.anaType n = 1 then s.get pg ANA.SUPPLY.TX_DV * 100
  else if s.anaType n = 3 then
    let cur := s.get pg ANA.SUPPLY_MV.MV
    let goal := if (s.anaRt n).boost then 28000 else min 28000 (max 6000 (mv + 2000))
    let ms := s.anaConvMs n
    if cur ≤ goal then min goal (cur + 2000 * ms) else max goal (cur - 500 * ms)
  else mv

/-- The output reports COMPLIANCE, or is cleared of it (R372). -/
def anaCompliance (s : State) (n : Nat) (i : Word) : State :=
  let pg := pgANA n
  let mv := s.get pg ANA.SUPPLY_MV.MV
  match s.anaDriven n with
  | none => s.setAnaRt n { s.anaRt n with short := 0, good := 0, boost := false, at28 := none }
  | some c =>
    let r := s.anaRt n
    let short := f32Exceeds c i 1 10
    let within := !short && !f32Exceeds i c 1 10
    let r1 := { r with short := if short then r.short + 1 else 0, good := if within then r.good + 1 else 0 }
    let gap := (microAmp c + 4294967296 - microAmp i) % 4294967296
    if s.on pg ANA.STATUS.COMPLIANCE then
      (if 3 ≤ r1.good then
        (((s.setAnaRt n { r1 with boost := false, at28 := none }).put pg ANA.STATUS.COMPLIANCE 0).cond pg 17 false).raise pg
          0x1E1 1 [n, mv, gap]
      else s.setAnaRt n r1)
    else
      let power := decide (n < 4) && s.anaType n == 3
      let r2 := if power && decide (3 ≤ r1.short) then
          { r1 with boost := true, at28 := if decide (28000 ≤ mv) && r1.at28.isNone then some s.clk.ref else r1.at28 }
        else if short then r1 else { r1 with boost := false, at28 := none }
      let due := short && (if power then (match r2.at28 with
          | some t => decide (t + 1000000 ≤ s.clk.ref)
          | none => false) else decide (3 ≤ r2.short))
      if due then
        ((((s.setAnaRt n { r2 with good := 0 }).put pg ANA.STATUS.COMPLIANCE 1).setFault pg 17).cond pg 17 true).raise pg
          0x1E1 0 [n, mv, gap]
      else s.setAnaRt n r2

end State

/-! ### The commands -/

/-- A conversion of island `n` ends now (R368): its period's grid has an instant at most 20 µs ago, which no conversion ended at. -/
def State.anaDue (s : State) (n : Nat) : Bool :=
  let p := s.anaConvMs n * 1000000
  decide (s.e % p ≤ 20000) && (s.anaRt n).convAt != some (s.e - s.e % p)

/-- The deviation of an output of more than 0.2 mA stands, and since when (R369). -/
def State.anaDeviates (s : State) (n : Nat) (i : Word) : Bool :=
  match s.anaDriven n with
  | some c => f32Exceeds c i 1 5 || f32Exceeds i c 1 5
  | none => false

/-- ANALOGUE_CONVERSION (R368 to R372): island `n` ends a conversion of the loop current `i`, binary32 mA; `mv` is the voltage
across the loop of an active output on a power channel, and the supply of any other island. The power stage's temperature is a
free value (assumption 1). -/
def execAnalogueConversion (n : Fin 16) (i : BitVec 32) (mv : BitVec 16) (s : State) : Out :=
  let k := n.val
  let pg := pgANA k
  if !s.active pg || s.anaType k == 0 || !s.anaDue k then .next s
  else
    let p := s.anaConvMs k * 1000000
    let s0 := ((((s.setAnaRt k { s.anaRt k with convAt := some (s.e - s.e % p) }).setReg pg ANA.MA.off i).put pg ANA.SUPPLY_MV.MV
      (s.anaSupply k mv.toNat)).put pg ANA.TEMP.T s.freeWord.toNat).useFree
    if s0.anaIn k then
      let s1 := s0.anaRange k i
      let q := if s1.anaBroken k || (s1.anaRt k).range != 0 then qBAD
        else if F32.lt i (s1.anaW k ANA.LIM_LO) || F32.lt (s1.anaW k ANA.LIM_HI) i then qUNCERTAIN else 0
      .next (s1.anaWriteIn k (s1.aiValue k i) q)
    else
      let s1 := (s0.anaClock k).anaCompliance k i
      let dev := s1.anaDeviates k i
      let rb := (s1.anaRt k).rbErr && dev
      let s2 := s1.setAnaRt k { s1.anaRt k with
        rbErr := rb, devAt := if dev then some ((s1.anaRt k).devAt.getD s1.clk.ref) else none }
      let bad := s2.anaBroken k || s2.on pg ANA.STATUS.COMPLIANCE || s2.on pg ANA.STATUS.NO_LOOP || rb
      .next (s2.anaWriteIn k (s2.aoReadback k i) (if bad then qBAD else 0))

/-- ANALOGUE_READBACK (R369): a deviation of more than 0.2 mA has lasted 100 ms over the conversions, and R372 does not explain it;
one report for each. -/
def execAnalogueReadback (n : Fin 16) (dev : BitVec 32) (s : State) : Out :=
  let k := n.val
  let pg := pgANA k
  let r := s.anaRt k
  let shown := unsigned 32 (Int.ofNat (microAmp (s.anaW k ANA.MA)) - Int.ofNat (((s.anaDriven k).map microAmp).getD 0))
  if s.active pg && s.anaOut k && !s.on pg ANA.STATUS.COMPLIANCE && !r.boost && !r.rbErr
      && r.devAt.any (fun t => decide (t + 10000000 ≤ s.clk.ref)) && dev.toNat == shown then
    .next ((((s.setAnaRt k { r with rbErr := true }).setFault pg 22).raise pg 0x1E8 0 [k, shown]).anaBad k)
  else .next s

/-- NO_LOOP (R370): the loop current of a passive output falls below 3.6 mA (`lost`), or returns. -/
def execNoLoop (n : Fin 16) (lost : Bool) (s : State) : Out :=
  let k := n.val
  let pg := pgANA k
  if !s.pageOn pg || s.anaType k != 4 || s.on pg ANA.STATUS.NO_LOOP == lost then .next s
  else if lost then
    .next (((((s.put pg ANA.STATUS.NO_LOOP 1).setFault pg 20).cond pg 20 true).raise pg 0x1E5 0 [k]).anaBad k)
  else .next (((s.put pg ANA.STATUS.NO_LOOP 0).cond pg 20 false).raise pg 0x1E5 1 [k])

/-- ISLAND_THERMAL (R371): the power stage of a power channel trips; an output falls to LIM_LO. -/
def execIslandThermal (n : Fin 16) (s : State) : Out :=
  let k := n.val
  let pg := pgANA k
  if !s.pageOn pg || decide (4 ≤ k) || s.on pg ANA.STATUS.THERMAL then .next s
  else
    let s1 := (((s.setAnaRt k { s.anaRt k with cool := false }).put pg ANA.STATUS.THERMAL 1).setFault pg 18).cond pg 18 true
    .next ((s1.raise pg 0x1E2 0 [k]).anaBad k)

/-- The power stage of an island cools (R371). -/
def State.anaCooled (s : State) (k : Nat) : State :=
  (s.setAnaRt k { s.anaRt k with cool := true }).cond (pgANA k) 18 false

/-- ANA_RESTART (R371): CMD RESTART. -/
def execAnaRestart (m : Fin 4) (n : Fin 16) (s : State) : Out :=
  let k := n.val
  let pg := pgANA k
  .next (s.action pg 0x074 m.val (fun s =>
    if !s.on pg ANA.STATUS.THERMAL then s
    else if (s.anaRt k).cool then (s.put pg ANA.STATUS.THERMAL 0).raise pg 0x1E2 1 [k]
    else s.raise pg 0x1E2 2 [k]))

/-- MISWIRE (R373): the current limit is engaged or a reverse voltage stands; `mv` is the terminal voltage. -/
def execMiswire (n : Fin 16) (mv : BitVec 32) (s : State) : Out :=
  let k := n.val
  let pg := pgANA k
  if !s.pageOn pg || s.on pg ANA.STATUS.MISWIRE then .next s
  else
    let s1 := (((s.setAnaRt k { s.anaRt k with testAt := s.clk.ref }).put pg ANA.STATUS.MISWIRE 1).setFault pg 19).cond pg 19 true
    .next ((s1.raise pg 0x1E3 0 [k, mv.toNat]).anaBad k)

/-- MISWIRE_RETEST (R373): the test 1 s after the one before; `clear` says that the condition is gone. -/
def execMiswireRetest (n : Fin 16) (clear : Bool) (mv : BitVec 32) (s : State) : Out :=
  let k := n.val
  let pg := pgANA k
  if !s.on pg ANA.STATUS.MISWIRE || decide (s.clk.ref < (s.anaRt k).testAt + 100000000) then .next s
  else if clear then .next (((s.put pg ANA.STATUS.MISWIRE 0).cond pg 19 false).raise pg 0x1E3 1 [k, mv.toNat])
  else .next (s.setAnaRt k { s.anaRt k with testAt := s.clk.ref })

/-- ISLAND (R373): the island loses its link (kind 1), its calibration check (2) or its converter (3). -/
def execIsland (n : Fin 16) (kind : Fin 3) (s : State) : Out :=
  let k := n.val
  let pg := pgANA k
  if !s.pageOn pg || (s.anaRt k).island == kind.val + 1 then .next s
  else
    let s1 := (s.setAnaRt k { s.anaRt k with island := kind.val + 1 }).put pg ANA.STATUS.READY 0
    .next ((((s1.setFault pg 23).cond pg 23 true).raise pg 0x1E7 0 [k, kind.val + 1]).anaBad k)

/-- ISLAND_LINK_RESTORED (R412): the link, calibration or converter of the island returns. -/
def execIslandLinkRestored (n : Fin 16) (s : State) : Out :=
  let k := n.val
  if (s.anaRt k).island = 0 then .next s
  else .next ((s.setAnaRt k { s.anaRt k with island := 0 }).cond (pgANA k) 23 false)

/-- HART_SEND (R374). -/
def execHartSend (m : Fin 4) (n : Fin 16) (s : State) : Out :=
  let k := n.val
  let pg := pgANA k
  .next (s.action pg 0x0A4 m.val (fun s =>
    if !s.on pg ANA.CFG.HART_EN then s
    else if (s.anaRt k).hart || !s.on pg HDR.CTRL.RUN || s.on pg ANA.STATUS.MISWIRE || s.on pg ANA.STATUS.NO_LOOP
        || (s.anaType k == 4 && s.get pg ANA.STATUS.CLK_STEP == 0) then s.put pg ANA.HART_STATUS.RESULT 6
    else
      let len := s.get pg ANA.HART_LEN.TX_LEN
      let raw := (wordsBytes ((List.range 64).map (fun i => s.reg pg (ANA.HART_TX i).off))).take len
      let frame := match raw with
        | d :: a :: rest => d :: (a ||| 0x80#8) :: rest
        | l => l
      let bytes := List.replicate (s.get pg ANA.HART_CFG.PREAMBLES) 0xFF#8 ++ frame ++ [hartCheck frame]
      let s1 := s.setAnaRt k { s.anaRt k with hart := true, frame := bytes.map BitVec.toNat }
      ((s1.put pg ANA.HART_STATUS.RESULT 1).put pg ANA.HART_STATUS.TRIES 1).send (11 + k) 0 (bytes.map BitVec.toNat)))

/-- A running transaction ends with a result, and source 0x360 + n is raised (R374). -/
def State.hartEnd (s : State) (k result : Nat) : State :=
  ((s.setAnaRt k { s.anaRt k with hart := false }).put (pgANA k) ANA.HART_STATUS.RESULT result).event (0x360 + k)

/-- HART_ABORT (R374). -/
def execHartAbort (m : Fin 4) (n : Fin 16) (s : State) : Out :=
  .next (s.action (pgANA n.val) 0x0A4 m.val (fun s => if (s.anaRt n.val).hart then s.hartEnd n.val 5 else s))

/-- HART_TAKE (R374). -/
def execHartTake (m : Fin 4) (n : Fin 16) (s : State) : Out :=
  .next (s.action (pgANA n.val) 0x0A4 m.val (fun s => s.put (pgANA n.val) ANA.HART_STATUS.TAKEN 1))

/-- Bytes enter HART_RX (R374). -/
def State.hartStore (s : State) (k : Nat) (bytes : List Byte) : State :=
  let pg := pgANA k
  let b := bytes.take 255
  let s1 := forEach (List.range ((b.length + 3) / 4)) (fun s i =>
    s.put pg (ANA.HART_RX i) (leNat ((b.drop (4 * i)).take 4))) s
  (s1.put pg ANA.HART_STATUS.RX_LEN b.length).put pg ANA.HART_STATUS.TAKEN 0

/-- HART_TRANSACTION_END (R374): RESULT 2 with the response's bytes, 3 without a response, 4 after a check error; `tries` is the
number of attempts a response took. RETRIES attempts follow the first where none has one. -/
def execHartTransactionEnd (n : Fin 16) (result : Fin 3) (tries : BitVec 8) (response : List Byte) (s : State) : Out :=
  let k := n.val
  let pg := pgANA k
  if !(s.anaRt k).hart then .next s
  else
    let res := result.val + 2
    let most := s.get pg ANA.HART_CFG.RETRIES + 1
    let n := if res = 2 then max 1 (min most tries.toNat) else most
    let s0 := forEach (List.range (n - 1)) (fun u _ => u.send (11 + k) 0 (s.anaRt k).frame) (s.put pg ANA.HART_STATUS.TRIES n)
    let s1 := if res = 2 then s0.hartStore k response else s0
    let s2 := s1.hartEnd k res
    let delim := bits (s.get pg (ANA.HART_TX 0)) 7 0
    let at_ := (if bitOf delim 7 then 6 else 2) + bits delim 6 5
    let cmd := bits (s.get pg (ANA.HART_TX (at_ / 4))) (8 * (at_ % 4) + 7) (8 * (at_ % 4))
    .next (if res = 2 then s2 else (s2.setFault pg 21).raise pg 0x1E6 res [k, cmd])

/-- HART_BURST (R374): a burst frame arrives while no transaction runs. -/
def execHartBurst (n : Fin 16) (frame : List Byte) (s : State) : Out :=
  let k := n.val
  let pg := pgANA k
  if !s.active pg || !s.on pg ANA.CFG.HART_EN || (s.anaRt k).hart then .next s
  else if s.on pg ANA.HART_STATUS.TAKEN then
    .next (((s.hartStore k frame).put pg ANA.HART_STATUS.RESULT 7).event (0x360 + k))
  else .next (s.incMod pg ANA.BURST_LOST)

end Sys2Proof.Machine
end

