-- ==== Sys2Proof/Machine/Dio.lean ====
section
/-! DEFINITION. The digital groups: inputs, edge buffers, output switches, their checks and their field supplies (R354 to
R366). -/

namespace Sys2Proof.Machine
namespace State

/-- Page and channel within the group of DIO channel `ch`. -/
def dioPg (ch : Nat) : Nat := pgDIOG (ch / 8)

def dioRt (s : State) (ch : Nat) : DioRt := Store.get {} s.dio ch
def setDioRt (s : State) (ch : Nat) (r : DioRt) : State := { s with dio := Store.set {} s.dio ch r }

def dioMode (s : State) (ch : Nat) : Nat := s.get (dioPg ch) (DIOG.CH_CFG.MODE (ch % 8))
def dioIsIn (s : State) (ch : Nat) : Bool := s.dioMode ch == 1 || s.dioMode ch == 2
def dioIsOut (s : State) (ch : Nat) : Bool := s.dioMode ch == 3 || s.dioMode ch == 4
def dioInv (s : State) (ch : Nat) : Bool := s.on (dioPg ch) (DIOG.CH_CFG.INVERT (ch % 8))

/-- Bit of a channel in LEVELS: `lo` is 16 for CMD, 8 for RAW, 0 for LEVEL. -/
def levelF (lo ch : Nat) : Fld := ⟨0x048, lo + ch % 8, lo + ch % 8⟩
def dioCmd (s : State) (ch : Nat) : Bool := s.on (dioPg ch) (levelF 16 ch)
def dioLevel (s : State) (ch : Nat) : Bool := s.on (dioPg ch) (levelF 0 ch)

def fsMissing (s : State) (g : Nat) : Bool := s.on (pgDIOG g) DIOG.STATUS.FS_MISSING
def fsLow (s : State) (g : Nat) : Bool := s.on (pgDIOG g) DIOG.STATUS.FS_LOW

/-- Quality of what a group's channels write (R366). -/
def dioQual (s : State) (g : Nat) : Quality :=
  if s.fsMissing g || s.isFenced (pgDIOG g) then qBAD else if s.fsLow g then qUNCERTAIN else 0

/-- A channel writes its IN entry (R354); with RUN = 0 it writes none, save as its group is fenced (R376, R410). -/
def dioWriteIn (s : State) (ch : Nat) : State :=
  let pg := dioPg ch
  if (s.active pg || s.isFenced pg) && s.on pg (DIOG.CH_BIND.IN_VALID (ch % 8)) && (s.dioIsIn ch || s.dioIsOut ch) then
    s.imgWriteBool (s.get pg (DIOG.CH_BIND.IN_INDEX (ch % 8))) (s.dioLevel ch) (s.dioQual (ch / 8))
  else s

/-- The channels of group `g`. -/
def dioChans (g : Nat) : List Nat := (List.range 8).map (fun c => 8 * g + c)

/-- The state that channel `ch`'s switch takes (R356, R361, R366, R376). After a restart or a return of the supply it follows its
command from the next loop base tick. -/
def dioClosed (s : State) (ch : Nat) : Bool :=
  let pg := dioPg ch
  s.mayDrive pg && s.active pg && s.dioIsOut ch && (s.dioRt ch).want
    && !s.on pg (DIOG.CH_STAT.THERMAL_OFF (ch % 8)) && !s.fsMissing (ch / 8)
    && !(s.dioRt ch).held

/-- The switch follows its command: a change from off to on counts in OPS and in TLY (R365); an open switch carries no
current and is in no limit. -/
def dioRefresh (s : State) (ch : Nat) : State :=
  let pg := dioPg ch
  let new := s.dioClosed ch
  let old := s.dioCmd ch
  if new = old then s
  else
    let s1 := (s.setDioRt ch { s.dioRt ch with changedAt := s.clk.ref }).putB pg (levelF 16 ch) new
    if new then (s1.incMod pg (DIOG.OPS (ch % 8))).tallyAdd (13 + ch) 1
    else (s1.put pg (DIOG.CH_STAT.IN_LIMIT (ch % 8)) 0).put pg (DIOG.CH_STAT.MA (ch % 8)) 0

def dioRefreshGroup (s : State) (g : Nat) : State := forEach (dioChans g) (fun s ch => s.dioRefresh ch) s

/-- At a loop base tick the switches that wait for it follow their commands (R361, R366). -/
def dioBaseTick (s : State) : State :=
  forEach ((List.range 64).filter (fun ch => (s.dioRt ch).held)) (fun u ch =>
    (u.setDioRt ch { u.dioRt ch with held := false }).dioRefresh ch) s

/-- The channels of group `g` follow their commands from the next loop base tick. -/
def dioHoldGroup (s : State) (g : Nat) : State :=
  forEach (dioChans g) (fun u ch => u.setDioRt ch { u.dioRt ch with held := true }) s

/-- A commit that reverses the accepted levels of inputs, and the commands of outputs, by INVERT (R357): the inputs are written
anew. -/
def dioInverted (s : State) (g : Nat) : State :=
  forEach ((dioChans g).filter (fun ch => s.dioIsIn ch && (s.dioRt ch).accepted
      && s.dioLevel ch == (s.on (dioPg ch) (levelF 8 ch) == s.dioInv ch))) (fun u ch =>
    (u.putB (dioPg ch) (levelF 0 ch) (!u.dioLevel ch)).dioWriteIn ch) s

/-- Every switch follows its command: a change of role, mode or sequence. -/
def dioRefreshAll (s : State) : State := forEach (List.range 64) (fun s ch => s.dioRefresh ch) s

/-- A command of the switch: `v` before INVERT (R357). -/
def dioCommand (s : State) (ch : Nat) (v : Bool) : State :=
  (s.setDioRt ch { s.dioRt ch with want := v != s.dioInv ch }).dioRefresh ch

/-- The safe behaviour of an output (R355): SAFE 0 off, 1 on, 2 hold last. -/
def dioSafe (s : State) (ch : Nat) : State :=
  match s.get (dioPg ch) (DIOG.CH_CFG.SAFE (ch % 8)) with
  | 0 => (s.setDioRt ch { s.dioRt ch with want := false }).dioRefresh ch
  | 1 => (s.setDioRt ch { s.dioRt ch with want := true }).dioRefresh ch
  | _ => s.dioRefresh ch

def dioSafeAll (s : State) : State :=
  forEach ((List.range 64).filter (fun ch => s.dioIsOut ch)) (fun s ch => s.dioSafe ch) s

/-- At T_run an angle-driven output is off until the first action (R364). -/
def dioRunEntry (s : State) : State :=
  forEach ((List.range 64).filter (fun ch => s.dioMode ch == 4)) (fun s ch =>
    (s.setDioRt ch { s.dioRt ch with want := false }).dioRefresh ch) s

/-- The image-driven channels whose OUT entry is `i`. -/
def dioOutOf (s : State) (i : Nat) : List Nat :=
  (List.range 64).filter (fun ch => s.dioMode ch == 3 && s.on (dioPg ch) (DIOG.CH_BIND.OUT_VALID (ch % 8))
    && s.get (dioPg ch) (DIOG.CH_BIND.OUT_INDEX (ch % 8)) == i)

/-- The outputs bound to an entry take a value of it at an instant of R355. -/
def dioApply (s : State) (o : OutVal) : State :=
  if s.st pgSEQ = 2 then s
  else forEach (s.dioOutOf o.entry) (fun s ch => if o.bad then s.dioSafe ch else s.dioCommand ch (bitOf o.val 0)) s

/-- The outputs bound to entry `i` take its value as it stands. -/
def dioTake (s : State) (i : Nat) : State := s.dioApply (s.imgOut i)

/-- The outputs bound to entry `i` take their safe behaviour. -/
def dioSafeOf (s : State) (i : Nat) : State := forEach (s.dioOutOf i) (fun s ch => s.dioSafe ch) s

/-- An angle action sets or clears a channel in angle-driven mode (R222, R364). -/
def dioAngle (s : State) (ch : Nat) (v : Bool) : State := if s.dioMode ch = 4 then s.dioCommand ch v else s

/-- The group is fenced (R410): switches open, inputs and readbacks written BAD. -/
def dioFence (s : State) (g : Nat) : State :=
  forEach (dioChans g) (fun s ch => s.dioWriteIn ch) (s.dioRefreshGroup g)

/-- An accepted change goes to the edge buffer (R360). `origin` is the extended stamp time of its origin. -/
def dioEdge (s : State) (ch : Nat) (level : Bool) (origin : Nat) : State :=
  let pg := dioPg ch
  let c := ch % 8
  let r := s.dioRt ch
  let kinds := s.get pg (DIOG.CH_CFG.EDGE c)
  if !bitOf kinds (if level then 0 else 1) then s
  else if r.edges.length < 64 then
    let en : EdgeEntry := { ns := origin % 4294967296, hi := origin / 4294967296 % 16777216, level := level
                            lost := r.lostRun, untrusted := !(s.on pgTIME TIME.STATUS.STP_TRUST) }
    let s1 := (s.setDioRt ch { r with edges := r.edges ++ [en], lostRun := false }).put pg (DIOG.CH_STAT.EDGES c)
      (r.edges.length + 1)
    if s1.on pg (DIOG.CH_CFG.EDGE_EVT c) then s1.event (0x350 + ch / 8) else s1
  else
    let s1 := s.incMod pg DIOG.EDGE_LOST 1 c
    if r.lostRun then s1
    else ((s1.setDioRt ch { r with lostRun := true }).setFault pg 22).raise pg 0x1C5 0 [ch, s1.get pg DIOG.EDGE_LOST c]

end State

/-! ### The commands -/

/-- A run of a level that began `age` ns ago is accepted (R358, R359): with pulsed sampling its origin is a sample instant and
max(1, ceil(FILT / SPER)) samples have seen it; with continuous sampling it has held for FILT. -/
def State.dioFiltered (s : State) (n age : Nat) : Bool :=
  let filt := s.get (State.dioPg n) (DIOG.CH_CFG.FILT (n % 8)) * 1000
  if s.dioMode n = 1 then
    let sper := max 1 (s.get (State.dioPg n) DIOG.GCFG.SPER) * 10000
    decide (age ≤ s.e) && (s.e - age) % sper == 0 && decide ((max 1 ((filt + sper - 1) / sper) - 1) * sper ≤ age)
  else decide (filt ≤ age)

/-- DIO_LEVEL_ACCEPTED (R358 to R360, R354): a level has held for the filter time on an input, or the terminal of an output
changes; `level` is the level at the terminal, `age` the time in ns since its origin. -/
def execDioLevelAccepted (ch : Fin 64) (level : Bool) (age : BitVec 32) (s : State) : Out :=
  let n := ch.val
  let pg := State.dioPg n
  if !s.active pg || s.fsMissing (n / 8) then .next s
  else if s.dioIsIn n then
    let r := s.dioRt n
    let v := level != s.dioInv n
    if (r.accepted && s.dioLevel n == v) || !s.dioFiltered n age.toNat then .next s
    else
      let s1 := ((s.putB pg (State.levelF 8 n) level).putB pg (State.levelF 0 n) v).setDioRt n { r with accepted := true }
      let s2 := if r.accepted then s1.dioEdge n v (s1.eStp - age.toNat) else s1
      .next (s2.dioWriteIn n)
  else if s.dioIsOut n then
    let s1 := (s.putB pg (State.levelF 8 n) level).putB pg (State.levelF 0 n) level
    let s2 := if level = s1.dioCmd n then s1.put pg (DIOG.CH_STAT.READBACK_ERR (n % 8)) 0 else s1
    .next (s2.dioWriteIn n)
  else .next s

/-- The switch of channel `n` has stood as it is for `ms`. -/
def State.dioStood (s : State) (n ms : Nat) : Bool := decide ((s.dioRt n).changedAt + ms * 100000 ≤ s.clk.ref)

/-- OVERLOAD (R361): an output has been in current limit, 0.7 A or more, for 5 ms at `ma`; once for each episode. -/
def execOverload (ch : Fin 64) (ma : BitVec 16) (s : State) : Out :=
  let n := ch.val
  let pg := State.dioPg n
  if !s.dioCmd n || decide (ma.toNat < 700) || !s.dioStood n 5 then .next s
  else
    let s1 := s.put pg (DIOG.CH_STAT.MA (n % 8)) ma.toNat
    .next (if s1.on pg (DIOG.CH_STAT.IN_LIMIT (n % 8)) then s1
      else ((s1.put pg (DIOG.CH_STAT.IN_LIMIT (n % 8)) 1).setFault pg 18).raise pg 0x1C1 0 [n, ma.toNat])

/-- DIO_THERMAL (R361): the switch's own sensor trips. -/
def execDioThermal (ch : Fin 64) (s : State) : Out :=
  let n := ch.val
  let pg := State.dioPg n
  if !s.pageOn pg || !s.dioIsOut n || s.on pg (DIOG.CH_STAT.THERMAL_OFF (n % 8)) then .next s
  else
    let s1 := (s.put pg (DIOG.CH_STAT.THERMAL_OFF (n % 8)) 1).put pg (DIOG.CH_STAT.COOL (n % 8)) 0
    .next ((((s1.dioRefresh n).setFault pg 19).cond pg 19 true).raise pg 0x1C2 0 [n])

/-- The switch of a channel cools below its restart temperature (R361): the condition stands while another thermally shut
channel of the group has not cooled. -/
def State.dioCooled (s : State) (n : Nat) : State :=
  let pg := State.dioPg n
  let s1 := s.put pg (DIOG.CH_STAT.COOL (n % 8)) 1
  s1.cond pg 19 ((List.range 8).any (fun c =>
    s1.on pg (DIOG.CH_STAT.THERMAL_OFF c) && !s1.on pg (DIOG.CH_STAT.COOL c)))

/-- One RESTART bit (R361): the channel follows its command from the next loop base tick. -/
def State.dioRestart (s : State) (n : Nat) : State :=
  let pg := State.dioPg n
  if !s.on pg (DIOG.CH_STAT.COOL (n % 8)) then s.raise pg 0x1C2 2 [n]
  else if s.on pg (DIOG.CH_STAT.THERMAL_OFF (n % 8)) then
    ((s.put pg (DIOG.CH_STAT.THERMAL_OFF (n % 8)) 0).raise pg 0x1C2 1 [n]).setDioRt n { s.dioRt n with held := true }
  else s

/-- DIO_RESTART (R361): a write of RESTART on a group's page. -/
def execDioRestart (m : Fin 4) (g : Fin 8) (mask : BitVec 8) (s : State) : Out :=
  .next (s.action (pgDIOG g.val) 0x04C m.val (fun s =>
    forEach ((State.dioChans g.val).filter (fun ch => bitOf mask.toNat (ch % 8))) (fun s ch => s.dioRestart ch) s))

/-- A check of the load finds it missing (`bad`), or passes (R362): `sub` names the check. -/
def State.dioLoadCheck (s : State) (n sub : Nat) (bad : Bool) : State :=
  let pg := State.dioPg n
  let f := DIOG.CH_STAT.WIRE_BREAK (n % 8)
  if bad then ((s.put pg f 1).setFault pg 20).raise pg 0x1C3 sub [n]
  else if s.on pg f then (s.put pg f 0).raise pg 0x1C3 2 [n] else s

/-- An output receives test pulses (R362). -/
def State.dioPulses (s : State) (n : Nat) : Bool :=
  let pg := State.dioPg n
  s.mayDrive pg && s.active pg && s.dioIsOut n && s.on pg (DIOG.CH_CFG.TP_EN (n % 8)) && !s.dioCmd n
    && !s.fsMissing (n / 8) && !s.on pg (DIOG.CH_STAT.THERMAL_OFF (n % 8))

/-- `ticks` of the reference have passed since the last pulse of channel `n`. -/
def State.dioPulsed (s : State) (n ticks : Nat) : Bool := (s.dioRt n).pulseAt.all (fun t => decide (t + ticks ≤ s.clk.ref))

/-- The pulse of channel `n` is next in its group (R362): its period has passed, no lower channel is due, and the group has not
pulsed for 1 ms. -/
def State.dioPulseDue (s : State) (n : Nat) : Bool :=
  let period := s.get (State.dioPg n) DIOG.GCFG.TP_PERIOD * 100000000
  s.dioPulses n && s.dioPulsed n period
    && (State.dioChans (n / 8)).all (fun c => s.dioPulsed c 100000 && (decide (n ≤ c) || !s.dioPulses c || !s.dioPulsed c period))

/-- TEST_PULSE (R362): the pulse of an output that is commanded off ends; `low` says that the load current stayed below 1 mA
throughout. -/
def execTestPulse (ch : Fin 64) (low : Bool) (s : State) : Out :=
  let n := ch.val
  if s.dioPulseDue n then .next ((s.setDioRt n { s.dioRt n with pulseAt := some s.clk.ref }).dioLoadCheck n 0 low)
  else .next s

/-- OPEN_LOAD (R362): the check of an output that is on, with the load current `ma` of its last 100 ms: below 2 mA it is
reported, at 2 mA or more it passes; below 0.7 A the switch is in no current limit. -/
def execOpenLoad (ch : Fin 64) (ma : BitVec 16) (s : State) : Out :=
  let n := ch.val
  let pg := State.dioPg n
  if s.dioCmd n && s.on pg (DIOG.CH_CFG.OL_EN (n % 8)) && s.dioStood n 100 then
    let s1 := if ma.toNat < 700 then s.put pg (DIOG.CH_STAT.IN_LIMIT (n % 8)) 0 else s
    .next ((s1.put pg (DIOG.CH_STAT.MA (n % 8)) ma.toNat).dioLoadCheck n 1 (decide (ma.toNat < 2)))
  else .next s

/-- READBACK (R363): the terminal level of a driven output has differed from its command for 10 ms, beside the 2 ms of rest after
a change of command and the test pulses; one report for each mismatch. -/
def execReadback (ch : Fin 64) (s : State) : Out :=
  let n := ch.val
  let pg := State.dioPg n
  if s.mayDrive pg && s.active pg && s.dioIsOut n && s.on pg (DIOG.CH_CFG.RB_EN (n % 8)) && s.dioLevel n != s.dioCmd n
      && s.dioStood n 12 && !s.on pg (DIOG.CH_STAT.READBACK_ERR (n % 8)) then
    .next (((s.put pg (DIOG.CH_STAT.READBACK_ERR (n % 8)) 1).setFault pg 21).raise pg 0x1C4 0 [n, b2n (s.dioCmd n)])
  else .next s

/-- Every input and readback of a group is written with the quality in force (R354, R366). -/
def State.dioWriteGroup (s : State) (g : Nat) : State := forEach (State.dioChans g) (fun s ch => s.dioWriteIn ch) s

/-- FS_MISSING (R366): the supply has stood at `mv`, below 9.0 V, for 1 ms. -/
def execFsMissing (g : Fin 8) (mv : BitVec 16) (s : State) : Out :=
  let pg := pgDIOG g.val
  if !s.pageOn pg then .next s
  else
    let s0 := s.put pg DIOG.FS_MV.MV mv.toNat
    if s0.fsMissing g.val || decide (9000 ≤ mv.toNat) then .next s0
    else
      let s1 := ((s0.put pg DIOG.STATUS.FS_MISSING 1).setFault pg 16).cond pg 16 true
      let s2 := (s1.raise pg 0x1C0 0 [g.val, mv.toNat]).ownDegrade pg true
      let s3 := forEach (State.dioChans g.val) (fun s ch => s.setDioRt ch { s.dioRt ch with accepted := false }) s2
      .next ((s3.dioRefreshGroup g.val).dioWriteGroup g.val)

/-- FS_LOW (R366): the supply has stood at `mv`, below 19.2 V, for 1 ms. -/
def execFsLow (g : Fin 8) (mv : BitVec 16) (s : State) : Out :=
  let pg := pgDIOG g.val
  if !s.pageOn pg then .next s
  else
    let s0 := s.put pg DIOG.FS_MV.MV mv.toNat
    if s0.fsLow g.val || decide (19200 ≤ mv.toNat) then .next s0
    else
      let s1 := ((s0.put pg DIOG.STATUS.FS_LOW 1).setFault pg 17).cond pg 17 true
      .next ((s1.raise pg 0x1C0 1 [g.val, mv.toNat]).dioWriteGroup g.val)

/-- FS_RESTORED (R366): the supply has stood at `mv` for 10 ms and leaves a condition: Low at 19.7 V, Missing at 10.0 V.
Outputs follow their commands from the next loop base tick; after Missing, inputs are written fresh once their filters accept a
level. -/
def execFsRestored (g : Fin 8) (mv : BitVec 16) (s : State) : Out :=
  let pg := pgDIOG g.val
  if !s.pageOn pg then .next s
  else
    let s0 := s.put pg DIOG.FS_MV.MV mv.toNat
    let s1 := if s0.fsMissing g.val && decide (10000 ≤ mv.toNat) then
        let s2 := ((((s0.put pg DIOG.STATUS.FS_MISSING 0).cond pg 16 false).raise pg 0x1C0 2 [g.val, mv.toNat]).ownDegrade pg
          false).dioHoldGroup g.val
        forEach ((State.dioChans g.val).filter (fun ch => s2.dioIsOut ch)) (fun s ch => s.dioWriteIn ch) s2
      else s0
    .next (if s1.fsLow g.val && decide (19700 ≤ mv.toNat) then
      let s2 := ((s1.put pg DIOG.STATUS.FS_LOW 0).cond pg 17 false).raise pg 0x1C0 2 [g.val, mv.toNat]
      forEach ((State.dioChans g.val).filter (fun ch => (s2.dioRt ch).accepted || s2.dioIsOut ch))
        (fun s ch => s.dioWriteIn ch) s2
    else s1)

/-- EDGE_W1_READ (R360): the read returns the second word of the oldest edge entry of the selected channel and removes the
entry. -/
def execEdgeW1Read (g : Fin 8) (s : State) : Out :=
  let pg := pgDIOG g.val
  if !s.served then .next s
  else if !s.pageOn pg then .next (s.answer 0)
  else
    let c := s.get pg DIOG.EDGE_SEL.CH
    let n := 8 * g.val + c
    match (s.dioRt n).edges with
    | [] => .next (s.answer 0)
    | en :: rest =>
      let w := 2147483648 + b2n en.level * 1073741824 + b2n en.lost * 536870912 + b2n en.untrusted * 268435456 + en.hi
      .next (((s.setDioRt n { s.dioRt n with edges := rest }).put pg (DIOG.CH_STAT.EDGES c) rest.length).answer w)

end Sys2Proof.Machine
end

