-- ==== Sys2Proof/Machine/Lpe.lean ====
section
/-! DEFINITION. The loop engine: the loop record, one sample of a slot (R172 to R179), folds (R183 to R190), gain regions
(R193 to R197), the write instant (R159, R164, R165) and RUN of LPE (R157). -/

namespace Sys2Proof.Machine

/-- Positive infinity does not occur in a checked configuration; 10.0, the upper bound of h (R163). -/
def f32Ten : Word := 0x41200000#32

namespace State

/-! ### The record (R167) -/

/-- The word at byte offset `off` of slot `n`'s record, as applied. -/
def lw (s : State) (n off : Nat) : Word := Store.get 0 s.lpe.recs (64 * n + off / 4)
def setLw (s : State) (n off : Nat) (w : Word) : State :=
  { s with lpe := { s.lpe with recs := Store.set 0 s.lpe.recs (64 * n + off / 4) w } }

/-- A field of a record word. -/
def lf (s : State) (n off hi lo : Nat) : Nat := bits (s.lw n off).toNat hi lo
def lb (s : State) (n off b : Nat) : Bool := bitOf (s.lw n off).toNat b

def loopRt (s : State) (n : Nat) : LoopRt := Store.get {} s.lpe.slots n
def setLoopRt (s : State) (n : Nat) (r : LoopRt) : State :=
  { s with lpe := { s.lpe with slots := Store.set {} s.lpe.slots n r } }

def lEnabled (s : State) (n : Nat) : Bool := s.lb n 0x000 31
def lTrig (s : State) (n : Nat) : Nat := s.lf n 0x000 30 29
def lAct (s : State) (n : Nat) : Bool := s.lb n 0x000 28
def lStartMode (s : State) (n : Nat) : Nat := s.lf n 0x000 26 24
def lStopBeh (s : State) (n : Nat) : Nat := s.lf n 0x000 23 22
def lModeSrc (s : State) (n : Nat) : Bool := s.lb n 0x000 14
def lBqN (s : State) (n : Nat) : Nat := s.lf n 0x000 12 11
def lActMode (s : State) (n : Nat) : Nat := s.lf n 0x0B0 31 29
def lRegion (s : State) (n : Nat) : Nat := s.lf n 0x0B0 22 19
def lFoldEn (s : State) (n : Nat) : Bool := s.lb n 0x034 30
def lFold (s : State) (n : Nat) : Nat := s.lf n 0x034 22 16
def lMember (s : State) (n : Nat) : Nat := s.lf n 0x034 26 24

/-- The applied binding at `off`: the directory index, if VALID. -/
def lBind (s : State) (n off : Nat) : Option Nat := if s.lb n off 31 then some (s.lf n off 14 0) else none

/-- The enabled slots. -/
def lSlots (s : State) : List Nat := (List.range 1024).filter (fun n => s.lEnabled n)

/-- Extended station time of the slot's last sample; 0 before the first. -/
def lLast (s : State) (n : Nat) : Nat := (s.lw n 0x0E0).toNat + (s.lw n 0x0E4).toNat * 4294967296

/-- MIN_INT has passed since the slot's last sample, if there was one (R161, R162). -/
def lClear (s : State) (n : Nat) : Bool :=
  s.lLast n == 0 || decide (s.lLast n + s.lf n 0x00C 17 0 * 50000 ≤ s.e)

/-- The owning task is shed, or held. -/
def ownerShed (s : State) (n : Nat) : Bool := s.lb n 0x000 20 && bitOf (s.get pgSEQ SEQ.SHED) (s.lf n 0x000 19 15)
def ownerHeld (s : State) (n : Nat) : Bool := s.lb n 0x000 20 && bitOf (s.get pgSEQ SEQ.HELD) (s.lf n 0x000 19 15)

/-- The slot is Off for a memory error (R166). -/
def lEccOff (s : State) (n : Nat) : Bool := s.lpe.eccOff.any (fun e => e.1 == n)

/-- h_nom and h_min of R163. -/
def lHnom (s : State) (n : Nat) : Word := F32.ofRat (s.lf n 0x004 17 0) 20000
def lHmin (s : State) (n : Nat) : Word := F32.ofRat (s.lf n 0x00C 17 0) 20000

/-- Coefficients B0, B1, B2, A1, A2 of section `k` (`j` from 0). -/
def lBq (s : State) (n k j : Nat) : Word := s.lw n (0x074 + 20 * k + 4 * j)

/-- g and r of section `k` (R173). -/
def lG (s : State) (n k : Nat) : Word := F32.add (F32.add (s.lBq n k 0) (s.lBq n k 1)) (s.lBq n k 2)
def lR (s : State) (n k : Nat) : Word := F32.add (F32.add F32.one (s.lBq n k 3)) (s.lBq n k 4)

end State

/-! ### Arithmetic of a sample -/

/-- The four biquad states z1, z2 of the two sections. -/
structure Bq where
  z10 : Word
  z20 : Word
  z11 : Word
  z21 : Word
deriving DecidableEq, Repr

def Bq.z1 (b : Bq) (k : Nat) : Word := if k = 0 then b.z10 else b.z11
def Bq.z2 (b : Bq) (k : Nat) : Word := if k = 0 then b.z20 else b.z21
def Bq.put (b : Bq) (k : Nat) (z1 z2 : Word) : Bq :=
  if k = 0 then { b with z10 := z1, z20 := z2 } else { b with z11 := z1, z21 := z2 }
/-- The states of the first `k` sections are finite (R176). -/
def Bq.finite (b : Bq) (k : Nat) : Bool :=
  (k == 0 || (F32.finite b.z10 && F32.finite b.z20)) && (k ≤ 1 || (F32.finite b.z11 && F32.finite b.z21))

/-- `bq_step` of R173. -/
def bqStep (s : State) (n k : Nat) (b : Bq) (x : Word) : Bq × Word :=
  let y := F32.add (F32.mul (s.lBq n k 0) x) (b.z1 k)
  let z1 := F32.add (F32.sub (F32.mul (s.lBq n k 1) x) (F32.mul (s.lBq n k 3) y)) (b.z2 k)
  let z2 := F32.sub (F32.mul (s.lBq n k 2) x) (F32.mul (s.lBq n k 4) y)
  (b.put k z1 z2, y)

/-- `bq_steady` of R173. -/
def bqSteady (s : State) (n k : Nat) (b : Bq) (y : Word) : Bq × Word :=
  let c := F32.div (F32.mul y (s.lR n k)) (s.lG n k)
  let z2 := F32.sub (F32.mul (s.lBq n k 2) c) (F32.mul (s.lBq n k 4) y)
  let z1 := F32.add (F32.sub (F32.mul (s.lBq n k 1) c) (F32.mul (s.lBq n k 3) y)) z2
  (b.put k z1 z2, c)

/-- The sections in use run forward on x. -/
def bqForward (s : State) (n : Nat) (b : Bq) (x : Word) : Bq × Word :=
  match s.lBqN n with
  | 0 => (b, x)
  | 1 => bqStep s n 0 b x
  | _ => let (b1, x1) := bqStep s n 0 b x; bqStep s n 1 b1 x1

/-- The sections in use set to rest at output y; the input that produces it. -/
def bqBack (s : State) (n : Nat) (b : Bq) (y : Word) : Bq × Word :=
  match s.lBqN n with
  | 0 => (b, y)
  | 1 => bqSteady s n 0 b y
  | _ => let (b1, c1) := bqSteady s n 1 b y; bqSteady s n 0 b1 c1

/-- The rate limits of step 7. -/
def rateLimit (s : State) (n : Nat) (h y : Word) : Word :=
  let out := s.lw n 0x0D8
  let up := s.lw n 0x060
  let dn := s.lw n 0x064
  let y1 := if F32.lt F32.zero up then F32.min y (F32.add out (F32.mul up h)) else y
  if F32.lt F32.zero dn then F32.max y1 (F32.sub out (F32.mul dn h)) else y1

/-- A value limited to OUT_MIN to OUT_MAX. -/
def outClamp (s : State) (n : Nat) (v : Word) : Word := F32.min (F32.max v (s.lw n 0x058)) (s.lw n 0x05C)

/-- Everything a sample computes before it is stored (R172); the names are those of the rule. -/
structure Eval where
  t : Nat
  h : Word
  v : Word
  qual : Quality
  good : Bool
  /-- Reason of a bad PV (R174). -/
  reason : Nat
  staleCnt : Nat
  pvLast : Word
  dLast : Word
  pv : Word
  /-- Row of R178 that applied, and the actual mode. -/
  row : Nat
  mode : Nat
  trk : Bool
  req : Nat
  armed : Bool
  /-- An invalid mode request: the value (R177). -/
  reqBad : Option Nat
  casHeld : Bool
  manHold : Bool
  manRef : Word
  manLocal : Word
  /-- OUT is held because of a bad source (R175). -/
  held : Bool
  /-- The value is OUT_SAFE (R175). -/
  subst : Bool
  /-- GEN of the trigger entry at the sample (R162). -/
  trigGen : Nat
  tgt : Word
  spw : Word
  e : Word
  kp : Word
  ki : Word
  kd : Word
  region : Nat
  sched : Word
  schedOk : Bool
  p : Word
  d : Word
  /-- The integral that step 5 starts from, re-seeded where R195 says so; `seed` is 1 after a re-seed that a
commit caused. -/
  i0 : Word
  seed : Bool
  /-- The sample tracks because the biquads changed (R197). -/
  bqSeed : Bool
  u : Word
  x : Word
  y : Word
  bq : Bq
  /-- The integral of a tracking sample. -/
  iTrk : Word
deriving DecidableEq, Repr

namespace State

/-- The signed or unsigned integer in a mode entry (R170, R177). -/
def modeEntry (s : State) (i : Nat) : Int :=
  let t := s.dirType i
  let n := typeSize t
  if 2 ≤ t ∧ t ≤ 5 then signed (8 * n) (s.memRd (s.dirAddr i) n) else Int.ofNat (s.memRd (s.dirAddr i) n)

/-- The requested mode of a sample: (REQ_MODE, MODE_ARMED, the invalid value if any) (R177). -/
def lRequest (s : State) (n : Nat) : Nat × Bool × Option Nat :=
  let old := s.lf n 0x0B0 28 26
  let armed := s.lb n 0x0E8 31
  let check (v : Int) (bad : Bool) : Nat × Option Nat :=
    if bad || decide (v < 0) || decide (4 < v) then (old, some (unsigned 32 v)) else (v.toNat, none)
  if !s.lModeSrc n then
    let r := check (s.lf n 0x0A0 2 0) false
    (r.1, armed, r.2)
  else
    match s.lBind n 0x024 with
    | none => (s.lStartMode n, armed, none)
    | some i =>
      if armed || decide (s.dirGen i ≠ s.lf n 0x0E8 27 16) then
        let r := check (s.modeEntry i) (s.imgBad i)
        (r.1, true, r.2)
      else (s.lStartMode n, armed, none)

/-- Table word `w` of the slot's region table, as applied to the slot: from the apply buffer of a checked commit that the slot
has taken and others have yet to take (R169, R204). -/
def regW (s : State) (n w : Nat) : Word :=
  let k := regKey pgLPE (LPE.REG_W w).off (s.lf n 0x034 9 0)
  if s.on pgLPE LPE.STATUS.APPLYING && !s.lpe.tabWait.contains n then Store.get (keyReset k) s.buf k
  else Store.get (keyReset k) s.regs k

/-- `plain` of R194. -/
def regPlain (s : State) (n : Nat) (v : Word) : Nat :=
  let cnt := bits (s.regW n 0).toNat 4 0
  ((List.range (cnt - 1)).map (· + 1)).foldl (fun r k => if F32.le (s.regW n (1 + k)) v then k else r) 0

/-- KP, KI and KD of region `r` (R193, R194). -/
def regionGains (s : State) (n r : Nat) : Word × Word × Word :=
  if r = 0 ∨ s.lb n 0x034 31 = false then (s.lw n 0x044, s.lw n 0x048, s.lw n 0x04C)
  else (s.regW n (17 + 3 * (r - 1)), s.regW n (18 + 3 * (r - 1)), s.regW n (19 + 3 * (r - 1)))

/-- `region_step` of R194: the region of the sample. -/
def regionStep (s : State) (n : Nat) (v : Word) (ok init : Bool) : Nat :=
  if !s.lb n 0x034 31 then 0
  else
    let cnt := bits (s.regW n 0).toNat 4 0
    let hyst := s.regW n 1
    let r := s.lRegion n
    if init || decide (cnt ≤ r) then (if ok then s.regPlain n v else 0)
    else if ok then
      (if r + 1 < cnt ∧ F32.le (F32.add (s.regW n (2 + r)) hyst) v = true then s.regPlain n v
      else if 0 < r ∧ F32.lt v (F32.sub (s.regW n (1 + r)) hyst) = true then s.regPlain n v
      else r)
    else r

/-- One sample of slot `n` up to and including step 7 (R172), with the mode decision of R178. -/
def evalTo7 (s : State) (n : Nat) : Eval :=
  let t := s.e
  let rt := s.loopRt n
  let init := s.lb n 0x0B0 14
  let tracking := s.lb n 0x0B0 11
  let out := s.lw n 0x0D8
  let outSafe := s.lw n 0x068
  let tLast := s.lLast n
  let h :=
    if init then (if s.lTrig n = 0 then s.lHnom n else s.lHmin n)
    else if s.lTrig n = 0 then s.lHnom n
    else if rt.steps ≠ s.clk.stnSteps then s.lHmin n
    else F32.min (F32.max (F32.ofRat ((t : Int) - tLast) 1000000000) (s.lHmin n)) f32Ten
  -- step 1: PV latch (R174)
  let pvI := (s.lBind n 0x010).getD 0
  let v := s.imgWord pvI
  let q := s.dirQual pvI
  let fin := F32.finite v
  let inRange := F32.le (s.lw n 0x06C) v && F32.le v (s.lw n 0x070)
  let ok0 := !bitOf q 3 && fin && inRange
  let cnt0 := s.lf n 0x0B0 7 0
  let cnt := if ok0 && bitOf q 2 then min (cnt0 + 1) 255 else if ok0 then 0 else cnt0
  let good := ok0 && (!bitOf q 2 || decide (cnt ≤ s.lf n 0x09C 7 0))
  let reason := if good then 0 else if bitOf q 3 then 1 else if !fin then 2 else if !inRange then 3 else 4
  let pvLast := if init then (if good then v else F32.zero) else s.lw n 0x0BC
  let dLast := if init then F32.zero else s.lw n 0x0C4
  let pv := if good then v else pvLast
  -- the mode decision (R178)
  let (req, armed, reqBad) := s.lRequest n
  let stop := s.st pgSEQ == 2 || s.ownerShed n
  let casI := s.lBind n 0x01C
  let casBad := match casI with
    | some i => s.imgBad i
    | none => true
  let row :=
    if init then 1
    else if stop && s.lStopBeh n == 0 then 2
    else if stop || (s.ownerHeld n && !s.lb n 0x000 21) then 3
    else if req = 0 || s.lEccOff n then 4 else if req = 4 then 5 else if req = 1 then 6
    else if !good then 7
    else if req = 3 ∧ casBad = true then 8
    else 10
  -- manual entry and the manual value (R179)
  let manI := s.lBind n 0x028
  let wasManual := s.lActMode n == 1
  let entering := (row == 3 || row == 6) && !wasManual
  let manLocal0 := s.lw n 0x0A8
  let manLocal := if entering && manI.isNone then out else manLocal0
  let manV := match manI with
    | some i => s.imgWord i
    | none => manLocal
  let manGood := match manI with
    | some i => !s.imgBad i
    | none => true
  let manRef := if entering then manV else s.lw n 0x0DC
  let hold0 := s.lb n 0x0B0 16
  let manHold := if row = 3 then true
    else if row = 6 then (if entering then true else hold0 && !(manGood && manV != manRef)) else false
  let manVal := if manHold then out else if manGood then rateLimit s n h (outClamp s n manV) else out
  let trkI := s.lBind n 0x020
  let trkGood := match trkI with
    | some i => !s.imgBad i
    | none => false
  let bqSeed := decide (2 ≤ row) && rt.bqNew
  let vt := if bqSeed then out else match row with
    | 3 => out
    | 5 => if trkGood then outClamp s n (s.imgWord (trkI.getD 0)) else out
    | 6 => manVal
    | 7 => if s.lb n 0x000 13 then outSafe else out
    | 8 => out
    | 10 => out
    | _ => outSafe
  let trk := decide (row ≤ 7) || bqSeed
  let mode := match row with
    | 1 => 0 | 2 => 0 | 3 => 1 | 4 => 0 | 5 => 4 | 6 => 1 | 7 => req | 8 => 2 | _ => req
  let held := (row == 5 && !trkGood) || (row == 6 && !manHold && !manGood) || (row == 7 && !s.lb n 0x000 13)
  let subst := (row == 1 || row == 2 || row == 4 || (row == 7 && s.lb n 0x000 13)) && (!bqSeed || out == outSafe)
  -- step 2: working set point (R179)
  let tgtOld := s.lw n 0x0B8
  let auto := match s.lBind n 0x018 with
    | some i => if s.imgBad i then tgtOld else s.imgWord i
    | none => s.lw n 0x0A4
  let target := if trk then auto else if row = 8 then tgtOld
    else if mode = 3 then s.imgWord (casI.getD 0) else auto
  let tgt := F32.min (F32.max target (s.lw n 0x038)) (s.lw n 0x03C)
  let ramp := s.lw n 0x040
  let step := F32.mul ramp h
  let spw0 := s.lw n 0x0B4
  let spw := if trk then pv
    else if tracking || rt.soft then (if s.lb n 0x000 27 then pv else tgt)
    else if F32.eq ramp F32.zero then tgt
    else if F32.lt spw0 tgt then F32.min (F32.add spw0 step) tgt
    else if F32.lt tgt spw0 then F32.max (F32.sub spw0 step) tgt
    else spw0
  -- step 3: error
  let e := if s.lAct n then F32.sub pv spw else F32.sub spw pv
  -- step 4: region (R194, R196)
  let src := bits (s.regW n 0).toNat 9 8
  let schI := s.lBind n 0x02C
  let sched := if src = 0 then pv else if src = 1 then spw else match schI with
    | some i => s.imgWord i
    | none => F32.zero
  let schedOk := F32.finite sched && !(src == 0 && !good) && !(src == 2 && (match schI with
    | some i => s.imgBad i
    | none => true))
  let region := s.regionStep n sched schedOk init
  let (kp, ki, kd) := s.regionGains n region
  -- the gains of the previous sample's region as they stand now: others than that sample used come of a commit (R195)
  let now := s.regionGains n (s.lRegion n)
  -- step 5: proportional and derivative
  let tf := s.lw n 0x050
  let p := F32.mul kp e
  let dm := if s.lAct n then F32.sub pv pvLast else F32.sub pvLast pv
  let den := F32.add tf h
  let d := F32.add (F32.mul (F32.div tf den) dLast) (F32.mul (F32.div kd den) dm)
  -- re-seed (R195)
  let changed := !trk && rt.ran && (rt.kp != kp || rt.kd != kd || rt.tf != tf)
  let pOld := F32.mul rt.kp e
  let denOld := F32.add rt.tf h
  let dOld := F32.add (F32.mul (F32.div rt.tf denOld) dLast) (F32.mul (F32.div rt.kd denOld) dm)
  let iOld := s.lw n 0x0C0
  let i0 := if changed then F32.sub (F32.add (F32.add iOld pOld) dOld) (F32.add p d) else iOld
  let bq0 : Bq := { z10 := s.lw n 0x0C8, z20 := s.lw n 0x0CC, z11 := s.lw n 0x0D0, z21 := s.lw n 0x0D4 }
  let back := bqBack s n bq0 vt
  let u := F32.add (F32.add p i0) d
  let fwd := bqForward s n bq0 u
  let x := fwd.2
  let y7 := rateLimit s n h (outClamp s n x)
  { t := t, h := h, v := v, qual := q, good := good, reason := reason, staleCnt := cnt, pvLast := pvLast, dLast := dLast
    pv := pv, row := row, mode := mode, trk := trk, req := req, armed := armed, reqBad := reqBad, casHeld := row == 8
    manHold := manHold, manRef := manRef, manLocal := manLocal, held := held, subst := subst
    trigGen := s.dirGen (s.lf n 0x008 17 0), tgt := tgt, spw := spw, e := e, kp := kp
    ki := ki, kd := kd, region := region, sched := sched, schedOk := schedOk, p := p, d := d, i0 := i0
    seed := changed && (rt.kp != now.1 || rt.kd != now.2.2 || rt.tf != tf), bqSeed := bqSeed
    u := if trk then s.freeWord else u
    x := if trk then Config.freeWord (s.freeUses + 1) else x
    y := if trk then vt else y7
    bq := if trk then back.1 else fwd.1
    iTrk := F32.sub (F32.sub back.2 p) d }

/-- The integral of step 5 with back-calculation, for output w (R172). -/
def integral (s : State) (n : Nat) (ev : Eval) (w : Word) : Word :=
  if ev.trk then ev.iTrk
  else
    let i := F32.add ev.i0 (F32.mul (F32.mul ev.ki ev.h) ev.e)
    F32.add i (F32.mul (F32.mul (s.lw n 0x054) ev.h) (F32.sub w ev.x))

/-- The word of a bound STAT entry (R168). -/
def statEntry (s : State) (n : Nat) : Nat :=
  s.lActMode n + s.lf n 0x0B0 18 18 * 8 + s.lf n 0x0B0 17 17 * 16 + s.lf n 0x0B0 16 16 * 32 + s.lf n 0x0B0 15 15 * 64
    + s.lf n 0x0B0 12 12 * 128 + s.lf n 0x0B0 10 10 * 256 + s.lf n 0x0B0 13 13 * 512 + s.lRegion n * 1024

/-- A free-running counter word of the record counts up. -/
def lCount (s : State) (n off : Nat) : State := s.setLw n off (s.lw n off + 1)

/-- A change of ACT_MODE that 0x080 records: all but those between Fold-tracking and Auto or Cascade (R178, R189). -/
def modeRecorded (old new : Nat) : Bool :=
  old != new && !(old == 5 && (new == 2 || new == 3)) && !((old == 2 || old == 3) && new == 5)

/-- The end of a sample (R172 `store`, R176, R174 to R178, R195): `w` is the fold's output, or y; `src` is false for a fold
member that is not the source of w, whose integral is then tracked to w (R188). The output waits for its write
instant. -/
def finishSample (s : State) (n : Nat) (ev : Eval) (w : Word) (src competing : Bool) : State :=
  let rt := s.loopRt n
  let back := bqBack s n ev.bq w
  let i := if src then s.integral n ev w else back.2
  let bq := if src then ev.bq else back.1
  let mode := if !src && competing then 5 else ev.mode
  let old := s.lActMode n
  let badOld := s.lb n 0x0B0 18
  let casOld := s.lb n 0x0B0 17
  let regOld := s.lRegion n
  let what := if !F32.finite ev.y then 1 else if !F32.finite i then 2 else if !F32.finite ev.d then 3
    else if !bq.finite (s.lBqN n) then 4 else 0
  let s0 := ((s.setLw n 0x0E0 (BitVec.ofNat 32 ev.t)).setLw n 0x0E4 (BitVec.ofNat 32 (ev.t / 4294967296))).lCount n 0x0F0
  let s1 := if ev.good then s0 else s0.lCount n 0x0F8
  let seen := (s1.lw n 0x0E8).toNat
  let trigGen := if s.lTrig n = 2 then ev.trigGen else bits seen 11 0
  let s2 := s1.setLw n 0x0E8 (BitVec.ofNat 32 (putBits seen 11 0 trigGen))
  let s3 := (((s2.incMod pgLPE LPE.EVAL_LO).put pgLPE LPE.EVAL_HI
    (if s2.get pgLPE LPE.EVAL_LO = 4294967295 then s2.get pgLPE LPE.EVAL_HI + 1 else s2.get pgLPE LPE.EVAL_HI)))
  let s4 := if what == 0 && badOld == ev.good then
      (s3.setFault pgLPE 17).raise pgLPE 0x081 (if ev.good then 1 else 0) [n, ev.reason] else s3
  let s5 := match ev.reqBad with
    | some v => if rt.reqBad then s4 else (s4.setFault pgLPE 21).raise pgLPE 0x085 0 [n, v]
    | none => s4
  let useSched := s.lb n 0x034 31
  let s6 := if useSched && rt.schedBad == ev.schedOk then s5.raise pgLPE 0x08A (if ev.schedOk then 1 else 0) [n] else s5
  let stat0 := (s6.lw n 0x0B0).toNat
  let rt1 := { rt with reqBad := ev.reqBad.isSome, schedBad := if useSched then !ev.schedOk else false
                       steps := s.clk.stnSteps, trig := 0, resume := false }
  let at_ := (ev.t / 50000 + 1) * 50000
  if what ≠ 0 then
    let st := putBits (putBits stat0 13 13 1) 7 0 ev.staleCnt
    let s7 := ((s6.setLw n 0x0B0 (BitVec.ofNat 32 st)).setFault pgLPE 18).raise pgLPE 0x084 0 [n, what]
    s7.setLoopRt n { rt1 with write := some { value := s.lw n 0x0D8, qual := qUNCERTAIN, stat := s7.statEntry n, at_ := at_ } }
  else
    let limited := !ev.trk && !F32.eq ev.y ev.x
    let forced := ev.row == 2 || ev.row == 3
    let st := mode * 536870912 + ev.req * 67108864 + ev.region * 524288 + b2n (!ev.good) * 262144
      + b2n ev.casHeld * 131072 + b2n ev.manHold * 65536 + b2n forced * 32768 + bits stat0 12 12 * 4096
      + b2n ev.trk * 2048 + b2n limited * 1024 + ev.staleCnt
    let s7 := (((((((((s6.setLw n 0x0B0 (BitVec.ofNat 32 st)).setLw n 0x0B4 ev.spw).setLw n 0x0B8 ev.tgt).setLw n 0x0BC
      ev.pv).setLw n 0x0C0 i).setLw n 0x0C4 ev.d).setLw n 0x0C8 bq.z10).setLw n 0x0CC bq.z20).setLw n 0x0D0
      bq.z11).setLw n 0x0D4 bq.z21
    let s8 := (((s7.setLw n 0x0D8 ev.y).setLw n 0x0DC ev.manRef).setLw n 0x0A8 ev.manLocal).setLw n 0x0E8
      (BitVec.ofNat 32 (putBits (s7.lw n 0x0E8).toNat 31 31 (b2n ev.armed)))
    let s9 := if modeRecorded old mode && !(casOld != ev.casHeld && (old == 2 || old == 3) && (mode == 2 || mode == 3))
      then s8.raise pgLPE 0x080 0 [n, old, mode] else s8
    let s10 := if casOld != ev.casHeld then
      (s9.setFault pgLPE 20).raise pgLPE 0x082 (if ev.casHeld then 0 else 1) [n] else s9
    let s11 := if regOld ≠ ev.region then s10.raise pgLPE 0x089 0 [n, regOld, ev.region] else s10
    let s12 := if ev.seed && src then s11.raise pgLPE 0x08B 0 [n, 1] else s11
    let s13 := if ev.bqSeed then s12.raise pgLPE 0x08B 0 [n, 2] else s12
    let unc := (ev.good && (bitOf ev.qual 2 || bitOf ev.qual 1)) || ev.held
    let q := (if ev.subst then qSUBST else 0) + (if unc then qUNCERTAIN else 0)
    s13.setLoopRt n { rt1 with
      kp := ev.kp, kd := ev.kd, tf := s.lw n 0x050, ran := true, bqNew := false, soft := rt.soft && ev.trk
      write := some { value := ev.y, qual := q, stat := s13.statEntry n, at_ := at_ } }

end State
end Sys2Proof.Machine
end

