-- ==== Sys2Proof/Machine/AxBase.lean ====
section
/-! DEFINITION. The axes: positions, states, starts and stops of motion (R239 to R247, R254, R256 to R258), travel and
strokes (R264). -/

namespace Sys2Proof.Machine
namespace State

def axRt (s : State) (n : Nat) : AxRt := Store.get {} s.ax n
def setAxRt (s : State) (n : Nat) (r : AxRt) : State := { s with ax := Store.set {} s.ax n r }

def axState (s : State) (n : Nat) : Nat := s.get (pgAX n) AX.STATUS.AX_STATE

/-- A change of AX_STATE: code 0x0E0 and source 0x310 + n (R264). -/
def axSetState (s : State) (n st : Nat) : State :=
  if s.axState n = st then s
  else ((s.put (pgAX n) AX.STATUS.AX_STATE st).event (0x310 + n)).raise (pgAX n) 0x0E0 n [s.axState n, st]

/-- A signed 48-bit value in a pair of registers. -/
def axPair (s : State) (n : Nat) (lo hi : Fld) : Int := signed 48 (s.get (pgAX n) lo + s.get (pgAX n) hi * 4294967296)
def axPutPair (s : State) (n : Nat) (lo hi : Fld) (v : Int) : State :=
  let w := unsigned 64 (signed 48 (unsigned 48 v))
  (s.put (pgAX n) lo w).put (pgAX n) hi (w / 4294967296)

/-- The commanded position in microsteps (R248, R245). -/
def axPos (s : State) (n : Nat) : Int := (s.axRt n).p / 4294967296

/-- The microsteps moved count in travel and strokes (R264), and in TLY (R434). -/
def axMoved (s : State) (n : Nat) (d : Int) : State :=
  if d = 0 then s
  else
    let pg := pgAX n
    let r := s.axRt n
    let k := d.natAbs
    let neg := decide (d < 0)
    let len := max 1 (s.get pg AX.STROKE.LEN)
    let travel := s.get pg AX.TRAVEL_LO + s.get pg AX.TRAVEL_HI * 4294967296 + k
    let mode1 := s.on pg AX.STROKE.MODE
    let turned := r.neg != neg
    let strokes := if mode1 then (r.leg + k) / len else if turned && decide (len ≤ r.leg) then 1 else 0
    let leg := if mode1 then (r.leg + k) % len else if turned then k else r.leg + k
    let s1 := ((((s.setAxRt n { r with leg := leg, neg := neg }).put pg AX.TRAVEL_LO travel).put pg AX.TRAVEL_HI
      (travel / 4294967296)).incMod pg AX.STROKES strokes).tallyAdd (85 + n) k
    if strokes = 0 then s1 else s1.tallyAdd (77 + n) strokes

/-- A difference of positions of axis `n` in units of 2^-`f` microstep: the short way round where the position wraps (R266 CFG.ROTARY,
DESIGN CHOICE, assumption 72). -/
def axDiff (s : State) (n f : Nat) (d : Int) : Int :=
  if s.on (pgAX n) AX.CFG.ROTARY then signed (48 + f) (unsigned (48 + f) d) else d

/-- The position of axis `n` at the instant `ago` × 10 ns ago, from the velocity of the last update (R245, R252, R255). -/
def axPosAt (s : State) (n ago : Nat) : Int :=
  let r := s.axRt n
  (r.p + r.v * (Int.ofNat (s.clk.ref % 1000) - Int.ofNat ago) / 100000000) / 4294967296

/-! ### STEP and DIR (R263) -/

/-- A line that a polarity bit inverts; none is high impedance. -/
def axWire (s : State) (n : Nat) (v : Bool) (pol : Fld) : Option Bool :=
  if (s.axRt n).coils = 0 then none else some (v != s.on (pgAX n) pol)

/-- The STEP line of axis `n`: active for PW from each leading edge, else at rest. -/
def axStepLine (s : State) (n : Nat) : Option Bool :=
  s.axWire n ((s.axRt n).steps.any (fun t => decide (t ≤ s.clk.ref) && decide (s.clk.ref < t + s.get (pgAX n) AX.STEPDIR.PW)))
    AX.STEPDIR.STEP_POL

/-- DIR before its polarity: the last of its changes that has come. -/
def axDir (s : State) (n : Nat) : Bool :=
  let r := s.axRt n
  (r.dirs.filter (fun d => decide (d.1 ≤ s.clk.ref))).foldl (fun _ d => d.2) r.dirNeg

/-- The DIR line of axis `n`; it holds its level between moves. -/
def axDirLine (s : State) (n : Nat) : Option Bool := s.axWire n (s.axDir n) AX.STEPDIR.DIR_POL

/-- The whole microsteps that lie between `p` and `q`, as ticks of 10 ns after the start of a 10 µs update. -/
def axCrossings (p q : Int) : List Nat :=
  let a := p / 4294967296
  let k := (q / 4294967296 - a).natAbs
  (List.range k).map (fun i =>
    let c : Int := (if p < q then a + 1 + Int.ofNat i else a - Int.ofNat i) * 4294967296
    (c - p).natAbs * 1000 / max 1 (q - p).natAbs)

/-- A step/direction axis emits the steps of an update in the 10 µs that follow it (assumption 252). DIR changes when the steps of the old
direction are out, DIR_SETUP before the first step of the new one, and pulses keep a distance of 2 × PW. -/
def axEmit (s : State) (n : Nat) (p q : Int) : State :=
  let r := s.axRt n
  let ts := axCrossings p q
  if n < 4 ∨ r.coils = 0 ∨ ts = [] then s
  else
    let now := s.clk.ref
    let pw := max 1 (s.get (pgAX n) AX.STEPDIR.PW)
    let neg := decide (q < p)
    let free := r.steps.foldl (fun m t => max m (t + 2 * pw)) now
    let turned := (r.dirs.getLast?.map (fun d => d.2)).getD r.dirNeg != neg
    let first := if turned then free + 100 * s.get (pgAX n) AX.STEPDIR.DIR_SETUP else free
    let out := ts.foldl (fun (l : List Nat × Nat) t => let u := max (now + t) l.2; (l.1 ++ [u], u + 2 * pw)) ([], first)
    s.setAxRt n { r with
      steps := r.steps.filter (fun t => decide (now < t + pw)) ++ out.1
      dirNeg := s.axDir n
      dirs := r.dirs.filter (fun d => decide (now < d.1)) ++ (if turned then [(free, neg)] else []) }

/-- The axis stands at position `p` (2^-32 microstep) with velocity `v`. -/
def axPlace (s : State) (n : Nat) (p v : Int) : State :=
  let r := s.axRt n
  let q := if s.on (pgAX n) AX.CFG.ROTARY then signed 80 (unsigned 80 p) else p
  let s1 := (s.axEmit n r.p p).axMoved n (p / 4294967296 - r.p / 4294967296)
  let s2 := (s1.setAxRt n { s1.axRt n with p := q, v := v }).axPutPair n AX.POS_LO AX.POS_HI (q / 4294967296)
  s2.put (pgAX n) AX.VEL (unsigned 32 (v / 4294967296))

def axTarget (s : State) (n : Nat) (t : Int) : State :=
  (s.setAxRt n { s.axRt n with tgt := t }).axPutPair n AX.TGT_LO AX.TGT_HI t

/-- VMAX, ACC and DEC of profile `k`; VMAX at most the rate limit (R244). -/
def axVmax (s : State) (n k : Nat) : Nat :=
  let v := s.get (pgAX n) (AX.PROF_VMAX k)
  let lim := if n < 4 then 1000000 else min 2000000 (50000000 / max 1 (s.get (pgAX n) AX.STEPDIR.PW))
  min v lim
def axAcc (s : State) (n k : Nat) : Nat := s.get (pgAX n) (AX.PROF_ACC k)
def axDec (s : State) (n k : Nat) : Nat := s.get (pgAX n) (AX.PROF_DEC k)

/-- The coils open, or the step outputs go to high impedance; HOMED is lost unless HOMED_KEEP holds it (R257). -/
def axOpen (s : State) (n : Nat) : State :=
  let s1 := s.setAxRt n { s.axRt n with coils := 0, openAtRest := false, steps := [] }
  if s.on (pgAX n) AX.CFG.HOMED_KEEP then s1 else s1.put (pgAX n) AX.STATUS.HOMED 0

/-- The coils of a stepper axis open; step outputs idle, which is not high impedance (R239, R258). -/
def axRelease (s : State) (n : Nat) : State :=
  if n < 4 then s.axOpen n else s.setAxRt n { s.axRt n with openAtRest := false }

/-- The axis is at rest exactly on its target (R245). -/
def axOnTarget (s : State) (n : Nat) : Bool :=
  let r := s.axRt n
  r.v == 0 && r.p == r.tgt * 4294967296

/-- AT_TARGET as the axis comes to rest, or is enabled. -/
def axAtTarget (s : State) (n : Nat) : State := s.putB (pgAX n) AX.STATUS.AT_TARGET (s.axOnTarget n)

/-- The axis has come to rest where it is: this is its target now. -/
def axStand (s : State) (n : Nat) : State :=
  let r := s.axRt n
  let p := (r.p / 4294967296) * 4294967296
  ((s.setAxRt n { r with plan := 0, v := 0, p := p }).axTarget n (p / 4294967296)).axAtTarget n

/-- Motion begins: AT_TARGET falls and the coils take I_RUN (R260). -/
def axGo (s : State) (n st : Nat) : State :=
  ((s.setAxRt n { s.axRt n with coils := 1 }).put (pgAX n) AX.STATUS.AT_TARGET 0).axSetState n st

/-- A move to `t` with profile `k`, blended from the motion in progress (R246). -/
def axMove (s : State) (n k : Nat) (t : Int) (st : Nat) : State :=
  ((s.setAxRt n { s.axRt n with plan := 1, prof := k, openAtRest := false }).axTarget n (s.axDiff n 0 t)).axGo n st

/-- Decelerate to rest at `dec`; gearing ends. The state while it does so is Stopping. A stop that already ends with the coils open
still does. -/
def axStop (s : State) (n dec : Nat) (openAtRest : Bool) : State :=
  let r := s.axRt n
  let open_ := openAtRest || (r.plan == 3 && r.openAtRest)
  let s1 := s.setAxRt n { r with plan := 3, dec := dec, openAtRest := open_, gwait := false, gnew := none, gat := none }
  if r.v = 0 then
    let s2 := s1.axStand n
    (if open_ then s2.axRelease n else s2).axSetState n (if s2.on (pgAX n) HDR.CTRL.RUN then 1 else 0)
  else (s1.put (pgAX n) AX.STATUS.AT_TARGET 0).axSetState n 7

def axQdec (s : State) (n : Nat) : Nat := s.get (pgAX n) AX.QDEC

/-- Homing aborts (R256). -/
def axHomeAbort (s : State) (n reason : Nat) : State :=
  let s1 := (s.setAxRt n { s.axRt n with home := 0 }).put (pgAX n) AX.STATUS.HOMED 0
  (((s1.setFault (pgAX n) 21).put (pgAX n) AX.HOME_INFO.LAST_ABORT reason).raise (pgAX n) 0x0E3 n [reason]).axStop n
    (s1.axQdec n) false

/-- The axis is Faulted: coils open, motion ends at once (R259, R262). -/
def axFaulted (s : State) (n : Nat) : State :=
  let s1 := if s.axState n = 6 then s.axHomeAbort n 4 else s
  let s2 := s1.setAxRt n { s1.axRt n with plan := 0, home := 0, gwait := false, gnew := none, gat := none }
  ((s2.axPlace n (s2.axRt n).p 0).axOpen n).axSetState n 8

/-- A fenced axis opens its coils, or goes to high impedance, at once (R258). -/
def axFence (s : State) (n : Nat) : State :=
  let s1 := s.setAxRt n { s.axRt n with plan := 0, home := 0, gwait := false, gnew := none, gat := none }
  ((s1.axPlace n (s1.axRt n).p 0).axOpen n).axSetState n 0

/-- STOP_BEH at T_stop (R258); homing aborts with reason 5. -/
def axStopBeh (s : State) (n : Nat) : State :=
  let st := s.axState n
  if st = 0 ∨ st = 8 then s
  else
    let s1 := if st = 6 then s.axHomeAbort n 5 else s
    match s.get (pgAX n) AX.CFG.STOP_BEH with
    | 0 => s1.axStop n (s1.axQdec n) false
    | 1 => s1.axStop n (s1.axQdec n) true
    | _ => s1.axStop n (s1.axDec n (s1.axRt n).prof) false

def axStopAll (s : State) : State := forEach (List.range 8) (fun u n => u.axStopBeh n) s

/-- RUN = 0 (R239): a quick stop, then the coils open or the step outputs idle. -/
def axHalt (s : State) (n : Nat) : State :=
  let s1 := if s.axState n = 6 then s.axHomeAbort n 5 else s
  let s2 := (s1.put (pgAX n) HDR.CTRL.RUN 0).refreshState (pgAX n)
  if s2.axState n = 8 then s2 else s2.axStop n (s2.axQdec n) true

/-- A step burst of profile record `arg` on axis `n` (R247). -/
def axBurst (s : State) (n arg : Nat) : State :=
  let st := s.axState n
  let r := s.axRt n
  if arg < 8 ∧ (st = 1 ∨ st = 4) then
    let dist := signed 32 (s.get (pgAX n) (AX.PROF_DIST arg))
    let from_ := if st = 4 then r.tgt else s.axPos n
    s.axMove n arg (from_ + dist) 4
  else
    let key := 0x0EB00 + n
    if s.mayRecord key then (s.markRecord key).raise (pgAX n) 0x0EB n [arg] else s

/-- Motion toward a limit that is qualified active (R243 reason 3). -/
def axBlocked (s : State) (n : Nat) (neg : Bool) : Bool :=
  if neg then s.on (pgAX n) AX.STATUS.LIM_NEG else s.on (pgAX n) AX.STATUS.LIM_POS

/-- The target lies outside the soft limits in use (R243 reason 2). -/
def axOutside (s : State) (n : Nat) (t : Int) : Bool :=
  s.on (pgAX n) AX.CFG.SOFT_EN && !s.on (pgAX n) AX.CFG.ROTARY
    && (decide (t < s.axPair n AX.SOFT_MIN_LO AX.SOFT_MIN_HI) || decide (s.axPair n AX.SOFT_MAX_LO AX.SOFT_MAX_HI < t))

end State
end Sys2Proof.Machine
end

