-- ==== Sys2Proof/Machine/Ang.lean ====
section
/-! DEFINITION. Angle sources (R206 to R219), event slots (R220 to R227) and the automatic synchroniser (R228 to R233). -/

namespace Sys2Proof.Machine

/-- binary64 constants: 0.5, 2, 1e9 / 2^32 and 1,000. -/
def f64Half : Nat := 0x3FE0000000000000
def f64Two : Nat := 0x4000000000000000
def f64Of (n : Int) : Nat := fmt64.ofInt n
def f64OfWord (w : Word) : Nat := Fmt.conv fmt32 fmt64 w.toNat
def wordOf64 (x : Nat) : Word := BitVec.ofNat 32 (Fmt.conv fmt64 fmt32 x)
/-- 1e9 / 2^32, exact in binary64. -/
def f64Rev : Nat := fmt64.div (f64Of 1000000000) (f64Of 4294967296)

namespace State

def asrcRt (s : State) (n : Nat) : AsrcRt := Store.get {} s.asrc n
def setAsrcRt (s : State) (n : Nat) (r : AsrcRt) : State := { s with asrc := Store.set {} s.asrc n r }
def angSlot (s : State) (k : Nat) : AngSlot := Store.get {} s.ang k
def srcState (s : State) (n : Nat) : Nat := s.get (pgASRC n) ASRC.STATUS.SRC_STATE
def srcMode (s : State) (n : Nat) : Nat := s.get (pgASRC n) ASRC.CFG.MODE
def srcAstern (s : State) (n : Nat) : Bool := s.on (pgASRC n) ASRC.STATUS.DIR
def srcLow (s : State) (n : Nat) : Bool := s.on (pgASRC n) ASRC.STATUS.LOWSPD
def srcCpr (s : State) (n : Nat) : Int := Int.ofNat (max 1 (s.get (pgASRC n) ASRC.CPR))

/-- The angle of count `c` (R208), unwrapped. -/
def srcAngleOf (s : State) (n : Nat) (c : Int) : Int :=
  Int.ofNat (s.get (pgASRC n) ASRC.ZERO) + (c * 4294967296) / s.srcCpr n

/-- The count after `c` in a direction; a referenced tooth wheel passes over the missing teeth. -/
def srcNext (s : State) (n : Nat) (c : Int) (astern : Bool) : Int :=
  let cpr := s.srcCpr n
  let miss : Int := Int.ofNat (s.get (pgASRC n) ASRC.CFG.MISSING)
  let skip := s.srcMode n = 2 ∧ s.on (pgASRC n) ASRC.STATUS.REFERENCED = true
  if astern then (if skip ∧ c % cpr = 0 then c - 1 - miss else c - 1)
  else (if skip ∧ c % cpr = cpr - miss - 1 then c + 1 + miss else c + 1)

/-- w·Δ + ½·a·Δ² for Δ = `d`, truncated (R214). Where a opposes w it rests at its vertex, so that it never moves against the
direction of travel (DEDUCED, assumption 245). -/
def srcOff (r : AsrcRt) (d : Int) : Int :=
  let z := fmt64.zero false
  let dd := f64Of d
  let vertex := fmt64.div (fmt64.neg r.w) r.a
  let opposed := (fmt64.lt z r.w && fmt64.lt r.a z) || (fmt64.lt r.w z && fmt64.lt z r.a)
  let x := if opposed && fmt64.lt vertex dd then vertex else dd
  fmt64.trunc (fmt64.add (fmt64.mul r.w x) (fmt64.mul (fmt64.mul (fmt64.mul f64Half r.a) x) x))

/-- The extended angle extrapolated to station time `t`, however far ahead (R231). -/
def angXAhead (s : State) (n t : Nat) : Int := (s.asrcRt n).x + srcOff (s.asrcRt n) ((t : Int) - (s.asrcRt n).t)

/-- The extended angle at station time `t` (R206, R214). -/
def angXAt (s : State) (n t : Nat) : Int :=
  let r := s.asrcRt n
  if s.srcState n ≠ 3 ∨ s.srcLow n = true then r.x
  else
    let off := srcOff r ((t : Int) - r.t)
    let next : Int := if n < 4 then
        (s.srcAngleOf n (s.srcNext n r.c (s.srcAstern n)) - s.srcAngleOf n r.c)
      else 4294967296
    if s.srcAstern n then r.x + max (min off 0) (next + 1) else r.x + min (max off 0) (next - 1)

/-- The extended angle now. -/
def angX (s : State) (n : Nat) : Int := s.angXAt n s.e

/-! ### Event slots -/

def slotW (s : State) (k w : Nat) : Word := s.reg pgANG (ANG.SLOT_W w).off k
def slotF (s : State) (k w hi lo : Nat) : Nat := bits (s.slotW k w).toNat hi lo
def slotSrc (s : State) (k : Nat) : Nat := s.slotF k 0 30 28
def slotEn (s : State) (k : Nat) : Bool := s.slotF k 0 31 31 == 1
def slotAct (s : State) (k : Nat) : Nat := s.slotF k 0 27 24
/-- The synchroniser's slot. -/
def syncSlot (s : State) : Nat := s.get pgANG ANG.SYNC_CFG.SLOT

/-- Store what a slot holds, with its registers; it is armed in effect while its source is in state 3 or 4 (R219). -/
def setAngSlot (s : State) (k : Nat) (a : AngSlot) : State :=
  let st := s.srcState (s.slotSrc k)
  let p := a.pred.getD 0
  let t := unsigned 64 (a.tgt.getD 0)
  let s1 := ({ s with ang := Store.set {} s.ang k a } : State).putB pgANG ANG.SLOT_STAT.ARMED
    (a.armed && (st == 3 || st == 4)) k
  (((s1.put pgANG ANG.SLOT_PRED_LO p k).put pgANG ANG.SLOT_PRED_HI (p / 4294967296) k).put pgANG ANG.SLOT_TGT_LO t k).put pgANG
    ANG.SLOT_TGT_HI (t / 4294967296) k

/-- The slot is armed, or disarmed, without a target. -/
def slotArmed (s : State) (k : Nat) (on : Bool) : State :=
  s.setAngSlot k { s.angSlot k with armed := on, tgt := none, pred := none }

/-- The next occurrence strictly beyond extended angle `x` in the direction of travel (R221). -/
def slotTarget (s : State) (k : Nat) (x : Int) : Option Int :=
  let astern := s.srcAstern (s.slotSrc k)
  let dir := s.slotF k 0 21 20
  if (dir = 0 ∧ astern = true) ∨ (dir = 1 ∧ astern = false) then none
  else
    let ang : Int := Int.ofNat (s.slotW k 1).toNat
    let n : Int := if s.slotF k 0 23 22 = 1 then Int.ofNat (max 1 (s.slotF k 2 31 16)) else 1
    let ph : Int := if s.slotF k 0 23 22 = 1 then Int.ofNat (s.slotF k 2 15 0) else 0
    let per := n * 4294967296
    let o := ph * 4294967296 + ang
    if astern then some (o + ((x - 1 - o) / per) * per) else some (o + ((x - o) / per + 1) * per)

/-- `predict` of R223, to 10 ns. -/
def slotPredict (s : State) (n : Nat) (t : Int) : Option Nat :=
  let r := s.asrcRt n
  let da := f64Of (t - r.x)
  let dt := fmt64.div da r.w
  let corr := fmt64.div (fmt64.mul (fmt64.mul (fmt64.mul f64Half r.a) dt) dt) r.w
  let d := if fmt64.le (fmt64.abs corr) (fmt64.mul f64Half (fmt64.abs dt)) then fmt64.sub dt corr else dt
  match fmt64.toFrac d with
  | some (a, b) => some (((r.t : Int) + Fmt.nearestEven a (b * 10) * 10).toNat)
  | none => none

/-- The slot takes a target beyond `x` and a prediction, as its source allows. -/
def slotAim (s : State) (k : Nat) (x : Int) : State :=
  let a := s.angSlot k
  let n := s.slotSrc k
  let st := s.srcState n
  if a.armed && (st == 3 || st == 4) then
    let t := s.slotTarget k x
    let p := match t with
      | some q => if st = 3 ∧ s.srcLow n = false then s.slotPredict n q else none
      | none => none
    s.setAngSlot k { a with tgt := t, pred := p }
  else s.setAngSlot k { a with tgt := none, pred := none }

/-- The slots of a source, but for the synchroniser's close slot. -/
def slotsOf (s : State) (n : Nat) : List Nat :=
  (List.range 256).filter (fun k => (s.angSlot k).armed && s.slotSrc k == n && s.slotAct k != 7)

/-- Every slot of the source takes a new target (R216, R219). -/
def slotsAim (s : State) (n : Nat) : State := forEach (s.slotsOf n) (fun u k => u.slotAim k (u.angX n)) s

/-- The slots of the source keep their targets, without a prediction (R215). -/
def slotsUnpredict (s : State) (n : Nat) : State :=
  forEach (s.slotsOf n) (fun u k => u.setAngSlot k { u.angSlot k with pred := none }) s

/-- The gate admits the action (R220). -/
def slotGate (s : State) (k : Nat) : Bool :=
  s.slotF k 0 18 18 == 0 ||
    (let o := s.imgBefore (s.slotF k 0 14 0) s.e
     bitOf o.val 0 && !o.bad)

/-- A loop slot that the event triggers, or ignores within MIN_INT (R161). -/
def loopTrigger (s : State) (n : Nat) : State :=
  if s.lClear n then s.setLoopRt n { s.loopRt n with trig := s.e + 1 } else s.lCount n 0x0F4

/-- Snapshot pair in word `w` of a slot (R222). -/
def slotSnap (s : State) (k w : Nat) : State :=
  if s.slotF k w 31 31 = 1 then
    let o := s.imgBefore (s.slotF k w 14 0) s.e
    (s.keepBefore s.e (s.slotF k w 30 16)).imgWrite (s.slotF k w 30 16) o.val (bits o.w3 31 28)
  else s

/-- The action of a slot (R222). -/
def slotAction (s : State) (k : Nat) : State :=
  match s.slotAct k with
  | 1 => forEach (s.lSlots.filter (fun n => s.lTrig n == 1 && s.lf n 0x008 17 0 == k)) (fun u n => u.loopTrigger n) s
  | 2 => (s.slotSnap k 4).slotSnap k 5
  | 3 => s.dioAngle (s.slotF k 3 5 0) true
  | 4 => s.dioAngle (s.slotF k 3 5 0) false
  | 5 => s.axBurst (s.slotF k 3 18 16) (s.slotF k 3 7 0)
  | _ => s

/-- A late or overtaken issue beyond LATE_TOL (R224). -/
def slotLate (s : State) (k cause late : Nat) : State :=
  if (cause = 1 ∨ cause = 2) ∧ s.get pgANG ANG.LATE_TOL.TOL * 10 < late then
    let s1 := (((s.incMod pgANG ANG.LATE_COUNT).put pgANG ANG.LAST_LATE.SLOT k).put pgANG ANG.LAST_LATE.LATE
      (min 16777215 (late / 10))).setFault pgANG 16
    let key := 0x0C400 + k
    if s.mayRecord key then (s1.markRecord key).raise pgANG 0x0C4 0 [k, late, cause] else s1
  else s

/-- An action that is suppressed: by its gate (R220), actions 3 to 5 while SEQ is in Stop (R226), all but 0 and 2 on the standby
(R381). -/
def slotQuiet (s : State) (k : Nat) : Bool :=
  let act := s.slotAct k
  !s.slotGate k || ((act == 3 || act == 4 || act == 5) && s.st pgSEQ == 2)
    || (s.get pgPAIR PAIR.STATUS.ROLE == 2 && act != 0 && act != 2)

/-- A higher slot sets or clears the same DIO channel at the same predicted instant: only its level is driven (R225). -/
def slotMerged (s : State) (k : Nat) : Bool :=
  let dio (j : Nat) : Bool := s.slotAct j == 3 || s.slotAct j == 4
  dio k && (s.angSlot k).pred.isSome && (List.range 256).any (fun j => decide (k < j) && dio j && (s.angSlot j).armed
    && (s.angSlot j).pred == (s.angSlot k).pred && s.slotF j 3 5 0 == s.slotF k 3 5 0 && !s.slotQuiet j)

/-- Slot `k` issues its action with a cause (R220, R223, R224, R226), and takes its next target. -/
def slotIssue (s : State) (k cause : Nat) : State :=
  let a := s.angSlot k
  match a.tgt with
  | none => s
  | some t =>
    let late := match a.pred with
      | some p => ((s.e : Int) - p).natAbs
      | none => 0
    let s1 := if s.slotQuiet k then s.put pgANG ANG.SLOT_STAT.LAST_CAUSE 4 k
      else
        let v := ((s.put pgANG ANG.SLOT_STAT.LAST_CAUSE cause k).incMod pgANG ANG.SLOT_FIRED 1 k).incMod pgANG ANG.FIRED_TOTAL
        let u := (if s.slotMerged k then v else v.slotAction k)
        let u1 := ({ u with sync := { u.sync with issued := s.e + 1 } } : State)
        (if s.slotF k 0 19 19 = 1 then u1.event (0x200 + k) else u1).slotLate k cause late
    if s.slotF k 0 23 22 = 2 then s1.slotArmed k false else s1.slotAim k t

/-- X has moved to or past target `t` (R224). -/
def slotPassed (s : State) (n : Nat) (t : Int) : Bool :=
  if s.srcAstern n then decide ((s.asrcRt n).x ≤ t) else decide (t ≤ (s.asrcRt n).x)

/-- A count of the source: targets passed are issued, the others are predicted anew (R223, R224). -/
def slotsRefine (s : State) (n : Nat) : State :=
  if !s.active pgANG then s
  else forEach (s.slotsOf n) (fun u k =>
    let a := u.angSlot k
    match a.tgt with
    | none => u
    | some t =>
      if u.slotPassed n t then u.slotIssue k (if u.srcLow n then 3 else 2)
      else if u.srcState n = 3 ∧ u.srcLow n = false then
        (match u.slotPredict n t with
        | some p =>
          let u1 := u.setAngSlot k { a with pred := some p }
          if p < u.e + 1000 then u1.slotIssue k 1 else u1
        | none => u.setAngSlot k { a with pred := none })
      else u.setAngSlot k { a with pred := none }) s

/-- The close slot is predicted anew at ASRC4's counts while the synchroniser approaches (R223, R231). -/
def closeRefine (s : State) (n : Nat) : State :=
  let k := s.syncSlot
  if n = 4 ∧ s.active pgANG = true ∧ s.get pgANG ANG.SYNC_STATE.STATE = 2 then
    match (s.angSlot k).tgt with
    | some t => s.setAngSlot k { s.angSlot k with pred := s.slotPredict 4 t }
    | none => s
  else s

/-! ### The synchroniser's state -/

def syncState (s : State) : Nat := s.get pgANG ANG.SYNC_STATE.STATE

/-- The synchroniser's part behind its registers. -/
def setSync (s : State) (r : SyncRt) : State := { s with sync := r }

/-- A change of its state (R229). -/
def setSyncState (s : State) (st : Nat) : State :=
  let old := s.syncState
  if old = st then s
  else (((s.put pgANG ANG.SYNC_STATE.STATE st).putB pgANG ANG.STATUS.SYNC_ACTIVE (decide (1 ≤ st) && decide (st ≤ 4))).event
    0x306).raise pgANG 0x0C8 0 [old, st, s.get pgANG ANG.SYNC_STATE.REASON]

/-- An abort (R233): the close slot is cancelled; a pulse that has started runs on. -/
def syncAbort (s : State) (reason : Nat) : State :=
  let s1 := (s.slotArmed s.syncSlot false).put pgANG ANG.SYNC_STATE.REASON reason
  (((s1.setFault pgANG (if reason = 7 then 18 else 17)).raise pgANG 0x0CB 0 [reason])).setSyncState 6

/-! ### The state of a source -/

/-- The source writes its speed entry (R213). -/
def srcSpeedOut (s : State) (n : Nat) (v : Word) (q : Quality) : State :=
  if s.on (pgASRC n) ASRC.SPEED_OUT.VALID then s.imgWriteWord (s.get (pgASRC n) ASRC.SPEED_OUT.INDEX) v q else s

/-- Revolutions or cycles per second of w, in binary64. -/
def srcPerS (w : Nat) : Nat := fmt64.mul w f64Rev

/-- The speed value of R213. -/
def srcSpeed (s : State) (n : Nat) : Word :=
  let scale := if n < 4 then f64OfWord (s.reg (pgASRC n) ASRC.SCALE.off) else f64OfWord F32.one
  wordOf64 (fmt64.mul (fmt64.mul scale (s.asrcRt n).w) f64Rev)

/-- The last value of an entry is written once more, BAD. -/
def imgAgainBad (s : State) (valid index : Fld) (page : Nat) : State :=
  if s.on page valid then s.imgWrite (s.get page index) (s.imgVal (s.get page index)) qBAD else s

/-- A change of SRC_STATE (R213, R219): code 0x0C0, source 0x300 + n; slots are armed or disarmed in effect, and the synchroniser
aborts where ASRC4 or ASRC5 leaves Synchronised (R233 reason 2). -/
def setSrcState (s : State) (n st : Nat) : State :=
  let old := s.srcState n
  if old = st then s
  else
    let pg := pgASRC n
    let s1 := ((s.put pg ASRC.STATUS.SRC_STATE st).event (0x300 + n)).raise pg 0x0C0 n [old, st]
    let s2 := if st = 5 then s1.setFault pg 16 else s1
    let s3 := if st = 5 ∨ st = 0 then
        (s2.imgAgainBad ASRC.SPEED_OUT.VALID ASRC.SPEED_OUT.INDEX pg).imgAgainBad ASRC.VOLT_OUT.VALID
          ASRC.VOLT_OUT.INDEX pg
      else s2
    let was := old == 3 || old == 4
    let now := st == 3 || st == 4
    let s4 := if was != now then s3.slotsAim n else s3
    if 4 ≤ n ∧ old = 3 ∧ 1 ≤ s4.syncState ∧ s4.syncState ≤ 3 then s4.syncAbort 2 else s4

/-- Speed measurement starts again (R212, R216). -/
def srcRestart (r : AsrcRt) : AsrcRt := { r with hist := 0, pn := 0, good := 0, w := 0, a := 0 }

/-- The source is Lost (R210, R211): its next reference sets the count anew. -/
def srcLost (s : State) (n : Nat) : State :=
  (s.setAsrcRt n { srcRestart (s.asrcRt n) with
      teethOk := false, gapCand := false, lastInt := 0, lock := 0, bad := 0, relearn := true }
    ).setSrcState n 5

/-- A speed-pitch edge at the base point (R212, R213, R215). -/
def srcPitch (s : State) (n : Nat) : State :=
  let pg := pgASRC n
  let r := s.asrcRt n
  if r.hist = 0 then s.setAsrcRt n { r with pt := r.t, px := r.x, hist := 1, pn := 0 }
  else
    let dt := r.t - r.pt
    let w := fmt64.div (f64Of (r.x - r.px)) (f64Of dt)
    let limit := s.get pg ASRC.STALL.LOWSPD_US * 1000
    let slow := decide (limit < dt)
    let good := if slow then 0 else r.good + 1
    let low := if n < 4 then (if slow then true else if s.srcLow n ∧ good < 2 then true else false) else false
    let a := if r.hist < 2 ∨ low = true then 0
      else fmt64.div (fmt64.sub w r.w) (fmt64.div (f64Of (dt + r.pdt)) f64Two)
    let r1 := { r with w := w, a := a, pt := r.t, px := r.x, pdt := dt, hist := 2, pn := 0, good := good }
    let s1 := (((s.setAsrcRt n r1).putB pg ASRC.STATUS.LOWSPD low).setReg pg ASRC.SPEED.off (wordOf64 (srcPerS w))).setReg
      pg ASRC.ACCEL.off (wordOf64 (fmt64.mul (srcPerS a) (f64Of 1000000000)))
    s1.srcSpeedOut n (s1.srcSpeed n) (if low then qUNCERTAIN else 0)

/-- The base point moves to count `c` captured at `t`. -/
def srcAt (s : State) (n : Nat) (c : Int) (t : Nat) : State :=
  let pg := pgASRC n
  let r := s.asrcRt n
  let x := r.base + s.srcAngleOf n c
  (((s.setAsrcRt n { r with c := c, t := t, x := x }).put pg ASRC.EDGE_ANGLE (unsigned 32 x)).put pg ASRC.EDGE_T t).put pg
    ASRC.COUNT (unsigned 32 c)

/-- The signed residue of `c` modulo CPR, within ±CPR/2 (R210). -/
def srcResidue (cpr c : Int) : Int :=
  let m := c % cpr
  if cpr < 2 * m then m - cpr else m

/-- A reference (R210): deviation `d` in counts; `off` is the count, modulo CPR, that the tooth now at the base point has by it. The
first one sets the count to it; one after Lost sets it without a deviation (R211). -/
def srcReference (s : State) (n : Nat) (d off : Int) : State :=
  let pg := pgASRC n
  let r := s.asrcRt n
  let s0 := s.incMod pg ASRC.REF_COUNT
  if !s.on pg ASRC.STATUS.REFERENCED then
    let rev := r.x / 4294967296
    let s1 := (s0.setAsrcRt n { r with base := rev * 4294967296 }).put pg ASRC.STATUS.REFERENCED 1
    let s2 := s1.srcAt n off r.t
    let r2 := s2.asrcRt n
    (s2.setAsrcRt n { r2 with px := r2.px + (r2.x - r.x), relearn := false }).setSrcState n 3
  else
    let tol : Int := Int.ofNat (s.get pg ASRC.REF_TOL.COUNTS)
    let s1 := if r.relearn then s0 else s0.put pg ASRC.REF_DEV (unsigned 32 d)
    if !r.relearn && decide (tol < |d|) then
      ((s1.setFault pg 17).raise pg 0x0C1 1 [unsigned 32 d, n]).srcLost n
    else
      let s2 := if r.relearn || decide (|d| ≤ 1) then s1 else s1.raise pg 0x0C1 0 [unsigned 32 d, n]
      let u := s2.srcAt n (r.c - srcResidue (s.srcCpr n) (r.c - off)) r.t
      let r2 := u.asrcRt n
      (u.setAsrcRt n { r2 with px := r2.px + (r2.x - r.x), relearn := false }).setSrcState n 3

/-- The direction of an edge (R209): astern. -/
def srcDirOf (s : State) (n : Nat) (fwd : Bool) : Bool :=
  let pg := pgASRC n
  let raw := match s.get pg ASRC.CFG.DIR_SRC with
    | 1 => !fwd
    | 2 => s.on pg ASRC.DIR_IN.VALID && bitOf (s.imgBefore (s.get pg ASRC.DIR_IN.INDEX) s.e).val 0
    | _ => false
  raw != s.on pg ASRC.CFG.INVERT

/-- The confirmed direction changes (R216). -/
def srcReverse (s : State) (n : Nat) (astern : Bool) : State :=
  let pg := pgASRC n
  let r := s.asrcRt n
  ((((s.setAsrcRt n { srcRestart r with rev1 := false, teethOk := false, gapCand := false }).putB pg ASRC.STATUS.DIR
    astern).raise pg 0x0C2 n [b2n astern])).slotsAim n

/-- The first count after Standstill, or after RUN or Lost. -/
def srcWake (s : State) (n : Nat) : State :=
  match s.srcState n with
  | 1 => s.setSrcState n 2
  | 5 => s.setSrcState n 2
  | 4 => (((s.setAsrcRt n (srcRestart (s.asrcRt n))).put (pgASRC n) ASRC.STATUS.LOWSPD 1).setSrcState n 3).raise
      (pgASRC n) 0x0C3 1 [n]
  | _ => s

/-- The gap of a tooth wheel (R210): tooth interval `dt` has just ended. -/
def srcGap (s : State) (n : Nat) (dt : Nat) (astern : Bool) : State :=
  let pg := pgASRC n
  let r := s.asrcRt n
  let long := decide (0 < r.lastInt) && decide (s.get pg ASRC.CFG.GAP * r.lastInt < 8 * dt)
  if r.gapCand && !long then
    let miss : Int := Int.ofNat (s.get pg ASRC.CFG.MISSING)
    let expect := s.srcCpr n - miss
    let seen : Int := Int.ofNat (r.teeth - 1)
    let first := !s.on pg ASRC.STATUS.REFERENCED
    let sgn : Int := if astern then -1 else 1
    let at0 : Int := if astern then s.srcCpr n - miss - 2 else 1
    let s1 := s.setAsrcRt n { r with gapCand := false, teeth := 1, teethOk := true, lastInt := dt }
    if first || r.teethOk then s1.srcReference n (if first then 0 else sgn * (seen - expect)) at0
    else
      let tgt := if astern then s.srcCpr n - miss - 2 else 1
      s1.srcReference n (srcResidue (s.srcCpr n) (r.c - tgt)) at0
  else s.setAsrcRt n { r with gapCand := long, lastInt := dt }

/-- A count edge captured at `t` (R208, R210, R212, R216). -/
def srcCount (s : State) (n : Nat) (fwd : Bool) (t : Nat) : State :=
  let pg := pgASRC n
  let astern := s.srcDirOf n fwd
  let s0 := s.srcWake n
  let r0 := s0.asrcRt n
  let dt := t - r0.t
  let s1 := s0.srcAt n (s0.srcNext n r0.c astern) t
  let against := astern != s1.srcAstern n
  let s2 := if against then
      (if r0.rev1 then s1.srcReverse n astern else s1.setAsrcRt n { s1.asrcRt n with rev1 := true })
    else s1.setAsrcRt n { s1.asrcRt n with rev1 := false }
  let r2 := s2.asrcRt n
  let s3 := s2.setAsrcRt n { r2 with teeth := r2.teeth + 1, pn := r2.pn + 1 }
  let s4 := match s3.srcMode n with
    | 2 => s3.srcGap n dt astern
    | 3 => s3.srcReference n 0 0
    | _ => s3
  let s5 := if (s4.asrcRt n).hist = 0 ∨ s4.get pg ASRC.SPD_PITCH.COUNTS ≤ (s4.asrcRt n).pn then s4.srcPitch n else s4
  s5.slotsRefine n

/-! ### The synchroniser -/

/-- W1 of the synchroniser's slot, which it writes itself (R237): its shadow and a buffer that waits hold it too, so that no commit
takes it for a change. -/
def setCloseAngle (s : State) (k : Nat) (w : Word) : State :=
  let off := (ANG.SLOT_W 1).off
  let s1 := (s.setReg pgANG off w k).setShadow pgANG off w k
  if s1.on pgANG HDR.COMMIT.PENDING then
    { s1 with buf := Store.set (resetWord pgANG off k) s1.buf (regKey pgANG off k) w } else s1

/-- REQ reads 1 and is not BAD (R229, R233). -/
def syncReq (s : State) : Bool :=
  s.on pgANG ANG.SYNC_REQ.VALID && s.imgBool (s.get pgANG ANG.SYNC_REQ.INDEX)
    && !s.imgBad (s.get pgANG ANG.SYNC_REQ.INDEX)

/-- The task that produces REQ is held or shed. -/
def syncTaskGone (s : State) : Bool :=
  let i := s.get pgANG ANG.SYNC_REQ.INDEX
  s.dirProdKind i == 3 && (bitOf (s.get pgSEQ SEQ.HELD) (s.dirProdId i) || bitOf (s.get pgSEQ SEQ.SHED) (s.dirProdId i))

/-- CLOSE_CH is unavailable (R233 reason 8). -/
def syncNoChannel (s : State) : Bool :=
  let ch := s.get pgANG ANG.SYNC_CFG.CLOSE_CH
  s.isFenced (dioPg ch) || s.fsMissing (ch / 8)

/-- SEQ is in Run, not in Hold. -/
def seqRuns (s : State) : Bool := s.st pgSEQ == 3 || s.st pgSEQ == 6

/-- The abort conditions that hold in states 1 to 3 (R233), in the order of their numbers, but for reason 2, which is a change of
SRC_STATE; SEQ leaves Run only where it was in Run since the request. A fallen REQ takes Closed and Aborted to Idle. -/
def syncWatch (s : State) : State :=
  let st := s.syncState
  if !s.active pgANG then s
  else if 1 ≤ st ∧ st ≤ 3 then
    if !s.syncReq then s.syncAbort 1
    else if (s.sync.inRun && !s.seqRuns) || s.syncTaskGone then s.syncAbort 5
    else if s.syncNoChannel then s.syncAbort 8
    else s.setSync { s.sync with inRun := s.seqRuns }
  else if (st = 5 ∨ st = 6) ∧ s.syncReq = false then s.setSyncState 0
  else s

/-- Primary volts of a mains source. -/
def srcVolts (s : State) (n : Nat) : Word := F32.mul (s.reg (pgASRC n) ASRC.VRMS.off) (s.reg (pgASRC n) ASRC.PT_RATIO.off)

/-- Frequency of a mains source in Hz, binary64. -/
def srcHz (s : State) (n : Nat) : Nat := srcPerS (s.asrcRt n).w

/-- SYNC_OUT entry `k` is written where bound (R228). -/
def syncOut (s : State) (k : Nat) (v : Word) : State :=
  if s.on pgANG (ANG.SYNC_OUT.VALID k) then s.imgWriteWord (s.get pgANG (ANG.SYNC_OUT.INDEX k)) v 0 else s

/-- φ carried forward by the slip to `t` (R232). -/
def syncPhiAt (s : State) (t : Nat) : Int :=
  let r := s.sync
  match fmt32.toFrac r.slip.toNat with
  | some (a, b) => r.phi + Fmt.nearestEven (a * ((t : Int) - r.t) * 4294967296) (b * 1000000000)
  | none => r.phi

/-- A binary32 value × 1,000 as a signed 32-bit number. -/
def milli (w : Word) : Nat :=
  match fmt32.toFrac w.toNat with
  | some (a, b) => unsigned 32 (Fmt.nearestEven (a * 1000) b)
  | none => 0

/-- SYNC_EVALUATE (R228, R230, R231), at a crossing of ASRC5. -/
def syncEvaluate (s : State) : State :=
  let r := s.sync
  let t := (s.asrcRt 5).t
  let phi := signed 32 (unsigned 32 (s.angXAt 4 t - (s.asrcRt 5).x))
  let slip := wordOf64 (fmt64.sub (s.srcHz 4) (s.srcHz 5))
  let dt := fmt64.div (f64Of (t - r.t)) (f64Of 1000000000)
  let ds := if r.seen then fmt64.div (fmt64.sub (f64OfWord slip) (f64OfWord r.slip)) dt else 0
  let dv := F32.sub (s.srcVolts 4) (s.srcVolts 5)
  let s1 := s.setSync { r with t := t, phi := phi, slip := slip, seen := true }
  let s2 := ((s1.put pgANG ANG.SYNC_PHI (unsigned 32 phi)).setReg pgANG ANG.SYNC_SLIP.off slip).setReg pgANG
    ANG.SYNC_DVM.off dv
  let deg := F32.ofRat (phi * 360) 4294967296
  let s3 := (((s2.syncOut 0 slip).syncOut 1 dv).syncOut 2 deg).syncOut 3 (BitVec.ofNat 32 s2.syncState)
  let s4 := s3.syncWatch
  let st := s4.syncState
  if st = 1 ∨ st = 2 then
    let lim (f : Fld) : Word := s.reg pgANG f.off
    match fmt32.toFrac slip.toNat with
    | none => if st = 2 then (s4.slotArmed s.syncSlot false).setSyncState 1 else s4
    | some (sn, sd) =>
      let frac := if 0 < sn then unsigned 32 (-phi) else unsigned 32 phi
      let dtc := if sn = 0 then 0 else (Fmt.nearestEven (Int.ofNat (frac * sd * 100000000)) (sn.natAbs * 4294967296)).toNat * 10
      let tc := t + dtc
      let ti := tc - s.get pgANG ANG.SYNC_TCLOSE.US * 1000
      let tt := fmt64.div (f64Of (dtc : Int)) (f64Of 1000000000)
      let resid := fmt64.mul (fmt64.mul (fmt64.mul (fmt64.mul f64Half ds) tt) tt) (f64Of 4294967296)
      let ok := sn != 0 && s4.srcState 4 == 3 && s4.srcState 5 == 3
        && F32.le (lim ANG.SYNC_VBUS_MIN) (s.srcVolts 5)
        && F32.le (lim ANG.SYNC_SLIP_LO) slip && F32.le slip (lim ANG.SYNC_SLIP_HI)
        && fmt64.le (fmt64.abs ds) (f64OfWord (lim ANG.SYNC_DSLIP))
        && F32.le (F32.abs dv) (lim ANG.SYNC_DV)
        && fmt64.le (fmt64.abs resid) (f64Of (lim ANG.SYNC_PHASE_WIN).toNat)
        && decide (t + 2000000 ≤ ti)
      if ok then
        let k := s.syncSlot
        let x := s4.angXAhead 4 ti
        let s5 := s4.setCloseAngle k (BitVec.ofInt 32 x)
        let s6 := s5.setSync { s5.sync with tc := tc, ti := ti }
        let s7 := s6.setAngSlot k { s6.angSlot k with armed := true, tgt := some x, pred := s6.slotPredict 4 x }
        ((s7.put pgANG ANG.SYNC_TI_LO ti).put pgANG ANG.SYNC_TI_HI (ti / 4294967296)).setSyncState 2
      else if st = 2 then (s4.slotArmed s.syncSlot false).setSyncState 1 else s4
  else s4

/-! ### RUN and commits -/

/-- The first Locked field of an ASRC page that its RUN refuses (R207, R238): its offset. -/
def asrcReject (s : State) (n : Nat) : Option Nat :=
  let pg := pgASRC n
  let mode := s.srcMode n
  let cpr := s.get pg ASRC.CPR
  let miss := s.get pg ASRC.CFG.MISSING
  let dir := s.get pg ASRC.CFG.DIR_SRC
  if n < 4 then
    if mode < 1 ∨ 3 < mode ∨ dir = 3 ∨ (mode = 1 ∧ dir ≠ 1) ∨ miss < 1 ∨ 2 < miss then some 0x040
    else if mode = 1 ∧ (cpr < 4 ∨ 1048576 < cpr ∨ cpr % 4 ≠ 0) then some 0x044
    else if mode = 2 ∧ (cpr < 8 ∨ 4096 < cpr ∨ cpr < 8 * (miss + 1)) then some 0x044
    else if mode = 3 ∧ cpr ≠ 1 then some 0x044
    else if dir = 2 ∧ s.on pg ASRC.DIR_IN.VALID = false then some 0x060
    else none
  else if mode ≠ 4 then some 0x040 else none

/-- RUN = 1 of a source. -/
def asrcRun (s : State) (n : Nat) : State :=
  let pg := pgASRC n
  match s.asrcReject n with
  | some off => (s.setFault pg 3).raise pg 0x022 0 [off]
  | none =>
    let s1 := (s.put pg HDR.CTRL.RUN 1).refreshState pg
    let s2 := (((s1.setAsrcRt n {}).put pg ASRC.STATUS.REFERENCED 0).put pg ASRC.STATUS.LOWSPD 0).put pg ASRC.REF_COUNT 0
    (s2.put pg ASRC.STATUS.DIR 0).setSrcState n 1

/-- RUN = 0 of a source, or the loss of its domain: Off. -/
def asrcHalt (s : State) (n : Nat) : State :=
  ((s.put (pgASRC n) HDR.CTRL.RUN 0).refreshState (pgASRC n)).setSrcState n 0

/-- Slot `k`'s configuration has been applied: it is armed and takes a target anew (R221). -/
def slotApplied (s : State) (k : Nat) : State :=
  if s.active pgANG && s.slotEn k && s.slotAct k != 7 then
    let s1 := s.slotArmed k true
    s1.slotAim k (s1.angX (s1.slotSrc k))
  else s.slotArmed k false

/-- The slots of a commit of ANG wait no more; a rejected commit leaves them pending (R70, R236). -/
def slotsGone (s : State) (rejected : Bool) : State :=
  forEach ((List.range 256).filter (fun k => (s.angSlot k).going || (s.angSlot k).pend)) (fun u k =>
    u.setAngSlot k { u.angSlot k with pend := rejected, going := false }) s

/-- The slots whose words differ between two states. -/
def slotsDiffer (s t : State) : List Nat :=
  (List.range 256).filter (fun k => (List.range 8).any (fun w => s.slotW k w != t.slotW k w))

/-- RUN = 1 of ANG (R207): every slot in use is armed, and the synchroniser is Idle (R229). -/
def angRun (s : State) : State :=
  let s1 := ((s.put pgANG HDR.CTRL.RUN 1).refreshState pgANG).setSyncState 0
  forEach ((List.range 256).filter (fun k => s1.slotEn k)) (fun u k => u.slotApplied k) s1

/-- RUN = 0: no slot is armed, no action is issued (R207), and the synchroniser is Idle; a pulse that has started runs on. -/
def angHalt (s : State) : State :=
  let s1 := (s.put pgANG HDR.CTRL.RUN 0).refreshState pgANG
  (forEach ((List.range 256).filter (fun k => (s.angSlot k).armed)) (fun u k => u.slotArmed k false) s1).setSyncState 0

/-- The first value of ANG's configuration that R237 rejects: P0. -/
def angReject (s : State) : Option Nat :=
  let slotBad (k : Nat) : Option Nat :=
    let act := s.slotAct k
    let pairBad (w : Nat) : Bool :=
      let d := s.slotF k w 30 16
      let c := s.slotF k w 14 0
      s.slotF k w 31 31 == 1 && !(s.dirProdKind d == 5 && s.dirProdId d == k && s.dirType d == s.dirType c
        && s.dirCount d == s.dirCount c && decide (s.dirSize c ≤ 16))
    if !s.slotEn k then none
    else if 6 ≤ s.slotSrc k ∨ act = 6 ∨ 8 ≤ act ∨ s.slotF k 0 23 22 = 3 ∨ s.slotF k 0 21 20 = 3
        ∨ (act = 7 ∧ k ≠ s.syncSlot) then some 0x100
    else if s.slotF k 0 18 18 = 1 ∧ s.dirType (s.slotF k 0 14 0) ≠ 1 then some 0x100
    else if s.slotF k 2 31 16 = 0 ∨ s.slotF k 2 31 16 ≤ s.slotF k 2 15 0 then some 0x108
    else if (act = 3 ∨ act = 4) ∧ s.dioMode (s.slotF k 3 5 0) ≠ 4 then some 0x10C
    else if act = 2 ∧ pairBad 4 = true then some 0x110
    else if act = 2 ∧ pairBad 5 = true then some 0x114
    else none
  match (List.range 256).findSome? slotBad with
  | some o => some o
  | none =>
    let lim (f : Fld) : Word := s.reg pgANG f.off
    let typed (v i : Fld) (ty : Nat) : Bool := !s.on pgANG v || s.dirType (s.get pgANG i) == ty
    let us := s.get pgANG ANG.SYNC_TCLOSE.US
    let ms := s.get pgANG ANG.SYNC_PULSE.MS
    let tmo := s.get pgANG ANG.SYNC_TMO.S
    if us < 10000 ∨ 500000 < us then some 0x208
    else if ms < 50 ∨ 2000 < ms then some 0x224
    else if tmo < 1 ∨ 3600 < tmo then some 0x228
    else if s.on pgANG ANG.SYNC_CFG.EN = false then none
    else match ([ANG.SYNC_SLIP_LO, ANG.SYNC_SLIP_HI, ANG.SYNC_DSLIP, ANG.SYNC_DV, ANG.SYNC_VBUS_MIN].find?
        (fun f => !F32.finite (lim f))) with
      | some f => some f.off
      | none =>
        if F32.lt (lim ANG.SYNC_SLIP_HI) (lim ANG.SYNC_SLIP_LO) then some 0x20C
        else if !typed ANG.SYNC_REQ.VALID ANG.SYNC_REQ.INDEX 1 then some 0x204
        else ([0, 1, 2, 3].find? (fun k => !typed (ANG.SYNC_OUT.VALID k) (ANG.SYNC_OUT.INDEX k)
            (if k = 3 then 8 else 10))).map (fun k => 0x22C + 4 * k)

/-- The first Staged value of a source that R238 rejects. -/
def asrcStageReject (s : State) (n : Nat) : Option Nat :=
  let pg := pgASRC n
  let f (x : Fld) : Word := s.reg pg x.off
  let pitch := s.get pg ASRC.SPD_PITCH.COUNTS
  let out (v i : Fld) : Bool := s.on pg v && !(s.dirType (s.get pg i) == 10 && s.dirProdKind (s.get pg i) == 1
    && s.dirProdId (s.get pg i) == 88 + n)
  if pitch = 0 ∨ (s.srcMode n = 1 ∧ s.get pg ASRC.CPR % max 1 pitch ≠ 0) then some 0x054
  else if !F32.finite (f ASRC.SCALE) || F32.eq (f ASRC.SCALE) F32.zero then some 0x058
  else if out ASRC.SPEED_OUT.VALID ASRC.SPEED_OUT.INDEX then some 0x05C
  else if s.on pg ASRC.DIR_IN.VALID && s.dirType (s.get pg ASRC.DIR_IN.INDEX) != 1 then some 0x060
  else if s.get pg ASRC.MAINS.PLL_BW = 3 then some 0x064
  else if !(F32.finite (f ASRC.PT_RATIO) && F32.lt F32.zero (f ASRC.PT_RATIO)) then some 0x068
  else if !(F32.le F32.one (f ASRC.V_MIN) && F32.le (f ASRC.V_MIN) 0x43160000#32) then some 0x070
  else if out ASRC.VOLT_OUT.VALID ASRC.VOLT_OUT.INDEX then some 0x074
  else none

end State

/-! ### The commands -/

/-- The source runs: RUN is 1 and its domain is on. -/
def State.srcRuns (s : State) (n : Nat) : Bool := s.srcState n != 0 && s.active (pgASRC n)

/-- WIRE (R211): an input in use is open or shorted, or is so no longer. -/
def execWire (n : Fin 4) (stands : Bool) (s : State) : Out :=
  .next (if s.srcRuns n.val then
      (if stands then
        (((s.cond (pgASRC n.val) 18 true).setFault (pgASRC n.val) 18).raise (pgASRC n.val) 0x0C5 0 [n.val]).srcLost n.val
      else s.cond (pgASRC n.val) 18 false)
    else s)

/-- STANDSTILL (R215): no accepted count for STALL_MS. -/
def execStandstill (n : Fin 4) (s : State) : Out :=
  .next (if s.srcRuns n.val && s.srcState n.val == 3
        && decide ((s.asrcRt n.val).t + s.get (pgASRC n.val) ASRC.STALL.STALL_MS * 1000000 ≤ s.e) then
      let s1 := ((s.setAsrcRt n.val (State.srcRestart (s.asrcRt n.val))).setSrcState n.val 4).raise (pgASRC n.val) 0x0C3 0
        [n.val]
      ((s1.srcSpeedOut n.val F32.zero 0).setReg (pgASRC n.val) ASRC.SPEED.off 0).slotsUnpredict n.val
    else s)

/-- The phase error of a PLL at a crossing, where the phase of the signal is 0, against `deg` degrees: below, above (R218). -/
def phaseBelow (phase : Word) (deg : Nat) : Bool := decide ((signed 32 phase.toNat).natAbs * 360 < deg * 4294967296)
def phaseAbove (phase : Word) (deg : Nat) : Bool := decide (deg * 4294967296 < (signed 32 phase.toNat).natAbs * 360)

/-- A crossing of the input of mains source `n` (R217, R218): `vrms` is the rms voltage of the cycle, `pll` what the source's PLL
shows by it. -/
def State.srcCross (s : State) (n : Nat) (vrms : Word) (pll : PllOut) : State :=
  let phase := pll.phase
  let w := pll.w
  if s.srcRuns n then
      let pg := pgASRC n
      let r := s.asrcRt n
      let hz := State.srcPerS w.toNat
      let inBand := fmt64.le (f64Of 40) hz && fmt64.le hz (f64Of 70)
      let volts := F32.le (s.reg pg ASRC.V_MIN.off) vrms
      let ang := (phase.toNat + s.get pg ASRC.PHASE_OFS) % 4294967296
      let next := r.x + 4294967296
      let x1 : Int := if r.hist = 0 then r.x / 4294967296 * 4294967296 + ang
        else next + signed 32 (unsigned 32 ((ang : Int) - next))
      let dt := s.e - r.t
      let a := if r.hist < 2 then 0
        else fmt64.div (fmt64.sub w.toNat r.w) (fmt64.div (f64Of (dt + r.pdt)) f64Two)
      let lock := if volts && inBand && phaseBelow phase 1 then min 10 (r.lock + 1) else 0
      let bad := if phaseAbove phase 5 then r.bad + 1 else 0
      let s1 := s.setAsrcRt n { r with t := s.e, x := x1, w := w.toNat, a := a, pdt := dt, hist := min 2 (r.hist + 1)
                                       lock := lock, bad := bad }
      let s2 := ((((s1.put pg ASRC.EDGE_ANGLE ang).put pg ASRC.EDGE_T s.e).setReg pg ASRC.SPEED.off (wordOf64 hz)).setReg
        pg ASRC.ACCEL.off (wordOf64 (fmt64.mul (State.srcPerS a) (f64Of 1000000000)))).setReg pg ASRC.VRMS.off vrms
      let st := s2.srcState n
      let s3 := if st = 3 ∧ (inBand = false ∨ 3 ≤ bad) then s2.srcLost n
        else if (st = 2 ∨ st = 5) ∧ lock = 10 then (s2.put pg ASRC.STATUS.REFERENCED 1).setSrcState n 3
        else if (st = 1 ∨ st = 5) ∧ volts = true then s2.setSrcState n 2
        else s2
      let good := s3.srcState n == 2 || s3.srcState n == 3
      let s4 := if good then
          let u := s3.srcSpeedOut n (wordOf64 hz) 0
          if u.on pg ASRC.VOLT_OUT.VALID then
            u.imgWriteWord (u.get pg ASRC.VOLT_OUT.INDEX) (u.srcVolts n) 0 else u
        else s3
      let s5 := (s4.slotsRefine n).closeRefine n
      (if n = 5 ∧ s5.active pgANG = true then s5.syncEvaluate else s5.syncWatch)
  else s

/-- MAINS_CROSSING (R217, R218, R228): a positive-going zero crossing on input MNS`j`, which both mains sources may read. -/
def execMainsCrossing (j : Fin 4) (vrms phase4 : Word) (w4 : BitVec 64) (phase5 : Word) (w5 : BitVec 64) (s : State) : Out :=
  let reads (u : State) (n : Nat) : Bool := u.get (pgASRC n) ASRC.MAINS.INPUT == j.val
  let s1 := if reads s 4 then s.srcCross 4 vrms ⟨phase4, w4⟩ else s
  .next (if reads s1 5 then s1.srcCross 5 vrms ⟨phase5, w5⟩ else s1)

/-- MAINS_SIGNAL_LOST (R218): the signal has stayed below V_MIN for 40 ms. -/
def execMainsSignalLost (i : Fin 2) (s : State) : Out :=
  let n := 4 + i.val
  .next (if s.srcRuns n && (s.srcState n == 2 || s.srcState n == 3) then (s.srcLost n).syncWatch else s)

/-- ANGLE_READ (R206): a read of `ASRCn.ANGLE` returns the angle and latches REV_SNAP and SNAP_T. -/
def execAngleRead (n : Fin 6) (s : State) : Out :=
  .next (if s.served && s.pageOn (pgASRC n.val) then
      let x := s.angX n.val
      ((s.put (pgASRC n.val) ASRC.REV_SNAP (unsigned 32 (x / 4294967296))).put (pgASRC n.val) ASRC.SNAP_T s.stnNs).answer
        (unsigned 32 x)
    else s.answer 0)

/-- SLOT_ARM (R236): master `m` writes ARM to `ANG.SLOT_CMD`; the slot is the one SLOT_INDEX names. -/
def execSlotArm (m : Fin 4) (s : State) : Out :=
  .next (s.action pgANG ANG.SLOT_CMD.CODE.off m.val (fun s =>
    let k := s.get pgANG ANG.SLOT_INDEX.SLOT
    if s.slotAct k = 7 ∨ s.active pgANG = false ∨ s.slotEn k = false then s else s.slotApplied k))

/-- SLOT_DISARM (R236): master `m` writes DISARM to `ANG.SLOT_CMD`. -/
def execSlotDisarm (m : Fin 4) (s : State) : Out :=
  .next (s.action pgANG ANG.SLOT_CMD.CODE.off m.val (fun s =>
    let k := s.get pgANG ANG.SLOT_INDEX.SLOT
    if s.slotAct k = 7 then s else s.slotArmed k false))

/-- A slot that is due with prediction `p`. -/
def State.slotDue (s : State) (k p : Nat) : Bool :=
  (s.angSlot k).armed && (s.angSlot k).pred == some p && s.srcState (s.slotSrc k) == 3 && s.slotAct k != 7

/-- ACTION_ISSUE (R223, R225): slot `k` has reached its predicted instant. It waits while a lower slot of the same instant has not
been issued, and while the issue stage is busy, which issues one action per 10 ns; an action that has waited is late. -/
def execActionIssue (k : Fin 256) (busy : Bool) (s : State) : Out :=
  .next (match (s.angSlot k.val).pred with
    | some p =>
      if s.active pgANG && s.slotDue k.val p && decide (p ≤ s.e) && busy == decide (p < s.e) && s.sync.issued != s.e + 1
          && !(List.range k.val).any (fun j => s.slotDue j p) then
        s.slotIssue k.val (if p < s.e then 1 else 0)
      else s
    | none => s)

/-- SYNC_REQUEST (R229): the REQ entry rises with EN 1. -/
def execSyncRequest (s : State) : Out :=
  .next (if s.active pgANG && s.on pgANG ANG.SYNC_CFG.EN && s.syncState == 0 && s.syncReq
        && s.get pgPAIR PAIR.STATUS.ROLE != 2 then
      let fb := s.get pgANG ANG.SYNC_CFG.FB_CH
      if s.on pgANG ANG.SYNC_CFG.FB_VALID && s.dioLevel fb then s.syncAbort 3
      else ((s.setSync { s.sync with inRun := s.seqRuns }).put pgANG ANG.SYNC_STATE.REASON 0).setSyncState 1
    else s)

/-- SYNC_FREEZE (R231): t_i − 2 ms. The angle and the prediction stand from here on. -/
def execSyncFreeze (s : State) : Out :=
  let s1 := s.syncWatch
  .next (if s1.active pgANG && s1.syncState == 2 && decide (s1.sync.ti ≤ s1.e + 2000000) then s1.setSyncState 3 else s1)

/-- SYNC_CLOSE (R232): t_i. -/
def execSyncClose (s : State) : Out :=
  let s1 := s.syncWatch
  .next (if s1.active pgANG && s1.syncState == 3 && decide (s1.sync.ti ≤ s1.e) then
      let k := s1.syncSlot
      let s0 := (((s1.put pgANG ANG.SLOT_STAT.LAST_CAUSE 0 k).incMod pgANG ANG.SLOT_FIRED 1 k).incMod pgANG
        ANG.FIRED_TOTAL).slotArmed k false
      let s2 := if s1.slotF k 0 19 19 = 1 then s0.event (0x200 + k) else s0
      let s3 := (s2.dioAngle (s2.get pgANG ANG.SYNC_CFG.CLOSE_CH) true).raise pgANG 0x0C9 0
        [unsigned 32 (s2.syncPhiAt s2.sync.tc), State.milli s2.sync.slip, State.milli (s2.reg pgANG ANG.SYNC_DVM.off)]
      (s3.setSync { s3.sync with pulse := true, ti := s3.e, issued := s3.e + 1 }).setSyncState 4
    else s1)

/-- SYNC_FEEDBACK (R232): the first rising edge of FB_CH after t_i. -/
def execSyncFeedback (s : State) : Out :=
  .next (if s.syncState = 4 ∧ s.on pgANG ANG.SYNC_CFG.FB_VALID = true then
      let us := (s.e - s.sync.ti) / 1000
      let phi := unsigned 32 (s.syncPhiAt s.e)
      (((s.put pgANG ANG.SYNC_TCLOSE_MEAS us).put pgANG ANG.SYNC_PHI_CONTACT phi).raise pgANG 0x0CA 0
        [us, phi, State.milli s.sync.slip]).setSyncState 5
    else s)

/-- SYNC_PULSE_END (R232): PULSE_MS after t_i, or 20 ms after feedback. -/
def execSyncPulseEnd (s : State) : Out :=
  .next (if s.sync.pulse then
      let s1 := (s.setSync { s.sync with pulse := false }).dioAngle (s.get pgANG ANG.SYNC_CFG.CLOSE_CH) false
      if s1.syncState = 4 ∧ s1.on pgANG ANG.SYNC_CFG.FB_VALID = false then s1.setSyncState 5 else s1
    else s)

/-- CB_NO_CLOSE (R233): no feedback within 2 × TCLOSE + 100 ms of t_i. -/
def execCbNoClose (s : State) : Out :=
  .next (if s.syncState = 4 ∧ s.on pgANG ANG.SYNC_CFG.FB_VALID = true then s.syncAbort 7 else s)

/-- SYNC_TMO (R233): the time-out since the request rose has expired. -/
def execSyncTmo (s : State) : Out :=
  .next (if s.syncState = 1 ∨ s.syncState = 2 then s.syncAbort 4 else s)

end Sys2Proof.Machine
end

