-- ==== Sys2Proof/Machine/Ax.lean ====
section
/-! DEFINITION. The axes: bound entries and commands (R240 to R243), the profile generator (R245, R246), gearing (R248 to
R251), switches and homing (R252 to R256), drive faults (R259, R260, R262). -/

namespace Sys2Proof.Machine
namespace State

/-! ### Bound entries (R240, R241) -/

/-- The directory index of a binding word, if VALID. -/
def axBind (s : State) (n : Nat) (f : Fld) : Option Nat :=
  let w := s.get (pgAX n) f
  if bitOf w 31 then some (w % 32768) else none

/-- The target that a value of an entry gives: LINT microsteps, or REAL × POS_SCALE rounded (R240). -/
def axTgtEntry (s : State) (n : Nat) (o : OutVal) : Int :=
  if s.dirType o.entry = 10 then
    fmt64.nearest (fmt64.mul (f64OfWord o.word) (f64OfWord (s.reg (pgAX n) AX.POS_SCALE.off)))
  else signed 48 o.val

/-- A new ratio reaches a geared axis (R250): it replaces one that waits, and the ratio of an engagement that waits; else it waits
for its own crossing. -/
def axNewRatio (s : State) (n : Nat) (q : Int × Nat) : State :=
  let r := s.axRt n
  if s.axState n ≠ 5 then s
  else if r.gwait then s.setAxRt n { r with gnum := q.1, gden := max 1 q.2 }
  else s.setAxRt n { r with gnew := some q, gat := none }

/-- One axis takes a value of an entry where it is bound to it. -/
def axTakeOne (s : State) (o : OutVal) (n : Nat) : State :=
  let i := o.entry
  let s1 := if s.axBind n AX.BIND_CMD = some i then s.setAxRt n { s.axRt n with cmd := o.word.toNat } else s
  let s2 := if s1.axBind n AX.BIND_TGT = some i then
      let r := s1.axRt n
      s1.setAxRt n { r with tgtIn := s1.axTgtEntry n o, tgtGen := o.gen, tgtNew := r.tgtNew || r.tgtGen != o.gen }
    else s1
  if s2.axBind n AX.BIND_RATIO = some i then
    let r := s2.axRt n
    let num := signed 32 (o.val % 4294967296)
    let den := o.val / 4294967296 % 4294967296
    if den = 0 ∨ (r.num = num ∧ r.den = den) then s2 else (s2.setAxRt n { r with num := num, den := den }).axNewRatio n (num, den)
  else s2

/-- The axes take a value of an entry at an instant of R241. -/
def axApply (s : State) (o : OutVal) : State := forEach (List.range 8) (fun u n => u.axTakeOne o n) s

/-- The axes take entry `i` as it stands. -/
def axTake (s : State) (i : Nat) : State := s.axApply (s.imgOut i)

/-- The ratio of a new engagement (R248). -/
def axRatio (s : State) (n : Nat) : Int × Nat :=
  if (s.axBind n AX.BIND_RATIO).isSome then ((s.axRt n).num, (s.axRt n).den)
  else (signed 32 (s.get (pgAX n) AX.GEAR_NUM), max 1 (s.get (pgAX n) AX.GEAR_DEN))

/-- A commit has applied a new GEAR_NUM or GEAR_DEN to a geared axis (R250). -/
def axRatioApplied (s : State) (n : Nat) : State :=
  if (s.axBind n AX.BIND_RATIO).isNone then s.axNewRatio n (s.axRatio n) else s

/-- The word of BIND_STAT (R240). -/
def axStatWord (s : State) (n : Nat) : Nat :=
  let pg := pgAX n
  s.axState n + s.get pg AX.STATUS.HOMED * 16 + s.get pg AX.STATUS.LIM_NEG * 32 + s.get pg AX.STATUS.LIM_POS * 64
    + s.get pg AX.STATUS.REF * 128 + s.get pg AX.STATUS.AT_TARGET * 256 + b2n (s.reg pg 0x010 != 0) * 512
    + s.get pg AX.HOME_INFO.ACK_SEQ * 65536 + s.get pg AX.HOME_INFO.LAST_REFUSAL % 16 * 16777216

/-- STAT and POS are written at every loop base tick (R241). -/
def axWriteBack (s : State) (n : Nat) : State :=
  let s1 := match s.axBind n AX.BIND_STAT with
    | some i => s.imgWrite i (s.axStatWord n) 0
    | none => s
  match s.axBind n AX.BIND_POS with
  | some i => s1.imgWrite i (unsigned 64 (s.axPos n)) 0
  | none => s1

/-! ### Gearing (R248 to R251) -/

/-- The bellwether's coordinate. -/
def axBell (s : State) (n : Nat) : Int :=
  let k := s.get (pgAX n) AX.GEAR_CFG.SRC
  if s.get (pgAX n) AX.GEAR_CFG.SRC_KIND = 0 then s.angX k else s.axPos k

/-- The bellwether is usable (R249). -/
def axBellOk (s : State) (n : Nat) : Bool :=
  let k := s.get (pgAX n) AX.GEAR_CFG.SRC
  if s.get (pgAX n) AX.GEAR_CFG.SRC_KIND = 0 then s.srcState k == 3 || s.srcState k == 4
  else [1, 2, 3, 4, 5].contains (s.axState k)

/-- B of R248 by FOLLOW. -/
def axB (s : State) (n : Nat) : Int :=
  let r := s.axRt n
  match s.get (pgAX n) AX.GEAR_CFG.FOLLOW with
  | 1 => r.gtop
  | 2 => r.gpath
  | _ => r.glast

/-- P of R248 for coordinate `b`. -/
def axP (s : State) (n : Nat) (b : Int) : Int :=
  let r := s.axRt n
  r.pa + ((b - r.ba) * r.gnum) / (r.gden : Int)

/-- The first coordinate congruent to `m` modulo 2^32 that lies after `a` and up to `b`. -/
def axCrossed (m a b : Int) : Option Int :=
  if a < b then
    let c := a + 1 + (m - a - 1) % 4294967296
    if c ≤ b then some c else none
  else
    let c := a - 1 - (a - 1 - m) % 4294967296
    if b ≤ c ∧ b < a then some c else none

/-- The bellwether has moved: its coordinate, unwrapped where it is an axis that wraps; its highest value and the distance; and the
first crossing of GEAR_AT while a ratio or an engagement waits, as the coordinate B of FOLLOW (R248, R250). -/
def axSeeBell (s : State) (n : Nat) : State :=
  let r := s.axRt n
  let k := s.get (pgAX n) AX.GEAR_CFG.SRC
  let raw := s.axBell n
  let x := if s.get (pgAX n) AX.GEAR_CFG.SRC_KIND = 0 then raw else r.glast + s.axDiff k 0 (raw - r.glast)
  let top := max r.gtop x
  let follow := s.get (pgAX n) AX.GEAR_CFG.FOLLOW
  let m : Int := Int.ofNat (s.get (pgAX n) AX.GEAR_AT)
  let c := if follow = 1 then axCrossed m r.gtop top
    else if follow = 2 then (axCrossed m r.glast x).map (fun c => r.gpath + |c - r.glast|)
    else axCrossed m r.glast x
  s.setAxRt n { r with glast := x, gtop := top, gpath := r.gpath + |x - r.glast|
                       gat := if r.gat.isNone && (r.gwait || r.gnew.isSome) then c else r.gat }

/-- The follower's update (R248, R251). -/
def axFollow (s : State) (n : Nat) : State :=
  let s0 := s.axSeeBell n
  let r := s0.axRt n
  if r.gwait then s0
  else
    let s1 : State := match r.gnew with
      | some q => if s0.on (pgAX n) AX.GEAR_CFG.AT_EN then s0
        else
          let b := s0.axB n
          (s0.setAxRt n { r with pa := s0.axP n b, ba := b, gnum := q.1, gden := q.2, gnew := none }).raise (pgAX n) 0x0E6 n
            [unsigned 32 q.1, q.2, unsigned 32 b]
      | none => s0
    let p := s1.axP n (s1.axB n)
    let lim : Int := (s1.axVmax n 0 * 4294967296 / 100000 : Nat)
    let r1 := s1.axRt n
    let d := s1.axDiff n 32 (p * 4294967296 - r1.p)
    let m := if d < 0 then max d (-lim) else min d lim
    let s2 := s1.axPlace n (r1.p + m) (m * 100000)
    let lag := s2.axDiff n 0 (p - s2.axPos n)
    s2.put (pgAX n) AX.LAG (unsigned 32 (max (-2147483648) (min 2147483647 lag)))

/-- GEAR_IN (R248, R250). -/
def axGearIn (s : State) (n : Nat) : State :=
  let x := s.axBell n
  let q := s.axRatio n
  let wait := s.on (pgAX n) AX.GEAR_CFG.AT_EN
  let b : Int := match s.get (pgAX n) AX.GEAR_CFG.FOLLOW with
    | 2 => 0
    | _ => x
  let r := s.axRt n
  (s.setAxRt n { r with plan := 0, v := 0, glast := x, gtop := x, gpath := 0, ba := b, pa := s.axPos n, gnum := q.1
                        gden := max 1 q.2, gwait := wait, gnew := none, gat := none, openAtRest := false }).axGo n 5

/-- A geared axis whose bellwether is unusable decelerates (R249). -/
def gearLost (s : State) (n : Nat) : State :=
  if s.axState n = 5 ∧ s.axBellOk n = false then
    ((s.setFault (pgAX n) 24).raise (pgAX n) 0x0E8 n).axStop n (s.axDec n 0) false
  else s

/-! ### The profile generator (R245, R246) -/

/-- One 10 µs of deceleration or acceleration of a speed toward `goal`, by at most `rate` microsteps/s². -/
def axRamp (v goal : Int) (rate : Nat) : Int :=
  let d : Int := (rate * 4294967296 / 100000 : Nat)
  if v < goal then min (v + d) goal else max (v - d) goal

/-- The axis has come to rest after a stop. -/
def axRested (s : State) (n : Nat) : State :=
  let r := s.axRt n
  let s1 := s.axStand n
  let s2 := if r.openAtRest then s1.axRelease n else s1
  if r.home = 2 then s2
  else s2.axSetState n (if s2.on (pgAX n) HDR.CTRL.RUN then 1 else 0)

/-- The greatest speed of the next update from which the axis still stops within `q` = 100,000 × distance, when each update takes
`dv` off it: v (v + dv) ≤ 2 dv q. -/
def axAllow (dv q : Nat) : Nat := (Fmt.isqrt (dv * dv + 8 * dv * q) - dv) / 2

/-- The speed of the next update of a move whose target lies `d` ahead, from speed `v` (R245, R246): the trapezoid toward VMAX, held to
what still stops at the target; where even DEC cannot stop there, it decelerates to rest past the target. -/
def axSpeed (s : State) (n : Nat) (d v : Nat) : Nat :=
  let k := (s.axRt n).prof
  let vmax := s.axVmax n k * 4294967296
  let dv := max 1 (s.axDec n k) * 4294967296 / 100000
  let up := if v ≤ vmax then min (v + s.axAcc n k * 4294967296 / 100000) vmax else max (v - dv) vmax
  let allow := axAllow dv (100000 * d)
  if allow < v - dv then v - dv else min up (max allow (v - dv))

/-- One 10 µs of a move: the last update ends exactly on the target, at rest. -/
def axMoveUpdate (s : State) (n : Nat) : State :=
  let r := s.axRt n
  let d := s.axDiff n 32 (r.tgt * 4294967296 - r.p)
  let dir : Int := if d < 0 then -1 else 1
  if r.v * dir < 0 then
    let v1 := axRamp r.v 0 (max 1 (s.axDec n r.prof))
    s.axPlace n (r.p + v1 / 100000) v1
  else
    let u := s.axSpeed n d.natAbs r.v.natAbs
    let m := u / 100000
    let dv := max 1 (s.axDec n r.prof) * 4294967296 / 100000
    if d.natAbs ≤ m + 1 ∧ u ≤ 2 * dv then s.axPlace n (r.p + d) 0 else s.axPlace n (r.p + dir * m) (dir * u)

/-- One 10 µs update of the generator. -/
def axUpdate (s : State) (n : Nat) : State :=
  let r := s.axRt n
  if s.axState n = 5 then (if s.axBellOk n then s.axFollow n else s.gearLost n)
  else match r.plan with
  | 1 => s.axMoveUpdate n
  | 2 =>
    let vmax : Int := (s.axVmax n r.prof * 4294967296 : Nat)
    let goal := if r.vneg then -vmax else vmax
    let v1 := axRamp r.v goal (if (r.v < 0 ∧ goal < r.v) ∨ (0 ≤ r.v ∧ r.v < goal) then s.axAcc n r.prof
      else s.axDec n r.prof)
    s.axPlace n (r.p + v1 / 100000) v1
  | 3 =>
    let v1 := axRamp r.v 0 (max 1 r.dec)
    let s1 := s.axPlace n (r.p + v1 / 100000) v1
    if v1 = 0 then s1.axRested n else s1
  | _ => s

/-! ### Commands (R242, R243) -/

/-- A refused command (R243). -/
def axRefuse (s : State) (n reason code : Nat) : State :=
  ((s.setFault (pgAX n) 25).put (pgAX n) AX.HOME_INFO.LAST_REFUSAL reason).raise (pgAX n) 0x0E1 n [reason, code]

/-- A switch channel is named for homing mode `mode`. -/
def axHomeOk (s : State) (n : Nat) : Bool :=
  let pg := pgAX n
  match s.get pg AX.HOME_CFG.MODE with
  | 1 => if s.on pg AX.HOME_CFG.DIR then s.on pg AX.SW_CH.LN_VALID else s.on pg AX.SW_CH.LP_VALID
  | 2 => s.on pg AX.SW_CH.RF_VALID
  | 3 => decide (s.get pg AX.HOME_CFG.ASRC < 4)
  | _ => false

/-- The reason for which a command is refused, if any: the first of R243's table that applies. `t` is the target of a
move, `k` its profile. -/
def axReason (s : State) (n code k : Nat) (t : Int) : Option Nat :=
  let st := s.axState n
  let pos := s.axPos n
  let moves := code == 1 || code == 2
  let neg := if moves then decide (t < pos) else if code = 3 then decide (t < 0)
    else s.on (pgAX n) AX.HOME_CFG.DIR
  let still := if moves then t == pos else if code = 3 then t == 0 else false
  let prof := if code = 6 then s.get (pgAX n) AX.HOME_CFG.PROFILE else k
  let bad := s.get (pgAX n) (AX.PROF_VMAX prof) == 0 || s.axAcc n prof == 0 || s.axDec n prof == 0
  if s.on (pgAX n) HDR.CTRL.RUN = false ∨ st = 0 ∨ st = 8 then some 1
  else if moves && s.axOutside n t then some 2
  else if (code == 1 || code == 2 || code == 3 || code == 6) && !still && s.axBlocked n neg then some 3
  else if 9 ≤ code ∨ ([1, 2, 3, 6, 8].contains code && bad) = true then some 4
  else if code = 7 ∧ s.axBellOk n = false then some 5
  else if code = 6 ∧ s.axHomeOk n = false then some 6
  else if st = 6 ∧ code ≠ 4 ∧ code ≠ 5 then some 7
  else if s.st pgSEQ = 2 then some 8
  else none

/-- The effect of an accepted command (R242). -/
def axObey (s : State) (n code k : Nat) (t : Int) : State :=
  let st := s.axState n
  let r := s.axRt n
  match code with
  | 1 => s.axMove n k t 2
  | 2 => s.axMove n k t 2
  | 3 => if t = 0 then s.axStop n (s.axDec n k) false
    else (s.setAxRt n { r with plan := 2, prof := k, vneg := decide (t < 0), openAtRest := false }).axGo n 3
  | 4 => if st = 6 then s.axHomeAbort n 3 else s.axStop n (s.axDec n r.prof) false
  | 5 => if st = 6 then s.axHomeAbort n 3 else s.axStop n (s.axQdec n) false
  | 6 =>
    let s1 := s.put (pgAX n) AX.STATUS.HOMED 0
    (s1.setAxRt n { r with home := 1, homeFrom := r.p, plan := 2, prof := s.get (pgAX n) AX.HOME_CFG.PROFILE
                           vneg := s.on (pgAX n) AX.HOME_CFG.DIR, openAtRest := false }).axGo n 6
  | 7 => s.axGearIn n
  | 8 => s.axStop n (s.axDec n k) false
  | _ => s

/-- Command `code` with profile `k`, taken or refused. -/
def axDo (s : State) (n code k : Nat) : State :=
  let r := s.axRt n
  let t := if code = 2 then (if s.axState n = 2 ∨ s.axState n = 4 then r.tgt else s.axPos n) + r.tgtIn else r.tgtIn
  match s.axReason n code k t with
  | some reason => s.axRefuse n reason code
  | none => s.axObey n code k t

/-- The command that waits for the axis: its CODE and PROFILE, and the state after it is acknowledged (R242). -/
def axWaiting (s : State) (n : Nat) : Option (Nat × Nat × State) :=
  let r := s.axRt n
  if (s.axBind n AX.BIND_CMD).isSome then
    let sq := bits r.cmd 15 8
    if sq = s.get (pgAX n) AX.HOME_INFO.ACK_SEQ then none
    else some (bits r.cmd 3 0, bits r.cmd 6 4, s.put (pgAX n) AX.HOME_INFO.ACK_SEQ sq)
  else if (s.axBind n AX.BIND_TGT).isSome && r.tgtNew then some (1, 0, s.setAxRt n { r with tgtNew := false })
  else none

/-- The axis acts on the waiting command if it has CODE `code`. -/
def axCommand (s : State) (n code : Nat) : State :=
  if s.pageOn (pgAX n) then
    match s.axWaiting n with
    | some (c, k, u) => if c = code then u.axDo n c k else s
    | none => s
  else s

/-- What a loop base tick adds: a code without a command of its own is acknowledged, or refused; write-back (R241, R242,
R243). -/
def axBaseTick (s : State) (n : Nat) : State :=
  if !s.pageOn (pgAX n) then s
  else
    let s1 := match s.axWaiting n with
      | some (c, k, u) => if c = 0 then u else if 9 ≤ c then u.axDo n c k else s
      | none => s
    s1.axWriteBack n

/-! ### Switches and homing (R252 to R256) -/

def axSwF (sw : Nat) : Fld := match sw with
  | 0 => AX.STATUS.LIM_NEG
  | 1 => AX.STATUS.LIM_POS
  | _ => AX.STATUS.REF

def axSwValid (sw : Nat) : Fld := match sw with
  | 0 => AX.SW_CH.LN_VALID
  | 1 => AX.SW_CH.LP_VALID
  | _ => AX.SW_CH.RF_VALID

def axSwCh (sw : Nat) : Fld := match sw with
  | 0 => AX.SW_CH.LN_CH
  | 1 => AX.SW_CH.LP_CH
  | _ => AX.SW_CH.RF_CH

def axSwPol (sw : Nat) : Fld := match sw with
  | 0 => AX.SW_CH.LN_POL
  | 1 => AX.SW_CH.LP_POL
  | _ => AX.SW_CH.RF_POL

def axSwitch (s : State) (n sw : Nat) : AxSwitch := Store.get {} (s.axRt n).sw sw
def setAxSwitch (s : State) (n sw : Nat) (w : AxSwitch) : State :=
  s.setAxRt n { s.axRt n with sw := Store.set {} (s.axRt n).sw sw w }

/-- The qualified level of a switch: its active level, while STATUS shows it active. -/
def axSwLevel (s : State) (n sw : Nat) : Bool := s.on (pgAX n) (axSwF sw) == s.on (pgAX n) (axSwPol sw)

/-- The samples of a switch that stands away from its qualified level have reached QUAL_N. -/
def axQualifies (s : State) (n sw : Nat) : Bool :=
  let w := s.axSwitch n sw
  s.on (pgAX n) (axSwValid sw) && w.last != s.axSwLevel n sw && decide (0 < w.count)
    && decide (s.get (pgAX n) AX.SW_QUAL.QUAL_N ≤ w.count)

/-- A chatter edge of instant `t` (R253): it counts, and more than CHAT_MAX of them within 1 s are the fault. -/
def axChat (s : State) (n sw t : Nat) : State :=
  let pg := pgAX n
  let w := s.axSwitch n sw
  let es := w.edges.filter (fun u => decide (s.clk.ref < u + 100000000)) ++ [t]
  let s1 := (s.setAxSwitch n sw { w with edges := es }).incSat pg ⟨AX.CHAT_CNT.COUNT.off, 8 * sw + 7, 8 * sw⟩ 1
  if s.get pg AX.SW_QUAL.CHAT_MAX < es.length then
    (s1.setFault pg 22).raise pg 0x0E5 n [s.get pg (axSwCh sw), es.length]
  else s1

/-- One sample of a switch (R252). A candidate is discarded when the input holds the qualified level for QUAL_N samples; its edge was
chatter then. -/
def axSample (s : State) (n sw : Nat) : State :=
  let w := s.axSwitch n sw
  match w.raw with
  | none => s
  | some l =>
    let c := if w.last = l then min 15 (w.count + 1) else 1
    let w1 := { w with last := l, count := c }
    if l = s.axSwLevel n sw ∧ w.cand.isSome = true ∧ s.get (pgAX n) AX.SW_QUAL.QUAL_N ≤ c then
      (s.setAxSwitch n sw { w1 with cand := none }).axChat n sw w.candAt
    else s.setAxSwitch n sw w1

/-- The switches in use are sampled every QUAL_US µs. -/
def axSampleAll (s : State) (n : Nat) : State :=
  if s.pageOn (pgAX n) && s.clk.ref % (100 * max 1 (s.get (pgAX n) AX.SW_QUAL.QUAL_US)) == 0 then
    forEach ((List.range 3).filter (fun sw => s.on (pgAX n) (axSwValid sw))) (fun u sw => u.axSample n sw) s
  else s

/-! ### The chopper (R260, R261) -/

/-- The current target of phase `ph` in mA (R260): I_RUN or I_HOLD, times √2, by the sine or cosine of the position in 1/1024 of an
electrical turn; the rounding of the table is free (assumption 1). -/
def axCurrent (s : State) (n ph : Nat) : Int :=
  let i := if (s.axRt n).coils = 1 then s.get (pgAX n) AX.CURRENT.I_RUN else s.get (pgAX n) AX.CURRENT.I_HOLD
  (Config.phaseCurrent i ((unsigned 10 (s.axPos n) + 256 * ph) % 1024)).toInt

/-- The offset of a phase after a chopping period with peak `pk` and valley `vl` (R261). -/
def axOffset (s : State) (n ph : Nat) (ofs pk vl : Int) : Int :=
  let h : Int := Int.ofNat (2 * s.get (pgAX n) AX.CHOP.HYST)
  min (max (ofs + ((pk + vl) / 2 - s.axCurrent n ph) / 4) (-h)) h

/-- A chopping period of both phases ends. Peaks, valleys and means are measured values, which nothing here determines (assumption 1); one
period ends with each 10 µs update (DESIGN CHOICE, assumption 255). -/
def axChop (s : State) (n : Nat) : State :=
  let pg := pgAX n
  let a := (Config.freeWord s.freeUses).toNat
  let b := (Config.freeWord (s.freeUses + 1)).toNat
  let m := Config.freeWord (s.freeUses + 2)
  let oa := s.axOffset n 1 (signed 16 (s.get pg AX.CHOP_OFS.OFS_A)) (signed 16 a) (signed 16 (a / 65536))
  let ob := s.axOffset n 0 (signed 16 (s.get pg AX.CHOP_OFS.OFS_B)) (signed 16 b) (signed 16 (b / 65536))
  let s1 := (s.put pg AX.CHOP_OFS.OFS_A (unsigned 16 oa)).put pg AX.CHOP_OFS.OFS_B (unsigned 16 ob)
  { s1.setReg pg AX.I_MEAS.I_A.off m with freeUses := s.freeUses + 3 }

/-- The switch that homing searches: 0 negative, 1 positive, 2 reference, 3 none. -/
def axHomeSw (s : State) (n : Nat) : Nat :=
  match s.get (pgAX n) AX.HOME_CFG.MODE with
  | 1 => if s.on (pgAX n) AX.HOME_CFG.DIR then 0 else 1
  | 2 => 2
  | _ => 3

/-- The capture point is found at `c`: decelerate at QDEC, then move to HOME_POS + BACKOFF (R255). -/
def axCapture (s : State) (n : Nat) (c : Int) : State :=
  let r := s.axRt n
  (s.setAxRt n { r with home := 2, plan := 3, dec := s.axQdec n }).axPutPair n AX.CAPT_LO AX.CAPT_HI c

/-- After the stop that follows the capture, the position is shifted and the back-off move starts. -/
def axShift (s : State) (n : Nat) : State :=
  let r := s.axRt n
  if r.home = 2 ∧ r.plan = 0 then
    let home := s.axPair n AX.HOME_POS_LO AX.HOME_POS_HI
    let c := s.axPair n AX.CAPT_LO AX.CAPT_HI
    let p := r.p + (home - c) * 4294967296
    let s1 := (s.setAxRt n { r with home := 3, p := p }).axPutPair n AX.POS_LO AX.POS_HI (p / 4294967296)
    s1.axMove n (s.get (pgAX n) AX.HOME_CFG.PROFILE) (home + signed 32 (s.get (pgAX n) AX.HOME_BACKOFF)) 6
  else s

/-- The conditions of R256 that a running search meets by itself: distance travelled, and its source. -/
def axHomeWatch (s : State) (n : Nat) : State :=
  let r := s.axRt n
  let far := s.get (pgAX n) AX.HOME_MAX_DIST
  if s.axState n ≠ 6 then s
  else if r.home = 1 ∧ far ≠ 0 ∧ far * 4294967296 < (r.p - r.homeFrom).natAbs then s.axHomeAbort n 2
  else if r.home = 1 ∧ s.get (pgAX n) AX.HOME_CFG.MODE = 3
      ∧ s.srcState (s.get (pgAX n) AX.HOME_CFG.ASRC) ≠ 2 ∧ s.srcState (s.get (pgAX n) AX.HOME_CFG.ASRC) ≠ 3 then
    s.axHomeAbort n 7
  else s

/-- Every axis updates its position: every 10 µs of reference time. Then the switches are sampled (R252) and the choppers measure
(R261). -/
def axTick (s : State) : State :=
  let s1 := forEach ((List.range 8).filter (fun n => s.axState n == 5 || (s.axRt n).plan != 0))
    (fun u n => ((u.axUpdate n).axShift n).axHomeWatch n) s
  let s2 := forEach (List.range 8) (fun u n => u.axSampleAll n) s1
  forEach ((List.range 4).filter (fun n => (s2.axRt n).coils != 0)) (fun u n => u.axChop n) s2

/-- A reference of source `n`, whose edge came `age` × 10 ns ago, is the index for the axes that search it (R255 mode 3). -/
def axIndex (s : State) (src age : Nat) : State :=
  forEach ((List.range 8).filter (fun n => s.axState n == 6 && (s.axRt n).home == 1
      && s.get (pgAX n) AX.HOME_CFG.MODE == 3 && s.get (pgAX n) AX.HOME_CFG.ASRC == src))
    (fun u n => u.axCapture n (u.axPosAt n age)) s

/-! ### RUN and commits (R239, R266) -/

/-- The axes from `n` up its bellwethers, at most `fuel` of them. -/
def axPath (s : State) : Nat → Nat → List Nat
  | 0, _ => []
  | fuel + 1, n =>
    n :: (if s.get (pgAX n) AX.GEAR_CFG.SRC_KIND = 1 then s.axPath fuel (s.get (pgAX n) AX.GEAR_CFG.SRC) else [])

/-- RUN of axis `n` would leave a chain longer than 3 axes, or one that closes on itself: its own, or that of a running axis that
follows it (R249). -/
def axChainBad (s : State) (n : Nat) : Bool :=
  (List.range 8).any (fun m => (m == n || s.on (pgAX m) HDR.CTRL.RUN) && (s.axPath 4 m).contains n
    && decide (3 < (s.axPath 4 m).length))

/-- The first Locked field that RUN refuses (R266): its offset. -/
def axReject (s : State) (n : Nat) : Option Nat :=
  let pg := pgAX n
  let used := (List.range 3).filter (fun sw => s.on pg (axSwValid sw))
  let chans := used.map (fun sw => s.get pg (axSwCh sw))
  let kind := s.get pg AX.GEAR_CFG.SRC_KIND
  let src := s.get pg AX.GEAR_CFG.SRC
  if chans.any (fun c => !s.dioIsIn c) then some 0x044
  else if !chans.Nodup then some 0x044
  else if 2 ≤ kind ∨ (kind = 0 ∧ 6 ≤ src) ∨ (kind = 1 ∧ (8 ≤ src ∨ src = n)) then some 0x084
  else if s.axChainBad n then some 0x084
  else none

/-- The axis leaves Disabled or Faulted for Idle, its coils energised, where this module may drive it (R239, R356, R381);
elsewhere it stays or becomes Disabled. -/
def axEnable (s : State) (n : Nat) : State :=
  if s.mayDrive (pgAX n) then
    ((((s.setAxRt n { s.axRt n with coils := 1 }).put (pgAX n) AX.CHOP_OFS.OFS_A 0).put (pgAX n) AX.CHOP_OFS.OFS_B 0).axAtTarget
      n).axSetState n 1
  else s.axSetState n 0

/-- Every axis whose RUN is 1 and that is Disabled becomes Idle: this module may drive it now. -/
def axesStart (s : State) : State :=
  forEach ((List.range 8).filter (fun n => s.axState n == 0 && s.active (pgAX n) && s.on (pgAX n) HDR.CTRL.RUN
    && s.mayDrive (pgAX n))) (fun u n => u.axEnable n) s

/-- RUN = 1 of an axis: a Faulted axis restarts only when its FAULT bits are clear (R259, R262). -/
def axRun (s : State) (n : Nat) : State :=
  let pg := pgAX n
  match s.axReject n with
  | some off => (s.setFault pg 3).raise pg 0x022 0 [off]
  | none =>
    let s1 := (s.put pg HDR.CTRL.RUN 1).refreshState pg
    let clear := bits (s.reg pg 0x010).toNat 19 16 == 0
    if s1.axState n = 0 ∨ (s1.axState n = 8 ∧ clear = true) then s1.axEnable n else s1

/-- The first Staged value that R266 rejects. -/
def axStageReject (s : State) (n : Nat) : Option Nat :=
  let pg := pgAX n
  let scale := s.reg pg AX.POS_SCALE.off
  let typed (f : Fld) (ok : Nat → Bool) : Bool := match s.axBind n f with
    | some i => ok i
    | none => true
  let mine (i : Nat) : Bool := s.dirProdKind i == 1 && s.dirProdId i == 80 + n
  if s.get pg AX.CFG.STOP_BEH = 3 then some 0x040
  else if s.get pg AX.SW_QUAL.CHAT_MAX = 0 ∨ s.get pg AX.SW_QUAL.QUAL_N = 0 ∨ s.get pg AX.SW_QUAL.QUAL_US < 10
      ∨ 10000 < s.get pg AX.SW_QUAL.QUAL_US then some 0x048
  else if s.axQdec n = 0 then some 0x04C
  else if s.on pg AX.CFG.SOFT_EN && decide (s.axPair n AX.SOFT_MAX_LO AX.SOFT_MAX_HI < s.axPair n AX.SOFT_MIN_LO AX.SOFT_MIN_HI)
    then some 0x050
  else if n < 4 ∧ (2500 < s.get pg AX.CURRENT.I_RUN ∨ s.get pg AX.CURRENT.I_RUN < s.get pg AX.CURRENT.I_HOLD) then some 0x060
  else if n < 4 ∧ (s.get pg AX.CHOP.HYST < 25 ∨ 250 < s.get pg AX.CHOP.HYST ∨ s.get pg AX.CHOP.TOFF_MIN < 20
      ∨ 200 < s.get pg AX.CHOP.TOFF_MIN) then some 0x064
  else if 4 ≤ n ∧ (s.get pg AX.STEPDIR.DIR_SETUP = 0 ∨ 100 < s.get pg AX.STEPDIR.DIR_SETUP ∨ s.get pg AX.STEPDIR.PW < 25
      ∨ 1000 < s.get pg AX.STEPDIR.PW) then some 0x068
  else if !F32.finite scale || F32.eq scale F32.zero then some 0x06C
  else if !typed AX.BIND_CMD (fun i => s.dirType i == 8) then some 0x070
  else if !typed AX.BIND_TGT (fun i => s.dirType i == 5 || s.dirType i == 10) then some 0x074
  else if !typed AX.BIND_RATIO (fun i => s.dirType i == 17 && s.dirCount i == 2) then some 0x078
  else if !typed AX.BIND_STAT (fun i => s.dirType i == 8 && mine i) then some 0x07C
  else if !typed AX.BIND_POS (fun i => s.dirType i == 5 && mine i) then some 0x080
  else if s.get pg AX.GEAR_CFG.FOLLOW = 3 then some 0x084
  else if s.get pg AX.GEAR_DEN = 0 then some 0x08C
  else if s.get pg AX.HOME_CFG.MODE = 3 ∧ 4 ≤ s.get pg AX.HOME_CFG.ASRC then some 0x094
  else if s.get pg AX.STROKE.LEN = 0 then some 0x0A8
  else (List.range 8).findSome? (fun k =>
    if 2000000 < s.get pg (AX.PROF_VMAX k) then some (AX.PROF_VMAX k).off else none)

/-! ### Drives (R259, R260, R262) -/

/-- The zone in which VMOT was last seen (R259): 0 missing, 1 low, 2 over, 3 in range. A missing supply stays missing up to 18.5 V. -/
def vmotZone (s : State) : Nat :=
  let mv := s.get (pgAX 0) AX.BRIDGE.VMOT_MV
  if s.flt.conds.contains (faultKey (pgAX 0) 16) then (if mv < 18500 then 0 else 2)
  else if s.on (pgAX 0) AX.STATUS.VMOT_OK then 3 else if mv < 18000 then 0 else 1

/-- VMOT of `mv` mV is shown on AX0 to AX3. -/
def vmotShow (s : State) (mv : Nat) : State := forEach [0, 1, 2, 3] (fun u n => u.put (pgAX n) AX.BRIDGE.VMOT_MV mv) s

/-- VMOT leaves its range: AX0 to AX3 are Faulted (R259). -/
def axVmotFault (s : State) (sub mv : Nat) : State :=
  let s1 := forEach [0, 1, 2, 3] (fun u n =>
    ((((u.put (pgAX n) AX.BRIDGE.VMOT_MV mv).put (pgAX n) AX.STATUS.VMOT_OK 0).cond (pgAX n) 16 true).setFault (pgAX n) 16).axFaulted n) s
  s1.raise (pgAX 0) 0x0E9 sub [mv]

end State

/-! ### The commands of the rows -/

/-- ENCODER_COUNT (R208, R210 to R216): an accepted edge of ASRC0 to ASRC3; its raw edge came `age` × 10 ns before. -/
def execEncoderCount (n : Fin 4) (ev : EncEvent) (age : Fin 21) (s : State) : Out :=
  .next (if s.srcRuns n.val then
      (match ev with
      | .count fwd => s.srcCount n.val fwd (s.e - 10 * age.val)
      | .zref =>
        if s.srcMode n.val = 1 ∧ s.on (pgASRC n.val) ASRC.CFG.Z_EN = true then
          ((s.srcReference n.val (State.srcResidue (s.srcCpr n.val) (s.asrcRt n.val).c) 0).slotsRefine n.val).axIndex n.val age.val
        else s
      | .quad =>
        if s.srcMode n.val = 1 then
          ((s.incMod (pgASRC n.val) ASRC.QUAD_CNT).setFault (pgASRC n.val) 19).raise (pgASRC n.val) 0x0C5 1 [n.val]
        else s
      | .rate => ((s.setFault (pgASRC n.val) 20).raise (pgASRC n.val) 0x0C5 2 [n.val]).srcLost n.val)
    else s)

/-- MOVE_ABS (R242): the command in BIND_CMD, or a change of TGT where BIND_CMD is unbound. -/
def execMoveAbs (n : Fin 8) (s : State) : Out := .next (s.axCommand n.val 1)
/-- MOVE_REL (R242). -/
def execMoveRel (n : Fin 8) (s : State) : Out := .next (s.axCommand n.val 2)
/-- VELOCITY (R242). -/
def execVelocity (n : Fin 8) (s : State) : Out := .next (s.axCommand n.val 3)
/-- AXIS_STOP (R242). -/
def execAxisStop (n : Fin 8) (s : State) : Out := .next (s.axCommand n.val 4)
/-- QUICK_STOP (R242). -/
def execQuickStop (n : Fin 8) (s : State) : Out := .next (s.axCommand n.val 5)
/-- HOME (R255). -/
def execHome (n : Fin 8) (s : State) : Out := .next (s.axCommand n.val 6)
/-- GEAR_IN (R248). -/
def execGearIn (n : Fin 8) (s : State) : Out := .next (s.axCommand n.val 7)
/-- GEAR_OUT (R242). -/
def execGearOut (n : Fin 8) (s : State) : Out := .next (s.axCommand n.val 8)

/-- MOVE_DONE (R245): the move of axis `n` has ended, at rest exactly on its target. A homing axis whose back-off move ends with its
limit still active aborts (R256 reason 6). -/
def execMoveDone (n : Fin 8) (s : State) : Out :=
  .next (
    let k := n.val
    let r := s.axRt k
    if r.plan ≠ 1 ∨ s.axOnTarget k = false then s
    else if s.axState k = 2 ∨ s.axState k = 4 then
      ((s.setAxRt k { r with plan := 0 }).put (pgAX k) AX.STATUS.AT_TARGET 1).axSetState k 1
    else if s.axState k = 6 ∧ r.home = 3 ∧ s.axHomeSw k < 2 ∧ s.on (pgAX k) (State.axSwF (s.axHomeSw k)) = true then
      (s.setAxRt k { r with plan := 0 }).axHomeAbort k 6
    else s)

/-- The crossing at coordinate `b` takes effect (R250): the axis engages, or its new ratio applies, with the anchor there. The path of
FOLLOW 2 counts from the engagement (DEDUCED, assumption 254). -/
def State.gearCross (s : State) (k : Nat) (b : Int) : State :=
  let r := s.axRt k
  let path := r.gwait && s.get (pgAX k) AX.GEAR_CFG.FOLLOW == 2
  let q : Int × Nat := if r.gwait then (r.gnum, r.gden) else r.gnew.getD (r.gnum, r.gden)
  let c := if path then 0 else b
  let pa := if r.gwait then s.axPos k else s.axP k b
  (s.setAxRt k { r with gwait := false, gnew := none, gat := none, ba := c, pa := pa, gnum := q.1, gden := max 1 q.2
                        gpath := if path then r.gpath - b else r.gpath }).raise (pgAX k) 0x0E6 k
    [unsigned 32 q.1, max 1 q.2, unsigned 32 c]

/-- GEAR_RATIO_APPLIED (R250): the bellwether has reached or passed GEAR_AT since the new ratio was taken, or since GEAR_IN; the
ratio applies, or the axis engages. -/
def execGearRatioApplied (n : Fin 8) (s : State) : Out :=
  .next (
    if s.axState n.val = 5 then
      let s1 := s.axSeeBell n.val
      match (s1.axRt n.val).gat with
      | some b => s1.gearCross n.val b
      | none => s1
    else s)

/-- GEAR_LAG (R251): abs(LAG) exceeds LAG_MAX. -/
def execGearLag (n : Fin 8) (s : State) : Out :=
  .next (
    let pg := pgAX n.val
    let lag := signed 32 (s.get pg AX.LAG)
    let key := 0x0E700 + n.val
    if s.axState n.val = 5 ∧ s.get pg AX.GEAR_CFG.LAG_MAX < lag.natAbs then
      let s1 := s.setFault pg 23
      if s.mayRecord key then (s1.markRecord key).raise pg 0x0E7 n.val [unsigned 32 lag] else s1
    else s)

/-- GEAR_SRC (R249): the bellwether becomes unusable. -/
def execGearSrc (n : Fin 8) (s : State) : Out := .next (s.gearLost n.val)

/-- SWITCH_QUALIFIED (R252, R254 to R256): switch `sw` of axis `n` (0 negative limit, 1 positive limit, 2 reference) has stood at a
new level for QUAL_N samples, and that level qualifies: it is active or not, and its capture point is its
candidate, as the command says (assumption 274). -/
def execSwitchQualified (n : Fin 8) (sw : Fin 3) (active : Bool) (capt : Int) (s : State) : Out :=
  .next (
    let k := n.val
    let pg := pgAX k
    let w := s.axSwitch k sw.val
    if s.pageOn pg && s.axQualifies k sw.val && active == (w.last == s.on pg (State.axSwPol sw.val))
        && decide (capt = w.cand.getD (s.axPos k)) then
      let s1 := (s.putB pg (State.axSwF sw.val) active).setAxSwitch k sw.val { w with cand := none }
      let r := s.axRt k
      if !active then s1
      else if s.axState k = 6 then
        (if r.home = 1 ∧ s.axHomeSw k = sw.val then s1.axCapture k capt
        else if sw.val < 2 ∧ s.axHomeSw k ≠ sw.val then s1.axHomeAbort k 1 else s1)
      else if sw.val = 0 ∧ r.v < 0 ∨ sw.val = 1 ∧ 0 < r.v then
        ((s1.setFault pg 20).raise pg 0x0E4 k [sw.val]).axStop k (s1.axQdec k) false
      else s1
    else s)

/-- HOMING_COMPLETE (R255): the back-off move ends. -/
def execHomingComplete (n : Fin 8) (s : State) : Out :=
  .next (
    let k := n.val
    let pg := pgAX k
    let s0 := s.axShift k
    let r := s0.axRt k
    if s0.axState k = 6 ∧ r.home = 3 ∧ r.plan = 1 ∧ s0.axOnTarget k = true ∧ (s0.axHomeSw k = 0 ∨ s0.axHomeSw k = 1 → s0.on pg (State.axSwF (s0.axHomeSw k)) = false)
      then
      let s2 := ((s0.setAxRt k { r with plan := 0, home := 0 }).put pg AX.STATUS.HOMED 1).put pg
        AX.STATUS.AT_TARGET 1
      (s2.raise pg 0x0E2 k [s2.get pg AX.CAPT_LO, s2.get pg AX.HOME_CFG.MODE]).axSetState k 1
    else s0)

/-- CHATTER (R252, R253): a raw edge of switch `sw` of axis `n` to `level`. The first edge away from the qualified level is the
candidate of the capture point; each further one, while the candidate stands, is chatter. -/
def execChatter (n : Fin 8) (sw : Fin 3) (level : Bool) (s : State) : Out :=
  .next (
    let k := n.val
    let w := s.axSwitch k sw.val
    if !s.pageOn (pgAX k) || !s.on (pgAX k) (State.axSwValid sw.val) || w.raw == some level then s
    else
      let s1 := s.setAxSwitch k sw.val { w with raw := some level }
      if level == s.axSwLevel k sw.val then s1
      else if w.cand.isSome then s1.axChat k sw.val s.clk.ref
      else s1.setAxSwitch k sw.val { w with raw := some level, cand := some (s.axPosAt k 0), candAt := s.clk.ref })

/-- VMOT_MISSING (R259): VMOT falls below 18.0 V. One record for each time it does. -/
def execVmotMissing (mv : BitVec 16) (s : State) : Out :=
  .next (if !s.pageOn (pgAX 0) || decide (18000 ≤ mv.toNat) then s
    else if s.flt.conds.contains (faultKey (pgAX 0) 16) && s.vmotZone == 0 then s.vmotShow mv.toNat
    else s.axVmotFault 0 mv.toNat)

/-- VMOT_LOW (R259): VMOT lies between 18.0 V and 21.6 V; a supply that was missing, from 18.5 V on. -/
def execVmotLow (mv : BitVec 16) (s : State) : Out :=
  .next (if !s.pageOn (pgAX 0) || decide (mv.toNat < 18000) || decide (21600 ≤ mv.toNat) then s
    else if s.vmotZone == 1 || (s.vmotZone == 0 && decide (mv.toNat < 18500)) then s.vmotShow mv.toNat
    else
      (forEach [0, 1, 2, 3] (fun u n =>
        ((u.put (pgAX n) AX.BRIDGE.VMOT_MV mv.toNat).put (pgAX n) AX.STATUS.VMOT_OK 0).cond (pgAX n) 16 false) s).raise
        (pgAX 0) 0x0E9 1 [mv.toNat])

/-- VMOT_OVER (R259): VMOT rises above 52.8 V. -/
def execVmotOver (mv : BitVec 16) (s : State) : Out :=
  .next (if !s.pageOn (pgAX 0) || decide (mv.toNat ≤ 52800) then s
    else if s.vmotZone == 2 then s.vmotShow mv.toNat
    else s.axVmotFault 2 mv.toNat)

/-- VMOT_RESTORED (R259): VMOT is back within its range. -/
def execVmotRestored (mv : BitVec 16) (s : State) : Out :=
  .next (if !s.pageOn (pgAX 0) || decide (mv.toNat < 21600) || decide (52800 < mv.toNat) then s
    else if s.vmotZone == 3 then s.vmotShow mv.toNat
    else
      (forEach [0, 1, 2, 3] (fun u n =>
        ((u.put (pgAX n) AX.BRIDGE.VMOT_MV mv.toNat).put (pgAX n) AX.STATUS.VMOT_OK 1).cond (pgAX n) 16 false) s).raise
        (pgAX 0) 0x0E9 3 [mv.toNat])

/-- OVERCURRENT (R262): a bridge leg above 4.5 A, which only driven coils can cause. -/
def execOvercurrent (n : Fin 4) (phase : Fin 2) (s : State) : Out :=
  .next (if s.pageOn (pgAX n.val) && (s.axRt n.val).coils != 0 then
      ((s.setFault (pgAX n.val) 17).raise (pgAX n.val) 0x0EA n.val [1, phase.val]).axFaulted n.val else s)

/-- OPEN_COIL (R262): at rest with I_HOLD at 100 mA or more, the peak stays low. -/
def execOpenCoil (n : Fin 4) (phase : Fin 2) (s : State) : Out :=
  .next (if s.pageOn (pgAX n.val) && decide (100 ≤ s.get (pgAX n.val) AX.CURRENT.I_HOLD)
        && (s.axRt n.val).coils != 0 && (s.axRt n.val).v == 0 then
      ((s.setFault (pgAX n.val) 18).raise (pgAX n.val) 0x0EA n.val [2, phase.val]).axFaulted n.val else s)

/-- THERMAL_WARNING (R262): a bridge above +135 °C is recorded; `temp` in 0.125 °C. -/
def execThermalWarning (n : Fin 4) (phase : Fin 2) (temp : BitVec 16) (s : State) : Out :=
  .next (if s.pageOn (pgAX n.val) && decide (1080 < signed 16 temp.toNat) then
      (s.put (pgAX n.val) AX.BRIDGE.TEMP temp.toNat).raise (pgAX n.val) 0x0EA n.val [3, phase.val] else s)

/-- THERMAL_SHUTDOWN (R262): a bridge above +150 °C. -/
def execThermalShutdown (n : Fin 4) (phase : Fin 2) (temp : BitVec 16) (s : State) : Out :=
  .next (if s.pageOn (pgAX n.val) && decide (1200 < signed 16 temp.toNat) then
      ((((s.put (pgAX n.val) AX.BRIDGE.TEMP temp.toNat).cond (pgAX n.val) 19 true).setFault (pgAX n.val) 19).raise
        (pgAX n.val) 0x0EA n.val [4, phase.val]).axFaulted n.val
    else s)

/-- The bridge of axis `n` has cooled below +125 °C (R262). -/
def State.axCooled (s : State) (n : Nat) : State := s.cond (pgAX n) 19 false

/-- HOLD_DELAY (R260): HOLD_DELAY ms after rest, the coil current changes to I_HOLD. -/
def execHoldDelay (n : Fin 4) (s : State) : Out :=
  .next (
    let r := s.axRt n.val
    if r.coils = 1 ∧ r.v = 0 ∧ r.plan = 0 ∧ s.axState n.val = 1 then s.setAxRt n.val { r with coils := 2 } else s)

end Sys2Proof.Machine
end

