-- ==== Sys2Proof/Machine/Eth.lean ====
section
/-! DEFINITION. The Ethernet ports: descriptor rings, transmit and receive, PRP, filter rules, storm limits (R326 to R336),
and launch-time queues (R284 to R286). -/

namespace Sys2Proof.Machine
namespace State

def ethRt (s : State) (p : Nat) : EthRt := Store.get {} s.eth p
def setEthRt (s : State) (p : Nat) (r : EthRt) : State := { s with eth := Store.set {} s.eth p r }

/-- The port is running: RUN = 1 and not fenced, its domain on (R336). -/
def ethRuns (s : State) (p : Nat) : Bool := s.st (pgETH p) == 3 || s.st (pgETH p) == 6

/-- ETH0 and ETH1 are one doubly attached node (R331). -/
def prp (s : State) : Bool := s.on (pgETH 0) ETH.CFG.PRP

def txqBase (s : State) (p q : Nat) : Nat :=
  s.get (pgETH p) ETH.TXQ_BASE_LO q + s.get (pgETH p) ETH.TXQ_BASE_HI.ADDR_HI q * 2 ^ 32
def rxqBase (s : State) (p q : Nat) : Nat :=
  s.get (pgETH p) ETH.RXQ_BASE_LO q + s.get (pgETH p) ETH.RXQ_BASE_HI.ADDR_HI q * 2 ^ 32

/-- The address of the transmit descriptor at HEAD of queue `q`. -/
def txDesc (s : State) (p q : Nat) : Nat := s.txqBase p q + s.get (pgETH p) ETH.TXQ_HEAD.HEAD q * 16

/-- A launch-time queue (R284). -/
def ltEn (s : State) (p q : Nat) : Bool := s.get pgTIME (TIME.LT_CFG.LT_EN (p * 8 + q)) == 1

/-- HEAD differs from TAIL, the queue is in use and not stopped (R328). -/
def txReady (s : State) (p q : Nat) : Bool :=
  decide (s.get (pgETH p) ETH.TXQ_SIZE.SIZE q ≠ 0)
    && decide (s.get (pgETH p) ETH.TXQ_HEAD.HEAD q ≠ s.get (pgETH p) ETH.TXQ_TAIL.TAIL q)
    && !(s.ethRt p).stopped.contains q

/-- Write the descriptor at HEAD back with `status` and transmit instant `t`, clear OWN and advance HEAD (R328, R329). -/
def txReturn (s : State) (p q status t : Nat) : State :=
  let d := s.txDesc p q
  let w1 := s.memRd (d + 4) 4
  let s1 := (s.memWr (d + 4) 4 (putBits (putBits w1 31 31 0) 15 12 status)).memWr (d + 12) 4 t
  let size := s.get (pgETH p) ETH.TXQ_SIZE.SIZE q
  let s2 := (s1.put (pgETH p) ETH.TXQ_HEAD.HEAD ((s.get (pgETH p) ETH.TXQ_HEAD.HEAD q + 1) % size) q).setEthRt p
    { s1.ethRt p with held := delNum q (s1.ethRt p).held }
  if bitOf w1 29 then s2.event (0x33C + p) else s2

/-- Return up to `n` queued descriptors of a queue with one status: flushing (R278, R286, R336). -/
def txFlush (s : State) (p q status : Nat) : Nat → State
  | 0 => s
  | n + 1 =>
    if s.txReady p q && bitOf (s.memRd (s.txDesc p q + 4) 4) 31 then (s.txReturn p q status 0).txFlush p q status n
    else s

/-- A station-time step returns every frame of every launch-time queue unsent with STEP_FLUSH (R278). -/
def stepFlush (s : State) : State :=
  forEach (List.range 32) (fun s k => if s.ltEn (k / 8) (k % 8) then s.txFlush (k / 8) (k % 8) 6 1024 else s) s

/-- Bytes that start with a frame carrying an IEEE 802.1Q tag. -/
def tagged (b : List Byte) : Bool := b.getD 12 0 == 0x81 && b.getD 13 0 == 0x00

/-- The frame bytes of a descriptor. -/
def txBytes (s : State) (p q : Nat) : List Byte :=
  let d := s.txDesc p q
  let w1 := s.memRd (d + 4) 4
  Memory.bytes s.mem (s.memRd d 4 + bits w1 7 0 * 2 ^ 32) (bits w1 27 16)

/-- The descriptor at HEAD breaks R329: LEN out of range, buffer outside tiers 1 and 2, or DUP where R330 forbids it. -/
def badDesc (s : State) (p q : Nat) : Bool :=
  let d := s.txDesc p q
  let w1 := s.memRd (d + 4) 4
  let len := bits w1 27 16
  let a := s.memRd d 4 + bits w1 7 0 * 2 ^ 32
  let top := if tagged (Memory.bytes s.mem a 14) then 1518 else 1514
  decide (len < 14) || decide (top < len) || !inTier12 a len
    || (bitOf w1 30 && !((decide (p = 0) && s.prp) || decide (p = 2)))

/-- The redundancy control trailer of R330: sequence number, LanId with the LSDU size, suffix 0x88FB. -/
def rct (seq lan lsdu : Nat) : List Nat :=
  [seq / 256 % 256, seq % 256, lan * 16 + lsdu / 256 % 16, lsdu % 256, 0x88, 0xFB]

/-- A frame with the HSR tag behind its addresses or its IEEE 802.1Q tag: path, size and sequence number (R330; PRESUMED, assumption
259). -/
def hsrTag (path seq : Nat) (b : List Nat) : List Nat :=
  let n := if b.getD 12 0 = 0x81 ∧ b.getD 13 0 = 0x00 then 16 else 12
  let size := (b.length - n + 4) % 4096
  b.take n ++ [0x89, 0x2F, path * 16 + size / 256, size % 256, seq / 256 % 256, seq % 256] ++ b.drop n

/-- One copy of a frame leaves on port `p`, where its link is up. -/
def txCopy (s : State) (p : Nat) (b : List Nat) : State :=
  if s.on (pgETH p) ETH.STATUS.LINK then (s.send p 1 b).incMod (pgETH p) ETH.TX_CNT else s

/-- The frame at HEAD leaves, with its copy on the other port where DUP is set (R330). -/
def txWire (s : State) (p q : Nat) : State :=
  let w1 := s.memRd (s.txDesc p q + 4) 4
  let b0 := (s.txBytes p q).map (fun b => b.toNat)
  let b := b0 ++ List.replicate (60 - b0.length) 0
  let r := s.ethRt p
  let size := b.length - (if b.getD 12 0 = 0x81 ∧ b.getD 13 0 = 0x00 then 18 else 14) + 6
  if bitOf w1 30 then
    let one (path : Nat) : List Nat := if p = 0 then b ++ rct r.rctSeq (0xA + path) size else hsrTag path r.rctSeq b
    ((s.txCopy p (one 0)).txCopy (p + 1) (one 1)).setEthRt p { r with rctSeq := (r.rctSeq + 1) % 65536 }
  else s.txCopy p b

/-- BAD_DESC (R329): the descriptor at HEAD is returned unsent. -/
def txBad (s : State) (p q : Nat) : State :=
  let h := s.get (pgETH p) ETH.TXQ_HEAD.HEAD q
  ((s.txReturn p q 7 0).setFault (pgETH p) 20).raise (pgETH p) 0x184 0 [q, h]

/-- A late launch (R286): counted, FAULT.LT_LATE, source 0x324, and 0x10A at most once per port and second. -/
def ltLate (s : State) (p q lateness sent : Nat) : State :=
  let f := if sent = 1 then TIME.LT_LATE_CNT.SENT p else TIME.LT_LATE_CNT.DROPPED p
  let s1 := ((s.incSat pgTIME f).setFault pgTIME 24).event 0x324
  if s1.mayRecord (0x1000 + p) then (s1.markRecord (0x1000 + p)).raise pgTIME 0x10A p [q, lateness, sent] else s1

/-! ### Guard times (R285) -/

/-- Nanoseconds of one byte at the link speed of port `p`. -/
def byteNs (s : State) (p : Nat) : Nat :=
  match s.get (pgETH p) ETH.STATUS.SPEED with
  | 1 => 800
  | 2 => 80
  | _ => 8

/-- The time of a frame of `n` bytes with its FCS. DESIGN CHOICE (assumption 256): preamble and interframe gap, 20 bytes, count with it. -/
def frameNs (s : State) (p n : Nat) : Nat := (max 64 n + 20) * s.byteNs p

/-- The guard time: one frame of the port's maximum size (R326). -/
def guardNs (s : State) (p : Nat) : Nat := s.frameNs p (if decide (2 ≤ p) || s.prp then 1528 else 1522)

/-- The launch instant of the head frame of launch-time queue `q`. -/
def headLaunch (s : State) (p q : Nat) : Option Nat :=
  let d := s.txDesc p q
  if s.ltEn p q && s.txReady p q && bitOf (s.memRd (d + 4) 4) 31 then some (s.memRd (d + 8) 4) else none

/-- The time of the head frame of queue `q`. -/
def headNs (s : State) (p q : Nat) : Nat :=
  let w1 := s.memRd (s.txDesc p q + 4) 4
  s.frameNs p (bits w1 27 16 + (if bitOf w1 30 then 10 else 4))

/-- Some head launch instant lies within the guard time, or has come: no frame without a launch time starts. -/
def inGuard (s : State) (p : Nat) : Bool :=
  (List.range 8).any (fun q => match s.headLaunch p q with
    | some l => let t := (l + 2 ^ 32 - s.stnNs) % 2 ^ 32; decide (t ≤ s.guardNs p) || decide (2 ^ 31 ≤ t)
    | none => false)

/-- The wire of port `p` carries a launched frame. -/
def wireBusy (s : State) (p : Nat) : Bool := decide (s.clk.ref < (s.ethRt p).busy)

/-- A head of a higher-numbered queue goes before that of `q`, which is to leave at `l`: their instants lie closer together than the
frame of the earlier one. -/
def ltWaits (s : State) (p q l : Nat) : Bool :=
  (List.range 8).any (fun q' => decide (q < q') && match s.headLaunch p q' with
    | some l' =>
      let d := (l' + 2 ^ 32 - l) % 2 ^ 32
      if d < 2 ^ 31 then decide (d < s.headNs p q) else decide (2 ^ 32 - d < s.headNs p q')
    | none => false)

/-- The head frame of launch-time queue `q` leaves now; the wire is free at its end. -/
def ltSend (s : State) (p q status : Nat) : State :=
  let s1 := (s.txWire p q).txReturn p q status s.stnNs
  s1.setEthRt p { s1.ethRt p with busy := s.clk.ref + s.headNs p q / 10 }

end State

/-- The highest-numbered ready queue of a port that is not a launch-time queue (R330), none in a guard time (R285); queue 7 of ETH2
and ETH3 is DWY's own. -/
def txNext (s : State) (p : Nat) : Option Nat :=
  if s.inGuard p || s.wireBusy p then none else
  [7, 6, 5, 4, 3, 2, 1, 0].find? (fun q =>
    !s.ltEn p q && s.txReady p q && !(decide (2 ≤ p) && decide (q = 7)))

/-- TX_WRITE_BACK (R328 to R330): the port takes the descriptor of its first ready queue, sends the frame and writes the
descriptor back; OWN = 0 at HEAD stops that queue until its TAIL is written. -/
def execTxWriteBack (port : Fin 4) (s : State) : Out :=
  let p := port.val
  if !s.ethRuns p || s.inSequence then .next s
  else match txNext s p with
    | none => .next s
    | some q =>
      let w1 := s.memRd (s.txDesc p q + 4) 4
      if !bitOf w1 31 then
        .next (s.setEthRt p { s.ethRt p with stopped := insNum q (s.ethRt p).stopped })
      else if s.badDesc p q then .next (s.txBad p q)
      else if !s.on (pgETH p) ETH.STATUS.LINK then .next s
      else .next ((s.txWire p q).txReturn p q 1 s.stnNs)

/-- FRAME_LAUNCH (R284 to R286): the head frame of launch-time queue `q` of a port. Before its launch instant it waits; more
than 1 s ahead it is dropped; at the instant, or up to 1 µs after it, it is sent, or waits for a head that goes first and for the
end of that frame; later it is dropped or sent late. -/
def execFrameLaunch (port : Fin 4) (queue : Fin 8) (s : State) : Out :=
  let p := port.val
  let q := queue.val
  if !s.ethRuns p || s.inSequence || !s.ltEn p q || !s.txReady p q then .next s
  else
    let d := s.txDesc p q
    let w1 := s.memRd (d + 4) 4
    if !bitOf w1 31 then
      .next (s.setEthRt p { s.ethRt p with stopped := insNum q (s.ethRt p).stopped })
    else if s.badDesc p q then .next (s.txBad p q)
    else if !s.on (pgETH p) ETH.STATUS.LINK then .next (s.txReturn p q 8 0)
    else
      let launch := s.memRd (d + 8) 4
      let late := (s.stnNs + 2 ^ 32 - launch) % 2 ^ 32
      let held := (s.ethRt p).held.contains q
      if late ≤ 2 ^ 31 then
        (if held || decide (late ≤ 1000) then
          .next (if s.wireBusy p || s.ltWaits p q launch then
            s.setEthRt p { s.ethRt p with held := insNum q (s.ethRt p).held }
          else s.ltSend p q 1)
        else if s.get pgTIME (TIME.LT_CFG.LATE_SEND (p * 8 + q)) = 1 then
          .next (if s.wireBusy p then s else (s.ltSend p q 2).ltLate p q late 1)
        else .next ((s.txReturn p q 3 0).ltLate p q late 0))
      else if 1000000000 < 2 ^ 32 - late then .next ((s.txReturn p q 4 0).ltLate p q 0 0)
      else .next s

/-- TXQ_TAIL (R328, R330): master `m` writes TAIL of the queue shown. Queue 7 of ETH2 and ETH3 is DWY's: the write is
ignored and records 0x184. -/
def execTxqTail (port : Fin 4) (m : Fin 4) (tail : BitVec 10) (s : State) : Out :=
  let p := port.val
  .next (s.action (pgETH p) 0x05C m.val (fun s =>
    let q := s.get (pgETH p) ETH.TXQ_INDEX.QUEUE
    if 2 ≤ p ∧ q = 7 then s.raise (pgETH p) 0x184 0 [q, 0xFFFF]
    else (s.put (pgETH p) ETH.TXQ_TAIL.TAIL tail.toNat q).setEthRt p
      { s.ethRt p with stopped := delNum q (s.ethRt p).stopped }))

/-- RXQ_TAIL (R328): master `m` supplies receive descriptors. -/
def execRxqTail (port : Fin 4) (m : Fin 4) (tail : BitVec 10) (s : State) : Out :=
  let p := port.val
  .next (s.action (pgETH p) 0x074 m.val (fun s =>
    s.put (pgETH p) ETH.RXQ_TAIL.TAIL tail.toNat (s.get (pgETH p) ETH.RXQ_INDEX.QUEUE)))

/-! ### Reception (R331 to R335) -/

/-- A received frame, taken apart (R333): addresses, tag and Ethertype. -/
structure RxFrame where
  da : Nat
  sa : Nat
  tagged : Bool
  pcp : Nat
  vid : Nat
  etype : Nat
deriving DecidableEq, Repr

/-- Big-endian number of bytes. -/
def beNat (l : List Byte) : Nat := l.foldl (fun a b => a * 256 + b.toNat) 0

def parseFrame (b : List Byte) : RxFrame :=
  let t := State.tagged b
  { da := beNat (b.take 6), sa := beNat ((b.drop 6).take 6), tagged := t
    pcp := if t then (b.getD 14 0).toNat / 32 else 0
    vid := if t then (b.getD 14 0).toNat % 16 * 256 + (b.getD 15 0).toNat else 0
    etype := if t then beNat ((b.drop 16).take 2) else beNat ((b.drop 12).take 2) }

/-- The redundancy control trailer at the end of a frame, without FCS: sequence and LanId (R330, R331). The suffix is
0x88FB and the LSDU size matches. -/
def rxTrailer (b : List Byte) : Option (Nat × Nat) :=
  let n := b.length
  let t := b.drop (n - 6)
  let lsdu := (t.getD 2 0).toNat % 16 * 256 + (t.getD 3 0).toNat
  let hdr := if State.tagged b then 18 else 14
  if 20 ≤ n ∧ t.getD 4 0 = 0x88 ∧ t.getD 5 0 = 0xFB ∧ lsdu = n - hdr then
    some (beNat (t.take 2), (t.getD 2 0).toNat / 16)
  else none

/-- A rule matches a frame (R333): every criterion it enables matches. -/
def ruleMatches (w0 w1 w2 w3 : Nat) (f : RxFrame) : Bool :=
  bitOf w0 31
    && (!bitOf w1 31 || decide (f.etype = bits w0 15 0))
    && (!bitOf w1 30 || (f.tagged && decide (f.vid = bits w1 11 0)))
    && (!bitOf w1 29 || decide (f.da = w2 * 65536 + bits w3 31 16))
    && (!bitOf w1 28 || (f.tagged && decide (f.pcp = bits w1 27 25)))

namespace State

/-- The lowest-numbered matching rule of the port's table (R333). -/
def ruleOf (s : State) (p : Nat) (f : RxFrame) : Option Nat :=
  if 2 ≤ p then none
  else
    let pg := if s.prp then pgETH 0 else pgETH p
    (List.range 1024).find? (fun i => ruleMatches (s.get pg (ETH.RULE_W 0) i) (s.get pg (ETH.RULE_W 1) i)
      (s.get pg (ETH.RULE_W 2) i) (s.get pg (ETH.RULE_W 3) i) f)

/-- One byte of DROP_CNT rises, saturating (R338). -/
def dropCount (s : State) (p lo : Nat) : State :=
  s.incSat (pgETH p) ⟨0x0AC, lo + 7, lo⟩

/-- The storm buckets refill at each 1 ms boundary of station time (R334). -/
def stormRefill (s : State) (p : Nat) : State :=
  let r := s.ethRt p
  let now := s.e / 1000000
  let n := now - r.stormAt
  s.setEthRt p { r with
    stormAt := now
    storm := (List.range 4).foldl (fun t c =>
      Store.set 0 t c (Nat.min (s.get (pgETH p) (ETH.STORM.BURST c))
        (Store.get 0 r.storm c + n * s.get (pgETH p) (ETH.STORM.RATE c)))) r.storm }

/-- A storm drop (R334). -/
def stormDrop (s : State) (p c : Nat) : State :=
  let r := s.ethRt p
  let n := Store.get 0 r.stormDrops c + 1
  let s1 := ((s.dropCount p 16).setFault (pgETH p) 18).setEthRt p { r with stormDrops := Store.set 0 r.stormDrops c n }
  if s1.mayRecord (0x1100 + p) then
    ((s1.markRecord (0x1100 + p)).raise (pgETH p) 0x182 0 [c, n]).setEthRt p
      { r with stormDrops := Store.set 0 r.stormDrops c 0 }
  else s1

/-- Delivery into receive queue `q` of port page `dp` (R328, R335); the frame arrived on port `p`. -/
def rxDeliver (s : State) (p dp q : Nat) (rctHere : Bool) (rule : Nat) (b : List Byte) : State :=
  let size := s.get (pgETH dp) ETH.RXQ_SIZE.SIZE q
  let head := s.get (pgETH dp) ETH.RXQ_HEAD.HEAD q
  let d := s.rxqBase dp q + head * 16
  let w1 := s.memRd (d + 4) 4
  if size = 0 ∨ head = s.get (pgETH dp) ETH.RXQ_TAIL.TAIL q ∨ bitOf w1 31 = false then
    let s1 := (s.dropCount dp 8).setFault (pgETH dp) 19
    if s1.mayRecord (0x1200 + dp * 8 + q) then (s1.markRecord (0x1200 + dp * 8 + q)).raise (pgETH dp) 0x183 0 [q] else s1
  else
    let a := s.memRd d 4 + bits (s.memRd (d + 8) 4) 7 0 * 2 ^ 32
    let onA := if s.prp then decide (p = 0) else decide (p = 0)
    let w1' := b2n onA * 2 ^ 30 + b2n (decide (p = 1)) * 2 ^ 29 + b2n rctHere * 2 ^ 28 + b.length % 4096 * 2 ^ 16 + rule
    let s1 := if inTier12 a b.length then s.memPut a b else s.dmaError (pgETH dp) a 1 (5 + dp)
    let s2 := (s1.memWr (d + 4) 4 w1').memWr (d + 12) 4 s.stpNs
    let s3 := (s2.put (pgETH dp) ETH.RXQ_HEAD.HEAD ((head + 1) % size) q).incMod (pgETH dp) ETH.RX_CNT
    if s.get (pgETH dp) ETH.RXQ_SIZE.EVT q = 1 then s3.event (0x338 + dp) else s3

/-- A table of source nodes: whether a frame is a second copy, and the table after it. EntryForgetTime is 400 ms, 1,024 source nodes,
the least recently seen forgotten (R290, R331). -/
def dupIn (nodes : List PrpNode) (now mac seq : Nat) : Bool × List PrpNode :=
  let node : PrpNode := (nodes.find? (fun n => n.mac == mac)).getD { mac := mac }
  let fresh := node.seen.filter (fun e => decide (now < e.2 + 40000000))
  let dup := fresh.any (fun e => e.1 == seq)
  let node' : PrpNode := { node with seen := if dup then fresh else (seq, now) :: fresh }
  (dup, (node' :: nodes.filter (fun n => n.mac != mac)).take 1024)

/-- The duplicate table of port pair `p0` (ETH0 for the PRP node, ETH2 for the ring). -/
def dupSeen (s : State) (p0 mac seq : Nat) : Bool × List PrpNode := dupIn (s.ethRt p0).nodes s.clk.ref mac seq

/-- Ring traffic goes on out of the other ring port, once in each direction; a frame of this module's own is removed, and one addressed
to it ends here (R290). -/
def ringForward (s : State) (p seq : Nat) (b : List Byte) : State :=
  let f := parseFrame b
  let own := (Config.mac 2).toNat
  let (dup, nodes) := dupIn (s.ethRt p).ringSeen s.clk.ref f.sa seq
  if f.sa = own then s
  else
    let s1 := s.setEthRt p { s.ethRt p with ringSeen := nodes }
    if dup || f.da == own || !s1.on (pgETH (5 - p)) ETH.STATUS.LINK then s1 else s1.send (5 - p) 0 (b.map (fun x => x.toNat))

/-- A frame has arrived on a LAN of the PRP pair: a lost LAN is restored (R331). -/
def lanSeen (s : State) (p : Nat) : State :=
  if s.prp && decide (p < 2) then
    let s1 := (s.put (pgETH p) ETH.STATUS.LAN_OK 1).setEthRt p { s.ethRt p with lanAt := s.clk.ref }
    if (s.ethRt p).lanLost then
      ((s1.setEthRt p { s1.ethRt p with lanLost := false }).cond (pgETH p) 17 false).raise (pgETH p) 0x181 1 [p]
    else s1
  else s

/-- Stages three to five of R332: rule, storm limit, delivery. -/
def rxAfterDup (s : State) (p : Nat) (rctHere : Bool) (b : List Byte) : State :=
  let f := parseFrame b
  let pg := if s.prp && decide (p < 2) then 0 else p
  let rule := s.ruleOf p f
  let w0 := match rule with
    | some i => s.get (pgETH (if s.prp then 0 else p)) (ETH.RULE_W 0) i
    | none => 0
  let drop := match rule with
    | some _ => bitOf w0 30
    | none => decide (p < 2) && s.on (pgETH pg) ETH.CFG.DEF_DROP
  if drop then s.dropCount p 0
  else
    let q := match rule with
      | some _ => bits w0 29 27
      | none => if f.tagged then f.pcp else 0
    let cls := if rule.isSome && bitOf w0 26 then bits w0 25 24
      else if f.da = 2 ^ 48 - 1 then 0
      else if f.da / 2 ^ 40 % 2 = 1 then 1 else 2
    let s1 := s.stormRefill p
    let rate := s1.get (pgETH p) (ETH.STORM.RATE cls)
    let tok := Store.get 0 (s1.ethRt p).storm cls
    if rate ≠ 0 ∧ tok = 0 then s1.stormDrop p cls
    else
      let s2 := if rate = 0 then s1
        else s1.setEthRt p { s1.ethRt p with storm := Store.set 0 (s1.ethRt p).storm cls (tok - 1) }
      s2.rxDeliver p pg q rctHere (rule.getD 0x7FF) b

end State

/-- The longest frame a port accepts, without FCS (R326). -/
def rxLimit (s : State) (p : Nat) (b : List Byte) : Nat :=
  let base := if State.tagged b then 1518 else 1514
  let longer := if p < 2 then s.prp && (rxTrailer b).isSome
    else b.getD 12 0 == 0x89 && b.getD 13 0 == 0x2F || (State.tagged b && b.getD 16 0 == 0x89 && b.getD 17 0 == 0x2F)
  if longer then base + 6 else base

/-- The HSR sequence number of a ring frame (R290): bytes 20 and 21 behind a tag, 16 and 17 without one. -/
def hsrSeq (b : List Byte) : Option Nat :=
  if State.tagged b then
    (if b.getD 16 0 = 0x89 ∧ b.getD 17 0 = 0x2F then some (beNat ((b.drop 20).take 2)) else none)
  else if b.getD 12 0 = 0x89 ∧ b.getD 13 0 = 0x2F then some (beNat ((b.drop 16).take 2)) else none

/-- The Ethertype, OUI and protocol identifier of a Droveway frame (R292). -/
def isDroveway (b : List Byte) : Bool :=
  decide ((b.drop 22).take 7 = [0x88, 0xB7, 0x5C, 0xE2, 0x8A, 0x0D, 0x57])

/-- The kind of a discarded Droveway frame is counted, and recorded at most once per station and second (R311). -/
def State.dwyDiscard (s : State) (kind station : Nat) : State :=
  let s1 := (s.incSat pgDWY ⟨DWY.DISC_CNT.off, 8 * kind + 7, 8 * kind⟩).setFault pgDWY 18
  let key := 0x14500 + station
  if s.mayRecord key then
    (s1.markRecord key).raise (if station < 250 then pgSTN station else pgDWY) 0x145 kind [station]
  else s1

/-- FRAME_RECEIVE (R332): a frame from destination address to the end of its payload, without FCS, arrives on a port with a
good or bad FCS. Length and FCS check, duplicate discard, rule match, storm limit, delivery. A Droveway frame on the ring
goes to DWY after the duplicate discard: its own row (JOIN, CYCLE_IN, ...) says what it does; a frame of
a reserved TYPE is discarded (R295). -/
def execFrameReceive (port : Fin 4) (fcsOk : Bool) (frame : List Byte) (s : State) : Out :=
  let p := port.val
  let s0 := s.lanSeen p
  if !s.pageOn (pgETH p) then .next s
  else if !fcsOk || decide (rxLimit s p frame < frame.length) || decide (frame.length < 14) then
    .next (s0.dropCount p 24)
  else if p < 2 then
    (if !s.ethRuns p || (s.prp && !s.ethRuns 0) then .next s0
    else match (if s.prp then rxTrailer frame else none) with
      | none => .next (s0.rxAfterDup p false frame)
      | some (seq, lan) =>
        let s1 := if lan = 0xA + p then s0
          else
            let n := (s0.ethRt p).wrongSince + 1
            let s2 := ((s0.incMod (pgETH p) ETH.WRONG_LAN_CNT).setFault (pgETH p) 21).setEthRt p
              { s0.ethRt p with wrongSince := n }
            if s2.mayRecord (0x1300 + p) then
              ((s2.markRecord (0x1300 + p)).raise (pgETH p) 0x185 0 [n]).setEthRt p { s0.ethRt p with wrongSince := 0 }
            else s2
        let (dup, nodes) := s1.dupSeen 0 (parseFrame frame).sa seq
        let s3 := s1.setEthRt 0 { s1.ethRt 0 with nodes := nodes }
        if dup then .next (s3.incMod (pgETH p) ETH.DUP_CNT)
        else .next (s3.rxAfterDup p true (frame.take (frame.length - 6))))
  else
    match hsrSeq frame with
    | none => if s.ethRuns p then .next (s0.rxAfterDup p false frame) else .next s0
    | some seq =>
      let s0 := s0.ringForward p seq frame
      let (dup, nodes) := s0.dupSeen 2 (parseFrame frame).sa seq
      let s1 := s0.setEthRt 2 { s0.ethRt 2 with nodes := nodes }
      if (parseFrame frame).sa = (Config.mac 2).toNat then .next s0
      else if dup then .next (s1.incMod (pgETH p) ETH.DUP_CNT)
      else if isDroveway frame then
        (let ty := (frame.getD 30 0).toNat
        .next (if (ty = 0 ∨ 9 < ty) ∧ s1.pageOn pgDWY = true then s1.dwyDiscard 3 (frame.getD 31 0).toNat else s1))
      else if !s.ethRuns p then .next s1
      else .next (s1.rxAfterDup p false frame)

/-- LAN_LOST (R331): no frame has arrived on a LAN of the PRP pair for LAN_TMO ms. -/
def execLanLost (lan : Fin 2) (s : State) : Out :=
  let p := lan.val
  if !s.prp || (s.ethRt p).lanLost || !s.pageOn (pgETH p)
      || decide (s.clk.ref < (s.ethRt p).lanAt + 100000 * s.get (pgETH 0) ETH.CFG.LAN_TMO) then .next s
  else .next (((((s.put (pgETH p) ETH.STATUS.LAN_OK 0).setFault (pgETH p) 17).cond (pgETH p) 17 true).setEthRt p
    { s.ethRt p with lanLost := true }).raise (pgETH p) 0x181 0 [p])

/-- The link state of a port changes (R327): speed code 0 no link, 1 10, 2 100, 3 1,000 Mbit/s. A link at a speed that the port does not
advertise does not come up (R326). -/
def ethLink (p speed : Nat) (s : State) : State :=
  if speed = s.get (pgETH p) ETH.STATUS.SPEED ∨ (speed ≠ 0 ∧ bitOf (s.get (pgETH p) ETH.CFG.ADV) (speed - 1) = false) then s else
  let mbit := if speed = 1 then 10 else if speed = 2 then 100 else if speed = 3 then 1000 else 0
  let s1 := (s.put (pgETH p) ETH.STATUS.SPEED speed).putB (pgETH p) ETH.STATUS.LINK (decide (speed ≠ 0))
  let s2 := (s1.raise (pgETH p) 0x180 (if speed = 0 then 0 else 1) [mbit]).event (0x34C + p)
  if speed = 0 then (s2.setFault (pgETH p) 16).cond (pgETH p) 16 true else s2.cond (pgETH p) 16 false

/-- A fenced or re-started port returns every queued transmit descriptor with FLUSHED (R336). -/
def ethFence (p : Nat) (s : State) : State :=
  forEach (List.range 8) (fun s q => s.txFlush p q 5 1024) s

end Sys2Proof.Machine
end

