-- ==== Sys2Proof/Machine/Task.lean ====
section
/-! DEFINITION. The instants of a task: period, phase, publish offset, cycle numbers (R88 to R91, R127); who is duty. -/

namespace Sys2Proof.Machine
namespace State

def taskOn (s : State) (k : Nat) : Bool := s.on pgSEQ (SEQ.ATTR.ENABLE k)
/-- Period in ticks of 250 µs; never 0. -/
def taskK (s : State) (k : Nat) : Nat := max 1 (s.get pgSEQ (SEQ.PERIOD.TICKS k))
def taskP (s : State) (k : Nat) : Nat := s.get pgSEQ (SEQ.PHASE.TICKS k)
/-- Period, publish offset and L_in in ns. -/
def taskT (s : State) (k : Nat) : Nat := s.taskK k * 250000
def taskPub (s : State) (k : Nat) : Nat := s.get pgSEQ (SEQ.PUB.OFS k) * 10000
def taskLin (s : State) (k : Nat) : Nat := bits (s.get pgSEQ (SEQ.LIN k)) 7 0 * 10000

/-- How many freeze instants lie at or before now: the latest has index m with S_m ≤ E (R90). -/
def taskIdx (s : State) (k : Nat) : Nat := (s.tick - s.taskP k) / s.taskK k

/-- The freeze instant of index `m` (R90). -/
def taskS (s : State) (k m : Nat) : Nat := (m * s.taskK k + s.taskP k) * 250000

/-- What freeze instant it is now: its index, and the instant. At the freeze at which a new period took effect it is that one;
later ones lie at least the new period after it (R127). -/
def atFreeze (s : State) (k : Nat) : Option (Nat × Nat) :=
  let g := (s.task k).gridAt
  let m := s.taskIdx k
  let now := s.tick * 250000
  if g = now + 1 then some (m, now)
  else if s.taskS k m ≠ now ∨ (g ≠ 0 ∧ now + 1 < g + s.taskT k) then none
  else some (m, now)

/-- It is the publish instant `p`: publish instants lie on a grid of 10 µs (R88). -/
def isPublish (s : State) (p : Nat) : Bool := s.e / 10000 == p / 10000

/-- What publish instant it is now (R91): the index of its cycle, and the instant. -/
def atPublish (s : State) (k : Nat) : Option (Nat × Nat) :=
  let o := s.taskPub k
  let next :=
    let m := ((s.e - o) / 250000 - s.taskP k) / s.taskK k
    let p := s.taskS k m + o
    if s.isPublish p && !(decide ((s.task k).gridAt ≠ 0) && decide (s.taskS k m + 1 < (s.task k).gridAt + s.taskT k)) then some (m, p)
    else none
  match (s.task k).cur with
  | some c => if !c.late && s.isPublish (c.at_ + o) then some (c.m, c.at_ + o) else next
  | none => next

/-- The cycle number of index `m`. -/
def cycleNo (m : Nat) : Nat := m % 4294967296

/-- T_fast: the period of the fastest redundant task in ns; 0 without one. -/
def tFast (s : State) : Nat :=
  ((List.range 32).filter (fun k => s.taskOn k && s.on pgSEQ (SEQ.ATTR.REDUNDANT k))).foldl
    (fun acc k => if acc = 0 then s.taskT k else min acc (s.taskT k)) 0

/-- The module is duty, or runs without a partner. -/
def duty (s : State) : Bool := s.get pgPAIR PAIR.STATUS.ROLE == 1 || s.get pgPAIR PAIR.STATUS.PAIR_STATE == 1

end State
end Sys2Proof.Machine
end

