-- ==== Sys2Proof/Machine/Dwy.lean ====
section
/-! DEFINITION. Droveway: frames (R291 to R299), joining (R300 to R309), the cycle exchange (R310 to R313), loss and
readmit (R314 to R319), Stop (R320). -/

namespace Sys2Proof.Machine

/-- A received Droveway frame (R292, R293). -/
structure DwyFrame where
  sa : Nat
  ver : Nat
  type : Nat
  station : Nat
  gen : Nat
  cycle : Nat
  flags : Nat
  /-- Header and payload, as the E2E code covers them. -/
  covered : List Byte
  payload : List Byte
  code : Nat

def beBytes (v n : Nat) : List Byte := (leBytes v n).reverse

def parseDwy (b : List Byte) : DwyFrame :=
  let h := b.drop 29
  let len := beNat ((h.drop 8).take 2)
  { sa := beNat ((b.drop 6).take 6), ver := beNat (h.take 1), type := beNat ((h.drop 1).take 1)
    station := beNat ((h.drop 2).take 1), gen := beNat ((h.drop 3).take 1), cycle := beNat ((h.drop 4).take 4)
    flags := beNat ((h.drop 10).take 2), covered := h.take (12 + len), payload := (h.drop 12).take len
    code := beNat ((h.drop (12 + len)).take 4) }

/-- The E2E code of a frame passes for an initial value (R294). -/
def DwyFrame.ok (f : DwyFrame) (init : Nat) : Bool := (crc32c (BitVec.ofNat 32 init) f.covered).toNat == f.code

/-- A big-endian number in a payload. -/
def DwyFrame.num (f : DwyFrame) (ofs n : Nat) : Nat := beNat ((f.payload.drop ofs).take n)

def allOnes : Nat := 0xFFFFFFFF
def groupAddr : Nat := 0x5DE28A000D57

namespace State

def stnRt (s : State) (a : Nat) : StnRt := Store.get {} s.dwy.stn a
def setStnRt (s : State) (a : Nat) (r : StnRt) : State :=
  { s with dwy := { s.dwy with stn := Store.set {} s.dwy.stn a r } }
def stState (s : State) (a : Nat) : Nat := s.get (pgSTN a) STN.STATUS.ST_STATE
def stnGen (s : State) (a : Nat) : Nat := Store.get 0 s.dwy.gen a
def setStnGen (s : State) (a g : Nat) : State :=
  ({ s with dwy := { s.dwy with gen := Store.set 0 s.dwy.gen a (g % 256) } } : State).put (pgSTN a) STN.GEN g
def stnTask (s : State) (a : Nat) : Nat := s.get (pgSTN a) STN.CFG.TASK
def stnEn (s : State) (a : Nat) : Bool := s.on (pgSTN a) STN.CFG.ENABLE
def stnMac (s : State) (a : Nat) : Nat :=
  s.get (pgSTN a) STN.ST_MAC_HI.MAC_HI * 4294967296 + s.get (pgSTN a) STN.ST_MAC_LO
def stnReceipt (s : State) (a : Nat) : Bool := s.on (pgSTN a) STN.STATUS.METHOD
def stnSafe (s : State) (a : Nat) : Bool := s.on (pgSTN a) STN.STATUS.SAFE_CODE

/-- DWY runs and may transmit (R291). -/
def dwyRuns (s : State) : Bool := s.active pgDWY && s.pageOn pgDWY && !s.inSequence

/-- The masks of R324 show state `st` of station `a`. -/
def stnShow (s : State) (a st : Nat) : State :=
  (s.putB pgDWY ⟨(DWY.ACTIVE (a / 32)).off, a % 32, a % 32⟩ (st == 4)).putB pgDWY ⟨(DWY.LOST (a / 32)).off, a % 32, a % 32⟩ (st == 5)

/-- A change of ST_STATE: code 0x140 with GEN, source 0x330, the masks of R324. -/
def setStState (s : State) (a st : Nat) : State :=
  let old := s.stState a
  if old = st then s
  else
    let s1 := (s.put (pgSTN a) STN.STATUS.ST_STATE st).stnShow a st
    (s1.event 0x330).raise (pgSTN a) 0x140 0 [old, st, s.stnGen a]

/-! ### Maps and sizes -/

/-- The valid maps of a station in one direction, ascending. -/
def stnMaps (s : State) (a : Nat) (out : Bool) : List Nat :=
  (List.range 32).filter (fun m => s.on (pgSTN a) (STN.MAP.VALID m) && s.on (pgSTN a) (STN.MAP.DIR m) == out)
def mapEntry (s : State) (a m : Nat) : Nat := s.get (pgSTN a) (STN.MAP.INDEX m)
def mapOfs (s : State) (a m : Nat) : Nat := s.get (pgSTN a) (STN.MAP.OFS m)

/-- Length of a data area. -/
def stnLen (s : State) (a : Nat) (out : Bool) : Nat :=
  (s.stnMaps a out).foldl (fun acc m => max acc (s.mapOfs a m + s.dirSize (s.mapEntry a m))) 0

/-- Payload bytes of CYCLE_IN and CYCLE_OUT (R296, R297). -/
def inPayload (s : State) (a : Nat) : Nat := 8 + s.stnLen a false + (s.stnMaps a false).length
def outPayload (s : State) (a : Nat) : Nat := 4 + s.stnLen a true + (s.stnMaps a true).length

/-- ns per byte at the ring rate (R290): 8 at 1 Gbit/s, 80 at 100 Mbit/s, 0 at none of these. -/
def ringByteNs (s : State) : Nat :=
  let a := s.get (pgETH 2) ETH.STATUS.SPEED
  let b := s.get (pgETH 3) ETH.STATUS.SPEED
  if a = b ∧ a = 3 then 8 else if a = b ∧ a = 2 then 80 else 0

/-- Wire time of a frame with `len` payload bytes in ns (R292). -/
def wireNs (s : State) (len : Nat) : Nat := (max 64 (49 + len) + 20) * s.ringByteNs
def wIn (s : State) (a : Nat) : Nat := s.wireNs (s.inPayload a)
def wOut (s : State) (a : Nat) : Nat := s.wireNs (s.outPayload a)

/-- Stations in Offered, Bound or Active. -/
def stnHeld (s : State) (a : Nat) : Bool := s.stState a == 2 || s.stState a == 3 || s.stState a == 4
def stnBound (s : State) (a : Nat) : Bool := s.stState a == 3 || s.stState a == 4
def heldStns (s : State) : List Nat := (List.range 250).filter (fun a => s.stnHeld a)

/-- Λ of R306, exact. -/
def ringLoad (s : State) (stns : List Nat) : Rat :=
  stns.foldl (fun acc a => acc + ((s.wIn a + s.wOut a : Nat) : Rat) / ((s.taskT (s.stnTask a) : Nat) : Rat)) 0

/-- Λ in per mille, rounded up. -/
def ringPermille (s : State) : Nat := (s.ringLoad s.heldStns * 1000).ceil.toNat

/-- O_s of R307: the output frames of the task's stations with lower addresses. -/
def outOfs (s : State) (a : Nat) : Nat :=
  ((List.range a).filter (fun b => s.stnHeld b && s.stnTask b == s.stnTask a)).foldl (fun acc b => acc + s.wOut b) 0

/-- The windows of R307 with T_ring in µs. -/
def stnWindows (s : State) (a : Nat) (receipt : Bool) (dslot tprep tring : Nat) : Bool :=
  let k := s.stnTask a
  let tr := tring * 1000
  let room := s.taskT k - s.taskPub k
  (if receipt then
    decide (s.outOfs a + s.wOut a + tr + tprep * 1000 + s.wIn a + tr + 10000 ≤ room)
  else decide (dslot * 10 + s.wIn a + tr + 10000 ≤ s.taskLin k))
    && decide (s.outOfs a + s.wOut a + tr + 10000 + s.taskLin k ≤ room)

/-- The launch slot of R305 in 10 ns units. -/
def pickSlot (s : State) (a tprep : Nat) : Nat :=
  let others := (List.range 250).filter (fun b => b != a && s.stnHeld b && s.stnTask b == s.stnTask a && !s.stnReceipt b)
  let up (x : Nat) : Nat := (x + 9) / 10
  let len (b : Nat) : Nat := s.wIn b + 500
  let slot (b : Nat) : Nat := s.get (pgSTN b) STN.SLOT.D_SLOT * 10
  let free (d : Nat) : Bool := others.all (fun b => decide (d * 10 + len a ≤ slot b) || decide (slot b + len b ≤ d * 10))
  let cands := (tprep * 100) :: (others.map (fun b => up (slot b + len b))).filter (fun d => decide (tprep * 100 ≤ d))
  let ok := cands.filter free
  ok.foldl min (ok.headD (tprep * 100))

/-! ### Frames out -/

/-- A Droveway frame up to its padding, without FCS (R291 to R294), as it leaves on path 0 (ETH2) or 1 (ETH3) with HSR sequence number
`seq`. -/
def dwyBytes (s : State) (path seq dst : Nat) (all : List Byte) (init : Nat) : List Byte :=
  let code := beBytes (crc32c (BitVec.ofNat 32 init) all).toNat 4
  let proto : List Byte := [0x88, 0xB7, 0x5C, 0xE2, 0x8A, 0x0D, 0x57]
  let body := proto ++ all ++ code
  let b := beBytes dst 6 ++ beBytes (Config.mac 2).toNat 6 ++ [0x81, 0x00]
    ++ beBytes (s.get pgDWY DWY.CFG.PCP * 8192 + s.get pgDWY DWY.CFG.VID) 2
    ++ [0x89, 0x2F] ++ beBytes (path * 4096 + (4 + body.length) % 4096) 2 ++ beBytes seq 2 ++ body
  b ++ List.replicate (60 - b.length) 0

/-- A ring port takes a frame of DWY's queue (R327, R336). -/
def ringSends (s : State) (p : Nat) : Bool := s.ethRuns p && s.on (pgETH p) ETH.STATUS.LINK

/-- Send a Droveway frame of a type in both ring directions, at the instant `t` or now where that has passed (R291 to R294, R310). -/
def dwySendAt (s : State) (t type dst ver station gen cycle flags init : Nat) (payload : List Byte) : State :=
  let all := beBytes ver 1 ++ beBytes type 1 ++ beBytes station 1 ++ beBytes gen 1 ++ beBytes cycle 4
    ++ beBytes payload.length 2 ++ beBytes flags 2 ++ payload
  let r := s.ethRt 2
  let one (path : Nat) (u : State) : State :=
    let p := 2 + path
    if u.ringSends p then
      ({ u with sent := { port := p, kind := type, at_ := max t u.e
                          body := (u.dwyBytes path r.rctSeq dst all init).map BitVec.toNat } :: u.sent } : State).incMod (pgETH p) ETH.TX_CNT
    else u
  (one 1 (one 0 s)).setEthRt 2 { r with rctSeq := (r.rctSeq + 1) % 65536 }

/-- Send a Droveway frame now. -/
def dwySend (s : State) (type dst ver station gen cycle flags init : Nat) (payload : List Byte) : State :=
  s.dwySendAt 0 type dst ver station gen cycle flags init payload

def stnVer (s : State) (a : Nat) : Nat := s.get (pgSTN a) STN.NEG.VER

/-- Module MAC A and B (R299): B is zero without a partner, whose address the spec does not give: a free value. -/
def macB (s : State) : Nat :=
  if s.get pgPAIR PAIR.STATUS.PAIR_STATE = 1 then 0 else (Config.mac 6).toNat

/-- The LEAVE frame (R318), code 0x149. -/
def sendLeave (s : State) (a reason : Nat) : State :=
  ((s.dwySend 9 (s.stnMac a) (s.stnVer a) a (s.stnGen a) 0 0 allOnes (beBytes reason 1 ++ [0, 0, 0])).put (pgSTN a)
    STN.REASON.LEAVE reason).raise (pgSTN a) 0x149 0 [reason]

/-! ### Inputs -/

/-- Every input entry of a station takes quality bits, its value kept: a producer write, so GEN rises (R313, R314). -/
def stnMark (s : State) (a : Nat) (q : Quality) : State :=
  forEach (s.stnMaps a false) (fun u m =>
    let i := u.mapEntry a m
    let now := if u.dirForced i then Store.get 0 u.forceQ i else u.dirQual i
    let v := if u.dirForced i then u.memRd (forceBase + i * 16) (u.dirSize i) else u.imgVal i
    u.imgWrite i v (now ||| q)) s

/-! ### Bindings -/

/-- The binding data of page `a` are dropped; what R300 and R317 compare later stays. -/
def stnFree (s : State) (a : Nat) : State :=
  let r := s.stnRt a
  s.setStnRt a { started := r.started, mac := r.mac, cfg := r.cfg }

/-- An offer of page `a` ends without a binding: its slot is free, GEN unchanged (R300, R305). -/
def stnUnoffer (s : State) (a : Nat) (st : Nat) : State :=
  ((s.stnFree a).put (pgSTN a) STN.SLOT.D_SLOT 0).setStState a st

/-- A binding ends (R318): GEN rises unless `roseAlready`, the slot is free, the inputs take STALE and BAD. -/
def stnEnd (s : State) (a st : Nat) (roseAlready : Bool) : State :=
  let s1 := if roseAlready then s else s.setStnGen a (s.stnGen a + 1)
  let s2 := (s1.stnMark a (qSTALE + qBAD)).stnFree a
  ((s2.put (pgSTN a) STN.SLOT.D_SLOT 0).put (pgSTN a) STN.STATUS.MISS_RUN 0).setStState a st

/-- The state of a page without a binding: Waiting while enabled, else Unused. -/
def stnIdle (s : State) (a : Nat) : Nat := if s.stnEn a then 1 else 0

/-- The binding ends with a LEAVE of the module (R318). -/
def stnLeave (s : State) (a reason : Nat) : State :=
  if s.stnBound a then
    let s1 := if s.duty then s.sendLeave a reason else s
    s1.stnEnd a (s1.stnIdle a) false
  else if s.stnHeld a then s.stnUnoffer a (s.stnIdle a)
  else s

/-- The layout and binding data of a page that rebind it when a commit changes them (R318). -/
def stnKey (s : State) (a : Nat) : List Nat :=
  [s.stnTask a, s.get (pgSTN a) STN.CFG.PLACE_ID, (s.reg (pgSTN a) 0x044).toNat, s.get (pgSTN a) STN.CFG.REQ_SAFE,
    s.get (pgSTN a) STN.CFG.METHODS, s.get (pgSTN a) STN.HOLD.HOLD_T]
    ++ (List.range 32).map (fun m => if s.on (pgSTN a) (STN.MAP.VALID m) then
        1 + 2 * (s.get (pgSTN a) (STN.MAP.DIR m) + 2 * (s.mapOfs a m + 2048 * s.dirSize (s.mapEntry a m)))
      else 0)

/-- The READMIT entry, if bound. -/
def stnReadEntry (s : State) (a : Nat) : Option Nat :=
  if s.on (pgSTN a) STN.BIND_READMIT.VALID then some (s.get (pgSTN a) STN.BIND_READMIT.INDEX) else none

/-- Start of a binding: BIND (R299, R305, R309). -/
def stnBind (s : State) (a : Nat) : State :=
  let k := s.stnTask a
  let f := s.freeWord.toNat
  let seed := if f = 0 ∨ f = allOnes then 1 else f
  let s0 := s.useFree
  let from_ := s.e + 1000000 + s.taskLin k
  let kt := s.taskT k
  let m := if from_ ≤ s.taskP k * 250000 then 0 else (from_ - s.taskP k * 250000 + kt - 1) / kt
  let first := cycleNo m
  let gen := match s.stnReadEntry a with
    | some i => s.dirGen i
    | none => 0
  let s1 := s0.setStnRt a { s0.stnRt a with seed := seed, first := first, confirmed := false, acc := none, why := 0
                                            goodRun := 0, cmd := false, readGen := gen, started := s.clk.ref + 1
                                            mac := s.stnMac a, cfg := s.stnKey a }
  let pay := beBytes (s.get pgSEQ (SEQ.PERIOD.TICKS k)) 2 ++ beBytes (s.taskP k) 2 ++ beBytes (s.taskLin k / 1000) 2
    ++ beBytes (s.get (pgSTN a) STN.SLOT.D_SLOT) 4 ++ beBytes (s.get (pgSTN a) STN.HOLD.HOLD_T) 2
    ++ beBytes (s.stnLen a false) 2 ++ beBytes (s.stnLen a true) 2 ++ beBytes first 4 ++ beBytes seed 4
    ++ beBytes (Config.mac 2).toNat 6 ++ beBytes s.macB 6
  ((s1.dwySend 4 (s.stnMac a) (s.stnVer a) a (s.stnGen a) 0 0 allOnes pay).put (pgSTN a) STN.STATUS.MISS_RUN 0).setStState
    a 3

/-! ### Joining (R301 to R307) -/

/-- The page a JOIN matches, or the refusal: 1 no page, 3 a page of its PLACE_ID with another TYPE. -/
def joinMatch (s : State) (place type : Nat) : Option Nat × Nat :=
  let en := (List.range 250).filter (fun a => s.stnEn a)
  let ty (a : Nat) : Nat := (s.reg (pgSTN a) 0x044).toNat
  let tyOk (a : Nat) : Bool := ty a == type || ty a == 0
  let byPlace := en.filter (fun a => s.get (pgSTN a) STN.CFG.PLACE_ID == place)
  match byPlace.find? tyOk with
  | some a => (some a, 0)
  | none =>
    match en.find? (fun a => s.on (pgSTN a) STN.CFG.ANY && s.stState a == 1 && tyOk a) with
    | some a => (some a, 0)
    | none =>
      match byPlace.head? with
      | some a => (some a, 3)
      | none => (none, 1)

/-- The mode negotiated with a JOIN: version, payload limit, RECEIPT, safety code (R302). -/
def joinMode (s : State) (a : Nat) (f : DwyFrame) : Nat × Nat × Bool × Bool :=
  let lo := f.num 12 1
  let hi := f.num 13 1
  let ver := if lo ≤ 0x11 ∧ 0x11 ≤ hi then 0x11 else if lo ≤ 0x10 ∧ 0x10 ≤ hi then 0x10 else 0
  let lim := min (f.num 16 2) (s.get pgDWY DWY.MAX_PAYLOAD.BYTES)
  let both := f.num 14 1 &&& s.get (pgSTN a) STN.CFG.METHODS
  let sched := bitOf both 0 && bitOf (f.num 15 1) 1
  (ver, lim, !sched, ver == 0x11 && bitOf (f.num 15 1) 0)

/-- The refusal of a JOIN on a matched page, 0 for none (R302, R304): the launch slot is chosen before. -/
def joinReason (s : State) (a : Nat) (f : DwyFrame) (dslot : Nat) : Nat :=
  let (ver, lim, receipt, safe) := s.joinMode a f
  let both := f.num 14 1 &&& s.get (pgSTN a) STN.CFG.METHODS
  let tr := s.get pgDWY DWY.T_RING.MAX_US
  if s.isFenced (pgSTN a) then 13
  else if !s.taskOn (s.stnTask a) then 11
  else if ver = 0 then 4
  else if lim < s.inPayload a ∨ lim < s.outPayload a ∨ f.num 24 2 ≠ s.stnLen a false ∨ f.num 26 2 ≠ s.stnLen a true
      ∨ f.num 28 1 ≠ (s.stnMaps a false).length ∨ f.num 29 1 ≠ (s.stnMaps a true).length then 5
  else if s.taskT (s.stnTask a) < f.num 18 4 * 1000 then 6
  else if receipt && !bitOf both 1 then 7
  else if s.on (pgSTN a) STN.CFG.REQ_SAFE && !safe then 8
  else if f.num 30 2 < s.get (pgSTN a) STN.HOLD.HOLD_T then 12
  else if s.ringByteNs = 0 ∨ ¬ (s.ringLoad (a :: s.heldStns.filter (fun b => b != a)) ≤ 6 / 10) then 9
  else if s.stnWindows a receipt dslot (f.num 22 2) tr then 0 else 10

/-- An OFFER with a reason of R304; `a` is the matched page, if any. -/
def joinRefuse (s : State) (a : Option Nat) (f : DwyFrame) (reason : Nat) : State :=
  let mac := f.num 0 6
  let pg := match a with
    | some b => pgSTN b
    | none => pgDWY
  let s1 := match a with
    | some b => (s.setFault (pgSTN b) 18).put (pgSTN b) STN.REASON.REFUSAL reason
    | none => (s.setFault pgDWY 19).incMod pgDWY DWY.UNKNOWN_CNT
  let ver := s1.freeWord.toNat % 256
  let s2 := s1.useFree
  (s2.dwySend 3 mac ver (a.getD 255) (match a with
    | some b => s.stnGen b
    | none => 0) 0 0 allOnes (beBytes reason 1 ++ [0, 0, 0, 0, 0, 0, 0])).raise pg 0x141 0
      [reason, f.num 6 2, mac]

/-- The slot and what the JOIN negotiated are reserved on page `a` (R302, R305). -/
def joinReserve (s : State) (a : Nat) (f : DwyFrame) (dslot : Nat) : State :=
  let (ver, lim, receipt, safe) := s.joinMode a f
  let pg := pgSTN a
  let mac := f.num 0 6
  let s1 := ((((((((s.put pg STN.NEG.VER ver).put pg STN.NEG.MAX_PAYLOAD lim).putB pg STN.STATUS.METHOD receipt).putB pg
    STN.STATUS.SAFE_CODE safe).put pg STN.SLOT.D_SLOT (if receipt then 0 else dslot)).put pg STN.T_PREP.US (f.num 22 2)).put
    pg STN.ST_MAC_LO mac).put pg STN.ST_MAC_HI.MAC_HI (mac / 4294967296)).put pg STN.ST_ID.PLACE_ID (f.num 6 2)
  (s1.put pg STN.ST_TYPE (f.num 8 4)).setStnRt a { s1.stnRt a with
    tRing := s.get pgDWY DWY.T_RING.MAX_US, started := s.clk.ref + 1 }

/-- 100 ms have passed since the offer of page `a` (R300). -/
def offerOver (s : State) (a : Nat) : Bool := decide ((s.stnRt a).started + 10000000 ≤ s.clk.ref + 1)

/-- A page may start a new binding: at most one in any 1 ms (R300). -/
def stnMayStart (s : State) (a : Nat) : Bool :=
  let t := (s.stnRt a).started
  t == 0 || decide (t - 1 + 100000 ≤ s.clk.ref)

/-- A JOIN goes on at its matched page (R301, R302): OFFER, or a refusal. -/
def joinPage (s : State) (a : Nat) (f : DwyFrame) : State :=
  let mac := f.num 0 6
  if s.stnHeld a && s.stnMac a != mac then s.joinRefuse (some a) f 2
  else if !s.stnMayStart a then s
  else
    let s1 := if s.stnBound a then s.stnEnd a (s.stnIdle a) false else if s.stnHeld a then s.stnUnoffer a (s.stnIdle a) else s
    let d := s1.pickSlot a (f.num 22 2)
    let reason := s1.joinReason a f d
    if reason ≠ 0 then s1.joinRefuse (some a) f reason
    else
      let s2 := s1.joinReserve a f d
      let (ver, lim, receipt, safe) := s1.joinMode a f
      (s2.dwySend 3 mac ver a (s.stnGen a) 0 0 allOnes
        (beBytes 0 1 ++ beBytes ver 1 ++ beBytes (b2n receipt) 1 ++ beBytes (b2n safe) 1 ++ beBytes lim 2 ++ [0, 0])).setStState a 2

/-- A JOIN, or a REJOIN handled as one. -/
def joinFrame (s : State) (f : DwyFrame) : State :=
  match s.joinMatch (f.num 6 2) (f.num 8 4) with
  | (some a, 0) => s.joinPage a f
  | (a, reason) => s.joinRefuse a f reason

/-- A JOIN or REJOIN is handled: the duty module, at most 16 of them in an ANNOUNCE period (R291, R300). -/
def joinOpen (s : State) : Bool := s.dwyRuns && s.duty && decide (s.dwy.joins < 16)
def joinTake (s : State) : State := { s with dwy := { s.dwy with joins := s.dwy.joins + 1 } }

/-! ### The ring (R306 to R308) -/

/-- Λ above 0.60 (R306). -/
def dwyCapacity (s : State) : State :=
  if s.ringLoad s.heldStns ≤ 6 / 10 then s
  else (s.setFault pgDWY 17).raise pgDWY 0x146 0 [1, s.ringPermille]

/-- T_ring has grown: the windows are checked again (R307). -/
def dwyWindows (s : State) : State :=
  let tr := s.get pgDWY DWY.T_RING.MAX_US
  forEach ((List.range 250).filter (fun a => s.stnBound a && decide ((s.stnRt a).tRing < tr)
      && !s.stnWindows a (s.stnReceipt a) (s.get (pgSTN a) STN.SLOT.D_SLOT) (s.get (pgSTN a) STN.T_PREP.US) tr))
    (fun u a => ((u.setFault (pgSTN a) 20).raise (pgSTN a) 0x146 0 [2, u.ringPermille, u.stnTask a])) s

/-- The ring opens or closes (R308). -/
def dwyRing (s : State) (isOpen : Bool) : State :=
  let s1 := (((s.putB pgDWY DWY.STATUS.RING_OPEN isOpen).cond pgDWY 16 isOpen).event 0x331).raise pgDWY 0x148
    (if isOpen then 0 else 1)
  if isOpen then s1.setFault pgDWY 16 else s1

/-! ### The cycle exchange -/

/-- Data area and quality bytes of a CYCLE_OUT (R297). -/
def outArea (s : State) (a : Nat) : List Byte :=
  let maps := s.stnMaps a true
  let byte (x : Nat) : Byte :=
    match maps.find? (fun m => decide (s.mapOfs a m ≤ x) && decide (x < s.mapOfs a m + s.dirSize (s.mapEntry a m))) with
    | some m => Memory.rd s.mem (s.dirAddr (s.mapEntry a m) + (x - s.mapOfs a m))
    | none => 0
  (List.range (s.stnLen a true)).map byte ++ maps.map (fun m => BitVec.ofNat 8 (s.dirQual (s.mapEntry a m) * 16))

/-- The CYCLE_OUT of index `m` to station `a` (R310, R311). -/
def cycleOut (s : State) (a m : Nat) (repeated safeOut : Bool) : State :=
  let k := s.stnTask a
  let r := s.stnRt a
  let n := cycleNo m
  let ahead := (n + 4294967296 - r.first) % 4294967296
  let due := decide (ahead < 2147483648) || (s.stnReceipt a && ahead == 4294967295)
  if !due then s
  else
    let armed := s.stState a == 4
    let safe := s.stnSafe a
    let flags := b2n repeated * 32768 + b2n safeOut * 16384 + b2n armed * 8192 + b2n safe * 4096
    s.dwySendAt (s.taskS k m + s.taskPub k + s.outOfs a) 6 (s.stnMac a) (s.stnVer a) a (s.stnGen a) n flags (if safe then r.seed else allOnes)
      (beBytes (s.taskS k (m + 1) % 4294967296) 4 ++ s.outArea a)

/-- At P_n the duty module launches the CYCLE_OUT frames of the task's stations, in ascending address (R310). -/
def dwyCycleOut (s : State) (k m : Nat) (repeated : Bool) : State :=
  if s.dwyRuns && s.duty then
    let safeOut := s.st pgSEQ == 2 || bitOf (s.get pgSEQ SEQ.SHED) k
    forEach ((List.range 250).filter (fun a => s.stnBound a && s.stnTask a == k))
      (fun u a => u.cycleOut a m repeated safeOut) s
  else s

/-- HOLD to all stations at T_stop (R320). -/
def dwyHold (s : State) : State :=
  if s.dwyRuns && s.duty then
    s.useFree.dwySend 7 groupAddr (s.freeWord.toNat % 256) 255 0 0 0 allOnes [1, 0, 0, 0]
  else s

/-- The input maps of a good frame are written (R312). -/
def stnInputs (s : State) (a : Nat) (f : DwyFrame) (timeOk : Bool) : State :=
  let maps := s.stnMaps a false
  let len := s.stnLen a false
  forEach (List.zip (List.range maps.length) maps |>.map (fun p => p.1 * 64 + p.2)) (fun u jm =>
    let j := jm / 64
    let m := jm % 64
    let i := u.mapEntry a m
    let v := leNat ((f.payload.drop (8 + u.mapOfs a m)).take (u.dirSize i))
    let qb := f.num (8 + len + j) 1
    let q := (if bitOf qb 7 then qBAD else 0) + (if bitOf qb 6 || (!u.stnReceipt a && !timeOk) then qUNCERTAIN else 0)
      + (if bitOf qb 5 then qSUBST else 0)
    u.imgWrite i v q) s

/-- Why a CYCLE_IN of the right station, GEN, state and MAC is late or early: the index of its cycle if it is in its window
(R311). -/
def inWindow (s : State) (a cycle : Nat) : Option Nat :=
  let k := s.stnTask a
  let m := s.taskIdx k
  let before := decide (s.e < s.taskS k 0)
  let next := if before then 0 else m + 1
  let opens := if s.stnReceipt a then (if before then 0 else s.taskS k m + s.taskPub k) else s.taskS k next - s.taskLin k
  if cycleNo next = cycle ∧ opens ≤ s.e then some next else none

/-- An accepted CYCLE_IN (R312). -/
def cycleIn (s : State) (a next : Nat) (f : DwyFrame) : State :=
  let r := s.stnRt a
  let pg := pgSTN a
  let again := match r.acc with
    | some (c, _) => c == f.cycle
    | none => false
  if again then s.dwyDiscard 3 a
  else
    let ack := f.num 0 4
    let good := r.acc.isNone || (ack + 1) % 4294967296 == f.cycle
    let stat := f.num 4 2
    let s1 := ((((s.put pg STN.LAST_IN f.cycle).put pg STN.LAST_ACK ack).putB pg STN.STATUS.TIME_OK (bitOf stat 0)).putB pg
      STN.STATUS.OUT_SAFE (bitOf stat 1)).setStnRt a { r with acc := some (f.cycle, good), confirmed := true }
    if good then
      let margin := s.taskS (s.stnTask a) next - s.e
      (s1.put pg STN.MARGIN (min margin (s.get pg STN.MARGIN))).stnInputs a f (bitOf stat 0)
    else s1

/-- A page that is Bound becomes Active at index `m` (R315). -/
def stnReadmit (s : State) (a m : Nat) : State :=
  let r := s.stnRt a
  let byProgram := s.on (pgSTN a) STN.CFG.READMIT
  let i := s.get (pgSTN a) STN.BIND_READMIT.INDEX
  let entry := s.on (pgSTN a) STN.BIND_READMIT.VALID && s.imgBool i && !s.imgBad i && s.dirGen i != r.readGen
  if s.stState a = 3 ∧ 2 ≤ r.goodRun ∧ (byProgram = false ∨ entry = true ∨ r.cmd = true) then
    let how := if !byProgram then 0 else if entry then 1 else 2
    ((s.setStnRt a { r with cmd := false }).setStState a 4).raise (pgSTN a) 0x144 0 [cycleNo m, how]
  else s

/-- The word of the bound STAT entry (R313). -/
def stnStat (s : State) (a : Nat) (missed : Bool) : State :=
  let pg := pgSTN a
  if s.on pg STN.BIND_STAT.VALID then
    s.imgWrite (s.get pg STN.BIND_STAT.INDEX) (s.stState a + b2n (s.stState a == 4) * 8 + b2n missed * 16
      + s.get pg STN.STATUS.TIME_OK * 32 + s.get pg STN.STATUS.OUT_SAFE * 64 + s.get pg STN.STATUS.SAFE_CODE * 128
      + s.get pg STN.STATUS.MISS_RUN * 256 + s.stnGen a * 4096) 0
  else s

/-- One bound station at the freeze of index `m` of its task (R309, R313 to R315). -/
def stnEvaluate (s : State) (m a : Nat) : State :=
  let r := s.stnRt a
  let pg := pgSTN a
  let n := cycleNo m
  let early := decide (2147483648 ≤ (n + 4294967296 - r.first) % 4294967296)
  let acc := match r.acc with
    | some (c, g) => if c = n then some g else none
    | none => none
  match acc with
  | some true =>
    let s1 := (s.put pg STN.STATUS.MISS_RUN 0).setStnRt a { r with goodRun := r.goodRun + 1, why := 0 }
    (s1.stnReadmit a m).stnStat a false
  | _ =>
    if early then s.stnStat a false
    else
      let reason := if acc = some false then 2 else if r.why ≠ 0 then r.why else 1
      let run := s.get pg STN.STATUS.MISS_RUN
      let s1 := (((s.put pg STN.STATUS.MISS_RUN (min 15 (run + 1))).incMod pg STN.MISSES).setFault pg 17).setStnRt a
        { r with goodRun := 0, why := 0 }
      let s2 := if run = 0 then (s1.stnMark a qSTALE).raise pg 0x142 0 [n, reason] else s1
      let nmiss := s.get pg STN.CFG.N_MISS
      if run + 1 < nmiss then s2.stnStat a true
      else if r.confirmed then
        let s3 := ((s2.setFault pg 16).raise pg 0x143 0 [n, nmiss]).incMod pg STN.LOSSES
        let s4 := (s3.setStnGen a (s3.stnGen a + 1)).stnEnd a 5 true
        (s4.put pg STN.STATUS.MISS_RUN (min 15 (run + 1))).stnStat a true
      else (s2.stnEnd a (s2.stnIdle a) false).stnStat a true

/-- Every bound station of task `k` at the freeze of index `m`. -/
def dwyEvaluate (s : State) (k m : Nat) : State :=
  if s.dwyRuns then
    forEach ((List.range 250).filter (fun a => s.stnBound a && s.stnTask a == k)) (fun u a => u.stnEvaluate m a) s
  else s

/-- The stations of task `k` are evaluated at a freeze instant of its grid, index `m` at `t`, once (R313). -/
def dwyEvaluateAt (s : State) (k m t : Nat) : State :=
  if Store.get 0 s.dwy.evalAt k = t + 1 then s
  else ({ s with dwy := { s.dwy with evalAt := Store.set 0 s.dwy.evalAt k (t + 1) } } : State).dwyEvaluate k m

/-! ### Starts, fences, commits -/

/-- RUN of DWY (R324). -/
def dwyRun (s : State) : State := (s.put pgDWY HDR.CTRL.RUN 1).refreshState pgDWY

/-- At PD8 start each GEN is the stored value + 1 (R319); the pages are stopped or running by ENABLE (R325). -/
def dwyStart (s : State) : State :=
  forEach (List.range 250) (fun u a => ((u.setStnGen a (u.stnGen a + 1)).setStnRt a {})) s

/-- STATE and ST_STATE of a page follow ENABLE (R325). -/
def stnEnable (s : State) (a : Nat) : State :=
  let s1 := if s.isFenced (pgSTN a) then s else s.setSt (pgSTN a) (if s.stnEn a then 3 else 2)
  if s.stnEn a then (if s.stState a = 0 then s1.setStState a 1 else s1)
  else if s.stState a = 0 then s1 else (s1.stnLeave a 17).setStState a 0

/-- A page is fenced: LEAVE with reason 18 (R318). -/
def stnFence (s : State) (a : Nat) : State := s.stnLeave a 18

/-- Page `a` after a commit, `old` the state before it. -/
def stnApplied (s old : State) (a : Nat) : State :=
  let s1 := (s.put (pgSTN a) STN.LENS.IN_LEN (s.stnLen a false)).put (pgSTN a) STN.LENS.OUT_LEN (s.stnLen a true)
  let s2 := s1.stnEnable a
  if s2.stnHeld a && old.stnKey a != s2.stnKey a then s2.stnLeave a 16 else s2

/-- The station pages of a loaded image: STATE and ST_STATE follow ENABLE, LENS the maps (R325). -/
def stnsLoaded (s : State) (old : State) (pages : List Nat) : State :=
  forEach ((List.range 250).filter (fun a => pages.contains (pgSTN a) && old.pageOn (pgSTN a))) (fun u a => u.stnApplied old a) s

/-- A task's timing has changed: its stations are bound anew (R318, R127). -/
def dwyTaskChanged (s : State) (k : Nat) : State :=
  (forEach ((List.range 250).filter (fun a => s.stnHeld a && s.stnTask a == k)) (fun u a => u.stnLeave a 16) s).dwyCapacity

/-- The first value of a station page that R325 rejects. -/
def stnReject (s : State) (a : Nat) : Option Nat :=
  let pg := pgSTN a
  let hold := s.get pg STN.HOLD.HOLD_T
  let t := s.taskT (s.stnTask a)
  let need := max (2 * t + 3000000) (t + 2 * s.tFast + 2000000)
  let overlap (out : Bool) : Bool := (s.stnMaps a out).any (fun x => (s.stnMaps a out).any (fun y => decide (x < y) &&
    decide (s.mapOfs a x < s.mapOfs a y + s.dirSize (s.mapEntry a y)) &&
    decide (s.mapOfs a y < s.mapOfs a x + s.dirSize (s.mapEntry a x))))
  let all := s.stnMaps a false ++ s.stnMaps a true
  let entries := all.map (s.mapEntry a)
  let typed (v i : Fld) (ok : Nat → Bool) : Bool := !s.on pg v || ok (s.get pg i)
  if !s.stnEn a then none
  else if !s.taskOn (s.stnTask a) ∨ s.get pg STN.CFG.N_MISS = 0 ∨ s.get pg STN.CFG.METHODS = 0 then some 0x040
  else if hold < 5 ∨ 60000 < hold ∨ hold * 1000000 ≤ need then some 0x048
  else if !typed STN.BIND_STAT.VALID STN.BIND_STAT.INDEX (fun i => s.dirType i == 8 && s.dirProdKind i == 4
      && s.dirProdId i == a) then some 0x04C
  else if !typed STN.BIND_READMIT.VALID STN.BIND_READMIT.INDEX (fun i => s.dirType i == 1)
      || (s.on pg STN.CFG.READMIT && !s.on pg STN.BIND_READMIT.VALID) then some 0x050
  else if overlap false || overlap true || decide (1432 < s.stnLen a false) || decide (1432 < s.stnLen a true)
      || !decide entries.Nodup || (s.stnMaps a false).any (fun m => !(s.dirProdKind (s.mapEntry a m) == 4
        && s.dirProdId (s.mapEntry a m) == a)) then some 0x080
  else none

end State

/-! ### The commands -/

/-- ANNOUNCE (R299, R300, R308): the ANNOUNCE period of the duty module begins, ANN_MS after the last. A direction in which no copy of the last
three frames returned opens the ring. -/
def execAnnounce (s : State) : Out :=
  .next (if !s.dwyRuns || !s.duty then s.put pgDWY DWY.STATUS.ANNOUNCING 0
    else if s.clk.ref + 1 < s.dwy.annAt + 100000 * s.get pgDWY DWY.CFG.ANN_MS ∧ s.dwy.annAt ≠ 0 then s
    else
      let d := s.dwy
      let noA := if d.retA then 0 else d.noA + 1
      let noB := if d.retB then 0 else d.noB + 1
      let s1 : State := { s with dwy := { d with
        joins := 0, noA := noA, noB := noB, retA := false, retB := false, trips := (0 :: d.trips).take 16
        annAt := s.clk.ref + 1 } }
      let s2 := if (decide (3 ≤ noA) || decide (3 ≤ noB)) && !s.on pgDWY DWY.STATUS.RING_OPEN then s1.dwyRing true else s1
      let pay := beBytes 0x10 1 ++ beBytes 0x11 1 ++ beBytes (s.get pgDWY DWY.MAX_PAYLOAD.BYTES) 2
        ++ beBytes (s.get pgDWY DWY.CFG.ANN_MS) 2 ++ beBytes (s.get pgDWY DWY.T_RING.MAX_US) 2
        ++ beBytes (Config.mac 2).toNat 6 ++ beBytes s.macB 6 ++ beBytes (s.get pgTIME TIME.STATUS.STN_DOM) 1 ++ [0, 0, 0]
      (s2.useFree.dwySend 1 groupAddr (s2.freeWord.toNat % 256) 255 0 0 0 allOnes pay).put pgDWY DWY.STATUS.ANNOUNCING 1)

/-- ANNOUNCE_RETURN (R308): a copy of the latest ANNOUNCE returns in a direction after `us` µs. -/
def execAnnounceReturn (dir : Bool) (us : BitVec 16) (s : State) : Out :=
  .next (if s.dwyRuns then
      let d := s.dwy
      let la := if dir then us.toNat else d.lastA
      let lb := if dir then d.lastB else us.toNat
      let trips := match d.trips with
        | x :: r => max x us.toNat :: r
        | [] => [us.toNat]
      let d1 := { d with lastA := la, lastB := lb, trips := trips
                         retA := d.retA || dir, retB := d.retB || !dir }
      let s1 := ({ s with dwy := d1 } : State).put pgDWY DWY.T_RING.LAST_US (max la lb)
      let isOpen := s.on pgDWY DWY.STATUS.RING_OPEN
      if isOpen && !(d1.retA && d1.retB) then s1
      else
        let s2 := if isOpen then s1.dwyRing false else s1
        let old := s.get pgDWY DWY.T_RING.MAX_US
        let new := trips.foldl max 0
        let s3 := s2.put pgDWY DWY.T_RING.MAX_US new
        if old < new then s3.dwyWindows else s3
    else s)

/-- JOIN (R300 to R307): a JOIN frame with ACCEPT 0, as received after the duplicate discard. -/
def execJoin (frame : List Byte) (s : State) : Out :=
  let f := parseDwy frame
  .next (if s.dwyRuns then
      (if !f.ok allOnes then s.dwyDiscard 2 f.station
      else if f.type ≠ 2 ∨ f.payload.length ≠ 32 ∨ bitOf f.flags 11 = true then s.dwyDiscard 3 f.station
      else if s.joinOpen then s.joinTake.joinFrame f else s)
    else s)

/-- ACCEPT (R300): a JOIN with ACCEPT 1 confirms the offer of its STATION and GEN; the module sends BIND. -/
def execAccept (frame : List Byte) (s : State) : Out :=
  let f := parseDwy frame
  let a := f.station
  .next (if s.dwyRuns then
      (if !f.ok allOnes then s.dwyDiscard 2 a
      else if f.type ≠ 2 ∨ f.payload.length ≠ 32 ∨ bitOf f.flags 11 = false ∨ 250 ≤ a then s.dwyDiscard 3 a
      else if s.duty && s.stState a == 2 && s.stnMac a == f.num 0 6 && s.stnGen a == f.gen && !s.offerOver a then s.stnBind a
      else s)
    else s)

/-- OFFER_LAPSE (R300): an offer of page `a` has not been accepted within 100 ms. -/
def execOfferLapse (a : Fin 250) (s : State) : Out :=
  .next (if s.stState a.val = 2 ∧ s.offerOver a.val = true then s.stnUnoffer a.val (s.stnIdle a.val) else s)

/-- CYCLE_IN (R311, R312): a CYCLE_IN frame as received after the duplicate discard. -/
def execCycleIn (frame : List Byte) (s : State) : Out :=
  let f := parseDwy frame
  let a := f.station
  .next (if s.dwyRuns then
      (if f.type ≠ 5 ∨ 250 ≤ a then s.dwyDiscard 3 a
      else if f.gen ≠ s.stnGen a then s.dwyDiscard 0 a
      else if s.stnBound a = false ∨ f.sa ≠ s.stnMac a then s.dwyDiscard 3 a
      else
        let r := s.stnRt a
        if !f.ok (if s.stnSafe a then r.seed else allOnes) || decide (f.payload.length < 8) then
          (((s.setStnRt a { r with why := 3 }).setFault (pgSTN a) 19).incMod (pgSTN a) STN.CODE_ERRS).dwyDiscard 2 a
        else match s.inWindow a f.cycle with
          | none => (s.setStnRt a { r with why := if r.why = 3 then 3 else 4 }).dwyDiscard 1 a
          | some next => s.cycleIn a next f)
    else s)

/-- EVALUATE_STATIONS (R313 to R315): a freeze instant of task `k`'s grid; at another instant, or a second time, nothing happens. -/
def execEvaluateStations (k : Fin 32) (s : State) : Out :=
  .next (match s.atFreeze k.val with
    | some (m, t) => s.dwyEvaluateAt k.val m t
    | none => s)

/-- STN_READMIT (R315): master `m` writes READMIT to `STN.CMD` of page `a`. -/
def execStnReadmit (a : Fin 250) (m : Fin 4) (s : State) : Out :=
  .next (s.action (pgSTN a.val) STN.CMD.CODE.off m.val (fun s => s.setStnRt a.val { s.stnRt a.val with cmd := true }))

/-- STN_LEAVE (R325): master `m` writes LEAVE to `STN.CMD` of page `a`. -/
def execStnLeave (a : Fin 250) (m : Fin 4) (s : State) : Out :=
  .next (s.action (pgSTN a.val) STN.CMD.CODE.off m.val (fun s => s.stnLeave a.val 17))

/-- REJOIN (R317): a REJOIN frame. From the last bound MAC with a GEN that matches, and an unchanged configuration, it is
answered with BIND directly; a failing check sends OFFER with the reason; any other is handled as a JOIN. -/
def execRejoin (frame : List Byte) (s : State) : Out :=
  let f := parseDwy frame
  let a := f.station
  .next (if s.dwyRuns then
      (if !f.ok allOnes then s.dwyDiscard 2 a
      else if f.type ≠ 8 ∨ f.payload.length ≠ 32 ∨ 250 ≤ a then s.dwyDiscard 3 a
      else if !s.joinOpen then s
      else
        let s0 := s.joinTake
        let st := s.stState a
        let mine := (s.stnRt a).mac == f.num 0 6 && s.stnEn a && (s.stnRt a).cfg == s.stnKey a
        let lost := (st == 5 || st == 1) && (f.gen + 1) % 256 == s.stnGen a
        let live := s.stnBound a && f.gen == s.stnGen a
        if mine && (lost || live) then
          (if !s.stnMayStart a then s0
          else
            let s1 := if live then s0.stnEnd a (s0.stnIdle a) false else s0
            let d := s1.pickSlot a (f.num 22 2)
            let reason := s1.joinReason a f d
            if reason ≠ 0 then s1.joinRefuse (some a) f reason else (s1.joinReserve a f d).stnBind a)
        else s0.joinFrame f)
    else s)

/-- LEAVE (R318): a LEAVE frame from a station. -/
def execLeave (frame : List Byte) (s : State) : Out :=
  let f := parseDwy frame
  let a := f.station
  .next (if s.dwyRuns then
      (if f.type ≠ 9 ∨ 250 ≤ a then s.dwyDiscard 3 a
      else if f.gen ≠ s.stnGen a then s.dwyDiscard 0 a
      else if s.stnBound a = false ∨ f.sa ≠ s.stnMac a then s.dwyDiscard 3 a
      else if !f.ok allOnes then s.dwyDiscard 2 a
      else
        let reason := f.num 0 1
        ((s.put (pgSTN a) STN.REASON.LEAVE reason).raise (pgSTN a) 0x149 1 [reason]).stnEnd a (s.stnIdle a) false)
    else s)

/-- LINK_CHANGE (R327, R290, R306): the link of a port comes up at a rate or goes down. On the ring ports the ring rate
follows, and with it Droveway's capacity. -/
def execLinkChange (port : Fin 4) (speed : Fin 4) (s : State) : Out :=
  .next (if s.pageOn (pgETH port.val) then
      let s1 := ethLink port.val speed.val s
      if port.val < 2 then s1
      else
        let s2 := s1.putB pgDWY DWY.STATUS.RATE_1G (s1.ringByteNs == 8)
        let ten := s2.get (pgETH 2) ETH.STATUS.SPEED == 1 && s2.get (pgETH 3) ETH.STATUS.SPEED == 1
        if ten then s2.setFault pgDWY 17 else s2.dwyCapacity
    else s)

end Sys2Proof.Machine
end

