-- ==== Sys2Proof/Machine/LpeRun.lean ====
section
/-! DEFINITION. The loop engine as it runs: commits of slots, folds and tables (R158, R169, R170, R192), the commands
that sample slots and folds (R160 to R190), the write instant (R159, R164, R165), RUN (R157) and loop trace (R199 to
R205). -/

namespace Sys2Proof.Machine

/-- What a trace sees of one sample (R200, R202). -/
structure TraceView where
  slot : Nat
  ev : Eval
  w : Word
  /-- Bits of what changed in the sample: ACT_MODE, REGION, PV_BAD from 0 to 1; the fold recorded 0x088. -/
  modeChg : Bool
  regChg : Bool
  pvChg : Bool
  foldChg : Bool

namespace State

/-! ### Output entries (R165) -/

/-- A value written to an output entry reaches the on-board outputs and axes bound to it. -/
def loopOut (s : State) (i : Nat) (v : Word) (q : Quality) : State :=
  ((((s.keepBefore s.e i).imgWriteWord i v q).dioTake i).anaTake i).axTake i

/-- OUT_SAFE with SUBST in the slot's output entry. -/
def loopOutSafe (s : State) (n : Nat) : State :=
  match s.lBind n 0x014 with
  | some i => s.loopOut i (s.lw n 0x068) qSUBST
  | none => s

/-! ### Trace (R199 to R202) -/

def traceRt (s : State) (c : Nat) : TraceRt := Store.get {} s.lpe.trace c
def setTraceRt (s : State) (c : Nat) (r : TraceRt) : State :=
  { s with lpe := { s.lpe with trace := Store.set {} s.lpe.trace c r } }

/-- Node `code` of R200 of a sample whose results stand in `s`. -/
def traceNode (s : State) (t : TraceView) (code : Nat) : Word :=
  match code with
  | 1 => t.ev.v | 2 => t.ev.pv | 3 => t.ev.spw | 4 => t.ev.tgt | 5 => t.ev.e | 6 => t.ev.p | 7 => t.ev.d
  | 8 => s.lw t.slot 0x0C0 | 9 => t.ev.u | 10 => t.ev.x | 11 => t.ev.y | 12 => t.w
  | 13 => (match (s.loopRt t.slot).write with
    | some w => w.value
    | none => s.lw t.slot 0x0D8)
  | 14 => t.ev.h | 15 => t.ev.sched | 16 => t.ev.kp
  | 17 => BitVec.ofNat 32 (s.statEntry t.slot)
  | 18 => BitVec.ofNat 32 t.ev.t
  | _ => 0

def traceCode (s : State) (c q : Nat) : Nat :=
  match q with
  | 0 => s.get pgLPT (LPT.NODES.NODE0 c)
  | 1 => s.get pgLPT (LPT.NODES.NODE1 c)
  | 2 => s.get pgLPT (LPT.NODES.NODE2 c)
  | _ => s.get pgLPT (LPT.NODES.NODE3 c)

def traceState (s : State) (c : Nat) : Nat := s.get pgLPT (LPT.CH_STATUS.STATE c)

/-- NODE of the tested position, as SRC 1 sees it. -/
def traceTested (s : State) (c : Nat) (t : TraceView) : Word :=
  s.traceNode t (s.traceCode c (s.get pgLPT (LPT.TRIG.NODE c)))

/-- The trigger conditions of R202 but for SRC 6; FORCE triggers at the next sample. -/
def traceHit (s : State) (c : Nat) (t : TraceView) : Bool :=
  let r := s.traceRt c
  let cur := s.traceTested c t
  let level := s.reg pgLPT (LPT.LEVEL c).off
  r.forced || (match s.get pgLPT (LPT.TRIG.SRC c) with
    | 1 => (match r.prev with
      | none => false
      | some p =>
        let rise := F32.lt p level && F32.le level cur
        let fall := F32.le level p && F32.lt cur level
        let dir := s.get pgLPT (LPT.TRIG.DIR c)
        (dir != 1 && rise) || (dir != 0 && fall))
    | 2 => t.modeChg
    | 3 => t.foldChg
    | 4 => t.regChg
    | 5 => t.pvChg
    | 7 => s.lb t.slot 0x0B0 13 || s.lb t.slot 0x0B0 12
    | _ => false)

/-- Channel `c`, armed on the slot of a sample at `at_`, triggers because channel XCH has triggered since it was armed, or
is among those that trigger in this sample (SRC 6). -/
def traceFollows (s : State) (c at_ : Nat) (now : List Nat) : Bool :=
  let x := s.get pgLPT (LPT.TRIG.XCH c)
  s.get pgLPT (LPT.TRIG.SRC c) == 6 && (now.contains x || (match (s.traceRt x).trigAt with
    | some ta => decide ((s.traceRt c).armedAt ≤ ta) && decide (ta ≤ at_)
    | none => false))

/-- Write one record of channel `c` (R199). -/
def traceStore (s : State) (c : Nat) (t : TraceView) : State :=
  let pos := s.get pgLPT (LPT.CH_STATUS.WR_POS c)
  let a := traceBase + c * 0x10000 + pos * 16
  let s1 := forEach [0, 1, 2, 3] (fun u q => u.memWr (a + 4 * q) 4 (s.traceNode t (s.traceCode c q)).toNat) s
  ((s1.put pgLPT (LPT.CH_STATUS.WR_POS c) (pos + 1)).put pgLPT (LPT.CH_STATUS.VALID c)
    (min 4096 (s1.get pgLPT (LPT.CH_STATUS.VALID c) + 1))).incMod pgLPT (LPT.SAMPLES c)

/-- The POST records have been taken: Done, with FIRST and code 0x08D (R201). -/
def traceDone (s : State) (c : Nat) : State :=
  let valid := s.get pgLPT (LPT.CH_STATUS.VALID c)
  let post := 4096 - s.get pgLPT (LPT.TRIG.PRE c)
  (((s.put pgLPT (LPT.CH_STATUS.STATE c) 3).put pgLPT (LPT.FIRST.POS c)
    (s.get pgLPT (LPT.TRIG_POS.POS c) + 4096 - (valid - post) % 4096)).put pgLPT LPT.STATUS.DONE
    (s.get pgLPT LPT.STATUS.DONE ||| 2 ^ c)).raise pgLPT 0x08D 0 [c, valid]

/-- One more record after the trigger. -/
def traceCount (s : State) (c left : Nat) : State :=
  let decim := s.get pgLPT (LPT.CFG.DECIM c)
  let s1 := s.setTraceRt c { s.traceRt c with skip := decim - 1, left := left }
  if left = 0 then s1.traceDone c else s1

/-- Channel `c` sees one sample of its slot; `trig` says that it triggers in it. -/
def traceSample (s : State) (c : Nat) (t : TraceView) (trig : Bool) : State :=
  let s0 := s.setTraceRt c { s.traceRt c with prev := some (s.traceTested c t) }
  let r := s0.traceRt c
  if trig then
    let pos := s.get pgLPT (LPT.CH_STATUS.WR_POS c)
    let post := 4096 - s.get pgLPT (LPT.TRIG.PRE c)
    let s1 := ((((s0.setTraceRt c { r with forced := false, trigAt := some t.ev.t }).put pgLPT (LPT.CH_STATUS.STATE c)
      2).put pgLPT (LPT.TRIG_POS.POS c) pos).put pgLPT (LPT.TRIG_T_LO c) t.ev.t).put pgLPT (LPT.TRIG_T_HI c)
      (t.ev.t / 4294967296)
    ((s1.raise pgLPT 0x08C 0 [c, s.get pgLPT (LPT.TRIG.SRC c), t.slot]).traceStore c t).traceCount c (post - 1)
  else if 0 < r.skip then s0.setTraceRt c { r with skip := r.skip - 1 }
  else if s.traceState c = 2 then (s0.traceStore c t).traceCount c (r.left - 1)
  else (s0.setTraceRt c { r with skip := s.get pgLPT (LPT.CFG.DECIM c) - 1 }).traceStore c t

/-- LPT sees the samples of one instant: first which armed channels trigger, those that follow another among them, then
one record each. -/
def traceAll (s : State) (views : List TraceView) : State :=
  if !s.active pgLPT then s
  else
    let of (c : Nat) : Option TraceView := views.find? (fun v => v.slot == s.get pgLPT (LPT.CFG.SLOT c))
    let armed := (List.range 16).filter (fun c => s.traceState c == 1 && (of c).isSome)
    let at_ := s.e
    let direct := armed.filter (fun c => match of c with
      | some v => s.traceHit c v
      | none => false)
    let more (now : List Nat) : List Nat := armed.filter (fun c => now.contains c || s.traceFollows c at_ now)
    let trig := (List.range 16).foldl (fun now _ => more now) direct
    forEach (List.range 16) (fun u c =>
      match of c with
      | some v => if s.traceState c = 1 ∨ s.traceState c = 2 then u.traceSample c v (trig.contains c) else u
      | none => u) s

/-- A command of a channel takes effect: 1 ARM, 2 FORCE, 3 STOP (R201). -/
def traceCmd (s : State) (c code : Nat) : State :=
  let st := s.traceState c
  let undone (u : State) : State := u.put pgLPT LPT.STATUS.DONE (bits (u.get pgLPT LPT.STATUS.DONE) 15 0 &&& (65535 - 2 ^ c))
  match code with
  | 1 => undone (((((s.setTraceRt c { armedAt := s.e, trigAt := (s.traceRt c).trigAt, cmds := (s.traceRt c).cmds }).put pgLPT (LPT.CH_STATUS.STATE c)
      1).put pgLPT (LPT.CH_STATUS.WR_POS c) 0).put pgLPT (LPT.CH_STATUS.VALID c) 0).put pgLPT (LPT.SAMPLES c) 0)
  | 2 => if st = 1 then s.setTraceRt c { s.traceRt c with forced := true } else s
  | 3 => if st = 1 ∨ st = 2 then
        (s.put pgLPT (LPT.CH_STATUS.STATE c) 4).put pgLPT (LPT.FIRST.POS c)
          (s.get pgLPT (LPT.CH_STATUS.WR_POS c) + 4096 - s.get pgLPT (LPT.CH_STATUS.VALID c))
      else s
  | _ => s

/-- A loop base tick: the stored commands take effect, if LPT runs. -/
def traceTick (s : State) : State :=
  if !s.active pgLPT then s
  else forEach (List.range 16) (fun u c =>
    let r := u.traceRt c
    (r.cmds.foldl (fun v code => v.traceCmd c code) u).setTraceRt c
      { (r.cmds.foldl (fun v code => v.traceCmd c code) u).traceRt c with cmds := [] }) s

/-- A commit of a channel's configuration returns it to Idle and discards its content (R201). -/
def traceIdle (s : State) (c : Nat) : State :=
  ((((s.setTraceRt c { trigAt := (s.traceRt c).trigAt, cmds := (s.traceRt c).cmds }).put pgLPT (LPT.CH_STATUS.STATE c) 0).put pgLPT
    (LPT.CH_STATUS.VALID c) 0).put pgLPT LPT.STATUS.DONE (bits (s.get pgLPT LPT.STATUS.DONE) 15 0 &&& (65535 - 2 ^ c)))

/-- A node code that R200 names and whose format is f32. -/
def traceF32 (code : Nat) : Bool := decide (1 ≤ code) && decide (code ≤ 16)

/-- The first field that R205 rejects: its offset. -/
def lptReject (s : State) : Option Nat :=
  (List.range 16).findSome? (fun c =>
    let src := s.get pgLPT (LPT.TRIG.SRC c)
    if s.get pgLPT (LPT.CFG.DECIM c) = 0 then some (LPT.CFG.DECIM c).off
    else if (List.range 4).any (fun q => decide (18 < s.traceCode c q)) then some (LPT.NODES.NODE0 c).off
    else if 8 ≤ src ∨ s.get pgLPT (LPT.TRIG.DIR c) = 3 then some (LPT.TRIG.SRC c).off
    else if src = 1 ∧ traceF32 (s.traceCode c (s.get pgLPT (LPT.TRIG.NODE c))) = false then some (LPT.TRIG.SRC c).off
    else if src = 6 ∧ s.get pgLPT (LPT.TRIG.XCH c) = c then some (LPT.TRIG.SRC c).off
    else if F32.finite (s.reg pgLPT (LPT.LEVEL c).off) then none else some (LPT.LEVEL c).off)

/-! ### Commits (R158, R169, R170, R192) -/

def lIsBq (w : Nat) (n : Nat) : Bool := decide (29 ≤ w) && decide (w < 29 + 5 * n)

/-- A coefficient of a section in use, or BQ_N, differs between two records of slot `n`. -/
def bqDiffers (s : State) (n : Nat) (old new : Store Word) : Bool :=
  let bqn (r : Store Word) : Nat := bits (Store.get 0 r (64 * n)).toNat 12 11
  bqn old != bqn new || (List.range 10).any (fun j => lIsBq (29 + j) (s.lBqN n) &&
    Store.get 0 old (64 * n + 29 + j) != Store.get 0 new (64 * n + 29 + j))

/-- The record of slot `n` takes its words from the apply buffer (R169). -/
def lTakeRecord (s : State) (n : Nat) : State :=
  let was := s.lEnabled n
  let old := s.lpe.recs
  let new := (List.range 40).foldl (fun r w => Store.set 0 r (64 * n + w) (Store.get 0 s.lpe.buf (64 * n + w))) old
  let s1 : State := { s with lpe := { s.lpe with recs := new, taking := delNum n s.lpe.taking,
                                                  eccOff := s.lpe.eccOff.filter (fun e => e.1 != n || decide (40 ≤ e.2)) } }
  let now := s1.lEnabled n
  let s2 := if s1.bqDiffers n old new then s1.setLoopRt n { s1.loopRt n with bqNew := true } else s1
  let s3 := if !was && now then
      (forEach [0x0F0, 0x0F4, 0x0F8, 0x0FC] (fun u off => u.setLw n off 0)
        (s2.setLw n 0x0B0 (s2.lw n 0x0B0 ||| 0x4000#32))).setLoopRt n {}
    else if was && !now then (s2.setLoopRt n { s2.loopRt n with write := none }).loopOutSafe n else s2
  s3.ownDegrade pgLPE (!s3.lpe.eccOff.isEmpty)

/-- Once every slot and fold has taken a checked commit, it has taken effect whole (R169). -/
def lTaken (s : State) : State :=
  if s.on pgLPE LPE.STATUS.APPLYING && s.lpe.taking.isEmpty && s.lpe.tabWait.isEmpty && s.lpe.foldWait.isEmpty then
    let s1 := s.put pgLPE LPE.STATUS.APPLYING 0
    if s1.on pgLPE HDR.COMMIT.PENDING then (s1.withBuffer pgLPE (s1.stagedKeys pgLPE s1.buf)).commitDone pgLPE else s1
  else s

/-- Slot `n` takes a checked commit: its record and its region table (R169, R204). -/
def lTake (s : State) (n : Nat) : State :=
  let s1 := if s.lpe.taking.contains n then s.lTakeRecord n else s
  ({ s1 with lpe := { s1.lpe with tabWait := delNum n s1.lpe.tabWait } } : State).lTaken

/-- The keys of the Staged words of fold `f`. -/
def foldKeys (f : Nat) : List Nat :=
  [LPE.FOLD_CFG.ENABLE.off, LPE.FOLD_OUT.INDEX.off, LPE.FOLD_SAFE.off].map (fun off => regKey pgLPE off f)

/-- Fold `f` takes its words of a checked commit (R192). -/
def foldTake (s : State) (f : Nat) : State :=
  if s.lpe.foldWait.contains f then
    let s1 := s.withBuffer pgLPE (foldKeys f)
    ({ s1 with lpe := { s1.lpe with foldWait := delNum f s1.lpe.foldWait } } : State).lTaken
  else s

/-- Every slot and fold takes the checked commit at once. -/
def lTakeAll (s : State) : State :=
  forEach s.lpe.foldWait (fun u f => u.foldTake f) (forEach (s.lpe.taking ++ s.lpe.tabWait) (fun u n => u.lTake n) s)

/-- GO on LPE: the shadows of the pending slots go to the apply buffer (R169). -/
def lGo (s : State) : State :=
  let words := s.lpe.pend.flatMap (fun n => (List.range 40).map (fun w => 64 * n + w))
  { s with lpe := { s.lpe with
      buf := words.foldl (fun b k => Store.set 0 b k (Store.get 0 s.lpe.shad k)) []
      taking := s.lpe.pend, pend := [] } }

/-- Every shadow of the loop memory is reloaded from its applied value; a commit that waits is cancelled (R71). -/
def lDiscard (s : State) : State :=
  let stay := s.lpe.recs.filter (fun e => decide (e.1 % 64 < 40))
  { s with lpe := { s.lpe with shad := stay, pend := [], taking := [], tabWait := [], foldWait := [], buf := [] } }

/-- abs(A2) < 1 and abs(A1) < 1 + A2, exactly (R170). -/
def stable (a1 a2 : Word) : Bool :=
  match fmt32.toFrac (F32.abs a1).toNat, fmt32.toFrac a2.toNat with
  | some (p, q), some (r, t) => F32.lt (F32.abs a2) F32.one && decide (p * t < (t + r) * q)
  | _, _ => false

/-- The record of slot `n` breaks a condition of R170: the offset of the first word that does. -/
def lReject (s : State) (n : Nat) : Option Nat :=
  let w := s.lw n
  let trig := s.lTrig n
  let k := s.lf n 0x004 17 0
  let arg := s.lf n 0x008 17 0
  let mi := s.lf n 0x00C 17 0
  let f32s := [0x038, 0x03C, 0x040, 0x044, 0x048, 0x04C, 0x050, 0x054, 0x058, 0x05C, 0x060, 0x064, 0x068, 0x06C, 0x070]
    ++ (List.range 10).map (fun j => 0x074 + 4 * j)
  let le (a b : Nat) : Bool := F32.le (w a) (w b)
  let typed (off : Nat) (ok : Nat → Bool) : Bool := match s.lBind n off with
    | some i => ok i
    | none => true
  let mine (i : Nat) : Bool := s.dirProdKind i == 2 && s.dirProdId i == n
  let conds : List (Nat × Bool) := [
    (0x000, trig != 3 && decide (s.lStartMode n ≤ 4) && decide (s.lStopBeh n ≤ 1) && decide (s.lBqN n ≤ 2)),
    (0x004, trig != 0 || (decide (2 ≤ k) && decide (k ≤ 200000))),
    (0x008, if trig = 0 then decide (arg < k) else if trig = 1 then decide (arg ≤ 255) else decide (arg ≤ 32767)),
    (0x00C, trig == 0 || (decide (2 ≤ mi) && decide (mi ≤ 200000))),
    (0x010, (s.lBind n 0x010).isSome && typed 0x010 (fun i => s.dirType i == 10)),
    (0x014, (s.lBind n 0x014).isSome && typed 0x014 (fun i => s.dirType i == 10 && mine i)),
    (0x018, typed 0x018 (fun i => s.dirType i == 10)),
    (0x01C, typed 0x01C (fun i => s.dirType i == 10)),
    (0x020, typed 0x020 (fun i => s.dirType i == 10)),
    (0x024, typed 0x024 (fun i => [2, 3, 4, 6, 7, 8].contains (s.dirType i))),
    (0x028, typed 0x028 (fun i => s.dirType i == 10)),
    (0x02C, typed 0x02C (fun i => s.dirType i == 10)),
    (0x030, typed 0x030 (fun i => s.dirType i == 8 && mine i))]
    ++ f32s.map (fun off => (off, F32.finite (w off)))
    ++ [(0x038, le 0x038 0x03C),
      (0x058, F32.lt (w 0x058) (w 0x05C)),
      (0x068, le 0x058 0x068 && le 0x068 0x05C),
      (0x06C, F32.lt (w 0x06C) (w 0x070))]
    ++ [0x040, 0x050, 0x054, 0x060, 0x064].map (fun off => (off, F32.le F32.zero (w off)))
    ++ (List.range (s.lBqN n)).map (fun j =>
      (0x074 + 20 * j, stable (s.lBq n j 3) (s.lBq n j 4)
        && !F32.eq (s.lG n j) F32.zero && !F32.eq (s.lR n j) F32.zero))
  (conds.find? (fun c => !c.2)).map (fun c => 256 * n + c.1)

/-- What slot `n` adds to the committed load (R158), exact. -/
def lLoadOf (s : State) (n : Nat) : Rat :=
  if s.lEnabled n then 20000 / ((if s.lTrig n = 0 then s.lf n 0x004 17 0 else s.lf n 0x00C 17 0 : Nat) : Rat) else 0

/-- The committed load L of R158. -/
def lLoad (s : State) : Rat := s.lSlots.foldl (fun acc n => acc + s.lLoadOf n) 0

/-- The enabled members of fold `f` in position order. -/
def foldMembers (s : State) (f : Nat) : List Nat :=
  let m := s.lSlots.filter (fun n => s.lFoldEn n && s.lFold n == f)
  (List.range 8).filterMap (fun p => m.find? (fun n => s.lMember n == p))

def foldOn (s : State) (f : Nat) : Bool := s.on pgLPE LPE.FOLD_CFG.ENABLE f
def foldEntry (s : State) (f : Nat) : Nat := s.get pgLPE LPE.FOLD_OUT.INDEX f

/-- The folds one link further on: those with a member whose SP or CAS is the output of `f` (R191). -/
def foldNext (s : State) (f : Nat) : List Nat :=
  (List.range 128).filter (fun g => s.foldOn g && (s.foldMembers g).any (fun n =>
    s.lBind n 0x018 == some (s.foldEntry f) || s.lBind n 0x01C == some (s.foldEntry f)))

/-- A member of fold `f` that is bound to the output of a fold of the chain from `f`, or that starts a chain more than 4
folds deep (R191). -/
def foldChainBad (s : State) (f : Nat) : Option Nat :=
  let l1 := s.foldNext f
  let l2 := l1.flatMap s.foldNext
  let l3 := l2.flatMap s.foldNext
  let chain := (f :: l1 ++ l2 ++ l3).map s.foldEntry
  let back := (s.foldMembers f).find? (fun n => [0x018, 0x01C, 0x020, 0x028, 0x02C].any (fun off =>
    match s.lBind n off with
    | some i => chain.contains i
    | none => false))
  match back with
  | some n => some n
  | none => if (l3.flatMap s.foldNext).isEmpty then none else (s.foldMembers f).head?

/-- R192 for a fold: P0 of the first condition it breaks. -/
def foldReject (s : State) (f : Nat) : Option Nat :=
  let m := s.foldMembers f
  let p0 (x : Nat) : Nat := 0x01000000 + f * 0x10 + x
  match m.head? with
  | none => some (p0 0)
  | some lead =>
    let i := s.foldEntry f
    if s.lMember lead ≠ 0 then some (p0 0)
    else match m.find? (fun n => s.lTrig n != s.lTrig lead || s.lf n 0x004 17 0 != s.lf lead 0x004 17 0
        || s.lf n 0x008 17 0 != s.lf lead 0x008 17 0 || s.lf n 0x00C 17 0 != s.lf lead 0x00C 17 0) with
      | some n => some (256 * n + 0x034)
      | none =>
        if !(s.on pgLPE LPE.FOLD_OUT.VALID f && s.dirType i == 10 && s.dirProdKind i == 2 && s.dirProdId i == lead) then
          some (p0 4)
        else
          let v := s.reg pgLPE LPE.FOLD_SAFE.off f
          if F32.finite v && m.all (fun n => F32.le (s.lw n 0x058) v && F32.le v (s.lw n 0x05C)) then
            (s.foldChainBad f).map (fun n => 256 * n + 0x034)
          else some (p0 8)

/-- R193 for table `t`: the word of the first condition it breaks. -/
def tableReject (s : State) (t : Nat) : Option Nat :=
  let w (k : Nat) : Word := s.reg pgLPE (LPE.REG_W k).off t
  let cnt := bits (w 0).toNat 4 0
  if cnt < 1 ∨ 16 < cnt ∨ bits (w 0).toNat 9 8 = 3 then some 0
  else if !(F32.finite (w 1) && F32.le F32.zero (w 1)) then some 1
  else match ((List.range (cnt - 1)).find? (fun k => !(F32.finite (w (2 + k)) &&
      (k == 0 || F32.lt (w (1 + k)) (w (2 + k)))))) with
    | some k => some (2 + k)
    | none => ((List.range (3 * (cnt - 1))).find? (fun k => !F32.finite (w (17 + k)))).map (fun k => 17 + k)

/-- Slot `n` breaks a condition of R192. -/
def groupReject (s : State) (n : Nat) : Option Nat :=
  let g := 256 * n + 0x034
  let others := s.lSlots.filter (fun m => m != n && s.lFoldEn m && s.lFold m == s.lFold n && s.lMember m == s.lMember n)
  if s.lFoldEn n && (!s.foldOn (s.lFold n) || !others.isEmpty) then some g
  else if s.lb n 0x034 31 then
    let t := s.lf n 0x034 9 0
    match s.tableReject t with
    | some k => some (0x02000000 + t * 0x100 + k * 4)
    | none => if bits (s.regW n 0).toNat 9 8 = 2 ∧ (s.lBind n 0x02C).isNone = true then some g else none
  else none

/-- The check of a commit of LPE. `s` holds the configuration as it would be applied, `old` the one in effect, and `slots` are
the slots of the buffer: P0 of the first value that R158, R170 or R192 rejects. -/
def lpeReject (s old : State) (slots : List Nat) : Option Nat :=
  match slots.findSome? s.lReject with
  | some p => some p
  | none =>
    match s.lSlots.findSome? s.groupReject with
    | some p => some p
    | none =>
      match ((List.range 128).filter s.foldOn).findSome? s.foldReject with
      | some p => some p
      | none =>
        if s.lLoad ≤ 8000000 then none
        else match (slots.filter (fun n => decide (old.lLoadOf n < s.lLoadOf n))).reverse.head? with
          | some n => some (256 * n + (if s.lTrig n = 0 then 0x004 else 0x00C))
          | none => some 0

/-- The configuration as it would be applied: all slots of the buffer taken (R169). -/
def lCandidate (s : State) : State :=
  let words := s.lpe.taking.flatMap (fun n => (List.range 40).map (fun w => 64 * n + w))
  { s with lpe := { s.lpe with recs := words.foldl (fun r k => Store.set 0 r k (Store.get 0 s.lpe.buf k)) s.lpe.recs } }

/-! ### Samples -/

/-- An uncorrectable error in word `w` of slot `n` (R166). -/
def memEcc (s : State) (n w : Nat) : State :=
  if s.lpe.eccOff.contains (n, w) then s
  else
  let s1 := (((s.setFault pgLPE 19).raise pgLPE 0x086 0 [n, 4 * w]).setLw n 0x0D8 (s.lw n 0x068)).setLw n 0x0B0
    (BitVec.ofNat 32 (putBits (putBits (s.lw n 0x0B0).toNat 31 29 0) 11 11 1))
  let s2 := if s.lActMode n = 0 then s1 else s1.raise pgLPE 0x080 0 [n, s.lActMode n, 0]
  let s3 : State := { s2 with lpe := { s2.lpe with eccOff := (n, w) :: s2.lpe.eccOff } }
  ((s3.setLoopRt n { s3.loopRt n with write := none }).loopOutSafe n).ownDegrade pgLPE true

/-- What the engine's access to the record meets: the state after it, and whether the sample goes on, a slot that was Off for an
error before as an Off slot. -/
def lAccess (s : State) (n : Nat) (ecc : Ecc) : State × Bool :=
  match ecc with
  | .good => (s, true)
  | .corrected => ((s.incMod pgLPE LPE.ECC_CORR).tallyAdd 118 1, true)
  | .uncorrectable w => (s.memEcc n w.val, s.lEccOff n)

/-- Samples due in this loop base tick, for PEAK_TICK (R158). -/
def lDue (s : State) (k : Nat) : State :=
  let t := s.e / 50000
  let n := if s.lpe.dueTick = t then s.lpe.due + k else k
  ({ s with lpe := { s.lpe with dueTick := t, due := n } } : State).put pgLPE LPE.PEAK_TICK.COUNT
    (min 65535 (max n (s.get pgLPE LPE.PEAK_TICK.COUNT)))

/-- A sample of slot `n` is due at this instant: a loop base tick LT with LT mod K = PHASE (R160); the instant of its angle
event (R161); a loop base tick, MIN_INT ticks after the previous sample, at which the trigger entry's GEN differs (R162). -/
def lTriggered (s : State) (n : Nat) : Bool :=
  match s.lTrig n with
  | 0 => s.e % 50000 == 0 && (s.e / 50000 % s.lf n 0x004 17 0 == s.lf n 0x008 17 0 || (s.loopRt n).resume)
  | 1 => (s.loopRt n).trig == s.e + 1
  | _ => s.e % 50000 == 0 && s.asBefore.dirGen (s.lf n 0x008 17 0) != s.lf n 0x0E8 11 0 && s.lClear n

/-- A checked commit reaches the slot before its latch (R169). -/
def lTakeDue (s : State) (n : Nat) : State :=
  if s.on pgLPE LPE.STATUS.APPLYING && (s.lpe.taking.contains n || s.lpe.tabWait.contains n) then s.lTake n else s

def traceViewOf (s u : State) (n : Nat) (ev : Eval) (w : Word) (foldChg : Bool) : TraceView :=
  { slot := n, ev := ev, w := w, modeChg := s.lActMode n != u.lActMode n, regChg := s.lRegion n != u.lRegion n
    pvChg := !s.lb n 0x0B0 18 && u.lb n 0x0B0 18, foldChg := foldChg }

/-- One sample of a slot outside every fold. -/
def loopSample (s : State) (n : Nat) : State :=
  let ev := s.asBefore.evalTo7 n
  let u := s.finishSample n ev ev.y true false
  let v : State := { u with freeUses := u.freeUses + 2 }
  (v.lDue 1).traceAll [traceViewOf s v n ev ev.y false]

/-! ### Folds (R186 to R190) -/

/-- A member of a fold sample: its position, slot, results and class: 0 excluded, 1 competing, 2 commanding. -/
structure FoldMember where
  pos : Nat
  slot : Nat
  ev : Eval
  cls : Nat

/-- The class of R187. -/
def foldClass (ev : Eval) : Nat :=
  if ev.row = 3 ∨ ev.row = 5 ∨ ev.row = 6 then 2
  else if decide (8 ≤ ev.row) && F32.finite ev.y && (ev.trk || F32.finite ev.x) then 1 else 0

/-- `fold_select` of R186: w, the source position (8 for none) and the case. -/
def foldSelect (s : State) (f : Nat) (ms : List FoldMember) : Word × Nat × Nat :=
  let cas := s.get pgLPE LPE.FOLD_SEL.CASE f
  let sel := if cas = 1 ∨ cas = 2 then s.get pgLPE LPE.FOLD_SEL.SOURCE f else 8
  let m := ms.filter (fun x => x.cls == 2)
  let c := ms.filter (fun x => x.cls == 1)
  let high := s.on pgLPE LPE.FOLD_CFG.SELECT f
  let better (a b : Word) : Bool := if high then F32.lt b a else F32.lt a b
  let yOf (p : Nat) : Word := match ms.find? (fun x => x.pos == p) with
    | some x => x.ev.y
    | none => 0
  match m with
  | x :: _ =>
    let src := if m.any (fun y => y.pos == sel) then sel else x.pos
    (yOf src, src, 2)
  | [] =>
    match c with
    | x :: _ =>
      let start := if c.any (fun y => y.pos == sel) then sel else x.pos
      let best := c.foldl (fun b y => if better y.ev.y (yOf b) then y.pos else b) start
      (yOf best, best, 1)
    | [] =>
      if ms.all (fun x => x.ev.mode == 0) then (s.reg pgLPE LPE.FOLD_SAFE.off f, 8, 3)
      else (s.reg pgLPE LPE.FOLD_W.off f, 8, 4)

/-- One fold sample of the members `ns`, in position order. -/
def foldSample (s : State) (f : Nat) (ns : List Nat) : State :=
  let ms : List FoldMember := (List.zip (List.range ns.length) ns).map (fun jn =>
    let ev := ({ s.asBefore with freeUses := s.freeUses + 2 * jn.1 } : State).evalTo7 jn.2
    { pos := s.lMember jn.2, slot := jn.2, ev := ev, cls := foldClass ev })
  let (w, src, cas) := s.foldSelect f ms
  let u := ms.foldl (fun u x => u.finishSample x.slot x.ev w (x.pos == src) (x.cls == 1)) s
  let u1 : State := { u with freeUses := u.freeUses + 2 * ns.length }
  let oldCase := s.get pgLPE LPE.FOLD_SEL.CASE f
  let oldPos := if oldCase = 1 ∨ oldCase = 2 then s.get pgLPE LPE.FOLD_SEL.SOURCE f else 8
  let chg := oldCase != cas || oldPos != src
  let u2 := if chg then (u1.incMod pgLPE LPE.FOLD_CHG 1 f).raise pgLPE 0x088 cas [f, oldPos, src] else u1
  let mask (k : Nat) : Nat := ((ms.filter (fun x => x.cls == k)).map (fun x => 2 ^ x.pos)).foldl (· + ·) 0
  let u3 := ((((u2.put pgLPE LPE.FOLD_SEL.CASE cas f).put pgLPE LPE.FOLD_SEL.SOURCE (src % 8) f).put pgLPE
    LPE.FOLD_SEL.COMPETE (mask 1) f).put pgLPE LPE.FOLD_SEL.COMMAND (mask 2) f).setReg pgLPE LPE.FOLD_W.off w f
  let unc : Bool := match ms.find? (fun x => x.pos == src) with
    | some x => (match (u3.loopRt x.slot).write with
      | some wr => bitOf wr.qual 1
      | none => false)
    | none => false
  let q : Quality := if cas == 3 then qSUBST else if cas == 4 || unc then qUNCERTAIN else 0
  let u4 : State := { u3 with lpe := { u3.lpe with folds := Store.set none u3.lpe.folds f (some { value := w, qual := q, at_ := (s.e / 50000 + 1) * 50000 }) } }
  (u4.lDue ns.length).traceAll (ms.map (fun x => traceViewOf s u4 x.slot x.ev w chg))

/-! ### The write instant -/

/-- Each task that froze in the `delay` ns before now and consumes entry `i` has lost determinism (R159). -/
def lateTasks (s : State) (i delay : Nat) : State :=
  let mask := (List.range 32).filter (fun k =>
    let f := Store.get 0 s.frozeAt k
    bitOf (s.dirConsumers i) k && decide (0 < f) && decide (s.e < f - 1 + delay))
  s.put pgSEQ SEQ.DET_LAPSED (mask.foldl (fun acc k => acc ||| 2 ^ k) (s.get pgSEQ SEQ.DET_LAPSED))

/-- How long after its write instant the pending value of slot `n` stands, in ns (R164). -/
def loopDelay (s : State) (n : Nat) : Nat :=
  match (s.loopRt n).write with
  | some w => s.e - w.at_
  | none => 0

/-- The pending value of slot `n` is written, with its STAT entry, at its write instant or late after it (R159, R164, R168). -/
def loopWriteOut (s : State) (n due : Nat) : State :=
  match (s.loopRt n).write with
  | none => s
  | some w =>
    if s.e < w.at_ then s
    else
    let delay := s.e - w.at_
    let s0 := s.setLoopRt n { s.loopRt n with write := none }
    let late := decide (0 < delay)
    let s1 := s0.setLw n 0x0B0 (BitVec.ofNat 32 (putBits (s0.lw n 0x0B0).toNat 12 12 (b2n late)))
    let q := if late then w.qual ||| qUNCERTAIN else w.qual
    let out := s.lBind n 0x014
    let s2 := match out with
      | some i => s1.loopOut i w.value q
      | none => s1
    let s3 := match s.lBind n 0x030 with
      | some i => s2.imgWrite i (putBits w.stat 7 7 (b2n late)) 0
      | none => s2
    if late then
      let s4 := (((((s3.lCount n 0x0FC).incMod pgLPE LPE.LATE_COUNT).put pgLPE LPE.LAST_LATE.SLOT n).put pgLPE
        LPE.LAST_LATE.DELAY (min 65535 (delay / 10))).setFault pgLPE 16).raise pgLPE 0x083 0 [n, delay, due]
      match out with
      | some i => s4.lateTasks i delay
      | none => s4
    else s3

/-- The pending output of fold `f` is written (R184, R190). -/
def foldWriteOut (s : State) (f : Nat) : State :=
  match Store.get none s.lpe.folds f with
  | none => s
  | some w =>
    if s.e < w.at_ then s
    else
    let delay := s.e - w.at_
    let i := s.foldEntry f
    let late := decide (0 < delay)
    let s1 : State := { s with lpe := { s.lpe with folds := Store.set none s.lpe.folds f none } }
    let s2 := s1.loopOut i w.value (if late then w.qual ||| qUNCERTAIN else w.qual)
    if late then s2.lateTasks i delay else s2

/-! ### RUN and Run entry -/

/-- RUN = 1 (R157): every enabled slot gets INIT. -/
def lpeRun (s : State) : State :=
  if s.on pgLPE HDR.CTRL.RUN then s
  else (forEach s.lSlots (fun u n => u.setLw n 0x0B0 (u.lw n 0x0B0 ||| 0x4000#32))
    ((s.put pgLPE HDR.CTRL.RUN 1).refreshState pgLPE)).raise pgLPE 0x087 0 [1]

/-- RUN = 0 (R157): OUT_SAFE with SUBST in every enabled slot's output entry; slot state is kept. -/
def lpeHalt (s : State) : State :=
  if s.on pgLPE HDR.CTRL.RUN then
    (forEach s.lSlots (fun u n => (u.setLoopRt n { u.loopRt n with write := none }).loopOutSafe n)
      (({ s with lpe := { s.lpe with folds := [] } } : State).put pgLPE HDR.CTRL.RUN 0)).refreshState pgLPE
      |>.raise pgLPE 0x087 0 [0]
  else s

/-- At T_run the requested mode becomes START_MODE (R177), and the next control sample is to soft-start (R179). -/
def loopRunEntry (s : State) : State :=
  forEach s.lSlots (fun t n =>
    let u := t.setLoopRt n { t.loopRt n with soft := true }
    if u.lModeSrc n then
      let gen := match u.lBind n 0x024 with
        | some i => u.dirGen i
        | none => 0
      u.setLw n 0x0E8 (BitVec.ofNat 32 (putBits (putBits (u.lw n 0x0E8).toNat 27 16 gen) 31 31 0))
    else u.setLw n 0x0A0 (BitVec.ofNat 32 (u.lStartMode n))) s

/-- The writable bits of record word `w` (R167). -/
def lMask (w : Nat) : Word :=
  if w = 0 then 0xFFFFF800#32
  else if w = 1 ∨ w = 2 ∨ w = 3 then 0x3FFFF#32
  else if w ≤ 12 then 0x80007FFF#32
  else if w = 13 then 0xC77F03FF#32
  else if w = 39 then 0xFF#32
  else if w = 40 then 7#32
  else if w = 44 then 0xFC7FFCFF#32
  else if w = 58 then 0x8FFF0FFF#32
  else if w = 43 ∨ 59 ≤ w then 0#32
  else 0xFFFFFFFF#32

/-- LPE samples and writes: it runs, no sequence runs (R29), and the module is not a standby (R381). -/
def lpeSamples (s : State) : Bool :=
  s.active pgLPE && s.pageOn pgLPE && !s.inSequence && s.get pgPAIR PAIR.STATUS.ROLE != 2

end State

/-! ### The commands -/

/-- LPE_RUN_ON (R157): master `m` writes `LPE.CTRL.RUN` = 1. -/
def execLpeRunOn (m : Fin 4) (s : State) : Out := .next (s.action pgLPE 0x00C m.val (fun s => s.lpeRun))

/-- LPE_RUN_OFF (R157): master `m` writes `LPE.CTRL.RUN` = 0. -/
def execLpeRunOff (m : Fin 4) (s : State) : Out := .next (s.action pgLPE 0x00C m.val (fun s => s.lpeHalt))

/-- LOOP_SAMPLE (R172): slot `n` outside every fold reaches its sample instant; `ecc` is what the read of its record
meets. -/
def execLoopSample (n : Fin 1024) (ecc : Ecc) (s : State) : Out :=
  .next (if s.lpeSamples then
      if s.lEnabled n.val && !s.lFoldEn n.val && s.lTriggered n.val then
        let s1 := s.lTakeDue n.val
        if s1.lEnabled n.val && !s1.lFoldEn n.val then
          (match s1.lAccess n.val ecc with
          | (s2, true) => s2.loopSample n.val
          | (s2, false) => s2)
        else s1
      else s
    else s)

/-- SLOT_COMMIT_TIMEOUT (R169): a slot that is disabled, Off, or angle- or image-triggered takes a checked commit 1 s of
station time after the check; a fold takes its words with its lead member. -/
def execSlotCommitTimeout (n : Fin 1024) (s : State) : Out :=
  .next (if s.active pgLPE && s.pageOn pgLPE && decide (s.lpe.checked + 1000000000 ≤ s.e)
        && (!s.lEnabled n.val || s.lActMode n.val == 0 || s.lTrig n.val != 0) then
      (if s.lFoldEn n.val && (s.foldMembers (s.lFold n.val)).head? == some n.val then
        (s.lTakeDue n.val).foldTake (s.lFold n.val)
      else s.lTakeDue n.val)
    else s)

/-- LOOP_OUTPUT_WRITE (R164, R159): slot `n`, or the whole fold of which it is a member, writes its output at the write instant,
or, where the evaluation ends after it, late; `due` samples were due at its tick. -/
def execLoopOutputWrite (n : Fin 1024) (delay : BitVec 64) (due : BitVec 16) (s : State) : Out :=
  .next (if s.lpeSamples && delay == BitVec.ofNat 64 (s.loopDelay n.val) then
      (if s.lFoldEn n.val then
        (forEach (s.foldMembers (s.lFold n.val)) (fun u k => u.loopWriteOut k due.toNat) s).foldWriteOut (s.lFold n.val)
      else s.loopWriteOut n.val due.toNat)
    else s)

/-- A 32-bit write to word `w` of the record of slot `n` (R166). -/
def State.recordWrite (s : State) (n w : Nat) (v : Word) (ecc : Ecc) : State :=
  if s.pageOn pgLPE then
    let k := 64 * n + w
    let val := v &&& State.lMask w
    let s1 : State :=
      if w < 40 then { s with lpe := { s.lpe with shad := Store.set 0 s.lpe.shad k val, pend := insNum n s.lpe.pend } }
      else if w < 43 then s.setLw n (4 * w) val
      else if w < 44 ∨ 60 ≤ w then s
      else if s.st pgLPE = 2 then s.setLw n (4 * w) val
      else if s.lw n (4 * w) = val then s
      else (s.setFault pgLPE 0).raise pgLPE 0x011
    (s1.lAccess n ecc).1
  else if 44 ≤ w ∧ w < 59 then (s.setFault pgLPE 0).raise pgLPE 0x011
  else s

/-- LOOP_RECORD_WRITE (R166): a 32-bit write of `v` to word `w` of the record of slot `n` by a privileged master; `ecc` is
what the write's access to the protected 64-bit word meets. -/
def execLoopRecordWrite (n : Fin 1024) (w : Fin 64) (v : Word) (ecc : Ecc) (s : State) : Out :=
  .next (s.recordWrite n.val w.val v ecc)

/-- The sample instant of the fold's members has come (R185). -/
def State.foldDue (s : State) (f : Nat) : Bool :=
  s.foldOn f && (match (s.foldMembers f).head? with
    | some lead => s.lTriggered lead
    | none => false)

/-- A fold and its members take a checked commit together (R192). -/
def State.foldTakes (s : State) (f : Nat) : State :=
  (forEach (s.foldMembers f) (fun u k => u.lTakeDue k) s).foldTake f

/-- FOLD_SAMPLE (R186): the members of fold `f` reach their sample instant together; `ecc` is what the read of the record
of slot `n` meets. -/
def execFoldSample (f : Fin 128) (n : Fin 1024) (ecc : Ecc) (s : State) : Out :=
  .next (if s.lpeSamples then
      if s.foldDue f.val then
        let s1 := s.foldTakes f.val
        let s2 := if (s1.foldMembers f.val).contains n.val then (s1.lAccess n.val ecc).1 else s1
        let s3 := forEach ((s.foldMembers f.val).filter (fun k => s2.lEnabled k && !s2.lFoldEn k)) (fun u k => u.loopSample k) s2
        if s3.foldOn f.val && !(s3.foldMembers f.val).isEmpty then s3.foldSample f.val (s3.foldMembers f.val) else s3
      else s
    else s)

/-- A command of trace channel `c` waits for the next loop base tick, or for RUN (R201, R205). -/
def State.traceCommand (s : State) (c code : Nat) : State :=
  s.setTraceRt c { s.traceRt c with cmds := (s.traceRt c).cmds ++ [code] }

/-- TRACE_ARM (R201): master `m` writes ARM to `CMD` of channel `c`. -/
def execTraceArm (c : Fin 16) (m : Fin 4) (s : State) : Out :=
  .next (s.action pgLPT (LPT.CMD.CODE c.val).off m.val (fun s => s.traceCommand c.val 1))

/-- ARM_ALL (R201): master `m` writes `LPT.ARM_ALL`. -/
def execArmAll (mask : BitVec 16) (m : Fin 4) (s : State) : Out :=
  .next (s.action pgLPT LPT.ARM_ALL.MASK.off m.val (fun s =>
    forEach ((List.range 16).filter (fun c => mask.getLsbD c)) (fun s c => s.traceCommand c 1) s))

/-- TRACE_FORCE (R202): master `m` writes FORCE to `CMD` of channel `c`. -/
def execTraceForce (c : Fin 16) (m : Fin 4) (s : State) : Out :=
  .next (s.action pgLPT (LPT.CMD.CODE c.val).off m.val (fun s => s.traceCommand c.val 2))

/-- TRACE_STOP (R201): master `m` writes STOP to `CMD` of channel `c`. -/
def execTraceStop (c : Fin 16) (m : Fin 4) (s : State) : Out :=
  .next (s.action pgLPT (LPT.CMD.CODE c.val).off m.val (fun s => s.traceCommand c.val 3))

end Sys2Proof.Machine
end

