-- ==== Sys2Proof/Machine/SeqBase.lean ====
section
/-! DEFINITION. What SEQ, TMR and PLACE share: the mode (R100), cells as words (R129), abandoned cycles (R93), shed tasks
(R99), the end of Run (R104). -/

namespace Sys2Proof.Machine
namespace State

/-! ### Tasks -/

def allTasks : List Nat := List.range 32
def tasksOn (s : State) : List Nat := allTasks.filter (fun k => s.taskOn k)
def taskRed (s : State) (k : Nat) : Bool := s.on pgSEQ (SEQ.ATTR.REDUNDANT k)
def taskSd (s : State) (k : Nat) : Bool := s.on pgSEQ (SEQ.ATTR.SHUTDOWN k)
def taskSheddable (s : State) (k : Nat) : Bool := s.on pgSEQ (SEQ.ATTR.SHEDDABLE k)
def taskPrio (s : State) (k : Nat) : Nat := s.get pgSEQ (SEQ.ATTR.PRIO k)
def redTasks (s : State) : List Nat := s.tasksOn.filter (fun k => s.taskRed k)

/-- Bit k of a mask register of SEQ or PLACE. -/
def maskBit (s : State) (page : Nat) (f : Fld) (k : Nat) : Bool := bitOf (s.get page f) k
def setMaskBit (s : State) (page : Nat) (f : Fld) (k : Nat) (b : Bool) : State := s.putB page ⟨f.off, k, k⟩ b

def taskShed (s : State) (k : Nat) : Bool := s.maskBit pgSEQ SEQ.SHED k
def taskHeld (s : State) (k : Nat) : Bool := s.maskBit pgSEQ SEQ.HELD k
def lapsed (s : State) (k : Nat) : State := s.setMaskBit pgSEQ SEQ.DET_LAPSED k true

/-- A task as the loaded image declares it. -/
def imgTask (s : State) (k : Nat) : ImageTask :=
  match s.seq.image with
  | some im => (im.tasks.find? (fun t => t.task.val == k)).getD { task := 0 }
  | none => { task := 0 }

/-- Directory entries with a listed word: an entry of which nothing is listed is free (R144). -/
def dirListed (s : State) : List Nat :=
  ((s.mem.filter (fun e => decide (dirBase ≤ e.1) && decide (e.1 < dirBase + 524288))).map
    (fun e => (e.1 - dirBase) / 16)).dedup

/-- Entries that a task produces, ascending. -/
def producedBy (s : State) (k : Nat) : List Nat :=
  s.dirListed.filter (fun i => s.dirType i != 0 && s.dirProdKind i == 3 && s.dirProdId i == k)

/-- Entries in a task's frozen image, ascending. -/
def consumedBy (s : State) (k : Nat) : List Nat :=
  s.dirListed.filter (fun i => s.dirType i != 0 && bitOf (s.dirConsumers i) k)

/-- The frozen image of a task at its freeze instant `at_` (R91, R92, R145). -/
def freezeImage (s : State) (k at_ : Nat) : List (Nat × Nat × Nat) :=
  (s.consumedBy k).map (fun i => let o := s.imgBefore i at_; (i, o.val, o.w3))

/-! ### Cells (R129) -/

def cellW (s : State) (c w : Nat) : Nat := (s.reg pgTMR (0x044 + 4 * w) c).toNat
def setCellW (s : State) (c w v : Nat) : State := s.setReg pgTMR (0x044 + 4 * w) (BitVec.ofNat 32 v) c
def cellF (s : State) (c hi lo : Nat) : Nat := bits (s.cellW c 0) hi lo
def cellB (s : State) (c b : Nat) : Bool := bitOf (s.cellW c 0) b
def setCellF (s : State) (c hi lo v : Nat) : State := s.setCellW c 0 (putBits (s.cellW c 0) hi lo v)
def setCellB (s : State) (c b : Nat) (v : Bool) : State := s.setCellF c b b (b2n v)
def cellType (s : State) (c : Nat) : Nat := s.cellF c 31 28
def cellTask (s : State) (c : Nat) : Nat := s.cellF c 27 23
def cellRetain (s : State) (c : Nat) : Bool := s.cellB c 22

/-- The 64-bit number in words `w` and `w + 1`. -/
def cell64 (s : State) (c w : Nat) : Nat := s.cellW c w + s.cellW c (w + 1) * 4294967296
def setCell64 (s : State) (c w v : Nat) : State := (s.setCellW c w v).setCellW c (w + 1) (v / 4294967296)

def cellWords (s : State) (c : Nat) : List Word := (List.range 8).map (fun w => s.reg pgTMR (0x044 + 4 * w) c)
def setCellWords (s : State) (c : Nat) (ws : List Word) : State :=
  forEach (List.range 8) (fun u w => u.setReg pgTMR (0x044 + 4 * w) (ws.getD w 0) c) s

/-- Cells with a listed word 0, ascending: every other cell is free. -/
def cellsUsed (s : State) : List Nat :=
  ((s.regs.filter (fun e => keyPage e.1 == pgTMR && keyOff e.1 == 0x044)).map (fun e => keyIdx e.1)).dedup.filter
    (fun c => decide (c < 4096) && s.cellType c != 0)

/-- A retentive cell is kept in tier 3 (R117). -/
def cellKeep (s : State) (c : Nat) : State :=
  if s.cellRetain c then { s with seq := { s.seq with kept := Store.set [] s.seq.kept c (s.cellWords c) } } else s

/-- The reset of a cell (R117): Q, RUN, both memories, START, ET and CV are 0, a FAST base is its running count, INIT of an
edge cell is 1. -/
def cellReset (s : State) (c : Nat) : State :=
  let ty := s.cellType c
  let s1 := s.setCellF c 19 16 0
  let s2 := if ty = 7 then s1.setCell64 c 6 (s1.cell64 c 4) else s1.setCell64 c 4 0
  let s3 := if ty ≤ 3 then s2.setCell64 c 6 0 else s2
  if ty = 8 ∨ ty = 9 then s3.setCellB c 20 true else s3

/-! ### Abandoned and lost cycles (R93, R150) -/

/-- The cells that the cycle has called stand again as before it; a FAST cell has counted on meanwhile (R116). -/
def cellsBack (s : State) (c : TaskCycle) : State :=
  c.cells.foldl (fun u e =>
    let now := u.cellWords e.1
    let ws := if u.cellType e.1 = 7 then (e.2.take 4) ++ (now.drop 4).take 2 ++ e.2.drop 6 else e.2
    (u.setCellWords e.1 ws).cellKeep e.1) s

/-- The cycle of task `k` is abandoned: state, outputs and cells stand as last published (R93). -/
def abandon (s : State) (k : Nat) : State :=
  match (s.task k).cur with
  | none => s
  | some c => (s.cellsBack c).setTask k { s.task k with cur := none }

/-- A cycle lost by the fence of its pair ends (R150): DET_LAPSED and code 0x059. -/
def loseCycle (s : State) (k : Nat) : State :=
  match (s.task k).cur with
  | none => s
  | some c => (((s.abandon k).lapsed k).raise pgPLACE 0x059 0 [k, cycleNo c.m, c.lost.getD 0])

/-! ### The mode (R100) -/

/-- Running and degraded are one mode. -/
def modeOf (st : Nat) : Nat := if st = 6 then 3 else st

/-- SEQ's STATE follows; a change of mode records 0x040 and TMR follows. -/
def seqRefresh (s : State) : State :=
  let old := s.st pgSEQ
  let s1 := (s.refreshState pgSEQ).refreshState pgTMR
  let new := s1.st pgSEQ
  if modeOf old = modeOf new then s1 else s1.raise pgSEQ 0x040 0 [old, new, s.seq.writer]

/-- SHED_ANY and the degraded state that shed tasks keep (R100). -/
def shedRefresh (s : State) : State :=
  let any := s.get pgSEQ SEQ.SHED != 0
  ((s.putB pgSEQ SEQ.STATUS.SHED_ANY any).ownDegrade pgSEQ any).refreshState pgTMR

/-- STATE and STATUS of PLACE (R131). -/
def placeRefresh (s : State) : State :=
  let cap := s.get pgPLACE PLACE.SHED_CAP != 0
  let full := s.get pgPLACE PLACE.OVERCOMMIT != 0
  ((((s.putB pgPLACE PLACE.STATUS.CAP_SHED cap).putB pgPLACE PLACE.STATUS.SD_UNPLACED (s.seq.unplaced.length != 0)).putB
    pgPLACE PLACE.STATUS.MOVING (s.seq.tasks.any (fun e => e.2.goal.isSome))).ownDegrade pgPLACE (cap || full))

/-- A core pair whose RUN is 0 is stopped once it hosts no task (R496). -/
def pairsRefresh (s : State) : State :=
  forEach (List.range 4) (fun u p =>
    if u.pageOn (pgCP p) && (u.st (pgCP p) == 3 || u.st (pgCP p) == 6 || u.st (pgCP p) == 2) then u.refreshState (pgCP p)
    else u) s

/-- A task is shed (R99, R136): its cycle is abandoned, or ends as lost at its P_n (R150), and it freezes no more. Under DEGRADE it leaves its pair and 0x04B is
recorded; for capacity SHED_CAP is set and 0x052 is recorded with the step of R135. -/
def shedTask (s : State) (k : Nat) (cap : Bool) (step : Nat) : State :=
  if s.taskShed k then s
  else
    let s1 := if (s.task k).cur.any (fun c => c.lost.isSome) then s else s.abandon k
    let s2 := (s1.setTask k { s1.task k with host := none, goal := none, fill := false, step := false }).setMaskBit pgSEQ
      SEQ.SHED k true |>.setMaskBit pgPLACE PLACE.OVERCOMMIT k false
    let s3 := if cap then (s2.setMaskBit pgPLACE PLACE.SHED_CAP k true).raise pgPLACE 0x052 0 [k, step]
      else s2.raise pgSEQ 0x04B 0 [k]
    (s3.shedRefresh.placeRefresh.pairsRefresh).syncWatch

/-! ### The end of Run (R104) -/

/-- The search of an exchange ends with a refusal at APPLY: the preparation is kept (R123). -/
def xchgRefuse (s : State) (reason step : Nat) : State :=
  (((s.put pgSEQ SEQ.XCHG_STATUS.REASON reason).put pgSEQ SEQ.XCHG_STATUS.STATE
    (if step = 1 ∧ s.seq.prep.isSome = true then 2 else 5)).setFault pgSEQ 18).raise pgSEQ 0x047 0 [reason, step]

/-- XCHG_ACTIVE (R126). -/
def xchgActive (s : State) : State :=
  let st := s.get pgSEQ SEQ.XCHG_STATUS.STATE
  s.putB pgSEQ SEQ.STATUS.XCHG_ACTIVE (decide (1 ≤ st) && decide (st ≤ 3))

/-- A Stop request, a fence or a switchover during the search (R123 reason 8). -/
def xchgDisturb (s : State) : State :=
  if s.get pgSEQ SEQ.XCHG_STATUS.STATE = 3 then (s.xchgRefuse 8 1).xchgActive else s

/-- SEQ runs from T_run to T_stop. -/
def seqRunning (s : State) (b : Bool) : State := { s with seq := { s.seq with running := b } }

/-- At T_stop STATE is stopped, every on-board output takes its safe value, the stations are held, axes follow STOP_BEH and
loop slots take their stop behaviour (R104, R258, R320). -/
def stopNow (s : State) : State :=
  let s0 := forEach allTasks (fun u k => u.setTask k { u.task k with live := false, step := false, resume := false }) s
  let s1 := s0.seqRunning false
  let s2 := (((s1.put pgSEQ SEQ.STATUS.STOP_PENDING 0).put pgSEQ HDR.CTRL.RUN 0).put pgSEQ SEQ.HELD 0).seqRefresh
  s2.dioSafeAll.anaSafeAll.axStopAll.dwyHold.syncWatch

/-- With no healthy pair SEQ enters Stop at once (R135). -/
def forceStop (s : State) : State :=
  let s1 := (forEach allTasks (fun u k => u.abandon k) s).put pgSEQ SEQ.STATUS.RUN_PENDING 0
  if s1.seq.running then s1.stopNow else s1.put pgSEQ HDR.CTRL.RUN 0

end State
end Sys2Proof.Machine
end

