-- ==== Sys2Proof/Machine/Place.lean ====
section
/-! DEFINITION. PLACE: budgets and the placement test (R132, R133), placement runs (R134 to R138), moves (R139, R140), tier 0
(R142), event routes (R148), determinism lapses (R153), forces and directory writes (R146, R147). -/

namespace Sys2Proof.Machine

def loadAdd (a b : Load) : Load := (a.1 * b.2 + b.1 * a.2, a.2 * b.2)
def loadLt (a b : Load) : Bool := decide (a.1 * b.2 < b.1 * a.2)
/-- A load in per mille, rounded down. -/
def loadPermille (a : Load) : Nat := a.1 * 1000 / a.2

namespace State

/-! ### Quantities (R132, R133), in µs -/

def budgetOf (s : State) (k : Nat) : Nat := (s.imgTask k).budget.toNat
def measOf (s : State) (k : Nat) : Nat := (s.task k).meas.foldl max 0
/-- C_j = max(B_j, M_j). -/
def costOf (s : State) (k : Nat) : Nat := max (s.budgetOf k) (s.measOf k)
def periodUs (s : State) (k : Nat) : Nat := s.taskK k * 250
def pubUs (s : State) (k : Nat) : Nat := s.get pgSEQ (SEQ.PUB.OFS k) * 10
def guardUs (s : State) : Nat := s.get pgPLACE PLACE.GUARD.US

/-- Σ (cost + 2) / T. -/
def loadWith (s : State) (cost : Nat → Nat) (ts : List Nat) : Load :=
  ts.foldl (fun acc k => loadAdd acc (cost k + 2, s.periodUs k)) (0, 1)
def load (s : State) (ts : List Nat) : Load := s.loadWith s.costOf ts

/-- The response-time iteration of R133; `fuel` bounds its steps, of which each adds at least 1 µs below the limit. -/
def responseFrom (s : State) (j : Nat) (hp : List Nat) : Nat → Nat → Nat
  | 0, r => r
  | fuel + 1, r =>
    let next := hp.foldl (fun acc i => acc + (r + s.periodUs i - 1) / s.periodUs i * (s.costOf i + 2)) (s.costOf j + 25)
    if next = r then r else if s.pubUs j < next + s.guardUs then next else s.responseFrom j hp fuel next

/-- R_j among the tasks `ts` of a pair. -/
def response (s : State) (j : Nat) (ts : List Nat) : Nat :=
  s.responseFrom j (ts.filter (fun i => decide (s.taskPrio j < s.taskPrio i))) (s.pubUs j + 2) (s.costOf j + 25)

/-- R_j ≤ O_j − G. -/
def responds (s : State) (ts : List Nat) (j : Nat) : Bool := decide (s.response j ts + s.guardUs ≤ s.pubUs j)

/-- A set of tasks fits on one pair (R133). -/
def fits (s : State) (ts : List Nat) : Bool :=
  let u := s.load ts
  decide (u.1 * 1000 ≤ s.get pgPLACE PLACE.U_LIMIT.PERMILLE * u.2) && ts.all (s.responds ts)

/-! ### Assignments -/

/-- Shut-down-class tasks first, then descending priority (R134). -/
def placeBefore (s : State) (a b : Nat) : Bool :=
  if s.taskSd a != s.taskSd b then s.taskSd a else decide (s.taskPrio b < s.taskPrio a)

def placeInsert (s : State) (k : Nat) : List Nat → List Nat
  | [] => [k]
  | j :: r => if s.placeBefore k j then k :: j :: r else j :: s.placeInsert k r

def placeOrder (s : State) (ts : List Nat) : List Nat := ts.foldl (fun acc k => s.placeInsert k acc) []

/-- The pair among `pairs` with the lowest resulting U of those that pass `ok`; a tie goes to the first. -/
def bestPair (s : State) (ok : List Nat → Bool) (k : Nat) (pairs : List (Nat × List Nat)) : Option Nat :=
  (pairs.foldl (fun (acc : Option (Nat × Load)) e =>
    let ts := e.2 ++ [k]
    if !ok ts then acc
    else match acc with
      | some (_, u) => if loadLt (s.load ts) u then some (e.1, s.load ts) else acc
      | none => some (e.1, s.load ts)) none).map (fun x => x.1)

def planAdd (p k : Nat) (pl : Plan) : Plan :=
  { pl with pairs := pl.pairs.map (fun e => if e.1 = p then (e.1, e.2 ++ [k]) else e), left := pl.left.filter (· != k) }

def planDrop (k step : Nat) (pl : Plan) : Plan :=
  { pl with
    pairs := pl.pairs.map (fun e => (e.1, e.2.filter (· != k)))
    left := pl.left.filter (· != k)
    full := pl.full.filter (· != k)
    overs := pl.overs.filter (· != k)
    shed := pl.shed ++ [(k, step)] }

/-- Try each of `ts` in turn (R134); a task that fits nowhere stays left. -/
def planTry (s : State) (ts : List Nat) (pl : Plan) : Plan :=
  ts.foldl (fun pl k => match s.bestPair s.fits k pl.pairs with
    | some p => planAdd p k pl
    | none => { pl with left := pl.left.filter (· != k) ++ [k] }) pl

/-- Bytes of the shed order of the image (R135): tasks in shed order. -/
def shedOrder (s : State) : List Nat :=
  (List.range 32).filterMap (fun i =>
    let b := bits (s.reg pgPLACE (0x0E0 + 4 * (i / 4))).toNat (8 * (i % 4) + 7) (8 * (i % 4))
    if bitOf b 7 then some (bits b 4 0) else none)

/-- R135 step 1: sheddable tasks are shed one by one until every non-sheddable task is placed. -/
def planShed (s : State) : List Nat → Plan → Plan
  | [], pl => pl
  | k :: r, pl =>
    if pl.left.all (fun j => s.taskSheddable j) then pl
    else s.planShed r (let pl1 := planDrop k 1 pl; s.planTry pl1.left pl1)

/-- R135 step 2: a normal task that still fits nowhere goes over-committed, or is shed. -/
def planOver (s : State) (k : Nat) (pl : Plan) : Plan :=
  let ok (ts : List Nat) : Bool := (ts.filter (fun j => s.taskSd j)).all (s.responds ts)
  match s.bestPair ok k pl.pairs with
  | some p => let pl1 := planAdd p k pl; { pl1 with full := pl1.full ++ [k], overs := pl1.overs ++ [k] }
  | none => planDrop k 2 pl

/-- Pairs in ascending U. -/
def pairInsert (s : State) (e : Nat × List Nat) : List (Nat × List Nat) → List (Nat × List Nat)
  | [] => [e]
  | x :: r => if loadLt (s.load e.2) (s.load x.2) then e :: x :: r else x :: s.pairInsert e r

/-- The normal tasks of a pair in the order of their displacement: over-committed ones first, lowest priority first. -/
def victims (s : State) (full ts : List Nat) : List Nat :=
  let up := (s.placeOrder (ts.filter (fun j => !s.taskSd j))).reverse
  up.filter (fun j => full.contains j) ++ up.filter (fun j => !full.contains j)

/-- Shed `vs` of pair `p` one by one until `k` fits there. -/
def displace (s : State) (p k : Nat) : List Nat → Plan → Plan
  | [], pl => pl
  | v :: r, pl =>
    if s.fits (((pl.pairs.find? (fun e => e.1 == p)).map (fun e => e.2)).getD [] ++ [k]) then pl
    else s.displace p k r (planDrop v 3 pl)

/-- R135 step 3: a shut-down-class task displaces normal tasks; without room it stays left (step 4). -/
def planDisplace (s : State) (k : Nat) (pl : Plan) : Plan :=
  let byLoad := pl.pairs.foldl (fun acc e => s.pairInsert e acc) []
  match byLoad.find? (fun e => s.fits (e.2.filter (fun j => s.taskSd j) ++ [k])) with
  | some (p, ts) =>
    let pl1 := planAdd p k (s.displace p k (s.victims pl.full ts) pl)
    { pl1 with moved := pl1.moved ++ [k] }
  | none => pl

/-- What remains of a plan is settled by R135. -/
def planSettle (s : State) (pl : Plan) : Plan :=
  let pool := s.placeOrder (pl.left ++ pl.pairs.flatMap (fun e => e.2))
  let listed := s.shedOrder.filter (fun k => pool.contains k && s.taskSheddable k)
  let rest := (pool.filter (fun k => s.taskSheddable k && !listed.contains k)).reverse
  let pl0 := { pl with left := s.placeOrder pl.left }
  let pl1 := s.planShed (listed ++ rest) pl0
  let pl2 := (pl1.left.filter (fun k => s.taskSheddable k)).foldl (fun p k => planDrop k 1 p) pl1
  let pl3 := (pl2.left.filter (fun k => !s.taskSd k)).foldl (fun p k => s.planOver k p) pl2
  pl3.left.foldl (fun p k => s.planDisplace k p) pl3

/-! ### Routes (R82, R148) -/

/-- Events of a source wait under a PAIR or a PRIO that its route no longer has. -/
def routeStale (s : State) (src : Nat) : Bool :=
  s.evd.queue.any (fun q => q.src == src && (q.pair != s.get pgEVD EVD.ROUTE_DATA.PAIR src
    || q.prio != s.get pgEVD EVD.ROUTE_DATA.PRIO src))

/-- Held-back events of a source none of which waits under its old route go to its pair, in order (R82). -/
def routeRelease (s : State) (src : Nat) : State :=
  if s.evd.moving.contains src && !s.routeStale src then
    let s1 : State := { s with evd := { s.evd with
        moving := s.evd.moving.filter (· != src)
        heldBack := s.evd.heldBack.filter (fun e => e.1 != src) } }
    (s.evd.heldBack.filter (fun e => e.1 == src)).foldl (fun u e => u.enqueueEvent src e.2 false) s1
  else s

/-- The route of a source has changed, by PLACE or by software: while events of it wait that could be taken beside or after newer
ones, the newer ones are held back (R82). -/
def routeChanged (s : State) (src : Nat) : State :=
  if s.routeStale src then { s with evd := { s.evd with moving := insNum src s.evd.moving } } else s

/-- PLACE points a managed route at a pair. -/
def routeTo (s : State) (src p : Nat) : State :=
  if s.on pgEVD EVD.ROUTE_DATA.MANAGED src && s.get pgEVD EVD.ROUTE_DATA.PAIR src != p then
    (s.put pgEVD EVD.ROUTE_DATA.PAIR p src).routeChanged src
  else s

/-- The sources that task `k` handles. -/
def handledBy (s : State) (k : Nat) : List Nat :=
  match s.seq.image with
  | some im => (im.handlers.filter (fun h => h.2.val == k)).map (fun h => h.1.val)
  | none => []

def routesTo (s : State) (k p : Nat) : State := forEach (s.handledBy k) (fun u src => u.routeTo src p) s

/-- One entry of a fenced pair's queue moves to the pair that now hosts its source; it is dropped where that queue is full (R81,
R82; DESIGN CHOICE, assumption 228). `acc`: the state, the queue so far, the pairs of the entries moved. -/
def entryMove (s : State) (p : Nat) (acc : State × List EvEntry × List Nat) (q : EvEntry) : State × List EvEntry × List Nat :=
  let now := s.get pgEVD EVD.ROUTE_DATA.PAIR q.src
  if q.pair ≠ p ∨ now = p then (acc.1, acc.2.1 ++ [q], acc.2.2)
  else if s.evDepth now + acc.2.2.count now < 256 then
    (acc.1, acc.2.1 ++ [{ q with pair := now, moved := true }], now :: acc.2.2)
  else (acc.1.evDrop now q.src, acc.2.1, acc.2.2)

/-- Untaken events of a fenced pair move to the pairs that now host their sources, in order (R82). -/
def queueMove (s : State) (p : Nat) : State :=
  let r := s.evd.queue.foldl (s.entryMove p) (s, [], [])
  let s1 : State := { r.1 with evd := { r.1.evd with queue := r.2.1 } }
  forEach s1.evd.moving (fun u src => u.routeRelease src) s1

/-! ### Tiers (R139, R141 to R143) -/

/-- Bytes rounded up to whole 64-byte lines, to whole 8-byte words. -/
def lines64 (n : Nat) : Nat := (n + 63) / 64 * 64
def words8 (n : Nat) : Nat := (n + 7) / 8 * 8

/-- First address of tier 1, 2 and 3 that the image leaves to PLACE. -/
def freeBase (s : State) (tier : Nat) : Nat :=
  match s.seq.image with
  | none => 0
  | some im => if tier = 1 then tier1Base + im.free1.toNat else if tier = 2 then dramBase + im.free2.toNat
    else mramRet + im.free3.toNat

/-- Entries in use, ascending, each with the offset of its value behind `freeBase`, and the bytes of them all. DESIGN CHOICE
(assumption 24): values lie in ascending index, each on a word of 8 bytes. -/
def entryOfs (s : State) : List (Nat × Nat) × Nat :=
  (s.dirListed.filter (fun i => s.dirType i != 0)).foldl (fun acc i => (acc.1 ++ [(i, acc.2)], acc.2 + words8 (s.dirSize i))) ([], 0)

/-- Where the data of each task lies when nothing of it is in tier 0 (R141): homes first, in the order of the image, then
frozen-image buffers in tier 1 and working copies, constants and scratch in tier 2 (assumption 24). -/
def layout (s : State) : List (Nat × TaskPlace) :=
  let tasks := (s.seq.image.map (fun im => im.tasks)).getD []
  let n := s.entryOfs.2
  let homes := tasks.foldl (fun (acc : List (Nat × Nat) × Nat × Nat × Nat) t =>
    let size := lines64 t.state.toNat
    let (l, a1, a2, a3) := acc
    if t.retain then (l ++ [(t.task.val, a3)], a1, a2, a3 + size)
    else if s.taskRed t.task.val || decide (a1 + size ≤ tier1Base + 0x780000) then (l ++ [(t.task.val, a1)], a1 + size, a2, a3)
    else (l ++ [(t.task.val, a2)], a1, a2 + size, a3))
    ([], lines64 (s.freeBase 1 + n), lines64 (s.freeBase 2 + n), lines64 (s.freeBase 3 + n))
  let (hs, b1, b2, _) := homes
  (tasks.foldl (fun (acc : List (Nat × TaskPlace) × Nat × Nat) t =>
    let (l, a1, a2) := acc
    let home := ((hs.find? (fun h => h.1 == t.task.val)).map (fun h => h.2)).getD 0
    let c := a2 + lines64 t.state.toNat
    let x := c + lines64 t.consts.length
    (l ++ [(t.task.val, { home := home, wcopy := a2, frozen := a1, consts := c, scratch := x })],
      a1 + lines64 t.frozen.toNat, x + lines64 t.scratch.toNat)) ([], b1, b2)).1

/-- The image's data is laid out, at load and at exchange alone (R130). -/
def layTasks (s : State) : State :=
  s.layout.foldl (fun (u : State) e => u.setTask e.1 { u.task e.1 with place := e.2, inTier0 := [] }) s

/-- Block `j` of task `k` (0 working copy, 1 frozen image, 2 constants, 3 scratch): in tier 0 of its host, or where the layout
has it. -/
def blockAt (s : State) (k j : Nat) : Nat :=
  let t := s.task k
  match t.inTier0.getD j none, t.host with
  | some o, some p => tier0Base p + o
  | _, _ => match j with
    | 0 => t.place.wcopy
    | 1 => t.place.frozen
    | 2 => t.place.consts
    | _ => t.place.scratch

def blockSizes (im : ImageTask) : List Nat := [im.state.toNat, im.frozen.toNat, im.consts.length, im.scratch.toNat]

/-- The working copy of a task is filled from its home, and its constants from the image (R139, R141). -/
def fillTask (s : State) (k : Nat) : State :=
  let im := s.imgTask k
  (s.memCopy (s.blockAt k 0) s.mem (s.task k).place.home im.state.toNat).memPut (s.blockAt k 2) im.consts

/-- Blocks of a task in order, each whole or not at all, within `room` bytes and from offset `at_` on: the bytes taken, and the
offsets. -/
def blocksIn (room at_ : Nat) (blocks : List Nat) : Nat × List (Option Nat) :=
  blocks.foldl (fun acc b => if acc.1 + b ≤ room then (acc.1 + b, acc.2 ++ [some (at_ + acc.1)]) else (acc.1, acc.2 ++ [none])) (0, [])

/-- Tier-0 bytes of the tasks of one pair, in descending priority. -/
def tier0Of (s : State) (p : Nat) : State :=
  let order := s.placeOrder (allTasks.filter (fun k => (s.task k).host == some p))
  let byPrio := order.filter (fun k => s.taskSd k) ++ order.filter (fun k => !s.taskSd k)
  let sorted := byPrio.foldl (fun (acc : List Nat) k =>
    acc.takeWhile (fun j => decide (s.taskPrio k < s.taskPrio j)) ++ k ::
      acc.dropWhile (fun j => decide (s.taskPrio k < s.taskPrio j))) []
  (sorted.foldl (fun (acc : State × Nat) k =>
    let window := 1600 * (acc.1.periodUs k - acc.1.pubUs k - 10)
    let got := blocksIn (min acc.2 window) (983040 - acc.2) (blockSizes (acc.1.imgTask k))
    (acc.1.setTask k { acc.1.task k with tier0 := got.1, inTier0 := got.2 }, acc.2 - got.1)) (s, 983040)).1

/-- The tier that R141 gives the value of an entry, and the pair where that is tier 0. `room`: the bytes left in tier 0 of each
pair. -/
def entryTier (s : State) (room : List Nat) (i : Nat) : Nat × Nat :=
  let hosts := (s.task (s.dirProdId i)).host :: (allTasks.filter (fun k => bitOf (s.dirConsumers i) k)).map (fun k => (s.task k).host)
  let local_ := s.dirProdKind i == 3 && !s.dirBit i 10 && !s.dirBit i 11 && !s.dirBit i 12
  let one := match hosts.headD none with
    | some p => if hosts.all (fun h => h == some p) && decide (words8 (s.dirSize i) ≤ room.getD p 0) then some p else none
    | none => none
  if s.dirBit i 9 then (3, 0)
  else match local_, one with
    | true, some p => (0, p)
    | _, _ => if decide (256 < s.dirSize i) && !s.dirBit i 10 then (2, 0) else (1, 0)

/-- The place of each entry in use: W0, and PAIR of W3 (R141, R146). Tier-0 values lie behind the blocks of the pair's tasks. -/
def entryPlaces (s : State) : List (Nat × Nat × Nat) :=
  let used (p : Nat) : Nat := (s.tasksOn.filter (fun k => (s.task k).host == some p)).foldl (fun acc k => acc + (s.task k).tier0) 0
  let start := (List.range 4).map (fun p => min 983040 (words8 (used p)))
  (s.entryOfs.1.foldl (fun (acc : List (Nat × Nat × Nat) × List Nat) e =>
    let r := s.entryTier (acc.2.map (fun u => 983040 - u)) e.1
    if r.1 = 0 then
      let u := acc.2.getD r.2 0
      (acc.1 ++ [(e.1, u / 4, r.2)], acc.2.set r.2 (u + words8 (s.dirSize e.1)))
    else
      let ofs := s.freeBase r.1 + e.2 - (if r.1 = 1 then tier1Base else if r.1 = 2 then dramBase else mramRet)
      (acc.1 ++ [(e.1, r.1 * 1073741824 + ofs / 4, 0)], acc.2)) ([], start)).1

/-- PLACE gives every entry its place, and a value that moves goes with it, between two instants (R142). `old` holds the values
as they stood. -/
def placeEntries (s old : State) : State :=
  let moves := s.entryPlaces.filter (fun e => s.dirW e.1 0 != e.2.1 || bits (s.dirW e.1 3) 7 6 != e.2.2)
  moves.foldl (fun (u : State) e =>
    let w := (u.setDirW e.1 0 e.2.1).setDirW e.1 3 (putBits (u.dirW e.1 3) 7 6 e.2.2)
    w.memCopy (w.dirAddr e.1) old.mem (s.dirAddr e.1) (s.dirSize e.1)) s

/-- Tier 0 is filled anew: blocks that move keep what they hold, and the entries follow (R141, R142). -/
def tier0 (s : State) : State :=
  let s1 := forEach (List.range 4) (fun u p => u.tier0Of p) s
  (forEach (allTasks.filter (fun k => s.blockAt k 0 != s1.blockAt k 0 || s.blockAt k 2 != s1.blockAt k 2)) (fun u k =>
    let im := u.imgTask k
    (u.memCopy (u.blockAt k 0) s.mem (s.blockAt k 0) im.state.toNat).memPut (u.blockAt k 2) im.consts) s1).placeEntries s

/-! ### Runs (R134 to R137, R149) -/

/-- A pair is healthy, and a run may place tasks on it (R134, R496). -/
def pairHealthy (s : State) (p : Nat) : Bool := s.st (pgCP p) == 3 || s.st (pgCP p) == 6

/-- Tasks shed under R99, which no run places. -/
def shedHard (s : State) (k : Nat) : Bool := s.taskShed k && !s.maskBit pgPLACE PLACE.SHED_CAP k

/-- The new host of a task: at once, with its tier-0 fill running. -/
def hostNow (s : State) (k p : Nat) (fill : Bool) : State :=
  (s.setTask k { s.task k with host := some p, goal := none, fill := fill }).routesTo k p

/-- The slack of a task as a signed number of µs. -/
def slackOf (s : State) (k : Nat) (ts : List Nat) : Int :=
  (s.pubUs k : Int) - (s.guardUs : Int) - (s.response k ts : Int)

def minInt (l : List Int) : Int :=
  match l with
  | [] => 0
  | x :: r => r.foldl min x

/-- The plan of a run: after a fence, or a RUN written 0, the tasks of that pair and those of no pair are placed on the rest, and all
from scratch where one of that pair does not fit; in the other causes all from scratch (R137, R149). -/
def runPlan (s : State) (cause : Nat) (gone : Option Nat) : Plan :=
  let tasks := s.tasksOn.filter (fun k => cause == 0 || !s.shedHard k)
  let pairs := (List.range 4).filter (fun p => s.pairHealthy p && some p != gone)
  let scratch := s.planTry (s.placeOrder tasks) { pairs := pairs.map (fun p => (p, [])) }
  if cause = 1 ∨ cause = 4 then
    let stay : Plan := { pairs := pairs.map (fun p => (p, tasks.filter (fun k => (s.task k).host == some p))) }
    let full0 := tasks.filter (fun k => s.maskBit pgPLACE PLACE.OVERCOMMIT k && (s.task k).host != gone)
    let lost := tasks.filter (fun k => (s.task k).host == gone && gone.isSome)
    let homeless := tasks.filter (fun k => (s.task k).host.isNone)
    let pl := s.planTry (s.placeOrder (lost ++ homeless)) { stay with full := full0 }
    s.planSettle (if pl.left.any (fun k => lost.contains k) then scratch else pl)
  else s.planSettle scratch

/-- The plan of a placement run is installed and recorded (R137). The Bool says that the assignment changed. -/
def placeInstall (s : State) (cause : Nat) (gone : Option Nat) (pl : Plan) : State × Bool :=
  let assigned := pl.pairs.flatMap (fun e => e.2.map (fun k => (k, e.1)))
  let old (k : Nat) : Option Nat := (s.task k).host
  let movers := assigned.filter (fun e => (old e.1).isSome && old e.1 != some e.2)
  let changed := s.tasksOn.any (fun k =>
    (assigned.find? (fun e => e.1 == k)).map (fun e => e.2) != old k
      || pl.full.contains k != s.maskBit pgPLACE PLACE.OVERCOMMIT k
      || pl.shed.any (fun e => e.1 == k) != s.maskBit pgPLACE PLACE.SHED_CAP k)
  let s1 := assigned.foldl (fun (u : State) e =>
    let t := u.task e.1
    if t.host = some e.2 ∧ cause ≠ 0 ∧ cause ≠ 3 then u.setTask e.1 { t with goal := none }
    else if cause = 0 ∨ cause = 3 then u.hostNow e.1 e.2 false
    else if t.host.isNone || (decide (cause = 1) && t.host == gone) then u.hostNow e.1 e.2 true
    else u.setTask e.1 { t with goal := some e.2 }) s
  let s2 := (pl.shed.map (fun e => e.1) ++ pl.left).foldl (fun (u : State) k =>
    u.setTask k { u.task k with host := none, goal := none, fill := false }) s1
  let filled := onlyIf (cause == 0 || cause == 3) (fun u => forEach (assigned.map (fun e => e.1)) fillTask u) s2.tier0
  let s3 := pl.pairs.foldl (fun (u : State) e => e.2.foldl (fun (w : State) k =>
    w.setTask k { w.task k with resp := s.response k e.2 }) u) filled
  let slack := minInt (pl.pairs.flatMap (fun e => e.2.map (fun k => s.slackOf k e.2)))
  let out := (s.tasksOn.filter (fun k => (s.taskShed k || pl.shed.any (fun e => e.1 == k) || pl.left.contains k)
    && !assigned.any (fun e => e.1 == k))).length
  let s4 := ((s3.incSat pgPLACE PLACE.RUN_INFO.COUNT).put pgPLACE PLACE.RUN_INFO.CAUSE cause).put pgPLACE PLACE.LAST_RUN
    (s.tick % 4294967296)
  let s5 : State := { s4 with seq := { s4.seq with lastRun := s4.e + 1, unplaced := pl.left } }
  let s6 := s5.raise pgPLACE 0x050 cause [movers.length, unsigned 32 slack, out]
  let s7 := pl.shed.foldl (fun (u : State) e => u.shedTask e.1 true e.2) s6
  let s8 := (assigned.filter (fun e => s.maskBit pgPLACE PLACE.SHED_CAP e.1)).foldl (fun (u : State) e =>
    (((u.setMaskBit pgPLACE PLACE.SHED_CAP e.1 false).setMaskBit pgSEQ SEQ.SHED e.1 false).raise pgPLACE 0x053 0
      [e.1, e.2]).shedRefresh) s7
  let s9 := s8.put pgPLACE PLACE.OVERCOMMIT (pl.full.foldl (fun acc k => acc + 2 ^ k) 0)
  let s10 := if pl.overs.isEmpty then s9 else s9.setFault pgPLACE 22
  let s11 := pl.moved.foldl (fun (u : State) k => (u.setFault pgPLACE 18).raise pgPLACE 0x054 0 [k]) s10
  let s12 := pl.left.foldl (fun (u : State) k => (u.setFault pgPLACE 17).raise pgPLACE 0x054 1 [k]) s11
  let s13 := (s12.cond pgPLACE 17 (pl.left.length != 0)).placeRefresh.pairsRefresh
  (if (List.range 4).any (fun p => s13.pairHealthy p) then s13 else s13.forceStop, changed)

/-- A placement run. -/
def placeRun (s : State) (cause : Nat) (gone : Option Nat) : State × Bool := s.placeInstall cause gone (s.runPlan cause gone)

/-- A re-admitted task is placed alone, as one step of R134 (R136); true where it fits. -/
def placeAlone (s : State) (k : Nat) : State × Bool :=
  let pairs := ((List.range 4).filter (fun p => s.pairHealthy p)).map
    (fun p => (p, s.tasksOn.filter (fun j => (s.task j).host == some p)))
  match s.bestPair s.fits k pairs with
  | some p => (((s.hostNow k p true).tier0).placeRefresh, true)
  | none =>
    (((s.setMaskBit pgPLACE PLACE.SHED_CAP k true).raise pgPLACE 0x052 0 [k, 1]).placeRefresh, false)

/-- In its move window a task moves where its target can take it (R139, R140). -/
def moveWindow (s : State) (k : Nat) : State :=
  match (s.task k).goal with
  | none => s
  | some p =>
    if !s.pairHealthy p then (s.setTask k { s.task k with goal := none }).placeRefresh
    else if s.fits (s.tasksOn.filter (fun j => (s.task j).host == some p) ++ [k]) then
      ((s.hostNow k p false).tier0.fillTask k).placeRefresh.pairsRefresh
    else s

/-- Outstanding moves are abandoned (R140). -/
def movesAbandon (s : State) : State :=
  let n := (allTasks.filter (fun k => (s.task k).goal.isSome)).length
  if n = 0 then s
  else
    let s1 := forEach allTasks (fun u k => if (u.task k).goal.isSome then u.setTask k { u.task k with goal := none } else u) s
    ((s1.setFault pgPLACE 21).raise pgPLACE 0x057 0 [n]).placeRefresh

/-! ### Lapses (R153) -/

/-- A determinism lapse of cause 1 to 3 of task `k`; code 0x056 at most once per task per second. -/
def lapse (s : State) (k cause addr : Nat) : State :=
  let s1 := s.lapsed k
  let s2 := match (s1.task k).cur with
    | some c => s1.setTask k { s1.task k with cur := some { c with lapsed := true } }
    | none => s1
  let key := 0x56000 + k
  if s2.mayRecord key then
    let s3 := (((s2.setFault pgPLACE 19).put pgPLACE PLACE.LAPSE_INFO.CAUSE cause).put pgPLACE PLACE.LAPSE_INFO.TASK
      k).markRecord key
    let s4 := if cause = 1 then (s3.put pgPLACE PLACE.LAPSE_ADDR_LO addr).put pgPLACE PLACE.LAPSE_ADDR_HI.ADDR_HI
      (addr / 4294967296) else s3
    s4.raise pgPLACE 0x056 cause ([k, s4.get pgSEQ (SEQ.CYCLE k)] ++ (if cause = 1 then [addr] else []))
  else s2

/-! ### Measured times (R132) -/

/-- An execution time of task `k` joins its last 1,024; M_j above B_j sets BUDGET_EXCEEDED. -/
def measured (s : State) (k us : Nat) : State :=
  let t := s.task k
  let s1 := s.setTask k { t with meas := (us :: t.meas).take 1024 }
  let m := s1.measOf k
  if s1.budgetOf k < m ∧ t.overB = false then
    ((s1.setTask k { s1.task k with overB := true }).setFault pgPLACE 16).raise pgPLACE 0x055 0 [k, m, s1.budgetOf k]
  else s1

/-- A result of PLACE's commands. -/
def placeResult (s : State) (r : Nat) : State := s.put pgPLACE PLACE.CMD_STATUS.RESULT r

def placeCmd (s : State) (off m : Nat) (f : State → State) : State :=
  s.actionRes pgPLACE off m PLACE.CMD_STATUS.RESULT 6 (fun s => if s.on pgPLACE PLACE.CMD_STATUS.BUSY then s else f s)

end State

/-! ### The commands -/

/-- REPLACE (R138): master `m` writes REPLACE to `PLACE.CMD`. -/
def execReplace (m : Fin 4) (s : State) : Out :=
  .next (s.placeCmd PLACE.CMD.CODE.off m.val (fun s =>
    let refuse (r : Nat) : State := (s.placeResult r).raise pgPLACE 0x051 0 [r]
    if s.seq.image.isNone then refuse 1
    else if s.seq.lastRun ≠ 0 ∧ s.e < s.seq.lastRun - 1 + 10000000000 then refuse 2
    else if s.on pgSEQ SEQ.STATUS.XCHG_ACTIVE then refuse 3
    else if s.on pgPLACE PLACE.STATUS.MOVING then refuse 4
    else
      let r := s.placeRun 2 none
      r.1.placeResult (if r.2 then 0 else 5)))

/-- ABANDON_MOVES (R140, R156): master `m` writes code 2 to `PLACE.CMD`. -/
def execAbandonMoves (m : Fin 4) (s : State) : Out :=
  .next (s.placeCmd PLACE.CMD.CODE.off m.val (fun s => s.movesAbandon.placeResult 0))

/-- MOVE_STALLED (R140): moves are outstanding 10 s after the run. -/
def execMoveStalled (s : State) : Out := .next (if s.pageOn pgPLACE then s.movesAbandon else s)

/-- PLACEMENT_RUN_FENCE (R149, R150): after pair `p` is fenced. Its frozen and unpublished cycles are lost; `ran` gives the
time in µs that each had run. -/
def execPlacementRunFence (p : Fin 4) (ran : List (Fin 32 × BitVec 32)) (s : State) : Out :=
  .next (if s.pageOn pgPLACE && s.st (pgCP p.val) == 5 && s.seq.image.isSome then
      let hit := State.allTasks.filter (fun k => (s.task k).host == some p.val && ((s.task k).cur.isSome))
      let s1 := forEach hit (fun u k =>
        let t := u.task k
        let us := ((ran.find? (fun e => e.1.val == k)).map (fun e => e.2.toNat)).getD 0
        match t.cur with
        | some c =>
          let u1 := u.setTask k { t with cur := some { c with lost := some p.val } }
          if c.done then u1 else u1.measured k us
        | none => u) s
      ((s1.placeRun 1 (some p.val)).1.queueMove p.val).xchgDisturb
    else s)

/-- TIER0_FILL_DONE (R149, R150): the tier-0 fill of task `k` finishes, and a task that has frozen becomes ready. -/
def execTier0FillDone (k : Fin 32) (s : State) : Out :=
  let t := s.task k.val
  .next (if t.fill then
      (s.fillTask k.val).setTask k.val { t with fill := false, cur := t.cur.map (fun c => { c with ready := true }) }
    else s)

/-- A core pair's 32-bit write to word `w` of directory entry `i` (R146). -/
def State.directoryWrite (s : State) (i w : Nat) (v : Word) : State :=
  if s.pageOn pgPLACE then
    (if s.st pgSEQ = 2 ∧ w < 3 then s.setDirW i w v.toNat
    else (s.setFault pgPLACE 20).raise pgPLACE 0x058 0 [i])
  else s

/-- DIRECTORY_WRITE (R146): a core pair writes `v` to word `w` of entry `i`. -/
def execDirectoryWrite (i : Fin 32768) (w : Fin 4) (v : BitVec 32) (s : State) : Out := .next (s.directoryWrite i.val w.val v)

/-- FORCE (R147): master `m` writes force to `FORCE_CMD`; the bytes of FORCE_V0 to FORCE_V3 wait for the next base tick. -/
def execForce (m : Fin 4) (s : State) : Out :=
  .next (s.placeCmd PLACE.FORCE_CMD.CODE.off m.val (fun s =>
    let i := s.get pgPLACE PLACE.FORCE_INDEX.INDEX
    if s.dirType i = 0 ∨ 16 < s.dirSize i then s.placeResult 3
    else
      let v := (List.range 4).foldl (fun acc j => acc + (s.get pgPLACE (PLACE.FORCE_V j)) * 2 ^ (32 * j)) 0
      ({ s with forceReq := s.forceReq ++ [(i, some v)] } : State).placeResult 0))

/-- FORCE_RELEASE (R147): master `m` writes release to `FORCE_CMD`. -/
def execForceRelease (m : Fin 4) (s : State) : Out :=
  .next (s.placeCmd PLACE.FORCE_CMD.CODE.off m.val (fun s =>
    ({ s with forceReq := s.forceReq ++ [(s.get pgPLACE PLACE.FORCE_INDEX.INDEX, none)] } : State).placeResult 0))

/-- A force or a release takes effect on its entry (R147). -/
def State.forceEffect (s : State) (r : Nat × Option Nat) : State :=
  let i := r.1
  let n := s.dirSize i
  let shadow := forceBase + i * 16
  match r.2 with
  | some v =>
    let s1 := if s.dirForced i then s
      else ({ s with forceQ := Store.set 0 s.forceQ i (s.dirQual i) } : State).memWr shadow n (s.imgVal i)
    (s1.memWr (s1.dirAddr i) n v).setDirW i 3 (putBits (putBits (s1.dirW i 3) 31 28 qSUBST) 13 13 1)
  | none =>
    if s.dirForced i then
      ({ (s.memWr (s.dirAddr i) n (s.memRd shadow n)) with forceQ := Store.set 0 s.forceQ i 0 } : State).setDirW i 3
        (putBits (putBits (s.dirW i 3) 31 28 (Store.get 0 s.forceQ i)) 13 13 0)
    else s

/-- FORCE_TAKE_EFFECT (R147): the next base tick; every requested force and release takes effect in order. -/
def execForceTakeEffect (s : State) : Out :=
  .next (s.forceReq.foldl (fun u r => u.forceEffect r) ({ s with forceReq := [] } : State))

end Sys2Proof.Machine
end

