-- ==== Sys2Proof/Machine/PairBase.lean ====
section
/-! DEFINITION. What the pair and the Dervor link share with SEQ and FLT: frames (R383), copies of a publish (R388), roles and
pair states (R378), Ready (R387), the release of duty (R380, R391) and the taking of it (R393). -/

namespace Sys2Proof.Machine
namespace State

/-! ### Frames (R382, R383) -/

/-- DVL runs with its domain on and no sequence runs: the lanes are lit (R44, R382). -/
def dvlRuns (s : State) : Bool := s.active pgDVL && s.pageOn pgDVL && !s.inSequence && s.boot.phase != .parked

/-- A Dervor frame with the FLAGS of lane `l`. -/
def dvlFrame (type lane seq : Nat) (payload : List Byte) : List Byte :=
  let body := [BitVec.ofNat 8 type, BitVec.ofNat 8 (lane * 128)] ++ beBytes payload.length 2 ++ beBytes seq 4 ++ payload
  body ++ beBytes (crc32c 0xFFFFFFFF#32 body).toNat 4

/-- A frame leaves on every enabled lane. -/
def dvlSend (s : State) (type : Nat) (payload : List Byte) : State :=
  if s.dvlRuns then
    let seq := s.pair.txSeq
    let s1 := forEach ((List.range 2).filter (fun l => bitOf (s.get pgDVL DVL.CFG.LANE_EN) l)) (fun u l =>
      u.send (8 + l) type ((dvlFrame type l seq payload).map (fun b => b.toNat))) s
    ({ s1 with pair := { s1.pair with txSeq := (seq + 1) % 4294967296 } } : State).incMod pgDVL DVL.TX_FRAMES
  else s

def pairState (s : State) : Nat := s.get pgPAIR PAIR.STATUS.PAIR_STATE
def role (s : State) : Nat := s.get pgPAIR PAIR.STATUS.ROLE
/-- Paired: Syncing, Paired or Degraded. -/
def paired (s : State) : Bool := s.pairState == 4 || s.pairState == 5 || s.pairState == 6
/-- A pair slot is latched; slot B. -/
def pairSlot (s : State) : Bool := s.on pgSUP SUP.SLOT_ID.VALID && s.get pgSUP SUP.SLOT_ID.POSITION != 2
def slotB (s : State) : Bool := s.get pgSUP SUP.SLOT_ID.POSITION == 1
def setPair (s : State) (p : PairRt) : State := { s with pair := p }

/-- A change of ROLE (R378); giving up or taking duty is a switchover only where `R391` says so. -/
def setRole (s : State) (v cause : Nat) : State :=
  let old := s.role
  if old = v then s
  else ((s.put pgPAIR PAIR.STATUS.ROLE v).event 0x370).raise pgPAIR 0x200 0 [old, v, cause]

/-- A change of PAIR_STATE (R378). -/
def setPairState (s : State) (v : Nat) : State :=
  let old := s.pairState
  if old = v then s
  else ((s.put pgPAIR PAIR.STATUS.PAIR_STATE v).event 0x371).raise pgPAIR 0x201 0 [old, v]

/-- PAIR_STATE where it follows from the slot, DVL's RUN and PD9 alone (R378). -/
def pairFollow (s : State) : State :=
  if !(s.on pgSUP SUP.SLOT_ID.VALID) then s.setPairState 0
  else if s.pairSlot = false then s.setPairState 1
  else if !(s.on pgDVL HDR.CTRL.RUN) || !(s.pageOn pgDVL) then s.setPairState 0
  else if s.pairState = 0 then s.setPairState 2
  else s

/-! ### Copies (R384, R387, R388) -/

/-- The areas of regions 0 and 1 of task `k`. -/
def copyAreas (s : State) (k : Nat) : List CopyArea :=
  match s.seq.image with
  | some im => im.areas.filter (fun c => c.task.val == k && decide (c.region.val < 2))
  | none => []

/-- Line `j` of an area as it stands in this module: address and bytes. -/
def areaAt (s : State) (c : CopyArea) (j : Nat) : Nat × Nat :=
  match c.part with
  | .state ofs => ((s.task c.task.val).place.home + ofs.toNat / 64 * 64 + 64 * j, 64)
  | .value i => (s.dirAddr i.val + 64 * j, min 64 (s.dirSize i.val - 64 * j))
  | .shadow i => (forceBase + i.val * 16, 16)

/-- The contents of line `j` of an area. A force shadow is followed by the quality bits kept with it (R147; DESIGN CHOICE,
assumption 237). -/
def areaLine (s : State) (c : CopyArea) (j : Nat) : List Byte :=
  let (a, n) := s.areaAt c j
  let q := match c.part with
    | .shadow i => [BitVec.ofNat 8 (Store.get 0 s.forceQ i.val)]
    | _ => []
  (Memory.bytes s.mem a n ++ q ++ List.replicate 64 0).take 64

/-- A copied line of region 0 or 1 is written here. -/
def areaWrite (s : State) (r k l : Nat) (b : List Byte) : State :=
  match (s.copyAreas k).find? (fun c => c.region.val == r && decide (c.first.toNat ≤ l) && decide (l < c.first.toNat + c.lines.toNat)) with
  | none => s
  | some c =>
    let (a, n) := s.areaAt c (l - c.first.toNat)
    let s1 := s.memPut a (b.take n)
    match c.part with
    | .shadow i => { s1 with forceQ := Store.set 0 s1.forceQ i.val ((b.getD 16 0).toNat % 16) }
    | _ => s1

/-- Lines of regions 0 and 1 that a publish wrote, with their bytes as they stand: `wrote` says which lines of which parts. -/
def memLines (s : State) (k : Nat) (wrote : CopyPart → Nat → Bool) : List (Nat × Nat × List Byte) :=
  (s.copyAreas k).flatMap (fun c => ((List.range c.lines.toNat).filter (fun j => wrote c.part j)).map (fun j =>
    (c.region.val, c.first.toNat + j, s.areaLine c j)))

/-- W3 words of entries, 16 to a line (region 2). -/
def w3Lines (s : State) (entries : List Nat) : List (Nat × Nat × List Byte) :=
  ((entries.map (fun i => i / 16)).dedup).map (fun l =>
    (2, l, (List.range 16).flatMap (fun j => leBytes (s.dirW (16 * l + j) 3) 4)))

/-- Cells, two to a line (region 3). -/
def cellLines (s : State) (cells : List Nat) : List (Nat × Nat × List Byte) :=
  ((cells.map (fun c => c / 2)).dedup).map (fun l =>
    (3, l, (s.cellWords (2 * l) ++ s.cellWords (2 * l + 1)).flatMap (fun w => leBytes w.toNat 4)))

/-- The page state of station `a` as one line (R321): the layout is the model's own. -/
def stnLine (s : State) (a : Nat) : List Byte :=
  let r := s.stnRt a
  let pg := pgSTN a
  let acc := r.acc.getD (0, false)
  let flags := b2n (s.stnReceipt a) + 2 * b2n (s.stnSafe a) + 4 * b2n r.confirmed + 8 * b2n r.acc.isSome + 16 * b2n acc.2
    + 32 * b2n r.cmd
  (leBytes (s.stState a) 1 ++ leBytes (s.stnGen a) 1 ++ leBytes (s.stnVer a) 1 ++ leBytes flags 1 ++ leBytes r.seed 4
    ++ leBytes r.first 4 ++ leBytes (s.stnMac a) 6 ++ leBytes (s.get pg STN.STATUS.MISS_RUN) 2 ++ leBytes acc.1 4
    ++ leBytes (s.get pg STN.SLOT.D_SLOT) 4 ++ leBytes r.goodRun 4 ++ leBytes r.readGen 4 ++ List.replicate 64 0).take 64

/-- The station pages bound to a task (region 4). -/
def stnLines (s : State) (k : Nat) : List (Nat × Nat × List Byte) :=
  ((List.range 250).filter (fun a => s.stnEn a && s.stnTask a == k)).map (fun a => (4, a, s.stnLine a))

/-- The frozen image of a cycle as lines (region 5): entry by entry, value and W3; the layout is the model's own. -/
def chunk64 : Nat → List Byte → List (List Byte)
  | 0, _ => []
  | n + 1, l => if l.isEmpty then [] else (l.take 64 ++ List.replicate (64 - l.length) 0) :: chunk64 n (l.drop 64)

def frozenLines (s : State) (im : List (Nat × Nat × Nat)) : List (Nat × Nat × List Byte) :=
  let bytes := im.flatMap (fun e => leBytes e.2.1 (s.dirSize e.1) ++ leBytes e.2.2 4)
  let ch := chunk64 (bytes.length / 64 + 1) bytes
  (List.zip (List.range ch.length) ch).map (fun p => (5, p.1, p.2))

/-- Lines in ascending order of region and line, one of each. -/
def lineInsert (x : Nat × Nat × List Byte) : List (Nat × Nat × List Byte) → List (Nat × Nat × List Byte)
  | [] => [x]
  | y :: r =>
    if x.1 = y.1 ∧ x.2.1 = y.2.1 then x :: r
    else if x.1 < y.1 ∨ (x.1 = y.1 ∧ x.2.1 < y.2.1) then x :: y :: r
    else y :: lineInsert x r

def lineSort (l : List (Nat × Nat × List Byte)) : List (Nat × Nat × List Byte) := l.foldl (fun acc x => lineInsert x acc) []

/-- The lines of one COPY frame: those of the first line's region within 16 lines of it. -/
def lineGroups : Nat → List (Nat × Nat × List Byte) → List (Nat × Nat × List (Nat × List Byte))
  | 0, _ => []
  | _, [] => []
  | n + 1, x :: r =>
    let here := (x :: r).takeWhile (fun y => y.1 == x.1 && decide (y.2.1 < x.2.1 + 16))
    (x.1, x.2.1, here.map (fun y => y.2)) :: lineGroups n ((x :: r).drop here.length)

/-- The payload of a COPY frame. -/
def copyPayload (k cycle : Nat) (g : Nat × Nat × List (Nat × List Byte)) : List Byte :=
  beBytes k 1 ++ beBytes g.1 1 ++ [0, 0] ++ beBytes cycle 4 ++ beBytes g.2.1 4
    ++ beBytes (g.2.2.foldl (fun acc e => acc + 2 ^ (e.1 - g.2.1)) 0) 2 ++ g.2.2.flatMap (fun e => e.2)

/-- The COPY frames of lines and their COMMIT. -/
def sendCopy (s : State) (k cycle tau digest : Nat) (eligible whole frozen : Bool)
    (lines : List (Nat × Nat × List Byte)) : State :=
  let sorted := lineSort lines
  let groups := lineGroups sorted.length sorted
  let s1 := groups.foldl (fun u g => u.dvlSend 1 (copyPayload k cycle g)) s
  let flags := b2n eligible + 2 * b2n whole + 4 * b2n frozen
  let s2 := s1.dvlSend 2 (beBytes k 1 ++ beBytes flags 1 ++ [0, 0] ++ beBytes cycle 4 ++ beBytes groups.length 4 ++ beBytes tau 8
    ++ beBytes (unsigned 64 (s.task k).held) 8 ++ beBytes ((s.task k).pubAt - 1) 8 ++ beBytes digest 8)
  let log := (s2.pair.copyLog.filter (fun e => decide (s2.clk.ref < e.1 + 10000000))) ++ [(s2.clk.ref, 64 * sorted.length)]
  (s2.setTask k { s2.task k with lastLines := sorted }).setPair { s2.pair with
    commits := (s2.pair.commits + 1) % 4294967296, copyLog := log }

/-- The full copy of a task (R387): every line of regions 0 to 4, closed by a COMMIT with FULL = 1. -/
def sendFull (s : State) (k : Nat) : State :=
  let mem := s.memLines k (fun _ _ => true)
  let t := s.task k
  s.sendCopy k t.digestCycle (t.lastTau.getD 0) t.digest false true false
    (mem ++ s.w3Lines (s.producedBy k) ++ s.cellLines (s.cellsUsed.filter (fun c => s.cellTask c == k)) ++ s.stnLines k)

def sendFullAll (s : State) : State := forEach s.redTasks (fun u k => u.sendFull k) s

/-! ### Ready (R387) -/

/-- The first condition of R387 that fails on the standby; 0 none. -/
def notReady (s : State) : Nat :=
  let red := s.redTasks
  let yieldAny := s.activeClass 3 || s.on pgPAIR PAIR.FAULT.SHADOW_STATE
  if !(s.on pgDVL DVL.STATUS.LINK_OK) || !(s.on pgDVL DVL.STATUS.HB_OK) then 1
  else if s.pair.oldCopy || !(red.all (fun k => s.pair.full.contains k)) then 2
  else if s.pair.oldSnap || s.pair.snapAt == 0 then 3
  else if s.pair.ofsBad then 4
  else if yieldAny then 5
  else if !(red.all (fun k => !s.taskShed k && !s.maskBit pgPLACE PLACE.OVERCOMMIT k && (s.task k).host.isSome)) then 6
  else if modeOf (s.st pgSEQ) ≠ modeOf s.pair.pMode then 7
  else 0

/-- READY on the standby, and the pair states 4 to 6 that follow it; on the duty READY is the partner's (R403). -/
def readyRefresh (s : State) : State :=
  if s.role = 2 ∧ s.paired = true then
    let why := s.notReady
    let was := s.on pgPAIR PAIR.STATUS.READY
    let now := why == 0
    if was = now then s
    else
      let s1 := (s.putB pgPAIR PAIR.STATUS.READY now).raise pgPAIR 0x208 (b2n now) [why]
      s1.setPairState (if now then 5 else 6)
  else s

/-! ### Duty given up and taken -/

/-- Every on-board output follows a change of role: switches and analogue outputs by `mayDrive`, coils open and step outputs
high impedance where this module may not drive (R356, R381, R395). -/
def outputsFollow (s : State) : State :=
  let s1 := s.dioRefreshAll
  if s.duty then s1.axesStart else forEach (List.range 8) (fun u n => if u.axState n = 0 then u else u.axFence n) s1

/-- A switchover is counted (R391, tally 109 of R434). -/
def countSwitch (s : State) (cause : Nat) : State :=
  let s1 := ((s.put pgPAIR PAIR.LAST_SWITCH.CAUSE cause).incMod pgPAIR PAIR.SWITCHES).tallyAdd 109 1
  s1.setPair { s1.pair with dutyAt := s1.clk.ref, rotSeen := false, rotAt := none }

/-- What a standby starts from: no copy committed and no snapshot; the tasks of `full` need no full copy, because this module
holds their whole state (R392). -/
def dropCopies (s : State) (full : List Nat) : State :=
  s.setPair { s.pair with
    hoCause := 0, full := full, snapAt := 0, copied := [], lines := [], frames := [], parts := [], axSnap := [], oldCopy := true
    shTask := 255, shSkips := 0, shPair := none, shDigest := none, shFrozen := [] }

/-- Duty is given up: DUTY_OUT released, outputs off within 10 µs, role standby (R380, R391). -/
def giveDuty (s : State) (cause roleCause : Nat) (yieldOut : Bool) : State :=
  let s1 := ((s.setPair { s.pair with yieldAt := s.clk.ref }).put pgPAIR PAIR.STATUS.DUTY_OUT 0).putB pgPAIR PAIR.STATUS.YIELD_OUT
    yieldOut
  let s2 := (((s1.countSwitch cause).put pgPAIR PAIR.STATUS.HANDOVER 0).put pgPAIR PAIR.STATUS.READY 0).setRole 2 roleCause
  let s3 := (if s2.paired then s2.setPairState 6 else s2).dropCopies s.redTasks
  let s4 := forEach allTasks (fun u k => u.abandon k) s3
  let s5 := s4.xchgDisturb.outputsFollow
  if s5.syncState = 0 then s5 else (s5.setSync {}).setSyncState 0

/-- The HANDOVER frame. -/
def sendHandover (s : State) (cause result h : Nat) : State :=
  s.dvlSend 6 (beBytes cause 1 ++ beBytes result 1 ++ [0, 0] ++ beBytes s.pair.commits 4 ++ beBytes h 8)

/-- A duty with an active YIELD-class fault yields where the partner is paired and Ready, and otherwise sets YIELD_REFUSED
(R391, R411). -/
def yieldDuty (s : State) : State :=
  if s.role = 1 ∧ s.pairSlot = true then
    if s.paired && s.on pgPAIR PAIR.STATUS.READY then
      (if s.on pgPAIR PAIR.STATUS.HANDOVER then s
      else (s.sendHandover 2 0 s.e).giveDuty 2 6 true)
    else s.setFault pgPAIR 18
  else s

/-- Entries that an on-board output uses take effect from the image (R355, R393). -/
def outputsFromImage (s : State) : State :=
  forEach (s.dirListed.filter (fun i => s.dirType i != 0 && s.dirBit i 11 &&
      (s.dirProdKind i != 3 || (s.task (s.dirProdId i)).live))) (fun u i => (u.dioTake i).anaTake i) s.dioRefreshAll

/-- The reset of the cells of task `k` that are not retentive (R117). -/
def resetCellsOf (s : State) (k : Nat) : State :=
  forEach (s.cellsUsed.filter (fun c => s.cellTask c == k && !s.cellRetain c)) (fun u c => u.cellReset c) s

/-- The held offset that makes the next cycle's task time follow the last executed cycle's (R112). `from_` is the instant from
which the task freezes. -/
def heldAtEntry (s : State) (k from_ : Nat) : State :=
  let t := s.task k
  match t.lastTau with
  | none => s
  | some last =>
    let p := s.taskP k * 250000
    let m := if from_ ≤ p then 0 else (from_ - p + s.taskT k - 1) / s.taskT k
    s.setTask k { t with held := (s.taskS k m : Int) - ((last : Int) + (s.taskT k : Int)) }

/-- LPE resumes at the first loop base tick after now: the time slots with an instant between the last snapshot and that tick sample
there (R393). -/
def loopsResume (s : State) : State :=
  let from_ := (s.pair.snapAt - 1) / 50000
  let to_ := s.e / 50000 + 1
  forEach ((if s.pair.snapAt = 0 then [] else s.lSlots).filter (fun n =>
      let k := max 1 (s.lf n 0x004 17 0)
      let ph := s.lf n 0x008 17 0
      s.lTrig n == 0 && decide (ph ≤ to_) && decide (from_ < (to_ - ph) / k * k + ph)))
    (fun u n => u.setLoopRt n { u.loopRt n with resume := true }) s

/-- The first cycle of a redundant task on the new duty (R393). -/
def resumeTask (s : State) (k : Nat) : State :=
  let t := s.task k
  let c := Store.get {} s.pair.copied k
  let t1 := { t with live := true, latched := (s.producedBy k).map s.imgOut, resume := true, held := c.held, lastTau := some c.tau, digestCycle := c.cycle, cur := none }
  match t.sbFrozen with
  | some (m, im) =>
    if c.pubT < s.taskS k m ∧ t.host.isSome = true ∧ s.seq.running = true then
      let tau := unsigned 64 ((s.taskS k m : Int) - c.held)
      ((s.setTask k { t1 with
        cur := some { m := m, at_ := s.taskS k m, tau := tau, frozen := im, ready := !t.fill, takeover := true }
        frzTau := tau, resume := false }).put pgSEQ (SEQ.CYCLE k) (cycleNo m)).lapsed k
    else s.setTask k t1
  | none => s.setTask k t1

/-- The new duty after a takeover or a handover (R392, R393): outputs from the image, redundant tasks from their committed
state, the others as at Run entry; under cause 1 a standby that was not Ready enters Stop. -/
def takeDuty (s : State) (cause : Nat) : State :=
  let intoStop := cause == 1 && s.pair.unready
  let fastest := s.redTasks.foldl (fun (acc : Option Nat) k =>
    match acc with
    | some j => if s.taskT k < s.taskT j then some k else acc
    | none => some k) none
  let cycle := match fastest with
    | some k => (Store.get {} s.pair.copied k).cycle
    | none => 0
  let age := if s.pair.snapAt = 0 then 0 else (s.e - (s.pair.snapAt - 1)) / 1000
  let s1 := (s.countSwitch cause).setRole 1 (if cause = 3 ∨ cause = 4 then 3 else 2)
  let s2 := s1.setPair { s1.pair with
    claim := 0, cause := 0, hoCause := 0, gapFrom := some s.pair.pLastPub
    shTask := 255, shSkips := 0, shPair := none, shDigest := none, shFrozen := [] }
  let s3 := if cause = 1 ∨ cause = 2 then
      s2.raise pgPAIR 0x205 (if intoStop then 2 else if cause = 1 then 0 else 1) [cycle, age]
    else s2
  let s4 := (if s3.paired then s3.setPairState 6 else s3).put pgPAIR PAIR.STATUS.READY 0
  if intoStop then
    let s5 := s4.seqRunning false
    ((s5.put pgSEQ HDR.CTRL.RUN 0).seqRefresh).dioSafeAll.anaSafeAll
  else
    let s5 := forEach s4.redTasks (fun u k => u.resumeTask k) s4.loopsResume
    let s6 := forEach (s5.tasksOn.filter (fun k => !s5.taskRed k)) (fun u k =>
      ((u.resetCellsOf k).heldAtEntry k u.e).setTask k
        { (u.resetCellsOf k |>.heldAtEntry k u.e).task k with live := false, cur := none }) s5
    (s6.dioSafeAll.anaSafeAll).outputsFromImage

end State
end Sys2Proof.Machine
end

