-- ==== Sys2Proof/Machine/Load.lean ====
section
/-! DEFINITION. A station image is installed: at load (R42, R112, R117, R137, R146) and at an exchange (R120 to R122). -/

namespace Sys2Proof.Machine

namespace State

/-- A register that the image writes; reserved bits stay 0. At an exchange a station page's Staged words wait for the freeze of its task (R120), and a
RUN that the new image sets makes its block run; at load SUP writes CTRL afterwards (R42, R367). -/
def imageReg (defer : Bool) (s : State) (r : ImageReg) : State :=
  let page := r.page.toNat
  let off := r.off.toNat
  let i := r.idx.toNat
  let v := r.val &&& BitVec.ofNat 32 (fieldMask page off)
  if off = 0x00C then
    (if defer && bitOf r.val.toNat 0 then (s.put page HDR.CTRL.RUN 1).refreshState page else s)
  else if stagedMask page off = 0 then s.setReg page off v i
  else
    let s1 := s.setShadow page off v i
    if defer && decide (0x100 ≤ page) && s1.stnHeld (page - 0x100) then
      ({ s1 with buf := Store.set (resetWord page off i) s1.buf (regKey page off i) v } : State).put page
        HDR.COMMIT.PENDING 1
    else s1.setReg page off v i

/-- The words of the image that are fields of its own: shed order, AUTORUN, TASK_COUNT, BUILT. -/
def imageFixed (s : State) (im : StationImage) : State :=
  let s1 := forEach (List.range 32) (fun u i =>
    u.put pgPLACE ⟨0x0E0 + 4 * (i / 4), 8 * (i % 4) + 7, 8 * (i % 4)⟩ ((im.shedOrder.getD i 0).toNat)) s
  ((s1.put pgSEQ SEQ.CFG.TASK_COUNT im.tasks.length).putB pgSEQ SEQ.CFG.AUTORUN im.autorun).putB pgPLACE PLACE.DET.BUILT
    im.built

/-- DEFAULT and ALLOWED of the OVR3 source of each task (R99): a shut-down-class task accepts FENCE and YIELD alone, and its
default is YIELD. -/
def imageClasses (s : State) : State :=
  forEach (List.range 32) (fun u k =>
    let n := 57 + k
    let c := u.classOf n
    let sd := u.on pgSEQ (SEQ.ATTR.SHUTDOWN k)
    let want := if sd && decide (c < 2) then 3 else c
    let u1 := ((u.put pgFLT FLT.SRC_CFG.DEFAULT (if sd then 3 else 1) n).put pgFLT FLT.SRC_CFG.ALLOWED
      (if sd then 12 else 15) n).put pgFLT FLT.SRC_CFG.CLASS want n
    u1.setShadow pgFLT 0x084 (u1.reg pgFLT 0x084 n) n) s

/-- What an entry of the old image hands to its matched entry (R121): its new index, W3, value, force shadow and the quality kept
with the shadow. -/
structure EntryKept where
  index : Nat
  kind : Nat
  w3 : Nat
  value : List Byte
  shadow : List Byte
  forceQ : Nat
deriving DecidableEq, Repr

def entryKept (s : State) (p : Nat × Nat) : EntryKept :=
  { index := p.2, kind := bits (s.dirW p.1 1) 31 16, w3 := s.dirW p.1 3, value := Memory.bytes s.mem (s.dirAddr p.1) (s.dirSize p.1)
    shadow := Memory.bytes s.mem (forceBase + p.1 * 16) 16, forceQ := Store.get 0 s.forceQ p.1 }

/-- The value and W3 of an entry of the image: those of its matched entry, else the initial value; at load a retentive value stays
(R117, R121, R146). -/
def imageValue (load : Bool) (kept : List EntryKept) (s : State) (e : ImageEntry) : State :=
  let i := e.index.val
  match kept.find? (fun x => x.index == i && x.kind == bits (s.dirW i 1) 31 16) with
  | some x =>
    let w3 := putBits (putBits x.w3 12 8 (bits (s.dirW i 3) 12 8)) 7 6 (bits (s.dirW i 3) 7 6)
    let s1 := (s.setDirW i 3 w3).memPut (s.dirAddr i) x.value
    if bitOf w3 13 then { s1.memPut (forceBase + i * 16) x.shadow with forceQ := Store.set 0 s1.forceQ i x.forceQ } else s1
  | none => if load && bitOf e.w3.toNat 9 then s else s.memPut (s.dirAddr i) (e.init.take (s.dirSize i))

/-- The directory of the image takes the place of the old one (R146). -/
def imageDir (s : State) (im : StationImage) (load : Bool) (carried : List (Nat × Nat)) : State :=
  let kept := carried.map s.entryKept
  let s1 := forEach s.dirListed (fun u i => (((u.setDirW i 0 0).setDirW i 1 0).setDirW i 2 0).setDirW i 3 0)
    ({ s with forceQ := [], forceReq := [] } : State)
  let s2 := im.entries.foldl (fun (u : State) e =>
    ((u.setDirW e.index.val 1 e.w1.toNat).setDirW e.index.val 2 e.w2.toNat).setDirW e.index.val 3 (e.w3 &&& 0x1F00#32).toNat) s1
  let s3 := s2.entryPlaces.foldl (fun (u : State) e => (u.setDirW e.1 0 e.2.1).setDirW e.1 3 (putBits (u.dirW e.1 3) 7 6 e.2.2)) s2
  im.entries.foldl (imageValue load kept) s3

/-- The state of each task: its initial values; at load a retentive one stays (R117, R121). -/
def imageStates (s : State) (im : StationImage) (load : Bool) : State :=
  im.tasks.foldl (fun (u : State) t =>
    if load && t.retain then u
    else
      let a := (u.task t.task.val).place.home
      (u.memCopy a [] 0 t.state.toNat).memPut a (t.init.take t.state.toNat)) s

/-- A station image that is not built for determinism: a lapse of cause 4, once (R153). -/
def imageLapse (s : State) (im : StationImage) : State :=
  if im.built then s else (s.put pgPLACE PLACE.LAPSE_INFO.CAUSE 4).raise pgPLACE 0x056 4

/-- Loop records of the image. A slot that it enables starts with INIT and its counters at 0 (R167, R179); at an exchange the
configuration of a slot that stays waits for its next sample, as for a staged commit (R122). -/
def imageLoops (s : State) (im : StationImage) (keep : Bool) : State :=
  let stay := s.lSlots
  let s0 : State := if keep && s.on pgLPE HDR.COMMIT.PENDING && !s.on pgLPE LPE.STATUS.APPLYING then
      { s.commitDrop pgLPE with lpe := { s.lpe with taking := [], buf := [] } } else s
  let s1 := im.loops.foldl (fun (u : State) l =>
    let k := 64 * l.slot.val + l.word.val
    let u1 : State := { u with lpe := { u.lpe with shad := (if l.word.val < 40 then Store.set 0 u.lpe.shad k l.val
        else u.lpe.shad) } }
    if keep && stay.contains l.slot.val && decide (l.word.val < 40) then
      let buf0 := if u1.lpe.taking.contains l.slot.val then u1.lpe.buf
        else (List.range 40).foldl (fun b w => Store.set 0 b (64 * l.slot.val + w)
          (Store.get 0 u1.lpe.recs (64 * l.slot.val + w))) u1.lpe.buf
      { u1 with lpe := { u1.lpe with buf := Store.set 0 buf0 k l.val, taking := insNum l.slot.val u1.lpe.taking } }
    else
      let u2 : State := { u1 with lpe := { u1.lpe with recs := Store.set 0 u1.lpe.recs k l.val } }
      if l.word.val = 0 then
        (forEach [0x0F0, 0x0F4, 0x0F8, 0x0FC] (fun v off => v.setLw l.slot.val off 0)
          (u2.setLw l.slot.val 0x0B0 (u2.lw l.slot.val 0x0B0 ||| 0x4000#32))).setLoopRt l.slot.val {}
      else u2) s0
  if keep && !s1.lpe.taking.isEmpty then
    let s2 := ({ s1 with lpe := { s1.lpe with checked := s1.e } } : State).put pgLPE LPE.STATUS.APPLYING 1
    if s2.st pgLPE = 2 ∨ s2.st pgLPE = 5 then s2.lTakeAll else s2
  else s1

/-- AUX of counter and edge cells is 0 (R129). -/
def cellAux (s : State) (c : Nat) : State :=
  if [4, 5, 6, 8, 9].contains (s.cellType c) then (s.setCellW c 6 0).setCellW c 7 0 else s

/-- A newly created cell has INIT set where it detects edges (R115, R117). -/
def newCell (s : State) (c : Nat) : State :=
  let s1 := s.cellAux c
  if s1.cellType c = 8 ∨ s1.cellType c = 9 then s1.setCellB c 20 true else s1

/-- The cells of the image at load (R117): a retentive cell is kept where its stored TYPE and TASK are those declared; `bad`
are the cells whose stored state fails its check. -/
def loadCells (s : State) (bad : List Nat) : State :=
  forEach s.cellsUsed (fun u c =>
    let u1 := u.newCell c
    if u1.cellRetain c then
      let kept := Store.get [] u1.seq.kept c
      let w0 := (kept.getD 0 0).toNat
      if bad.contains c && !kept.isEmpty then
        ((((u1.cellReset c).cellKeep c).setFault pgTMR 17).raise pgTMR 0x04A 0 [c])
      else if !kept.isEmpty && bits w0 31 23 == bits (u1.cellW c 0) 31 23 then
        (u1.setCellWords c (u1.reg pgTMR 0x044 c :: kept.drop 1)).setCellF c 20 16 (bits w0 20 16)
      else u1.cellKeep c
    else u1) s

/-- The image becomes the loaded one: registers, directory, loops, cells, and the placement from scratch (R42, R137). -/
def loadImage (s : State) (im : StationImage) (bad : List Nat) : State :=
  let s0 := forEach allTasks (fun u k => u.setTask k { lastTau := (u.task k).lastTau }) s
  let s1 : State := { s0 with seq := { s0.seq with image := some im, prep := none, unplaced := [] } }
  let s2 := ((im.regs.foldl (imageReg false) s1).imageFixed im).imageClasses
  let s2 := forEach (s1.slotsDiffer s2) (fun u k => u.slotApplied k) s2
  let s3 := (((s2.imageDir im true []).layTasks.imageStates im true).imageLoops im false).loadCells bad
  let s4 := ((s3.put pgPLACE PLACE.SHED_CAP 0).put pgPLACE PLACE.OVERCOMMIT 0).put pgPLACE PLACE.RUN_INFO.COUNT 0
  (((s4.imageLapse im).stnsLoaded s (im.regs.map (fun r => r.page.toNat))).placeRun 0 none).1

/-! ### Exchange (R118 to R122) -/

/-- The instance map (R121): instances of one path hash and one type are matched. -/
def instanceMap (old new : List ImageInst) : InstanceMap :=
  let pairs : List (InstItem × InstItem) := new.filterMap (fun n =>
    (old.find? (fun o => o.hash == n.hash && o.type == n.type)).map (fun o => (o.item, n.item)))
  { matched := pairs.length, fresh := new.length - pairs.length, dropped := old.length - pairs.length
    tasks := pairs.filterMap (fun p => match p with | (.task a, .task b) => some (a.val, b.val) | _ => none)
    cells := pairs.filterMap (fun p => match p with | (.cell a, .cell b) => some (a.val, b.val) | _ => none)
    slots := pairs.filterMap (fun p => match p with | (.slot a, .slot b) => some (a.val, b.val) | _ => none)
    entries := pairs.filterMap (fun p => match p with | (.entry a, .entry b) => some (a.val, b.val) | _ => none)
    vars := pairs.filterMap (fun p => match p with
      | (.vars a x n, .vars b y _) => some ((a.val, x.toNat), (b.val, y.toNat), n.toNat)
      | _ => none) }

/-- The image needs more than the module has (R123 reason 4). -/
def needsTooMuch (im : StationImage) : Bool :=
  decide (32 < im.needs.tasks.toNat) || decide (4096 < im.needs.cells.toNat) || decide (1024 < im.needs.slots.toNat)
    || decide (128 < im.needs.folds.toNat) || decide (32768 < im.needs.entries.toNat)

/-- The state that matched instances carry over an exchange (R122). -/
def carryCells (s : State) (old : List (Nat × List Word)) (map : List (Nat × Nat)) : State :=
  map.foldl (fun (u : State) p =>
    let c := p.2
    let ws := (old.find? (fun e => e.1 == p.1)).map (fun e => e.2)
    match ws with
    | none => u
    | some ws =>
      let w (i : Nat) : Nat := (ws.getD i 0).toNat
      let ty := u.cellType c
      let u1 := u.setCellF c 20 16 (bits (w 0) 20 16)
      let u2 := (u1.setCellW c 4 (w 4)).setCellW c 5 (w 5)
      let u3 := (u2.setCellW c 6 (w 6)).setCellW c 7 (w 7)
      (if ty = 7 then (u3.setCellW c 2 (w 2)).setCellW c 3 (w 3) else u3).cellKeep c) s

def carrySlots (s : State) (map : List (Nat × Nat)) : State :=
  let olds := map.filter (fun p => p.1 != p.2)
  let words := olds.map (fun p => (p.2, (List.range 64).map (fun w => s.lw p.1 (4 * w)), s.loopRt p.1))
  let s1 := olds.foldl (fun (u : State) p =>
    (forEach (List.range 64) (fun v w => v.setLw p.1 (4 * w) 0) u).setLoopRt p.1 {}) s
  words.foldl (fun (u : State) x =>
    (forEach (List.range 64) (fun v w => v.setLw x.1 (4 * w) (x.2.1.getD w 0)) u).setLoopRt x.1 x.2.2) s1

/-- Matched tasks carry their cycle, H_j and task time, their counts and their bits of the task masks; a new task starts afresh,
and of a dropped task nothing is left to publish (R120, R122; DEDUCED, assumption 233). The attributes of every task are the
new image's (R127). -/
def carryTasks (s : State) (map : List (Nat × Nat)) : State :=
  let from_ (k : Nat) : Option Nat := (map.find? (fun p => p.2 == k)).map (fun p => p.1)
  forEach allTasks (fun u k =>
    let u1 := forEach [0x00, 0x04, 0x08, 0x0C, 0x10] (fun v o =>
      (v.setReg pgSEQ (0x100 + 32 * k + o) (resetWord pgSEQ (0x100 + 32 * k + o) 0)).setShadow pgSEQ (0x100 + 32 * k + o)
        (resetWord pgSEQ (0x100 + 32 * k + o) 0)) u
    let u2 := forEach [0x14, 0x18, 0x1C] (fun v o => v.setReg pgSEQ (0x100 + 32 * k + o)
      (((from_ k).map (fun j => s.reg pgSEQ (0x100 + 32 * j + o))).getD 0)) u1
    let bit (f : State → Nat → Bool) : Bool := ((from_ k).map (f s)).getD false
    let u3 := ((u2.setMaskBit pgSEQ SEQ.HELD k (bit taskHeld)).setMaskBit pgSEQ SEQ.SHED k (bit taskShed)).setMaskBit pgPLACE
      PLACE.SHED_CAP k (bit (fun t j => t.maskBit pgPLACE PLACE.SHED_CAP j))
    u3.setTask k (((from_ k).map (fun j => { s.task j with meas := [], overB := false, goal := none, fill := false })).getD {})) s

/-- The module as the new image leaves it before its placement is installed (R120 to R122). -/
def exchanged (s : State) (im : StationImage) (map : InstanceMap) : State :=
  let oldCells := s.cellsUsed.map (fun c => (c, s.cellWords c))
  let gone := s.lSlots.filter (fun n => !(map.slots.any (fun p => p.1 == n)))
  let s0 := forEach oldCells.unzip.1 (fun u c => u.setCellWords c []) s
  let s1 := forEach gone (fun u n =>
    ((forEach (List.range 64) (fun v w => v.setLw n (4 * w) 0) (u.loopOutSafe n)).setLoopRt n {})) s0
  let s2 := (s1.carrySlots map.slots).carryTasks map.tasks
  let s3 : State := { s2 with seq := { s2.seq with image := some im, prep := none, kept := [] } }
  let s4 := ((im.regs.foldl (imageReg true) s3).imageFixed im).imageClasses
  let s4 := forEach (s3.slotsDiffer s4) (fun u k => u.slotApplied k) s4
  let s5 := ((s4.imageDir im false map.entries).layTasks.imageStates im false).imageLoops im true
  let s6 := (forEach s5.cellsUsed (fun u c => u.newCell c) s5).carryCells oldCells map.cells
  let s7 := forEach s6.cellsUsed (fun u c => u.cellKeep c) s6
  let s8 := map.vars.foldl (fun (u : State) v =>
    u.memCopy ((u.task v.2.1.1).place.home + v.2.1.2) s.mem ((s.task v.1.1).place.home + v.1.2) v.2.2) s7
  let timed := allTasks.filter (fun k => [0x00, 0x04, 0x08, 0x0C].any (fun o =>
    s.reg pgSEQ (0x100 + 32 * k + o) != s8.reg pgSEQ (0x100 + 32 * k + o)))
  let s9 := forEach timed (fun u k => u.dwyTaskChanged k) s8
  (s9.stnsLoaded s (im.regs.map (fun r => r.page.toNat))).imageLapse im

/-- At the window X the module changes to the new image in one step, with the placement of its preparation, or with a new one where
a pair of that is healthy no more (R120, R137; DESIGN CHOICE, assumption 234). -/
def exchange (s : State) (im : StationImage) (map : InstanceMap) (plan : Plan) : State :=
  let s1 := s.exchanged im map
  (if plan.pairs.all (fun e => s1.pairHealthy e.1) then s1.placeInstall 3 none plan else s1.placeRun 3 none).1

end State
end Sys2Proof.Machine
end

