-- ==== Sys2Proof/Machine/Tmr.lean ====
section
/-! DEFINITION. TMR: the calls of timer, counter and edge cells (R111 to R116). A call comes from task `k` in its current
cycle; its outputs stand in `Sequencer.cellQ`, `cellQd` and `cellV`. -/

namespace Sys2Proof.Machine
namespace State

/-- The outputs of a cell call. -/
def cellOut (s : State) (q qd : Bool) (v : Nat) : State :=
  { s with seq := { s.seq with cellQ := q, cellQd := qd, cellV := v } }

/-- A call of cell `c` as type `ty` by task `k` with its task time (R113): a cell of another task or type gives zero outputs,
CELL_ACCESS, code 0x049 and a lapse. Without a current cycle of the task nothing happens. -/
def cellCall (s : State) (k c ty : Nat) (f : State → Nat → State) : State :=
  match (s.task k).cur with
  | none => s
  | some cy =>
    if !s.pageOn pgTMR then s
    else if s.cellType c = ty ∧ s.cellTask c = k then
      let cells := if cy.cells.any (fun e => e.1 == c) then cy.cells else cy.cells ++ [(c, s.cellWords c)]
      (f (s.setTask k { s.task k with cur := some { cy with cells := cells } }) cy.tau).cellKeep c
    else
      let s1 := (s.lapsed k).setTask k { s.task k with cur := some { cy with lapsed := true } }
      ((s1.setFault pgTMR 16).raise pgTMR 0x049 0 [c, k, s.cellTask c]).cellOut false false 0

/-- Timer cells: Q, RUN, MEM_A, START and ET after a call (R114). -/
structure TimerCell where
  q : Bool
  run : Bool
  mem : Bool
  start : Nat
  et : Nat
deriving DecidableEq, Repr

/-- Elapsed task time, in 64 bits (R113). -/
def elapsed (t start : Nat) : Nat := (t + 18446744073709551616 - start) % 18446744073709551616

/-- TON (R114). -/
def ton (c : TimerCell) (t : Nat) (inp : Bool) (pt : Nat) : TimerCell :=
  if inp then
    let c1 := if !c.run && !c.q then { c with run := true, start := t } else c
    let e := elapsed t c1.start
    let c2 := if pt ≤ e then { c1 with q := true, run := false } else c1
    { c2 with et := min e pt }
  else { c with run := false, q := false, et := 0 }

/-- TOF (R114). -/
def tof (c : TimerCell) (t : Nat) (inp : Bool) (pt : Nat) : TimerCell :=
  if inp then { c with q := true, run := false, et := 0 }
  else if c.q then
    let c1 := if !c.run then { c with run := true, start := t } else c
    let e := elapsed t c1.start
    let c2 := if pt ≤ e then { c1 with q := false, run := false } else c1
    { c2 with et := min e pt }
  else c

/-- TP (R114). -/
def tp (c : TimerCell) (t : Nat) (inp : Bool) (pt : Nat) : TimerCell :=
  let c1 := if inp && !c.mem && !c.run then { c with run := true, start := t } else c
  let c2 :=
    if c1.run then
      let e := elapsed t c1.start
      let c3 := if pt ≤ e then { c1 with run := false } else c1
      { c3 with et := min e pt }
    else if !inp then { c1 with et := 0 } else c1
  { c2 with q := c2.run, mem := inp }

def timerOf (s : State) (c : Nat) : TimerCell :=
  { q := s.cellB c 19, run := s.cellB c 18, mem := s.cellB c 17, start := s.cell64 c 4, et := s.cell64 c 6 }

/-- A timer call: PT is stored, the cell evaluated, Q and ET returned. -/
def timerCall (s : State) (k c ty : Nat) (f : TimerCell → Nat → TimerCell) (pt : Nat) : State :=
  s.cellCall k c ty (fun s t =>
    let r := f (s.timerOf c) t
    let s1 := (((s.setCell64 c 2 pt).setCellB c 19 r.q).setCellB c 18 r.run).setCellB c 17 r.mem
    ((s1.setCell64 c 4 r.start).setCell64 c 6 r.et).cellOut r.q false r.et)

/-- Limits of a count (R115). -/
def max64 : Int := 9223372036854775807
def min64 : Int := -9223372036854775808

def cvOf (s : State) (c : Nat) : Int := signed 64 (s.cell64 c 4)

/-- Counting steps of CTU and CTD (R115). -/
def countUp (cv : Int) (cu mem : Bool) : Int := if cu && !mem && decide (cv < max64) then cv + 1 else cv
def countDown (cv : Int) (cd mem : Bool) : Int := if cd && !mem && decide (min64 < cv) then cv - 1 else cv

/-- A counter call: PV, CV, both memories and Q are stored. -/
def counterEnd (s : State) (c : Nat) (pv : Nat) (cv : Int) (memA memB q qd : Bool) : State :=
  let s1 := ((s.setCell64 c 2 pv).setCell64 c 4 (unsigned 64 cv)).setCellB c 17 memA
  ((s1.setCellB c 16 memB).setCellB c 19 q).cellOut q qd (unsigned 64 cv)

/-- R_TRIG and F_TRIG (R115). DESIGN CHOICE (assumption 229): the call also stores its result in the cell's Q bit (R129). -/
def edgeCall (s : State) (k c ty : Nat) (clk fall : Bool) : State :=
  s.cellCall k c ty (fun s _ =>
    let mem := if s.cellB c 20 then (if s.cellB c 21 then fall else clk) else s.cellB c 17
    let q := if fall then !clk && mem else clk && !mem
    (((s.setCellB c 20 false).setCellB c 17 clk).setCellB c 19 q).cellOut q false 0)

/-- The FAST cells of a task latch their running counts at its freeze (R116). -/
def latchFast (s : State) (k : Nat) : State :=
  forEach (s.cellsUsed.filter (fun c => s.cellType c == 7 && s.cellTask c == k)) (fun u c =>
    (u.setCell64 c 2 (u.cell64 c 4)).cellKeep c) s

end State

/-! ### The commands -/

/-- TON (R114): task `k` calls cell `c`. -/
def execTon (k : Fin 32) (c : Fin 4096) (inp : Bool) (pt : BitVec 64) (s : State) : Out :=
  .next (s.timerCall k.val c.val 1 (fun r t => State.ton r t inp pt.toNat) pt.toNat)

/-- TOF (R114). -/
def execTof (k : Fin 32) (c : Fin 4096) (inp : Bool) (pt : BitVec 64) (s : State) : Out :=
  .next (s.timerCall k.val c.val 2 (fun r t => State.tof r t inp pt.toNat) pt.toNat)

/-- TP (R114). -/
def execTp (k : Fin 32) (c : Fin 4096) (inp : Bool) (pt : BitVec 64) (s : State) : Out :=
  .next (s.timerCall k.val c.val 3 (fun r t => State.tp r t inp pt.toNat) pt.toNat)

/-- CTU (R115). -/
def execCtu (k : Fin 32) (c : Fin 4096) (cu r : Bool) (pv : BitVec 64) (s : State) : Out :=
  .next (s.cellCall k.val c.val 4 (fun s _ =>
    let cv := if r then 0 else State.countUp (s.cvOf c.val) cu (s.cellB c.val 17)
    s.counterEnd c.val pv.toNat cv cu (s.cellB c.val 16) (decide (pv.toInt ≤ cv)) false))

/-- CTD (R115). -/
def execCtd (k : Fin 32) (c : Fin 4096) (cd ld : Bool) (pv : BitVec 64) (s : State) : Out :=
  .next (s.cellCall k.val c.val 5 (fun s _ =>
    let cv := if ld then pv.toInt else State.countDown (s.cvOf c.val) cd (s.cellB c.val 16)
    s.counterEnd c.val pv.toNat cv (s.cellB c.val 17) cd (decide (cv ≤ 0)) false))

/-- CTUD (R115): R dominates LD; QU and QD. -/
def execCtud (k : Fin 32) (c : Fin 4096) (cu cd r ld : Bool) (pv : BitVec 64) (s : State) : Out :=
  .next (s.cellCall k.val c.val 6 (fun s _ =>
    let cv := if r then 0 else if ld then pv.toInt
      else State.countDown (State.countUp (s.cvOf c.val) cu (s.cellB c.val 17)) cd (s.cellB c.val 16)
    s.counterEnd c.val pv.toNat cv cu cd (decide (pv.toInt ≤ cv)) (decide (cv ≤ 0))))

/-- R_TRIG (R115). -/
def execRTrig (k : Fin 32) (c : Fin 4096) (clk : Bool) (s : State) : Out := .next (s.edgeCall k.val c.val 8 clk false)

/-- F_TRIG (R115). -/
def execFTrig (k : Fin 32) (c : Fin 4096) (clk : Bool) (s : State) : Out := .next (s.edgeCall k.val c.val 9 clk true)

/-- FAST (R116): the latched count less the base; with RESET the base becomes the latched count. -/
def execFast (k : Fin 32) (c : Fin 4096) (reset : Bool) (s : State) : Out :=
  .next (s.cellCall k.val c.val 7 (fun s _ =>
    let latched := s.cell64 c.val 2
    if reset then (s.setCell64 c.val 6 latched).cellOut false false 0
    else s.cellOut false false (State.elapsed latched (s.cell64 c.val 6))))

/-- FAST_EDGE (R116): a counted edge of a DIO channel, an input without pulsed sampling, raises the running count of the FAST
cells that count it. -/
def execFastEdge (ch : Fin 64) (rising : Bool) (s : State) : Out :=
  .next (if s.pageOn pgTMR && s.dioMode ch.val == 2 then
      forEach (s.cellsUsed.filter (fun c => s.cellType c == 7 && s.cellF c 5 0 == ch.val
          && bitOf (s.cellF c 7 6) (if rising then 0 else 1)))
        (fun u c => (u.setCell64 c 4 ((u.cell64 c 4 + 1) % 18446744073709551616)).cellKeep c) s
    else s)

end Sys2Proof.Machine
end

