-- ==== Sys2Proof/Machine/Seq.lean ====
section
/-! DEFINITION. SEQ: the instants of a task (R91 to R99), Run, Stop and Hold (R100 to R110), online exchange (R118 to
R124). -/

namespace Sys2Proof.Machine
namespace State

/-! ### Freeze -/

/-- A freeze of task `k`: index `m`, instant `at_` (R91): image, task time and fast counts are latched, the working copy is coherent
with the home (R141), and the task becomes ready. -/
def freeze (s : State) (k m at_ : Nat) : State :=
  let im := s.freezeImage k at_
  let s1 := (s.latchFast k).fillTask k
  let t := s1.task k
  let tau := unsigned 64 ((at_ : Int) - t.held)
  let s2 := s1.setTask k { t with
    cur := some { m := m, at_ := at_, tau := tau, frozen := im, ready := !t.fill, lapsed := !(s.on pgPLACE PLACE.DET.BUILT) }
    frzTau := tau, step := false }
  let s3 : State := { s2 with frozeAt := Store.set 0 s2.frozeAt k (s2.e + 1) }
  let s4 := s3.put pgSEQ (SEQ.CYCLE k) (cycleNo m)
  if s.on pgPLACE PLACE.DET.BUILT && !t.resume then s4
  else (s4.lapsed k).setTask k { s4.task k with resume := false }

/-- Task `k` is held from this freeze instant (R106). -/
def wantsHold (s : State) (k : Nat) : Bool :=
  s.on pgSEQ HDR.CTRL.HOLD && s.maskBit pgSEQ SEQ.HOLD_MASK k && !s.taskSd k

/-- The freeze instant `at_` of index `m` on the duty (R97, R106 to R110, R112). -/
def freezeInstant (s0 : State) (k m at_ : Nat) : State :=
  let s := match (s0.task k).cur with
    | some c => if c.lost.isSome then s0.loseCycle k else s0
    | none => s0
  let t := s.task k
  if t.cur.isSome || s.taskShed k then s
  else if s.wantsHold k then
    if t.step then (s.raise pgSEQ 0x043 2 [k]).freeze k m at_
    else
      let s1 := if s.taskHeld k then s else (s.setMaskBit pgSEQ SEQ.HELD k true).raise pgSEQ 0x043 0 [k]
      ((s1.setTask k { t with held := t.held + (s.taskT k : Int) }).lapsed k).syncWatch
  else
    let s1 := if s.taskHeld k then (s.setMaskBit pgSEQ SEQ.HELD k false).raise pgSEQ 0x043 1 [k] else s
    if (s1.task k).host.isNone then s1.setTask k { s1.task k with step := false } else s1.freeze k m at_

/-! ### Publish -/

/-- The bytes of the cycle digest (R154). -/
def digestBytes (s : State) (k : Nat) (c : TaskCycle) : List Byte :=
  let entries := (s.producedBy k).filter (fun i => !s.dirBit i 8)
  leBytes (cycleNo c.m) 4 ++ leBytes c.tau 8
    ++ entries.flatMap (fun i => leBytes i 4 ++ leBytes (s.dirQual i) 1
        ++ Memory.bytes s.mem (if s.dirForced i then forceBase + i * 16 else s.dirAddr i) (s.dirSize i))
    ++ (lineSort (c.lines.map (fun l => (0, l.1, l.2)))).flatMap (fun l =>
        leBytes (64 * l.2.1) 4 ++ (l.2.2 ++ List.replicate 64 0).take 64)
    ++ ((c.cells.map (fun e => e.1)).foldl (fun acc x => insNum x acc) []).flatMap (fun x =>
        leBytes x 2 ++ ([0, 2, 3, 4, 5, 6, 7].flatMap (fun w => leBytes (s.cellW x w) 4)))

/-- The output entries and the state of a finished cycle become visible at instant `p` (R92, R93). -/
def publishOuts (s : State) (k p : Nat) (c : TaskCycle) : State :=
  let mine := c.outs.filter (fun o => s.dirType o.1 != 0 && s.dirProdKind o.1 == 3 && s.dirProdId o.1 == k)
  let s1 := mine.foldl (fun (u : State) o => (u.keepBefore p o.1).imgWrite o.1 (leNat o.2.2) o.2.1) s
  let home := (s.task k).place.home
  c.lines.foldl (fun (u : State) l => u.memPut (home + 64 * l.1) ((l.2 ++ List.replicate 64 0).take 64)) s1

/-- The copy of a publish to the partner (R388); `late`: the copy of the cycle before has not been committed (R389). -/
def publishCopy (s : State) (k : Nat) (c : TaskCycle) (late : Bool) : State :=
  if s.role == 1 && s.paired && s.taskRed k then
    let outs := c.outs.map (fun o => o.1)
    let wrote (p : CopyPart) (j : Nat) : Bool := match p with
      | .state ofs => c.lines.any (fun l => l.1 == ofs.toNat / 64 + j)
      | .value i => outs.contains i.val
      | .shadow i => outs.contains i.val && s.dirForced i.val
    let asked := s.pair.pShTask == k && s.pair.pShCycle == cycleNo c.m
    let lines := s.memLines k wrote ++ s.w3Lines outs ++ s.cellLines (c.cells.map (fun e => e.1)) ++ s.stnLines k
      ++ (if asked then s.frozenLines c.frozen else [])
    let all := if late then (s.task k).lastLines ++ lines else lines
    let s1 := if late then
        let u := s.incMod pgDVL DVL.COPY_LATE
        let key := 0x20C00 + k
        if u.mayRecord key then (u.raise pgDVL 0x20C 0 [k, cycleNo c.m]).markRecord key else u
      else s
    s1.sendCopy k (cycleNo c.m) c.tau (s.task k).digest (!c.late && !c.lapsed) false asked all
  else s

/-- The first publish of a redundant task after a switchover closes the gap (R394). -/
def closeGap (s : State) (k : Nat) : State :=
  match s.pair.gapFrom with
  | some g =>
    if s.taskRed k then
      (s.put pgPAIR PAIR.LAST_SWITCH.GAP_US (min 268435455 ((s.e - g) / 1000))).setPair { s.pair with gapFrom := none }
    else s
  | none => s

/-- The on-board output values of task `k` are latched for the next apply instant (R91). -/
def latch (s : State) (k : Nat) : State :=
  s.setTask k { s.task k with latched := (s.producedBy k).map s.imgOut }

/-- A finished cycle is published at instant `p` (R91, R93, R98, R112, R139, R154). -/
def publish (s : State) (k p : Nat) (c : TaskCycle) (copyLate : Bool) : State :=
  let s1 := s.publishOuts k p c
  let d := (crc64 (s1.digestBytes k c)).toNat
  let s2 := s1.setTask k { s1.task k with
    cur := none, lastTau := some c.tau, live := true, digest := d, digestCycle := cycleNo c.m, pubAt := s1.e + 1 }
  let s3 := (s2.put pgSEQ (SEQ.TSTAT.CONSEC_OVR k) 0).publishCopy k c copyLate
  (s3.closeGap k).moveWindow k

/-- Task `k` overruns at P_n of index `m` (R97, R99). -/
def overrun (s : State) (k m : Nat) (c : TaskCycle) : State :=
  let n := s.get pgSEQ (SEQ.TSTAT.CONSEC_OVR k)
  let s1 := (s.setTask k { s.task k with cur := some { c with late := true } }).incMod pgSEQ (SEQ.TOVR k)
  let s2 := ((s1.put pgSEQ (SEQ.TSTAT.CONSEC_OVR k) (min 15 (n + 1))).setFault pgSEQ 16).raise pgSEQ 0x041 0
    [k, cycleNo m, min 15 (n + 1)]
  let s3 := s2.lapsed k
  if n + 1 = 3 then
    let s4 := s3.setMaskBit pgSEQ SEQ.OVR3 k true
    (s4.edge (faultKey pgSEQ (32 + k))).raise pgSEQ 0x042 0 [k, s4.classOf (57 + k)]
  else s3

/-- What P_n, the instant `p` of index `m`, does to the current cycle: the state, and whether something was published. -/
def publishInstant (s : State) (k m p : Nat) (copyLate : Bool) : State × Bool :=
  match (s.task k).cur with
  | none => (s, false)
  | some c =>
    if c.lost.isSome then (s.loseCycle k, false)
    else if c.done then (s.publish k p c copyLate, true)
    else if s.on pgSEQ SEQ.STATUS.STOP_PENDING then (s.abandon k, false)
    else if c.takeover then (s, false)
    else (s.overrun k m c, false)

/-! ### Run, Stop, Hold -/

/-- The task configuration is outside R88 (R101 reason 2): the offset of the first bad field. -/
def taskBad (s : State) (k : Nat) : Option Nat :=
  let t := s.get pgSEQ (SEQ.PERIOD.TICKS k)
  let p := s.get pgSEQ (SEQ.PUB.OFS k)
  let l := bits (s.get pgSEQ (SEQ.LIN k)) 7 0
  if t < 4 ∨ 40000 < t then some (SEQ.PERIOD.TICKS k).off
  else if t ≤ s.get pgSEQ (SEQ.PHASE.TICKS k) then some (SEQ.PHASE.TICKS k).off
  else if p < 10 ∨ 25 * t < p + 10 then some (SEQ.PUB.OFS k).off
  else if l < 5 ∨ 100 < l ∨ 25 * t ≤ l then some (SEQ.LIN k).off
  else none

def configBad (s : State) : Bool :=
  s.tasksOn.any (fun k => (s.taskBad k).isSome || (s.taskSd k && s.taskSheddable k)
    || s.tasksOn.any (fun j => j != k && s.taskPrio j == s.taskPrio k))

/-- Why RUN = 1 is refused in Stop (R101); 0 where it is not. -/
def runReason (s : State) : Nat :=
  if !(s.on pgSUP SUP.IMAGE_STATUS.LOADED) then 1
  else if s.configBad then 2
  else if s.on pgSEQ SEQ.STATUS.STOP_PENDING || s.on pgSEQ SEQ.STATUS.XCHG_ACTIVE then 3
  else if !s.duty || !s.boot.reachedStop then 4
  else if s.seq.unplaced.any (fun k => s.taskSd k) then 5
  else 0

def setWriter (s : State) (m : Nat) (run : Bool) : State :=
  { s with seq := { s.seq with writer := m, touched := s.seq.touched || run } }

/-- RUN = 1 written to SEQ by master `m` (R67, R101, R102). -/
def seqRun (s0 : State) (m : Nat) : State :=
  let s := s0.setWriter m true
  if !s.pageOn pgSEQ || s.isFenced pgSEQ then s.put pgSEQ HDR.CTRL.RUN 1
  else if s.on pgSEQ HDR.CTRL.RUN then s
  else
    let r := s.runReason
    if r = 0 then (s.put pgSEQ HDR.CTRL.RUN 1).put pgSEQ SEQ.STATUS.RUN_PENDING 1
    else ((s.put pgSEQ SEQ.RUN_INFO.LAST_REFUSAL r).setFault pgSEQ 17).raise pgSEQ 0x048 0 [r]

/-- RUN = 0 written to SEQ by master `m` (R102, R104). -/
def seqStop (s0 : State) (m : Nat) : State :=
  let s := (s0.setWriter m true).put pgSEQ HDR.CTRL.RUN 0
  if s.on pgSEQ SEQ.STATUS.RUN_PENDING then s.put pgSEQ SEQ.STATUS.RUN_PENDING 0
  else if s.seq.running then
    (forEach allTasks (fun u k => if (u.task k).step then u.setTask k { u.task k with step := false } else u)
      (s.put pgSEQ SEQ.STATUS.STOP_PENDING 1)).xchgDisturb
  else s

/-- HOLD written to SEQ by master `m` (R67, R100, R106). -/
def seqHold (s : State) (m : Nat) (v : Bool) : State :=
  let s1 := (s.setWriter m false).putB pgSEQ HDR.CTRL.HOLD v
  if s1.pageOn pgSEQ then s1.seqRefresh else s1

/-- Pages of the service port pass to local firmware at Run entry (R75). -/
def ownersAtRun (s : State) : State :=
  forEach (allPages.filter (fun p => s.owner p == 2)) (fun u p => (u.put p HDR.OWNER 0).raise p 0x029 0 [2, 0]) s

/-- Run entry at T_run (R102, R112, R117). -/
def runEntry (s : State) : State :=
  let s1 := (s.seqRunning true).put pgSEQ SEQ.STATUS.RUN_PENDING 0
  let s2 := forEach allTasks (fun u k =>
    (u.setTask k { u.task k with live := false, step := false, cur := none, gridAt := 0 }).heldAtEntry k u.e)
    (s1.put pgSEQ SEQ.HELD 0).ownersAtRun.seqRefresh
  (forEach (s2.cellsUsed.filter (fun c => !s2.cellRetain c)) (fun u c => u.cellReset c) s2).loopRunEntry.dioRunEntry

/-- A mode transition is pending, or SEQ is in Hold (R123 reason 3). -/
def xchgBlocked (s : State) : Bool :=
  s.st pgSEQ == 4 || s.on pgSEQ SEQ.STATUS.STOP_PENDING || s.on pgSEQ SEQ.STATUS.RUN_PENDING

def xchgState (s : State) : Nat := s.get pgSEQ SEQ.XCHG_STATUS.STATE
def setXchg (s : State) (v : Nat) : State := (s.put pgSEQ SEQ.XCHG_STATUS.STATE v).xchgActive

/-- The next instant of a sequence with base `base` and period `period` at or after `x`. -/
def nextInstant (x base period : Nat) : Nat := if x ≤ base then base else base + (x - base + period - 1) / period * period

/-- Now is a window (R119): no task is ready or executing, and no freeze or publish instant lies within 200 µs; in Stop every
instant is one. -/
def isWindow (s : State) : Bool :=
  s.tasksOn.all (fun k => match (s.task k).cur with
    | some c => c.done
    | none => true)
  && (!s.seq.running || s.tasksOn.all (fun k =>
    decide (s.e + 200000 < nextInstant s.e (s.taskP k * 250000) (s.taskT k))
      && decide (s.e + 200000 < nextInstant s.e (s.taskP k * 250000 + s.taskPub k) (s.taskT k))))

/-- The exchange takes place at X, which is now (R120). -/
def applyAt (s : State) (p : StationImage × InstanceMap × Plan) (ns : Nat) : State :=
  let slot := 1 - s.get pgSUP SUP.IMAGE_STATUS.ACTIVE_SLOT
  let s1 := (s.exchange p.1 p.2.1 p.2.2).put pgSUP SUP.IMAGE_STATUS.ACTIVE_SLOT slot
  let s2 := (s1.put pgSUP SUP.IMAGE_STATUS.IMAGE_CARRIER p.1.carrier.val).putB pgSUP SUP.IMAGE_STATUS.ANY_CARRIER p.1.anyCarrier
  ((s2.put pgSEQ SEQ.XCHG_TIME ns).setXchg 4).raise pgSEQ 0x046 0 [ns, slot, s.tick]

/-- The slot that is not active (R118). -/
def inactiveSlot (s : State) : Nat := 1 - s.get pgSUP SUP.IMAGE_STATUS.ACTIVE_SLOT

/-- An exchange step on a paired duty also acts on the partner (R124): code 1 to 3 as XCHG_CMD takes them, and 4, with X in the
place of the address, for the window that the duty has chosen (DESIGN CHOICE, assumption 235). -/
def xchgPartner (s : State) (code : Nat) : State :=
  if s.role == 1 && s.paired then
    let a := if code = 4 then s.e else pageBase + pgSEQ * 4096 + 0x060
    let s1 := s.dvlSend 7 (beBytes s.pair.tag 2 ++ [4, 0] ++ beBytes a 8 ++ beBytes code 4)
    s1.setPair { s1.pair with tag := (s.pair.tag + 1) % 65536 }
  else s

end State

/-! ### The commands -/

/-- TASK_FREEZE (R90, R91): the freeze instant of task `k`; at another instant nothing happens. -/
def execTaskFreeze (k : Fin 32) (s : State) : Out :=
  .next (if !s.pageOn pgSEQ || s.inSequence || !s.seq.running || s.on pgSEQ SEQ.STATUS.STOP_PENDING || !s.taskOn k.val then s
    else match s.atFreeze k.val with
      | none => s
      | some (m, at_) =>
        if s.role = 2 then
          (if s.taskRed k.val then s.setTask k.val { s.task k.val with sbFrozen := some (m, s.freezeImage k.val at_) } else s)
        else (s.dwyEvaluateAt k.val m at_).freezeInstant k.val m at_)

/-- TASK_EXECUTION_END (R95, R96): task `k` finishes after `us` µs. `outs` are the output entries it wrote, with quality and
value; `lines` the 64-byte lines of its state. After a takeover an execution that ends after P_m publishes at once (R393). -/
def execTaskExecutionEnd (k : Fin 32) (us : BitVec 32) (outs : List (Fin 32768 × Fin 16 × List Byte))
    (lines : List (BitVec 32 × List Byte)) (s : State) : Out :=
  .next (match (s.task k.val).cur with
    | some c =>
      if c.done || c.lost.isSome || !c.ready || !s.pageOn pgSEQ || s.inSequence then s
      else
        let c1 := { c with done := true, outs := outs.map (fun o => (o.1.val, o.2.1.val, o.2.2)),
                           lines := lines.map (fun l => (l.1.toNat, (l.2 ++ List.replicate 64 0).take 64)) }
        let s0 := c1.lines.foldl (fun (u : State) l => u.memPut (s.blockAt k.val 0 + 64 * l.1) l.2) s
        let s1 := (s0.setTask k.val { s0.task k.val with cur := some c1 }).put pgSEQ (SEQ.TSTAT.EXEC_US k.val) (min 65535 us.toNat)
        let s2 := s1.measured k.val us.toNat
        let p := c.at_ + s2.taskPub k.val
        if c.takeover && decide (p < s2.e) then
          (((s2.publish k.val s2.e c1 false).latch k.val).dwyCycleOut k.val c.m false).raise pgPAIR 0x212 0 [k.val, State.cycleNo c.m, (s2.e - p) / 1000]
        else s2
    | none => s)

/-- TASK_PUBLISH (R91, R97, R104, R107, R139): P_n of task `k`; at another instant nothing happens. CYCLE_OUT leaves in every case,
the outputs are latched, and a task without a cycle left is in its move window. -/
def execTaskPublish (k : Fin 32) (copyLate : Bool) (s : State) : Out :=
  .next (if !s.pageOn pgSEQ || s.inSequence || !s.taskOn k.val || s.role == 2 then s
    else match s.atPublish k.val with
      | none => s
      | some (m, p) =>
        let had := (s.task k.val).cur.isSome || s.taskHeld k.val || (s.task k.val).resume
        let r := s.publishInstant k.val m p copyLate
        let s1 := r.1.latch k.val
        ((if (s1.task k.val).cur.isNone then s1.moveWindow k.val else s1).dwyCycleOut k.val m (had && !r.2)).syncWatch)

/-- TASK_APPLY (R91, R99): S_{n+1}, at which the on-board outputs of task `k` take what was latched at P_n, or, where it is shed,
their safe values; at another instant nothing happens. -/
def execTaskApply (k : Fin 32) (s : State) : Out :=
  .next (if !s.pageOn pgSEQ || s.inSequence || !s.seq.running || (s.atFreeze k.val).isNone then s
    else if s.taskShed k.val then
      forEach (s.producedBy k.val) (fun u i => (u.dioSafeOf i).anaSafeOf i) s
    else if (s.task k.val).live then
      (s.task k.val).latched.foldl (fun u o => ((u.dioApply o).anaApply o).axApply o) s
    else s)

/-- SEQ_RUN (R101): master `m` writes RUN = 1 to SEQ. -/
def execSeqRun (m : Fin 4) (s : State) : Out := .next (s.action pgSEQ 0x00C m.val (fun s => s.seqRun m.val))

/-- RUN_ENTRY (R102): T_run. -/
def execRunEntry (s : State) : Out :=
  .next (if s.on pgSEQ SEQ.STATUS.RUN_PENDING && s.pageOn pgSEQ && !s.inSequence then s.runEntry else s)

/-- AUTORUN (R73, R103): SUP writes RUN = 1 as local firmware, once in a start. -/
def execAutorun (s : State) : Out :=
  .next (if s.on pgSEQ SEQ.CFG.AUTORUN && !s.seq.touched && s.duty && s.boot.reachedStop && !s.boot.maint then
      (s.setWriter s.seq.writer true).action pgSEQ 0x00C 0 (fun s => s.seqRun 0)
    else s)

/-- SEQ_STOP (R104): master `m` writes RUN = 0 to SEQ. -/
def execSeqStop (m : Fin 4) (s : State) : Out := .next (s.action pgSEQ 0x00C m.val (fun s => s.seqStop m.val))

/-- STOP_COMPLETE (R104): T_stop, once every cycle frozen before T_req has published or been abandoned. -/
def execStopComplete (s : State) : Out :=
  .next (if s.on pgSEQ SEQ.STATUS.STOP_PENDING && State.allTasks.all (fun k => (s.task k).cur.isNone) then s.stopNow else s)

/-- SEQ_HOLD (R106): master `m` writes HOLD = 1 to SEQ. -/
def execSeqHold (m : Fin 4) (s : State) : Out := .next (s.action pgSEQ 0x00C m.val (fun s => s.seqHold m.val true))

/-- SEQ_RELEASE (R108): master `m` writes HOLD = 0 to SEQ. -/
def execSeqRelease (m : Fin 4) (s : State) : Out := .next (s.action pgSEQ 0x00C m.val (fun s => s.seqHold m.val false))

/-- HOLD_MASK (R106, R109): master `m` writes `v`; bits of shut-down-class tasks stay 0. -/
def execHoldMask (m : Fin 4) (v : BitVec 32) (s : State) : Out :=
  .next (s.action pgSEQ SEQ.HOLD_MASK.off m.val (fun s =>
    let bad := State.allTasks.filter (fun k => v.getLsbD k && s.taskSd k)
    let ok := State.allTasks.foldl (fun acc k => if v.getLsbD k && !s.taskSd k then acc + 2 ^ k else acc) 0
    forEach bad (fun u k => (u.setFault pgSEQ 19).raise pgSEQ 0x044 0 [k]) (s.put pgSEQ SEQ.HOLD_MASK ok)))

/-- STEP (R110): master `m` writes `v`; a task that is held, with no step pending or running, runs one cycle. -/
def execStep (m : Fin 4) (v : BitVec 32) (s : State) : Out :=
  .next (s.action pgSEQ SEQ.STEP.off m.val (fun s =>
    forEach (State.allTasks.filter (fun k => v.getLsbD k && s.taskHeld k && !(s.task k).step && (s.task k).cur.isNone))
      (fun u k => u.setTask k { u.task k with step := true }) s))

/-- PREPARE (R118, R123): master `m` writes PREPARE to `XCHG_CMD`. -/
def execPrepare (m : Fin 4) (s : State) : Out :=
  .next (s.action pgSEQ SEQ.XCHG_CMD.CODE.off m.val (fun s =>
    if s.xchgState = 1 ∨ s.xchgState = 3 then s
    else
      let s1 : State := { s with seq := { s.seq with prep := none } }
      if (Store.get none s.seq.images s.inactiveSlot).isNone then (s1.xchgRefuse 1 0).xchgActive
      else if s.xchgBlocked then (s1.xchgRefuse 3 0).xchgActive
      else ((s1.put pgSEQ SEQ.XCHG_STATUS.REASON 0).setXchg 1).xchgPartner 1))

/-- EXCHANGE_PREPARED (R118, R121, R123): the preparation ends. `built`: SUP could read the image and build the map; `partner`: a
paired partner has prepared the same image. The instance map and the placement are kept for the window. DESIGN CHOICE
(assumption 236): the order in which the reasons are tested, and that a task which R134 places nowhere is reason 5. -/
def execExchangePrepared (built partner : Bool) (s : State) : Out :=
  .next (if s.xchgState = 1 then
      (match built, Store.get none s.seq.images s.inactiveSlot with
      | true, some im =>
        let old := (s.seq.image.map (fun o => o.instances)).getD []
        let map := State.instanceMap old im.instances
        let t := s.exchanged im map
        let plan := t.runPlan 3 none
        if State.needsTooMuch im then (s.xchgRefuse 4 0).xchgActive
        else if !plan.left.isEmpty || !plan.shed.isEmpty || !plan.full.isEmpty then (s.xchgRefuse 5 0).xchgActive
        else if s.role == 1 && s.paired && !partner then (s.xchgRefuse 7 0).xchgActive
        else
          let s1 : State := { s with seq := { s.seq with prep := some (im, map, plan) } }
          let s2 := ((s1.put pgSEQ SEQ.XCHG_MATCH.MATCHED map.matched).put pgSEQ SEQ.XCHG_MATCH.NEW map.fresh).put
            pgSEQ SEQ.XCHG_DROP.DROPPED map.dropped
          (s2.setXchg 2).raise pgSEQ 0x045 0 [map.matched, map.fresh, map.dropped]
      | _, _ => (s.xchgRefuse 9 0).xchgActive)
    else s)

/-- APPLY (R119, R123): master `m` writes APPLY to `XCHG_CMD`; `partner`: a paired partner has prepared the same image. -/
def execApply (m : Fin 4) (partner : Bool) (s : State) : Out :=
  .next (s.action pgSEQ SEQ.XCHG_CMD.CODE.off m.val (fun s =>
    if s.xchgState = 1 ∨ s.xchgState = 3 then s
    else if s.seq.prep.isNone then (s.xchgRefuse 2 1).xchgActive
    else if s.xchgBlocked then (s.xchgRefuse 3 1).xchgActive
    else if s.role == 1 && s.paired && !partner then (s.xchgRefuse 7 1).xchgActive
    else (({ s with seq := { s.seq with searchAt := s.e } } : State).setXchg 3).xchgPartner 2))

/-- EXCHANGE_WINDOW (R119, R120, R124): the window X, within 2 s of the APPLY; the exchange takes `ns`. A paired standby follows the X
of the duty. -/
def execExchangeWindow (ns : BitVec 32) (s : State) : Out :=
  .next (match s.seq.prep with
    | some p =>
      if s.xchgState = 3 ∧ s.isWindow = true ∧ s.e ≤ s.seq.searchAt + 2000000000 ∧ (s.role ≠ 2 ∨ s.paired = false) then
        (s.applyAt p ns.toNat).xchgPartner 4
      else s
    | none => s)

/-- EXCHANGE_SEARCH_TIMEOUT (R123 reason 6): no window within 2 s. -/
def execExchangeSearchTimeout (s : State) : Out :=
  .next (if s.xchgState = 3 then (s.xchgRefuse 6 1).xchgActive else s)

/-- CANCEL (R118, R123): master `m` writes CANCEL to `XCHG_CMD`. -/
def execCancel (m : Fin 4) (s : State) : Out :=
  .next (s.action pgSEQ SEQ.XCHG_CMD.CODE.off m.val (fun s =>
    let st := s.xchgState
    let s1 := if st = 3 then s.xchgRefuse 8 1 else s
    if 1 ≤ st ∧ st ≤ 3 then (({ s1 with seq := { s1.seq with prep := none } } : State).setXchg 0) else s))

end Sys2Proof.Machine
end

