-- ==== Sys2Proof/Machine/Run.lean ====
section
/-! DEFINITION. What a write of RUN or HOLD does on each kind of page (R67, R157, R205, R207, R239, R324, R336, R350, R367,
R376, R402, R496), and what fencing and re-admitting do to each unit (R410, R414). -/

namespace Sys2Proof.Machine
namespace State

/-! ### Refused starts -/

/-- A Locked field breaks its range: RUN stays 0, STAGE_INVALID and code 0x022 (R207, R336). -/
def runRefused (s : State) (page off : Nat) : State := (s.setFault page 3).raise page 0x022 0 [off]

def powerOfTwo (n : Nat) : Bool := [4, 8, 16, 32, 64, 128, 256, 512, 1024].contains n

/-- The first Locked field of an Ethernet port that its RUN refuses (R336, R338): its offset. -/
def ethReject (s : State) (p : Nat) : Option Nat :=
  let pg := pgETH p
  let sizeBad (n : Nat) : Bool := n != 0 && !powerOfTwo n
  let baseBad (base n : Nat) : Bool := base % 16 != 0 || (n != 0 && !inTier12 base (n * 16))
  if s.get pg ETH.CFG.ADV = 0 then some 0x040
  else (List.range 8).findSome? (fun q =>
    let tn := s.get pg ETH.TXQ_SIZE.SIZE q
    let rn := s.get pg ETH.RXQ_SIZE.SIZE q
    if baseBad (s.txqBase p q) tn then some 0x050
    else if sizeBad tn then some 0x058
    else if baseBad (s.rxqBase p q) rn then some 0x068
    else if sizeBad rn then some 0x070
    else none)

/-- The first Locked field of a CAN controller that its RUN refuses (R340, R341, R350, R353): its offset. -/
def canReject (s : State) (n : Nat) : Option Nat :=
  let pg := pgCAN n
  let nb := s.get pg CAN.NBT.BRP
  let n1 := s.get pg CAN.NBT.TSEG1
  let n2 := s.get pg CAN.NBT.TSEG2
  let nj := s.get pg CAN.NBT.SJW
  let db := s.get pg CAN.DBT.BRP
  let d1 := s.get pg CAN.DBT.TSEG1
  let d2 := s.get pg CAN.DBT.TSEG2
  let dj := s.get pg CAN.DBT.SJW
  if nb < 1 ∨ 32 < nb ∨ n1 < 2 ∨ n2 < 2 ∨ 128 < n2 ∨ nj < 1 ∨ n2 < nj ∨ nb * (1 + n1 + n2) < 80 then some 0x044
  else if db < 1 ∨ 16 < db ∨ d1 < 1 ∨ 32 < d1 ∨ d2 < 1 ∨ 16 < d2 ∨ dj < 1 ∨ d2 < dj ∨ db * (1 + d1 + d2) < 10 then
    some 0x048
  else if s.canTxBase n % 16 ≠ 0 ∨ inTier12 (s.canTxBase n) 5120 = false then some 0x04C
  else if s.canRxBase n % 16 ≠ 0 ∨ inTier12 (s.canRxBase n) 10240 = false then some 0x054
  else none

/-! ### RUN -/

def setRun (s : State) (page : Nat) (v : Bool) : State := (s.putB page HDR.CTRL.RUN v).refreshState page

/-- A channel group starts: every channel waits for its first accepted level, and in Stop its outputs take their safe
behaviour (R44, R359, R376). -/
def dioRun (s : State) (g : Nat) : State :=
  match (List.range 8).find? (fun c => decide (4 < s.get (pgDIOG g) (DIOG.CH_CFG.MODE c))) with
  | some c => s.runRefused (pgDIOG g) (DIOG.CH_CFG.MODE c).off
  | none =>
    let s1 := s.setRun (pgDIOG g) true
    let s2 := forEach (dioChans g) (fun u ch => u.setDioRt ch { u.dioRt ch with accepted := false }) s1
    if s2.seq.running then s2.dioRefreshGroup g
    else forEach ((dioChans g).filter (fun ch => s2.dioIsOut ch)) (fun u ch => u.dioSafe ch) s2

/-- An analogue channel starts; in Stop an output takes its safe behaviour (R44, R367). -/
def anaRun (s : State) (n : Nat) : State :=
  if 4 < s.anaType n then s.runRefused (pgANA n) 0x040
  else
    let s1 := s.setRun (pgANA n) true
    if s1.anaOut n && !s1.seq.running then s1.anaSafe n else s1

def ethRun (s : State) (p : Nat) : State :=
  match s.ethReject p with
  | some off => s.runRefused (pgETH p) off
  | none => s.setRun (pgETH p) true

/-- A controller joins the bus (R350). -/
def canRun (s : State) (n : Nat) : State :=
  match s.canReject n with
  | some off => s.runRefused (pgCAN n) off
  | none => (s.setRun (pgCAN n) true).canJoin n

/-- A pair runs again and takes tasks at the next placement run (R496). -/
def cpRun (s : State) (p : Nat) : State := s.setRun (pgCP p) true

/-- A pair that hosts no task stops at once; one that hosts tasks starts a placement run of cause 4 (R496). -/
def cpHalt (s : State) (p : Nat) : State :=
  let s1 := s.setRun (pgCP p) false
  if s.on (pgCP p) HDR.CTRL.RUN && s.hostsTask p && s.pageOn pgPLACE then (s1.placeRun 4 (some p)).1 else s1

/-- RUN = 1 written to a page by master `m` (R65, R67). On a page that is off, failed or fenced it is stored alone. -/
def runOn (s : State) (page m : Nat) : State :=
  match pageKind page with
  | none => s
  | some (k, i) =>
    if runAlwaysOne k then s
    else match k with
      | .place | .tmr => s
      | .seq => s.seqRun m
      | _ =>
        if !s.pageOn page || s.isFenced page then s.put page HDR.CTRL.RUN 1
        else if s.on page HDR.CTRL.RUN then s
        else match k with
          | .lpe => s.lpeRun
          | .ang => s.angRun
          | .asrc => s.asrcRun i
          | .ax => s.axRun i
          | .eth => s.ethRun i
          | .can => s.canRun i
          | .diog => s.dioRun i
          | .ana => s.anaRun i
          | .dwy => s.dwyRun
          | .dvl => (s.setRun page true).pairFollow
          | .cp => s.cpRun i
          | _ => s.setRun page true

/-- RUN = 0 written to a page by master `m`. -/
def runOff (s : State) (page m : Nat) : State :=
  match pageKind page with
  | none => s
  | some (k, i) =>
    if runAlwaysOne k then s
    else match k with
      | .place | .tmr => s
      | .seq => s.seqStop m
      | _ =>
        if !s.pageOn page || s.isFenced page then s.put page HDR.CTRL.RUN 0
        else if !s.on page HDR.CTRL.RUN then s
        else match k with
          | .lpe => s.lpeHalt
          | .ang => s.angHalt
          | .asrc => s.asrcHalt i
          | .ax => s.axHalt i
          | .can => canLeave i (s.setRun page false)
          | .diog => (s.setRun page false).dioRefreshGroup i
          | .dvl => (s.setRun page false).pairFollow
          | .cp => s.cpHalt i
          | _ => s.setRun page false

/-- The page has a hold (R67): SEQ, ETH and CAN alone. -/
def hasHold (page : Nat) : Bool :=
  match pageKind page with
  | some (.seq, _) | some (.eth, _) | some (.can, _) => true
  | _ => false

/-- HOLD written to a page by master `m`. -/
def holdWrite (s : State) (page m : Nat) (v : Bool) : State :=
  if !hasHold page then s
  else if page = pgSEQ then s.seqHold m v
  else
    let s1 := s.putB page HDR.CTRL.HOLD v
    if s1.pageOn page then s1.refreshState page else s1

/-! ### Fencing (R410) -/

/-- Pages with a unit that FENCE isolates. -/
def fenceable (page : Nat) : Bool :=
  match pageKind page with
  | some (.cp, _) | some (.ax, _) | some (.asrc, _) | some (.diog, _) | some (.ana, _) | some (.eth, _) | some (.can, _)
  | some (.stn, _) | some (.dwy, _) => true
  | _ => false

/-- What fencing does to the unit of a page, whose STATE is fenced. -/
def fenceEffect (s : State) (page : Nat) : State :=
  match pageKind page with
  | some (.cp, i) => s.lineEvent (4 + i)
  | some (.ax, i) => forEach (List.range 8) (fun u n => u.gearLost n) (s.axFence i)
  | some (.asrc, i) => s.srcLost i
  | some (.diog, i) => s.dioFence i
  | some (.ana, i) => s.anaFence i
  | some (.eth, i) => ethFence i s
  | some (.can, i) => canFence i s
  | some (.stn, i) => s.stnFence i
  | some (.dwy, _) =>
    forEach ((List.range 250).filter (fun a => s.stnHeld a)) (fun u a =>
      if u.stnBound a then
        ((u.setFault (pgSTN a) 16).incMod (pgSTN a) STN.LOSSES).stnEnd a 5 false
      else u.stnUnoffer a (u.stnIdle a)) s
  | _ => s

/-- The unit of page `u` is fenced because of fault bit `key` (R410); a unit already fenced only remembers the bit (R416). -/
def fenceUnit (s : State) (key u : Nat) : State :=
  let s1 : State := if s.flt.fencedBy.contains (u, key) then s
    else { s with flt := { s.flt with fencedBy := s.flt.fencedBy ++ [(u, key)] } }
  if s1.isFenced u then s1
  else ((({ s1 with flt := { s1.flt with fenced := insNum u s1.flt.fenced } } : State).refreshState u).fenceEffect u).xchgDisturb

/-! ### Re-admitting (R414) -/

/-- The page leaves the fenced state and takes the STATE of its stored RUN and HOLD. -/
def unfence (s : State) (u : Nat) : State :=
  ({ s with flt := { s.flt with
      fenced := delNum u s.flt.fenced, fencedBy := s.flt.fencedBy.filter (fun e => e.1 != u) } } : State).refreshState u

/-- A re-admitted unit takes up its function. -/
def readmitUnit (s : State) (u : Nat) : State :=
  let s1 := s.unfence u
  let run := s1.on u HDR.CTRL.RUN
  match pageKind u with
  | some (.diog, i) =>
    forEach (dioChans i) (fun u ch => u.setDioRt ch { u.dioRt ch with held := true, accepted := false }) s1
  | some (.asrc, i) => if run then (s1.put u HDR.CTRL.RUN 0).asrcRun i else s1.asrcHalt i
  | some (.ax, i) => if run then (s1.put u HDR.CTRL.RUN 0).axRun i else s1
  | some (.eth, i) => if run then (s1.put u HDR.CTRL.RUN 0).ethRun i else s1
  | some (.can, i) => if run then (s1.put u HDR.CTRL.RUN 0).canRun i else s1
  | some (.ana, i) =>
    let s2 := (s1.put u ANA.STATUS.READY 0).setAnaRt i { cool := (s1.anaRt i).cool, island := (s1.anaRt i).island, testAt := (s1.anaRt i).testAt }
    if run && s2.anaOut i && !s2.seq.running then s2.anaSafe i else s2
  | some (.stn, i) => s1.stnEnable i
  | _ => s1

end State
end Sys2Proof.Machine
end

