-- ==== Sys2Proof/Machine/Flt.lean ====
section
/-! DEFINITION. FLT and LEG: the reactions of the fault classes (R404 to R411), clears (R412), re-admission (R413 to R415),
happenings that meet (R416), the re-arming of LEG (R418). A fault bit is `faultKey page bit`, with bit 32 + k for bit k of
`SEQ.OVR3`. -/

namespace Sys2Proof.Machine
namespace State

/-- The source number of a fault bit; 511 for a bit that is no source. -/
def keySrc (key : Nat) : Nat := (srcNum (key / 64) (key % 64)).getD 511
def keyPageOf (key : Nat) : Nat := key / 64

/-- The task whose OVR3 bit the key is. -/
def keyTask (key : Nat) : Option Nat := if key / 64 = pgSEQ ∧ 32 ≤ key % 64 then some (key % 64 - 32) else none

/-- The units of a raising page (R410): `none` where the page has no fenceable unit. -/
def unitsOf (s : State) (key : Nat) : Option (List Nat) :=
  match keyTask key with
  | some k => some ((s.task k).host.toList.map (fun p => pgCP p))
  | none =>
    if key = faultKey pgPWR 17 then some (((List.range 4).filter (fun p => s.dom (3 + p) == 3)).map (fun p => pgCP p))
    else if key = faultKey pgPAIR 20 then some [pgCP (s.get pgPAIR PAIR.SHADOW_STAT.PAIR)]
    else if fenceable (key / 64) then some [key / 64]
    else none

/-- P2 of code 0x02A. -/
def unitParam (us : List Nat) : Nat := us.headD 0xFFFF

/-- STATE of a page, and of TMR where it follows SEQ's (R100). -/
def refreshUnit (s : State) (page : Nat) : State :=
  if page = pgSEQ ∧ s.pageOn pgTMR = true then (s.refreshState page).refreshState pgTMR else s.refreshState page

/-- DEGRADE (R409); of an OVR3 bit the task is shed (R99). The unit it acted on. -/
def reactDegrade (s : State) (key : Nat) : State × List Nat :=
  match keyTask key with
  | some k => (s.shedTask k false 0, [])
  | none =>
    let pg := key / 64
    let was := s.st pg
    let s1 := ({ s with flt := { s.flt with degraded := insNum key s.flt.degraded } } : State).refreshUnit pg
    (s1, if was = 3 ∨ s1.st pg = 6 then [pg] else [])

/-- FENCE (R410); a page without a unit is degraded. -/
def reactFence (s : State) (key : Nat) : State × List Nat :=
  match s.unitsOf key with
  | none => s.reactDegrade key
  | some us => (forEach us (fun u p => u.fenceUnit key p) s, us)

/-- YIELD (R411). -/
def reactYield (s : State) (key : Nat) : State × List Nat :=
  if s.role != 1 then (s, [])
  else if s.paired && s.on pgPAIR PAIR.STATUS.READY then (s.yieldDuty, [])
  else
    let us := (s.unitsOf key).getD []
    (forEach us (fun u p => u.fenceUnit key p) s.yieldDuty, us)

/-- The reaction of class `c` to a fault bit, with code 0x02A (R408). -/
def reactClass (s : State) (c key : Nat) : State :=
  if c = 0 then s
  else
    let r := if c = 1 then s.reactDegrade key else if c = 2 then s.reactFence key else s.reactYield key
    r.1.raise pgFLT 0x02A c [keySrc key, key / 64, unitParam r.2]

/-- FLT takes a fault bit over and reacts; after hold-up qualification it only takes it over (R416). -/
def fltTake (s : State) (key : Nat) : State :=
  let s1 : State := { s with flt := { s.flt with
    edges := s.flt.edges.filter (fun x => x != key), held := insNum key s.flt.held } }
  if s1.inSequence then s1 else s1.reactClass (s1.classOfBit key) key

/-- Order of reactions that meet (R416): descending class, then ascending source number. -/
def edgeBefore (s : State) (a b : Nat) : Bool :=
  decide (s.classOfBit b < s.classOfBit a) || (s.classOfBit a == s.classOfBit b && decide (keySrc a < keySrc b))

def edgeInsert (s : State) (x : Nat) : List Nat → List Nat
  | [] => [x]
  | y :: r => if s.edgeBefore x y then x :: y :: r else y :: s.edgeInsert x r

/-- Every rising edge that FLT has not yet reacted to, in that order. -/
def edgesInOrder (s : State) : List Nat := s.flt.edges.foldl (fun acc x => s.edgeInsert x acc) []

/-- A module that becomes duty takes the duty reaction of every active YIELD-class source (R411). -/
def becameDuty (s : State) : State :=
  forEach (s.flt.held.filter (fun k => s.classOfBit k == 3)) (fun u k => u.reactClass 3 k) s

/-! ### Clears (R412) -/

/-- The bit stands in its page (`SEQ.OVR3` for the bits of tasks). -/
def faultBitSet (s : State) (key : Nat) : Bool :=
  match keyTask key with
  | some k => s.maskBit pgSEQ SEQ.OVR3 k
  | none => bitOf (s.reg (key / 64) 0x010).toNat (key % 64)

/-- A clear is refused: SRC_REFUSED, CLEAR_REFUSED and code 0x02B. -/
def clearRefused (s : State) (key : Nat) : State :=
  let n := keySrc key
  let s1 := (s.incMod pgFLT FLT.SRC_REFUSED 1 n).setFault pgFLT 16
  s1.raise pgFLT 0x02B 0 [n, key / 64, s1.get pgFLT FLT.SRC_REFUSED n]

/-- FLT sees the bit no longer: after a clear, or after its FAULT_EN bit is cleared (R416). -/
def fltDrop (s : State) (key : Nat) : State :=
  ({ s with flt := { s.flt with
      held := delNum key s.flt.held, edges := s.flt.edges.filter (fun x => x != key)
      degraded := delNum key s.flt.degraded } } : State).refreshUnit (key / 64)

/-- After a clear of BUDGET_EXCEEDED every task can set it again (R132). -/
def budgetCleared (s : State) : State :=
  forEach allTasks (fun u k => if (u.task k).overB then u.setTask k { u.task k with overB := false } else u) s

/-- One fault bit is cleared, or the clear is refused: its condition stands, or its rising edge is still to be reacted to
(R412, R416). -/
def clearBit (s : State) (key : Nat) : State :=
  if !s.faultBitSet key && !s.flt.held.contains key then s
  else if s.flt.conds.contains key || s.flt.edges.contains key then s.clearRefused key
  else
    let s1 := match keyTask key with
      | some k => s.setMaskBit pgSEQ SEQ.OVR3 k false
      | none => s.setReg (key / 64) 0x010 (s.reg (key / 64) 0x010 &&& ~~~ BitVec.ofNat 32 (2 ^ (key % 64)))
    (if key = faultKey pgPLACE 16 then s1.budgetCleared else s1).fltDrop key

/-! ### Re-admitting (R413) -/

/-- The end of a READMIT: RESULT, and code 0x02D or 0x02E. -/
def readmitEnd (s : State) (kind id r : Nat) : State :=
  let s1 := (s.put pgFLT FLT.CMD_STATUS.BUSY 0).put pgFLT FLT.CMD_STATUS.RESULT r
  if r = 0 then s1.raise pgFLT 0x02D kind [id]
  else (s1.setFault pgFLT 17).raise pgFLT 0x02E kind [r, id]

/-- Why page `u` is not re-admitted (R413); 0 where it is. -/
def readmitPageReason (s : State) (u : Nat) : Nat :=
  if s.inSequence then 8
  else if !fenceable u then 7
  else if !s.isFenced u then 1
  else if !s.pageOn u then 5
  else if s.flt.fencedBy.any (fun e => e.1 == u && s.flt.held.contains e.2) then 2
  else if s.flt.edges.any (fun k => decide (2 ≤ s.classOfBit k) && ((s.unitsOf k).getD []).contains u) then 3
  else 0

/-- Why task `k` is not re-admitted (R413, R415). -/
def readmitTaskReason (s : State) (k : Nat) : Nat :=
  if s.inSequence then 8
  else if 31 < k then 7
  else if !s.taskShed k || s.maskBit pgPLACE PLACE.SHED_CAP k then 1
  else if !s.pageOn pgSEQ then 5
  else if s.maskBit pgSEQ SEQ.OVR3 k && !s.flt.edges.contains (faultKey pgSEQ (32 + k)) then 2
  else if s.flt.edges.contains (faultKey pgSEQ (32 + k)) then 3
  else 0

/-- Task `k` comes back (R415). -/
def readmitTask (s : State) (k : Nat) : State :=
  let r := s.placeAlone k
  if r.2 then (((r.1.setMaskBit pgSEQ SEQ.SHED k false).shedRefresh.placeRefresh).raise pgSEQ 0x04B 1 [k]).syncWatch
  else r.1.shedRefresh.placeRefresh

/-- READMIT written by master `m` with `kind` and `id`; a write while BUSY is ignored. -/
def readmit (s : State) (m kind id : Nat) (f : State → State) : State :=
  if !s.servedTo m || s.on pgFLT FLT.CMD_STATUS.BUSY then s
  else if s.owner pgFLT != m then (s.refuseOwner pgFLT 0x0D8 m).readmitEnd kind id 6
  else f s

end State

/-! ### The commands -/

/-- FAULT_SOURCE_RISE (R408, R416): FLT reacts to every fault bit that has risen. `parity` is a parity error in the
configuration storage at an offset of a page, which sets REG_PARITY with code 0x024 (R65). -/
def execFaultSourceRise (parity : Option (BitVec 9 × BitVec 12)) (s : State) : Out :=
  let s1 := match parity with
    | some (p, off) =>
      if populated p.toNat && s.pd1 then (s.setFault p.toNat 5).raise p.toNat 0x024 0 [off.toNat] else s
    | none => s
  .next (forEach s1.edgesInOrder (fun u k => u.fltTake k) s1)

/-- SRC_CLEAR (R412): master `m`, the owner or local firmware, clears the selected source on every page that raises it. -/
def execSrcClear (m : Fin 4) (s : State) : Out :=
  let n := s.get pgFLT FLT.SRC_INDEX.SOURCE
  .next (if !s.servedTo m.val then s
    else if s.owner pgFLT != m.val && m.val != 0 then s.refuseOwner pgFLT 0x08C m.val
    else forEach ((s.flt.held ++ s.flt.edges).filter (fun k => State.keySrc k == n)) (fun u k => u.clearBit k) s)

/-- READMIT_PAGE (R413, R414): master `m` writes READMIT with KIND 0. The outcome of a pair waits for its self-test. -/
def execReadmitPage (m : Fin 4) (id : BitVec 9) (s : State) : Out :=
  .next (s.readmit m.val 0 id.toNat (fun s =>
    let u := id.toNat
    let r := s.readmitPageReason u
    if r ≠ 0 then s.readmitEnd 0 u r
    else match pageKind u with
      | some (.cp, _) => (s.put pgFLT FLT.CMD_STATUS.BUSY 1).put pgFLT FLT.READMIT.ID u
      | _ => (s.readmitUnit u).readmitEnd 0 u 0))

/-- READMIT_TASK (R413, R415): master `m` writes READMIT with KIND `kind`: 1 a shed task, 2 and 3 reserved. -/
def execReadmitTask (m : Fin 4) (kind : Fin 3) (id : BitVec 9) (s : State) : Out :=
  .next (s.readmit m.val (kind.val + 1) id.toNat (fun s =>
    if kind.val ≠ 0 then s.readmitEnd (kind.val + 1) id.toNat (if s.inSequence then 8 else 7)
    else
      let r := s.readmitTaskReason id.toNat
      if r ≠ 0 then s.readmitEnd 1 id.toNat r else (s.readmitTask id.toNat).readmitEnd 1 id.toNat 0))

/-- FE_CLEAR (R418): master `m` re-arms LEG. -/
def execFeClear (m : Fin 4) (s : State) : Out :=
  .next (s.action pgLEG 0x050 m.val (fun s =>
    ((s.put pgLEG LEG.FE_INFO.VALID 0).put pgLEG LEG.FE_INFO.MORE 0).put pgLEG LEG.FE_COUNT 0))

end Sys2Proof.Machine
end

