-- ==== Sys2Proof/Machine/Time.lean ====
section
/-! DEFINITION. TIME: the two counters, their residuals and steps, the two PTP domains, holdover, the stamp domain
change, the timestamp FIFO (R267 to R283). -/

namespace Sys2Proof.Machine

/-- One ns in the units of a residual, 2^-24 ns (R276). -/
def nsUnit : Int := 16777216

/-- The trim of R276 in 2^-24 ns per tick at a slew in ppm: floor(ppm × 167.772 16). -/
def trimOf (ppm : Nat) : Nat := ppm * 16777216 / 100000

/-- The trim that a residual gets in one tick, with its sign; in the last tick the remaining residual. -/
def trimStep (tr : Nat) (r : Int) : Int :=
  if r.natAbs ≤ tr then r else if 0 ≤ r then (tr : Int) else -(tr : Int)

/-- A base increment lies within ±1,000 ppm of the nominal (R268). -/
def incOk (v : Nat) : Bool := decide (0x09FD70A4 ≤ v) && decide (v ≤ 0x0A028F5C)

namespace State

/-- The counters of TIME. -/
def setClk (s : State) (c : Clocks) : State := { s with clk := c }

/-! ### Residuals and FAR (R276, R277) -/

/-- A residual in ns, toward 0, as the 32-bit word that a record or `STN_ADJ` shows. -/
def resNs (r : Int) : Nat := unsigned 32 (r.tdiv nsUnit)

/-- FAR of a counter follows its residual; each change records 0x108 and sets the fault (R277). `stp` chooses stamp time. -/
def farUpdate (s : State) (stp : Bool) : State :=
  let r := if stp then s.clk.stpRes else s.clk.stnRes
  let f := if stp then TIME.STATUS.STP_FAR else TIME.STATUS.STN_FAR
  let b := if stp then 19 else 18
  let far := decide (s.get pgTIME TIME.FAR_NS * 2 ^ 24 < r.natAbs)
  if far = s.on pgTIME f then s
  else (((s.putB pgTIME f far).setFault pgTIME b).cond pgTIME b far).raise pgTIME 0x108
    ((if stp then 2 else 0) + (if far then 0 else 1)) [resNs r]

def setStnRes (s : State) (r : Int) : State := (s.setClk { s.clk with stnRes := r }).farUpdate false
def setStpRes (s : State) (r : Int) : State := (s.setClk { s.clk with stpRes := r }).farUpdate true

/-! ### States of the two clocks (R280, R283) -/

def stnState (s : State) : Nat := s.get pgTIME TIME.STATUS.STN_STATE
def stpState (s : State) : Nat := s.get pgTIME TIME.STATUS.STP_STATE

/-- Any change of STN_STATE raises EVD source 0x323 (R287). -/
def setStnState (s : State) (v : Nat) : State :=
  if s.stnState = v then s else (s.put pgTIME TIME.STATUS.STN_STATE v).event 0x323

/-- Any change of STP_STATE raises EVD source 0x323; STP_TRUST is 1 in states 1 and 2 (R283, R287). -/
def setStpState (s : State) (v : Nat) : State :=
  if s.stpState = v then s
  else ((s.put pgTIME TIME.STATUS.STP_STATE v).putB pgTIME TIME.STATUS.STP_TRUST (decide (v = 1 ∨ v = 2))).event 0x323

/-- Domain `x` (0 A, 1 B) is tracked. -/
def domEn (s : State) (x : Nat) : Bool := s.on pgTIME (TIME.DOM_CFG.EN x)

/-- Domain `x` is lost, or counts as lost because it is not tracked (R274). -/
def domLost (s : State) (x : Nat) : Bool := !s.domEn x || (if x = 0 then s.clk.lostA else s.clk.lostB)

def setDomLost (s : State) (x : Nat) (b : Bool) : State :=
  (s.setClk (if x = 0 then { s.clk with lostA := b } else { s.clk with lostB := b }))

/-- The watch of domain `x` starts again: a Sync is accepted, or a commit tracks it (R274). -/
def syncMark (s : State) (x : Nat) : State :=
  s.setClk (if x = 0 then { s.clk with syncA := s.clk.ref } else { s.clk with syncB := s.clk.ref })

/-- DOMx_OFS is written now (R281). -/
def estMark (s : State) (x : Nat) : State :=
  s.setClk (if x = 0 then { s.clk with estA := s.clk.ref } else { s.clk with estB := s.clk.ref })

/-- More than SYNC_TMO ms of reference time have passed since the last accepted Sync of domain `x` (R274). -/
def syncOver (s : State) (x : Nat) : Bool :=
  decide ((if x = 0 then s.clk.syncA else s.clk.syncB) + 100000 * s.get pgTIME (TIME.DOM_CFG.SYNC_TMO x) < s.clk.ref)

/-- More than EST_MAX ms of reference time have passed since the last write of DOMx_OFS (R281). -/
def estOver (s : State) (x : Nat) : Bool :=
  decide ((if x = 0 then s.clk.estA else s.clk.estB) + 100000 * s.get pgTIME TIME.EST_MAX.MS < s.clk.ref)

def syncOkF (x : Nat) : Fld := if x = 0 then TIME.STATUS.DOMA_SYNC_OK else TIME.STATUS.DOMB_SYNC_OK
def estOkF (x : Nat) : Fld := if x = 0 then TIME.STATUS.DOMA_EST_OK else TIME.STATUS.DOMB_EST_OK

/-- Domain `x` is eligible (R281). -/
def eligible (s : State) (x : Nat) : Bool := s.domEn x && !s.domLost x && s.on pgTIME (estOkF x)

def stpDom (s : State) : Nat := s.get pgTIME TIME.STATUS.STP_DOM
def stnDom (s : State) : Nat := s.get pgTIME TIME.STATUS.STN_DOM

/-- Station holdover begins (R279): STN_STATE 3, code 0x103 SUB 0, FAULT.STN_HOLDOVER. -/
def stnHoldover (s : State) : State :=
  (((s.setStnState 3).setFault pgTIME 22).cond pgTIME 22 true).raise pgTIME 0x103 0 [s.stnDom]

/-- Station holdover ends (R279, R280). -/
def stnHoldoverEnd (s : State) : State :=
  ((s.setStnState 2).cond pgTIME 22 false).raise pgTIME 0x103 1 [s.stnDom]

/-- The stamp domain changes without a step (R282): `sub` 0 automatic, 1 commanded. -/
def stampChange (s : State) (sub new : Nat) : State :=
  let res := signed 32 (s.get pgTIME (TIME.DOM_OFS new)) * nsUnit
  let s1 := (s.put pgTIME TIME.STATUS.STP_DOM new).setStpRes res
  let s2 := s1.setClk { s1.clk with stpInc := s.get pgTIME (TIME.DOM_INC new), changeAt := s.clk.ref }
  let s3 := if s2.stpState = 2 then s2.event 0x323 else s2.setStpState 2
  s3.raise pgTIME 0x104 sub [new, resNs res]

/-- Stamp holdover begins (R283). -/
def stpHoldover (s : State) : State :=
  (((s.setStpState 3).setFault pgTIME 23).cond pgTIME 23 true).raise pgTIME 0x106 0 [s.stpDom]

/-- What the loss of domain `x` does to the two clocks (R279, R282, R283). -/
def domLostEffects (s : State) (x : Nat) : State :=
  let s1 := if s.stnDom = x ∧ s.stnState = 2 then s.stnHoldover else s
  if s1.stpDom = x ∧ (s1.stpState = 1 ∨ s1.stpState = 2) then
    (if s1.eligible (1 - x) then s1.stampChange 0 (1 - x) else s1.stpHoldover)
  else s1

/-- A commit clears `DOMx_CFG.EN` (R274): the watch ends with SUB 2 and the domain counts as lost. -/
def domUntrack (s : State) (x : Nat) : State :=
  ((((s.put pgTIME (syncOkF x) 0).put pgTIME (estOkF x) 0).cond pgTIME (20 + x) false).raise pgTIME 0x107 2 [x]).domLostEffects x

/-- A commit sets `DOMx_CFG.EN` (R274): no Sync accepted yet, not lost. -/
def domTrack (s : State) (x : Nat) : State := ((s.put pgTIME (syncOkF x) 0).setDomLost x false).syncMark x

/-! ### Steps (R275, R278) -/

/-- The offset in STEP_LO and STEP_HI. -/
def stepOfs (s : State) : Int := signed 64 (s.get pgTIME TIME.STEP_LO + s.get pgTIME TIME.STEP_HI * 2 ^ 32)

/-- The instants of the last counts move with station time, so that the angle goes on; predictions are made anew at the next count of each
source (R278). -/
def angStepped (s : State) (ofs : Int) : State :=
  let move (t : Nat) : Nat := ((t : Int) + ofs).toNat
  forEach (List.range 6) (fun u n =>
    let r := u.asrcRt n
    (u.setAsrcRt n { r with t := move r.t, pt := move r.pt }).slotsUnpredict n) s

/-- Station time is stepped: residual and FAR cleared, launch frames flushed, LPE, ANG and SEQ see a new E, source 0x323. -/
def stnJump (s : State) (ofs : Int) : State :=
  let e' := ((s.e : Int) + ofs) % 18446744073709551616
  let ns := e'.toNat % 2 ^ 32
  let s1 := s.setClk { s.clk with
    stn := BitVec.ofNat 56 (ns * 2 ^ 24 + s.clk.stn.toNat % 2 ^ 24)
    stnHi := BitVec.ofNat 32 (e'.toNat / 2 ^ 32)
    stnSteps := s.clk.stnSteps + 1 }
  (((s1.setStnRes 0).stepFlush).angStepped ofs).event 0x323

/-- Stamp time is stepped: residual, FAR and a change in progress cleared, the epoch stale (R278, R441), source 0x323. -/
def stpJump (s : State) (ofs : Int) : State :=
  let e' := ((s.eStp : Int) + ofs) % 18446744073709551616
  let ns := e'.toNat % 2 ^ 32
  let s1 := s.setClk { s.clk with
    stp := BitVec.ofNat 56 (ns * 2 ^ 24 + s.clk.stp.toNat % 2 ^ 24)
    stpHi := BitVec.ofNat 32 (e'.toNat / 2 ^ 32) }
  (((((s1.setStpRes 0).put pgREC REC.STATUS.EPOCH_STALE 1).setFault pgREC 18).cond pgREC 18 true)).event 0x323

/-- The first step of station time is taken (R275): locked, and in holdover at once if its domain is lost (R279). -/
def firstStn (s : State) (ofs : Int) : State :=
  let s1 := (((s.stnJump ofs).put pgTIME TIME.STATUS.STEP_PENDING 0).put pgTIME TIME.STEP_INFO.RESULT 0).setStnState 2
  let s2 := (s1.setClk { s1.clk with stnStepped := true, pendOfs := 0 }).raise pgTIME 0x100 0
    [unsigned 32 ofs, unsigned 64 ofs / 2 ^ 32]
  if s2.domLost s2.stnDom then s2.stnHoldover else s2

/-- The tick at which SEQ has left Run and Hold: a pending first step is taken (R275). -/
def takePendingStep (s : State) : State :=
  if s.on pgTIME TIME.STATUS.STEP_PENDING && !s.inRun then s.firstStn s.clk.pendOfs else s

/-- A refused STEP_CMD (R278, R288). -/
def stepRefuse (s : State) (result code : Nat) : State :=
  ((s.put pgTIME TIME.STEP_INFO.RESULT result).setFault pgTIME 16).raise pgTIME 0x102 0 [result, code]

/-- A write that TIME ignores records 0x10B. -/
def timeIgnore (s : State) (off value : Nat) : State := s.raise pgTIME 0x10B 0 [off, value]

/-- A write of DOMx_INC (R268, R281): the active domain's increment runs stamp time, except in stamp holdover (R283). -/
def domIncWrite (s : State) (x v : Nat) : State :=
  if !incOk v then s.timeIgnore (0x088 + 4 * x) v
  else
    let s1 := s.put pgTIME (TIME.DOM_INC x) v
    if s.stpDom = x ∧ s.stpState ≠ 3 then (s1.setClk { s1.clk with stpInc := v }) else s1

end State

/-! ### The commands -/

/-- The accumulator after one more tick, before the wrap: base increment plus slew trim (R267, R268, R276). -/
def stnSum (s : State) : Nat :=
  ((s.clk.stn.toNat : Int) + s.get pgTIME TIME.STN_INC
    + trimStep (trimOf (s.get pgTIME TIME.STN_SLEW.PPM)) s.clk.stnRes).toNat

def stpSlew (s : State) : Nat := if s.stpState = 2 then 10 else s.get pgTIME TIME.STP_SLEW.PPM

def stpSum (s : State) : Nat :=
  ((s.clk.stp.toNat : Int) + s.clk.stpInc + trimStep (trimOf (stpSlew s)) s.clk.stpRes).toNat

/-- The residuals after the trim of one tick. -/
def stnResNext (s : State) : Int := s.clk.stnRes - trimStep (trimOf (s.get pgTIME TIME.STN_SLEW.PPM)) s.clk.stnRes
def stpResNext (s : State) : Int := s.clk.stpRes - trimStep (trimOf (stpSlew s)) s.clk.stpRes

/-- STATION_TIME_WRAP (R269, R270): the tick in which STN_NS wraps: the accumulator carries, STN_HI rises by one, and EVD
source 0x320 is raised. -/
def execStationTimeWrap (s : State) : Out :=
  let sum := stnSum s
  let acc := if 2 ^ 56 ≤ sum then sum - 2 ^ 56 else 0
  let s1 := s.setClk { s.clk with
    stn := BitVec.ofNat 56 acc, stnHi := s.clk.stnHi + 1, stnRes := stnResNext s }
  .next (s1.event 0x320)

/-- REC at a wrap of stamp time (R441): PEND rises; with PEND at 3, EPOCH rises, FAULT.WRAP_LATE and code 0x245. -/
def recWrap (s : State) : State :=
  let p := s.get pgREC REC.PEND
  if p < 3 then s.put pgREC REC.PEND (p + 1)
  else
    let s1 := (s.incMod pgREC REC.EPOCH).setFault pgREC 17
    s1.raise pgREC 0x245 0 [s1.get pgREC REC.EPOCH]

/-- STAMP_TIME_WRAP (R269, R270, R441). -/
def execStampTimeWrap (s : State) : Out :=
  let sum := stpSum s
  let acc := if 2 ^ 56 ≤ sum then sum - 2 ^ 56 else 0
  let s1 := s.setClk { s.clk with
    stp := BitVec.ofNat 56 acc, stpHi := s.clk.stpHi + 1, stpRes := stpResNext s }
  .next ((recWrap s1).event 0x321)

/-- PTP_TIMESTAMP (R273): a PTP event message crosses the MDI of a port (`sent` in transmit direction). -/
def execPtpTimestamp (port : Fin 4) (sent : Bool) (msgType : BitVec 4) (domain : BitVec 8) (seqId : BitVec 16)
    (s : State) : Out :=
  if s.tsFifo.length < 64 then
    let w0 := 2 ^ 31 + b2n sent * 2 ^ 30 + port.val * 2 ^ 28 + msgType.toNat * 2 ^ 24 + domain.toNat * 2 ^ 16 + seqId.toNat
    let entry : TsEntry := { w0 := BitVec.ofNat 32 w0, stn := BitVec.ofNat 32 s.stnNs, stp := BitVec.ofNat 32 s.stpNs }
    let s1 : State := { s with tsFifo := s.tsFifo ++ [entry] }
    .next (s1.event 0x322)
  else
    let s1 := (s.incMod pgTIME TIME.TS_OVF).setFault pgTIME 25
    .next (if s1.mayRecord 0x1500 then
      (s1.markRecord 0x1500).raise pgTIME 0x10C 0 [s1.get pgTIME TIME.TS_OVF] else s1)

/-- TS_W3_READ (R289): the read removes the entry shown. -/
def execTsW3Read (s : State) : Out := .next (if s.served then { s with tsFifo := s.tsFifo.tail, bus := {} } else s)

/-- A Sync matches domain `x` (R274). -/
def syncMatches (s : State) (x port domNum : Nat) (ident : Nat) (srcPort : Nat) : Bool :=
  s.domEn x && bitOf (s.get pgTIME (TIME.DOM_CFG.PORTS x)) port
    && decide (s.get pgTIME (TIME.DOM_CFG.DOMAIN_NUM x) = domNum)
    && (!s.on pgTIME (TIME.DOM_SRC_HI.MATCH_EN x)
      || (decide (s.get pgTIME (TIME.DOM_SRC_LO x) * 2 ^ 32 + s.get pgTIME (TIME.DOM_SRC_MID x) = ident)
        && decide (s.get pgTIME (TIME.DOM_SRC_HI.PORT x) = srcPort)))

/-- A Sync is accepted for domain `x` (R274, R279). -/
def syncFor (x : Nat) (s : State) : State :=
  let wasLost := s.domLost x
  let s1 := (((s.put pgTIME (State.syncOkF x) 1).put pgTIME (TIME.DOM_LAST_SYNC x) s.stnNs).setDomLost x false).syncMark x
  let s2 := if wasLost then (s1.cond pgTIME (20 + x) false).raise pgTIME 0x107 1 [x] else s1
  if s2.stnDom = x ∧ s2.stnState = 3 then s2.stnHoldoverEnd else s2

/-- SYNC_ACCEPTED (R274): a Sync arrives on a port with its domainNumber and sourcePortIdentity; each domain that it matches
accepts it. -/
def execSyncAccepted (port : Fin 4) (domNum : BitVec 8) (ident : BitVec 64) (srcPort : BitVec 16) (s : State) : Out :=
  .next (forEach [0, 1] (fun s x =>
    if syncMatches s x port.val domNum.toNat ident.toNat srcPort.toNat then syncFor x s else s) s)

/-- DOMAIN_LOST (R274, R279, R282, R283): no Sync has been accepted for domain `x` within SYNC_TMO of reference time. -/
def execDomainLost (dom : Fin 2) (s : State) : Out :=
  let x := dom.val
  if s.domLost x || !s.syncOver x then .next s
  else .next ((((((s.put pgTIME (State.syncOkF x) 0).setDomLost x true).setFault pgTIME (20 + x)).cond pgTIME (20 + x)
    true).raise pgTIME 0x107 0 [x]).domLostEffects x)

/-- FIRST_STN (R275): the first step of station time, kept pending while SEQ is in Run or Hold. -/
def execFirstStn (m : Fin 4) (s : State) : Out :=
  .next (s.action pgTIME 0x0AC m.val (fun s =>
    if s.clk.stnStepped then s.stepRefuse 3 1
    else if s.stepOfs = 0 then s.stepRefuse 4 1
    else if s.inRun then
      (((s.setClk { s.clk with pendOfs := s.stepOfs }).put pgTIME TIME.STATUS.STEP_PENDING 1).put pgTIME
        TIME.STEP_INFO.RESULT 1).setStnState 1
    else (s.firstStn s.stepOfs).put pgTIME TIME.STEP_INFO.RESULT 0))

/-- FIRST_STP (R275): the first step of stamp time, in any mode: locked if its domain is not lost, else holdover. -/
def execFirstStp (m : Fin 4) (s : State) : Out :=
  .next (s.action pgTIME 0x0AC m.val (fun s =>
    if s.clk.stpStepped then s.stepRefuse 3 2
    else if s.stepOfs = 0 then s.stepRefuse 4 2
    else
      let ofs := s.stepOfs
      let s1 := (s.stpJump ofs).setStpState (if s.domLost s.stpDom then 3 else 1)
      let s2 := (s1.setClk { s1.clk with stpStepped := true }).put pgTIME TIME.STEP_INFO.RESULT 0
      s2.raise pgTIME 0x100 1 [unsigned 32 ofs, unsigned 64 ofs / 2 ^ 32]))

/-- A commanded step (R278): station, stamp or both, outside Run and Hold. -/
def stepCmd (m code : Nat) (stn stp : Bool) (s : State) : State :=
  s.action pgTIME 0x0AC m (fun s =>
    if s.inRun then s.stepRefuse 2 code
    else if s.stepOfs = 0 then s.stepRefuse 4 code
    else
      let ofs := s.stepOfs
      let s1 := if stn then (s.stnJump ofs).raise pgTIME 0x101 0 [unsigned 32 ofs, unsigned 64 ofs / 2 ^ 32] else s
      let s2 := if stp then
          ((if s1.stpState = 2 then (s1.stpJump ofs).setStpState 1 else s1.stpJump ofs)).raise pgTIME 0x101 1
            [unsigned 32 ofs, unsigned 64 ofs / 2 ^ 32]
        else s1
      s2.put pgTIME TIME.STEP_INFO.RESULT 0)

def execStepStn (m : Fin 4) (s : State) : Out := .next (stepCmd m.val 3 true false s)
def execStepStp (m : Fin 4) (s : State) : Out := .next (stepCmd m.val 4 false true s)
def execStepBoth (m : Fin 4) (s : State) : Out := .next (stepCmd m.val 5 true true s)

/-- STN_ADJ (R276): loads the station residual; ignored with 0x10B in holdover (R279) and while a first step is pending
(R275). -/
def execStnAdj (m : Fin 4) (v : BitVec 32) (s : State) : Out :=
  .next (s.action pgTIME 0x054 m.val (fun s =>
    if s.stnState = 3 ∨ s.on pgTIME TIME.STATUS.STEP_PENDING then s.timeIgnore 0x054 v.toNat
    else s.setStnRes (v.toInt * nsUnit)))

/-- STN_INC (R268, R279): a base increment within ±1,000 ppm is taken; it is ignored with 0x10B outside and in holdover. -/
def execStnInc (m : Fin 4) (v : BitVec 32) (s : State) : Out :=
  .next (s.action pgTIME 0x050 m.val (fun s =>
    if !incOk v.toNat || decide (s.stnState = 3) then s.timeIgnore 0x050 v.toNat
    else s.put pgTIME TIME.STN_INC v.toNat))

/-- DOM_OFS (R281 to R283): firmware writes the prepared offset of domain `x`. -/
def execDomOfs (m : Fin 4) (dom : Fin 2) (v : BitVec 32) (s : State) : Out :=
  let x := dom.val
  .next (s.action pgTIME (0x090 + 4 * x) m.val (fun s =>
    let s1 := ((s.put pgTIME (TIME.DOM_OFS x) v.toNat).putB pgTIME (State.estOkF x) true).estMark x
    if s1.stpState = 1 ∧ s1.stpDom = x then s1.setStpRes (v.toInt * nsUnit)
    else if s1.stpState = 3 ∧ s1.eligible x = true then
      let s2 := ((s1.put pgTIME TIME.STATUS.STP_DOM x).setStpRes (v.toInt * nsUnit)).cond pgTIME 23 false
      (((s2.setClk { s2.clk with stpInc := s2.get pgTIME (TIME.DOM_INC x) })).setStpState 1).raise pgTIME 0x106 1 [x]
    else s1))

/-- The write of DOM_SEL.STN_DOM (R280). -/
def stnDomWrite (dom : Nat) (s : State) : State :=
  if s.stnDom = dom then s
  else
    let s1 := ((s.put pgTIME TIME.STATUS.STN_DOM dom).put pgTIME TIME.DOM_SEL.STN_DOM dom).raise pgTIME 0x109 0
      [dom, State.resNs s.clk.stnRes]
    if s1.stnState = 3 ∧ s1.domLost dom = false then s1.stnHoldoverEnd
    else if s1.stnState = 2 ∧ s1.domLost dom = true then s1.stnHoldover
    else s1

/-- STN_DOM (R280): the station domain changes; the counter is not stepped. -/
def execStnDom (m : Fin 4) (dom : Fin 2) (s : State) : Out :=
  .next (s.action pgTIME 0x064 m.val (stnDomWrite dom.val))

/-- STP_SWITCH (R282): the stamp domain changes on command if the other domain is eligible. -/
def execStpSwitch (m : Fin 4) (s : State) : Out :=
  .next (s.action pgTIME 0x064 m.val (fun s =>
    if (s.stpState = 1 ∨ s.stpState = 2) ∧ s.eligible (1 - s.stpDom) = true then s.stampChange 1 (1 - s.stpDom)
    else s.timeIgnore 0x064 (0x100 + s.stnDom)))

/-- RESIDUAL_CLEARED (R282): the stamp residual reaches 0 during a change: locked on the new domain, code 0x105 with the
duration in µs, a half rounded up. -/
def execResidualCleared (s : State) : Out :=
  if s.stpState ≠ 2 then .next s
  else
    let us := ((s.clk.ref - s.clk.changeAt) * 10 + 500) / 1000
    .next (((s.setStpRes 0).setStpState 1).raise pgTIME 0x105 0 [s.stpDom, us])

/-- FAR_CLEARED (R277): a residual has counted down to FAR_NS or below. -/
def execFarCleared (stp : Bool) (s : State) : Out :=
  let lim : Int := (s.get pgTIME TIME.FAR_NS : Int) * nsUnit
  let clamp (r : Int) : Int := if lim < r then lim else if r < -lim then -lim else r
  if stp then
    (if s.on pgTIME TIME.STATUS.STP_FAR then .next (s.setStpRes (clamp s.clk.stpRes)) else .next s)
  else if s.on pgTIME TIME.STATUS.STN_FAR then .next (s.setStnRes (clamp s.clk.stnRes)) else .next s

/-- ESTIMATE_EXPIRED (R281): DOMx_OFS has not been written within EST_MAX: the domain is no longer eligible. -/
def execEstimateExpired (dom : Fin 2) (s : State) : Out :=
  .next (if s.estOver dom.val then s.putB pgTIME (State.estOkF dom.val) false else s)

/-- STN_NS_READ (R269): a read of STN_NS, or with `stp` of STP_NS, latches the upper word. -/
def execStnNsRead (stp : Bool) (s : State) : Out :=
  if !s.served then .next s
  else if stp then .next (({ s with bus := { data := BitVec.ofNat 64 s.stpNs } }).put pgTIME TIME.STP_SNAP_HI s.clk.stpHi.toNat)
  else .next (({ s with bus := { data := BitVec.ofNat 64 s.stnNs } }).put pgTIME TIME.STN_SNAP_HI s.clk.stnHi.toNat)

end Sys2Proof.Machine
end

