-- ==== Sys2Proof/Machine/Ind.lean ====
section
/-! DEFINITION. IND (R467 to R471): what each of the 12 indicators is commanded to show, the codes of its emitters and the
scaling to 60 mA. A colour is three 8-bit levels: red, green, blue. -/

namespace Sys2Proof.Machine

/-- Red, green and blue levels. -/
abbrev Colour := Nat × Nat × Nat

def Colour.dark : Colour := (0, 0, 0)

namespace State

/-! ### Colours (R468) -/

def indB (s : State) : Nat := s.get pgIND IND.BRIGHT.LEVEL
def indGreen (s : State) : Colour := (0, s.indB, 0)
def indRed (s : State) : Colour := (s.indB, 0, 0)
def indAmber (s : State) : Colour := (s.indB, s.indB / 2, 0)
def indBlue (s : State) : Colour := (0, 0, s.indB)
def indWhite (s : State) : Colour := (s.indB, s.indB, s.indB)

/-- An indicator with blink period `ms` is lit at this station time. -/
def blinkOn (s : State) (ms : Nat) : Bool := decide (s.e % (ms * 1000000) < ms * 500000)
def blink (s : State) (ms : Nat) (c : Colour) : Colour := if s.blinkOn ms then c else Colour.dark

/-- A LAN of port `p` is usable: LAN_OK in PRP mode, the link outside it (assumption 101). -/
def lanUsable (s : State) (p : Nat) : Bool :=
  if s.prp then s.on (pgETH p) ETH.STATUS.LAN_OK else s.on (pgETH p) ETH.STATUS.LINK && s.pageOn (pgETH p)

/-! ### Default meanings (R469) -/

def ioPages : List Nat :=
  (List.range 8).map pgDIOG ++ (List.range 16).map pgANA ++ (List.range 8).map pgAX ++ (List.range 6).map pgASRC

def flagYield (s : State) : Bool := s.activeClass 3
def flagFence (s : State) : Bool := !s.flt.fenced.isEmpty
def flagDegrade (s : State) : Bool := s.activeClass 1
def flagNote (s : State) : Bool := s.activeClass 0

def indDefault (s : State) (i : Nat) : Colour :=
  match i with
  | 0 =>
    if s.on pgSUP SUP.SUPPLY.VIN_LOW then s.indRed
    else if !(s.on pgSUP SUP.SUPPLY.SUPA_OK && s.on pgSUP SUP.SUPPLY.SUPB_OK) then s.indAmber else s.indGreen
  | 1 =>
    let m := s.st pgSEQ
    if m = 3 ∨ m = 6 then s.indGreen else if m = 2 then s.indAmber else if m = 4 then s.indBlue else Colour.dark
  | 2 => if s.role = 1 then s.indGreen else if s.role = 2 then s.indWhite else s.indAmber
  | 3 =>
    let p := s.pairState
    if p = 0 ∨ p = 1 then Colour.dark
    else if p = 3 then s.indRed
    else if p = 2 then s.blink 1000 s.indAmber
    else if p = 5 then s.indGreen else s.indAmber
  | 4 => if s.pairState != 1 && s.on pgDVL DVL.STATUS.LANE0_UP then s.indGreen else Colour.dark
  | 5 => if s.pairState != 1 && s.on pgDVL DVL.STATUS.LANE1_UP then s.indGreen else Colour.dark
  | 6 =>
    if !s.dwyRuns then Colour.dark
    else if s.on pgDWY DWY.STATUS.RING_OPEN || (List.range 250).any (fun a => s.stState a == 5) then s.indAmber
    else s.indGreen
  | 7 =>
    if s.lanUsable 0 && s.lanUsable 1 then s.indGreen
    else if s.lanUsable 0 || s.lanUsable 1 then s.indAmber else s.indRed
  | 8 =>
    if s.stnState = 0 then s.indRed
    else if s.stnState = 3 ∨ s.stpState = 3 ∨ s.stpState = 2 then s.indAmber else s.indGreen
  | 9 => if s.flagYield || s.flagFence then s.indRed else if s.flagDegrade then s.indAmber else Colour.dark
  | 10 =>
    if ioPages.any (fun p => s.st p == 5) then s.indRed
    else if ioPages.any (fun p => s.st p == 6) then s.indAmber else s.indGreen
  | _ => Colour.dark

/-- What `CFGi` commands (R468). -/
def indConfigured (s : State) (i : Nat) : Colour :=
  let src := s.get pgIND (IND.CFG.SRC i)
  let c : Colour := if src = 2 then s.indDefault i
    else if src = 1 then (s.get pgIND (IND.CFG.R i), s.get pgIND (IND.CFG.G i), s.get pgIND (IND.CFG.B i))
    else Colour.dark
  match s.get pgIND (IND.CFG.BLINK i) with
  | 0 => c
  | 1 => s.blink 2000 c
  | 2 => s.blink 1000 c
  | _ => s.blink 500 c

/-! ### Overrides (R470) -/

/-- The module is dark: PD1 is off, a hold-up or shutdown sequence runs, or it is parked. -/
def indOff (s : State) : Bool := !s.pd1 || s.inSequence || s.boot.phase == .parked

/-- A state of R470 is in force. -/
def indOverride (s : State) : Bool :=
  s.indOff || s.boot.phase == .romRecovery || s.boot.startFailed || s.boot.maint || !s.boot.reachedStop || s.boot.identify

/-- What indicator `i` is commanded to show. -/
def indColour (s : State) (i : Nat) : Colour :=
  if s.indOff then Colour.dark
  else if s.boot.phase == .romRecovery then (if i = 9 then s.blink 1000 s.indRed else Colour.dark)
  else if s.boot.identify && i == 11 then s.blink 500 s.indBlue
  else if s.boot.startFailed then (if i = 9 then s.blink 1000 s.indRed else s.indDefault i)
  else if s.boot.maint then (if i = 1 then s.blink 1000 s.indBlue else s.indDefault i)
  else if !s.boot.reachedStop then (if s.clk.ref / 10000000 % 12 = i then s.indWhite else Colour.dark)
  else s.indConfigured i

/-! ### Emitters (R467) -/

/-- Point `k` of the gamma table of a colour: 0 red, 1 green, 2 blue. -/
def gammaPoint (s : State) (colour k : Nat) : Nat := bits (s.reg pgIND (0x100 + 0x100 * colour + 4 * k)).toNat 9 0

/-- The code that level `l` gives. -/
def gammaCode (s : State) (colour l : Nat) : Nat :=
  let k := l / 4
  let p := s.gammaPoint colour k
  if 63 ≤ k then s.gammaPoint colour 63 else p + l % 4 * (s.gammaPoint colour (k + 1) - p) / 4

/-- The code commanded of an emitter; an emitter with a fault stays dark (R471). -/
def emitterCode (s : State) (i colour : Nat) : Nat :=
  let n := i * 3 + colour
  if s.pnl.dark.contains n || s.pnl.dark.contains (n + 36) then 0
  else
    let c := s.indColour i
    s.gammaCode colour (if colour = 0 then c.1 else if colour = 1 then c.2.1 else c.2.2)

/-- S: the commanded codes of all emitters. -/
def indTotal (s : State) : Nat :=
  ((List.range 36).map (fun n => s.emitterCode (n / 3) (n % 3))).foldl (· + ·) 0

/-- The code an emitter is driven with. -/
def emitterDriven (s : State) (i colour : Nat) : Nat :=
  let total := s.indTotal
  let c := s.emitterCode i colour
  if 3000 < total then c * 3000 / total else c

end State
end Sys2Proof.Machine
end

