-- ==== Sys2Proof/Machine/Pnl.lean ====
section
/-! DEFINITION. PNL: region updates, the rest image, common drives and their marker (R456 to R466), and the emitter
faults of IND (R471). -/

namespace Sys2Proof.Machine

/-- The 16 characters of a line as codes, filled with spaces. -/
def textLine (s : String) : List Nat := ((s.toList.map Char.toNat) ++ List.replicate 16 0x20).take 16

/-- What the font draws for a character code (R463). -/
def drawn (c : Nat) : Nat :=
  if 0x20 ≤ c ∧ c ≤ 0x5F then c else if 0x61 ≤ c ∧ c ≤ 0x7A then c - 0x20 else 0x20

/-- The 96 dots of row `r` of a text line: each character in 6 columns, its five dots on the left; row 7 is dark. -/
def lineRow (chars : List Nat) (inverted : Bool) (r : Nat) : Nat :=
  if r = 7 then 0
  else
    let w := (List.range 16).foldl (fun acc i =>
      acc + (Config.glyph (drawn (chars.getD i 0x20)) r).toNat * 2 ^ (6 * i)) 0
    if inverted then 79228162514264337593543950335 - w else w

/-- A decimal number as `n` digit codes. -/
def digits (v : Nat) : Nat → List Nat
  | 0 => []
  | n + 1 => digits (v / 10) n ++ [0x30 + v % 10]

namespace State

/-- 16 characters held in four registers from field `f 0` on (R473). -/
def charsAt (s : State) (f : Nat → Fld) : List Nat :=
  (List.range 16).map (fun i => bits (s.get pgPNL (f (i / 4))) (8 * (i % 4) + 7) (8 * (i % 4)))

def roleWord (s : State) : String :=
  if s.get pgPAIR PAIR.STATUS.PAIR_STATE = 1 then "SINGLE"
  else if s.get pgPAIR PAIR.STATUS.ROLE = 1 then "DUTY"
  else if s.get pgPAIR PAIR.STATUS.ROLE = 2 then "STANDBY" else "----"

def modeWord (s : State) : String :=
  match s.st pgSEQ with
  | 2 => "STOP" | 3 => "RUN" | 6 => "RUN" | 4 => "HOLD" | _ => "START"

/-- The cause text of R464. -/
def causeChars (s : State) (cause : Nat) : List Nat :=
  match cause with
  | 1 => textLine "SUPPLY LOST" | 2 => textLine "SHUT DOWN" | 3 => textLine "OVER TEMP" | 4 => textLine "WATCHDOG"
  | 5 => textLine "SUP ERROR" | 6 => textLine "RESTART" | 7 => textLine "START FAILED"
  | 8 => s.charsAt PNL.REST_TEXT
  | _ => textLine ""

/-- Line 3: CAL date and time (R463); blank for cause 0. -/
def dateChars (s : State) (cause : Nat) : List Nat :=
  if cause = 0 then textLine ""
  else
    let t := s.cal.now
    digits t.year 4 ++ [0x2D] ++ digits t.month 2 ++ [0x2D] ++ digits t.day 2 ++ [0x20] ++ digits t.hour 2 ++ [0x3A]
      ++ digits t.minute 2

/-- The rows of the rest image for lines `ls` (R463). -/
def restRows (s : State) (cause : Nat) (mode : String) (ls : List Nat) : List (Nat × Nat) :=
  ls.flatMap (fun l => (List.range 8).map (fun r => (8 * l + r,
    match l with
    | 0 => lineRow (s.charsAt PNL.REST_NAME) false r
    | 1 => lineRow (textLine (s.roleWord ++ " " ++ mode)) false r
    | 2 => lineRow (s.causeChars cause) false r
    | _ => lineRow (s.dateChars cause) (decide (s.get pgCAL CAL.STATUS.TRUST ≠ 2) && decide (cause ≠ 0)) r)))

/-- STATUS of PNL as the panel stands (R473). -/
def pnlStatus (s : State) : State :=
  let p := s.pnl
  let drive := match p.job with
    | none => if p.tempOut then 4 else 0
    | some j => if p.tempOut && p.marker.isNone then 4 else j.kind
  let region := match p.job with
    | some j => if j.kind = 1 then j.region else 0
    | none => 0
  let common := match p.marker with
    | some (c, _, _) => c
    | none => 0
  let pend := p.updates.foldl (fun m j => m + 2 ^ j.region) 0
  (((s.put pgPNL PNL.STATUS.DRIVE drive).put pgPNL PNL.STATUS.REGION region).put pgPNL PNL.STATUS.COMMON common).put
    pgPNL PNL.STATUS.PENDING pend

/-- The drive in progress takes its next common: the marker is written (R458). -/
def pnlNext (s : State) : State :=
  match s.pnl.job with
  | some j =>
    match j.rows with
    | (c, _) :: _ =>
      if s.pnl.tempOut then s.pnlStatus
      else ({ s with pnl := { s.pnl with marker := some (c, Store.get 0 s.pnl.polarity c, j.kind),
                                             driveAt := s.clk.ref } } : State).pnlStatus
    | [] => s.pnlStatus
  | none => s.pnlStatus

/-- A drive begins; a rest drive's cause becomes REST_CAUSE (R464). -/
def pnlBegin (s : State) (j : PanelJob) : State :=
  let s1 : State := { s with pnl := { s.pnl with job := some j, stopAfter := false } }
  (if j.kind = 2 then s1.put pgPNL PNL.REST_CAUSE.CAUSE j.cause else s1).pnlNext

/-- With no drive in progress, the next rest drive begins (R465). -/
def pnlRestNext (s : State) : State :=
  match s.pnl.job, s.pnl.rests with
  | none, j :: rest => ({ s with pnl := { s.pnl with rests := rest } } : State).pnlBegin j
  | _, _ => s.pnlStatus

/-- A rest trigger (R464, R465): `all` lines or lines 0 and 1; `off` discards the region updates. -/
def restTrigger (s : State) (cause : Nat) (mode : String) (all off : Bool) : State :=
  if s.pnl.tempOut then s.raise pgPNL 0x262 0 [cause, s.get pgPNL PNL.TEMP.T]
  else
    let again := match s.pnl.job with
      | some j => cause == 1 && j.kind == 2 && j.cause == 2
      | none => false
    let rows := s.restRows cause mode (if again then [2] else if all then [0, 1, 2, 3] else [0, 1])
    let req : PanelJob := { kind := 2, rows := rows, cause := cause, all := all, quiet := off, total := rows.length }
    let p := s.pnl
    let running := match p.job with
      | some j => j.kind == 1
      | none => false
    let back := match p.job with
      | some j => if j.kind == 1 && !off && decide (1 < j.rows.length) && !(p.updates.any (fun u => u.region == j.region))
          then [{ j with rows := j.rows.drop 1 }] else []
      | none => []
    let s1 : State := { s with pnl := { p with
      stopAfter := p.stopAfter || running
      updates := if off then [] else back ++ p.updates
      rests := p.rests ++ [req] } }
    s1.pnlRestNext

/-- A request of region `k` (R460, R461). -/
def pnlRequest (s : State) (k : Nat) : State :=
  if !s.on pgPNL (PNL.REGION.EN k) then s
  else
    let first := s.get pgPNL (PNL.REGION.FIRST k)
    let last := s.get pgPNL (PNL.REGION.LAST k)
    let rows := (List.range (last + 1 - first)).map (fun i =>
      let c := first + i
      (c, s.get pgPNL (PNL.FB (3 * c)) + s.get pgPNL (PNL.FB (3 * c + 1)) * 4294967296
        + s.get pgPNL (PNL.FB (3 * c + 2)) * 18446744073709551616))
    let j : PanelJob := { kind := 1, region := k, rows := rows, total := rows.length }
    let had := s.pnl.updates.any (fun u => u.region == k)
    let s1 : State := { s with pnl := { s.pnl with
      updates := s.pnl.updates.filter (fun u => u.region != k) ++ [j] } }
    onlyIf had (fun s => s.incMod pgPNL PNL.REPLACED) s1

/-- Every common of a drive was last driven at least MIN_GAP ago (R461). -/
def gapPassed (s : State) (j : PanelJob) : Bool :=
  j.rows.all (fun r =>
    let l := Store.get 0 s.pnl.driven r.1
    l == 0 || decide (l - 1 + s.get pgPNL PNL.CFG.MIN_GAP * 100000 ≤ s.clk.ref))

/-- The recovery refresh at PD1 start (R459): the interrupted common, all commons dark, then the rest image. -/
def pnlRecovery (s : State) (halves : Nat) : State :=
  match s.pnl.marker with
  | none => s
  | some (c, _, _) =>
    let w (k : Nat) := (Config.freeWord (s.freeUses + k)).toNat
    let row := w 0 + w 1 * 4294967296 + w 2 * 18446744073709551616
    let rows := (c, row) :: (List.range 32).map (fun i => (i, 0))
    let s1 : State := { s with freeUses := s.freeUses + 3, pnl := { s.pnl with marker := none } }
    let s2 := (s1.setFault pgPNL 17).raise pgPNL 0x260 0 [c, halves]
    (s2.pnlBegin { kind := 3, rows := rows, total := 33 }).restTrigger (s2.get pgPNL PNL.REST_CAUSE.CAUSE) s2.modeWord
      true false

/-- PD1 goes off: drives and updates end; the image, the polarities and the marker stay. -/
def pnlOff (s : State) : State :=
  { s with pnl := { image := s.pnl.image, polarity := s.pnl.polarity, marker := s.pnl.marker } }

end State

/-! ### The commands -/

/-- REQ (R460, R461). -/
def execReq (m : Fin 4) (mask : BitVec 8) (s : State) : Out :=
  .next (s.action pgPNL 0x064 m.val (fun s =>
    (forEach ((List.range 8).filter (fun k => bitOf mask.toNat k)) (fun s k => s.pnlRequest k) s).pnlStatus))

/-- REGION_UPDATE_START (R461): the oldest pending update starts once MIN_GAP has passed for all its commons. -/
def execRegionUpdateStart (s : State) : Out :=
  match s.pnl.job, s.pnl.updates with
  | none, j :: rest =>
    if s.pd1 && !s.pnl.tempOut && s.gapPassed j then
      .next (({ s with pnl := { s.pnl with updates := rest } } : State).pnlBegin j)
    else .next s
  | _, _ => .next s

/-- COMMON_DRIVE_DONE (R456 to R459, R464, R465): 400 µs after its begin, the common in drive holds its dots; `markerOk` is false where a marker
write failed, `driveErr` 1 for the common driver and 2 for a segment driver out of range. -/
def execCommonDriveDone (markerOk : Bool) (driveErr : Fin 3) (s : State) : Out :=
  match s.pnl.job, s.pnl.marker with
  | some j, some (c, pol, _) =>
    if s.clk.ref < s.pnl.driveAt + 40000 then .next s else
    let row := match j.rows with
      | (_, v) :: _ => v
      | [] => 0
    let p := s.pnl
    let left := if p.stopAfter then [] else j.rows.drop 1
    let s1 : State := { s with pnl := { p with
      image := Store.set 0 p.image c row, polarity := Store.set 0 p.polarity c (1 - pol), marker := none
      driven := Store.set 0 p.driven c (s.clk.ref + 1)
      job := if left.isEmpty then none else some { j with rows := left }
      stopAfter := false } }
    let s2 := s1.incMod pgPNL PNL.DRIVES
    let s3 := onlyIf (!markerOk) (fun s => (s.setFault pgPNL 19).raise pgPNL 0x265) s2
    let s4 := onlyIf (driveErr.val != 0) (fun s => (s.setFault pgPNL 16).raise pgPNL 0x263 0 [c, driveErr.val]) s3
    let s5 := onlyIf (left.isEmpty && j.kind == 2 && !j.quiet)
      (fun s => s.raise pgPNL 0x261 (if j.all then 0 else 1) [j.cause, j.total * 400]) s4
    .next (if left.isEmpty then s5.pnlRestNext else s5.pnlNext)
  | _, _ => .next s

/-- REST_CMD with CODE 1 (R464): cause 8 with the text of REST_TEXT. -/
def execRestCmdText (m : Fin 4) (s : State) : Out :=
  .next (s.action pgPNL 0x068 m.val (fun s => s.restTrigger 8 s.modeWord true false))

/-- REST_CMD with CODE 2 (R464): cause 0, line 2 blank. -/
def execRestCmdBlank (m : Fin 4) (s : State) : Out :=
  .next (s.action pgPNL 0x068 m.val (fun s => s.restTrigger 0 s.modeWord true false))

/-- TEMP_RANGE (R457): the panel temperature `t` is measured; outside −30 °C to +85 °C drives stop, and a return by 2 °C
resumes them. -/
def execTempRange (t : BitVec 16) (s : State) : Out :=
  if !s.pd1 then .next s
  else
    let s0 := s.put pgPNL PNL.TEMP.T t.toNat
    let v := t.toInt
    if !s0.pnl.tempOut && (decide (v < -240) || decide (680 < v)) then
      let s1 : State := { s0 with pnl := { s0.pnl with tempOut := true } }
      .next ((((s1.setFault pgPNL 18).cond pgPNL 18 true).raise pgPNL 0x264 0 [t.toNat]).pnlStatus)
    else if s0.pnl.tempOut && (decide (-224 ≤ v) && decide (v ≤ 664)) then
      let s1 : State := { s0 with pnl := { s0.pnl with tempOut := false } }
      let s2 := (s1.cond pgPNL 18 false).raise pgPNL 0x264 1 [t.toNat]
      .next (if s2.pnl.marker.isNone then (if s2.pnl.job.isNone then s2.pnlRestNext else s2.pnlNext) else s2.pnlStatus)
    else .next s0

/-- EMITTER_FAULT (R471): an emitter is open (`short` false) or short for 100 ms and is left dark; an open emitter shows
at a command of 1 mA or more only, and one that is dark already shows no fault. -/
def execEmitterFault (i : Fin 12) (colour : Fin 3) (short : Bool) (s : State) : Out :=
  if !s.pd1 || s.emitterDriven i.val colour.val < (if short then 1 else 50) then .next s
  else
    let n := i.val * 3 + colour.val + (if short then 36 else 0)
    let b := if short then 17 else 16
    let s1 : State := { s with pnl := { s.pnl with dark := insNum n s.pnl.dark } }
    .next ((((s1.put pgIND IND.LAST_FAULT.INDICATOR i.val).put pgIND IND.LAST_FAULT.COLOUR colour.val).setFault pgIND b).cond
      pgIND b true |>.raise pgIND 0x270 (b2n short) [i.val, colour.val])

end Sys2Proof.Machine
end

