-- ==== Sys2Proof/Machine/Rec.lean ====
section
/-! DEFINITION. REC and its cursors: admission and rate limits, the ring in MRAM, epoch and wraps, the four windows
(R438 to R449). -/

namespace Sys2Proof.Machine

/-- One token in the unit of a bucket: 1/(65,536 × 10^8) token. -/
def token : Nat := 6553600000000

/-- Records in the ring (R438). -/
def ringSize : Nat := 262144

/-- The bytes of a record with sequence `seq` (R438), its CHECK among them (R439). -/
def recordBytes (seq : Nat) (r : QRec) : List Byte :=
  let w1 := r.ev.code * 1048576 + r.ev.page % 512 * 2048 + r.ev.sub % 8 * 256 + r.sev * 32 + b2n r.ev.late * 16
    + b2n r.supp * 8
  let head := leBytes seq 4 ++ leBytes w1 4 ++ leBytes r.ev.wrap 4 ++ leBytes r.ev.ns 4 ++ leBytes r.ev.p0 4
    ++ leBytes r.ev.p1 4 ++ leBytes r.ev.p2 4
  let tail := leBytes (r.count * 256) 2
  head ++ leBytes (crc16 (head ++ tail)).toNat 2 ++ tail

namespace State

/-! ### Rate limits (R442, R443) -/

/-- The level of a bucket now, given its BURST and what it gains in one reference tick. -/
def bucketLevel (s : State) (b : Bucket) (burst gain : Nat) : Nat :=
  if b.full then burst * token else min (burst * token) (b.level + (s.clk.ref - b.at_) * gain)

def codeBucket (s : State) (code : Nat) : Nat :=
  s.bucketLevel (Store.get {} s.recd.buckets code) (s.get pgREC REC.CODE_CFG.BURST code)
    (s.get pgREC REC.CODE_CFG.RATE code * 4096)

def globalBucket (s : State) : Nat :=
  s.bucketLevel s.recd.gbucket (s.get pgREC REC.GLOBAL.BURST) (s.get pgREC REC.GLOBAL.RATE * 65536)

/-- Settle a code's bucket at a level. -/
def setCodeBucket (s : State) (code level : Nat) : State :=
  let b : Bucket := { full := false, level := level, at_ := s.clk.ref }
  { s with recd := { s.recd with buckets := Store.set {} s.recd.buckets code b } }

def setGlobalBucket (s : State) (level : Nat) : State :=
  { s with recd := { s.recd with gbucket := { full := false, level := level, at_ := s.clk.ref } } }

/-- A record of a code finds its tokens (R443). -/
def hasTokens (s : State) (code : Nat) : Bool :=
  decide (code < 0x020) ||
    ((s.get pgREC REC.CODE_CFG.RATE code == 0 || decide (token ≤ s.codeBucket code)) && decide (token ≤ s.globalBucket))

/-- It takes one from each bucket. -/
def takeTokens (s : State) (code : Nat) : State :=
  if code < 0x020 then s
  else
    let s1 := if s.get pgREC REC.CODE_CFG.RATE code = 0 then s else s.setCodeBucket code (s.codeBucket code - token)
    s1.setGlobalBucket (s.globalBucket - token)

/-- A record is suppressed under its code (R442). -/
def suppress (s : State) (code page : Nat) : State :=
  let s1 := (s.incSat pgREC REC.CODE_STAT.SUPP 1 code).incMod pgREC REC.SUPP_TOTAL
  { s1 with recd := { s1.recd with suppPage := Store.set 0 s1.recd.suppPage code page } }

/-- The queue of 1,024 entries is full (R440). -/
def queueFull (s : State) : Bool := decide (1024 ≤ s.recd.queue.length)

/-- A record met a full queue (R440). -/
def noteFull (s : State) : State :=
  ({ s with recd := { s.recd with fullCount := s.recd.fullCount + 1 } } : State).setFault pgREC 16

/-- REC receives an event record: it is queued, or suppressed (R440, R442, R443). -/
def receive (s : State) (ev : RecEv) : State :=
  if s.queueFull then (s.suppress ev.code ev.page).noteFull
  else if s.hasTokens ev.code then
    let n := s.get pgREC REC.CODE_STAT.SUPP ev.code
    let s1 := (s.takeTokens ev.code).put pgREC REC.CODE_STAT.SUPP 0 ev.code
    { s1 with recd := { s1.recd with queue := s1.recd.queue ++ [{
        ev := ev, sev := s.get pgREC REC.CODE_CFG.SEV ev.code, supp := decide (0 < n), count := n }] } }
  else s.suppress ev.code ev.page

/-- The next record that REC receives: of those raised in one tick, the first of the lowest page (R440). -/
def nextRaised (l : List RecEv) : Option (RecEv × List RecEv) :=
  match l with
  | [] => none
  | h :: r =>
    let same := (h :: r).takeWhile (fun x => x.at_ == h.at_)
    let page := same.foldl (fun m x => min m x.page) h.page
    let i := (h :: r).findIdx (fun x => x.page == page)
    match (h :: r)[i]? with
    | none => none
    | some x => some (x, (h :: r).eraseIdx i)

/-! ### The ring and the cursors (R444 to R449) -/

/-- Sequence of the oldest record held; the next sequence while none is held (R444). -/
def oldestSeq (s : State) : Nat := (s.recd.nextSeq + 4294967296 - s.recd.held) % 4294967296

/-- The record with sequence `q` is held. -/
def seqHeld (s : State) (q : Nat) : Bool :=
  decide ((q + 4294967296 - s.oldestSeq) % 4294967296 < s.recd.held)

/-- The ring index of sequence `q`. -/
def seqIdx (s : State) (q : Nat) : Nat :=
  (s.recd.nextIdx + ringSize - (s.recd.nextSeq + 4294967296 - q) % 4294967296 % ringSize) % ringSize

def curSeq (s : State) (c : Nat) : Nat := s.get (pgRCUR c) RCUR.CURSOR_SEQ

/-- The cursor stands at the end. -/
def curEnd (s : State) (c : Nat) : Bool := s.curSeq c == s.recd.nextSeq

/-- The words of the window of cursor `c`. -/
def showWindow (s : State) (c addr : Nat) : State :=
  forEach (List.range 8) (fun s i => s.put (pgRCUR c) (RCUR.WIN_W i) (s.memRd (addr + 4 * i) 4)) s

/-- The cursor comes to stand at its sequence: the record enters the window and is checked (R446). -/
def curEnter (s : State) (c : Nat) : State :=
  let pg := pgRCUR c
  let s0 := (s.put pg RCUR.WIN_STATUS.LOCKED 0).put pg RCUR.WIN_STATUS.BAD 0
  if s0.curEnd c then
    (forEach (List.range 8) (fun s i => s.put pg (RCUR.WIN_W i) 0) s0).put pg RCUR.WIN_STATUS.VALID 0
  else
    let q := s0.curSeq c
    let addr := mramRec + s0.seqIdx q * 32
    let s1 := (s0.showWindow c addr).put pg RCUR.WIN_STATUS.VALID 1
    let good := (crc16 (Memory.bytes s1.mem addr 28 ++ Memory.bytes s1.mem (addr + 30) 2)).toNat
      == s1.memRd (addr + 28) 2 && s1.memRd addr 4 == q
    if good then s1
    else ((s1.put pg RCUR.WIN_STATUS.BAD 1).setFault pg 16).raise pgREC 0x240 c [s0.seqIdx q, s1.memRd addr 4, q]

/-- Move a cursor to sequence `q`. -/
def curMove (s : State) (c q : Nat) : State := (s.put (pgRCUR c) RCUR.CURSOR_SEQ q).curEnter c

/-- `n` records are skipped (R447). -/
def curLap (s : State) (c q n : Nat) : State :=
  (((s.incMod (pgRCUR c) RCUR.LOST n).setFault (pgRCUR c) 17).raise pgREC 0x244 c [n]).curMove c q

/-- The cursor advances by one record (R445, R447). -/
def curAdvance (s : State) (c : Nat) : State :=
  if s.curEnd c then s
  else
    let q := (s.curSeq c + 1) % 4294967296
    if q = s.recd.nextSeq ∨ s.seqHeld q = true then s.curMove c q
    else s.curLap c s.oldestSeq ((s.oldestSeq + 4294967296 - q) % 4294967296)

/-- The 32 bytes that a write to the ring leaves: the record, or free bytes where the verification fails. -/
def ringBytes (s : State) (r : QRec) (ok : Bool) : List Byte :=
  if ok then recordBytes s.recd.nextSeq r
  else (List.range 8).flatMap (fun i => leBytes (Config.freeWord (s.freeUses + i)).toNat 4)

/-- The writer writes one record at its position (R440, R444, R447): cursors in its way move on, cursors at the end see
it enter. -/
def ringWrite (s : State) (r : QRec) (ok : Bool) : State :=
  let d := s.recd
  let full := decide (ringSize ≤ d.held)
  let old := s.oldestSeq
  let lapped := (List.range 4).filter (fun c =>
    full && s.curSeq c == old && !s.on (pgRCUR c) RCUR.WIN_STATUS.LOCKED)
  let atEnd := (List.range 4).filter (fun c => s.curEnd c)
  let s1 := s.memPut (mramRec + d.nextIdx * 32) (s.ringBytes r ok)
  let s2 : State := { s1 with
    freeUses := s1.freeUses + (if ok then 0 else 8)
    recd := { d with
      nextSeq := (d.nextSeq + 1) % 4294967296, nextIdx := (d.nextIdx + 1) % ringSize, held := min ringSize (d.held + 1) } }
  let s3 := (s2.incMod pgREC REC.WRITTEN).tallyAdd 112 1
  let s4 := if ok then s3 else (s3.setFault pgREC 19).raise pgREC 0x249 0 [s3.freeWord.toNat, d.nextIdx * 32]
  let s5 := forEach lapped (fun s c => s.curLap c ((old + 1) % 4294967296) 1) s4
  forEach atEnd (fun s c => (s.curEnter c).event (0x384 + c)) s5

/-- The whole queue is written (R28, R440). -/
def recDrain (s : State) : State :=
  let q := s.recd.queue
  forEach (List.range q.length) (fun s i =>
    match q[i]? with
    | some r => s.ringWrite r true
    | none => s) ({ s with recd := { s.recd with queue := [] } })

/-- Every raised record is received, in order (R440). -/
def recReceiveAll (s : State) : State :=
  forEach (List.range s.recd.raised.length) (fun s _ =>
    match nextRaised s.recd.raised with
    | some (ev, rest) => ({ s with recd := { s.recd with raised := rest } } : State).receive ev
    | none => s) s

/-- RECORDER_CLEAR (R449): the ring is emptied, 0x001 is written first, every cursor moves to it. -/
def recClear (s : State) (requester : Nat) : State :=
  let d := s.recd
  let newest := (d.nextSeq + 4294967295) % 4294967296
  let s1 := forEach (List.range 4) (fun s c =>
    let unread := (d.nextSeq + 4294967296 - s.curSeq c) % 4294967296
    ((s.incMod (pgRCUR c) RCUR.LOST unread).put (pgRCUR c) RCUR.CURSOR_SEQ d.nextSeq)) s
  let ev : RecEv := { code := 0x001, page := pgREC, sub := 0, p0 := newest, p1 := requester, p2 := d.held, ns := s.stpNs
                      wrap := (s.get pgREC REC.EPOCH + s.get pgREC REC.PEND) % 4294967296
                      late := !(s.on pgTIME TIME.STATUS.STP_TRUST) || s.on pgREC REC.STATUS.EPOCH_STALE
                      at_ := s.clk.ref }
  let s2 : State := { s1 with recd := { s1.recd with held := 0 } }
  s2.ringWrite { ev := ev, sev := s.get pgREC REC.CODE_CFG.SEV 0x001 } true

/-- REC at PD1 start (R443, R444, R448): buckets full, 0x248, the cursors restored. -/
def recStart (s : State) : State :=
  let d := s.recd
  let s0 : State := { s with recd := { d with queue := [], fullCount := 0, buckets := [], gbucket := {}, suppPage := []
                                              ready := false } }
  let s1 := s0.raise pgREC 0x248 0 [(d.nextSeq + 4294967295) % 4294967296, s0.oldestSeq, d.held]
  forEach (List.range 4) (fun s c =>
    let q := Store.get 0 d.saved c
    if q = d.nextSeq ∨ s.seqHeld q = true then s.curMove c q
    else (s.incMod (pgRCUR c) RCUR.LOST ((s.oldestSeq + 4294967296 - q) % 4294967296)).curMove c s.oldestSeq) s1

end State

/-! ### The commands -/

/-- RECORD_RECEIVE (R440). -/
def execRecordReceive (s : State) : Out :=
  match State.nextRaised s.recd.raised with
  | none => .next s
  | some (ev, rest) => .next (({ s with recd := { s.recd with raised := rest } } : State).receive ev)

/-- RECORD_WRITE (R440): the head of the queue goes to MRAM; `ok` is what its verification found. -/
def execRecordWrite (ok : Bool) (s : State) : Out :=
  if !s.recd.ready then .next s
  else match s.recd.queue with
  | [] => .next s
  | r :: rest =>
    let n := s.recd.fullCount
    let s1 := ({ s with recd := { s.recd with queue := rest } } : State).ringWrite r ok
    .next (if 0 < n then
      ({ s1 with recd := { s1.recd with fullCount := 0 } } : State).raise pgREC 0x246 0 [n] else s1)

/-- SUMMARY_RECORD (R442): the bucket of a code stands at BURST while its count is not zero. -/
def execSummaryRecord (code : BitVec 12) (s : State) : Out :=
  let c := code.toNat
  let n := s.get pgREC REC.CODE_STAT.SUPP c
  if n = 0 ∨ s.get pgREC REC.CODE_CFG.RATE c = 0 ∨ s.codeBucket c < s.get pgREC REC.CODE_CFG.BURST c * token then .next s
  else if s.queueFull then .next (s.suppress c (Store.get 0 s.recd.suppPage c)).noteFull
  else
    let ev : RecEv := { code := c, page := Store.get 0 s.recd.suppPage c, sub := 0, p0 := 0xFFFFFFFF, p1 := 0xFFFFFFFF
                        p2 := 0xFFFFFFFF, ns := s.stpNs
                        wrap := (s.get pgREC REC.EPOCH + s.get pgREC REC.PEND) % 4294967296
                        late := !(s.on pgTIME TIME.STATUS.STP_TRUST) || s.on pgREC REC.STATUS.EPOCH_STALE
                        at_ := s.clk.ref }
    let s1 := s.put pgREC REC.CODE_STAT.SUPP 0 c
    .next { s1 with recd := { s1.recd with queue := s1.recd.queue ++ [{
      ev := ev, sev := s.get pgREC REC.CODE_CFG.SEV c, supp := true, count := n }] } }

/-- LOG_CMD (R454): a firmware record under REC's own page; RESULT tells whether it was queued. -/
def execLogCmd (m : Fin 4) (code : BitVec 12) (sub : BitVec 3) (s : State) : Out :=
  .next (s.actionRes pgREC 0x078 m.val REC.LOG_STATUS.RESULT 6 (fun s =>
    if code.toNat < 0x400 then s.put pgREC REC.LOG_STATUS.RESULT 2
    else
      let ev : RecEv := { code := code.toNat, page := pgREC, sub := sub.toNat, p0 := s.get pgREC (REC.LOG_P 0)
                          p1 := s.get pgREC (REC.LOG_P 1), p2 := s.get pgREC (REC.LOG_P 2), ns := s.stpNs
                          wrap := (s.get pgREC REC.EPOCH + s.get pgREC REC.PEND) % 4294967296
                          late := !(s.on pgTIME TIME.STATUS.STP_TRUST) || s.on pgREC REC.STATUS.EPOCH_STALE
                          at_ := s.clk.ref }
      let queued := !s.queueFull && s.hasTokens code.toNat
      (s.receive ev).put pgREC REC.LOG_STATUS.RESULT (if queued then 0 else 1)))

/-- WRAP_ACK (R441). -/
def execWrapAck (m : Fin 4) (n : BitVec 2) (s : State) : Out :=
  .next (s.action pgREC 0x048 m.val (fun s =>
    if n.toNat ≤ s.get pgREC REC.PEND then
      (s.put pgREC REC.EPOCH (s.get pgREC REC.EPOCH + n.toNat)).put pgREC REC.PEND (s.get pgREC REC.PEND - n.toNat)
    else s))

/-- EPOCH (R441). -/
def execEpoch (m : Fin 4) (v : BitVec 32) (s : State) : Out :=
  .next (s.action pgREC 0x040 m.val (fun s =>
    let old := s.get pgREC REC.EPOCH
    let pend := s.get pgREC REC.PEND
    ((((s.put pgREC REC.EPOCH v.toNat).put pgREC REC.PEND 0).put pgREC REC.STATUS.EPOCH_STALE 0).cond pgREC 18
      false).raise pgREC 0x247 0 [old, v.toNat, pend]))

/-- WIN_W0_READ (R445): a read of WIN_W0 of cursor `c` by master `m`. -/
def execWinW0Read (c m : Fin 4) (s : State) : Out :=
  if !s.served then .next s
  else
    let s1 := s.answer (s.get (pgRCUR c.val) (RCUR.WIN_W 0))
    .next (if m = c ∧ s.on (pgRCUR c.val) RCUR.WIN_STATUS.VALID = true then
      s1.put (pgRCUR c.val) RCUR.WIN_STATUS.LOCKED 1 else s1)

/-- WIN_W7_READ (R445): the read unlocks the window and advances the cursor. -/
def execWinW7Read (c m : Fin 4) (s : State) : Out :=
  if !s.served then .next s
  else
    let s1 := s.answer (s.get (pgRCUR c.val) (RCUR.WIN_W 7))
    .next (if m = c then (s1.put (pgRCUR c.val) RCUR.WIN_STATUS.LOCKED 0).curAdvance c.val else s1)

/-- A SEEK by master `m` to sequence `q`, if there is one (R448). -/
def seek (c m : Fin 4) (q : State → Option Nat) (s : State) : Out :=
  .next (s.actionRes (pgRCUR c.val) 0x074 m.val RCUR.SEEK_STATUS.RESULT 6 (fun s =>
    match q s with
    | some q => (s.curMove c.val q).put (pgRCUR c.val) RCUR.SEEK_STATUS.RESULT 0
    | none => s.put (pgRCUR c.val) RCUR.SEEK_STATUS.RESULT 1))

def execSeekOldest (c m : Fin 4) (s : State) : Out := seek c m (fun s => some s.oldestSeq) s
def execSeekEnd (c m : Fin 4) (s : State) : Out := seek c m (fun s => some s.recd.nextSeq) s
def execSeekSeq (c m : Fin 4) (s : State) : Out :=
  seek c m (fun s =>
    let q := s.get (pgRCUR c.val) RCUR.SEEK_SEQ
    if s.seqHeld q then some q else none) s

end Sys2Proof.Machine
end

