-- ==== Sys2Proof/Machine/Tly.lean ====
section
/-! DEFINITION. TLY: the life counters, their MRAM records, thresholds and presets (R434 to R437). The counters
themselves and the test of a threshold are in Ops (`tallyAdd`, `tallyCheck`). -/

namespace Sys2Proof.Machine
namespace State

/-- A write of TLY.CMD: the unlock holds for this write only. -/
def tlyLock (s : State) : State := { s with tly := { s.tly with unlock := 0 } }

/-- MRAM record `w` of counter `i` (R435). -/
def tlyRec (s : State) (i w : Nat) : Nat := Store.get 0 s.tly.recs (2 * i + w)

/-- The record of counter `i` with the higher sequence. -/
def tlyNewer (s : State) (i : Nat) : Nat :=
  if s.tlyRec i 0 % 4294967296 < s.tlyRec i 1 % 4294967296 then 1 else 0

/-- Write counter `i` to the older of its records (R435). -/
def tlyStore (s : State) (i : Nat) : State :=
  let w := s.tlyNewer i
  let seq := (s.tlyRec i w % 4294967296 + 1) % 4294967296
  let recs := Store.set 0 s.tly.recs (2 * i + (1 - w)) (s.tally i * 4294967296 + seq)
  ({ s with tly := { s.tly with recs := recs } } : State).tallyAdd 114 1

/-- The counters whose value differs from their newer record go to MRAM, and the cursor sequences with them (R435,
R448). -/
def tlyFlush (s : State) : State :=
  let s1 := forEach ((List.range 256).filter (fun i =>
    decide (s.tally i ≠ s.tlyRec i (s.tlyNewer i) / 4294967296))) (fun s i => s.tlyStore i) s
  let saved := (List.range 4).foldl (fun m c => Store.set 0 m c (s1.get (pgRCUR c) RCUR.CURSOR_SEQ)) s1.recd.saved
  { s1 with recd := { s1.recd with saved := saved } }

/-- A command refused with a result (R437). -/
def tlyRefuse (s : State) (result : Nat) : State := (s.put pgTLY TLY.CMD_STATUS.RESULT result).setFault pgTLY 18

/-- A write of TLY.CMD by master `m`: refused by owner with RESULT 2 (R73, R453). -/
def tlyCmd (s : State) (m : Nat) (f : State → State) : State :=
  if s.servedTo m && s.owner pgTLY != m then (s.refuseOwner pgTLY 0x05C m).tlyRefuse 2
  else s.action pgTLY 0x05C m f

def tlyPresetVal (s : State) : Nat := s.get pgTLY TLY.PRESET_LO + s.get pgTLY TLY.PRESET_HI * 4294967296

end State

/-! ### The commands -/

/-- TALLY_FLUSH (R435): every 60 s of reference time from PD1 start. -/
def execTallyFlush (s : State) : Out :=
  let n := s.clk.ref / 6000000000
  if !s.pd1 || decide (n ≤ s.tly.flushes) then .next s
  else .next (({ s with tly := { s.tly with flushes := n } } : State).tlyFlush)

/-- PRESET (R437). -/
def execPreset (m : Fin 4) (s : State) : Out :=
  .next (s.tlyCmd m.val (fun s =>
    let i := s.get pgTLY TLY.INDEX.COUNTER
    let unlocked := s.tly.unlock = 2
    let s0 := s.tlyLock
    if !(decide (13 ≤ i) && decide (i ≤ 92)) && !decide (128 ≤ i) then s0.tlyRefuse 3
    else if i ≤ 92 ∧ ¬ unlocked then s0.tlyRefuse 1
    else
      let old := s0.tally i
      let v := s0.tlyPresetVal
      (((s0.tallySet i v).raise pgTLY 0x242 0 [i, old, v]).tlyStore i).put pgTLY TLY.CMD_STATUS.RESULT 0))

/-- ADD (R437). -/
def execAdd (m : Fin 4) (s : State) : Out :=
  .next (s.tlyCmd m.val (fun s =>
    let i := s.get pgTLY TLY.INDEX.COUNTER
    let s0 := s.tlyLock
    if i < 128 then s0.tlyRefuse 3
    else (s0.tallyAdd i (s0.get pgTLY TLY.PRESET_LO)).put pgTLY TLY.CMD_STATUS.RESULT 0))

/-- FLUSH (R435). -/
def execFlush (m : Fin 4) (s : State) : Out :=
  .next (s.tlyCmd m.val (fun s => (s.tlyLock.tlyFlush).put pgTLY TLY.CMD_STATUS.RESULT 0))

/-- THRESH_HI (R436, R453): the write applies the 64-bit threshold of the selected counter; above the current value it
clears the WARN bit, and the test is armed again. -/
def execThreshHi (m : Fin 4) (v : BitVec 32) (s : State) : Out :=
  .next (s.action pgTLY 0x050 m.val (fun s =>
    let s0 := s.tlyTouch
    let i := s0.get pgTLY TLY.INDEX.COUNTER
    if 120 ≤ i ∧ i ≤ 127 then s0
    else
      let lo := s0.tly.thrHeld.getD (Store.get 0 s0.tly.thr i % 4294967296)
      let thr := v.toNat * 4294967296 + lo
      let s1 : State := { s0 with tly := { s0.tly with thr := Store.set 0 s0.tly.thr i thr, thrHeld := none } }
      let w := s1.get pgTLY (TLY.WARN (i / 32))
      let s2 := if s1.tally i < thr then s1.put pgTLY (TLY.WARN (i / 32)) (putBits w (i % 32) (i % 32) 0) else s1
      (s2.tallyCheck i).tallyAdd 114 1))

/-- TLY_UNLOCK (R437): one write of a key to TLY.UNLOCK. The keys of `SUP.UNLOCK` in order, within 1 ms. -/
def execTlyUnlock (m : Fin 4) (key : BitVec 32) (s : State) : Out :=
  .next (s.action pgTLY 0x060 m.val (fun s =>
    let t := s.tly
    if t.unlock = 2 then s
    else if key = 0x5EC7#32 then { s with tly := { t with unlock := 1, unlockAt := s.clk.ref } }
    else if key = 0xA17B#32 ∧ t.unlock = 1 ∧ s.clk.ref ≤ t.unlockAt + 100000 then
      { s with tly := { t with unlock := 2 } }
    else { s with tly := { t with unlock := 0 } }))

/-- The counter of the case-temperature bin of R434 for a sample in 0.125 °C units. -/
def tempBin (t : Int) : Nat :=
  if t < -320 then 93 else if 800 ≤ t then 108 else 93 + ((t + 320) / 80).toNat + 1

/-- TALLY_TIME_COUNT (R434): one second: power-on time, the domains that are on, and the bin of the sampled case
temperature. -/
def execTallyTimeCount (case_ : BitVec 16) (s : State) : Out :=
  if !s.pd1 || decide (s.clk.ref / 100000000 ≤ s.tly.secs) then .next s
  else
    let s0 := ({ s with tly := { s.tly with secs := s.tly.secs + 1 } } : State).put pgSUP SUP.TEMP.CASE case_.toNat
    let s1 := onlyIf s0.boot.supplyValid (fun s => s.tallyAdd 0 1) s0
    let s2 := forEach ((List.range 11).map (· + 1)) (fun s d => onlyIf (s.dom d == 2) (fun s => s.tallyAdd d 1) s) s1
    .next (s2.tallyAdd (tempBin case_.toInt) 1)

/-- VALUE_LO_READ (R453): the read latches VALUE_HI. -/
def execValueLoRead (s : State) : Out :=
  if !s.served then .next s
  else
    let v := s.tally (s.get pgTLY TLY.INDEX.COUNTER)
    .next ((s.put pgTLY TLY.VALUE_HI (v / 4294967296)).answer (v % 4294967296))

end Sys2Proof.Machine
end

