-- ==== Sys2Proof/Machine/View.lean ====
section
/-! DEFINITION. What a register reads as, side effects apart: the header (R64, R65), the capability words (R77), the applied
values at the mirror offsets (R68), windows through an index register, and the registers that a block computes. -/

namespace Sys2Proof.Machine
namespace State

/-! ### Windows -/

/-- The index that selects what the register at `off` shows; 0 for a plain register. A mirror offset shows the same
window. -/
def winIdx (s : State) (page off0 : Nat) : Nat :=
  let off := if 0x840 ≤ off0 ∧ off0 < 0xF00 then off0 - 0x800 else off0
  let at_ (lo hi : Nat) : Bool := decide (lo ≤ off) && decide (off ≤ hi)
  match pageKind page with
  | some (.evd, _) => if off = 0x044 then s.get pgEVD EVD.ROUTE_INDEX.SOURCE else 0
  | some (.tmr, _) => if at_ 0x044 0x060 then s.get pgTMR TMR.CELL_INDEX.INDEX else 0
  | some (.lpe, _) =>
    if at_ 0x074 0x088 then s.get pgLPE LPE.FOLD_INDEX.FOLD
    else if at_ 0x500 0x5FC then s.get pgLPE LPE.REG_INDEX.TABLE else 0
  | some (.ang, _) => if at_ 0x048 0x05C || at_ 0x100 0x11C then s.get pgANG ANG.SLOT_INDEX.SLOT else 0
  | some (.eth, _) =>
    if at_ 0x050 0x060 then s.get page ETH.TXQ_INDEX.QUEUE
    else if at_ 0x068 0x078 then s.get page ETH.RXQ_INDEX.QUEUE
    else if at_ 0x094 0x0A0 then s.get page ETH.RULE_INDEX.RULE else 0
  | some (.can, _) => if at_ 0x0A8 0x0AC then s.get page CAN.RULE_INDEX.RULE else 0
  | some (.flt, _) =>
    if off = 0x084 ∨ off = 0x088 ∨ off = 0x0D0 ∨ off = 0x0D4 then s.get pgFLT FLT.SRC_INDEX.SOURCE else 0
  | some (.recorder, _) => if off = 0x064 ∨ off = 0x068 then s.get pgREC REC.CODE_INDEX.CODE else 0
  | _ => 0

/-! ### Registers that blocks compute -/

/-- A 32-bit mask with a bit for each number below 32 that satisfies `p`. -/
def maskWhere (p : Nat → Bool) : Nat := ((List.range 32).filter p).foldl (fun acc b => acc + 2 ^ b) 0

/-- Block-specific bits of STATUS (R65). -/
def statusLow (s : State) (page : Nat) : Nat :=
  let w := bits (s.reg page 0x008).toNat 27 0
  match pageKind page with
  | some (.lpe, _) =>
    putBits (putBits (putBits w 3 3 (b2n (!s.lpe.eccOff.isEmpty))) 1 1 (b2n (s.lSlots.any (fun n => s.lb n 0x0B0 13)))) 0 0
      (b2n (s.lSlots.any (fun n => s.lb n 0x0B0 18)))
  | some (.eth, i) => putBits (putBits w 24 24 (bits w 24 24 * b2n (decide (i ≤ 1) && s.prp))) 23 23 (b2n (decide (i ≤ 1) && s.prp))
  | some (.flt, _) =>
    b2n s.flagYield * 8 + b2n s.flagFence * 4 + b2n s.flagDegrade * 2 + b2n s.flagNote
  | some (.tly, _) => putBits w 1 1 (b2n ((List.range 8).any (fun i => s.get pgTLY (TLY.WARN i) != 0)))
  | some (.rcur, i) => b2n (s.curEnd i)
  | some (.ana, i) => if s.anaType i = 4 then w else putBits w 27 26 3
  | some (.pair, _) => putBits w 15 15 (b2n (!(s.on pgPAIR PAIR.CFG.SHADOW_EN) || !(s.on pgPLACE PLACE.DET.BUILT)))
  | some (.ind, _) => b2n s.indOverride * 2 + b2n s.boot.identify
  | _ => w

/-- `TSTAT.STATE` of a task: executing is the ready task of highest priority on its pair (R91 to R98). -/
def taskReady (s : State) (k : Nat) : Bool :=
  match (s.task k).cur with
  | some c => c.ready && !c.done
  | none => false

def tstatState (s : State) (k : Nat) : Nat :=
  if !s.taskOn k then 0
  else if s.taskShed k then 6
  else match (s.task k).cur with
    | some c =>
      if c.done then 4
      else if s.taskReady k && (s.task k).host.isSome && allTasks.all (fun j => j == k || (s.task j).host != (s.task k).host
          || !s.taskReady j || decide (s.taskPrio j < s.taskPrio k)) then 3 else 2
    | none => if s.taskHeld k then 5 else 1

/-- Tasks that pair `p` hosts. -/
def tasksOf (s : State) (p : Nat) : List Nat := s.tasksOn.filter (fun k => (s.task k).host == some p)

/-- `TASK_PAIR_LO` and `TASK_PAIR_HI` (R156). DESIGN CHOICE (assumption 232): a task of no pair reads 0. -/
def taskPairs (s : State) (lo : Nat) : Nat :=
  (List.range 16).foldl (fun acc j => acc + ((s.task (lo + j)).host.getD 0) * 4 ^ j) 0

def tier0Used (s : State) (p : Nat) : Nat := ((s.tasksOf p).foldl (fun acc k => acc + (s.task k).tier0) 0 + 1023) / 1024

/-- Smallest slack of the input (output) windows of the stations bound to a task, in ns (R305); `none` without one. -/
def stnSlack (s : State) (k : Nat) (out : Bool) : Option Int :=
  let tr := s.get pgDWY DWY.T_RING.MAX_US * 1000
  let room : Int := (s.taskT k : Int) - (s.taskPub k : Int)
  let one (a : Nat) : Int :=
    if out then room - ((s.outOfs a + s.wOut a + tr + 10000 + s.taskLin k : Nat) : Int)
    else if s.stnReceipt a then
      room - ((s.outOfs a + s.wOut a + tr + s.get (pgSTN a) STN.T_PREP.US * 1000 + s.wIn a + tr + 10000 : Nat) : Int)
    else (s.taskLin k : Int) - ((s.get (pgSTN a) STN.SLOT.D_SLOT * 10 + s.wIn a + tr + 10000 : Nat) : Int)
  match ((List.range 250).filter (fun a => s.stnBound a && s.stnTask a == k)).map one with
  | [] => none
  | x :: r => some (r.foldl min x)

/-- A word with shadow values not yet applied lies in a window of LPE. -/
def lpePending (s : State) (idx : Nat) (offs : List Nat) : Bool :=
  offs.any (fun off => s.shadow pgLPE off idx != s.reg pgLPE off idx)

/-- Age in µs of an instant kept as E + 1; 0 while there is none. -/
def ageUs (s : State) (at_ : Nat) : Nat := if at_ = 0 then 0 else min 4294967295 ((s.e - (at_ - 1)) / 1000)

/-- COPY_AGE: on the standby the age of the oldest among the newest commits of the redundant tasks (R403). -/
def copyAge (s : State) : Nat :=
  if s.role = 2 then (s.redTasks.map (fun k =>
    let c := Store.get {} s.pair.copied k
    if c.pubT = 0 then 0 else min 4294967295 ((s.e - c.pubT) / 1000))).foldl max 0
  else 0

/-- ROT_LEFT: minutes to the rotation of R398. -/
def rotLeft (s : State) : Nat :=
  let h := s.get pgPAIR PAIR.CFG.ROT_H
  if h = 0 ∨ s.role ≠ 1 then 0
  else (h * 360000000000 - (s.clk.ref - s.pair.dutyAt) + 5999999999) / 6000000000

/-- The registers that a block computes: `none` where the stored word is what is read. -/
def computed (s : State) (page off : Nat) : Option Nat :=
  match pageKind page with
  | some (.dir, _) =>
    if off = 0x044 then some Config.hwRev.toNat else if off = 0x048 then some Config.serialLo.toNat
    else if off = 0x04C then some Config.serialHi.toNat else none
  | some (.sup, _) =>
    if off = 0x080 then some ((s.reg pgSUP 0x080).toNat / 2 * 2 + b2n s.alarmClosed)
    else if off = 0x084 then some (putBits (s.reg pgSUP 0x084).toNat 31 24 Config.fwMinVer.toNat) else none
  | some (.evd, _) =>
    if off = 0x048 then some ((List.range 4).foldl (fun acc p => acc + min 255 (s.evDepth p) * 256 ^ p) 0) else none
  | some (.time, _) =>
    if off = 0x0B4 then some s.tsFifo.length
    else match s.tsFifo.head? with
      | some t => if off = 0x0C0 then some t.w0.toNat else if off = 0x0C4 then some t.stn.toNat
        else if off = 0x0C8 then some t.stp.toNat else none
      | none => if off = 0x0C0 ∨ off = 0x0C4 ∨ off = 0x0C8 then some 0 else none
  | some (.seq, _) =>
    if off = 0x048 then some (maskWhere (fun k => bitOf (s.reg pgSEQ 0x048).toNat k && !s.on pgSEQ (SEQ.ATTR.SHUTDOWN k)))
    else if off = 0x040 then some (s.tick % 4294967296)
    else if off = 0x044 then some (s.tick / 4294967296)
    else if 0x118 ≤ off ∧ off < 0x518 ∧ (off - 0x118) % 32 = 0 then
      some (putBits (s.reg pgSEQ off).toNat 2 0 (s.tstatState ((off - 0x118) / 32)))
    else none
  | some (.tmr, _) =>
    let t := (s.task (s.get pgTMR TMR.TT_INDEX.TASK)).frzTau
    if off = 0x068 then some (t % 4294967296) else if off = 0x06C then some (t / 4294967296 % 4294967296)
    else if off = 0x070 then some s.cellsUsed.length else none
  | some (.place, _) =>
    let k := s.get pgPLACE PLACE.TASK_INDEX.TASK
    if off = 0x058 then some (s.taskPairs 0) else if off = 0x05C then some (s.taskPairs 16)
    else if 0x060 ≤ off ∧ off ≤ 0x06C then
      let p := (off - 0x060) / 4
      some (loadPermille (s.loadWith s.measOf (s.tasksOf p)) % 65536 * 65536
        + (if s.st (pgCP p) = 5 then 0 else loadPermille (s.load (s.tasksOf p)) % 65536))
    else if 0x070 ≤ off ∧ off ≤ 0x07C then
      let p := (off - 0x070) / 4
      some (unsigned 32 (minInt ((s.tasksOf p).map (fun j => s.slackOf j (s.tasksOf p)))))
    else if off = 0x084 then some (s.budgetOf k) else if off = 0x088 then some (s.measOf k)
    else if off = 0x08C then some (s.task k).resp else if off = 0x090 then some (s.task k).tier0
    else if off = 0x094 then some (s.tier0Used 1 * 65536 + s.tier0Used 0)
    else if off = 0x098 then some (s.tier0Used 3 * 65536 + s.tier0Used 2)
    else if off = 0x09C then some ((s.reg pgPLACE 0x09C).toNat % 2 + 30)
    else if off = 0x0B0 then some ((s.task k).digest % 4294967296)
    else if off = 0x0B4 then some ((s.task k).digest / 4294967296 % 4294967296)
    else if off = 0x0B8 then some (s.task k).digestCycle
    else none
  | some (.lpe, _) =>
    let n := s.get pgLPE LPE.SLOT_INDEX.SLOT
    if off = 0x044 then some (s.lw n 0x0B0).toNat
    else if off = 0x048 then some (b2n (s.lEccOff n) * 2 + b2n (s.lpe.pend.contains n || s.lpe.taking.contains n))
    else if off = 0x04C then some ((s.lLoad / 1000).ceil.toNat)
    else if off = 0x064 then
      some ((s.lSlots.filter (fun i => s.lb i 0x0B0 18)).length * 65536 + s.lSlots.length)
    else if off = 0x080 then
      let f := s.get pgLPE LPE.FOLD_INDEX.FOLD
      let members := ((s.lSlots.filter (fun i => s.lFoldEn i && s.lFold i == f)).map (fun i => 2 ^ s.lMember i)).foldl
        (· + ·) 0
      some (putBits (putBits (s.reg pgLPE 0x080 f).toNat 7 0 members) 28 28 (b2n (s.lpePending f [0x074, 0x078, 0x07C])))
    else if off = 0x090 then
      let t := s.get pgLPE LPE.REG_INDEX.TABLE
      some (s.lSlots.filter (fun i => s.lb i 0x034 31 && s.lf i 0x034 9 0 == t)).length
    else if off = 0x094 then
      let t := s.get pgLPE LPE.REG_INDEX.TABLE
      some (b2n (s.lpePending t ((List.range 64).map (fun w => 0x500 + 4 * w))) * 2147483648)
    else if 0x400 ≤ off ∧ off < 0x500 then some (s.lw n (off - 0x400)).toNat
    else none
  | some (.ang, _) =>
    let k := s.get pgANG ANG.SLOT_INDEX.SLOT
    if off = 0x048 then
      some (putBits (s.reg pgANG 0x048 k).toNat 30 30 (b2n ((s.angSlot k).pred.any (fun p => decide (p ≤ s.e + 1000000000)))))
    else none
  | some (.asrc, i) => if off = 0x080 then some (unsigned 32 (s.angX i)) else none
  | some (.eth, i) =>
    if off = 0x044 then some ((Config.mac i).toNat % 4294967296)
    else if off = 0x048 then some ((Config.mac i).toNat / 4294967296) else none
  | some (.diog, i) =>
    if off = 0x054 ∨ off = 0x058 then
      match (s.dioRt (8 * i + s.get (pgDIOG i) DIOG.EDGE_SEL.CH)).edges with
      | [] => some 0
      | en :: _ => some (if off = 0x054 then en.ns else 2147483648 + b2n en.level * 1073741824 + b2n en.lost * 536870912
          + b2n en.untrusted * 268435456 + en.hi)
    else none
  | some (.ana, i) => if off = 0x08C then some (if s.anaType i = 4 then updUs (s.get (pgANA i) ANA.STATUS.CLK_STEP) else 0) else none
  | some (.dwy, _) =>
    let k := s.get pgDWY DWY.TASK_INDEX.TASK
    let slack (out : Bool) : Nat := ((s.stnSlack k out).map (fun v => unsigned 32 v)).getD s.freeWord.toNat
    if off = 0x050 then some s.ringPermille
    else if off = 0x058 then some ((List.range 250).filter (fun a => s.stnBound a && s.stnTask a == k)).length
    else if off = 0x05C then some (slack false) else if off = 0x060 then some (slack true)
    else if 0x080 ≤ off ∧ off < 0x0A0 then some (maskWhere (fun b =>
      let a := 8 * (off - 0x080) + b
      decide (a < 250) && s.stState a == 4))
    else if 0x0A0 ≤ off ∧ off < 0x0C0 then some (maskWhere (fun b =>
      let a := 8 * (off - 0x0A0) + b
      decide (a < 250) && s.stState a == 5))
    else none
  | some (.stn, i) => if off = 0x100 then some (s.stnGen i) else none
  | some (.dvl, _) =>
    if off = 0x054 then some (min 65535
      (((s.pair.copyLog.filter (fun e => decide (s.clk.ref < e.1 + 10000000))).foldl (fun acc e => acc + e.2) 0) / 102400))
    else none
  | some (.pair, _) =>
    if off = 0x064 then some s.rotLeft else if off = 0x070 then some s.copyAge
    else if off = 0x074 then some (if s.role = 2 then s.ageUs s.pair.snapAt else 0) else none
  | some (.flt, _) =>
    let n := s.get pgFLT FLT.SRC_INDEX.SOURCE
    if 0x040 ≤ off ∧ off < 0x080 then
      some (maskWhere (fun b => s.flt.held.any (fun k => keySrc k == 8 * (off - 0x040) + b)))
    else if off = 0x088 then
      some (b2n (s.flt.held.any (fun k => keySrc k == n)) * 2147483648
        + b2n (s.flt.conds.any (fun k => keySrc k == n)) * 1073741824 + s.get pgFLT FLT.SRC_STAT.RAISES n)
    else if 0x090 ≤ off ∧ off < 0x0D0 then
      some (maskWhere (fun b => s.flt.held.any (fun k => keySrc k == n && k / 64 == 8 * (off - 0x090) + b)))
    else if 0x0E0 ≤ off ∧ off < 0x120 then some (maskWhere (fun b => s.isFenced (8 * (off - 0x0E0) + b)))
    else none
  | some (.cal, _) => if off = 0x040 then some s.cal.now.date else none
  | some (.tly, _) =>
    let i := s.get pgTLY TLY.INDEX.COUNTER
    if off = 0x044 then some (s.tally i % 4294967296)
    else if off = 0x04C then some (s.tly.thrHeld.getD (Store.get 0 s.tly.thr i % 4294967296))
    else if off = 0x050 then some (Store.get 0 s.tly.thr i / 4294967296) else none
  | some (.recorder, _) =>
    if off = 0x04C then some ((s.recd.nextSeq + 4294967295) % 4294967296) else if off = 0x050 then some s.oldestSeq
    else if off = 0x054 then some s.recd.held else if off = 0x058 then some s.recd.queue.length else none
  | some (.rcur, i) =>
    if off = 0x064 then some (s.seqIdx (s.curSeq i))
    else if off = 0x070 then some ((s.recd.nextSeq + 4294967296 - s.curSeq i) % 4294967296) else none
  | some (.ind, _) => if off = 0x074 then some s.indTotal else none
  | _ => none

/-! ### Reading -/

/-- A field that its page's table gives, but that this instance does not have (R238, R338, R377): it reads 0. -/
def absentField (k : Kind) (i off hi : Nat) : Bool :=
  match k with
  | .asrc =>
    if i < 4 then (decide (0x064 ≤ off) && decide (off ≤ 0x074)) || off == 0x0A8
    else (off == 0x040 && hi != 2) || [0x044, 0x048, 0x04C, 0x050, 0x054, 0x060, 0x09C, 0x0A0, 0x0A4, 0x0AC].contains off
  | .ana => decide (4 ≤ i) && off == 0x06C
  | .eth => decide (1 ≤ i) && off == 0x040 && hi == 31
  | _ => false

/-- The fields of the register at `off` of one page. -/
def pageRows (k : Kind) (i off : Nat) : List RegRow := (rowsAt k off).filter (fun r => !absentField k i off r.hi)

/-- A stored register: shadows of its Staged fields (the applied values at its mirror offset), values in effect of the others,
0 of its write-only fields (R4, R68). -/
def stored (s : State) (rows : List RegRow) (page off : Nat) (mirror : Bool) : Nat :=
  let i := s.winIdx page off
  rows.foldl (fun acc r =>
    if r.acc == Access.wo then acc
    else
      let w := if r.cls == FClass.staged && !mirror then s.shadow page off i else s.reg page off i
      acc + bits w.toNat r.hi r.lo * 2 ^ r.lo) 0

/-- The block-specific part of a page whose domain is on. -/
def blockValue (s : State) (k : Kind) (inst page off : Nat) : Nat :=
  match capWord k inst off with
  | some w => w
  | none =>
    match s.computed page off with
    | some v => v % 4294967296
    | none =>
      let mirrored := pageRows k inst (off - 0x800)
      if (rowsAt k off).isEmpty then
        (if 0x840 ≤ off && mirrored.any (fun r => r.cls == FClass.staged) then s.stored mirrored page (off - 0x800) true
        else 0)
      else s.stored (pageRows k inst off) page off false

/-- The value of the register at `off` (a multiple of 4) of a page. -/
def regValue (s : State) (page off : Nat) : Nat :=
  match pageKind page with
  | none => 0
  | some (k, i) =>
    let on := s.pageOn page
    if off = 0x000 then blockType k * 65536 + i * 256 + 1
    else if off = 0x004 then nextPage page * 65536 + (if (pageCaps k i).isEmpty then 0 else Config.capBase)
    else if off = 0x008 then s.st page * 268435456 + (if on then s.statusLow page else 0)
    else if off = 0x00C then
      (if runAlwaysOne k then 1 else (s.reg (if k == .tmr then pgSEQ else page) 0x00C).toNat % 4)
    else if off = 0x010 then (if on then (s.reg page 0x010).toNat else (s.reg page 0x010).toNat % 65536)
    else if off = 0x018 then s.get page HDR.COMMIT.PENDING * 2
    else if off = 0x024 then domainOf page * 256 + s.dom (domainOf page)
    else if off < 0x028 then (s.reg page off).toNat
    else if off < 0x040 then 0
    else if on then s.blockValue k i page off else 0

end State
end Sys2Proof.Machine
end

