-- ==== Sys2Proof/Machine/RegWrite.lean ====
section
/-! DEFINITION. Writes to register pages: the classes of R7, the commit of R69 to R72 with the checks of each block, RUN and
HOLD (R67), FAULT and FAULT_EN (R66, R412), OWNER (R73, R75). -/

namespace Sys2Proof.Machine
namespace State

/-! ### Fields by class (R5 to R7) -/

/-- A write of a Locked field that does not take effect (R7, R64). -/
def cfgLocked (s : State) (page : Nat) : State := (s.setFault page 0).raise page 0x011

/-- One field of a write of `v` to the register at `off`, window index `idx`. -/
def writeField (s : State) (page off idx v : Nat) (r : RegRow) : State :=
  let n := bits v r.hi r.lo
  let f : Fld := ⟨off, r.hi, r.lo⟩
  match r.acc with
  | .rw =>
    match r.cls with
    | .live =>
      if r.min ≤ n ∧ n ≤ r.max then s.put page f n idx
      else if page = pgTIME then s.timeIgnore off v else s
    | .staged =>
      s.setShadow page off (BitVec.ofNat 32 (putBits (s.shadow page off idx).toNat r.hi r.lo n)) idx
    | .locked => if s.st page = 2 then s.put page f n idx else s
    | .none => s
  | .w1c => s.put page f ((s.get page f idx) &&& (2 ^ (r.hi - r.lo + 1) - 1 - n)) idx
  | .ro | .wo | .rc => s

/-- A field of the write is Locked and would change outside stopped. -/
def locksOut (s : State) (page off idx v : Nat) (rows : List RegRow) : Bool :=
  s.st page != 2 && rows.any (fun r => r.acc == Access.rw && r.cls == FClass.locked
    && bits v r.hi r.lo != s.get page ⟨off, r.hi, r.lo⟩ idx)

/-- What a write of a block's register does beside its fields. -/
def writeEffects (s : State) (k : Kind) (off idx v : Nat) : State :=
  match k with
  | .evd => if off = 0x044 then s.routeChanged idx else s
  | .time => if off = 0x060 then (s.farUpdate false).farUpdate true else s
  | .ang => if 0x100 ≤ off ∧ off < 0x120 then s.setAngSlot idx { s.angSlot idx with pend := true } else s
  | .tmr => if 0x044 ≤ off ∧ off ≤ 0x060 then (s.cellAux idx).cellKeep idx else s
  | .tly => if off = 0x04C then { s with tly := { s.tly with thrHeld := some v } } else s
  | .cal =>
    let c := s.cal
    if off = 0x050 ∨ off = 0x054 then { s with cal := { c with wSet := true } }
    else if off = 0x060 ∨ off = 0x064 then { s with cal := { c with wAlarm := true } }
    else if off = 0x070 then { s with cal := { c with wWake := true } } else s
  | _ => s

/-- Token buckets keep what they have when their rates change (R442, R443). -/
def settleBuckets (s : State) (k : Kind) (off idx : Nat) : State :=
  if k = .recorder ∧ off = 0x05C ∧ s.recd.gbucket.full = false then s.setGlobalBucket s.globalBucket
  else if k = .recorder ∧ off = 0x064 then
    (if (Store.get {} s.recd.buckets idx : Bucket).full then s else s.setCodeBucket idx (s.codeBucket idx))
  else s

/-- The fields of the register at `off` that a write reaches (R5, R6). -/
def writable (k : Kind) (i off : Nat) : List RegRow :=
  (pageRows k i off).filter (fun r => r.acc == Access.rw || r.acc == Access.w1c)

/-- A write of `v` to a block-specific register that no command serves, by a master that may write it. -/
def plainWrite (s : State) (page off v : Nat) : State :=
  match pageKind page with
  | none => s
  | some (k, i) =>
    let rows := writable k i off
    if rows.isEmpty then s
    else if !s.pageOn page then (if rows.any (fun r => r.cls == FClass.locked) then s.cfgLocked page else s)
    else
      let idx := s.winIdx page off
      let rows1 := if k == .evd && off == 0x044 && s.on pgEVD EVD.ROUTE_DATA.MANAGED idx then rows.filter (fun r => r.lo != 24)
        else rows
      let bad := s.locksOut page off idx v rows1
      let s0 := s.settleBuckets k off idx
      let s1 := (rows1.foldl (fun u r => u.writeField page off idx v r) s0).writeEffects k off idx v
      if bad then s1.cfgLocked page else s1

/-- The same by master `m`: a write to an unused or read-only offset is ignored (R64), one of a Live, Staged or Locked field by a
master that does not own the page is refused (R73). -/
def fieldWrite (s : State) (page off m v : Nat) : State :=
  match pageKind page with
  | none => s
  | some (k, i) =>
    let rows := writable k i off
    if !s.servedTo m || rows.isEmpty then s
    else if rows.any (fun r => r.cls != FClass.none) && s.owner page != m then s.refuseOwner page off m
    else (s.pageTouch page off).plainWrite page off v

/-! ### The commit (R69 to R72) -/

/-- GO: the shadows of the page go to its apply buffer (R69, R71). -/
def commitGo (s : State) (page : Nat) : State :=
  if !s.pageOn page then s
  else if s.on page HDR.COMMIT.PENDING then (s.setFault page 2).raise page 0x021
  else
    let keys := s.stagedKeys page s.shad
    let clean : Store Word := s.buf.filter (fun e => keyPage e.1 != page)
    let s1 : State := { s with buf := keys.foldl (fun b k =>
      Store.set (keyReset k) b k (Store.get (keyReset k) s.shad k)) clean }
    let s2 := s1.put page HDR.COMMIT.PENDING 1
    if page = pgLPE then s2.lGo
    else if page = pgANG then forEach ((List.range 256).filter (fun k => (s2.angSlot k).pend)) (fun u k =>
      u.setAngSlot k { u.angSlot k with pend := false, going := true }) s2
    else if page = pgCAL then { s2 with cal := { s2.cal with
      gSet := s2.cal.wSet, gAlarm := s2.cal.wAlarm, gWake := s2.cal.wWake, wSet := false, wAlarm := false, wWake := false } }
    else s2

/-- DISCARD: the pending commit is cancelled and every shadow reloads its applied value (R71). -/
def commitDiscard (s : State) (page : Nat) : State :=
  if !s.pageOn page then s
  else
    let s1 := s.commitDrop page
    let keys := stagedIn page s1.regs
    let clean : Store Word := s1.shad.filter (fun e => keyPage e.1 != page)
    let s2 : State := { s1 with shad := keys.foldl (fun b k =>
      Store.set (keyReset k) b k (Store.get (keyReset k) s1.regs k)) clean }
    if page = pgLPE then (s2.put pgLPE LPE.STATUS.APPLYING 0).lDiscard
    else if page = pgANG then s2.slotsGone false
    else if page = pgCAL then { s2 with cal := { s2.cal with
      gSet := false, gAlarm := false, gWake := false, wSet := s2.cal.wSet || s2.cal.gSet
      wAlarm := s2.cal.wAlarm || s2.cal.gAlarm, wWake := s2.cal.wWake || s2.cal.gWake } }
    else s2

/-- The lowest offset of a Staged field outside its range among the registers `keys` of the candidate. -/
def rangeReject (t : State) (page : Nat) (keys : List Nat) : Option Nat :=
  match pageKind page with
  | none => none
  | some (k, i) =>
    (keys.filterMap (fun key =>
      let w := (Store.get (keyReset key) t.regs key).toNat
      if (pageRows k i (keyOff key)).any (fun r => r.cls == FClass.staged
        && (decide (bits w r.hi r.lo < r.min) || decide (r.max < bits w r.hi r.lo))) then some (keyOff key) else none)).min?

/-- An entry has the TYPE and the producer that a binding needs. -/
def entryIs (s : State) (i type prodId : Nat) : Bool := s.dirType i == type && s.dirProdKind i == 1 && s.dirProdId i == prodId

/-- The lowest offset among those whose check fails (R70). -/
def firstBad (l : List (Bool × Nat)) : Option Nat := ((l.filter (fun c => c.1)).map (fun c => c.2)).min?

/-- A DIOG commit (R376): the first offset it breaks. -/
def dioReject (t : State) (g : Nat) : Option Nat :=
  let pg := pgDIOG g
  firstBad ((List.range 8).flatMap (fun c =>
    let mode := t.get pg (DIOG.CH_CFG.MODE c)
    [(mode == 4 && t.get pg (DIOG.CH_CFG.SAFE c) == 1, (DIOG.CH_CFG.SAFE c).off),
     (t.on pg (DIOG.CH_BIND.IN_VALID c) && !t.entryIs (t.get pg (DIOG.CH_BIND.IN_INDEX c)) 1 (8 * g + c),
      (DIOG.CH_BIND.IN_VALID c).off),
     (t.on pg (DIOG.CH_BIND.OUT_VALID c) && mode != 3, (DIOG.CH_BIND.OUT_VALID c).off)]))

/-- An ANA commit (R377): the first offset it breaks. -/
def anaReject (t : State) (n : Nat) : Option Nat :=
  let pg := pgANA n
  let w (f : Fld) : Word := t.reg pg f.off
  let points := t.get pg ANA.CFG.TAB_N
  let char := t.get pg ANA.CFG.CHAR
  let out := t.anaOut n
  let inLim (f : Fld) : Bool := F32.le F32.zero (w f) && F32.le (w f) 0x41B00000#32
    && (t.anaType n != 4 || F32.le 0x40666666#32 (w f))
  firstBad (
    [ANA.I_LO, ANA.I_HI, ANA.EU_LO, ANA.EU_HI, ANA.CUTOFF, ANA.BAD_LO, ANA.BAD_HI, ANA.LIM_LO, ANA.LIM_HI,
      ANA.SAFE_VAL].map (fun f => (!F32.finite (w f), f.off))
    ++ (List.range 64).map (fun j => (!F32.finite (t.anaTab n j), (ANA.TABLE j).off))
    ++ [((char != 0 && out) || (char == 2 && (List.range (points - 1)).any (fun j =>
        !F32.lt (t.anaTab n (2 * j)) (t.anaTab n (2 * j + 2)))), 0x040),
      (!F32.lt (w ANA.I_LO) (w ANA.I_HI), 0x044),
      (F32.eq (w ANA.EU_LO) (w ANA.EU_HI), 0x04C),
      (!(F32.le F32.zero (w ANA.CUTOFF) && F32.le (w ANA.CUTOFF) 0x3E4CCCCD#32), 0x054),
      (F32.lt (w ANA.LIM_LO) (w ANA.BAD_LO), 0x058),
      (F32.lt (w ANA.BAD_HI) (w ANA.LIM_HI), 0x05C),
      (out && !inLim ANA.LIM_LO, 0x060),
      (out && !inLim ANA.LIM_HI, 0x064),
      (out && !(F32.le (w ANA.LIM_LO) (t.aoRaw n (w ANA.SAFE_VAL)) && F32.le (t.aoRaw n (w ANA.SAFE_VAL)) (w ANA.LIM_HI)),
        0x068),
      ((t.on pg ANA.BIND.OUT_VALID && !(out && t.dirType (t.get pg ANA.BIND.OUT_INDEX) == 10))
        || (t.on pg ANA.BIND.IN_VALID && !t.entryIs (t.get pg ANA.BIND.IN_INDEX) 10 (64 + n)), 0x070)])

/-- A PNL commit (R462). -/
def pnlReject (t : State) : Option Nat :=
  let on (k : Nat) : Bool := t.on pgPNL (PNL.REGION.EN k)
  let first (k : Nat) : Nat := t.get pgPNL (PNL.REGION.FIRST k)
  let last (k : Nat) : Nat := t.get pgPNL (PNL.REGION.LAST k)
  (List.range 8).findSome? (fun k =>
    if on k && (decide (last k < first k) || (List.range k).any (fun j =>
      on j && decide (first j ≤ last k) && decide (first k ≤ last j))) then some (PNL.REGION.EN k).off else none)

/-- An IND commit (R474): a table decreases, or a point exceeds 1,000. -/
def indReject (t : State) : Option Nat :=
  (List.range 192).findSome? (fun j =>
    if 1000 < t.gammaPoint (j / 64) (j % 64) ∨ (j % 64 ≠ 0 ∧ t.gammaPoint (j / 64) (j % 64) < t.gammaPoint (j / 64) (j % 64 - 1))
    then some (0x100 + 0x100 * (j / 64) + 4 * (j % 64)) else none)

/-- A TIME commit (R289): both domains enabled with one number and overlapping ports. -/
def timeReject (t : State) : Option Nat :=
  let f (g : Nat → Fld) (x : Nat) : Nat := t.get pgTIME (g x)
  if t.domEn 0 && t.domEn 1 && f TIME.DOM_CFG.DOMAIN_NUM 0 == f TIME.DOM_CFG.DOMAIN_NUM 1
      && (f TIME.DOM_CFG.PORTS 0 &&& f TIME.DOM_CFG.PORTS 1) != 0 then some 0x068 else none

/-- A FLT commit (R407, R420): P0 names the source. -/
def fltReject (t : State) : Option Nat :=
  ((t.regs.filter (fun e => keyPage e.1 == pgFLT && keyOff e.1 == 0x084)).map (fun e => keyIdx e.1)).findSome? (fun n =>
    if bitOf (t.get pgFLT FLT.SRC_CFG.ALLOWED n) (t.classOf n) then none else some (0x084 + n * 65536))

/-- Tasks whose words at `keys` differ between two states. -/
def tasksChanged (s t : State) (keys : List Nat) : List Nat :=
  allTasks.filter (fun k => keys.any (fun key => decide (0x100 ≤ keyOff key) && (keyOff key - 0x100) / 32 == k
    && Store.get (keyReset key) s.regs key != Store.get (keyReset key) t.regs key))

/-- What the checks of a block's own chapter reject in the candidate `t` of `s`: the value of P0. -/
def blockReject (s t : State) (page : Nat) (keys : List Nat) : Option Nat :=
  match pageKind page with
  | some (.seq, _) => (allTasks.filter (fun k => t.taskOn k || (s.tasksChanged t keys).contains k)).findSome? (fun k => t.taskBad k)
  | some (.lpe, _) => t.lpeReject s s.lpe.taking
  | some (.lpt, _) => t.lptReject
  | some (.ang, _) => t.angReject
  | some (.asrc, i) => t.asrcStageReject i
  | some (.ax, i) => t.axStageReject i
  | some (.stn, i) => t.stnReject i
  | some (.time, _) => t.timeReject
  | some (.can, i) =>
    let b := (t.reg page CAN.BIND_STAT.off).toNat
    if bitOf b 31 && !t.entryIs (bits b 14 0) 8 (94 + i) then some CAN.BIND_STAT.off else none
  | some (.diog, i) => t.dioReject i
  | some (.ana, i) => t.anaReject i
  | some (.pnl, _) => t.pnlReject
  | some (.ind, _) => t.indReject
  | some (.flt, _) => t.fltReject
  | _ => none

/-- The commit is rejected (R70). -/
def commitReject (s : State) (page p0 : Nat) : State :=
  let s1 := ((s.commitDrop page).setFault page 3).raise page 0x022 0 [p0]
  if page = pgLPE then { s1 with lpe := { s1.lpe with
    pend := s1.lpe.taking.foldl (fun l n => insNum n l) s1.lpe.pend, taking := [], buf := [] } }
  else if page = pgANG then s1.slotsGone true else s1

/-- What applied words change beside themselves: `s` before, `t` after. -/
def commitEffects (s t : State) (page : Nat) (keys : List Nat) : State :=
  let changed (off : Nat) : Bool := keys.any (fun k => keyOff k == off
    && Store.get (keyReset k) s.regs k != Store.get (keyReset k) t.regs k)
  match pageKind page with
  | some (.seq, _) =>
    forEach (s.tasksChanged t keys) (fun u k =>
      let r := u.task k
      let now := u.tick * 250000
      let grid := s.seq.running && (s.taskK k != u.taskK k || s.taskP k != u.taskP k)
      let frozen := r.cur.any (fun c => c.at_ == now)
      let u1 := u.setTask k { r with
        gridAt := if grid then now + 1 else r.gridAt
        cur := r.cur.map (fun c => if frozen then { c with m := u.taskIdx k } else c) }
      (if frozen then u1.put pgSEQ (SEQ.CYCLE k) (cycleNo (u.taskIdx k)) else u1)
        |> onlyIf (s.taskK k != u.taskK k || s.taskP k != u.taskP k || s.taskPub k != u.taskPub k || s.taskLin k != u.taskLin k)
          (fun v => v.dwyTaskChanged k)) t
  | some (.time, _) =>
    let s1 := forEach [0, 1] (fun u x =>
      if u.domEn x && !s.domEn x then u.domTrack x else if !u.domEn x && s.domEn x then u.domUntrack x else u) t
    forEach (List.range 32) (fun u j =>
      if s.ltEn (j / 8) (j % 8) && !u.ltEn (j / 8) (j % 8) then u.txFlush (j / 8) (j % 8) 5 1024 else u) s1
  | some (.can, _) =>
    let s1 := t.incMod page CAN.FILT_GEN.GEN
    s1.raise page 0x1A4 0 [s1.get page CAN.FILT_GEN.GEN]
  | some (.stn, i) => t.stnApplied s i
  | some (.ang, _) =>
    let words := s.slotsDiffer t
    let slots := (List.range 256).filter (fun k => words.contains k || (s.angSlot k).going)
    let sync := keys.any (fun key => decide (0x200 ≤ keyOff key)
      && Store.get (keyReset key) s.regs key != Store.get (keyReset key) t.regs key) || words.contains s.syncSlot
    let s1 := if sync && decide (1 ≤ s.syncState) && decide (s.syncState ≤ 3) then t.syncAbort 6 else t
    let s2 := if s1.on pgANG ANG.SYNC_CFG.EN then s1 else s1.setSyncState 0
    forEach slots (fun u k => (u.setAngSlot k { u.angSlot k with going := false }).slotApplied k) s2
  | some (.ax, i) => if changed 0x088 || changed 0x08C then t.axRatioApplied i else t
  | some (.lpt, _) =>
    forEach ((List.range 16).filter (fun c => [0, 4, 8, 12].any (fun o => changed (0x100 + 64 * c + o))))
      (fun u c => u.traceIdle c) t
  | some (.flt, _) =>
    forEach ((keys.filter (fun k => keyOff k == 0x084)).map keyIdx) (fun u n =>
      if s.classOf n = u.classOf n then u else u.raise pgFLT 0x02C 0 [n, s.classOf n, u.classOf n]) t
  | some (.diog, i) => (t.dioInverted i).dioRefreshGroup i
  | some (.pnl, _) =>
    let u : State := { t with pnl := { t.pnl with updates := t.pnl.updates.filter (fun j => !changed (PNL.REGION.EN j.region).off) } }
    u.pnlStatus
  | _ => t

/-- The boundary of a commit of LPE (R169): checked; stopped or fenced every slot takes it at once, running each slot takes it
at its next sample, and each fold with its members. -/
def lpeApply (s : State) (keys : List Nat) : State :=
  let t := s.withBuffer pgLPE keys
  match s.blockReject t.lCandidate pgLPE keys with
  | some p0 => s.commitReject pgLPE p0
  | none =>
    let new := keys.filter (fun k => Store.get (keyReset k) t.regs k != Store.get (keyReset k) s.regs k)
    let tabs := ((new.filter (fun k => decide (0x500 ≤ keyOff k))).map keyIdx).dedup
    let folds := ((new.filter (fun k => decide (keyOff k < 0x500))).map keyIdx).dedup
    let waits (f : Nat) : Bool := s.foldOn f && !(s.foldMembers f).isEmpty
    let s1 := s.withBuffer pgLPE ((folds.filter (fun f => !waits f)).flatMap foldKeys)
    let s2 := ({ s1 with lpe := { s1.lpe with
        tabWait := s.lSlots.filter (fun n => s.lb n 0x034 31 && tabs.contains (s.lf n 0x034 9 0))
        foldWait := folds.filter waits, checked := s.e } } : State).put pgLPE LPE.STATUS.APPLYING 1
    (if s2.st pgLPE = 2 ∨ s2.st pgLPE = 5 then s2.lTakeAll else s2).lTaken

/-- The boundary of a commit of SEQ for one task, or for all where no task is named (R72, R127). -/
def seqApply (s : State) (unit : Option Nat) : State :=
  let keys := s.stagedKeys pgSEQ s.buf
  let full := s.withBuffer pgSEQ keys
  match s.blockReject full pgSEQ keys with
  | some p => s.commitReject pgSEQ p
  | none =>
    let mine := keys.filter (fun key => match unit with
      | some k => decide (0x100 ≤ keyOff key) && (keyOff key - 0x100) / 32 == k
      | none => true)
    let t := s.withBuffer pgSEQ mine
    let t1 := s.commitEffects t pgSEQ mine
    if (t1.tasksChanged full keys).isEmpty then t1.commitDone pgSEQ else t1

/-- The boundary of a pending commit (R69, R70). -/
def commitApply (s : State) (page : Nat) (unit : Option Nat) : State :=
  if !s.pageOn page || !s.on page HDR.COMMIT.PENDING then s
  else if page = pgSEQ then s.seqApply unit
  else
    let keys := s.stagedKeys page s.buf
    if page = pgLPE then
      if s.on pgLPE LPE.STATUS.APPLYING then (if s.st pgLPE = 2 ∨ s.st pgLPE = 5 then s.lTakeAll else s) else s.lpeApply keys
    else
      let t := s.withBuffer page keys
      match rangeReject t page keys, s.blockReject t page keys with
      | some p, some q => s.commitReject page (min p q)
      | some p, none | none, some p => s.commitReject page p
      | none, none => s.commitEffects (t.commitDone page) page keys

/-! ### Header registers -/

/-- CTRL written whole: HOLD, then RUN (R67). -/
def ctrlWrite (s : State) (page m v : Nat) : State :=
  let s1 := s.holdWrite page m (bitOf v 1)
  if bitOf v 0 then s1.runOn page m else s1.runOff page m

/-- Bits of FAULT cleared by a write (R412). -/
def faultClear (s : State) (page mask : Nat) : State :=
  let top := if s.pageOn page then 32 else 16
  forEach ((List.range top).filter (fun b => bitOf mask b && (match pageKind page with
    | some (k, _) => faultBitNamed k b
    | none => false))) (fun u b => u.clearBit (faultKey page b)) s

/-- FAULT_EN written (R66, R416). -/
def faultEnWrite (s : State) (page v : Nat) : State :=
  let old := (s.reg page 0x014).toNat
  let s1 := s.setReg page 0x014 (BitVec.ofNat 32 v)
  forEach (List.range 32) (fun u b =>
    if bitOf v b && !bitOf old b then (if bitOf (u.reg page 0x010).toNat b then u.edge (faultKey page b) else u)
    else if bitOf old b && !bitOf v b then (if u.faultBitSet (faultKey page b) then u.fltDrop (faultKey page b) else u)
    else u) s1

/-- The rank of a master (R75). -/
def rank (m : Nat) : Nat := if m = 2 then 3 else if m = 1 then 2 else if m = 3 then 1 else 0

/-- A change of OWNER records 0x029 (R75). -/
def setOwner (s : State) (page v : Nat) : State :=
  let old := s.owner page
  if old = v then s else (s.put page HDR.OWNER v).raise page 0x029 0 [old, v]

/-- OWNER written by master `m` (R75). -/
def ownerWrite (s : State) (m page v : Nat) : State :=
  let old := s.owner page
  if (old = m ∨ rank old < rank m) ∧ (m ≠ 2 ∨ s.inRun = false) then s.setOwner page v else s.refuseOwner page 0x020 m

end State

/-! ### The commands. `m` is the master of the access (R74), `page` a page index. -/

/-- COMMIT_GO (R69, R71): COMMIT.GO = 1. -/
def execCommitGo (m : Fin 4) (page : BitVec 9) (s : State) : Out :=
  .next (if populated page.toNat then s.action page.toNat 0x018 m.val (fun s => s.commitGo page.toNat) else s)

/-- DISCARD (R71): COMMIT.DISCARD = 1. -/
def execDiscard (m : Fin 4) (page : BitVec 9) (s : State) : Out :=
  .next (if populated page.toNat then s.action page.toNat 0x018 m.val (fun s => s.commitDiscard page.toNat) else s)

/-- COMMIT_APPLY (R69 to R72): a boundary of the block of `page`; on SEQ the boundary of task `unit`, where one is named. -/
def execCommitApply (page : BitVec 9) (unit : Option (Fin 32)) (s : State) : Out :=
  if page.toNat = pgCAL then .next s.calApply
  else .next (if populated page.toNat && s.pd1 then s.commitApply page.toNat (unit.map (fun k => k.val)) else s)

/-- OWNER_WRITE (R75): master `m` writes `v` to OWNER. -/
def execOwnerWrite (m : Fin 4) (page : BitVec 9) (v : Fin 4) (s : State) : Out :=
  .next (if populated page.toNat && s.servedTo m.val then (s.pageTouch page.toNat 0x020).ownerWrite m.val page.toNat v.val else s)

/-- FAULT_EN_WRITE (R66): master `m` writes `v` to FAULT_EN. -/
def execFaultEnWrite (m : Fin 4) (page : BitVec 9) (v : BitVec 32) (s : State) : Out :=
  .next (if populated page.toNat then s.action page.toNat 0x014 m.val (fun s => s.faultEnWrite page.toNat v.toNat) else s)

/-- FAULT_CLEAR (R412): master `m`, the owner or local firmware, writes ones to FAULT. -/
def execFaultClear (m : Fin 4) (page : BitVec 9) (mask : BitVec 32) (s : State) : Out :=
  .next (if !populated page.toNat || !s.servedTo m.val then s
    else if s.owner page.toNat != m.val && m.val != 0 then s.refuseOwner page.toNat 0x010 m.val
    else (s.pageTouch page.toNat 0x010).faultClear page.toNat mask.toNat)

/-- RUN (R67): CTRL.RUN = 1. -/
def execRun (m : Fin 4) (page : BitVec 9) (s : State) : Out :=
  .next (if populated page.toNat then s.action page.toNat 0x00C m.val (fun s => s.runOn page.toNat m.val) else s)

/-- RUN_CLEAR (R67): CTRL.RUN = 0. -/
def execRunClear (m : Fin 4) (page : BitVec 9) (s : State) : Out :=
  .next (if populated page.toNat then s.action page.toNat 0x00C m.val (fun s => s.runOff page.toNat m.val) else s)

/-- HOLD (R67): CTRL.HOLD = 1. -/
def execHold (m : Fin 4) (page : BitVec 9) (s : State) : Out :=
  .next (if populated page.toNat then s.action page.toNat 0x00C m.val (fun s => s.holdWrite page.toNat m.val true) else s)

/-- HOLD_CLEAR (R67): CTRL.HOLD = 0. -/
def execHoldClear (m : Fin 4) (page : BitVec 9) (s : State) : Out :=
  .next (if populated page.toNat then s.action page.toNat 0x00C m.val (fun s => s.holdWrite page.toNat m.val false) else s)

end Sys2Proof.Machine
end

