-- ==== Sys2Proof/Machine/Cores.lean ====
section
/-! DEFINITION. Core pairs as the platform sees them: lock-step (R58, R59), RUN (R496), the taking of events (R81, R82). -/

namespace Sys2Proof.Machine
namespace State

/-- The pair issues accesses: its domain is on and it is not fenced (R58). -/
def pairLives (s : State) (p : Nat) : Bool := s.pageOn (pgCP p) && !s.isFenced (pgCP p)

/-- A lock-step failure of pair `p`: LOCKSTEP, LS_INFO and code 0x025 with `point`; the pair is fenced whatever the class of
the source. -/
def lockstepFail (s : State) (p point : Nat) : State :=
  let pg := pgCP p
  (((s.put pg CP.LS_INFO.POINT point).setFault pg 16).raise pg 0x025 p [point]).fenceUnit (faultKey pg 16) pg

/-- The task that handles a managed source has no host, being shed or unplaced: nobody takes the source's events (R148). -/
def sourceIdle (s : State) (src : Nat) : Bool :=
  s.on pgEVD EVD.ROUTE_DATA.MANAGED src && allTasks.any (fun k => (s.handledBy k).contains src && (s.task k).host.isNone)

/-- The event that pair `p` takes next: the highest PRIO, in arrival order within it (R81). -/
def nextEvent (s : State) (p : Nat) : Option EvEntry :=
  (s.evd.queue.filter (fun q => q.pair == p && !s.sourceIdle q.src)).foldl (fun acc q =>
    match acc with
    | some b => if b.prio < q.prio then some q else acc
    | none => some q) none

/-- A list without the first element equal to `x`. -/
def dropFirst (x : EvEntry) : List EvEntry → List EvEntry
  | [] => []
  | y :: r => if y = x then r else y :: dropFirst x r

/-- The word of EVENT_TAKE for an event (R85). -/
def eventWord (q : EvEntry) : Nat :=
  2147483648 + b2n q.moved * 1073741824 + q.prio % 4 * 268435456 + q.src % 1024 * 65536 + q.vec % 4096

/-- Pair `p` reads its own EVENT_TAKE. -/
def eventTake (s : State) (p : Nat) : State :=
  match s.nextEvent p with
  | none => s.answer 0
  | some q =>
    let s1 : State := { s with evd := { s.evd with queue := dropFirst q s.evd.queue } }
    ((s1.put (pgCP p) CP.EVENT_STAMP q.stamp).routeRelease q.src).answer (eventWord q)

end State

/-! ### The commands -/

/-- LOCKSTEP_MISMATCH (R58): the cores of pair `p` disagree at a compare point: 0 to 3 for points 1 to 4. -/
def execLockstepMismatch (p : Fin 4) (point : Fin 4) (s : State) : Out :=
  .next (if s.pairLives p.val then
      (s.incMod (pgCP p.val) CP.LS_COUNT).lockstepFail p.val (point.val + 1)
    else s)

/-- LOCKSTEP_SELFTEST (R59, R413, R496): the self-test of pair `p` ends; bit i of `failed`: the pair did not detect the mismatch
injected at compare point i + 1. It ends a READMIT of the pair, or follows the start of its domain. -/
def execLockstepSelftest (p : Fin 4) (failed : BitVec 4) (s : State) : Out :=
  let pg := pgCP p.val
  let readmit := s.on pgFLT FLT.CMD_STATUS.BUSY && s.get pgFLT FLT.READMIT.ID == pg
  .next (if !s.pageOn pg then s
    else match (List.range 4).find? (fun i => bitOf failed.toNat i) with
      | some i =>
        let s1 := s.lockstepFail p.val (0x11 + i)
        if readmit then s1.readmitEnd 0 pg 4 else s1
      | none =>
        if readmit then (s.readmitUnit pg).readmitEnd 0 pg 0 else s.runOn pg 0)

/-- CORE_PAIR_RUN_ON (R496): master `m` writes RUN = 1 to the page of pair `p`. -/
def execCorePairRunOn (m p : Fin 4) (s : State) : Out :=
  .next (s.action (pgCP p.val) 0x00C m.val (fun s => s.runOn (pgCP p.val) m.val))

/-- CORE_PAIR_RUN_OFF (R496): master `m` writes RUN = 0. -/
def execCorePairRunOff (m p : Fin 4) (s : State) : Out :=
  .next (s.action (pgCP p.val) 0x00C m.val (fun s => s.runOff (pgCP p.val) m.val))

/-- EVENT_TAKE (R81): pair `p` reads its own EVENT_TAKE; a read by any other master takes nothing and is a REGISTER_READ of
0. -/
def execEventTake (p : Fin 4) (s : State) : Out :=
  .next (if s.served && s.pairLives p.val then s.eventTake p.val else s)

end Sys2Proof.Machine
end

