-- ==== Sys2Proof/Machine/Dom.lean ====
section
/-! DEFINITION. The power domains PD2 to PD11 (R32 to R36, R497): what a block holds after its domain starts (R4, R67, R69,
R404), a start that fails, a domain lost while on, DOM_OFF. -/

namespace Sys2Proof.Machine

/-- The start order of R33 and the reverse order of SHUTDOWN (R46). -/
def startOrder : List Nat := [0, 1, 2, 7, 3, 4, 5, 6, 8, 9, 10, 11]
def shutOrder : List Nat := [11, 10, 9, 8, 6, 5, 4, 3, 7, 2]

/-- Pages of domain `d`. -/
def pagesOf (d : Nat) : List Nat := allPages.filter (fun p => domainOf p == d)

/-- A register of PD2 to PD11 that survives a restart of its domain: `CPx.LS_COUNT` (R85). -/
def survives (k : Nat) : Bool := keyOff k == 0x048 && decide (0x008 ≤ keyPage k) && decide (keyPage k ≤ 0x00B)

/-- Memories of a domain as (first address, bytes) (R32, R54). -/
def domMemory (d : Nat) : List (Nat × Nat) :=
  if d = 2 then [(dramBase, 0x80000000), (tier1Base, 0x800000)]
  else if 3 ≤ d ∧ d ≤ 6 then [(tier0Base (d - 3), 0x100000)]
  else if d = 7 then [(dirBase, 0x80000), (traceBase, 0x100000)]
  else []

namespace State

/-! ### What a domain holds -/

/-- Memory of domain `d` as nothing had written it. -/
def memLost (s : State) (d : Nat) : State :=
  let rs := domMemory d
  { s with
    mem := rs.foldl (fun m r => Memory.erase m r.1 r.2) s.mem
    ecc := s.ecc.filter (fun w => !rs.any (fun r => decide (r.1 ≤ 8 * w) && decide (8 * w < r.1 + r.2))) }

/-- Blocks of domain `d` behind their registers, as after its start. -/
def runtimeLost (s : State) (d : Nat) : State :=
  match d with
  | 7 =>
    let kept := allTasks.foldl (fun m k =>
      Store.set {} m k { lastTau := (s.task k).lastTau }) ([] : Store TaskRt)
    { s with lpe := {}, forceQ := [], forceReq := [], frozeAt := [], ang := [], sync := {}
             seq := { tasks := kept, touched := s.seq.touched, writer := s.seq.writer, images := s.seq.images
                      kept := s.seq.kept } }
  | 8 => { s with eth := [], dwy := { gen := s.dwy.gen } }
  | 9 => { s with can := [], pair := { s.pair with seen := [], lines := [], frames := [], parts := [] } }
  | 10 => { s with dio := [], ax := [], asrc := Store.keep (fun k => decide (4 ≤ k)) s.asrc }
  | 11 => { s with ana := [], asrc := Store.keep (fun k => decide (k < 4)) s.asrc }
  | _ => s

/-- Block-specific registers, shadows, buffers and pending commits of domain `d` at their reset values (R4, R69); headers stay,
and FAULT takes its block-specific bits from FLT's copy (R404). -/
def regsLost (s : State) (d : Nat) : State :=
  let block (k : Nat) : Bool := populated (keyPage k) && domainOf (keyPage k) == d
    && (decide (0x040 ≤ keyOff k) || keyOff k == 0x008) && !survives k
  let mine (key : Nat) : Bool := populated (key / 64) && domainOf (key / 64) == d
  let s1 : State := { s with
    regs := Store.keep (fun k => !block k) s.regs
    shad := Store.keep (fun k => !block k) s.shad
    buf := Store.keep (fun k => !block k) s.buf
    flt := { s.flt with
      conds := s.flt.conds.filter (fun k => !mine k)
      ownDegraded := s.flt.ownDegraded.filter (fun p => !(populated p && domainOf p == d)) } }
  let active := (s1.flt.held ++ s1.flt.edges).filter (fun k => mine k && decide (16 ≤ k % 64) && decide (k % 64 < 32))
  forEach (pagesOf d) (fun u p =>
    let w := (active.filter (fun k => k / 64 == p)).foldl (fun acc k => acc + 2 ^ (k % 64)) ((u.reg p 0x010).toNat % 65536)
    (u.setReg p 0x010 (BitVec.ofNat 32 w)).put p HDR.COMMIT.PENDING 0) s1

/-- RUN and HOLD are cleared as the domain reports power good; station pages, PLACE and TMR excepted (R67). -/
def runCleared (s : State) (d : Nat) : State :=
  forEach ((pagesOf d).filter (fun p => p != pgPLACE && p != pgTMR && decide (p < 0x100))) (fun u p =>
    (u.put p HDR.CTRL.RUN 0).put p HDR.CTRL.HOLD 0) s

/-- Domain `d` is not on any more (`v`: 0 off, 3 failed). Its angle sources change to Off first (R213, R219). -/
def domDown (s : State) (d v : Nat) : State :=
  let s0 := forEach (if d = 10 then [0, 1, 2, 3] else if d = 11 then [4, 5] else []) (fun u n => u.setSrcState n 0) s
  let s1 := (((s0.setDom d v).memLost d).runtimeLost d).regsLost d
  if d = 9 then s1.pairFollow.readyRefresh else s1

/-- Domain `d` reports power good: its blocks hold their reset values and become stopped, a fenced unit stays fenced; DVL runs
in a pair slot (R402). -/
def domUp (s : State) (d : Nat) : State :=
  let s1 := (((s.setDom d 2).memLost d).runtimeLost d).regsLost d
  let s2 := (s1.runCleared d)
  let s3 := forEach (pagesOf d) (fun u p => u.refreshState p) s2
  if d = 8 then s3.dwyStart else if d = 9 ∧ s3.pairSlot = true then s3.runOn pgDVL 0 else s3

/-- A unit is fenced because its domain is not there; clears of a source do not matter to it (R35, R497). -/
def fenceByDomain (s : State) (u : Nat) : State :=
  if s.isFenced u then s
  else ((({ s with flt := { s.flt with fenced := insNum u s.flt.fenced } } : State).refreshState u).fenceEffect u).xchgDisturb

def fenceDomain (s : State) (d : Nat) : State :=
  forEach ((pagesOf d).filter fenceable) (fun u p => u.fenceByDomain p) s

/-! ### Starts (R33 to R35) -/

/-- Entry into the start-failed state (R35, R41). -/
def startFail (s : State) : State :=
  if s.boot.startFailed then s
  else (s.setBoot { s.boot with startFailed := true }).restTrigger 7 "START" true false

/-- `PWR.INRUSH` and the INRUSH fault bit (R34, R52): `ma` is the transient of the start of domain `d`. -/
def inrush (s : State) (d ma : Nat) : State :=
  let s1 := if s.get pgPWR PWR.INRUSH.PEAK_MA < ma then
      (s.put pgPWR PWR.INRUSH.PEAK_MA ma).put pgPWR PWR.INRUSH.PEAK_DOM d else s
  if 1500 < ma ∧ ma ≤ 1650 then s1.setFault pgPWR 21 else s1

/-- Domain `d` fails its start: 1 no power good, 2 inrush (R35). -/
def domFail (s : State) (d reason : Nat) : State :=
  let s1 := s.domDown d 3
  let f := s1.get pgPWR PWR.DOM_FAULT.DOM
  ((s1.put pgPWR PWR.DOM_FAULT.DOM (f ||| 2 ^ d)).setFault pgPWR 16).raise pgPWR 0x00B 0 [d, reason]

/-- What a failed start of domain `d` leads to (R35): start-failed for PD2 and PD7, else its units are fenced. -/
def domOutcome (s : State) (d : Nat) : State := if d = 2 ∨ d = 7 then s.startFail else s.fenceDomain d

/-- Domain `d` fails its start for `reason`. In the start sequence it waits for its one retry; a domain that DOM_OFF starts again
later has none, and its outcome follows at once (DESIGN CHOICE, assumption 221). -/
def startLost (s : State) (d reason : Nat) : State :=
  let s1 := s.domFail d reason
  if s.on pgPWR PWR.SEQ.DONE then s1.domOutcome d else s1.setBoot { s1.boot with retry := s1.boot.retry ++ [d] }

/-- Domain `d` is enabled with the transient `ma` (R33, R34): more than 10 % above the bound fails the start; with power good it is
on; without, it starts until DOMAIN_START_FAULT or the next step (assumption 221). -/
def domStart (s : State) (d ma : Nat) (good : Bool) : State :=
  let s1 := s.inrush d ma
  if 1650 < ma then s1.startLost d 2 else if good then s1.domUp d else s1.setDom d 1

/-- Domains that still start when the next step comes have reported no power good within 1 ms (R35). -/
def domTimeout (s : State) : State :=
  forEach ((List.range 12).filter (fun d => s.dom d == 1)) (fun u d => u.startLost d 1) s

/-- A bit of `PWR.DOM_OFF`. -/
def domOffBit (s : State) (d : Nat) : Bool := bitOf (s.reg pgPWR 0x04C).toNat d

/-- The domains that DOM_OFF can name (R36). -/
def switchable (d : Nat) : Bool := [3, 4, 5, 6, 9, 10, 11].contains d

def setDomOff (s : State) (d : Nat) (v : Bool) : State :=
  s.setReg pgPWR 0x04C (BitVec.ofNat 32 (putBits (s.reg pgPWR 0x04C).toNat d d (b2n v)))

/-- DOM_OFF bit `d` written 1 (R36). -/
def domOff (s : State) (d : Nat) : State :=
  if s.domOffBit d then s
  else if (pagesOf d).all (fun p => s.st p == 0 || s.st p == 2 || s.st p == 5) then (s.setDomOff d true).domDown d 0
  else (s.setFault pgPWR 20).raise pgPWR 0x017 0 [d]

/-- DOM_OFF bit `d` written 0: the domain starts again under the start rules. Before its place in the start order has come, the
start order starts it. -/
def domOn (s : State) (d ma : Nat) (good : Bool) : State :=
  if !s.domOffBit d then s
  else
    let s1 := s.setDomOff d false
    if s1.inSequence || decide (s1.get pgPWR PWR.SEQ.STEP < startOrder.findIdx (fun x => x == d)) then s1
    else s1.domStart d ma good

/-- DOM_OFF written whole. DESIGN CHOICE (assumption 221): the domains that it starts report power good with no transient; DOM_ON
gives either. -/
def domOffWrite (s : State) (v : Nat) : State :=
  forEach ((List.range 12).filter switchable) (fun u d =>
    if bitOf v d = u.domOffBit d then u else if bitOf v d then u.domOff d else u.domOn d 0 true) s

/-- A domain loses power good while it is on (R497). -/
def powerLost (s : State) (d : Nat) : State :=
  let s0 := s.fenceDomain d
  let s1 := s0.domDown d 3
  let f := s1.get pgPWR PWR.DOM_FAULT.DOM
  let b := if d = 2 ∨ d = 7 then 19 else if d ≤ 6 then 17 else 18
  (((s1.put pgPWR PWR.DOM_FAULT.DOM (f ||| 2 ^ d)).setFault pgPWR b).raise pgPWR 0x00B 0 [d, 3])

end State

/-! ### The commands -/

/-- DOMAIN_START (R33): the next domain of the start order is enabled, with a transient of `ma` above the current before; `good`
says that it reports power good. A domain that DOM_OFF names stays off. -/
def execDomainStart (run : StartRun) (s : State) : Out :=
  let step := s.get pgPWR PWR.SEQ.STEP + 1
  .next (if s.boot.phase != .firmware || decide (11 < step) || s.on pgPWR PWR.SEQ.DONE then s
    else
      let d := startOrder.getD step 2
      let s1 := s.domTimeout.put pgPWR PWR.SEQ.STEP step
      if s1.domOffBit d then s1 else s1.domStart d run.ma.toNat run.good)

/-- DOMAIN_START_FAULT (R35): domain `d`, which starts, reports no power good within 1 ms (`inrush` false), or exceeds the inrush
bound by more than 10 %. -/
def execDomainStartFault (f : StartFault) (s : State) : Out :=
  .next (if s.boot.phase != .firmware || s.dom f.d.val != 1 then s else s.startLost f.d.val (if f.inrush then 2 else 1))

/-- The one retry of domain `d` (R35): `t` gives its transient and whether it reports power good; a domain that `t` does not name
comes up with no transient. -/
def State.domRetry (s : State) (d : Nat) (t : Option (Fin 12 × StartRun)) : State :=
  if s.dom d != 3 then s
  else
    let ma := (t.map (fun x => x.2.ma.toNat)).getD 0
    let s1 := s.inrush d ma
    if 1650 < ma then s1.domFail d 2
    else if (t.map (fun x => x.2.good)).getD true then s1.domUp d
    else s1.domFail d 1

/-- DOMAIN_RETRY (R35): after the last step each failed domain is tried once more, as `tries` says: its transient, and whether it
reports power good. The outcomes of R35 follow. -/
def execDomainRetry (tries : List (Fin 12 × StartRun)) (s : State) : Out :=
  .next (if s.boot.phase != .firmware || s.get pgPWR PWR.SEQ.STEP != 11 || s.on pgPWR PWR.SEQ.DONE then s
    else
      let s0 := s.domTimeout
      let s1 := forEach s0.boot.retry (fun u d => u.domRetry d (tries.find? (fun t => t.1.val == d))) s0
      let s2 := forEach ((List.range 12).filter (fun d => s1.dom d == 3)) (fun u d => u.domOutcome d) s1
      (s2.setBoot { s2.boot with retry := [] }).put pgPWR PWR.SEQ.DONE 1)

/-- POWER_GOOD_LOST (R497): domain `d` among PD2 to PD11 loses power good while it is on. After hold-up qualification the
sequence governs (R416). -/
def execPowerGoodLost (d : Fin 12) (s : State) : Out :=
  .next (if !s.pd1 || s.inSequence || decide (d.val < 2) || s.dom d.val != 2 then s else s.powerLost d.val)

/-- DOM_OFF (R36): master `m` writes 1 to the bit of domain `d`. -/
def execDomOff (m : Fin 4) (d : Fin 12) (s : State) : Out :=
  .next (s.action pgPWR 0x04C m.val (fun s => if State.switchable d.val then s.domOff d.val else s))

/-- DOM_ON (R36): master `m` writes 0 to the bit of domain `d`, whose start has a transient of `ma` and reports power good
where `good` says so. -/
def execDomOn (m : Fin 4) (d : Fin 12) (run : StartRun) (s : State) : Out :=
  .next (s.action pgPWR 0x04C m.val (fun s => if State.switchable d.val then s.domOn d.val run.ma.toNat run.good else s))

/-- ISLAND_READY (R34, R44): island `n` is ready; its start had a transient of `ma`. An active input's transmitter supply is on
from here (`anaTxOn`). -/
def execIslandReady (n : Fin 16) (ma : BitVec 16) (s : State) : Out :=
  .next (if s.dom 11 != 2 then s else (s.inrush 11 ma.toNat).put (pgANA n.val) ANA.STATUS.READY 1)

/-- The transmitter supply of island `n` is on (R44, R367, R371). -/
def State.anaTxOn (s : State) (n : Nat) : Bool :=
  s.anaType n == 1 && !s.inSequence && s.on (pgANA n) ANA.STATUS.READY && !s.on (pgANA n) ANA.STATUS.THERMAL
    && !s.on (pgANA n) ANA.STATUS.MISWIRE && s.pageOn (pgANA n)

/-- POWER_STAGE_COOLED (R361, R262, R371): the stage of a DIO channel (0), an axis (1) or an analogue channel (2) has cooled below
its restart temperature. -/
def execPowerStageCooled (kind : Fin 3) (n : Fin 64) (s : State) : Out :=
  .next (match kind.val with
    | 0 => s.dioCooled n.val
    | 1 => if n.val < 8 then s.axCooled n.val else s
    | _ => if n.val < 16 then s.anaCooled n.val else s)

end Sys2Proof.Machine
end

