-- ==== Sys2Proof/Machine/Boot.lean ====
section
/-! DEFINITION. SUP from supply valid to Stop, the supplies, the hold-up and shutdown sequences, the measurements and clocks
(R21 to R31, R38 to R48, R53). -/

namespace Sys2Proof.Machine
namespace State

/-- HOLDUP_SNS conducts (R19). -/
def holdupSns (s : State) : Bool :=
  s.pd1 && s.on pgSUP SUP.SUPPLY.HOLDUP_OK && !s.inSequence && s.boot.phase != .parked

/-! ### PD0 and PD1 -/

/-- PD0 starts: CAL holds its reset values and OSF is set (R65, R430). -/
def pd0Start (s : State) : State :=
  let cal (k : Nat) : Bool := keyPage k == pgCAL
  let s1 : State := { s with
    regs := Store.keep (fun k => !cal k) s.regs, shad := Store.keep (fun k => !cal k) s.shad
    buf := Store.keep (fun k => !cal k) s.buf, cal := {}
    flt := { s.flt with conds := s.flt.conds.filter (fun k => k / 64 != pgCAL) } }
  (s1.setBoot { s1.boot with pd0 := true }).setOsf

/-- PD1 is switched off: no domain but PD0 is on; `phase` follows, and the next start has the cause `cause`. -/
def pd1Off (s : State) (phase : Phase) (cause : Nat) : State :=
  let s1 := s.pnlOff
  let step := if s.boot.seqDone = 6 ∧ s.pnl.job.isSome = true then 5 else s.boot.seqDone
  let s2 := s1.setBoot { s1.boot with
    phase := phase, nextCause := cause, seqKind := .none, markerStep := step, startFailed := false
    reachedStop := false, identify := false, idWait := false, busyCmd := 0, flashOp := 0 }
  s2.put pgPWR PWR.DOM_STATE.STATE 2

/-- The key lies in the four registers from `off` on. -/
def keyIn (k off : Nat) : Bool := decide (off ≤ keyOff k) && decide (keyOff k < off + 16)

/-- A register outside CAL that survives a restart of PD1: the key bits, the slot in use, the panel's texts and cause (R51,
R473). -/
def keptReg (k : Nat) : Bool :=
  keyPage k == pgCAL || k == regKey pgSUP SUP.KEYS.IMG_ENROLLED.off 0 || k == regKey pgSUP 0x074 0
    || (keyPage k == pgPNL && (keyIn k (PNL.REST_NAME 0).off || keyIn k (PNL.REST_TEXT 0).off
      || keyOff k == PNL.REST_CAUSE.CAUSE.off))

/-- MRAM is what memory keeps without PD1. -/
def mramOnly (m : Memory) : Memory :=
  Store.keep (fun a => decide (mramRec ≤ a) && decide (a < mramCfg + 0x400000)) m

/-- The tallies as their MRAM records give them (R435); those of `bad` have no valid record. A counter at or above its threshold
reached it in an earlier start: its WARN bit stands, and nothing is reported again (R436). -/
def tallyStart (s : State) (bad : List Nat) : State :=
  let val := (List.range 256).foldl (fun m i =>
    Store.set 0 m i (if bad.contains i then 0 else s.tlyRec i (s.tlyNewer i) / 4294967296)) ([] : Store Nat)
  let recs := bad.foldl (fun m i => Store.set 0 (Store.set 0 m (2 * i) 0) (2 * i + 1) 0) s.tly.recs
  let s1 : State := { s with tly := { s.tly with val := val, recs := recs } }
  let s2 := forEach bad (fun u i => (u.setFault pgTLY 17).raise pgTLY 0x243 0 [i]) s1
  forEach ((List.range 256).filter (fun i => Store.get 0 s2.tly.thr i != 0 && decide (Store.get 0 s2.tly.thr i ≤ s2.tally i)))
    (fun u i => u.put pgTLY (TLY.WARN (i / 32)) (u.get pgTLY (TLY.WARN (i / 32)) + 2 ^ (i % 32))) s2

/-- A valid slot code (R21, R22). -/
def slotValid (raw : Nat) : Bool :=
  ((List.range 6).filter (fun b => bitOf raw b)).length % 2 == 1 && raw % 4 != 3

/-- SUP reads the slot pins until a valid code is latched (R22); the pair state follows it (R378). -/
def slotRead (s : State) (raw : Nat) : State :=
  let s0 : State := { s with pins := { s.pins with slotId := BitVec.ofNat 6 raw } }
  if s0.on pgSUP SUP.SLOT_ID.VALID || !slotValid raw then s0
  else
    let s1 := ((((s0.put pgSUP SUP.SLOT_ID.RAW raw).put pgSUP SUP.SLOT_ID.LIVE_RAW raw).put pgSUP SUP.SLOT_ID.POSITION
      (raw % 4)).put pgSUP SUP.SLOT_ID.CARRIER (bits raw 4 2)).put pgSUP SUP.SLOT_ID.VALID 1
    let s2 := s1.pairFollow
    if s2.pairSlot && s2.pageOn pgDVL then s2.runOn pgDVL 0 else s2

/-- The fault bits of CAL, which PD0 keeps, rise again for FLT, whose sources are all inactive at PD1 start (R404). -/
def calEdges (s : State) : State :=
  let w := (s.reg pgCAL 0x010).toNat
  let en := (s.reg pgCAL 0x014).toNat
  forEach ((List.range 32).filter (fun b => bitOf w b && bitOf en b)) (fun u b => u.edge (faultKey pgCAL b)) s

/-- What PD1 records about PD0 once REC is ready (R428, R430, R431). -/
def calAtStart (s : State) : State :=
  let s1 := onlyIf (s.on pgCAL CAL.STATUS.OSF) (fun u => u.raise pgCAL 0x123 0) s
  let s2 := onlyIf (s1.on pgCAL CAL.STATUS.LBF) (fun u => u.raise pgCAL 0x124 0 [u.get pgSUP SUP.CELL.CELL_MV]) s1
  match s2.cal.offFire with
  | some (d, t) => ({ s2 with cal := { s2.cal with offFire := none } } : State).raise pgCAL 0x122 2 [d, t]
  | none => s2

/-- Everything of PD1 to PD11 at its reset value, and what MRAM, flash and PD0 keep (R4, R32, R62). -/
def pd1Fresh (s : State) : State :=
  let active := s.get pgSUP SUP.IMAGE_STATUS.ACTIVE_SLOT
  let b := s.boot
  let s1 : State := {
    regs := Store.keep keptReg s.regs
    shad := Store.keep (fun k => keyPage k == pgCAL) s.shad
    buf := Store.keep (fun k => keyPage k == pgCAL) s.buf
    mem := mramOnly s.mem, flash := s.flash, ecc := []
    boot := { phase := .rom, nextCause := b.nextCause, pd0 := true, supplyValid := b.supplyValid, prefFw := b.prefFw
              marker := b.marker, markerStep := b.markerStep, keyHash := b.keyHash }
    pins := s.pins
    recd := { nextSeq := s.recd.nextSeq, nextIdx := s.recd.nextIdx, held := s.recd.held, saved := s.recd.saved }
    flt := { conds := s.flt.conds.filter (fun k => k / 64 == pgCAL) }
    cal := s.cal
    tly := { recs := s.tly.recs, thr := s.tly.thr }
    sent := s.sent
    pnl := { image := s.pnl.image, polarity := s.pnl.polarity, marker := s.pnl.marker }
    dwy := { gen := s.dwy.gen }
    seq := { tasks := allTasks.foldl (fun m k => Store.set {} m k { lastTau := (s.task k).lastTau }) [], images := s.seq.images
             kept := s.seq.kept }
    freeUses := s.freeUses
    pending := s.pending }
  let s2 := (s1.setReg pgSUP 0x074 0).put pgSUP SUP.IMAGE_STATUS.ACTIVE_SLOT active
  forEach (pgCAL :: pagesOf 1) (fun u p => u.refreshState p) ((s2.setDom 0 2).setDom 1 2)

/-- PD1 starts with reset cause `cause` (R38, R42): everything at its reset value, the readings of the boot ROM, REC ready,
0x002, what the last sequence left (R30), the panel's recovery refresh (R459). -/
def pd1Start (s : State) (cause : Nat) (r : StartReading) : State :=
  let s0 := s.pd1Fresh
  let vin := r.vinB.toNat * 65536 + r.vinA.toNat
  let s1 := ((s0.setReg pgSUP 0x04C (BitVec.ofNat 32 vin)).putB pgSUP SUP.SUPPLY.SUPA_OK
    (decide (17500 ≤ r.vinA.toNat))).putB pgSUP SUP.SUPPLY.SUPB_OK (decide (17500 ≤ r.vinB.toNat))
  let s2 := ((s1.put pgSUP SUP.CELL.CELL_MV r.cell.toNat).put pgSUP SUP.TEMP.CASE r.temp.toNat).put pgSUP SUP.TEMP.HOTSPOT
    r.hot.toNat
  let s3 := (s2.put pgSUP SUP.RESET_CAUSE.CAUSE cause).putB pgSUP SUP.RESET_CAUSE.HOLDUP_DONE s.boot.marker
  let s5 := (s3.put pgPWR PWR.SEQ.STEP 1).calEdges
  let s6 : State := { s5 with boot := { s5.boot with idWait := r.identify }, pins := { s5.pins with identify := r.identify } }
  let s7 := ((s6.tallyStart (r.badTallies.map (fun i => i.val))).recStart)
  let s8 : State := { s7 with recd := { s7.recd with ready := true } }
  let s9 := s8.raise pgSUP 0x002 0 [(s8.reg pgSUP 0x040).toNat, r.slot.toNat, (Config.fwVersion s8.boot.prefFw).toNat]
  let s10 := onlyIf (!s.boot.marker) (fun u => u.raise pgSUP 0x007 0 [s.boot.markerStep]) s9
  ((s10.calAtStart).slotRead r.slot.toNat).pnlRecovery r.halves.val

/-! ### The sequences (R28, R29, R46) -/

/-- The hold-up qualification, or the taking of a shutdown (R28, rows 1 to 3): partner lines released, outputs off, cycles
abandoned, the power-fail event, region updates of the panel at their end (R465). -/
def seqBegin (s : State) (kind : SeqKind) (cause : Nat) : State :=
  let s1 := s.setBoot { s.boot with
    phase := .sequence, seqKind := kind, seqDone := 3, shutPos := 0, restCause := cause, marker := false, markerStep := 3
    identify := false, watchdogHit := s.boot.watchdogHit || kind == .watchdog }
  let s2 := (((s1.put pgSUP SUP.SUPPLY.IN_HOLDUP 1).putB pgPWR PWR.SEQ.HOLDUP (kind == .supplyLoss || kind == .watchdog
    || kind == .uncorrectable)).put pgPWR PWR.SEQ.PARKED 0).lineEvent 0
  let s3 := ((s2.put pgPAIR PAIR.STATUS.DUTY_OUT 0).put pgPAIR PAIR.STATUS.YIELD_OUT 0).setPair { s2.pair with
    claim := 0, waiting := false }
  let s4 := (forEach allTasks (fun u k => u.abandon k) s3).dioRefreshAll
  let s5 := forEach (List.range 8) (fun u n => if u.axState n = 0 then u else u.axFence n) s4
  let s6 := forEach (List.range 4) (fun u n => u.put (pgCAN n) CAN.STATUS.ON_BUS 0) s5
  ({ s6 with pnl := { s5.pnl with
      stopAfter := s6.pnl.stopAfter || (match s6.pnl.job with | some j => j.kind == 1 | none => false)
      updates := [] } } : State).pnlStatus

def seqStep (s : State) (n : Nat) : State := s.setBoot { s.boot with seqDone := n, markerStep := n }

/-- Recorder tail and tally flush (R28, row 5): every record raised is received and the queue written. -/
def seqTail (s : State) : State := (((s.recReceiveAll).recDrain).tlyFlush).seqStep 5

/-- The rest image of the sequence (R28, row 6; R464). -/
def seqRest (s : State) : State := (s.restTrigger s.boot.restCause "OFF" true true).seqStep 6

/-- An input stands that may carry the module again. -/
def inputOk (s : State) : Bool := s.on pgSUP SUP.SUPPLY.SUPA_OK || s.on pgSUP SUP.SUPPLY.SUPB_OK

/-- The end of a sequence (R28, row 7): the completion marker, and what follows the sequence (R30, R38, R46). -/
def seqEnd (s : State) : State :=
  let s1 := s.setBoot { s.boot with seqDone := 7, markerStep := 7, marker := true }
  let kind := s.boot.seqKind
  if kind = .supplyLoss ∨ s.boot.supplyValid = false then
    (if s1.inputOk || s1.boot.supplyValid then s1.pd1Off (if s1.boot.supplyValid then .supplied else .unpowered) 3
    else s1.pd1Off .unpowered 2)
  else match kind with
    | .watchdog => s1.pd1Off .supplied 5
    | .uncorrectable => s1.pd1Off .supplied 6
    | .restart => s1.pd1Off .supplied 4
    | _ => (((s1.setBoot { s1.boot with phase := .parked, seqKind := .none }).put pgSUP SUP.SUPPLY.IN_HOLDUP
        0).put pgPWR PWR.SEQ.HOLDUP 0).put pgPWR PWR.SEQ.PARKED 1

/-- Kinds whose domains go off one at a time (R46). -/
def slowKind (s : State) : Bool :=
  s.boot.seqKind == .shutdown || s.boot.seqKind == .restart || s.boot.seqKind == .overTemp

/-- Kinds whose domains go off together (R28). -/
def fastKind (s : State) : Bool :=
  s.boot.seqKind == .supplyLoss || s.boot.seqKind == .watchdog || s.boot.seqKind == .uncorrectable

/-! ### Reaching Stop (R42) -/

/-- The walk of R79 shows a capability. -/
def hasCap (cid : Nat) : Bool :=
  allPages.any (fun p => match pageKind p with
    | some (k, i) => (pageCaps k i).any (fun c => c.1 == cid)
    | none => false)

/-- The first failing check of R40; 0 none. -/
def imageReason (s : State) (im : StationImage) (c : ImageCheck) : Nat :=
  let mine := (List.range 8).filter (fun i => bitOf (s.get pgSUP SUP.KEYS.IMG_ENROLLED) i
    && Store.get 0 s.boot.keyHash i == c.key.toNat)
  if !c.readable then 1
  else if !c.held then 8
  else if mine.isEmpty then 3
  else if mine.all (fun i => bitOf (s.get pgSUP SUP.KEYS.IMG_REVOKED) i) then 4
  else if !c.signature then 5
  else if !c.format then 2
  else if !im.anyCarrier && im.carrier.val != s.get pgSUP SUP.SLOT_ID.CARRIER then 6
  else if !im.caps.all (fun c => hasCap c.toNat) then 7
  else 0

/-- A station image failed its verification (R40). -/
def imageBad (s : State) (slot reason : Nat) : State :=
  ((s.put pgSUP SUP.IMAGE_STATUS.REASON reason).setFault pgSUP 23).raise pgSUP 0x00A slot [reason]

def setImage (s : State) (slot : Nat) (im : Option StationImage) : State :=
  { s with seq := { s.seq with images := Store.set none s.seq.images slot im } }

/-- What the image says of its carrier (R51). -/
def imageCarrier (s : State) (im : StationImage) : State :=
  (s.put pgSUP SUP.IMAGE_STATUS.IMAGE_CARRIER (if im.anyCarrier then 0 else im.carrier.val)).putB pgSUP
    SUP.IMAGE_STATUS.ANY_CARRIER im.anyCarrier

/-- The role at Stop entry (R378, R379): duty in a single slot; in a pair slot with DUTY_IN released a claim, at once for slot A and
after CLAIM_WAIT for slot B. -/
def stopRole (s : State) : State :=
  if s.pairSlot = false then (s.setRole 1 1).becameDuty.outputsFollow
  else if s.on pgPAIR PAIR.STATUS.DUTY_IN then s
  else if s.slotB then s.setPair { s.pair with waiting := true, waitAt := s.clk.ref }
  else (s.put pgPAIR PAIR.STATUS.DUTY_OUT 1).setPair { s.pair with claim := 1, claimAt := s.clk.ref }

/-- Stop is reached (R42): the image is loaded, the blocks that SUP and the image run start, 0x003. -/
def stopReached (s : State) (im : StationImage) (bad : List Nat) : State :=
  let s1 := (s.loadImage im bad).put pgSUP SUP.IMAGE_STATUS.LOADED 1
  let s2 := forEach [pgSEQ, pgTMR, pgPLACE] (fun u p => u.refreshState p) s1
  let ms := s2.clk.ref / 100000 + 2
  let s3 : State := { s2.put pgSUP SUP.BOOT_TIME.MS (min 65535 ms) with boot := { s2.boot with reachedStop := true } }
  let s4 := forEach [pgLPE, pgLPT, pgANG, pgDWY] (fun u p => u.runOn p 0) s3
  let s5 := (im.regs.filter (fun r => r.off == 0x00C#12)).foldl (fun (u : State) r => u.ctrlWrite r.page.toNat 0 r.val.toNat) s4
  let s6 := (forEach (List.range 4) (fun u n => u.canJoin n) s5).raise pgSUP 0x003 0 [min 65535 ms]
  (s6.stopRole).restTrigger (s6.get pgPNL PNL.REST_CAUSE.CAUSE) "STOP" false false

end State

/-! ### Supplies (R25 to R31) -/

/-- SUPPLY_VALID (R25, R31, R42): the combined supply has stood at 17.5 V for 10 ms. PD0 changes to it, or starts where the cell did
not hold it (`cell` false). `ranOut`: a hold-up sequence did not end before its energy did (R27). -/
def execSupplyValid (cell ranOut : Bool) (s : State) : Out :=
  let s0 := if s.boot.phase = .sequence ∧ ranOut = true then s.pd1Off .unpowered 2 else s
  let valid (u : State) := u.setBoot { u.boot with supplyValid := true }
  .next (match s0.boot.phase with
    | .unpowered =>
      let cold := !s0.boot.pd0 || !cell
      let s1 := valid (if cold then s0.pd0Start else s0)
      let cause := if cold then 1 else if s0.boot.nextCause = 3 then 3 else 2
      let s2 := s1.setBoot { s1.boot with phase := .supplied, nextCause := cause }
      s2.put pgPWR PWR.DOM_STATE.STATE 2
    | _ => valid s0)

/-- SUPPLY_INPUT_LOST (R25): input A (`b` false) or B falls below 16.5 V, at `mv`. -/
def execSupplyInputLost (b : Bool) (mv : BitVec 16) (s : State) : Out :=
  let ok := if b then SUP.SUPPLY.SUPB_OK else SUP.SUPPLY.SUPA_OK
  let bit := if b then 17 else 16
  .next (if !s.pd1 then s
    else
      let s1 := s.put pgSUP (if b then SUP.VIN.VIN_B else SUP.VIN.VIN_A) mv.toNat
      if !s1.on pgSUP ok then s1
      else ((((s1.put pgSUP ok 0).setFault pgSUP bit).cond pgSUP bit true).raise pgSUP 0x004 (b2n b) [mv.toNat]))

/-- SUPPLY_INPUT_RESTORED (R25): input A or B rises to 17.5 V or more. -/
def execSupplyInputRestored (b : Bool) (mv : BitVec 16) (s : State) : Out :=
  let ok := if b then SUP.SUPPLY.SUPB_OK else SUP.SUPPLY.SUPA_OK
  .next (if !s.pd1 then s
    else
      let s1 := s.put pgSUP (if b then SUP.VIN.VIN_B else SUP.VIN.VIN_A) mv.toNat
      if s1.on pgSUP ok then s1
      else ((s1.put pgSUP ok 1).cond pgSUP (if b then 17 else 16) false).raise pgSUP 0x005 (b2n b))

/-- LOW_INPUT (R25): the combined input enters or leaves 16.5 V to 18.0 V. -/
def execLowInput (enters : Bool) (s : State) : Out :=
  .next (if !s.pd1 then s
    else
      let s1 := (s.putB pgSUP SUP.SUPPLY.VIN_LOW enters).cond pgSUP 18 enters
      if enters && !s.on pgSUP SUP.SUPPLY.VIN_LOW then s1.setFault pgSUP 18 else s1)

/-- DIP (R25). -/
def execDip (s : State) : Out :=
  .next (if !s.pd1 then s
    else
      let s1 := s.incSat pgSUP SUP.DIP_COUNT.COUNT
      s1.raise pgSUP 0x008 0 [s1.get pgSUP SUP.DIP_COUNT.COUNT])

/-- SUPPLY_LOSS (R28, R30, R465): the loss of the combined input qualifies. A sequence that runs goes on to its end; during the
rest drive of a SHUTDOWN line 2 is drawn again. -/
def execSupplyLoss (s : State) : Out :=
  let s1 := s.setBoot { s.boot with supplyValid := false }
  .next (match s.boot.phase with
    | .unpowered => s
    | .supplied => (s1.setBoot { s1.boot with phase := .unpowered })
    | .sequence =>
      (if s.slowKind && decide (6 ≤ s.boot.seqDone) then s1.restTrigger 1 "OFF" true true else s1)
    | _ => s1.seqBegin .supplyLoss 1)

/-- HOLDUP_DOMAINS_OFF (R28): at t0 + 0.6 ms PD11 to PD2 are switched off together. -/
def execHoldupDomainsOff (s : State) : Out :=
  .next (if s.fastKind && s.boot.seqDone == 3 then
      (forEach [11, 10, 9, 8, 3, 4, 5, 6, 7, 2] (fun u d => if u.dom d = 0 then u else u.domDown d 0) s).seqStep 4
    else s)

/-- HOLDUP_RECORDER_TAIL (R28): at t0 + 1.0 ms 0x006, in a sequence that a supply loss starts, then the tail and the tallies. -/
def execHoldupRecorderTail (s : State) : Out :=
  .next (if s.fastKind && s.boot.seqDone == 4 then
      (onlyIf (s.boot.seqKind == .supplyLoss) (fun u => u.raise pgSUP 0x006 0 [u.get pgSUP SUP.HOLDUP.HOLDUP_T]) s).seqTail
    else s)

/-- HOLDUP_REST_IMAGE (R28, R464): at t0 + 3.0 ms the rest image is driven. -/
def execHoldupRestImage (s : State) : Out :=
  .next (if s.fastKind && s.boot.seqDone == 5 then s.seqRest else s)

/-- HOLDUP_COMPLETION (R28): at t0 + 17 ms the completion marker is written and PD1 switches off. -/
def execHoldupCompletion (s : State) : Out :=
  .next (if s.fastKind && s.boot.seqDone == 6 then s.seqEnd else s)

/-- RESTART_AFTER_HOLDUP (R30): the sequence has ended and the supply is valid; the module starts again with cause 0x3. -/
def execRestartAfterHoldup (r : StartReading) (s : State) : Out :=
  .next (if s.boot.phase = .supplied ∧ s.boot.nextCause = 3 then s.pd1Start 3 r else s)

/-- The hold-up time is measured: 0.1 ms units (R27). -/
def State.holdupResult (s : State) (t : Nat) : State :=
  let ok := decide (200 ≤ t)
  let s1 := ((s.put pgSUP SUP.HOLDUP.HOLDUP_T t).putB pgSUP SUP.SUPPLY.HOLDUP_OK ok).cond pgSUP 19 (!ok)
  if ok then s1 else (s1.setFault pgSUP 19).raise pgSUP 0x00D 0 [t]

/-- HOLDUP_MEASURE (R27): a measurement ends with `t`: the first one, one every 24 h, or the one of HOLDUP_TEST, which ends with
it. -/
def execHoldupMeasure (t : BitVec 16) (s : State) : Out :=
  .next (if !s.pd1 then s
    else
      let s1 := s.setBoot { s.boot with holdupMeasured := true }
      let s2 := s1.holdupResult t.toNat
      if s2.boot.busyCmd = 4 then
        ((s2.setBoot { s2.boot with busyCmd := 0 }).put pgSUP SUP.CMD_STATUS.BUSY 0).put pgSUP
          SUP.CMD_STATUS.RESULT 0
      else s2)

/-- CELL_MEASURE (R31): every 60 s. -/
def execCellMeasure (mv : BitVec 16) (s : State) : Out :=
  .next (if !s.pd1 then s
    else
      let low := decide (mv.toNat < 2700)
      let s1 := ((s.put pgSUP SUP.CELL.CELL_MV mv.toNat).putB pgSUP SUP.SUPPLY.CELL_LOW low).cond pgSUP 20 low
      if low then (s1.setFault pgSUP 20).raise pgSUP 0x013 0 [mv.toNat] else s1)

/-! ### Boot (R22, R38 to R47) -/

/-- PD1_START (R33, R42): 2 ms after supply valid, or after a sequence that restarts the module. -/
def execPd1Start (r : StartReading) (s : State) : Out :=
  .next (if s.boot.phase = .supplied then s.pd1Start s.boot.nextCause r else s)

/-- SLOT_ID_POLL (R22): every 100 ms until a valid code is latched. -/
def execSlotIdPoll (raw : BitVec 6) (s : State) : Out := .next (if s.pd1 then s.slotRead raw.toNat else s)

/-- SLOT_ID_DEADLINE (R22): supply valid + 10 s without a code. -/
def execSlotIdDeadline (raw : BitVec 6) (s : State) : Out :=
  .next (if !s.pd1 || s.inSequence || s.on pgSUP SUP.SLOT_ID.VALID || s.boot.idDeadline then s
    else
      let s1 : State := { s with
        boot := { s.boot with idDeadline := true }, pins := { s.pins with slotId := raw } }
      (s1.raise pgSUP 0x00C 0 [0, raw.toNat]).startFail)

/-- SLOT_ID_SAMPLE (R22): every 1 s after the latch. -/
def execSlotIdSample (raw : BitVec 6) (s : State) : Out :=
  .next (if !s.pd1 || !s.on pgSUP SUP.SLOT_ID.VALID then s
    else
      let latched := s.get pgSUP SUP.SLOT_ID.RAW
      let s1 := ({ s with pins := { s.pins with slotId := raw } } : State).put pgSUP SUP.SLOT_ID.LIVE_RAW raw.toNat
      let differs := raw.toNat != latched
      let s2 := s1.setBoot { s1.boot with idEpisode := differs }
      if differs && !s.boot.idEpisode then
        ((s2.setFault pgSUP 22).cond pgSUP 22 true).raise pgSUP 0x00C 1 [latched, raw.toNat]
      else if !differs && s.boot.idEpisode then (s2.cond pgSUP 22 false).raise pgSUP 0x00C 2 [latched, raw.toNat]
      else s2)

/-- FW_SLOT_VERIFY (R39): the boot ROM's check of a slot ends with `reason`, 0 where it passes; PD2 starts at t_fw, with a transient
of `ma`, and reports power good where `good` says so. -/
def execFwSlotVerify (reason : Fin 10) (run : StartRun) (s : State) : Out :=
  let b := s.boot
  let slot := if b.fwFailed.isEmpty then b.prefFw else 1 - b.prefFw
  .next (if b.phase != .rom then s
    else if reason.val = 0 then
      let other := !b.fwFailed.isEmpty
      let s1 := s.setBoot { b with phase := .firmware }
      let s2 := (s1.put pgSUP SUP.RESET_CAUSE.FW_SLOT slot).putB pgSUP SUP.RESET_CAUSE.FW_FALLBACK other
      let s3 := onlyIf other (fun u => u.setFault pgSUP 24) s2
      (s3.put pgPWR PWR.SEQ.STEP 2).domStart 2 run.ma.toNat run.good
    else
      let s1 := s.raise pgSUP 0x009 slot [reason.val]
      (s1.setBoot { s1.boot with
          fwFailed := b.fwFailed ++ [slot], phase := if b.fwFailed.isEmpty then .rom else .romRecovery }))

/-- IMAGE_VERIFY (R40 to R42): the verification of the image in the active slot ends. -/
def execImageVerify (im : StationImage) (c : ImageCheck) (s : State) : Out :=
  let slot := s.get pgSUP SUP.IMAGE_STATUS.ACTIVE_SLOT
  .next (if s.boot.phase != .firmware || !s.on pgSUP SUP.SLOT_ID.VALID || s.boot.reachedStop then s
    else
      let s1 := if c.readable && c.held then (s.setImage slot (some im)).imageCarrier im else s.setImage slot none
      let r := s1.imageReason im c
      if r ≠ 0 then ((s1.imageBad slot r).setBoot { s1.boot with imageFailed := true }).startFail
      else (s1.put pgSUP SUP.IMAGE_STATUS.VERIFIED 1).put pgSUP SUP.IMAGE_STATUS.REASON 0)

/-- STOP_REACHED (R42): the start steps have ended, the image is verified, and no maintenance start is made or awaited; `bad` are the
retentive cells that fail their check (R117). -/
def execStopReached (bad : List (Fin 4096)) (s : State) : Out :=
  let b := s.boot
  .next (match Store.get none s.seq.images (s.get pgSUP SUP.IMAGE_STATUS.ACTIVE_SLOT) with
    | some im =>
      if b.phase == .firmware && s.on pgPWR PWR.SEQ.DONE && s.on pgSUP SUP.IMAGE_STATUS.VERIFIED && !b.maint && !b.idWait
          && !b.startFailed && !b.reachedStop && s.dom 2 == 2 && s.dom 7 == 2 then
        s.stopReached im (bad.map (fun c => c.val))
      else s
    | none => s)

/-- IDENTIFY_PRESS (R47): a press shorter than 2 s, in any state except hold-up. -/
def execIdentifyPress (s : State) : Out :=
  .next (if !s.pd1 || s.fastKind then s
    else (s.setBoot { s.boot with identify := true }).raise pgSUP 0x016 0)

/-- MAINTENANCE_START (R47): IDENTIFY is still held 5 s after PD1 start. -/
def execMaintenanceStart (s : State) : Out :=
  .next (if !s.boot.idWait || !s.pd1 || s.inSequence then s
    else
      let s1 := s.setBoot { s.boot with idWait := false, maint := true }
      (s1.put pgSUP SUP.RESET_CAUSE.MAINT 1).raise pgSUP 0x015)

/-- IDENTIFY_RELEASE (R47): IDENTIFY, held at PD1 start, is released before 5 s. -/
def execIdentifyRelease (s : State) : Out :=
  .next { s with boot := { s.boot with idWait := false }, pins := { s.pins with identify := false } }

/-- IDENTIFY_END (R47): the 30 s are over. -/
def execIdentifyEnd (s : State) : Out := .next (s.setBoot { s.boot with identify := false })

/-! ### Watchdog, errors, temperature (R38, R48) -/

/-- SUP_WATCHDOG_EXPIRY (R38). -/
def execSupWatchdogExpiry (s : State) : Out :=
  .next (if !s.pd1 || s.inSequence then s else s.seqBegin .watchdog 4)

/-- SUP_UNCORRECTABLE_ERROR (R38). -/
def execSupUncorrectableError (s : State) : Out :=
  .next (if !s.pd1 || s.inSequence then s else s.seqBegin .uncorrectable 5)

/-- TEMP_WARN (R48): the case temperature is sampled at `t`. -/
def execTempWarn (t : BitVec 16) (s : State) : Out :=
  .next (if !s.pd1 then s
    else
      let warn := signed 16 (s.get pgSUP SUP.TEMP_WARN.CASE_WARN)
      let s1 := s.put pgSUP SUP.TEMP.CASE t.toNat
      if s.boot.warm = false ∧ warn < t.toInt then
        (((s1.setBoot { s1.boot with warm := true }).setFault pgSUP 21).cond pgSUP 21 true).raise pgSUP 0x00E 0
          [t.toNat]
      else if s.boot.warm = true ∧ t.toInt ≤ warn - 16 then
        ((s1.setBoot { s1.boot with warm := false }).cond pgSUP 21 false).raise pgSUP 0x00E 1 [t.toNat]
      else s1)

/-- OVER_TEMPERATURE_SHUTDOWN (R48): the case reaches +130 °C, at `t`: the SHUTDOWN sequence, in any mode, also while parked. A
SHUTDOWN or RESTART that runs goes on as this one, and a hold-up sequence to its end (DESIGN CHOICE, assumption 222). -/
def execOverTemperatureShutdown (t : BitVec 16) (s : State) : Out :=
  .next (if !s.pd1 || s.boot.overTemp || decide (t.toInt < 1040) then s
    else
      let s1 := s.put pgSUP SUP.TEMP.CASE t.toNat
      let s2 := (s1.setBoot { s1.boot with overTemp := true }).raise pgSUP 0x00F 0 [t.toNat]
      if s2.fastKind then s2
      else if s2.slowKind then s2.setBoot { s2.boot with seqKind := .overTemp }
      else s2.seqBegin .overTemp 3)

/-- OVER_TEMPERATURE_RESTART (R48): 60 s at or below +110 °C. -/
def execOverTemperatureRestart (r : StartReading) (s : State) : Out :=
  .next (if s.boot.phase = .parked ∧ s.boot.overTemp = true then (s.pd1Off .supplied 7).pd1Start 7 r else s)

/-- SHUTDOWN_DOMAIN_OFF (R46): the next domain of the reverse start order. -/
def execShutdownDomainOff (s : State) : Out :=
  .next (if s.slowKind && s.boot.seqDone == 3 then
      let d := shutOrder.getD s.boot.shutPos 2
      let s1 := if s.dom d = 0 then s else s.domDown d 0
      let s2 := s1.setBoot { s1.boot with shutPos := s.boot.shutPos + 1 }
      if s.boot.shutPos = 9 then s2.seqStep 4 else s2
    else s)

/-- SHUTDOWN_TAIL (R46), one of its instants: 0 the recorder tail and the tallies once PD2 is off, 1 the rest image, 2 the completion
marker, after which the module parks or starts again. -/
def execShutdownTail (part : Fin 3) (s : State) : Out :=
  .next (if s.slowKind && s.boot.seqDone == 4 + part.val then
      (match part.val with
      | 0 => s.seqTail
      | 1 => s.seqRest
      | _ => s.seqEnd)
    else s)

/-! ### Clocks (R53) -/

/-- A CLK fault bit is set and records 0x014. -/
def State.clkFault (s : State) (b : Nat) : State :=
  let s1 := (s.setFault pgCLK b).cond pgCLK b true
  s1.raise pgCLK 0x014 0 [bits (s1.reg pgCLK 0x010).toNat 31 16]

/-- CLOCK_FAULT (R53): the reference (0) fails, or the fabric (1), core (2) or engine (3) clock loses lock. -/
def execClockFault (k : Fin 4) (s : State) : Out :=
  .next (if !s.pd1 then s else (s.put pgCLK ⟨0x040, k.val, k.val⟩ 0).clkFault (16 + k.val))

/-- CLOCK_LOCK_RESTORED (R412): it is there again. -/
def execClockLockRestored (k : Fin 4) (s : State) : Out :=
  .next (if !s.pd1 then s else (s.put pgCLK ⟨0x040, k.val, k.val⟩ 1).cond pgCLK (16 + k.val) false)

/-- REF_DRIFT (R53): the 64 s comparison of the reference with the calendar crystal gives `dev` ppm. DESIGN CHOICE (assumption
223): each comparison above the limit sets REF_DRIFT and records 0x014, also while the bit stands. -/
def execRefDrift (dev : BitVec 16) (s : State) : Out :=
  .next (if !s.pd1 then s
    else
      let s1 := s.put pgCLK CLK.STATUS_X.REF_DEV dev.toNat
      if s.get pgCLK CLK.REF_DEV_LIMIT.LIMIT < dev.toInt.natAbs then s1.clkFault 20 else s1.cond pgCLK 20 false)

end Sys2Proof.Machine
end

