-- ==== Sys2Proof/Machine/SupCmd.lean ====
section
/-! DEFINITION. `SUP.CMD` with its unlock, the image slots and keys, and the flash (R39, R46, R49, R51). -/

namespace Sys2Proof.Machine

/-- Blocks of a firmware slot and of a station-image slot, and their first blocks (R49). -/
def fwBlocks : Nat := 65536
def imageBlocks : Nat := 262144
def fwBase (slot : Nat) : Nat := slot * 65536
def imageBase (slot : Nat) : Nat := 0x20000 + slot * 262144

/-- The last block of the region of R49 that holds block `b`, and whether software may write it; `none` in the reserve. -/
def flashRegion (b : Nat) : Option (Nat × Bool) :=
  if b < 0x10000 then some (0x0FFFF, false) else if b < 0x20000 then some (0x1FFFF, false)
  else if b < 0x60000 then some (0x5FFFF, false) else if b < 0xA0000 then some (0x9FFFF, false)
  else if b < 0x1A0000 then some (0x19FFFF, true) else none

namespace State

/-! ### Access to SUP's command registers -/

/-- A write by master `m` to a SUP register at `off` that the boot ROM also takes from the service port (R39). -/
def supAction (s : State) (off m : Nat) (f : State → State) : State :=
  if s.boot.phase = .romRecovery then (if m = 2 then f s else s) else s.action pgSUP off m f

def supResult (s : State) (r : Nat) : State := s.put pgSUP SUP.CMD_STATUS.RESULT r

/-- The buffer address of a command (R51). -/
def cmdAddr (s : State) : Nat := s.get pgSUP SUP.CMD_ADDR_LO + s.get pgSUP SUP.CMD_ADDR_HI.ADDR_HI * 4294967296

/-- RESTART and SHUTDOWN are accepted (R39, R46). -/
def mayStop (s : State) : Bool :=
  s.boot.phase == .romRecovery || s.boot.phase == .parked
    || (s.boot.phase == .firmware && s.on pgPWR PWR.SEQ.DONE && !s.inRun)

/-- The commands that need the unlock, those that the boot ROM accepts, and the known ones (R39, R51). -/
def starred (code : Nat) : Bool := decide (0x10 ≤ code) && decide (code ≤ 0x15)
def romCode (code : Nat) : Bool := code == 0x01 || code == 0x13 || code == 0x14

/-- The firmware slot that FW_LOAD writes: the one not running, in ROM recovery the preferred one (R39, R51). -/
def fwTarget (s : State) : Nat :=
  if s.boot.phase = .romRecovery then s.boot.prefFw else 1 - s.get pgSUP SUP.RESET_CAUSE.FW_SLOT

/-- The station-image slot that IMAGE_LOAD writes: the one not in use. Where the check of the active image failed, no image is in
use and the load goes to the slot that ACTIVE_SLOT names, which only an exchange changes (R41, R51; DESIGN CHOICE, assumption
224). -/
def imageTarget (s : State) : Nat :=
  let a := s.get pgSUP SUP.IMAGE_STATUS.ACTIVE_SLOT
  if s.boot.imageFailed then a else 1 - a

/-- A load starts (R51): ARG 0, an aligned buffer, a length from 1 to the blocks of the slot. -/
def loadStart (s : State) (code arg blocks : Nat) : State :=
  let n := s.get pgSUP SUP.CMD_LEN.BLOCKS
  if arg ≠ 0 ∨ s.cmdAddr % 4096 ≠ 0 ∨ n = 0 ∨ blocks < n then s.supResult 3
  else (s.setBoot { s.boot with busyCmd := code, loadAddr := s.cmdAddr, loadLen := n }).put pgSUP SUP.CMD_STATUS.BUSY 1

/-- A key bit of `SUP.KEYS`. -/
def keyBit (s : State) (f : Fld) (i : Nat) : State := s.put pgSUP f (s.get pgSUP f ||| 2 ^ i)

/-- RESTART: through the sequence of SHUTDOWN, in ROM recovery at once (R39, R46). DESIGN CHOICE (assumption 225): P0 of 0x012, the
'OWNER value' of R50, is the master that wrote the command, also in ROM recovery, where no page has an owner that is asked. -/
def cmdRestart (s : State) (m : Nat) : State :=
  if !s.mayStop then s.supResult 1
  else
    let s1 := (s.supResult 0).raise pgSUP 0x012 0 [m]
    if s1.boot.phase = .romRecovery then s1.pd1Off .supplied 4 else s1.seqBegin .restart 6

def cmdShutdown (s : State) (m : Nat) : State :=
  if !s.mayStop || s.boot.phase == .romRecovery then s.supResult 1
  else ((s.supResult 0).raise pgSUP 0x010 0 [m]).seqBegin .shutdown 2

def cmdHoldupTest (s : State) : State :=
  (s.setBoot { s.boot with busyCmd := 4 }).put pgSUP SUP.CMD_STATUS.BUSY 1

def cmdIdentify (s : State) : State :=
  if s.fastKind then s.supResult 1
  else ((s.setBoot { s.boot with identify := true }).raise pgSUP 0x016 1).supResult 0

def cmdRecorderClear (s : State) (m : Nat) : State := if s.inSequence then s.supResult 1 else (s.recClear m).supResult 0

def cmdKeyEnrol (s : State) (arg : Nat) : State :=
  if 7 < arg ∨ s.cmdAddr % 4096 ≠ 0 then s.supResult 3
  else
    let h := leNat ((Memory.bytes s.mem s.cmdAddr 32).reverse)
    ((s.setBoot { s.boot with keyHash := Store.set 0 s.boot.keyHash arg h }).keyBit SUP.KEYS.IMG_ENROLLED
      arg).supResult 0

def cmdKeyRevoke (s : State) (arg : Nat) : State :=
  if 7 < arg then s.supResult 3 else (s.keyBit SUP.KEYS.IMG_REVOKED arg).supResult 0

def cmdFwPrefer (s : State) (arg : Nat) : State :=
  if 1 < arg then s.supResult 3 else (s.setBoot { s.boot with prefFw := arg }).supResult 0

/-- A command that is accepted for execution. -/
def cmdRun (s : State) (m code arg : Nat) : State :=
  if code = 0x01 then s.cmdRestart m
  else if code = 0x02 then s.cmdShutdown m
  else if code = 0x04 then s.cmdHoldupTest
  else if code = 0x05 then s.cmdIdentify
  else if code = 0x10 then s.cmdRecorderClear m
  else if code = 0x11 then s.cmdKeyEnrol arg
  else if code = 0x12 then s.cmdKeyRevoke arg
  else if code = 0x13 then s.cmdFwPrefer arg
  else if code = 0x14 then s.loadStart 0x14 arg fwBlocks
  else if code = 0x15 then s.loadStart 0x15 arg imageBlocks
  else s.supResult 7

/-- CMD written by master `m` (R39, R47, R51, R73). DESIGN CHOICE (assumption 226): a write that is ignored while BUSY does not
use up the unlock. -/
def supCmd (s0 : State) (m code arg : Nat) : State :=
  let s := s0.supTouch
  let busy := s.on pgSUP SUP.CMD_STATUS.BUSY
  if !s.pd1 then s0
  else if s.boot.phase = .romRecovery ∧ m ≠ 2 then s0
  else if s.boot.maint = true ∧ m ≠ 2 then (if busy then s else s.supResult 1)
  else if s.boot.phase ≠ .romRecovery ∧ s.owner pgSUP ≠ m then
    (if busy then s.refuseOwner pgSUP 0x060 m else (s.refuseOwner pgSUP 0x060 m).supResult 6)
  else if busy then s
  else
    let unlocked := s.boot.unlock == 2
    let s1 := s.setBoot { s.boot with unlock := 0 }
    if s1.boot.phase = .romRecovery ∧ romCode code = false then s1.supResult 1
    else if starred code && !unlocked then s1.supResult 2
    else s1.cmdRun m code arg

/-- UNLOCK written by master `m` (R51): the two keys in order within 1 ms; the unlock holds until the next CMD write. -/
def supUnlock (s : State) (m key : Nat) : State :=
  s.supAction 0x064 m (fun s =>
    let b := s.boot
    if b.unlock = 2 then s
    else if key = 0x5EC7 then (s.setBoot { b with unlock := 1, unlockAt := s.clk.ref })
    else if key = 0xA17B ∧ b.unlock = 1 ∧ s.clk.ref ≤ b.unlockAt + 100000 then (s.setBoot { b with unlock := 2 })
    else (s.setBoot { b with unlock := 0 }))

/-! ### The flash (R49) -/

def flashDma (s : State) : Nat :=
  (s.get pgSUP SUP.FLASH_DMA_LO + s.get pgSUP SUP.FLASH_DMA_HI.ADDR_HI * 4294967296) / 4096 * 4096

/-- The operation ends: BUSY clears; with ERR_CODE `e`, or DONE where it is 0. -/
def flashEnd (s : State) (e : Nat) : State :=
  let s1 := ((s.setBoot { s.boot with flashOp := 0 }).put pgSUP SUP.FLASH_STATUS.BUSY 0).put pgSUP
    SUP.FLASH_STATUS.ERR_CODE e
  let s2 := if e = 0 then s1.put pgSUP SUP.FLASH_STATUS.DONE 1 else s1.put pgSUP SUP.FLASH_STATUS.ERROR 1
  if e = 2 then s2.setFault pgSUP 25 else s2

/-- FLASH_CMD written with `op` by master `m`: ignored while BUSY; 0 blocks do nothing; outside the region permitted it ends at
once. -/
def flashCmd (s : State) (m op : Nat) : State :=
  s.action pgSUP 0x098 m (fun s =>
    let b := s.get pgSUP SUP.FLASH_BLOCK.BLOCK
    let n := s.get pgSUP SUP.FLASH_COUNT.COUNT
    if op = 0 ∨ s.on pgSUP SUP.FLASH_STATUS.BUSY = true ∨ n = 0 then s
    else match flashRegion b with
      | none => s.flashEnd 1
      | some (last, writable) =>
        if op ≠ 1 ∧ writable = false then s.flashEnd 1
        else if last < b + n - 1 then s.flashEnd 3
        else
          let s1 := s.setBoot { s.boot with
            flashOp := op, flashBlock := b, flashCount := n, flashDma := s.flashDma }
          s1.put pgSUP SUP.FLASH_STATUS.BUSY 1)

end State

/-! ### The commands of SUP.CMD, written by master `m` -/

/-- RESTART (R46): code 0x01. -/
def execRestart (m : Fin 4) (s : State) : Out := .next (s.supCmd m.val 0x01 0)

/-- SHUTDOWN (R46): code 0x02. -/
def execShutdown (m : Fin 4) (s : State) : Out := .next (s.supCmd m.val 0x02 0)

/-- HOLDUP_TEST (R27): code 0x04; HOLDUP_MEASURE ends it. -/
def execHoldupTest (m : Fin 4) (s : State) : Out := .next (s.supCmd m.val 0x04 0)

/-- IDENTIFY (R47): code 0x05. -/
def execIdentify (m : Fin 4) (s : State) : Out := .next (s.supCmd m.val 0x05 0)

/-- RECORDER_CLEAR (R449): code 0x10. -/
def execRecorderClear (m : Fin 4) (s : State) : Out := .next (s.supCmd m.val 0x10 0)

/-- KEY_ENROL (R51): code 0x11 with the key slot in ARG. -/
def execKeyEnrol (m : Fin 4) (arg : BitVec 16) (s : State) : Out := .next (s.supCmd m.val 0x11 arg.toNat)

/-- KEY_REVOKE (R51): code 0x12. -/
def execKeyRevoke (m : Fin 4) (arg : BitVec 16) (s : State) : Out := .next (s.supCmd m.val 0x12 arg.toNat)

/-- FW_SLOT_PREFER (R39, R51): code 0x13. -/
def execFwSlotPrefer (m : Fin 4) (arg : BitVec 16) (s : State) : Out := .next (s.supCmd m.val 0x13 arg.toNat)

/-- FW_LOAD (R39, R51): code 0x14; FW_LOAD_COMPLETE ends it. -/
def execFwLoad (m : Fin 4) (arg : BitVec 16) (s : State) : Out := .next (s.supCmd m.val 0x14 arg.toNat)

/-- IMAGE_LOAD (R51): code 0x15; IMAGE_LOAD_COMPLETE ends it. -/
def execImageLoad (m : Fin 4) (arg : BitVec 16) (s : State) : Out := .next (s.supCmd m.val 0x15 arg.toNat)

/-- A load has ended with RESULT `r`. -/
def State.loadEnd (s : State) (r : Nat) : State :=
  ((s.setBoot { s.boot with busyCmd := 0 }).put pgSUP SUP.CMD_STATUS.BUSY 0).supResult r

/-- The blocks of the command's buffer, as CMD_ADDR and CMD_LEN gave it at the CMD write, are written to the flash from block
`b` on. -/
def State.flashStore (s : State) (b : Nat) : State :=
  { s with flash := Memory.copy s.flash (b * 4096) s.mem s.boot.loadAddr (s.boot.loadLen * 4096) }

/-- FW_LOAD_COMPLETE (R39, R51): the load ends: written and verified, a slot that fails for `reason` (R39), or a flash error. -/
def execFwLoadComplete (flashError : Bool) (reason : Fin 10) (s : State) : Out :=
  .next (if s.boot.busyCmd != 0x14 || !s.pd1 then s
    else if flashError then s.loadEnd 5
    else
      let slot := s.fwTarget
      let s1 := s.flashStore (fwBase slot)
      if reason.val = 0 then s1.loadEnd 0 else (s1.raise pgSUP 0x009 slot [reason.val]).loadEnd 4)

/-- IMAGE_LOAD_COMPLETE (R40, R41, R51): the load ends; the slot of `imageTarget` holds the image, which is verified. In the
start-failed state that a bad active image led to, a valid image is the one that is awaited, and the start goes on. -/
def execImageLoadComplete (flashError : Bool) (im : StationImage) (c : ImageCheck) (s : State) : Out :=
  .next (if s.boot.busyCmd != 0x15 || !s.pd1 then s
    else if flashError then s.loadEnd 5
    else
      let slot := s.imageTarget
      let s1 := s.flashStore (imageBase slot)
      let s2 := if c.readable && c.held then s1.setImage slot (some im) else s1.setImage slot none
      let r := s2.imageReason im c
      if r ≠ 0 then (s2.imageBad slot r).loadEnd 4
      else
        let s3 := s2.loadEnd 0
        if s3.boot.imageFailed then
          let s4 := s3.setBoot { s3.boot with
            imageFailed := false
            startFailed := s3.boot.startFailed && (s3.boot.idDeadline || s3.dom 2 == 3 || s3.dom 7 == 3) }
          ((s4.imageCarrier im).put pgSUP SUP.IMAGE_STATUS.VERIFIED 1).put pgSUP SUP.IMAGE_STATUS.REASON 0
        else s3)

/-- UNLOCK (R51): one write of a key. -/
def execUnlock (m : Fin 4) (key : BitVec 32) (s : State) : Out := .next (s.supUnlock m.val key.toNat)

/-- FLASH_READ (R51): OP 1. -/
def execFlashRead (m : Fin 4) (s : State) : Out := .next (s.flashCmd m.val 1)

/-- FLASH_WRITE (R51): OP 2. -/
def execFlashWrite (m : Fin 4) (s : State) : Out := .next (s.flashCmd m.val 2)

/-- FLASH_ERASE (R51): OP 3. -/
def execFlashErase (m : Fin 4) (s : State) : Out := .next (s.flashCmd m.val 3)

/-- FLASH_OPERATION_DONE (R49, R51): the operation ends; `corrected` blocks were read with corrected errors, `failed` is an
uncorrectable read, or a program or erase failure. A memory address that is not permitted to the flash interface ends it (R417). -/
def execFlashOperationDone (corrected : BitVec 16) (failed : Bool) (s : State) : Out :=
  let b := s.boot
  let n := b.flashCount * 4096
  let f := b.flashBlock * 4096
  .next (if b.flashOp = 0 ∨ s.pd1 = false then s
    else if b.flashOp ≠ 3 ∧ inTier12 b.flashDma n = false ∧ (b.flashOp = 2 ∧ inTrace b.flashDma n = true) = false then
      (s.dmaError pgSUP b.flashDma (if b.flashOp = 1 then 1 else 0) 14).flashEnd 1
    else
      let s1 := s.incSat pgSUP SUP.FLASH_STATUS.CORRECTED corrected.toNat
      if failed then s1.flashEnd (if b.flashOp = 1 then 2 else 4)
      else
        let s2 : State := if b.flashOp = 1 then { s1.eccClear b.flashDma n with mem := Memory.copy s1.mem b.flashDma s1.flash f n }
          else if b.flashOp = 2 then { s1 with flash := Memory.copy s1.flash f s1.mem b.flashDma n }
          else { s1 with flash := Memory.erase s1.flash f n }
        s2.flashEnd 0)

end Sys2Proof.Machine
end

