-- ==== Sys2Proof/Machine/Pair.lean ====
section
/-! DEFINITION. The Dervor link and the redundant pair: frames received (R382 to R384), heartbeats (R385), pairing and readiness
(R386, R387), copies and snapshots on the standby (R388 to R390), switchover (R391 to R395), shadow checks and self-tests
(R396 to R399), link and line faults (R400). -/

namespace Sys2Proof.Machine

/-- `n` big-endian bytes from byte `o` of a payload. -/
def payNat (p : List Byte) (o n : Nat) : Nat := beNat ((p.drop o).take n)
def paySigned (p : List Byte) (o n : Nat) : Int := signed (8 * n) (payNat p o n)

namespace State

/-! ### Reception (R382, R383) -/

/-- A frame received on lane `l`: the state after the checks of R383 and R382, and its payload where it is the first copy of a
frame of TYPE `type`. -/
def dvlReceive (s : State) (l type : Nat) (f : List Byte) : State × Option (List Byte) :=
  let len := payNat f 2 2
  let body := f.take (8 + len)
  if !s.dvlRuns || !bitOf (s.get pgDVL DVL.CFG.LANE_EN) l then (s, none)
  else if f.length ≠ 12 + len ∨ 1040 < len ∨ payNat f (8 + len) 4 ≠ (crc32c 0xFFFFFFFF#32 body).toNat then
    ((s.incSat pgDVL (if l = 0 then DVL.CRC_ERRS.LANE0 else DVL.CRC_ERRS.LANE1)).setFault pgDVL 18, none)
  else
    let seq := payNat f 4 4
    let back := (s.pair.seen.headD seq + 4294967296 - seq) % 4294967296
    if s.pair.seen.contains seq then
      ((s.setPair { s.pair with laneAt := Store.set none s.pair.laneAt l (some s.clk.ref) }).incMod pgDVL DVL.DUP_DISC, none)
    else if decide (1024 ≤ back) && decide (back < 2147483648) then (s, none)
    else
      let s1 := (s.setPair { s.pair with
        seen := (seq :: s.pair.seen).take 1024, laneAt := Store.set none s.pair.laneAt l (some s.clk.ref) }).incMod pgDVL
        DVL.RX_FRAMES
      (s1, if (f.headD 0).toNat = type then some (body.drop 8) else none)

/-- The payload of an accepted frame of TYPE `type` is taken by `g`. -/
def onFrame (s : State) (l type : Nat) (f : List Byte) (g : List Byte → State → State) : State :=
  match s.dvlReceive l type f with
  | (s1, some p) => g p s1
  | (s1, none) => s1

/-! ### Line and link faults (R400) -/

/-- LINE with code 0x209, once while the bit stands. -/
def lineFault (s : State) (p0 : Nat) : State :=
  if s.on pgPAIR PAIR.FAULT.LINE then s else (s.setFault pgPAIR 24).raise pgPAIR 0x209 0 [p0]

/-- The duty loses its partner: PARTNER_LOST, Seeking; a handover in progress ends (R400). -/
def partnerLost (s : State) : State :=
  let s1 := if s.on pgPAIR PAIR.STATUS.HANDOVER then
      ((((s.put pgPAIR PAIR.STATUS.HANDOVER 0).put pgPAIR PAIR.CMD_STATUS.BUSY 0).put pgPAIR PAIR.CMD_STATUS.RESULT 2).raise
        pgPAIR 0x206 2 [s.pair.hoCause, 2]).setPair { s.pair with hoCause := 0 }
    else s
  (((s1.put pgPAIR PAIR.STATUS.READY 0).cond pgPAIR 16 true).setFault pgPAIR 16).setPairState 2

/-! ### Claims (R379, R391) -/

/-- DUTY_OUT is asserted; DUTY_IN is read 20 µs later. -/
def claimNow (s : State) (kind cause : Nat) : State :=
  (s.put pgPAIR PAIR.STATUS.DUTY_OUT 1).setPair { s.pair with claim := kind, cause := cause, waiting := false, claimAt := s.clk.ref }

/-- Heartbeats are lost and DUTY_IN is released: the standby claims, into Stop where the two came more than 5 ms apart
(R391, R400). -/
def dutyStopped (s : State) : State :=
  if s.role = 2 ∧ s.pair.claim = 0 ∧ s.on pgDVL DVL.STATUS.HB_OK = false ∧ s.on pgPAIR PAIR.STATUS.DUTY_IN = false
      ∧ s.inSequence = false then
    let a := s.pair.lostAt
    let b := s.pair.freeAt
    let late := decide (500000 < (max a b) - (min a b))
    (s.setPair { s.pair with unready := s.pair.unready || late }).claimNow 2 1
  else s

/-- What an axis does on the new duty from the last snapshot (R393, R395). -/
def axResume (s : State) (n : Nat) : State :=
  let pg := pgAX n
  let (st, homed, rest, neg) := Store.get (0, false, true, false) s.pair.axSnap n
  if st = 0 ∨ s.axState n ≠ 0 ∨ s.mayDrive pg = false ∨ s.active pg = false ∨ s.on pg HDR.CTRL.RUN = false then s
  else if st = 8 then s.axSetState n 8
  else
    let r := s.axRt n
    let s1 := (s.setAxRt n { r with coils := 1, v := 0, plan := 0, home := 0 }).putB pg AX.STATUS.HOMED (homed && rest)
    if st = 2 ∨ st = 4 then s1.axMove n r.prof r.tgt st
    else if st = 3 then (s1.setAxRt n { s1.axRt n with plan := 2, vneg := neg }).axGo n 3
    else if st = 5 then
      let x := s1.axBell n
      let path := if r.gnum = 0 then r.ba else r.ba + (r.p / 4294967296 - r.pa) * (r.gden : Int) / r.gnum
      (s1.setAxRt n { s1.axRt n with glast := x, gtop := max r.ba x, gpath := path }).axGo n 5
    else s1.axSetState n 1

/-- The claim has been checked: this module is duty (R379, R393). -/
def claimWon (s : State) : State :=
  let cause := s.pair.cause
  if s.pair.claim = 1 then
    let s1 := s.setRole 1 1
    ((s1.setPair { s1.pair with claim := 0, dutyAt := s1.clk.ref, rotSeen := false, rotAt := none }).outputsFollow).becameDuty
  else
    let s1 := s.takeDuty cause
    let s2 := if s1.seq.running then (forEach (List.range 8) (fun u n => u.axResume n) s1).axesStart else s1
    let s3 := if s2.on pgDVL DVL.STATUS.HB_OK then s2 else s2.partnerLost
    (s3.setPair { s3.pair with unready := false }).becameDuty

/-! ### Handover (R392, R398) -/

/-- A handover of cause 3 or 4 is asked for; the Nat is its RESULT where it is refused. -/
def handoverAsk (s : State) (cause : Nat) : State × Nat :=
  let s1 := s.raise pgPAIR 0x206 0 [cause, 0]
  let why := if s.role ≠ 1 then 1
    else if s.paired = false ∨ s.on pgPAIR PAIR.STATUS.READY = false then 2
    else if s.on pgPAIR PAIR.STATUS.HANDOVER then 4 else 0
  if why = 0 then
    ((s1.put pgPAIR PAIR.STATUS.HANDOVER 1).setPair { s1.pair with hoCause := cause, hoAt := s1.e }, 0)
  else (s1.raise pgPAIR 0x206 2 [cause, why], why)

/-- A rotation that is refused is recorded once for each episode (R398). -/
def rotPostponed (s : State) (why : Nat) : State :=
  if s.pair.rotSeen then s
  else (s.raise pgPAIR 0x20B 0 [why]).setPair { s.pair with rotSeen := true }

/-- No instant of a periodic sequence (`base` + i × `period`) lies in [h, h + 200 µs]. -/
def clearOf (h base period : Nat) : Bool :=
  let next := if h ≤ base then base else base + (h - base + period - 1) / period * period
  decide (h + 200000 < next)

/-- `h` is a hand instant (R392). -/
def handOk (s : State) (h : Nat) : Bool :=
  s.redTasks.all (fun k =>
    (match (s.task k).cur with
    | some c => c.done
    | none => true)
    && clearOf h (s.taskP k * 250000) (s.taskT k) && clearOf h (s.taskP k * 250000 + s.taskPub k) (s.taskT k))
  && s.pair.pCommits == s.pair.commits

/-! ### Snapshots (R390) -/

/-- Words 0x0B0 to 0x0EF of a slot. -/
def slotLine (s : State) (n : Nat) : List Byte :=
  (List.range 16).flatMap (fun j => leBytes (s.lw n (0x0B0 + 4 * j)).toNat 4)

/-- A fold record: W, `FOLD_SEL`, 8 bytes of zeros. The order of its fields is the model's own. -/
def foldLine (s : State) (f : Nat) : List Byte :=
  leBytes (s.reg pgLPE LPE.FOLD_W.off f).toNat 4 ++ leBytes (s.reg pgLPE LPE.FOLD_SEL.CASE.off f).toNat 4 ++ List.replicate 8 0

/-- An axis record. The order of its fields is the model's own. -/
def axLine (s : State) (n : Nat) : List Byte :=
  let r := s.axRt n
  let pend := r.gnew.getD (0, 0)
  let flags := s.get (pgAX n) AX.STATUS.HOMED + 2 * b2n r.gwait + 4 * b2n r.gnew.isSome + 8 * b2n (r.plan == 2 && r.vneg)
  leBytes (unsigned 80 r.p) 10 ++ leBytes (unsigned 48 r.tgt) 6 ++ leBytes (unsigned 64 r.v) 8 ++ leBytes (s.axState n) 1
    ++ leBytes flags 1 ++ leBytes (s.get (pgAX n) AX.HOME_INFO.ACK_SEQ) 1 ++ leBytes r.prof 1 ++ leBytes (unsigned 64 r.ba) 8
    ++ leBytes (unsigned 64 r.pa) 8 ++ leBytes (unsigned 32 r.gnum) 4 ++ leBytes r.gden 4 ++ leBytes (unsigned 32 pend.1) 4
    ++ leBytes pend.2 4 ++ leBytes (s.get (pgAX n) AX.GEAR_AT) 4

/-- The data of part `p` of a snapshot. -/
def snapPart (s : State) (p : Nat) : List Byte :=
  if p < 64 then (List.range 16).flatMap (fun j => s.slotLine (16 * p + j))
  else if p < 66 then (List.range 64).flatMap (fun j => s.foldLine (64 * (p - 64) + j))
  else (List.range 8).flatMap (fun n => s.axLine n)

/-- The duty takes a loop snapshot and sends its 67 LOOP frames. -/
def snapSend (s : State) : State :=
  let n := s.pair.snapNo
  let t := s.e / 1000000 * 1000000
  let s1 := forEach (List.range 67) (fun u p =>
    u.dvlSend 3 (beBytes n 4 ++ beBytes p 1 ++ beBytes 67 1 ++ [0, 0] ++ beBytes t 8 ++ s.snapPart p)) s
  s1.setPair { s1.pair with snapNo := (n + 1) % 4294967296 }

/-- A slot state is loaded; the slot's output entry holds the OUT of the snapshot (R381). -/
def slotLoad (s : State) (n : Nat) (b : List Byte) : State :=
  if !s.lEnabled n then s
  else
    let s1 := forEach (List.range 16) (fun u j => u.setLw n (0x0B0 + 4 * j) (BitVec.ofNat 32 (leNat ((b.drop (4 * j)).take 4)))) s
    let g := s1.regionGains n (s1.lRegion n)
    let s2 := s1.setLoopRt n { steps := s1.clk.stnSteps, kp := g.1, kd := g.2.2, tf := s1.lw n 0x050, ran := true }
    match s2.lBind n 0x014 with
    | some i => if s2.lFoldEn n then s2 else s2.imgWriteWord i (s2.lw n 0x0D8) 0
    | none => s2

def foldLoad (s : State) (f : Nat) (b : List Byte) : State :=
  if !s.foldOn f then s
  else
    let w := BitVec.ofNat 32 (leNat (b.take 4))
    ((s.setReg pgLPE LPE.FOLD_W.off w f).setReg pgLPE LPE.FOLD_SEL.CASE.off (BitVec.ofNat 32 (leNat ((b.drop 4).take 4))) f).imgWriteWord
      (s.foldEntry f) w 0

/-- An axis record is loaded: the axis stays Disabled here (R381). -/
def axLoad (s : State) (n : Nat) (b : List Byte) : State :=
  let num (o k : Nat) : Nat := leNat ((b.drop o).take k)
  let sig (o k : Nat) : Int := signed (8 * k) (num o k)
  let flags := num 25 1
  let r := s.axRt n
  let s1 := s.setAxRt n { r with
    p := sig 0 10, tgt := sig 10 6, prof := num 27 1 % 8, ba := sig 28 8, pa := sig 36 8, gnum := sig 44 4
    gden := max 1 (num 48 4), gwait := bitOf flags 1, gnew := if bitOf flags 2 then some (sig 52 4, num 56 4) else none }
  let s2 := ((s1.axPutPair n AX.POS_LO AX.POS_HI (sig 0 10 / 4294967296)).axPutPair n AX.TGT_LO AX.TGT_HI (sig 10 6)).put (pgAX n)
    AX.HOME_INFO.ACK_SEQ (num 26 1)
  let s3 := s2.put (pgAX n) AX.GEAR_AT (num 60 4)
  let e := (num 24 1, bitOf flags 0, sig 16 8 == 0, bitOf flags 3)
  s3.setPair { s3.pair with axSnap := Store.set (0, false, true, false) s3.pair.axSnap n e }

/-- A complete snapshot of instant `t` is loaded. -/
def snapLoad (s : State) (t : Nat) (parts : List (Nat × List Byte)) : State :=
  let s1 := parts.foldl (fun (u : State) e =>
    if e.1 < 64 then forEach (List.range 16) (fun v j => v.slotLoad (16 * e.1 + j) ((e.2.drop (64 * j)).take 64)) u
    else if e.1 < 66 then forEach (List.range 64) (fun v j => v.foldLoad (64 * (e.1 - 64) + j) ((e.2.drop (16 * j)).take 16)) u
    else forEach (List.range 8) (fun v n => v.axLoad n ((e.2.drop (64 * n)).take 64)) u) s
  s1.setPair { s1.pair with snapAt := t + 1, parts := [], oldSnap := decide (t + 2000000 < s1.e) }

/-! ### Freshness (R387) -/

/-- Conditions 2 and 3 by age. -/
def freshness (s : State) : State :=
  s.setPair { s.pair with
    oldCopy := s.redTasks.any (fun k =>
      let c := Store.get {} s.pair.copied k
      c.pubT == 0 || decide (c.pubT + 2 * s.taskT k + 1000000 < s.e))
    oldSnap := s.pair.snapAt != 0 && decide (s.pair.snapAt - 1 + 2000000 < s.e) }

/-- READY follows the conditions as they stand now. -/
def readyNow (s : State) : State := if s.role = 2 then s.freshness.readyRefresh else s

/-- The standby asks for the full copies of the tasks of `mask` (R387, R388). The spec names no frame for the request. -/
def askFull (s : State) (mask : Nat) : State :=
  let s1 := s.dvlSend 7 (beBytes s.pair.tag 2 ++ [0, 0] ++ beBytes 0 8 ++ beBytes mask 4)
  s1.setPair { s1.pair with tag := (s1.pair.tag + 1) % 65536, full := s1.pair.full.filter (fun k => !bitOf mask k) }

/-- Redundant tasks without a full copy, a bit each. -/
def noFull (s : State) : Nat :=
  ((s.redTasks.filter (fun k => !s.pair.full.contains k)).map (fun k => 2 ^ k)).foldl (· + ·) 0

def redMask (s : State) : Nat := (s.redTasks.map (fun k => 2 ^ k)).foldl (· + ·) 0

/-! ### Shadow checks (R396, R397) -/

/-- The standby asks for task `k`: the first cycle whose freeze lies at least 2 ms ahead. -/
def shadowAsk (s : State) (k : Nat) : State :=
  let t := s.e + 2000000
  let base := s.taskP k * 250000
  let m := if t ≤ base then 0 else (t - base + s.taskT k - 1) / s.taskT k
  s.setPair { s.pair with shTask := k, shCycle := cycleNo m, shDigest := none, shPair := none, shFrozen := [] }

/-- The redundant task after `k` in ascending order, the first one after the last. -/
def shadowAfter (s : State) (k : Nat) : Option Nat :=
  match s.redTasks.find? (fun j => decide (k < j)) with
  | some j => some j
  | none => s.redTasks.head?

def shadowOff (s : State) : State :=
  s.setPair { s.pair with shTask := 255, shSkips := 0, shDigest := none, shPair := none, shFrozen := [] }

/-- The next task's check. -/
def shadowNext (s : State) : State :=
  match s.shadowAfter s.pair.shTask with
  | some k => (s.setPair { s.pair with shSkips := 0 }).shadowAsk k
  | none => s.shadowOff

/-- Checks run on a paired standby while SHADOW_EN and BUILT are 1. -/
def shadowRuns (s : State) : Bool :=
  s.role == 2 && s.paired && s.on pgPAIR PAIR.CFG.SHADOW_EN && s.on pgPLACE PLACE.DET.BUILT

/-- A cycle that cannot be checked is skipped; after 8 in a row the next task is asked for. -/
def shadowSkip (s : State) : State :=
  let s1 := s.incMod pgPAIR PAIR.SHADOW_SKIP
  let n := s.pair.shSkips + 1
  if 8 ≤ n then s1.shadowNext else (s1.setPair { s1.pair with shSkips := n }).shadowAsk s.pair.shTask

/-- A committed cycle of task `k` against the cycle asked for; `prev` is the cycle committed before it. -/
def shadowSee (s : State) (k cycle digest : Nat) (ok : Bool) (prev : Option Nat) (frozen : List (Nat × List Byte)) : State :=
  if s.shadowRuns = false ∨ s.pair.shTask ≠ k ∨ s.pair.shDigest.isSome = true then s
  else
    let ahead := (cycle + 4294967296 - s.pair.shCycle) % 4294967296
    if ahead = 0 then
      (if ok && prev == some ((cycle + 4294967295) % 4294967296) then
        s.setPair { s.pair with shDigest := some digest, shFrozen := frozen }
      else s.shadowSkip)
    else if ahead < 2147483648 then s.shadowSkip
    else s

/-- The result of a check in SHADOW_STAT and SHADOW_CYCLE. -/
def shadowShow (s : State) (result p : Nat) : State :=
  (((s.put pgPAIR PAIR.SHADOW_STAT.TASK s.pair.shTask).put pgPAIR PAIR.SHADOW_STAT.RESULT result).put pgPAIR
    PAIR.SHADOW_STAT.PAIR p).put pgPAIR PAIR.SHADOW_CYCLE s.pair.shCycle

/-- The state of the standby is suspect (R397). -/
def shadowState (s : State) (p : Nat) : State :=
  let k := s.pair.shTask
  let s1 := ((s.shadowShow 4 p).setFault pgPAIR 21).raise pgPAIR 0x207 2 [k, s.pair.shCycle, p]
  (s1.askFull (2 ^ k)).readyNow.shadowNext

/-! ### Copies (R388) -/

/-- The 64 bytes of a station page's line (R321). -/
def stnLoad (s : State) (a : Nat) (b : List Byte) : State :=
  let num (o k : Nat) : Nat := leNat ((b.drop o).take k)
  let pg := pgSTN a
  let flags := num 3 1
  let s1 := (((((((((s.stnShow a (num 0 1)).put pg STN.STATUS.ST_STATE (num 0 1)).setStnGen a (num 1 1)).put pg STN.NEG.VER (num 2 1)).putB pg
    STN.STATUS.METHOD (bitOf flags 0)).putB pg STN.STATUS.SAFE_CODE (bitOf flags 1)).put pg STN.ST_MAC_LO (num 12 4)).put pg
    STN.ST_MAC_HI.MAC_HI (num 16 2)).put pg STN.STATUS.MISS_RUN (num 18 2)).put pg STN.SLOT.D_SLOT (num 24 4)
  s1.setStnRt a { s1.stnRt a with
    mac := s1.stnMac a, cfg := if s1.stnBound a then s1.stnKey a else (s1.stnRt a).cfg
    seed := num 4 4, first := num 8 4, confirmed := bitOf flags 2, acc := if bitOf flags 3 then some (num 20 4, bitOf flags 4) else none
    cmd := bitOf flags 5, goodRun := num 28 4, readGen := num 32 4 }

/-- A copied cell of task `k`: a FAST cell's base gives the count that the duty's task last saw (R381). -/
def cellLoad (s : State) (k c : Nat) (b : List Byte) : State :=
  if s.cellType c = 0 ∨ s.cellTask c ≠ k then s
  else
    let w (j : Nat) : Nat := leNat ((b.drop (4 * j)).take 4)
    let ws : List Word := (List.range 8).map (fun j => BitVec.ofNat 32 (w j))
    if s.cellType c = 7 then
      let own := s.cell64 c 4
      let seen := (w 2 + w 3 * 4294967296) + 18446744073709551616 - (w 6 + w 7 * 4294967296)
      let s1 := s.setCellWords c ws
      (((s1.setCell64 c 4 own).setCell64 c 2 own).setCell64 c 6 ((own + 2 * 18446744073709551616 - seen) % 18446744073709551616)).cellKeep
        c
    else (s.setCellWords c ws).cellKeep c

/-- One copied line of task `k`. -/
def lineLoad (s : State) (k region line : Nat) (b : List Byte) : State :=
  match region with
  | 0 | 1 => s.areaWrite region k line b
  | 2 => forEach ((List.range 16).filter (fun j =>
        s.dirType (16 * line + j) != 0 && s.dirProdKind (16 * line + j) == 3 && s.dirProdId (16 * line + j) == k))
      (fun u j => u.setDirW (16 * line + j) 3 (putBits (leNat ((b.drop (4 * j)).take 4)) 7 6 (bits (u.dirW (16 * line + j) 3) 7 6))) s
  | 3 => (s.cellLoad k (2 * line) (b.take 32)).cellLoad k (2 * line + 1) (b.drop 32)
  | 4 => if line < 250 then s.stnLoad line b else s
  | _ => s

/-- COPY (R384): its lines are held until their COMMIT. -/
def copyTake (p : List Byte) (s : State) : State :=
  let k := payNat p 0 1
  let region := payNat p 1 1
  let cycle := payNat p 4 4
  let base := payNat p 8 4
  let dirty := (List.range 16).filter (fun j => bitOf (payNat p 12 2) j)
  if s.role ≠ 2 ∨ 32 ≤ k ∨ 6 ≤ region ∨ p.length ≠ 14 + 64 * dirty.length then s
  else
    let new := (List.zip (List.range dirty.length) dirty).map (fun e =>
      (k, cycle, region, base + e.2, (p.drop (14 + 64 * e.1)).take 64))
    let n := ((s.pair.frames.find? (fun e => e.1 == k && e.2.1 == cycle)).map (fun e => e.2.2)).getD 0
    s.setPair { s.pair with
      lines := s.pair.lines ++ new
      frames := s.pair.frames.filter (fun e => e.1 != k || e.2.1 != cycle) ++ [(k, cycle, n + 1)] }

/-- COMMIT (R388): every copied line of the cycle is applied in one step, or the cycle is discarded. -/
def commitTake (p : List Byte) (s : State) : State :=
  let k := payNat p 0 1
  let flags := payNat p 1 1
  let cycle := payNat p 4 4
  let digest := payNat p 36 8
  if s.role ≠ 2 ∨ 32 ≤ k ∨ p.length ≠ 44 then s
  else
    let mine := s.pair.lines.filter (fun e => e.1 == k && e.2.1 == cycle)
    let got := ((s.pair.frames.find? (fun e => e.1 == k && e.2.1 == cycle)).map (fun e => e.2.2)).getD 0
    let had := s.pair.copied.any (fun e => e.1 == k)
    let prev := if had then some (Store.get {} s.pair.copied k).cycle else none
    let s1 := s.setPair { s.pair with
      commits := (s.pair.commits + 1) % 4294967296
      lines := s.pair.lines.filter (fun e => e.1 != k), frames := s.pair.frames.filter (fun e => e.1 != k) }
    if got ≠ payNat p 8 4 then
      (((s1.setFault pgDVL 19).raise pgDVL 0x20F 0 [k, cycle]).askFull (2 ^ k)).readyNow
    else
      let s2 := mine.foldl (fun (u : State) e => u.lineLoad k e.2.2.1 e.2.2.2.1 e.2.2.2.2) s1
      let s3 := s2.setPair { s2.pair with
        copied := Store.set {} s2.pair.copied k { cycle := cycle, tau := payNat p 12 8, held := paySigned p 20 8, pubT := payNat p 28 8, digest := digest, eligible := bitOf flags 0 }
        full := if bitOf flags 1 then insNum k s2.pair.full else s2.pair.full }
      let frozen := (mine.filter (fun e => e.2.2.1 == 5)).map (fun e => (e.2.2.2.1, e.2.2.2.2))
      (s3.shadowSee k cycle digest (bitOf flags 0 && bitOf flags 2) prev frozen).readyNow

/-- LOOP (R390): the parts of a snapshot are gathered. -/
def loopTake (p : List Byte) (s : State) : State :=
  let n := payNat p 0 4
  let part := payNat p 4 1
  let t := payNat p 8 8
  let size := if part < 66 then 1024 else 512
  if s.role ≠ 2 ∨ 67 ≤ part ∨ p.length ≠ 16 + size then s
  else
    let old := if s.pair.snapIn = n ∧ s.pair.snapT = t then s.pair.parts else []
    let parts := old.filter (fun e => e.1 != part) ++ [(part, p.drop 16)]
    if parts.length = 67 then ((s.setPair { s.pair with snapIn := n, snapT := t }).snapLoad t parts).readyNow
    else s.setPair { s.pair with snapIn := n, snapT := t, parts := parts }

/-! ### Heartbeats (R385) -/

/-- The standby takes the duty's mode and HOLD_MASK (R381). -/
def followMode (s : State) (mode mask : Nat) : State :=
  if s.role ≠ 2 ∨ s.pair.claim ≠ 0 ∨ s.pageOn pgSEQ = false ∨ s.isFenced pgSEQ = true then s
  else
    let run := mode == 3 || mode == 4 || mode == 6
    let s1 := s.seqRunning run
    let s2 := ((s1.putB pgSEQ HDR.CTRL.RUN run).putB pgSEQ HDR.CTRL.HOLD (mode == 4)).put pgSEQ SEQ.HOLD_MASK mask
    s2.seqRefresh

/-- The offset and the delay of R385. Without a heartbeat of our own that the partner has received there is none. -/
def offsets (s : State) (t1 t2 t3 t4 : Nat) : State :=
  if t1 = 0 then s
  else
    let ofs := (((t2 : Int) - t1) + ((t3 : Int) - t4)) / 2
    let delay := (((t4 : Int) - t1) - ((t3 : Int) - t2)) / 2
    let u := unsigned 64 ofs
    let s1 := ((s.put pgDVL DVL.PEER_OFS_LO u).put pgDVL DVL.PEER_OFS_HI (u / 4294967296)).put pgDVL DVL.LINK_DELAY
      (unsigned 32 delay)
    let bad := decide (s.get pgPAIR PAIR.OFS_MAX < ofs.natAbs)
    let s2 := if bad then s1 else s1.cond pgPAIR 19 false
    s2.setPair { s2.pair with
      ofsBad := bad, ofsAt := if bad then (if s.pair.ofsBad then s.pair.ofsAt else s.clk.ref + 1) else 0 }

/-- Both modules report duty: slot B gives way (R400). -/
def bothDuty (s : State) : State :=
  let s1 := (s.setFault pgPAIR 25).raise pgPAIR 0x20A 1
  if s.slotB then
    let s2 := ((s1.put pgPAIR PAIR.STATUS.DUTY_OUT 0).put pgPAIR PAIR.STATUS.READY 0).setRole 2 4
    let s3 := (forEach allTasks (fun u k => u.abandon k) (if s2.paired then s2.setPairState 6 else s2)).dropCopies []
    (s3.xchgDisturb.outputsFollow).askFull s.redMask
  else s1

/-- What a heartbeat says of the partner's readiness, on the duty (R403). -/
def partnerReady (s : State) (ready : Bool) : State :=
  if s.role = 1 ∧ s.paired = true then
    let s1 := s.putB pgPAIR PAIR.STATUS.READY ready
    let s2 := if ready then s1.setPairState 5 else if s1.pairState = 5 then s1.setPairState 6 else s1
    if ready && s2.activeClass 3 then s2.yieldDuty else s2
  else s

/-- A module with role none whose partner is duty becomes standby (R379, R386), without a copy; SUP's automatic
run is dropped (R103). -/
def joinAsStandby (s : State) : State :=
  let s1 := (s.setRole 2 5).dropCopies []
  let s2 := s1.setPair { s1.pair with waiting := false }
  { s2 with seq := { s2.seq with touched := true } }

/-- HEARTBEAT (R384, R385, R400). -/
def beatTake (mask : Nat) (p : List Byte) (s : State) : State :=
  if p.length ≠ 48 then s
  else
    let role := payNat p 0 1
    let flags := payNat p 3 1
    let t3 := payNat p 8 8
    let s1 := s.setPair { s.pair with
      pRole := role, pState := payNat p 1 1, pMode := payNat p 2 1, pFlags := flags, pShTask := payNat p 4 1
      pTx := t3, pRx := s.e, pLastPub := payNat p 32 8, pShCycle := payNat p 40 4, pCommits := payNat p 44 4, lostAt := 0
      rxAt := s.clk.ref }
    let s2 := if s1.on pgDVL DVL.STATUS.HB_OK then s1
      else (s1.put pgDVL DVL.STATUS.HB_OK 1).raise pgDVL 0x204 1
    let s3 := s2.offsets (payNat p 16 8) (payNat p 24 8) t3 s.e
    let s4 := if s3.role = 0 ∧ s3.paired = true ∧ role = 1 ∧ s3.pair.claim = 0 then
        s3.joinAsStandby
      else s3
    let s5 := if s4.role = 1 ∧ role = 1 ∧ s4.pairSlot = true then s4.bothDuty else s4
    let s6 := if s5.role = 2 ∧ role ≠ 1 ∧ s5.on pgPAIR PAIR.STATUS.DUTY_IN = true then s5.lineFault 0 else s5
    let s7 := if role = 1 then s6.followMode (payNat p 2 1) mask else s6
    ((s7.partnerReady (bitOf flags 0 && role == 2)).readyNow)

/-! ### Pairing (R386) -/

def ownHash (s : State) : Nat :=
  match Store.get none s.seq.images (s.get pgSUP SUP.IMAGE_STATUS.ACTIVE_SLOT) with
  | some im => im.hash.toNat
  | none => 0

def ownFw (s : State) : Nat := (Config.fwVersion (s.get pgSUP SUP.RESET_CAUSE.FW_SLOT)).toNat

/-- A PAIRING frame leaves. -/
def pairSend (s : State) : State :=
  s.dvlSend 5 (beBytes (s.get pgDVL DVL.PROTO.VER_MIN) 1 ++ beBytes (s.get pgDVL DVL.PROTO.VER_MAX) 1
    ++ beBytes (s.get pgSUP SUP.SLOT_ID.POSITION) 1 ++ beBytes (s.get pgPAIR PAIR.PAIR_INFO.REFUSAL) 1 ++ beBytes s.ownFw 4
    ++ beBytes (Config.serialHi.toNat * 4294967296 + Config.serialLo.toNat) 8 ++ beBytes Config.capDigest.toNat 32
    ++ beBytes s.ownHash 32)

/-- The modules are paired: the standby, if one is duty, starts without a copy, and the duty sends the full copies (R386, R387). -/
def pairNow (s : State) : State :=
  let s1 := ((s.setPairState 4).cond pgPAIR 16 false).setPair { s.pair with commits := 0, pairedAt := s.clk.ref }
  let s2 := s1.put pgPAIR PAIR.STATUS.READY 0
  if s2.role = 1 then s2.sendFullAll
  else if s2.pair.pRole = 1 ∧ s2.pair.claim = 0 then
    s2.joinAsStandby
  else s2.dropCopies []

/-- PAIRING: the checks of R386; `carrier` is the partner's carrier code. -/
def pairTake (carrier : Nat) (p : List Byte) (s : State) : State :=
  if p.length ≠ 80 then s
  else
    let lo := max (payNat p 0 1) (s.get pgDVL DVL.PROTO.VER_MIN)
    let hi := min (payNat p 1 1) (s.get pgDVL DVL.PROTO.VER_MAX)
    let pos := payNat p 2 1
    let result := payNat p 3 1
    let fw := payNat p 4 4
    let mine := s.get pgSUP SUP.SLOT_ID.POSITION
    let why := if hi < lo then 1 else if payNat p 48 32 ≠ s.ownHash then 2
      else if pos = mine ∨ pos = 2 ∨ mine = 2 then 3 else if carrier ≠ s.get pgSUP SUP.SLOT_ID.CARRIER then 4 else 0
    let s1 := ((((s.setPair { s.pair with pResult := some result }).put pgPAIR PAIR.PAIR_INFO.PARTNER_POS pos).put pgPAIR
      PAIR.PARTNER_FW fw).put pgPAIR PAIR.PARTNER_SERIAL_LO (payNat p 12 4)).put pgPAIR PAIR.PARTNER_SERIAL_HI (payNat p 8 4)
    let s2 := if why = 1 then s1 else s1.put pgPAIR PAIR.PAIR_INFO.PROTO hi
    let fwDiff := fw != s.ownFw
    let capDiff := payNat p 16 32 != Config.capDigest.toNat
    let s3 := if fwDiff && !s2.on pgPAIR PAIR.STATUS.FW_DIFF then s2.raise pgPAIR 0x210 0 [fw] else s2
    let s4 := if capDiff && !s3.on pgPAIR PAIR.STATUS.CAP_DIFF then s3.raise pgPAIR 0x210 1 [fw] else s3
    let s5 := (s4.putB pgPAIR PAIR.STATUS.FW_DIFF fwDiff).putB pgPAIR PAIR.STATUS.CAP_DIFF capDiff
    let old := s.get pgPAIR PAIR.PAIR_INFO.REFUSAL
    let open_ := s.pairState == 2 || s.pairState == 3
    if why ≠ 0 then
      (if open_ then
        let s6 := ((s5.put pgPAIR PAIR.PAIR_INFO.REFUSAL why).setFault pgPAIR 23).setPairState 3
        if old = why then s6 else s6.raise pgPAIR 0x202 0 [why]
      else s5)
    else
      let s6 := s5.put pgPAIR PAIR.PAIR_INFO.REFUSAL 0
      if open_ then (if result = 0 then s6.pairNow else s6.setPairState 2)
      else if s6.paired then s6.pairSend else s6

end State

/-! ### The commands -/

/-- CLAIM_WAIT (R379): slot B has waited CLAIM_WAIT; DUTY_IN is still released and it has not become standby. -/
def execClaimWait (s : State) : Out :=
  .next (if s.pair.waiting && decide (s.clk.ref < s.pair.waitAt + s.get pgPAIR PAIR.CFG.CLAIM_WAIT * 10000000) then s
    else if s.pair.waiting && s.role == 0 && !s.on pgPAIR PAIR.STATUS.DUTY_IN && !s.inSequence then s.claimNow 1 0
    else s.setPair { s.pair with waiting := false })

/-- CLAIM_CHECK (R379): 20 µs after DUTY_OUT was asserted. -/
def execClaimCheck (s : State) : Out :=
  .next (if s.pair.claim = 0 ∨ s.on pgPAIR PAIR.STATUS.DUTY_OUT = false ∨ s.inSequence = true ∨ s.clk.ref < s.pair.claimAt + 2000 then s
    else if s.on pgPAIR PAIR.STATUS.DUTY_IN && !s.on pgPAIR PAIR.STATUS.TAKE_IN then
      let b := s.slotB
      let s1 := s.raise pgPAIR 0x20A 0 [b2n b]
      if b then
        let s2 := (s1.put pgPAIR PAIR.STATUS.DUTY_OUT 0).setRole 0 4
        s2.setPair { s2.pair with claim := 0, cause := 0, unready := false }
      else s1.claimWon
    else s.claimWon)

/-- HEARTBEAT_SEND (R385): every 100 µs in every pair state except Off and Single. The standby asks for its next shadow check
through it (R396). -/
def execHeartbeatSend (s : State) : Out :=
  .next (if s.pairState ≤ 1 ∨ s.dvlRuns = false ∨ s.pair.hbAt.all (fun t => decide (t + 9900 ≤ s.clk.ref)) = false then s
    else
      let s1 := if !s.shadowRuns then (if s.pair.shTask = 255 then s else s.shadowOff)
        else if s.pair.shTask = 255 then s.shadowNext else s
      let last := s1.redTasks.foldl (fun acc k => max acc ((s1.task k).pubAt - 1)) 0
      let flags := s1.get pgPAIR PAIR.STATUS.READY + 2 * s1.get pgPAIR PAIR.STATUS.YIELD_OUT
        + 4 * s1.get pgPAIR PAIR.STATUS.DUTY_IN + 8 * s1.get pgPAIR PAIR.STATUS.TAKE_IN
      let s2 := s1.dvlSend 4 (beBytes s1.role 1 ++ beBytes s1.pairState 1 ++ beBytes (s1.st pgSEQ) 1 ++ beBytes flags 1
        ++ beBytes s1.pair.shTask 1 ++ [0, 0, 0] ++ beBytes s1.e 8 ++ beBytes s1.pair.pTx 8 ++ beBytes s1.pair.pRx 8
        ++ beBytes last 8 ++ beBytes s1.pair.shCycle 4 ++ beBytes s1.pair.commits 4)
      s2.setPair { s2.pair with myTx := s1.e, hbAt := some s1.clk.ref })

/-- HEARTBEAT (R385): a frame received on lane `l`. `mask` is the duty's HOLD_MASK, for which R384 names no field. -/
def execHeartbeat (l : Fin 2) (f : List Byte) (mask : BitVec 32) (s : State) : Out :=
  .next (s.onFrame l.val 4 f (State.beatTake mask.toNat))

/-- HEARTBEAT_LOSS (R385, R391, R400): none has arrived for HB_MISS × 100 µs + 50 µs. -/
def execHeartbeatLoss (s : State) : Out :=
  .next (if !s.on pgDVL DVL.STATUS.HB_OK || decide (s.clk.ref < s.pair.rxAt + s.get pgDVL DVL.CFG.HB_MISS * 10000 + 5000) then s
    else
      let first := s.on pgPAIR PAIR.STATUS.DUTY_IN
      let s1 := (s.put pgDVL DVL.STATUS.HB_OK 0).raise pgDVL 0x204 0
      let s2 := s1.setPair { s1.pair with
        lostAt := s.clk.ref + 1, unready := if first then !s.on pgPAIR PAIR.STATUS.READY else s.pair.unready }
      if s2.role = 2 then s2.readyNow.dutyStopped
      else if s2.paired then s2.partnerLost
      else s2)

/-- LANE_CHANGE (R382): lane `l` goes up, with a valid frame of the last 300 µs, or down. -/
def execLaneChange (l : Fin 2) (up : Bool) (s : State) : Out :=
  let bit := if l.val = 0 then DVL.STATUS.LANE0_UP else DVL.STATUS.LANE1_UP
  let fresh := (Store.get none s.pair.laneAt l.val).any (fun t => decide (s.clk.ref ≤ t + 30000))
  .next (if !s.dvlRuns || s.on pgDVL bit == up || (up && !fresh) then s
    else
      let s1 := (s.putB pgDVL bit up).raise pgDVL 0x203 (b2n up) [l.val]
      let used := (List.range 2).filter (fun j => bitOf (s.get pgDVL DVL.CFG.LANE_EN) j)
      let isUp (j : Nat) : Bool := s1.on pgDVL (if j = 0 then DVL.STATUS.LANE0_UP else DVL.STATUS.LANE1_UP)
      let any := used.any isUp
      let one := any && used.any (fun j => !isUp j)
      let s2 := ((s1.putB pgDVL DVL.STATUS.LINK_OK any).cond pgDVL 17 one).cond pgDVL 16 (!any)
      let s3 := if up then s2 else if any then s2.setFault pgDVL 17 else
        (s2.setFault pgDVL 16).setPair { s2.pair with seen := [] }
      s3.readyNow)

/-- PAIRING_SEND (R386): every 10 ms while Seeking or Refused. -/
def execPairingSend (s : State) : Out :=
  .next (if (s.pairState == 2 || s.pairState == 3) && s.pair.pairingAt.all (fun t => decide (t + 1000000 ≤ s.clk.ref)) then
      s.pairSend.setPair { s.pairSend.pair with pairingAt := some s.clk.ref }
    else s)

/-- PAIRING (R386): a frame received on lane `l`; `carrier` is the partner's carrier code, for which R384 names no field. -/
def execPairing (l : Fin 2) (f : List Byte) (carrier : Fin 8) (s : State) : Out :=
  .next (s.onFrame l.val 5 f (State.pairTake carrier.val))

/-- COMMIT (R388): a frame received on lane `l`. -/
def execCommit (l : Fin 2) (f : List Byte) (s : State) : Out := .next (s.onFrame l.val 2 f State.commitTake)

/-- COPY_FRAME (R384): a frame received on lane `l`. -/
def execCopyFrame (l : Fin 2) (f : List Byte) (s : State) : Out := .next (s.onFrame l.val 1 f State.copyTake)

/-- LOOP_SNAPSHOT (R390): a 1 ms boundary of station time on a paired duty. -/
def execLoopSnapshot (s : State) : Out :=
  let t := s.e / 1000000 * 1000000
  .next (if s.role == 1 && s.paired && s.dvlRuns && decide (s.e < t + 60000) && s.pair.snapSent != some t then
      s.snapSend.setPair { s.snapSend.pair with snapSent := some t }
    else s)

/-- LOOP (R390): a frame received on lane `l`. -/
def execLoop (l : Fin 2) (f : List Byte) (s : State) : Out := .next (s.onFrame l.val 3 f State.loopTake)

/-- HANDOVER (R392): a frame received on lane `l`: the cause of the switchover that TAKE_IN begins, or a refusal. -/
def execHandover (l : Fin 2) (f : List Byte) (s : State) : Out :=
  .next (s.onFrame l.val 6 f (fun p s =>
    if s.role ≠ 2 ∨ p.length ≠ 16 then s
    else s.setPair { s.pair with hoCause := if payNat p 1 1 = 0 then payNat p 0 1 else 0 }))

/-- PARTNER_DUTY_RELEASED (R391, R400): PARTNER_DUTY_IN changes. -/
def execPartnerDutyReleased (asserted : Bool) (s : State) : Out :=
  .next (if !s.pd1 || s.on pgPAIR PAIR.STATUS.DUTY_IN == asserted then s
    else
      let s0 := if asserted then s.put pgPAIR PAIR.STATUS.YIELD_OUT 0 else s
      let s1 := s0.putB pgPAIR PAIR.STATUS.DUTY_IN asserted
      if asserted then s1.setPair { s1.pair with freeAt := 0 }
      else
        let s2 := s1.setPair { s1.pair with
          freeAt := s.clk.ref + 1
          unready := if s.on pgDVL DVL.STATUS.HB_OK then !s.on pgPAIR PAIR.STATUS.READY else s.pair.unready }
        s2.dutyStopped)

/-- TAKE_IN (R391, R392): PARTNER_TAKE_IN changes; where it is asserted the standby claims. -/
def execTakeIn (asserted : Bool) (s : State) : Out :=
  .next (if !s.pd1 then s
    else
      let s0 := if asserted && !s.on pgPAIR PAIR.STATUS.TAKE_IN then s.setPair { s.pair with takeAt := s.clk.ref } else s
      let s1 := s0.putB pgPAIR PAIR.STATUS.TAKE_IN asserted
      if asserted && s1.role == 2 && s1.pair.claim == 0 && !s1.inSequence then
        s1.claimNow 2 (if s1.pair.hoCause = 3 ∨ s1.pair.hoCause = 4 then s1.pair.hoCause else 2)
      else s1)

/-- SWITCH (R392): master `m` writes SWITCH to `PAIR.CMD`. -/
def execSwitch (m : Fin 4) (s : State) : Out :=
  .next (s.actionRes pgPAIR PAIR.CMD.CODE.off m.val PAIR.CMD_STATUS.RESULT 6 (fun s =>
    let r := s.handoverAsk 3
    if r.2 = 0 then (r.1.put pgPAIR PAIR.CMD_STATUS.BUSY 1).put pgPAIR PAIR.CMD_STATUS.RESULT 0
    else r.1.put pgPAIR PAIR.CMD_STATUS.RESULT r.2))

/-- HAND_INSTANT (R392): a 1 ms boundary at least 2 ms after the request; where it is a hand instant the duty gives up. -/
def execHandInstant (s : State) : Out :=
  let h := s.e / 1000000 * 1000000
  .next (if s.role == 1 && s.paired && s.on pgPAIR PAIR.STATUS.HANDOVER && s.on pgPAIR PAIR.STATUS.READY && !s.inSequence
        && decide (s.pair.hoAt + 2000000 ≤ h) && s.e == h && s.handOk h then
      let c := s.pair.hoCause
      let s1 := (s.snapSend).sendHandover c 0 h
      let s2 := (s1.giveDuty c 3 true).raise pgPAIR 0x206 1 [c, 0]
      if c = 3 then (s2.put pgPAIR PAIR.CMD_STATUS.BUSY 0).put pgPAIR PAIR.CMD_STATUS.RESULT 0 else s2
    else s)

/-- HANDOVER_NO_WINDOW (R392): no hand instant within 2 s of the request. -/
def execHandoverNoWindow (s : State) : Out :=
  .next (if s.role == 1 && s.on pgPAIR PAIR.STATUS.HANDOVER && decide (s.pair.hoAt + 2000000000 ≤ s.e) then
      let c := s.pair.hoCause
      let s1 := ((s.put pgPAIR PAIR.STATUS.HANDOVER 0).raise pgPAIR 0x206 2 [c, 3]).setPair { s.pair with hoCause := 0 }
      if c = 3 then (s1.put pgPAIR PAIR.CMD_STATUS.BUSY 0).put pgPAIR PAIR.CMD_STATUS.RESULT 3 else s1.rotPostponed 3
    else s)

/-- YIELD_OUT_RELEASE (R380): DUTY_IN is seen asserted, or 10 ms have passed. -/
def execYieldOutRelease (s : State) : Out :=
  .next (if s.on pgPAIR PAIR.STATUS.DUTY_IN || decide (s.pair.yieldAt + 1000000 ≤ s.clk.ref) then s.put pgPAIR PAIR.STATUS.YIELD_OUT 0
    else s)

/-- RESYNC (R387): master `m` writes RESYNC to `PAIR.CMD`. -/
def execResync (m : Fin 4) (s : State) : Out :=
  .next (s.actionRes pgPAIR PAIR.CMD.CODE.off m.val PAIR.CMD_STATUS.RESULT 6 (fun s =>
    if s.role = 2 then ((s.put pgPAIR PAIR.CMD_STATUS.RESULT 0).askFull s.redMask).readyNow
    else s.put pgPAIR PAIR.CMD_STATUS.RESULT 5))

/-- PAIR_SYNC_TMO (R387): the standby has not become Ready within 10 s of pairing. -/
def execPairSyncTmo (s : State) : Out :=
  .next (if s.role = 2 ∧ s.pairState = 4 ∧ s.pair.pairedAt + 1000000000 ≤ s.clk.ref then
      (((s.setPair { s.pair with pairedAt := s.clk.ref }).setFault pgPAIR 17).raise pgPAIR 0x211 0 [s.noFull]).askFull s.redMask
    else s)

/-- SHADOW_CHECK (R396, R397): the standby has executed the cycle asked for on pair `p`, with the digest `d`. After a mismatch
it is executed again on another healthy pair. -/
def execShadowCheck (p : Fin 4) (d : BitVec 64) (s : State) : Out :=
  let k := s.pair.shTask
  .next (match s.pair.shDigest with
    | none => s
    | some want =>
      if s.shadowRuns = false ∨ s.pair.shPair = some p.val ∨ s.pairHealthy p.val = false then s
      else if d.toNat = want then
        let s1 := s.incMod pgPAIR PAIR.SHADOW_OK
        (match s.pair.shPair with
        | none => (s1.shadowShow 1 p.val).shadowNext
        | some q =>
          (((s1.shadowShow 3 q).setFault pgPAIR 20).raise pgPAIR 0x207 1 [k, s.pair.shCycle, q]).shadowNext)
      else
        let s1 := s.incMod pgPAIR PAIR.SHADOW_BAD
        (match s.pair.shPair with
        | some _ => s1.shadowState p.val
        | none =>
          let s2 := (((s1.shadowShow 2 p.val).event 0x372).raise pgPAIR 0x207 0 [k, s.pair.shCycle, p.val]).setPair
            { s.pair with shPair := some p.val }
          if (List.range 4).any (fun q => q != p.val && s2.pairHealthy q) then s2 else s2.shadowState p.val))

/-- ROTATION (R398): ROT_H hours of duty, or a retry 60 s after a refusal. -/
def execRotation (s : State) : Out :=
  let h := s.get pgPAIR PAIR.CFG.ROT_H
  .next (if s.role == 1 && s.pairSlot && h != 0 && decide (s.pair.dutyAt + h * 360000000000 ≤ s.clk.ref)
        && s.pair.rotAt.all (fun t => decide (t + 6000000000 ≤ s.clk.ref)) then
      let r := (s.setPair { s.pair with rotAt := some s.clk.ref }).handoverAsk 4
      if r.2 = 0 then r.1 else r.1.rotPostponed r.2
    else s)

/-- SELFTEST (R399): a run of the standby's tests, PERIOD_S after the one before, ends: the channels that failed items 0 to 2, and the pairs that failed item 3 with
the lowest compare point they missed. -/
def execSelftest (dio : List (Fin 64)) (aout ain : List (Fin 16)) (cores : List (Fin 4 × Fin 4)) (s : State) : Out :=
  let lanes := (List.range 2).filter (fun l => bitOf (s.get pgDVL DVL.CFG.LANE_EN) l
    && !s.on pgDVL (if l = 0 then DVL.STATUS.LANE0_UP else DVL.STATUS.LANE1_UP))
  let fails := dio.map (fun c => (0, c.val)) ++ aout.map (fun c => (1, c.val)) ++ ain.map (fun c => (2, c.val))
    ++ cores.map (fun c => (3, c.1.val)) ++ lanes.map (fun l => (4, l))
  let mask := (List.range 5).foldl (fun acc b => acc + b2n (fails.any (fun e => e.1 == b)) * 2 ^ b) 0
  let period := s.get pgPAIR PAIR.SELFTEST_CFG.PERIOD_S * 100000000
  .next (if s.role = 2 ∧ s.pair.testAt.all (fun t => decide (t + period ≤ s.clk.ref)) = true then
      let s1 := (s.setPair { s.pair with testAt := some s.clk.ref }).put pgPAIR PAIR.SELFTEST.FAILED mask
      let s2 := fails.foldl (fun (u : State) e => (u.setFault pgPAIR 22).raise pgPAIR 0x20D 0 [e.1, e.2]) s1
      cores.foldl (fun (u : State) c => u.lockstepFail c.1.val (0x11 + c.2.val)) s2
    else s)

/-- READY_LOST (R387): the newest copy or snapshot has grown too old, or the offset fault has lasted 100 ms. -/
def execReadyLost (s : State) : Out :=
  .next (if s.role ≠ 2 then s
    else
      let s1 := s.readyNow
      if s1.pair.ofsBad && decide (s1.pair.ofsAt + 10000000 ≤ s1.clk.ref + 1) then
        let ofs := signed 64 (s1.get pgDVL DVL.PEER_OFS_LO + s1.get pgDVL DVL.PEER_OFS_HI * 4294967296)
        ((s1.cond pgPAIR 19 true).setFault pgPAIR 19).raise pgPAIR 0x20E 0
          [unsigned 32 (max (-2147483648) (min 2147483647 ofs))]
      else s1)

/-- PARTNER_LINE_TIMEOUT (R400): the duty line (`take` false) disagrees with the heartbeats for 5 ms, or the take line for
1 ms. -/
def execPartnerLineTimeout (take : Bool) (s : State) : Out :=
  let up := s.on pgDVL DVL.STATUS.LINK_OK && s.on pgDVL DVL.STATUS.HB_OK
  .next (if !up then s
    else if take then
      (if s.role = 2 ∧ s.on pgPAIR PAIR.STATUS.TAKE_IN = true ∧ bitOf s.pair.pFlags 1 = false ∧ s.pair.takeAt + 100000 ≤ s.clk.ref then s.lineFault 1 else s)
    else if s.role = 2 ∧ s.pair.pRole = 1 ∧ s.on pgPAIR PAIR.STATUS.DUTY_IN = false ∧ s.pair.freeAt + 500000 ≤ s.clk.ref + 1 then
      s.lineFault 0
    else if s.role = 1 ∧ s.on pgPAIR PAIR.STATUS.DUTY_OUT = true ∧ bitOf s.pair.pFlags 2 = false then s.setFault pgPAIR 24
    else s)

end Sys2Proof.Machine
end

