-- ==== Sys2Proof/Machine/Fabric.lean ====
section
/-! DEFINITION. The fabric: reads of register pages with their side effects (R6, R63), writes routed to the meaning of the
register (R64 to R75), the physical map of a core pair and its exceptions (R54 to R63), requests over the Dervor link (R384). -/

namespace Sys2Proof.Machine

/-- A master of an access as the commands take it. -/
def masterOf (m : Nat) : Fin 4 := Fin.ofNat 4 m

/-- The region of the map that an address lies in (R54). -/
inductive Region where
  | dram | alias0 | tier0 (n : Nat) | tier1 | retain | config | loops | directory | trace | pages | none
deriving DecidableEq, Repr

def regionOf (a : Nat) : Region :=
  if a < 0x80000000 then .dram
  else if 0x0100000000 ≤ a ∧ a < 0x0100100000 then .alias0
  else if 0x0100100000 ≤ a ∧ a < 0x0100500000 then .tier0 ((a - 0x0100100000) / 0x100000)
  else if 0x0110000000 ≤ a ∧ a < 0x0110800000 then .tier1
  else if 0x0120800000 ≤ a ∧ a < 0x0120C00000 then .retain
  else if 0x0120C00000 ≤ a ∧ a < 0x0121000000 then .config
  else if 0x0130000000 ≤ a ∧ a < 0x0130040000 then .loops
  else if 0x0130100000 ≤ a ∧ a < 0x0130180000 then .directory
  else if 0x0130200000 ≤ a ∧ a < 0x0130300000 then .trace
  else if 0x0140000000 ≤ a ∧ a < 0x0140200000 then .pages
  else .none

namespace State

/-- The state that a command leaves. -/
def after (s : State) (o : Out) : State :=
  match o with
  | .next t => t
  | _ => s

/-! ### Reads -/

/-- The RC fields of a register are cleared: to the value that means none yet (R6). -/
def readClear (s : State) (k : Kind) (i page off : Nat) : State :=
  ((pageRows k i off).filter (fun r => r.acc == Access.rc)).foldl
    (fun (u : State) r => u.put page ⟨off, r.hi, r.lo⟩ r.reset (s.winIdx page off)) s

/-- What a read of a block-specific register does beside giving its value (R6, R423, R445, R453). -/
def readEffect (s : State) (m : Nat) (k : Kind) (i page off : Nat) : State :=
  match k with
  | .time => if off = 0x040 then s.after (execStnNsRead false s) else if off = 0x048 then s.after (execStnNsRead true s)
    else if off = 0x0CC then s.after (execTsW3Read s) else s.readClear k i page off
  | .cal => if off = 0x040 then s.after (execDateRead s) else s.readClear k i page off
  | .tly => if off = 0x044 then s.after (execValueLoRead s) else s.readClear k i page off
  | .rcur => if off = 0x040 then s.after (execWinW0Read (masterOf i) (masterOf m) s)
    else if off = 0x05C then s.after (execWinW7Read (masterOf i) (masterOf m) s) else s.readClear k i page off
  | .diog => if off = 0x058 then s.after (execEdgeW1Read (Fin.ofNat 8 i) s) else s.readClear k i page off
  | .asrc => if off = 0x080 then s.after (execAngleRead (Fin.ofNat 6 i) s) else s.readClear k i page off
  | .dwy => if off = 0x05C ∨ off = 0x060 then s.useFree else s.readClear k i page off
  | _ => s.readClear k i page off

/-- A 32-bit read of a register by master `m`; `own` is the core pair that reads. The data and the state after it. -/
def regRead (s : State) (m : Nat) (own : Option Nat) (page off : Nat) : State × Nat :=
  let v := s.regValue page off
  match pageKind page with
  | none => (s, 0)
  | some (k, i) =>
    if !s.pageOn page || decide (off < 0x040) then (s, v)
    else
      let u := s.readEffect m k i page off
      if k == .cp && off == 0x040 then
        (if own = some i then
          let w := s.eventTake i
          (w, w.bus.data.toNat)
        else (s, 0))
      else (u, v)

/-! ### Writes -/

/-- An action register with a CODE of which only some do something. -/
def codeWrite (s : State) (page off : Nat) (m : Fin 4) (v : Nat) (cmds : List (Nat × (State → Out))) : State :=
  match cmds.find? (fun c => c.1 == v % 4) with
  | some c => s.after (c.2 s)
  | none => s.action page off m.val id

/-- Writes to the registers of SEQ that have a row of their own. -/
def seqPageWrite (s plain : State) (m : Fin 4) (page : Nat) (off v : Nat) : State :=
  if off = 0x048 then s.after (execHoldMask m (BitVec.ofNat 32 v) s)
  else if off = 0x050 then s.after (execStep m (BitVec.ofNat 32 v) s)
  else if off = 0x054 then
    (if !s.servedTo m.val then s
    else if s.owner page != m.val && m.val != 0 then s.refuseOwner page off m.val
    else if !s.pageOn page then s
    else forEach ((List.range 32).filter (fun b => bitOf v b)) (fun u b => u.clearBit (faultKey pgSEQ (32 + b))) s)
  else if off = 0x060 then s.codeWrite page off m v
    [(1, execPrepare m), (2, execApply m (s.pair.lastResponse.any (fun r => r.2.1 == 0))), (3, execCancel m)]
  else plain

/-- Writes to the registers of PLACE that have a row of their own. -/
def placePageWrite (s plain : State) (m : Fin 4) (page : Nat) (off v : Nat) : State :=
  if off = 0x040 then s.codeWrite page off m v [(1, execReplace m), (2, execAbandonMoves m)]
  else if off = 0x0D4 then s.codeWrite page off m v [(1, execForce m), (2, execForceRelease m)]
  else plain

/-- Writes to the registers of LPT that have a row of their own. -/
def lptPageWrite (s plain : State) (m : Fin 4) (page : Nat) (off v : Nat) : State :=
  if off = 0x040 then s.after (execArmAll (BitVec.ofNat 16 v) m s)
  else if 0x100 ≤ off ∧ off < 0x500 ∧ off % 64 = 16 then
    let c : Fin 16 := Fin.ofNat 16 ((off - 0x100) / 64)
    s.codeWrite page off m v [(1, execTraceArm c m), (2, execTraceForce c m), (3, execTraceStop c m)]
  else plain

/-- Writes to the registers of TIME that have a row of their own. -/
def timePageWrite (s plain : State) (m : Fin 4) (page : Nat) (off v : Nat) : State :=
  if off = 0x050 then s.after (execStnInc m (BitVec.ofNat 32 v) s)
  else if off = 0x054 then s.after (execStnAdj m (BitVec.ofNat 32 v) s)
  else if off = 0x064 then
    let s1 := s.after (execStnDom m (Fin.ofNat 2 (v % 2)) s)
    if bitOf v 8 then s1.after (execStpSwitch m s1) else s1
  else if off = 0x088 ∨ off = 0x08C then s.action page off m.val (fun u => u.domIncWrite ((off - 0x088) / 4) v)
  else if off = 0x090 ∨ off = 0x094 then s.after (execDomOfs m (Fin.ofNat 2 ((off - 0x090) / 4)) (BitVec.ofNat 32 v) s)
  else if off = 0x0AC then
    (match v % 8 with
    | 1 => s.after (execFirstStn m s)
    | 2 => s.after (execFirstStp m s)
    | 3 => s.after (execStepStn m s)
    | 4 => s.after (execStepStp m s)
    | 5 => s.after (execStepBoth m s)
    | _ => s.action page off m.val id)
  else plain

/-- Writes to the registers of STN that have a row of their own. -/
def stnPageWrite (s plain : State) (m : Fin 4) (i : Nat) (page : Nat) (off v : Nat) : State :=
  if off = 0x054 then
    let a : Fin 250 := Fin.ofNat 250 i
    s.codeWrite page off m v [(1, execStnReadmit a m), (2, execStnLeave a m)]
  else plain

/-- Writes to the registers of ETH that have a row of their own. -/
def ethPageWrite (s plain : State) (m : Fin 4) (i : Nat) (off v : Nat) : State :=
  if off = 0x05C then s.after (execTxqTail (masterOf i) m (BitVec.ofNat 10 v) s)
  else if off = 0x074 then s.after (execRxqTail (masterOf i) m (BitVec.ofNat 10 v) s)
  else plain

/-- Writes to the registers of CAN that have a row of their own. -/
def canPageWrite (s plain : State) (m : Fin 4) (i : Nat) (page : Nat) (off v : Nat) : State :=
  let c := masterOf i
  if off = 0x05C then s.after (execTxSubmit c m (Fin.ofNat 64 v) (s.canRt i).onBus.isNone s)
  else if off = 0x060 then s.after (execTxAbort c m (Fin.ofNat 64 v) s)
  else if off = 0x06C then s.after (execTxDone c m (BitVec.ofNat 64 (v % 4294967296)) s)
  else if off = 0x070 then s.after (execTxDone c m (BitVec.ofNat 64 (v % 4294967296 * 4294967296)) s)
  else if off = 0x07C then s.after (execRxAck c m (BitVec.ofNat 8 v) s)
  else if off = 0x094 then s.codeWrite page off m v [(1, execRecover c m), (2, execStartAbr c m)]
  else plain

/-- Writes to the registers of ANA that have a row of their own. -/
def anaPageWrite (s plain : State) (m : Fin 4) (i : Nat) (page : Nat) (off v : Nat) : State :=
  let n : Fin 16 := Fin.ofNat 16 i
  if off = 0x074 then s.codeWrite page off m v [(1, execAnaRestart m n)]
  else if off = 0x0A4 then s.codeWrite page off m v [(1, execHartSend m n), (2, execHartAbort m n), (3, execHartTake m n)]
  else plain

/-- Writes to the registers of PAIR that have a row of their own. -/
def pairPageWrite (s plain : State) (m : Fin 4) (page : Nat) (off v : Nat) : State :=
  if off = 0x04C then
    (match v % 4 with
    | 1 => s.after (execSwitch m s)
    | 2 => s.after (execResync m s)
    | _ => s.actionRes page off m.val PAIR.CMD_STATUS.RESULT 6 id)
  else plain

/-- Writes to the registers of FLT that have a row of their own. -/
def fltPageWrite (s plain : State) (m : Fin 4) (off v : Nat) : State :=
  if off = 0x08C then (if bitOf v 0 then s.after (execSrcClear m s) else s)
  else if off = 0x0D8 then
    let id : BitVec 9 := BitVec.ofNat 9 v
    (match bits v 31 30 with
    | 0 => s.after (execReadmitPage m id s)
    | j + 1 => s.after (execReadmitTask m (Fin.ofNat 3 j) id s))
  else plain

/-- Writes to the registers of TLY that have a row of their own. -/
def tlyPageWrite (s : State) (m : Fin 4) (page : Nat) (off v : Nat) : State :=
  if off = 0x050 then s.after (execThreshHi m (BitVec.ofNat 32 v) s)
  else if off = 0x05C then (match v % 4 with
    | 1 => s.after (execPreset m s)
    | 2 => s.after (execAdd m s)
    | 3 => s.after (execFlush m s)
    | _ => s.tlyCmd m.val (fun u => u.tlyLock))
  else if off = 0x060 then s.after (execTlyUnlock m (BitVec.ofNat 32 v) s)
  else s.fieldWrite page off m.val v

/-- Writes to the registers of REC that have a row of their own. -/
def recPageWrite (s plain : State) (m : Fin 4) (off v : Nat) : State :=
  if off = 0x040 then s.after (execEpoch m (BitVec.ofNat 32 v) s)
  else if off = 0x048 then s.after (execWrapAck m (BitVec.ofNat 2 v) s)
  else if off = 0x078 then s.after (execLogCmd m (BitVec.ofNat 12 (bits v 31 20)) (BitVec.ofNat 3 (bits v 10 8)) s)
  else plain

/-- A write to a block-specific register of page `page`, kind `k`, instance `i` (R64, R73). -/
def blockWrite (s : State) (m : Fin 4) (k : Kind) (i page off v : Nat) : State :=
  let plain : State := s.fieldWrite page off m.val v
  match k with
  | .pwr => if off = 0x04C then s.action page off m.val (fun u => u.domOffWrite v) else plain
  | .seq => s.seqPageWrite plain m page off v
  | .place => s.placePageWrite plain m page off v
  | .lpt => s.lptPageWrite plain m page off v
  | .ang => if off = 0x044 then s.codeWrite page off m v [(1, execSlotArm m), (2, execSlotDisarm m)] else plain
  | .time => s.timePageWrite plain m page off v
  | .stn => s.stnPageWrite plain m i page off v
  | .eth => s.ethPageWrite plain m i off v
  | .can => s.canPageWrite plain m i page off v
  | .diog => if off = 0x04C then s.after (execDioRestart m (Fin.ofNat 8 i) (BitVec.ofNat 8 v) s) else plain
  | .ana => s.anaPageWrite plain m i page off v
  | .pair => s.pairPageWrite plain m page off v
  | .flt => s.fltPageWrite plain m off v
  | .leg => if off = 0x050 then (if bitOf v 0 then s.after (execFeClear m s) else s.action page off m.val id) else plain
  | .tly => s.tlyPageWrite m page off v
  | .recorder => s.recPageWrite plain m off v
  | .rcur =>
    let c := masterOf i
    if off = 0x074 then s.codeWrite page off m v [(1, execSeekOldest c m), (2, execSeekEnd c m), (3, execSeekSeq c m)]
    else plain
  | .pnl =>
    if off = 0x064 then s.after (execReq m (BitVec.ofNat 8 v) s)
    else if off = 0x068 then s.codeWrite page off m v [(1, execRestCmdText m), (2, execRestCmdBlank m)]
    else plain
  | _ => plain

/-- A 32-bit write of `v` to the register at `off` of page `page` by master `m`. -/
def regWrite (s : State) (m : Fin 4) (page off v : Nat) : State :=
  if page = pgSUP ∧ off = 0x060 then s.supCmd m.val (bits v 7 0) (bits v 23 8)
  else if page = pgSUP ∧ off = 0x064 then s.supUnlock m.val v
  else if s.boot.phase = .romRecovery then
    (if page = pgSUP ∧ m.val = 2 ∧ (off = 0x068 ∨ off = 0x06C ∨ off = 0x0A0) then s.supTouch.plainWrite page off v else s)
  else if !s.servedTo m.val then s
  else match pageKind page with
    | none => s
    | some (k, i) =>
      if off = 0x00C then s.action page off m.val (fun u => u.ctrlWrite page m.val v)
      else if off = 0x010 then s.after (execFaultClear m (BitVec.ofNat 9 page) (BitVec.ofNat 32 v) s)
      else if off = 0x014 then s.action page off m.val (fun u => u.faultEnWrite page v)
      else if off = 0x018 then s.action page off m.val (fun u =>
        if bitOf v 2 then u.commitDiscard page else if bitOf v 0 then u.commitGo page else u)
      else if off = 0x020 then s.after (execOwnerWrite m (BitVec.ofNat 9 page) (Fin.ofNat 4 v) s)
      else if off < 0x040 then s
      else if page = pgSUP ∧ off = 0x098 then s.flashCmd m.val (v % 4)
      else s.blockWrite m k i page off v

/-! ### The physical map of a core pair (R54 to R63) -/

/-- Code 0x027 and the capture of LEG (R61, R417): access type 0 read, 1 write, 2 fetch. -/
def busError (s : State) (p a ty : Nat) : State :=
  let s1 := (s.legCapture a ty p).raise (pgCP p) 0x027 0 [a % 4294967296, a / 4294967296, ty]
  { s1 with bus := { cause := 1 } }

/-- The privilege exception (R61). -/
def privError (s : State) (page a : Nat) : State :=
  let s1 := s.raise page 0x023 1 [a % 4294967296, a / 4294967296]
  { s1 with bus := { cause := 2 } }

/-- The alignment exception on a register page (R61, R63). -/
def alignError (s : State) (page a : Nat) : State :=
  let s1 := if populated page then (s.setFault page 4).raise page 0x023 0 [a % 4294967296, a / 4294967296]
    else s.raise pgFLT 0x023 0 [a % 4294967296, a / 4294967296]
  { s1 with bus := { cause := 3 } }

/-- 64-bit words of the bytes `[a, a + n)`. -/
def wordsOf (a n : Nat) : List Nat := (List.range ((a + n - 1) / 8 - a / 8 + 1)).map (fun j => a / 8 + j)

/-- A read or fetch of SECDED-protected memory of `tier` at address `b` (R56): `bad` is an uncorrectable error that this access
meets, `corr` a corrected one. The exception cause, 0 where the data is good. -/
def eccRead (s : State) (p tier a b n : Nat) (fetch bad corr : Bool) : State × Nat :=
  if bad || (wordsOf b n).any (fun x => s.ecc.contains x) then
    let s1 : State := if bad then { s with ecc := insNum (b / 8) s.ecc } else s
    let s2 := (s1.setFault (pgCP p) 17).raise (pgCP p) 0x026 (if fetch then tier + 8 else tier) [a % 4294967296, a / 4294967296, p]
    (s2, if fetch then 5 else 4)
  else (if corr then s.incMod (pgCP p) CP.ECC_CORR else s, 0)

/-- A word of loop memory as a read shows it (R166). -/
def loopWord (s : State) (j : Nat) : Nat :=
  (if j % 64 < 40 then Store.get 0 s.lpe.shad j else Store.get 0 s.lpe.recs j).toNat

/-- `n` bytes of loop memory at offset `o`, as a number. -/
def loopRead (s : State) (o n : Nat) : Nat :=
  leNat ((List.range n).map (fun j => BitVec.ofNat 8 (s.loopWord ((o + j) / 4) / 256 ^ ((o + j) % 4))))

/-- The words that a write of `n` bytes of `v` at offset `o` leaves, given what stands there. -/
def mergeWords (old : Nat → Nat) (o n v : Nat) : List (Nat × Nat) :=
  (List.range ((o + n - 1) / 4 - o / 4 + 1)).map (fun j =>
    let w := o / 4 + j
    (w, leNat ((List.range 4).map (fun b =>
      let x := 4 * w + b
      if o ≤ x ∧ x < o + n then BitVec.ofNat 8 (v / 256 ^ (x - o)) else BitVec.ofNat 8 (old w / 256 ^ b)))))

/-- The access ends without an exception and returns `v`. -/
def done (s : State) (v : Nat) : State := s.answer v

/-- An access to memory of R54 that a SECDED code protects, or to the retentive MRAM. -/
def memAccess (s : State) (p tier a b : Nat) (op : CoreOp) (bad corr : Bool) : State :=
  match op with
  | .read n =>
    let k := 2 ^ n.val
    let r := if tier < 3 then s.eccRead p tier a b k false bad corr else (s, 0)
    if r.2 = 0 then r.1.done (r.1.memRd b k) else { r.1 with bus := { cause := r.2 } }
  | .fetch n =>
    let k := 2 ^ n.val
    let r := s.eccRead p tier a b k true bad corr
    if r.2 = 0 then r.1.done (r.1.memRd b k) else { r.1 with bus := { cause := r.2 } }
  | .write n v =>
    let k := 2 ^ n.val
    (s.memWr b k v.toNat).done 0
  | _ => s

/-- A privileged access to a register page (R63, R64). -/
def pageAccess (s : State) (p a : Nat) (op : CoreOp) : State :=
  let page := (a - 0x0140000000) / 4096
  let off := a % 4096
  match op with
  | .read n =>
    let k := 2 ^ n.val
    if a % k ≠ 0 then s.alignError page a
    else if k = 8 then
      let r0 := s.regRead 0 (some p) page off
      let r1 := r0.1.regRead 0 (some p) page (off + 4)
      r1.1.done (r0.2 + r1.2 * 4294967296)
    else
      let r := s.regRead 0 (some p) page (off / 4 * 4)
      r.1.done (r.2 / 256 ^ (off % 4) % 256 ^ k)
  | .write n v =>
    let k := 2 ^ n.val
    if k < 4 ∨ a % k ≠ 0 then s.alignError page a
    else
      let s1 := s.regWrite 0 page off (v.toNat % 4294967296)
      (if k = 8 then s1.regWrite 0 page (off + 4) (v.toNat / 4294967296) else s1).done 0
  | _ => s

/-- The width and the type (0 read, 1 write, 2 fetch) of an access. -/
def opInfo : CoreOp → Nat × Nat
  | .read n => (2 ^ n.val, 0)
  | .write n _ => (2 ^ n.val, 1)
  | .fetch n => (2 ^ n.val, 2)
  | _ => (1, 0)

/-- A privileged access of `n` bytes at `a` to loop memory (R166). -/
def loopAccess (s : State) (a n : Nat) (op : CoreOp) (loopEcc : Ecc) : State :=
  let o := a - loopBase
  match op with
  | .write _ v => ((mergeWords s.loopWord o n v.toNat).foldl (fun (u : State) e =>
      u.recordWrite (e.1 / 64) (e.1 % 64) (BitVec.ofNat 32 e.2) loopEcc) s).done 0
  | _ =>
    let v := s.loopRead o n
    (s.lAccess (o / 256) loopEcc).1.done v

/-- A privileged access of `n` bytes at `a` to the directory. -/
def dirAccess (s : State) (a n : Nat) (op : CoreOp) : State :=
  let o := a - dirBase
  match op with
  | .write _ v => ((mergeWords (fun w => s.memRd (dirBase + 4 * w) 4) o n v.toNat).foldl (fun (u : State) e =>
      u.directoryWrite (e.1 / 4) (e.1 % 4) (BitVec.ofNat 32 e.2)) s).done 0
  | _ => s.done (s.memRd a n)

/-- An access of pair `p` at address `a` (R54, R60, R61). DESIGN CHOICE (assumption 227): the records that the hardware keeps in the
MRAM config region stand in their own fields of State, for the spec gives them no layout; a read there gives what memory holds. -/
def coreAccess (s : State) (p a : Nat) (op : CoreOp) (priv bad corr : Bool) (loopEcc : Ecc) : State :=
  let (n, ty) := opInfo op
  let r := regionOf a
  let whole := regionOf (a + n - 1) == r
  if !whole then s.busError p a ty
  else match r with
  | .dram => s.memAccess p 2 a a op bad corr
  | .alias0 => s.memAccess p 0 a (tier0Base p + (a - tier0Alias)) op bad corr
  | .tier0 q => if q = p then s.memAccess p 0 a a op bad corr else s.busError p a ty
  | .tier1 => s.memAccess p 1 a a op bad corr
  | .retain => if ty = 2 then s.busError p a ty else s.memAccess p 3 a a op false false
  | .config => if ty = 0 then s.memAccess p 3 a a op false false else s.busError p a ty
  | .loops =>
    if ty = 2 then s.busError p a ty else if !priv then s.privError (pgCP p) a else s.loopAccess a n op loopEcc
  | .directory =>
    if ty = 2 then s.busError p a ty else if !priv then s.privError (pgCP p) a else s.dirAccess a n op
  | .trace =>
    if !priv ∧ ty ≠ 2 then s.privError (pgCP p) a
    else if ty = 0 then s.done (s.memRd a n) else s.busError p a ty
  | .pages =>
    if ty = 2 then s.busError p a ty
    else if !priv then
      let page := (a - pageBase) / 4096
      s.privError (if populated page then page else pgCP p) a
    else s.pageAccess p a op
  | .none => s.busError p a ty

/-! ### Requests over the Dervor link (R384) -/

/-- The access of `supAccess` where `a` is memory. -/
def supMem (s : State) (a : Nat) (wr : Option Nat) : State × Nat × Nat :=
  match wr with
  | some v => (s.memWr a 4 v, 0, v)
  | none => (s, 0, s.memRd a 4)

/-- The access of `supAccess` where `a` is a register. -/
def supPage (s : State) (m : Fin 4) (a : Nat) (wr : Option Nat) : State × Nat × Nat :=
  let page := (a - pageBase) / 4096
  match wr with
  | some v =>
    (s.regWrite m page (a % 4096) v,
      if !s.servedTo m.val then 1 else if s.owner page == m.val || !populated page || a % 4096 == 0x020 then 0 else 6, v)
  | none =>
    let r := s.regRead m.val none page (a % 4096)
    (r.1, 0, r.2)

/-- A read or write of 32 bits that SUP makes for master `m` (R60, R74): RESULT and data. -/
def supAccess (s : State) (m : Fin 4) (a : Nat) (wr : Option Nat) : State × Nat × Nat :=
  if a % 4 ≠ 0 then (s, 1, 0)
  else match regionOf a with
    | .pages => s.supPage m a wr
    | .tier0 q =>
      let st := s.st (pgCP q)
      if m.val = 2 ∧ st ≠ 2 ∧ st ≠ 4 ∧ st ≠ 5 then (s, 1, 0) else s.supMem a wr
    | .dram | .tier1 | .retain => s.supMem a wr
    | .directory => (match wr with
      | some _ => ((s.setFault pgPLACE 20).raise pgPLACE 0x058 0 [(a - dirBase) / 16], 1, 0)
      | none => s.supMem a wr)
    | .config | .trace => (match wr with
      | some _ => (s, 1, 0)
      | none => s.supMem a wr)
    | .loops => (match wr with
      | some v => (s.recordWrite ((a - loopBase) / 256) ((a - loopBase) % 256 / 4) (BitVec.ofNat 32 v) .good, 0, v)
      | none => (s, 0, s.loopWord ((a - loopBase) / 4)))
    | _ => (s, 1, 0)

/-- The standby applies the prepared exchange at the duty's X (R124); how long that takes is its own (assumption 1). -/
def xchgFollow (s : State) : State :=
  match s.seq.prep with
  | some p => if s.role = 2 ∧ s.xchgState = 3 then (s.applyAt p s.freeWord.toNat).useFree else s
  | none => s

/-- What a request does here, executed as master 3: RESULT and DATA of the response. OP 0 is the standby's request for full
copies, whose frame the spec does not name. -/
def requestDo (s : State) (op a v : Nat) : State × Nat × Nat :=
  match op with
  | 0 => (forEach (s.redTasks.filter (fun k => bitOf v k && s.role == 1)) (fun u k => u.sendFull k) s, 0, v)
  | 1 => s.supAccess 3 a none
  | 2 => s.supAccess 3 a (some v)
  | 3 =>
    let s1 := s.supCmd 3 (bits v 7 0) (bits v 23 8)
    (s1, s1.get pgSUP SUP.CMD_STATUS.RESULT, v)
  | 4 =>
    let own := s.owner pgSEQ
    let m := masterOf own
    let s1 := match v with
      | 1 => s.after (execPrepare m s)
      | 2 => s.after (execApply m true s)
      | 3 => s.after (execCancel m s)
      | 4 => s.xchgFollow
      | _ => s
    (s1, s1.get pgSEQ SEQ.XCHG_STATUS.REASON, v)
  | _ => (s, 1, 0)

/-- REQUEST: it is executed and answered with RESPONSE. -/
def requestTake (p : List Byte) (s : State) : State :=
  if p.length ≠ 16 then s
  else
    let r := s.requestDo (payNat p 2 1) (payNat p 4 8) (payNat p 12 4)
    r.1.dvlSend 8 (p.take 3 ++ beBytes r.2.1 1 ++ (p.drop 4).take 8 ++ beBytes r.2.2 4)

end State

/-! ### The commands -/

/-- REGISTER_WRITE (R7): master `m` writes `v`; the register has no row of its own, or the write covers one that has. A write to
a tier-0 window goes through SUP (R60). -/
def execRegisterWrite (m : Fin 4) (t : WriteTarget) (v : BitVec 32) (s : State) : Out :=
  .next (match t with
    | .page p off => s.regWrite m p.toNat (off.toNat / 4 * 4) v.toNat
    | .tier0 n off =>
      if s.servedTo m.val then
        let r := s.supAccess m (tier0Base n.val + off.toNat / 4 * 4) (some v.toNat)
        if r.2.1 = 1 then r.1.put pgSUP SUP.CMD_STATUS.RESULT 1 else r.1
      else s)

/-- The bytes `[a, a + n)` of pair `p` lie in one of the windows of task `k` (R153): code, frozen-image buffer, working copy, home,
constants, scratch, output buffer. -/
def State.inWindows (s : State) (p k a n : Nat) : Bool :=
  let im := s.imgTask k
  let b := if tier0Alias ≤ a ∧ a < tier0Base 0 then tier0Base p + (a - tier0Alias) else a
  [(im.code.toNat, im.codeLen.toNat), (s.blockAt k 1, im.frozen.toNat), (s.blockAt k 0, im.state.toNat),
    ((s.task k).place.home, im.state.toNat), (s.blockAt k 2, im.consts.length), (s.blockAt k 3, im.scratch.toNat),
    (im.outBuf.toNat, im.outLen.toNat)].any (fun w => decide (w.1 ≤ b) && decide (b + n ≤ w.1 + w.2))

/-- CORE_PAIR_ACCESS (R54 to R63, R152, R153): pair `p` makes access `op` at `a`. `bad` and `corr` are the uncorrectable and the
corrected error that it meets, `ecc` what loop memory meets. `task` is the task in whose context it is made. -/
def execCorePairAccess (p : Fin 4) (op : CoreOp) (a : BitVec 40) (priv bad corr : Bool) (ecc : Ecc)
    (task : Fin 32) (inTask : Bool) (s : State) : Out :=
  .next (if !s.served || !s.pairLives p.val then s
    else match op, inTask with
      | .fpMode, true => s.lapse task.val 2 0
      | .fpMode, false => s
      | .time, true => (s.lapse task.val 3 0).done 0
      | .time, false => (s.useFree).done s.freeWord.toNat
      | op, true =>
        let s1 := s.coreAccess p.val a.toNat op priv bad corr ecc
        if !s.inWindows p.val task.val a.toNat (State.opInfo op).1 && s1.bus.cause == 0 then s1.lapse task.val 1 a.toNat else s1
      | op, false => s.coreAccess p.val a.toNat op priv bad corr ecc)

/-- REQUEST (R384): a frame received on lane `l`. -/
def execRequest (l : Fin 2) (f : List Byte) (s : State) : Out := .next (s.onFrame l.val 7 f State.requestTake)

/-- RESPONSE (R384): a frame received on lane `l`: its TAG, RESULT and DATA stand as the latest answer. -/
def execResponse (l : Fin 2) (f : List Byte) (s : State) : Out :=
  .next (s.onFrame l.val 8 f (fun p s =>
    if p.length ≠ 16 then s
    else s.setPair { s.pair with lastResponse := some (payNat p 0 2, payNat p 3 1, payNat p 12 4) }))

end Sys2Proof.Machine
end

