-- ==== Sys2Proof/Machine/Idle.lean ====
section
/-! DEFINITION. What happens without a command: one tick of the 100 MHz reference (assumption 11). The counters and the
calendar count, the axes move every 10 µs, the loop base tick takes and writes what R355, R241 and R201 name, and the rows of
the table that only the passing of time causes join the queue. -/

namespace Sys2Proof.Machine
namespace State

/-- A command that the tick causes joins the queue. -/
def enqueue (s : State) (c : Instr) : State := { s with pending := s.pending ++ [c] }

/-- Enqueue where it is due. -/
def enqueueIf (s : State) (b : Bool) (c : Instr) : State := if b then s.enqueue c else s

/-! ### The counters of TIME (R267, R269) -/

/-- The two counters add their increments; a counter that would wrap is left to its wrap command. -/
def tickCounters (s : State) : State :=
  let wn := decide (2 ^ 56 ≤ stnSum s)
  let wp := decide (2 ^ 56 ≤ stpSum s)
  let c := s.clk
  let c1 := if wn then c else { c with stn := BitVec.ofNat 56 (stnSum s), stnRes := stnResNext s }
  let c2 := if wp then c1 else { c1 with stp := BitVec.ofNat 56 (stpSum s), stpRes := stpResNext s }
  ((({ s with clk := { c2 with ref := c.ref + 1 } } : State).enqueueIf wn .stationTimeWrap).enqueueIf wp .stampTimeWrap)

/-- A residual that stands within FAR_NS again, or that has reached 0 in a change of the stamp domain (R277, R282). -/
def tickResiduals (s : State) : State :=
  let lim := s.get pgTIME TIME.FAR_NS * 2 ^ 24
  let s1 := s.enqueueIf (s.on pgTIME TIME.STATUS.STN_FAR && decide (s.clk.stnRes.natAbs ≤ lim)) (.farCleared false)
  let s2 := s1.enqueueIf (s.on pgTIME TIME.STATUS.STP_FAR && decide (s.clk.stpRes.natAbs ≤ lim)) (.farCleared true)
  s2.enqueueIf (s.stpState == 2 && s.clk.stpRes == 0) .residualCleared

/-! ### The calendar (R422, R426, R429, R432) -/

/-- The next 1/256 s. -/
def calFrac (s : State) : State :=
  let t := s.cal.now
  if t.last then s.enqueue .yearWrap
  else
    let t1 := if t.frac < 255 then { t with frac := t.frac + 1 } else { t.nextSecond with frac := 0 }
    let s1 := s.calCount { t1 with presc := 0 }
    (s1.enqueueIf s1.alarmDue .alarmFire).enqueueIf s1.wakeDue .wake

/-- The 32.768 kHz crystal against the reference (assumption 10). -/
def tickCalendar (s : State) : State :=
  let p := s.cal.phase + 32768
  let s1 : State := { s with cal := { s.cal with phase := p % 100000000 } }
  if p < 100000000 then s1
  else if s1.cal.now.presc < 127 then
    { s1 with cal := { s1.cal with now := { s1.cal.now with presc := s1.cal.now.presc + 1 } } }
  else s1.calFrac

/-! ### The loop base tick (R160, R201, R241, R355) -/

/-- Entries that an output is bound to and that neither a task nor a loop slot produces. -/
def otherOuts (s : State) : List Nat :=
  ((List.range 64).filterMap (fun ch =>
      if s.on (dioPg ch) (DIOG.CH_BIND.OUT_VALID (ch % 8)) then some (s.get (dioPg ch) (DIOG.CH_BIND.OUT_INDEX (ch % 8)))
      else none)
    ++ (List.range 16).filterMap (fun n =>
      if s.on (pgANA n) ANA.BIND.OUT_VALID then some (s.get (pgANA n) ANA.BIND.OUT_INDEX) else none)).filter
    (fun i => s.dirProdKind i != 2 && s.dirProdKind i != 3)

/-- Entries of those producers that an axis is bound to (R241). -/
def otherAxes (s : State) : List Nat :=
  ((List.range 8).flatMap (fun n =>
    (s.axBind n AX.BIND_CMD).toList ++ (s.axBind n AX.BIND_TGT).toList ++ (s.axBind n AX.BIND_RATIO).toList)).filter
    (fun i => s.dirProdKind i != 2 && s.dirProdKind i != 3)

/-- A passive analogue output at a reduced step has an update instant (R370). -/
def anaGrid (s : State) (n : Nat) : Bool :=
  let us := updUs (s.get (pgANA n) ANA.STATUS.CLK_STEP)
  s.anaType n == 4 && us != 0 && s.e / 50000 * 50 % us == 0

/-- The loop base tick: trace commands, outputs and axes that take entries of other producers, passive outputs, axes. -/
def baseTick (s : State) : State :=
  let s0 := s.dioBaseTick
  let s1 := onlyIf (s0.pageOn pgLPT) traceTick s0
  let s2 := forEach s1.otherOuts (fun u i => (u.dioTake i).anaTake i) s1
  let s3 := forEach ((List.range 16).filter (fun n => s2.anaGrid n)) (fun u n => u.anaUpdate n) s2
  let s4 := forEach s3.otherAxes (fun u i => u.axTake i) s3
  let s5 := forEach (List.range 4) (fun u n => onlyIf (u.pageOn (pgCAN n)) (fun v => v.canStat n) u) s4
  forEach (List.range 8) (fun u n => u.axBaseTick n) s5

/-- The field supplies every 100 µs, the inputs' voltages every 1 ms and the input power every 100 ms (R366, R51, R52): measured values, which nothing here determines
(assumption 1). -/
def tickMeasure (s : State) : State :=
  let s0 := onlyIf (s.clk.ref % 10000 == 0) (forEach ((List.range 8).filter (fun g => s.pageOn (pgDIOG g)))
    (fun u g => (u.put (pgDIOG g) DIOG.FS_MV.MV u.freeWord.toNat).useFree)) s
  let s1 := onlyIf (s0.clk.ref % 100000 == 0) (fun u => (u.setReg pgSUP 0x04C u.freeWord).useFree) s0
  onlyIf (s1.clk.ref % 10000000 == 0) (fun u => (u.put pgPWR PWR.INPUT_MW.MW u.freeWord.toNat).useFree) s1

/-- One tick of the reference. Without PD1 only the calendar counts, and only while PD0 holds power. -/
def idle (s : State) : State :=
  let s1 := onlyIf s.boot.pd0 tickCalendar s
  if s1.pd1 then
    let s2 := s1.tickCounters.tickResiduals.takePendingStep.tickMeasure
    let s3 := onlyIf (s2.clk.ref % 1000 == 0) axTick s2
    onlyIf (s3.e / 50000 != s1.e / 50000) baseTick s3
  else s1

end State
end Sys2Proof.Machine
end

