-- ==== Sys2Proof/Machine/Dispatch.lean ====
section
/-! DEFINITION. The dispatcher: every command's meaning, one arm per constructor. -/

namespace Sys2Proof.Machine

/-- The effect of a command on everything but the queue. -/
def exec (i : Instr) (s : State) : Host.Outcome State Fault Refusal :=
  match i with
  | .supplyValid cell ranOut => Sys2Proof.Machine.execSupplyValid cell ranOut s
  | .pd1Start r => Sys2Proof.Machine.execPd1Start r s
  | .slotIdPoll raw => Sys2Proof.Machine.execSlotIdPoll raw s
  | .slotIdDeadline raw => Sys2Proof.Machine.execSlotIdDeadline raw s
  | .slotIdSample raw => Sys2Proof.Machine.execSlotIdSample raw s
  | .fwSlotVerify reason run => Sys2Proof.Machine.execFwSlotVerify reason run s
  | .domainStart run => Sys2Proof.Machine.execDomainStart run s
  | .domainStartFault f => Sys2Proof.Machine.execDomainStartFault f s
  | .domainRetry tries => Sys2Proof.Machine.execDomainRetry tries s
  | .powerGoodLost d => Sys2Proof.Machine.execPowerGoodLost d s
  | .domOff m d => Sys2Proof.Machine.execDomOff m d s
  | .domOn m d run => Sys2Proof.Machine.execDomOn m d run s
  | .supplyInputLost b mv => Sys2Proof.Machine.execSupplyInputLost b mv s
  | .supplyInputRestored b mv => Sys2Proof.Machine.execSupplyInputRestored b mv s
  | .lowInput enters => Sys2Proof.Machine.execLowInput enters s
  | .restartAfterHoldup r => Sys2Proof.Machine.execRestartAfterHoldup r s
  | .holdupMeasure t => Sys2Proof.Machine.execHoldupMeasure t s
  | .holdupTest m => Sys2Proof.Machine.execHoldupTest m s
  | .cellMeasure mv => Sys2Proof.Machine.execCellMeasure mv s
  | .imageVerify im c => Sys2Proof.Machine.execImageVerify im c s
  | .stopReached bad => Sys2Proof.Machine.execStopReached bad s
  | .tempWarn t => Sys2Proof.Machine.execTempWarn t s
  | .overTemperatureShutdown t => Sys2Proof.Machine.execOverTemperatureShutdown t s
  | .overTemperatureRestart r => Sys2Proof.Machine.execOverTemperatureRestart r s
  | .restart m => Sys2Proof.Machine.execRestart m s
  | .shutdown m => Sys2Proof.Machine.execShutdown m s
  | .shutdownTail part => Sys2Proof.Machine.execShutdownTail part s
  | .identify m => Sys2Proof.Machine.execIdentify m s
  | .recorderClear m => Sys2Proof.Machine.execRecorderClear m s
  | .keyEnrol m arg => Sys2Proof.Machine.execKeyEnrol m arg s
  | .keyRevoke m arg => Sys2Proof.Machine.execKeyRevoke m arg s
  | .fwSlotPrefer m arg => Sys2Proof.Machine.execFwSlotPrefer m arg s
  | .fwLoad m arg => Sys2Proof.Machine.execFwLoad m arg s
  | .fwLoadComplete flashError reason => Sys2Proof.Machine.execFwLoadComplete flashError reason s
  | .imageLoad m arg => Sys2Proof.Machine.execImageLoad m arg s
  | .imageLoadComplete flashError im c => Sys2Proof.Machine.execImageLoadComplete flashError im c s
  | .unlock m key => Sys2Proof.Machine.execUnlock m key s
  | .flashRead m => Sys2Proof.Machine.execFlashRead m s
  | .flashWrite m => Sys2Proof.Machine.execFlashWrite m s
  | .flashErase m => Sys2Proof.Machine.execFlashErase m s
  | .flashOperationDone corrected failed => Sys2Proof.Machine.execFlashOperationDone corrected failed s
  | .clockFault k => Sys2Proof.Machine.execClockFault k s
  | .refDrift dev => Sys2Proof.Machine.execRefDrift dev s
  | .registerWrite m t v => Sys2Proof.Machine.execRegisterWrite m t v s
  | .commitGo m page => Sys2Proof.Machine.execCommitGo m page s
  | .discard m page => Sys2Proof.Machine.execDiscard m page s
  | .commitApply page unit => Sys2Proof.Machine.execCommitApply page unit s
  | .ownerWrite m page v => Sys2Proof.Machine.execOwnerWrite m page v s
  | .faultEnWrite m page v => Sys2Proof.Machine.execFaultEnWrite m page v s
  | .faultClear m page mask => Sys2Proof.Machine.execFaultClear m page mask s
  | .run m page => Sys2Proof.Machine.execRun m page s
  | .runClear m page => Sys2Proof.Machine.execRunClear m page s
  | .hold m page => Sys2Proof.Machine.execHold m page s
  | .holdClear m page => Sys2Proof.Machine.execHoldClear m page s
  | .corePairAccess p op a priv bad corr ecc task inTask => Sys2Proof.Machine.execCorePairAccess p op a priv bad corr ecc task inTask s
  | .lockstepMismatch p point => Sys2Proof.Machine.execLockstepMismatch p point s
  | .lockstepSelftest p failed => Sys2Proof.Machine.execLockstepSelftest p failed s
  | .corePairRunOff m p => Sys2Proof.Machine.execCorePairRunOff m p s
  | .corePairRunOn m p => Sys2Proof.Machine.execCorePairRunOn m p s
  | .eventTake p => Sys2Proof.Machine.execEventTake p s
  | .taskFreeze k => Sys2Proof.Machine.execTaskFreeze k s
  | .taskExecutionEnd k us outs lines => Sys2Proof.Machine.execTaskExecutionEnd k us outs lines s
  | .taskPublish k copyLate => Sys2Proof.Machine.execTaskPublish k copyLate s
  | .taskApply k => Sys2Proof.Machine.execTaskApply k s
  | .seqRun m => Sys2Proof.Machine.execSeqRun m s
  | .seqStop m => Sys2Proof.Machine.execSeqStop m s
  | .seqHold m => Sys2Proof.Machine.execSeqHold m s
  | .seqRelease m => Sys2Proof.Machine.execSeqRelease m s
  | .holdMask m v => Sys2Proof.Machine.execHoldMask m v s
  | .step m v => Sys2Proof.Machine.execStep m v s
  | .ton k c inp pt => Sys2Proof.Machine.execTon k c inp pt s
  | .tof k c inp pt => Sys2Proof.Machine.execTof k c inp pt s
  | .tp k c inp pt => Sys2Proof.Machine.execTp k c inp pt s
  | .ctu k c cu r pv => Sys2Proof.Machine.execCtu k c cu r pv s
  | .ctd k c cd ld pv => Sys2Proof.Machine.execCtd k c cd ld pv s
  | .ctud k c cu cd r ld pv => Sys2Proof.Machine.execCtud k c cu cd r ld pv s
  | .rTrig k c clk => Sys2Proof.Machine.execRTrig k c clk s
  | .fTrig k c clk => Sys2Proof.Machine.execFTrig k c clk s
  | .fast k c reset => Sys2Proof.Machine.execFast k c reset s
  | .fastEdge ch rising => Sys2Proof.Machine.execFastEdge ch rising s
  | .prepare m => Sys2Proof.Machine.execPrepare m s
  | .exchangePrepared built partner => Sys2Proof.Machine.execExchangePrepared built partner s
  | .apply m partner => Sys2Proof.Machine.execApply m partner s
  | .exchangeWindow ns => Sys2Proof.Machine.execExchangeWindow ns s
  | .cancel m => Sys2Proof.Machine.execCancel m s
  | .replace m => Sys2Proof.Machine.execReplace m s
  | .abandonMoves m => Sys2Proof.Machine.execAbandonMoves m s
  | .placementRunFence p ran => Sys2Proof.Machine.execPlacementRunFence p ran s
  | .tier0FillDone k => Sys2Proof.Machine.execTier0FillDone k s
  | .directoryWrite x w v => Sys2Proof.Machine.execDirectoryWrite x w v s
  | .force m => Sys2Proof.Machine.execForce m s
  | .forceRelease m => Sys2Proof.Machine.execForceRelease m s
  | .lpeRunOn m => Sys2Proof.Machine.execLpeRunOn m s
  | .lpeRunOff m => Sys2Proof.Machine.execLpeRunOff m s
  | .loopSample n ecc => Sys2Proof.Machine.execLoopSample n ecc s
  | .slotCommitTimeout n => Sys2Proof.Machine.execSlotCommitTimeout n s
  | .loopOutputWrite n delay due => Sys2Proof.Machine.execLoopOutputWrite n delay due s
  | .loopRecordWrite n w v ecc => Sys2Proof.Machine.execLoopRecordWrite n w v ecc s
  | .foldSample f n ecc => Sys2Proof.Machine.execFoldSample f n ecc s
  | .traceArm c m => Sys2Proof.Machine.execTraceArm c m s
  | .armAll mask m => Sys2Proof.Machine.execArmAll mask m s
  | .traceForce c m => Sys2Proof.Machine.execTraceForce c m s
  | .traceStop c m => Sys2Proof.Machine.execTraceStop c m s
  | .encoderCount n ev age => Sys2Proof.Machine.execEncoderCount n ev age s
  | .wire n stands => Sys2Proof.Machine.execWire n stands s
  | .standstill n => Sys2Proof.Machine.execStandstill n s
  | .mainsCrossing j vrms phase4 w4 phase5 w5 => Sys2Proof.Machine.execMainsCrossing j vrms phase4 w4 phase5 w5 s
  | .mainsSignalLost x => Sys2Proof.Machine.execMainsSignalLost x s
  | .angleRead n => Sys2Proof.Machine.execAngleRead n s
  | .slotArm m => Sys2Proof.Machine.execSlotArm m s
  | .slotDisarm m => Sys2Proof.Machine.execSlotDisarm m s
  | .actionIssue k busy => Sys2Proof.Machine.execActionIssue k busy s
  | .moveAbs n => Sys2Proof.Machine.execMoveAbs n s
  | .moveRel n => Sys2Proof.Machine.execMoveRel n s
  | .velocity n => Sys2Proof.Machine.execVelocity n s
  | .axisStop n => Sys2Proof.Machine.execAxisStop n s
  | .quickStop n => Sys2Proof.Machine.execQuickStop n s
  | .home n => Sys2Proof.Machine.execHome n s
  | .gearIn n => Sys2Proof.Machine.execGearIn n s
  | .gearOut n => Sys2Proof.Machine.execGearOut n s
  | .moveDone n => Sys2Proof.Machine.execMoveDone n s
  | .gearRatioApplied n => Sys2Proof.Machine.execGearRatioApplied n s
  | .gearLag n => Sys2Proof.Machine.execGearLag n s
  | .gearSrc n => Sys2Proof.Machine.execGearSrc n s
  | .switchQualified n sw active capt => Sys2Proof.Machine.execSwitchQualified n sw active capt s
  | .homingComplete n => Sys2Proof.Machine.execHomingComplete n s
  | .chatter n sw level => Sys2Proof.Machine.execChatter n sw level s
  | .vmotMissing mv => Sys2Proof.Machine.execVmotMissing mv s
  | .vmotLow mv => Sys2Proof.Machine.execVmotLow mv s
  | .vmotOver mv => Sys2Proof.Machine.execVmotOver mv s
  | .vmotRestored mv => Sys2Proof.Machine.execVmotRestored mv s
  | .overcurrent n phase => Sys2Proof.Machine.execOvercurrent n phase s
  | .openCoil n phase => Sys2Proof.Machine.execOpenCoil n phase s
  | .thermalWarning n phase temp => Sys2Proof.Machine.execThermalWarning n phase temp s
  | .thermalShutdown n phase temp => Sys2Proof.Machine.execThermalShutdown n phase temp s
  | .holdDelay n => Sys2Proof.Machine.execHoldDelay n s
  | .ptpTimestamp port sent msgType domain seqId => Sys2Proof.Machine.execPtpTimestamp port sent msgType domain seqId s
  | .syncAccepted port domNum ident srcPort => Sys2Proof.Machine.execSyncAccepted port domNum ident srcPort s
  | .domainLost dom => Sys2Proof.Machine.execDomainLost dom s
  | .firstStn m => Sys2Proof.Machine.execFirstStn m s
  | .firstStp m => Sys2Proof.Machine.execFirstStp m s
  | .stepStn m => Sys2Proof.Machine.execStepStn m s
  | .stepStp m => Sys2Proof.Machine.execStepStp m s
  | .stepBoth m => Sys2Proof.Machine.execStepBoth m s
  | .stnAdj m v => Sys2Proof.Machine.execStnAdj m v s
  | .stnInc m v => Sys2Proof.Machine.execStnInc m v s
  | .domOfs m dom v => Sys2Proof.Machine.execDomOfs m dom v s
  | .stnDom m dom => Sys2Proof.Machine.execStnDom m dom s
  | .stpSwitch m => Sys2Proof.Machine.execStpSwitch m s
  | .frameLaunch port queue => Sys2Proof.Machine.execFrameLaunch port queue s
  | .announceReturn dir us => Sys2Proof.Machine.execAnnounceReturn dir us s
  | .join frame => Sys2Proof.Machine.execJoin frame s
  | .accept frame => Sys2Proof.Machine.execAccept frame s
  | .offerLapse a => Sys2Proof.Machine.execOfferLapse a s
  | .cycleIn frame => Sys2Proof.Machine.execCycleIn frame s
  | .evaluateStations k => Sys2Proof.Machine.execEvaluateStations k s
  | .stnReadmit a m => Sys2Proof.Machine.execStnReadmit a m s
  | .stnLeave a m => Sys2Proof.Machine.execStnLeave a m s
  | .rejoin frame => Sys2Proof.Machine.execRejoin frame s
  | .leave frame => Sys2Proof.Machine.execLeave frame s
  | .linkChange port speed => Sys2Proof.Machine.execLinkChange port speed s
  | .txqTail port m tail => Sys2Proof.Machine.execTxqTail port m tail s
  | .txWriteBack port => Sys2Proof.Machine.execTxWriteBack port s
  | .frameReceive port fcsOk frame => Sys2Proof.Machine.execFrameReceive port fcsOk frame s
  | .rxqTail port m tail => Sys2Proof.Machine.execRxqTail port m tail s
  | .lanLost lan => Sys2Proof.Machine.execLanLost lan s
  | .txSubmit can m k busFree => Sys2Proof.Machine.execTxSubmit can m k busFree s
  | .txAbort can m k => Sys2Proof.Machine.execTxAbort can m k s
  | .txDone can m mask => Sys2Proof.Machine.execTxDone can m mask s
  | .canTxComplete can ending => Sys2Proof.Machine.execCanTxComplete can ending s
  | .canReceive can took resRecessive w0 brs esi dlc data => Sys2Proof.Machine.execCanReceive can took resRecessive w0 brs esi dlc data s
  | .rxAck can m count => Sys2Proof.Machine.execRxAck can m count s
  | .canBusError can tec rxc lec dlec => Sys2Proof.Machine.execCanBusError can tec rxc lec dlec s
  | .recover can m => Sys2Proof.Machine.execRecover can m s
  | .recoveryDone can => Sys2Proof.Machine.execRecoveryDone can s
  | .startAbr can m => Sys2Proof.Machine.execStartAbr can m s
  | .abrFail can => Sys2Proof.Machine.execAbrFail can s
  | .dioLevelAccepted ch level age => Sys2Proof.Machine.execDioLevelAccepted ch level age s
  | .overload ch ma => Sys2Proof.Machine.execOverload ch ma s
  | .dioThermal ch => Sys2Proof.Machine.execDioThermal ch s
  | .dioRestart m g mask => Sys2Proof.Machine.execDioRestart m g mask s
  | .testPulse ch low => Sys2Proof.Machine.execTestPulse ch low s
  | .openLoad ch ma => Sys2Proof.Machine.execOpenLoad ch ma s
  | .readback ch => Sys2Proof.Machine.execReadback ch s
  | .fsMissing g mv => Sys2Proof.Machine.execFsMissing g mv s
  | .fsLow g mv => Sys2Proof.Machine.execFsLow g mv s
  | .fsRestored g mv => Sys2Proof.Machine.execFsRestored g mv s
  | .analogueConversion n x mv => Sys2Proof.Machine.execAnalogueConversion n x mv s
  | .analogueReadback n dev => Sys2Proof.Machine.execAnalogueReadback n dev s
  | .noLoop n lost => Sys2Proof.Machine.execNoLoop n lost s
  | .islandThermal n => Sys2Proof.Machine.execIslandThermal n s
  | .anaRestart m n => Sys2Proof.Machine.execAnaRestart m n s
  | .miswire n mv => Sys2Proof.Machine.execMiswire n mv s
  | .miswireRetest n clear mv => Sys2Proof.Machine.execMiswireRetest n clear mv s
  | .island n kind => Sys2Proof.Machine.execIsland n kind s
  | .hartSend m n => Sys2Proof.Machine.execHartSend m n s
  | .hartAbort m n => Sys2Proof.Machine.execHartAbort m n s
  | .hartTake m n => Sys2Proof.Machine.execHartTake m n s
  | .hartTransactionEnd n result tries response => Sys2Proof.Machine.execHartTransactionEnd n result tries response s
  | .hartBurst n frame => Sys2Proof.Machine.execHartBurst n frame s
  | .heartbeat l f mask => Sys2Proof.Machine.execHeartbeat l f mask s
  | .laneChange l up => Sys2Proof.Machine.execLaneChange l up s
  | .pairing l f carrier => Sys2Proof.Machine.execPairing l f carrier s
  | .commit l f => Sys2Proof.Machine.execCommit l f s
  | .copyFrame l f => Sys2Proof.Machine.execCopyFrame l f s
  | .loop l f => Sys2Proof.Machine.execLoop l f s
  | .handover l f => Sys2Proof.Machine.execHandover l f s
  | .request l f => Sys2Proof.Machine.execRequest l f s
  | .response l f => Sys2Proof.Machine.execResponse l f s
  | .partnerDutyReleased asserted => Sys2Proof.Machine.execPartnerDutyReleased asserted s
  | .takeIn asserted => Sys2Proof.Machine.execTakeIn asserted s
  | .switch m => Sys2Proof.Machine.execSwitch m s
  | .resync m => Sys2Proof.Machine.execResync m s
  | .shadowCheck p d => Sys2Proof.Machine.execShadowCheck p d s
  | .selftest dio aout ain cores => Sys2Proof.Machine.execSelftest dio aout ain cores s
  | .faultSourceRise parity => Sys2Proof.Machine.execFaultSourceRise parity s
  | .srcClear m => Sys2Proof.Machine.execSrcClear m s
  | .readmitPage m id => Sys2Proof.Machine.execReadmitPage m id s
  | .readmitTask m kind id => Sys2Proof.Machine.execReadmitTask m kind id s
  | .feClear m => Sys2Proof.Machine.execFeClear m s
  | .preset m => Sys2Proof.Machine.execPreset m s
  | .add m => Sys2Proof.Machine.execAdd m s
  | .flush m => Sys2Proof.Machine.execFlush m s
  | .threshHi m v => Sys2Proof.Machine.execThreshHi m v s
  | .tlyUnlock m key => Sys2Proof.Machine.execTlyUnlock m key s
  | .recordWrite ok => Sys2Proof.Machine.execRecordWrite ok s
  | .summaryRecord code => Sys2Proof.Machine.execSummaryRecord code s
  | .logCmd m code sub => Sys2Proof.Machine.execLogCmd m code sub s
  | .wrapAck m n => Sys2Proof.Machine.execWrapAck m n s
  | .epoch m v => Sys2Proof.Machine.execEpoch m v s
  | .winW0Read c m => Sys2Proof.Machine.execWinW0Read c m s
  | .winW7Read c m => Sys2Proof.Machine.execWinW7Read c m s
  | .seekOldest c m => Sys2Proof.Machine.execSeekOldest c m s
  | .seekEnd c m => Sys2Proof.Machine.execSeekEnd c m s
  | .seekSeq c m => Sys2Proof.Machine.execSeekSeq c m s
  | .req m mask => Sys2Proof.Machine.execReq m mask s
  | .commonDriveDone markerOk driveErr => Sys2Proof.Machine.execCommonDriveDone markerOk driveErr s
  | .restCmdText m => Sys2Proof.Machine.execRestCmdText m s
  | .restCmdBlank m => Sys2Proof.Machine.execRestCmdBlank m s
  | .tempRange t => Sys2Proof.Machine.execTempRange t s
  | .estimateExpired dom => Sys2Proof.Machine.execEstimateExpired dom s
  | .farCleared stp => Sys2Proof.Machine.execFarCleared stp s
  | .partnerLineTimeout take => Sys2Proof.Machine.execPartnerLineTimeout take s
  | .edgeW1Read g => Sys2Proof.Machine.execEdgeW1Read g s
  | .stnNsRead stp => Sys2Proof.Machine.execStnNsRead stp s
  | .emitterFault x colour short => Sys2Proof.Machine.execEmitterFault x colour short s
  | .islandLinkRestored n => Sys2Proof.Machine.execIslandLinkRestored n s
  | .clockLockRestored k => Sys2Proof.Machine.execClockLockRestored k s
  | .powerStageCooled kind n => Sys2Proof.Machine.execPowerStageCooled kind n s
  | .islandReady n ma => Sys2Proof.Machine.execIslandReady n ma s
  | .tallyTimeCount temp => Sys2Proof.Machine.execTallyTimeCount temp s
  | .dip => Sys2Proof.Machine.execDip s
  | .supplyLoss => Sys2Proof.Machine.execSupplyLoss s
  | .holdupDomainsOff => Sys2Proof.Machine.execHoldupDomainsOff s
  | .holdupRecorderTail => Sys2Proof.Machine.execHoldupRecorderTail s
  | .holdupRestImage => Sys2Proof.Machine.execHoldupRestImage s
  | .holdupCompletion => Sys2Proof.Machine.execHoldupCompletion s
  | .supWatchdogExpiry => Sys2Proof.Machine.execSupWatchdogExpiry s
  | .supUncorrectableError => Sys2Proof.Machine.execSupUncorrectableError s
  | .identifyPress => Sys2Proof.Machine.execIdentifyPress s
  | .maintenanceStart => Sys2Proof.Machine.execMaintenanceStart s
  | .identifyRelease => Sys2Proof.Machine.execIdentifyRelease s
  | .identifyEnd => Sys2Proof.Machine.execIdentifyEnd s
  | .shutdownDomainOff => Sys2Proof.Machine.execShutdownDomainOff s
  | .runEntry => Sys2Proof.Machine.execRunEntry s
  | .autorun => Sys2Proof.Machine.execAutorun s
  | .stopComplete => Sys2Proof.Machine.execStopComplete s
  | .exchangeSearchTimeout => Sys2Proof.Machine.execExchangeSearchTimeout s
  | .moveStalled => Sys2Proof.Machine.execMoveStalled s
  | .forceTakeEffect => Sys2Proof.Machine.execForceTakeEffect s
  | .syncRequest => Sys2Proof.Machine.execSyncRequest s
  | .syncFreeze => Sys2Proof.Machine.execSyncFreeze s
  | .syncClose => Sys2Proof.Machine.execSyncClose s
  | .syncFeedback => Sys2Proof.Machine.execSyncFeedback s
  | .syncPulseEnd => Sys2Proof.Machine.execSyncPulseEnd s
  | .cbNoClose => Sys2Proof.Machine.execCbNoClose s
  | .syncTmo => Sys2Proof.Machine.execSyncTmo s
  | .stationTimeWrap => Sys2Proof.Machine.execStationTimeWrap s
  | .stampTimeWrap => Sys2Proof.Machine.execStampTimeWrap s
  | .tsW3Read => Sys2Proof.Machine.execTsW3Read s
  | .residualCleared => Sys2Proof.Machine.execResidualCleared s
  | .announce => Sys2Proof.Machine.execAnnounce s
  | .claimWait => Sys2Proof.Machine.execClaimWait s
  | .claimCheck => Sys2Proof.Machine.execClaimCheck s
  | .heartbeatSend => Sys2Proof.Machine.execHeartbeatSend s
  | .heartbeatLoss => Sys2Proof.Machine.execHeartbeatLoss s
  | .pairingSend => Sys2Proof.Machine.execPairingSend s
  | .loopSnapshot => Sys2Proof.Machine.execLoopSnapshot s
  | .handInstant => Sys2Proof.Machine.execHandInstant s
  | .handoverNoWindow => Sys2Proof.Machine.execHandoverNoWindow s
  | .yieldOutRelease => Sys2Proof.Machine.execYieldOutRelease s
  | .pairSyncTmo => Sys2Proof.Machine.execPairSyncTmo s
  | .rotation => Sys2Proof.Machine.execRotation s
  | .dateRead => Sys2Proof.Machine.execDateRead s
  | .calCommitApply => Sys2Proof.Machine.execCalCommitApply s
  | .alarmFire => Sys2Proof.Machine.execAlarmFire s
  | .wake => Sys2Proof.Machine.execWake s
  | .oscillatorStop => Sys2Proof.Machine.execOscillatorStop s
  | .lbf => Sys2Proof.Machine.execLbf s
  | .yearWrap => Sys2Proof.Machine.execYearWrap s
  | .tallyFlush => Sys2Proof.Machine.execTallyFlush s
  | .recordReceive => Sys2Proof.Machine.execRecordReceive s
  | .regionUpdateStart => Sys2Proof.Machine.execRegionUpdateStart s
  | .readyLost => Sys2Proof.Machine.execReadyLost s
  | .valueLoRead => Sys2Proof.Machine.execValueLoRead s

end Sys2Proof.Machine
end

