-- ==== Sys2Proof/Safety.lean ====
section
/-! DEFINITION. What the statements speak of: the invariant of the block's state, the parts of the state that a command may
change, and how a command completes. -/

namespace Sys2Proof.Machine

/-- A date and time of the calendar: a year from 2000 to 2199, a month, a day that the month has, a time of day, and the two
counters below the second (R422). -/
def CalTime.valid (t : CalTime) : Bool :=
  decide (2000 ≤ t.year) && decide (t.year ≤ 2199) && decide (1 ≤ t.month) && decide (t.month ≤ 12) && decide (1 ≤ t.day)
    && decide (t.day ≤ monthLen t.year t.month) && decide (t.hour ≤ 23) && decide (t.minute ≤ 59) && decide (t.second ≤ 59)
    && decide (t.frac ≤ 255) && decide (t.presc ≤ 127)

/-- What every step keeps: the memories in canonical form (R54), the calendar on a date that exists (R422), the timestamp FIFO
(R273), REC's queue and ring within their sizes (R438, R440), and the tallies within 64 bits (R434) together with their records
(R435: a value of 64 bits above a sequence of 32). -/
structure State.Inv (s : State) : Prop where
  mem : Memory.wf s.mem = true
  flash : Memory.wf s.flash = true
  cal : s.cal.now.valid = true
  ts : s.tsFifo.length ≤ 64
  recq : s.recd.queue.length ≤ 1024
  held : s.recd.held ≤ 262144
  ring : s.recd.nextIdx < 262144
  val : ∀ i, Store.get 0 s.tly.val i < 2 ^ 64
  recs : ∀ i, Store.get 0 s.tly.recs i < 2 ^ 96

/-- The parts of the state that a command may change or leave as they are: one for each component of `State` but the queue, and
one for the instant of the calendar alone. -/
inductive Part where
  | regs | shad | buf | mem | flash | ecc | boot | pins | clk | ts | recd | evd
  | flt | bus | cal | now | tly | sent | eth | can | forceQ | forceReq | lastRec | pnl
  | dio | ana | lpe | froze | ax | asrc | ang | sync | dwy | seq | pair | free
deriving DecidableEq, Repr

/-- A part stands in `t` as in `s`. -/
def Part.same (q : Part) (s t : State) : Prop :=
  match q with
  | .regs => t.regs = s.regs
  | .shad => t.shad = s.shad
  | .buf => t.buf = s.buf
  | .mem => t.mem = s.mem
  | .flash => t.flash = s.flash
  | .ecc => t.ecc = s.ecc
  | .boot => t.boot = s.boot
  | .pins => t.pins = s.pins
  | .clk => t.clk = s.clk
  | .ts => t.tsFifo = s.tsFifo
  | .recd => t.recd = s.recd
  | .evd => t.evd = s.evd
  | .flt => t.flt = s.flt
  | .bus => t.bus = s.bus
  | .cal => t.cal = s.cal
  | .now => t.cal.now = s.cal.now
  | .tly => t.tly = s.tly
  | .sent => t.sent = s.sent
  | .eth => t.eth = s.eth
  | .can => t.can = s.can
  | .forceQ => t.forceQ = s.forceQ
  | .forceReq => t.forceReq = s.forceReq
  | .lastRec => t.lastRec = s.lastRec
  | .pnl => t.pnl = s.pnl
  | .dio => t.dio = s.dio
  | .ana => t.ana = s.ana
  | .lpe => t.lpe = s.lpe
  | .froze => t.frozeAt = s.frozeAt
  | .ax => t.ax = s.ax
  | .asrc => t.asrc = s.asrc
  | .ang => t.ang = s.ang
  | .sync => t.sync = s.sync
  | .dwy => t.dwy = s.dwy
  | .seq => t.seq = s.seq
  | .pair => t.pair = s.pair
  | .free => t.freeUses = s.freeUses

/-- Every part. -/
def Part.all : List Part :=
  List.append [.regs, .shad, .buf, .mem, .flash, .ecc, .boot, .pins, .clk, .ts, .recd, .evd, .flt, .bus, .cal, .now, .tly, .sent]
    [.eth, .can, .forceQ, .forceReq, .lastRec, .pnl, .dio, .ana, .lpe, .froze, .ax, .asrc, .ang, .sync, .dwy, .seq, .pair, .free]

/-- Every part but the ones of a list. -/
def Part.except (l : List Part) : List Part := Part.all.filter (fun q => !l.contains q)

/-- The parts that a tick of the reference may change: the counters of TIME, the calendar, the axes, and what the loop base
tick takes and writes. -/
def tickParts : List Part :=
  [.regs, .mem, .ecc, .clk, .recd, .evd, .flt, .cal, .now, .tly, .eth, .can, .forceQ, .lastRec, .dio, .ana, .lpe,
   .ax, .asrc, .ang, .free]

/-- The parts that a command may change at most. Where a command can raise a fault or an event, the parts of `State.raise` are
among them: the fault words, the records, the conditions, the tallies. -/
def commandParts (c : Instr) : List Part :=
  match c with
  | .supplyValid .. => [.regs, .shad, .buf, .boot, .flt, .cal, .now, .pnl]
  | .pd1Start .. | .restartAfterHoldup .. | .overTemperatureRestart .. => Part.except [.flash, .now, .sent]
  | .slotIdPoll .. =>
      [.regs, .mem, .ecc, .pins, .recd, .evd, .flt, .tly, .forceQ, .lastRec, .dio, .ana, .lpe, .ax, .asrc, .ang, .seq, .free]
  | .slotIdDeadline .. => [.regs, .boot, .pins, .recd, .evd, .flt, .tly, .pnl, .free]
  | .slotIdSample .. => [.regs, .boot, .pins, .recd, .evd, .flt, .tly, .free]
  | .fwSlotVerify .. | .domainStart .. | .domainRetry .. | .domOn .. =>
      Part.except [.flash, .pins, .clk, .ts, .bus, .cal, .now]
  | .domainStartFault .. => Part.except [.flash, .pins, .clk, .ts, .bus, .cal, .now, .lastRec]
  | .powerGoodLost .. => Part.except [.flash, .boot, .pins, .clk, .ts, .bus, .cal, .now, .lastRec, .pnl]
  | .domOff .. | .holdupDomainsOff .. | .shutdownDomainOff .. =>
      Part.except [.flash, .pins, .clk, .ts, .bus, .cal, .now, .sent, .lastRec, .pnl]
  | .supplyInputLost .. | .supplyInputRestored .. | .cellMeasure .. | .clockFault .. | .refDrift .. | .vmotLow ..
    | .vmotRestored .. | .thermalWarning .. | .linkChange .. | .recoveryDone .. | .abrFail .. | .overload ..
    | .openLoad .. | .readback .. | .partnerLineTimeout .. | .tallyTimeCount .. | .dip .. | .exchangeSearchTimeout ..
    | .syncFeedback .. | .oscillatorStop .. | .tallyFlush .. => [.regs, .recd, .evd, .flt, .tly, .free]
  | .lowInput .. | .clockLockRestored .. | .islandReady .. | .lbf .. => [.regs, .flt]
  | .holdupMeasure .. | .tempWarn .. | .unlock .. | .flashRead .. | .flashWrite .. | .flashErase .. | .ownerWrite ..
    | .faultEnWrite .. | .holdMask .. | .stnInc .. | .stnDom .. | .rxqTail .. | .txDone .. | .recover ..
    | .anaRestart .. | .hartTake .. | .feClear .. | .preset .. | .add .. | .flush .. | .threshHi .. | .tlyUnlock ..
    | .logCmd .. | .wrapAck .. | .epoch .. | .seekOldest .. | .seekEnd .. | .seekSeq .. | .identifyPress ..
    | .maintenanceStart .. => [.regs, .boot, .recd, .evd, .flt, .tly, .free]
  | .holdupTest .. | .restart .. | .shutdown .. | .identify .. | .recorderClear .. | .keyEnrol .. | .keyRevoke ..
    | .fwSlotPrefer .. | .fwLoad .. | .imageLoad .. =>
      [.regs, .mem, .ecc, .boot, .recd, .evd, .flt, .tly, .pnl, .dio, .ax, .seq, .pair, .free]
  | .imageVerify .. => [.regs, .boot, .recd, .evd, .flt, .tly, .pnl, .seq, .free]
  | .stopReached .. => Part.except [.flash, .pins, .clk, .ts, .bus, .cal, .now, .froze]
  | .overTemperatureShutdown .. | .supplyLoss .. | .supWatchdogExpiry .. | .supUncorrectableError .. =>
      [.regs, .boot, .recd, .evd, .flt, .tly, .pnl, .dio, .ax, .seq, .pair, .free]
  | .shutdownTail .. => [.regs, .mem, .ecc, .boot, .recd, .evd, .flt, .tly, .pnl, .free]
  | .fwLoadComplete .. => [.regs, .flash, .boot, .recd, .evd, .flt, .tly, .free]
  | .imageLoadComplete .. => [.regs, .flash, .boot, .recd, .evd, .flt, .tly, .seq, .free]
  | .flashOperationDone .. => [.regs, .mem, .flash, .ecc, .boot, .recd, .evd, .flt, .tly, .free]
  | .registerWrite .. | .corePairAccess .. | .request .. => Part.except [.flash, .pins, .now]
  | .commitGo .. => [.regs, .buf, .boot, .recd, .evd, .flt, .cal, .tly, .lpe, .ang, .free]
  | .discard .. => [.regs, .shad, .buf, .boot, .recd, .evd, .flt, .cal, .tly, .lpe, .ang, .free]
  | .commitApply .. => Part.except [.flash, .boot, .pins, .ts, .bus, .can, .forceReq, .froze, .asrc, .sync, .pair]
  | .faultClear .. | .hold .. | .holdClear .. | .seqRun .. | .seqStop .. | .seqHold .. | .seqRelease .. | .step ..
    | .cancel .. | .abandonMoves .. | .autorun .. => [.regs, .boot, .recd, .evd, .flt, .tly, .seq, .free]
  | .run .. | .corePairRunOn .. =>
      [.regs, .mem, .ecc, .boot, .recd, .evd, .flt, .tly, .forceQ, .lastRec, .dio, .ana, .lpe, .ax, .asrc, .ang, .seq, .free]
  | .runClear .. | .corePairRunOff .. =>
      [.regs, .mem, .ecc, .boot, .recd, .evd, .flt, .tly, .sent, .eth, .forceQ, .lastRec, .dio, .ana, .lpe, .ax, .ang,
        .sync, .seq, .free]
  | .lockstepMismatch .. =>
      [.regs, .mem, .ecc, .recd, .evd, .flt, .tly, .sent, .eth, .can, .forceQ, .dio, .ana, .ax, .asrc, .ang, .dwy, .free]
  | .lockstepSelftest .. =>
      Part.except [.shad, .buf, .flash, .boot, .pins, .clk, .ts, .bus, .cal, .now, .forceReq, .pnl, .froze, .sync, .pair]
  | .eventTake .. => [.regs, .recd, .evd, .flt, .bus, .free]
  | .taskFreeze .. => [.regs, .mem, .ecc, .recd, .evd, .flt, .tly, .forceQ, .froze, .ang, .sync, .dwy, .seq, .free]
  | .taskExecutionEnd .. =>
      [.regs, .mem, .ecc, .recd, .evd, .flt, .tly, .sent, .eth, .forceQ, .lastRec, .seq, .pair, .free]
  | .taskPublish .. =>
      [.regs, .mem, .ecc, .recd, .evd, .flt, .tly, .sent, .eth, .forceQ, .lastRec, .ang, .sync, .seq, .pair, .free]
  | .taskApply .. => [.regs, .recd, .evd, .flt, .tly, .lastRec, .dio, .ana, .ax, .free]
  | .ton .. | .tof .. | .tp .. | .ctu .. | .ctd .. | .ctud .. | .rTrig .. | .fTrig .. | .fast .. | .srcClear ..
    | .moveStalled .. => [.regs, .recd, .evd, .flt, .tly, .seq, .free]
  | .fastEdge .. => [.regs, .seq]
  | .prepare .. | .apply .. => [.regs, .boot, .recd, .evd, .flt, .tly, .sent, .seq, .pair, .free]
  | .exchangePrepared .. =>
      Part.except [.flash, .boot, .pins, .clk, .ts, .bus, .cal, .now, .can, .pnl, .froze, .asrc, .sync, .pair]
  | .exchangeWindow .. => Part.except [.flash, .boot, .pins, .clk, .ts, .bus, .cal, .now, .can, .pnl, .froze, .asrc]
  | .replace .. =>
      [.regs, .mem, .ecc, .boot, .recd, .evd, .flt, .tly, .sent, .eth, .lastRec, .dio, .ana, .ax, .ang, .sync, .seq, .free]
  | .placementRunFence .. =>
      [.regs, .mem, .ecc, .recd, .evd, .flt, .tly, .sent, .eth, .lastRec, .dio, .ana, .ax, .ang, .sync, .seq, .free]
  | .tier0FillDone .. => [.mem, .ecc, .seq]
  | .directoryWrite .. | .recordWrite .. => [.regs, .mem, .ecc, .recd, .evd, .flt, .tly, .free]
  | .force .. | .forceRelease .. => [.regs, .boot, .recd, .evd, .flt, .tly, .forceReq, .free]
  | .lpeRunOn .. | .traceArm .. | .armAll .. | .traceForce .. | .traceStop .. =>
      [.regs, .boot, .recd, .evd, .flt, .tly, .lpe, .free]
  | .lpeRunOff .. =>
      [.regs, .mem, .ecc, .boot, .recd, .evd, .flt, .tly, .forceQ, .lastRec, .dio, .ana, .lpe, .ax, .seq, .free]
  | .loopSample .. | .slotCommitTimeout .. | .foldSample .. =>
      [.regs, .buf, .mem, .ecc, .recd, .evd, .flt, .tly, .forceQ, .lastRec, .dio, .ana, .lpe, .ax, .seq, .free]
  | .loopOutputWrite .. | .loopRecordWrite .. =>
      [.regs, .mem, .ecc, .recd, .evd, .flt, .tly, .forceQ, .lastRec, .dio, .ana, .lpe, .ax, .seq, .free]
  | .encoderCount .. =>
      [.regs, .mem, .ecc, .recd, .evd, .flt, .tly, .forceQ, .lastRec, .dio, .lpe, .ax, .asrc, .ang, .sync, .seq, .free]
  | .wire .. | .standstill .. => [.regs, .mem, .ecc, .recd, .evd, .flt, .tly, .forceQ, .asrc, .ang, .free]
  | .mainsCrossing .. =>
      [.regs, .shad, .buf, .mem, .ecc, .recd, .evd, .flt, .tly, .forceQ, .lastRec, .dio, .lpe, .ax, .asrc, .ang,
        .sync, .seq, .free]
  | .mainsSignalLost .. => [.regs, .mem, .ecc, .recd, .evd, .flt, .tly, .forceQ, .asrc, .ang, .sync, .free]
  | .angleRead .. | .winW0Read .. | .stnNsRead .. | .dateRead .. | .valueLoRead .. => [.regs, .bus]
  | .slotArm .. | .slotDisarm .. => [.regs, .boot, .recd, .evd, .flt, .tly, .ang, .free]
  | .actionIssue .. =>
      [.regs, .mem, .ecc, .recd, .evd, .flt, .tly, .forceQ, .lastRec, .dio, .lpe, .ax, .ang, .sync, .seq, .free]
  | .moveAbs .. | .moveRel .. | .velocity .. | .axisStop .. | .quickStop .. | .home .. | .gearIn .. | .gearOut ..
    | .moveDone .. | .gearRatioApplied .. | .gearSrc .. | .switchQualified .. | .homingComplete .. | .chatter ..
    | .vmotMissing .. | .vmotOver .. | .overcurrent .. | .openCoil .. | .thermalShutdown .. =>
      [.regs, .recd, .evd, .flt, .tly, .ax, .free]
  | .gearLag .. => [.regs, .recd, .evd, .flt, .tly, .lastRec, .free]
  | .holdDelay .. => [.ax]
  | .ptpTimestamp .. => [.regs, .ts, .recd, .evd, .flt, .tly, .lastRec, .free]
  | .syncAccepted .. | .domainLost .. | .farCleared .. | .stampTimeWrap .. | .residualCleared .. =>
      [.regs, .clk, .recd, .evd, .flt, .tly, .free]
  | .firstStn .. | .stepStn .. | .stepStp .. | .stepBoth .. =>
      [.regs, .mem, .ecc, .boot, .clk, .recd, .evd, .flt, .tly, .eth, .asrc, .ang, .free]
  | .firstStp .. | .stnAdj .. | .domOfs .. | .stpSwitch .. => [.regs, .boot, .clk, .recd, .evd, .flt, .tly, .free]
  | .frameLaunch .. | .frameReceive .. => [.regs, .mem, .ecc, .recd, .evd, .flt, .tly, .sent, .eth, .lastRec, .free]
  | .announceReturn .. | .offerLapse .. => [.regs, .recd, .evd, .flt, .tly, .dwy, .free]
  | .join .. | .rejoin .. => [.regs, .mem, .ecc, .recd, .evd, .flt, .tly, .sent, .eth, .forceQ, .lastRec, .dwy, .free]
  | .accept .. => [.regs, .recd, .evd, .flt, .tly, .sent, .eth, .lastRec, .dwy, .free]
  | .cycleIn .. | .leave .. => [.regs, .mem, .ecc, .recd, .evd, .flt, .tly, .forceQ, .lastRec, .dwy, .free]
  | .evaluateStations .. => [.regs, .mem, .ecc, .recd, .evd, .flt, .tly, .forceQ, .dwy, .free]
  | .stnReadmit .. => [.regs, .boot, .recd, .evd, .flt, .tly, .dwy, .free]
  | .stnLeave .. => [.regs, .mem, .ecc, .boot, .recd, .evd, .flt, .tly, .sent, .eth, .forceQ, .dwy, .free]
  | .txqTail .. => [.regs, .boot, .recd, .evd, .flt, .tly, .eth, .free]
  | .txWriteBack .. => [.regs, .mem, .ecc, .recd, .evd, .flt, .tly, .sent, .eth, .free]
  | .lanLost .. => [.regs, .recd, .evd, .flt, .tly, .eth, .free]
  | .txSubmit .. | .txAbort .. => [.regs, .mem, .ecc, .boot, .recd, .evd, .flt, .tly, .can, .free]
  | .canTxComplete .. => [.regs, .mem, .ecc, .recd, .evd, .flt, .tly, .sent, .can, .lastRec, .free]
  | .canReceive .. => [.regs, .mem, .ecc, .recd, .evd, .flt, .tly, .can, .lastRec, .free]
  | .rxAck .. | .startAbr .. => [.regs, .boot, .recd, .evd, .flt, .tly, .can, .free]
  | .canBusError .. => [.regs, .mem, .ecc, .recd, .evd, .flt, .tly, .can, .free]
  | .dioLevelAccepted .. | .fsMissing .. | .fsRestored .. =>
      [.regs, .mem, .ecc, .recd, .evd, .flt, .tly, .forceQ, .dio, .free]
  | .dioThermal .. | .testPulse .. => [.regs, .recd, .evd, .flt, .tly, .dio, .free]
  | .dioRestart .. => [.regs, .boot, .recd, .evd, .flt, .tly, .dio, .free]
  | .fsLow .. | .noLoop .. => [.regs, .mem, .ecc, .recd, .evd, .flt, .tly, .forceQ, .free]
  | .analogueConversion .. => [.regs, .mem, .ecc, .recd, .evd, .flt, .tly, .forceQ, .lastRec, .ana, .free]
  | .analogueReadback .. | .islandThermal .. | .miswire .. | .island .. =>
      [.regs, .mem, .ecc, .recd, .evd, .flt, .tly, .forceQ, .ana, .free]
  | .miswireRetest .. => [.regs, .recd, .evd, .flt, .tly, .ana, .free]
  | .hartSend .. => [.regs, .boot, .recd, .evd, .flt, .tly, .sent, .ana, .free]
  | .hartAbort .. => [.regs, .boot, .recd, .evd, .flt, .tly, .ana, .free]
  | .hartTransactionEnd .. => [.regs, .recd, .evd, .flt, .tly, .sent, .ana, .free]
  | .hartBurst .. => [.regs, .recd, .evd, .flt, .free]
  | .heartbeat .. | .handInstant .. => [.regs, .recd, .evd, .flt, .tly, .sent, .dio, .ax, .sync, .seq, .pair, .free]
  | .laneChange .. | .heartbeatLoss .. | .handoverNoWindow .. | .rotation .. | .readyLost .. =>
      [.regs, .recd, .evd, .flt, .tly, .pair, .free]
  | .pairing .. => [.regs, .recd, .evd, .flt, .tly, .sent, .seq, .pair, .free]
  | .commit .. => [.regs, .mem, .ecc, .recd, .evd, .flt, .tly, .sent, .forceQ, .dwy, .seq, .pair, .free]
  | .copyFrame .. | .handover .. | .response .. => [.regs, .flt, .pair]
  | .loop .. => [.regs, .mem, .ecc, .recd, .evd, .flt, .tly, .forceQ, .lpe, .ax, .pair, .free]
  | .partnerDutyReleased .. | .takeIn .. | .claimWait .. => [.regs, .pair]
  | .switch .. => [.regs, .boot, .recd, .evd, .flt, .tly, .pair, .free]
  | .resync .. => [.regs, .boot, .recd, .evd, .flt, .tly, .sent, .pair, .free]
  | .shadowCheck .. | .pairSyncTmo .. => [.regs, .recd, .evd, .flt, .tly, .sent, .pair, .free]
  | .selftest .. =>
      [.regs, .mem, .ecc, .recd, .evd, .flt, .tly, .sent, .eth, .can, .forceQ, .dio, .ana, .ax, .asrc, .ang, .dwy,
        .pair, .free]
  | .faultSourceRise .. =>
      Part.except [.shad, .buf, .flash, .boot, .pins, .clk, .ts, .bus, .cal, .now, .forceReq, .lastRec, .pnl, .lpe, .froze]
  | .readmitPage .. =>
      [.regs, .mem, .ecc, .recd, .evd, .flt, .tly, .sent, .eth, .forceQ, .lastRec, .dio, .ana, .ax, .asrc, .ang, .dwy, .free]
  | .readmitTask .. => [.regs, .mem, .ecc, .recd, .evd, .flt, .tly, .ang, .sync, .seq, .free]
  | .summaryRecord .. | .recordReceive .. => [.regs, .recd, .flt]
  | .winW7Read .. => [.regs, .recd, .evd, .flt, .bus, .tly, .free]
  | .req .. | .restCmdText .. | .restCmdBlank .. | .holdupRestImage .. =>
      [.regs, .boot, .recd, .evd, .flt, .tly, .pnl, .free]
  | .commonDriveDone .. | .tempRange .. | .emitterFault .. => [.regs, .recd, .evd, .flt, .tly, .pnl, .free]
  | .estimateExpired .. | .yieldOutRelease .. => [.regs]
  | .edgeW1Read .. => [.regs, .bus, .dio]
  | .islandLinkRestored .. => [.flt, .ana]
  | .powerStageCooled .. => [.regs, .flt, .ana]
  | .holdupRecorderTail .. => [.regs, .mem, .ecc, .boot, .recd, .evd, .flt, .tly, .free]
  | .holdupCompletion .. => [.regs, .boot, .pnl]
  | .identifyRelease .. => [.boot, .pins]
  | .identifyEnd .. => [.boot]
  | .runEntry .. => [.regs, .recd, .evd, .flt, .tly, .dio, .lpe, .seq, .free]
  | .stopComplete .. => [.regs, .recd, .evd, .flt, .tly, .sent, .eth, .lastRec, .dio, .ana, .ax, .ang, .sync, .seq, .free]
  | .forceTakeEffect .. => [.mem, .ecc, .forceQ, .forceReq]
  | .syncRequest .. | .syncFreeze .. => [.regs, .recd, .evd, .flt, .tly, .ang, .sync, .free]
  | .syncClose .. => [.regs, .recd, .evd, .flt, .tly, .dio, .ang, .sync, .free]
  | .syncPulseEnd .. => [.regs, .recd, .evd, .flt, .tly, .dio, .sync, .free]
  | .cbNoClose .. | .syncTmo .. => [.regs, .recd, .evd, .flt, .tly, .ang, .free]
  | .stationTimeWrap .. => [.regs, .clk, .recd, .evd, .flt, .free]
  | .tsW3Read .. => [.ts, .bus]
  | .announce .. => [.regs, .recd, .evd, .flt, .tly, .sent, .eth, .dwy, .free]
  | .claimCheck .. =>
      Part.except [.shad, .buf, .flash, .boot, .pins, .clk, .ts, .bus, .cal, .now, .forceReq, .pnl, .froze]
  | .heartbeatSend .. | .pairingSend .. | .loopSnapshot .. => [.regs, .sent, .pair]
  | .calCommitApply .. | .yearWrap .. => [.regs, .shad, .recd, .evd, .flt, .cal, .now, .tly, .free]
  | .alarmFire .. => [.regs, .shad, .recd, .evd, .flt, .cal, .tly, .free]
  | .wake .. => [.regs, .recd, .evd, .flt, .cal, .free]
  | .regionUpdateStart .. => [.regs, .pnl]

/-- The write that a command makes to an action register: its page, its offset, its master. Commands that are no such write, and
those that R73 gives a result of their own when they are refused, have none. -/
def actionAccess (c : Instr) : Option (Nat × Nat × Nat) :=
  match c with
  | .run m page | .runClear m page | .hold m page | .holdClear m page =>
      if populated page.toNat then some (page.toNat, 0x00C, m.val) else none
  | .faultEnWrite m page _ => if populated page.toNat then some (page.toNat, 0x014, m.val) else none
  | .commitGo m page | .discard m page => if populated page.toNat then some (page.toNat, 0x018, m.val) else none
  | .corePairRunOn m p | .corePairRunOff m p => some (pgCP p.val, 0x00C, m.val)
  | .domOff m _ | .domOn m _ _ => some (pgPWR, 0x04C, m.val)
  | .flashRead m | .flashWrite m | .flashErase m => some (pgSUP, 0x098, m.val)
  | .seqRun m | .seqStop m | .seqHold m | .seqRelease m => some (pgSEQ, 0x00C, m.val)
  | .holdMask m _ => some (pgSEQ, SEQ.HOLD_MASK.off, m.val)
  | .step m _ => some (pgSEQ, SEQ.STEP.off, m.val)
  | .prepare m | .apply m _ | .cancel m => some (pgSEQ, SEQ.XCHG_CMD.CODE.off, m.val)
  | .lpeRunOn m | .lpeRunOff m => some (pgLPE, 0x00C, m.val)
  | .traceArm k m | .traceForce k m | .traceStop k m => some (pgLPT, (LPT.CMD.CODE k.val).off, m.val)
  | .armAll _ m => some (pgLPT, LPT.ARM_ALL.MASK.off, m.val)
  | .slotArm m | .slotDisarm m => some (pgANG, ANG.SLOT_CMD.CODE.off, m.val)
  | .firstStn m | .firstStp m | .stepStn m | .stepStp m | .stepBoth m => some (pgTIME, 0x0AC, m.val)
  | .stnAdj m _ => some (pgTIME, 0x054, m.val)
  | .stnInc m _ => some (pgTIME, 0x050, m.val)
  | .domOfs m d _ => some (pgTIME, 0x090 + 4 * d.val, m.val)
  | .stnDom m _ | .stpSwitch m => some (pgTIME, 0x064, m.val)
  | .stnReadmit a m | .stnLeave a m => some (pgSTN a.val, STN.CMD.CODE.off, m.val)
  | .txqTail p m _ => some (pgETH p.val, 0x05C, m.val)
  | .rxqTail p m _ => some (pgETH p.val, 0x074, m.val)
  | .txSubmit n m _ _ => some (pgCAN n.val, 0x05C, m.val)
  | .txAbort n m _ => some (pgCAN n.val, 0x060, m.val)
  | .txDone n m _ => some (pgCAN n.val, 0x06C, m.val)
  | .rxAck n m _ => some (pgCAN n.val, 0x07C, m.val)
  | .recover n m | .startAbr n m => some (pgCAN n.val, 0x094, m.val)
  | .dioRestart m g _ => some (pgDIOG g.val, 0x04C, m.val)
  | .anaRestart m n => some (pgANA n.val, 0x074, m.val)
  | .hartSend m n | .hartAbort m n | .hartTake m n => some (pgANA n.val, 0x0A4, m.val)
  | .feClear m => some (pgLEG, 0x050, m.val)
  | .threshHi m _ => some (pgTLY, 0x050, m.val)
  | .tlyUnlock m _ => some (pgTLY, 0x060, m.val)
  | .wrapAck m _ => some (pgREC, 0x048, m.val)
  | .epoch m _ => some (pgREC, 0x040, m.val)
  | .req m _ => some (pgPNL, 0x064, m.val)
  | .restCmdText m | .restCmdBlank m => some (pgPNL, 0x068, m.val)
  | _ => none

/-- Master `m` may act on the action registers of a page: pages are served to it (R47), the page is its own (R73), and the
block's domain is on (R64). -/
def State.mayAct (s : State) (page m : Nat) : Prop := s.servedTo m = true ∧ s.owner page = m ∧ s.pageOn page = true

theorem Part.same_refl (q : Part) (s : State) : q.same s s := by cases q <;> rfl

theorem Part.same.trans {q : Part} {s t u : State} (h2 : q.same t u) (h1 : q.same s t) : q.same s u := by
  cases q <;> exact Eq.trans h2 h1

end Sys2Proof.Machine
end

