-- ==== Sys2Proof/WellFormed.lean ====
section
/-! DEFINITION. Which commands the outside can send: the bounds that the spec gives frames, data and lists and that the operand
types do not hold. `Machine.step` does not ask for them: its meanings are total. -/

namespace Sys2Proof

/-- No number stands twice. -/
def distinct (l : List Nat) : Bool := l.eraseDups.length == l.length

/-- Data bytes of a CAN DLC (R341): 0 to 8, then 12, 16, 20, 24, 32, 48 and 64. -/
def canBytes (dlc : Nat) : Nat :=
  if dlc ≤ 8 then dlc else [12, 16, 20, 24, 32, 48, 64].getD (dlc - 9) 64

/-- An Ethernet frame without its FCS as a port can receive it: at least the addresses and the type, at most 1,522 bytes with
one tag and a redundancy trailer (R328, R330). -/
def ethLen (f : List Byte) : Bool := decide (14 ≤ f.length) && decide (f.length ≤ 1522)

/-- A Dervor frame: a header of 8 bytes, at most 1,040 bytes of payload, 4 bytes of CRC (R383). -/
def dervorLen (f : List Byte) : Bool := decide (12 ≤ f.length) && decide (f.length ≤ 1052)

/-- A station image as its own rules bound it: tasks, entries and the path hashes of instances stand once, 32 places of the
shed order (R88, R121, R135, R144). -/
def StationImage.wellFormed (im : StationImage) : Bool :=
  distinct (im.tasks.map (fun t => t.task.val)) && distinct (im.entries.map (fun e => e.index.val))
    && distinct (im.instances.map (fun i => i.hash.toNat)) && decide (im.shedOrder.length ≤ 32)
    && im.entries.all (fun e => decide (e.init.length ≤ 8184))

/-- The width that an access of a core pair carries: a write of 2^n bytes gives no more than them (R55). -/
def CoreOp.wellFormed : CoreOp → Bool
  | .write n v => decide (v.toNat < 2 ^ (8 * 2 ^ n.val))
  | .read _ | .fetch _ | .fpMode | .time => true

/-- The command's operands lie within the bounds of the spec. -/
def Instr.wellFormed : Instr → Bool
  | .imageVerify im _ | .imageLoadComplete _ im _ => im.wellFormed
  | .frameReceive _ _ f | .join f | .accept f | .cycleIn f | .rejoin f | .leave f => ethLen f
  | .canReceive _ _ _ _ _ _ dlc data => data.length == canBytes dlc.val
  | .hartTransactionEnd _ _ _ f | .hartBurst _ f => decide (f.length ≤ 256)
  | .heartbeat _ f _ | .pairing _ f _ | .commit _ f | .copyFrame _ f | .loop _ f | .handover _ f | .request _ f
  | .response _ f => dervorLen f
  | .corePairAccess _ op _ _ _ _ _ _ _ => op.wellFormed
  | .taskExecutionEnd _ _ outs lines =>
    distinct (outs.map (fun o => o.1.val)) && lines.all (fun l => l.2.length == 64)
  | .domainRetry l => distinct (l.map (fun p => p.1.val))
  | .selftest dio aout ain _ => distinct (dio.map (fun n => n.val)) && distinct (aout.map (fun n => n.val))
      && distinct (ain.map (fun n => n.val))
  | .canBusError _ tec _ _ _ => decide (tec.toNat ≤ 256)
  | _ => true

end Sys2Proof
end

