-- ==== Sys2Proof/Certificates/Slice0/Obligations.lean ====
section
/-! DEFINITION. The statements for the provers. The first ones are about every command, every step and the shared operations;
the others go family by family through the table of commands and say, for every command, a next state that it answers. -/

open Sys2Proof Sys2Proof.Machine

/-- A step runs the command at the front of the queue, on the state with the rest of the queue
(spec/95_what_each_step_holds.md). For every command c, every list of commands that wait behind it and every state,
the step with c at the front of the queue is exec of c on that state with the rest as its queue, whatever the outcome.
Nothing else is added around exec. -/
def Obligations.StepRunsFrontCommand : Prop :=
  ∀ (c : Instr) (rest : List Instr) (s : State), step { s with pending := c :: rest } = exec c { s with pending := rest }

/-- With nothing waiting a step is one tick of the reference, by the model's choice (assumption 11) (R267, R269,
R422). The model's choice of assumption 11: with an empty queue the step lets one tick of the 100 MHz reference pass
and answers a next state. A tick changes only the parts that it lists as a tick's, and the queue only grows at its
end; a block with neither PD0 nor PD1 stays as it is. -/
def Obligations.EmptyQueueTicks : Prop :=
  (∀ s : State, s.pending = [] → step s = .next s.idle) ∧
  (∀ s : State, (∀ q, q ∉ tickParts → q.same s s.idle) ∧ ∃ l, s.idle.pending = s.pending ++ l) ∧
  (∀ s : State, s.boot.pd0 = false → s.pd1 = false → s.idle = s)

/-- Right after reset: no supply, every register at its reset value, memories empty, every page off (R4, R32, R64,
R65, R75). The machine after reset has had no supply yet: neither PD0 nor PD1, every domain off, so every page reads
STATE 0. Every register and shadow reads the Reset column of its table, or the model's one value where the spec gives
none (assumption 3); the memories, the flash, the queues and the records hold nothing; every page is owned by local
firmware; no command waits. -/
def Obligations.ResetState : Prop :=
  (∀ page off idx, State.reset.reg page off idx = resetWord page off idx ∧ State.reset.shadow page off idx = resetWord page off idx) ∧
  (∀ page, State.reset.st page = 0 ∧ State.reset.pageOn page = false) ∧
  (∀ page : BitVec 9, populated page.toNat = true → State.reset.owner page.toNat = 0) ∧
  State.reset.boot.pd0 = false ∧ State.reset.pd1 = false ∧ State.reset.served = false ∧
  State.reset.mem = [] ∧ State.reset.flash = [] ∧ State.reset.tsFifo = [] ∧ State.reset.evd.queue = [] ∧
  State.reset.recd.raised = [] ∧ State.reset.recd.queue = [] ∧ State.reset.sent = [] ∧ State.reset.pending = []

/-- The state after reset meets the invariant that every step keeps (R54, R422, R434, R438). After reset the memories
are in canonical form, the calendar is on a date that exists, the queues and the recorder's ring are within their
sizes, and every tally and record of it is within its width. -/
def Obligations.ResetInvariant : Prop :=
  State.reset.Inv

/-- Every step keeps the invariant: memories, calendar date, FIFO, recorder and tallies (R54, R273, R422, R434, R435,
R438, R440). For every state that meets the invariant, a step that answers a next state answers one that meets it,
whichever of the 305 commands is at the front and also where the step is a tick: both memories stay canonical, the
calendar shows a date that exists from 2000 to 2199, the timestamp FIFO holds at most 64 entries, the record queue at
most 1,024, the ring at most 262,144 records with its index within it, and no tally passes 2^64 - 1. -/
def Obligations.StepKeepsInvariant : Prop :=
  ∀ s t : State, s.Inv → step s = .next t → t.Inv

/-- No command changes a part of the state outside the parts listed for it, nor the queue (R49, R54, R57, R69, R73,
R93, R118). For every command of the table and every state: if it answers a next state, the queue is as before and so
is every part of the state that is not among the command's parts: registers, shadows, apply buffers, memories, flash,
ECC words, boot, pins, counters of TIME, FIFO, records, events, faults, calendar, tallies, wires, ports, forces,
panel, channels, loops, axes, angle, synchroniser, Droveway, sequencer and pair. Flash changes only by three commands,
the calendar's instant by four. -/
def Obligations.CommandFrame : Prop :=
  (∀ (c : Instr) (s t : State), exec c s = .next t → t.pending = s.pending ∧ ∀ q, q ∉ commandParts c → q.same s t) ∧
  (∀ (c : Instr) (s t : State), exec c s = .next t → t.flash ≠ s.flash →
    (∃ k f, c = .flashOperationDone k f) ∨ (∃ f r, c = .fwLoadComplete f r) ∨ ∃ f im k, c = .imageLoadComplete f im k) ∧
  (∀ (c : Instr) (s t : State), exec c s = .next t → t.cal.now ≠ s.cal.now →
    (∃ a b, c = .supplyValid a b) ∨ (∃ p u, c = .commitApply p u) ∨ c = .calCommitApply ∨ c = .yearWrap)

/-- Every command completes from every state, and so does every step: no fault and no refusal
(spec/95_what_each_step_holds.md, R73, R64). For every command of the table, whatever its operands, and for every
state, exec answers a next state; a command that a rule turns away (wrong owner, domain off, command busy) answers the
next state that the rule gives. So no step ever faults or refuses. -/
def Obligations.NoCommandStops : Prop :=
  (∀ (c : Instr) (s : State), ∃ t, exec c s = .next t) ∧ (∀ s : State, ∃ t, step s = .next t)

/-- A write by a master that does not own the page: refused, with OWNER_REFUSED and code 0x020 (R73, R412). For the 64
commands that write an action register, by a served master that OWNER does not name, and for a fault clear by neither
owner nor firmware: the command only refuses. PAIR and LOG commands also answer result 6. A refusal sets bit 1 of the
page's FAULT, records code 0x020 with the offset, the writer and the owner, and leaves every other register outside
FLT's source statistics, and every part but the faults and the records, as before. -/
def Obligations.RefusedWrites : Prop :=
  (∀ (s : State) (c : Instr) (page off m : Nat), s.servedTo m = true → actionAccess c = some (page, off, m) → s.owner page ≠ m →
    exec c s = .next (s.refuseOwner page off m)) ∧
  (∀ (s : State) (m : Fin 4), s.servedTo m.val = true → s.owner pgPAIR ≠ m.val →
    exec (.switch m) s = .next ((s.refuseOwner pgPAIR PAIR.CMD.CODE.off m.val).put pgPAIR PAIR.CMD_STATUS.RESULT 6) ∧
    exec (.resync m) s = .next ((s.refuseOwner pgPAIR PAIR.CMD.CODE.off m.val).put pgPAIR PAIR.CMD_STATUS.RESULT 6)) ∧
  (∀ (s : State) (m : Fin 4) (code : BitVec 12) (sub : BitVec 3), s.servedTo m.val = true → s.owner pgREC ≠ m.val →
    exec (.logCmd m code sub) s = .next ((s.refuseOwner pgREC 0x078 m.val).put pgREC REC.LOG_STATUS.RESULT 6)) ∧
  (∀ (s : State) (m : Fin 4) (page : BitVec 9) (k : BitVec 32), s.servedTo m.val = true → populated page.toNat = true →
    s.owner page.toNat ≠ m.val → m.val ≠ 0 → exec (.faultClear m page k) s = .next (s.refuseOwner page.toNat 0x010 m.val)) ∧
  (∀ (s : State) (m : Fin 4), s.servedTo m.val = true → s.owner pgFLT ≠ m.val → m.val ≠ 0 →
    exec (.srcClear m) s = .next (s.refuseOwner pgFLT 0x08C m.val)) ∧
  (∀ (s : State) (page off m : Nat), page < 512 →
    (s.refuseOwner page off m).reg page 0x010 = s.reg page 0x010 ||| 2#32 ∧
    (∃ r, (s.refuseOwner page off m).recd.raised = s.recd.raised ++ [r] ∧ r.code = 0x020 ∧ r.page = page ∧ r.sub = 0 ∧
      r.p0 = off % 4294967296 ∧ r.p1 = m % 4294967296 ∧ r.p2 = s.owner page % 4294967296) ∧
    (∀ p o i, p < 512 → o < 4096 → p ≠ pgFLT → (p, o, i) ≠ (page, 0x010, 0) →
      (s.refuseOwner page off m).reg p o i = s.reg p o i) ∧
    (∀ q : Part, q ≠ .regs → q ≠ .recd → q ≠ .flt → q ≠ .free → q.same s (s.refuseOwner page off m)))

/-- While a block's domain is off or failed its STATE reads off or fenced and its action writes do nothing (R64, R67).
A page reads STATE 0 while its domain is off and 5 while it has failed, whatever its header holds. A write by the
owner to a block-specific action register (offset 0x040 or above) of such a page changes nothing at all; a GO written
to it, and a DISCARD, leave all but the key state of SUP and TLY as it is. -/
def Obligations.SwitchedOffBlocks : Prop :=
  (∀ (s : State) (page : Nat), (s.dom (domainOf page) = 0 → s.st page = 0) ∧ (s.dom (domainOf page) = 3 → s.st page = 5)) ∧
  (∀ (s : State) (c : Instr) (page off m : Nat), s.servedTo m = true → actionAccess c = some (page, off, m) → s.owner page = m →
    0x040 ≤ off → s.pageOn page = false → exec c s = .next s) ∧
  (∀ (s : State) (m : Fin 4) (page : BitVec 9), s.servedTo m.val = true → populated page.toNat = true → s.owner page.toNat = m.val →
    (s.pageTouch page.toNat 0x018).pageOn page.toNat = false → exec (.commitGo m page) s = .next (s.pageTouch page.toNat 0x018) ∧
    exec (.discard m page) s = .next (s.pageTouch page.toNat 0x018))

/-- A field reads back what was written to it, and no other field or register changes (R4, R5, R54). For every page,
field and window index: after a write the field reads the value modulo its width; every other field of the same
register that does not overlap it reads as before; and every other register, of any page and any window index, reads
as before, as do all shadows. -/
def Obligations.FieldReadBack : Prop :=
  ∀ (s : State) (page : Nat) (f : Fld) (v idx : Nat), page < 512 → f.off < 4096 → f.lo ≤ f.hi → f.hi < 32 →
    (s.put page f v idx).get page f idx = v % 2 ^ (f.hi - f.lo + 1) ∧
    (∀ g : Fld, g.off = f.off → g.lo ≤ g.hi → f.hi < g.lo ∨ g.hi < f.lo → (s.put page f v idx).get page g idx = s.get page g idx) ∧
    (∀ p o i, p < 512 → o < 4096 → (p, o, i) ≠ (page, f.off, idx) → (s.put page f v idx).reg p o i = s.reg p o i) ∧
    (∀ p o i, (s.put page f v idx).shadow p o i = s.shadow p o i)

/-- Setting and clearing a fault bit: FAULT always, the collector only where FAULT_EN has the bit (R66, R404, R412,
R420). Setting bit b sets it in the page's FAULT, whatever FAULT_EN holds, and leaves the other bits and FAULT_EN.
With the bit of FAULT_EN clear the collector sees nothing; with it set, while PD1 is on, an edge that it neither holds
nor has queued joins its queue, and an edge that it holds or has queued changes nothing. Clearing the bit clears it
alone, and the collector then neither holds nor has queued it. -/
def Obligations.FaultBits : Prop :=
  ∀ (s : State) (page b : Nat), page < 512 → b < 32 →
    (∀ i : Nat, i < 32 → ((s.setFault page b).reg page 0x010).getLsbD i = (i == b || (s.reg page 0x010).getLsbD i)) ∧
    (s.setFault page b).reg page 0x014 = s.reg page 0x014 ∧
    (bitOf (s.reg page 0x014).toNat b = false → (s.setFault page b).flt = s.flt) ∧
    (bitOf (s.reg page 0x014).toNat b = true → s.pd1 = true → faultKey page b ∉ s.flt.held → faultKey page b ∉ s.flt.edges →
      (srcNum page b).isSome = true → (s.setFault page b).flt = { s.flt with edges := s.flt.edges ++ [faultKey page b] }) ∧
    (faultKey page b ∈ s.flt.held ∨ faultKey page b ∈ s.flt.edges → (s.setFault page b).flt = s.flt) ∧
    (∀ i : Nat, i < 32 → ((s.clearFault page b).reg page 0x010).getLsbD i = (i != b && (s.reg page 0x010).getLsbD i)) ∧
    faultKey page b ∉ (s.clearFault page b).flt.held ∧ faultKey page b ∉ (s.clearFault page b).flt.edges

/-- A raised record holds its code, page, stamp and parameters, and the tally of its code saturates (R434, R438, R440,
R441). Raising a record of a code that no tally counts appends exactly one record, with code, page, SUB, the given
parameter words, stamp time and the wrap count, and changes no tally. Raising one that tally i counts appends that
record first and adds 1 to tally i, which stops at 2^64 - 1, and to no other. Tallies 120 to 127 are reserved: a count
leaves the state as it is. -/
def Obligations.RecordsAndTallies : Prop :=
  ∀ (s : State) (page code sub : Nat) (p : List Nat),
    (∃ r, (s.note page code sub p).recd.raised = s.recd.raised ++ [r] ∧ r.code = code ∧ r.page = page ∧ r.sub = sub ∧
      r.ns = s.stpNs ∧ r.wrap = (s.get pgREC REC.EPOCH + s.get pgREC REC.PEND) % 4294967296 ∧
      (∀ v, p[0]? = some v → r.p0 = v % 4294967296) ∧ (∀ v, p[1]? = some v → r.p1 = v % 4294967296) ∧
      (∀ v, p[2]? = some v → r.p2 = v % 4294967296)) ∧
    (State.tallyOfCode code = none → s.raise page code sub p = s.note page code sub p ∧
      ∀ j, (s.raise page code sub p).tally j = s.tally j) ∧
    (∀ i, State.tallyOfCode code = some i → (s.raise page code sub p).tally i = min (s.tally i + 1) 18446744073709551615 ∧
      (∀ j, j ≠ i → (s.raise page code sub p).tally j = s.tally j) ∧
      ∃ l, (s.raise page code sub p).recd.raised = (s.note page code sub p).recd.raised ++ l) ∧
    (∀ i n : Nat, 120 ≤ i → i ≤ 127 → s.tallyAdd i n = s)

/-- Events: 256 entries a pair, the highest priority first, arrival order within it, drops counted (R80, R81, R82,
R85). An event of an enabled source that is not being moved joins the queue of its routed pair, stamped with station
time, while that holds under 256 entries; else the queue stays, FAULT bit 16 is set and code 0x028 recorded with pair
and source. A disabled source does nothing, a moved one is held back. A take by a living pair gives the first entry of
the highest priority of that pair, of no unplaced task's source, leaving the rest in order; with none it reads 0. -/
def Obligations.EventQueue : Prop :=
  (∀ (s : State) (src : Nat), s.on pgEVD EVD.ROUTE_DATA.EN src = false → s.event src = s) ∧
  (∀ (s : State) (src : Nat), s.on pgEVD EVD.ROUTE_DATA.EN src = true → src ∈ s.evd.moving →
    s.event src = { s with evd := { s.evd with heldBack := s.evd.heldBack ++ [(src, s.stnNs)] } }) ∧
  (∀ (s : State) (src : Nat), s.on pgEVD EVD.ROUTE_DATA.EN src = true → src ∉ s.evd.moving →
    s.evDepth (s.get pgEVD EVD.ROUTE_DATA.PAIR src) < 256 →
    s.event src = { s with evd := { s.evd with queue := s.evd.queue ++ [⟨s.get pgEVD EVD.ROUTE_DATA.PAIR src, src,
      s.get pgEVD EVD.ROUTE_DATA.PRIO src, s.get pgEVD EVD.ROUTE_DATA.VECTOR src, s.stnNs, false⟩] } }) ∧
  (∀ (s : State) (src : Nat), s.on pgEVD EVD.ROUTE_DATA.EN src = true → src ∉ s.evd.moving →
    256 ≤ s.evDepth (s.get pgEVD EVD.ROUTE_DATA.PAIR src) →
    (s.event src).evd = s.evd ∧ ((s.event src).reg pgEVD 0x010).getLsbD 16 = true ∧
    bits ((s.event src).reg pgEVD 0x04C).toNat (8 * s.get pgEVD EVD.ROUTE_DATA.PAIR src + 7) (8 * s.get pgEVD EVD.ROUTE_DATA.PAIR src) =
      satAdd 255 (bits (s.reg pgEVD 0x04C).toNat (8 * s.get pgEVD EVD.ROUTE_DATA.PAIR src + 7) (8 * s.get pgEVD EVD.ROUTE_DATA.PAIR src)) 1 ∧
    ∃ r, (s.event src).recd.raised = s.recd.raised ++ [r] ∧ r.code = 0x028 ∧ r.page = pgEVD ∧
      r.sub = s.get pgEVD EVD.ROUTE_DATA.PAIR src ∧ r.p0 = src % 4294967296) ∧
  (∀ (s : State) (p : Fin 4), s.served = true → s.pairLives p.val = true → (∀ x ∈ s.evd.queue, x.pair = p.val → s.sourceIdle x.src = true) →
    exec (.eventTake p) s = .next (s.answer 0)) ∧
  (∀ (s : State) (p : Fin 4) (x : EvEntry) (l1 l2 : List EvEntry), s.served = true → s.pairLives p.val = true →
    s.evd.queue = l1 ++ x :: l2 → x.pair = p.val → s.sourceIdle x.src = false →
    (∀ y ∈ l1, y.pair = p.val → s.sourceIdle y.src = false → y.prio < x.prio) →
    (∀ y ∈ l2, y.pair = p.val → s.sourceIdle y.src = false → y.prio ≤ x.prio) →
    exec (.eventTake p) s = .next (((({ s with evd := { s.evd with queue := l1 ++ l2 } } : State).put (pgCP p.val) CP.EVENT_STAMP
      x.stamp).routeRelease x.src).answer (State.eventWord x)))

/-- COMMIT: GO copies the shadows into the apply buffer, DISCARD reloads them, GO while PENDING is ignored (R68, R69,
R70, R71). On a page that is on: GO with nothing pending sets PENDING, and every Staged register of the page then
stands in the apply buffer as its shadow stood; the shadows stay. GO while PENDING only sets COMMIT_BUSY and records
0x021. DISCARD, pending or not, clears PENDING and leaves every Staged register's shadow at the value in effect. Save
on LPE and ANG, which show states of their own there, no register but COMMIT changes. -/
def Obligations.CommitRoundTrip : Prop :=
  ∀ (s : State) (page : Nat), page < 512 → s.pageOn page = true →
    (s.on page HDR.COMMIT.PENDING = true → s.commitGo page = (s.setFault page 2).raise page 0x021) ∧
    (s.on page HDR.COMMIT.PENDING = false →
      (s.commitGo page).on page HDR.COMMIT.PENDING = true ∧ (s.commitGo page).shad = s.shad ∧
      (∀ off idx, off < 4096 → stagedMask page off ≠ 0 →
        Store.get (resetWord page off idx) (s.commitGo page).buf (regKey page off idx) = s.shadow page off idx) ∧
      (page ≠ pgANG → ∀ p o i, p < 512 → o < 4096 → (p, o, i) ≠ (page, HDR.COMMIT.PENDING.off, 0) →
        (s.commitGo page).reg p o i = s.reg p o i)) ∧
    (s.commitDiscard page).on page HDR.COMMIT.PENDING = false ∧
    (∀ off idx, off < 4096 → off ≠ 0x018 → stagedMask page off ≠ 0 →
      (s.commitDiscard page).shadow page off idx = s.reg page off idx) ∧
    (page ≠ pgLPE → page ≠ pgANG → ∀ p o i, p < 512 → o < 4096 → (p, o, i) ≠ (page, HDR.COMMIT.PENDING.off, 0) →
      (s.commitDiscard page).reg p o i = s.reg p o i)

/-- The memories: a read gives the last bytes written there, no other byte changes, one form per content (R54, R3).
After n bytes of a value are stored at an address, little-endian, reading n bytes there gives the value modulo 256^n,
and every byte outside that range reads as before. A store keeps the canonical form, and two memories in canonical
form that read alike at every address are equal. What an unwritten byte reads as is the one value of assumption 4. -/
def Obligations.MemoryLaws : Prop :=
  (∀ (m : Memory) (a n v : Nat), Memory.rdLE (Memory.wrLE m a n v) a n = v % 256 ^ n) ∧
  (∀ (m : Memory) (a n v x : Nat), x < a ∨ a + n ≤ x → Memory.rd (Memory.wrLE m a n v) x = Memory.rd m x) ∧
  (∀ (m : Memory) (a n v : Nat), Memory.wf m = true → Memory.wf (Memory.wrLE m a n v) = true) ∧
  (∀ m k : Memory, Memory.wf m = true → Memory.wf k = true → (∀ a, Memory.rd m a = Memory.rd k a) → m = k)

/-- A tally that reaches its threshold warns once, until a threshold above it is written (R436). Whenever a counter is
set: where its threshold is not 0, the value (at most 2^64 - 1) is at or above it and its WARN bit is clear, its WARN
bit and THRESHOLD (bit 16) are set, EVD source 0x388 is raised and code 0x241 recorded; where the threshold is 0, not
reached, or warned of, only the value changes. A write of THRESH_HI by the owner stores the 64-bit threshold; above
the current value it clears the WARN bit, so that the test is armed again. -/
def Obligations.ThresholdWarning : Prop :=
  (∀ (s : State) (i v : Nat), i < 256 → ¬ (120 ≤ i ∧ i ≤ 127) → Store.get 0 s.tly.thr i ≠ 0 →
    Store.get 0 s.tly.thr i ≤ min v 18446744073709551615 → bitOf (s.get pgTLY (TLY.WARN (i / 32))) (i % 32) = false →
    s.tallySet i v = ((((({ s with tly := { s.tly with val := Store.set 0 s.tly.val i (min v 18446744073709551615) } } : State).put
      pgTLY (TLY.WARN (i / 32)) (s.get pgTLY (TLY.WARN (i / 32)) + 2 ^ (i % 32))).setFault pgTLY 16).event 0x388).note pgTLY 0x241 0
      [i, min v 18446744073709551615, min v 18446744073709551615 / 4294967296]) ∧
    bitOf ((s.tallySet i v).get pgTLY (TLY.WARN (i / 32))) (i % 32) = true ∧
    ((s.tallySet i v).reg pgTLY 0x010).getLsbD 16 = true) ∧
  (∀ (s : State) (i v : Nat), i < 256 → ¬ (120 ≤ i ∧ i ≤ 127) →
    (Store.get 0 s.tly.thr i = 0 ∨ min v 18446744073709551615 < Store.get 0 s.tly.thr i ∨
      bitOf (s.get pgTLY (TLY.WARN (i / 32))) (i % 32) = true) →
    s.tallySet i v = { s with tly := { s.tly with val := Store.set 0 s.tly.val i (min v 18446744073709551615) } }) ∧
  (∀ (s : State) (m : Fin 4) (v : BitVec 32) (i thr : Nat), s.mayAct pgTLY m.val → s.get pgTLY TLY.INDEX.COUNTER = i →
    ¬ (120 ≤ i ∧ i ≤ 127) → thr = v.toNat * 4294967296 + s.tly.thrHeld.getD (Store.get 0 s.tly.thr i % 4294967296) →
    (if i = 114 then s.tally i + 1 else s.tally i) < thr →
    ∃ t, exec (.threshHi m v) s = .next t ∧ Store.get 0 t.tly.thr i = thr ∧ bitOf (t.get pgTLY (TLY.WARN (i / 32))) (i % 32) = false)

/-- After the last instant of 2199 the calendar counts on to 2000-01-01, with OSF, YEAR_WRAP and 0x125 (R432). At
2199-12-31 23:59:59 + 255/256 s the next count of the calendar is the year wrap; there, while PD0 holds power, the
wrap sets the calendar to 2000-01-01 00:00:00, sets OSF and bit 20 (YEAR_WRAP) of CAL's FAULT, and, while PD1 is on,
records code 0x125. At every other instant the count goes on without it. -/
def Obligations.YearWrap : Prop :=
  (∀ s : State, s.cal.now.last = true → s.calFrac = s.enqueue .yearWrap) ∧
  (∀ s : State, s.boot.pd0 = true → s.cal.now.last = true → ∃ t, exec .yearWrap s = .next t ∧
    t.cal.now = { year := 2000, month := 1, day := 1, hour := 0, minute := 0, second := 0, frac := 0, presc := 0 } ∧
    t.on pgCAL CAL.STATUS.OSF = true ∧ (t.reg pgCAL 0x010).getLsbD 20 = true ∧
    (s.pd1 = true → ∃ r l, t.recd.raised = s.recd.raised ++ r :: l ∧ r.code = 0x125 ∧ r.page = pgCAL))

/-- The supplies, dips and the cell: what each monitoring command sets, faults and records (R25, R27, R31). With PD1
on: an input that is lost loses its OK bit, sets its fault (16 for A, 17 for B) with the condition standing, and
raises 0x004; restored, the bit comes back, the condition ends, and 0x005 is raised. Entering the low range sets
VIN_LOW and fault 18. A dip counts and raises 0x008. A hold-up measurement writes its time, and under 20 ms sets fault
19 and raises 0x00D. A cell under 2.7 V sets CELL_LOW, fault 20 and raises 0x013; nothing else changes. -/
def Obligations.SupplyMonitoring : Prop :=
  ∀ s : State, s.pd1 = true →
    (∀ (b : Bool) (mv : BitVec 16), s.on pgSUP (if b then SUP.SUPPLY.SUPB_OK else SUP.SUPPLY.SUPA_OK) = true →
      exec (.supplyInputLost b mv) s = .next (((((s.put pgSUP (if b then SUP.VIN.VIN_B else SUP.VIN.VIN_A) mv.toNat).put pgSUP
        (if b then SUP.SUPPLY.SUPB_OK else SUP.SUPPLY.SUPA_OK) 0).setFault pgSUP (if b then 17 else 16)).cond pgSUP
        (if b then 17 else 16) true).raise pgSUP 0x004 (b2n b) [mv.toNat])) ∧
    (∀ (b : Bool) (mv : BitVec 16), s.on pgSUP (if b then SUP.SUPPLY.SUPB_OK else SUP.SUPPLY.SUPA_OK) = false →
      exec (.supplyInputRestored b mv) s = .next ((((s.put pgSUP (if b then SUP.VIN.VIN_B else SUP.VIN.VIN_A) mv.toNat).put
        pgSUP (if b then SUP.SUPPLY.SUPB_OK else SUP.SUPPLY.SUPA_OK) 1).cond pgSUP (if b then 17 else 16) false).raise pgSUP
        0x005 (b2n b))) ∧
    (s.on pgSUP SUP.SUPPLY.VIN_LOW = false → exec (.lowInput true) s =
      .next (((s.putB pgSUP SUP.SUPPLY.VIN_LOW true).cond pgSUP 18 true).setFault pgSUP 18)) ∧
    exec (.lowInput false) s = .next ((s.putB pgSUP SUP.SUPPLY.VIN_LOW false).cond pgSUP 18 false) ∧
    exec .dip s = .next ((s.incSat pgSUP SUP.DIP_COUNT.COUNT).raise pgSUP 0x008 0
      [satAdd 65535 (s.get pgSUP SUP.DIP_COUNT.COUNT) 1]) ∧
    (∀ t : BitVec 16, s.boot.busyCmd = 0 → t.toNat < 200 → exec (.holdupMeasure t) s =
      .next ((((((s.setBoot { s.boot with holdupMeasured := true }).put pgSUP SUP.HOLDUP.HOLDUP_T t.toNat).putB pgSUP
        SUP.SUPPLY.HOLDUP_OK false).cond pgSUP 19 true).setFault pgSUP 19).raise pgSUP 0x00D 0 [t.toNat])) ∧
    (∀ t : BitVec 16, s.boot.busyCmd = 4 → 200 ≤ t.toNat → exec (.holdupMeasure t) s =
      .next (((((((s.setBoot { s.boot with holdupMeasured := true }).put pgSUP SUP.HOLDUP.HOLDUP_T t.toNat).putB pgSUP
        SUP.SUPPLY.HOLDUP_OK true).cond pgSUP 19 false).setBoot { s.boot with holdupMeasured := true, busyCmd := 0 }).put
        pgSUP SUP.CMD_STATUS.BUSY 0).put pgSUP SUP.CMD_STATUS.RESULT 0)) ∧
    (∀ mv : BitVec 16, mv.toNat < 2700 → exec (.cellMeasure mv) s =
      .next (((((s.put pgSUP SUP.CELL.CELL_MV mv.toNat).putB pgSUP SUP.SUPPLY.CELL_LOW true).cond pgSUP 20 true).setFault pgSUP
        20).raise pgSUP 0x013 0 [mv.toNat])) ∧
    (∀ mv : BitVec 16, 2700 ≤ mv.toNat → exec (.cellMeasure mv) s =
      .next (((s.put pgSUP SUP.CELL.CELL_MV mv.toNat).putB pgSUP SUP.SUPPLY.CELL_LOW false).cond pgSUP 20 false))

/-- From the supply to the boot ROM: the supply becomes valid, PD1 starts, the slot pins and the firmware slot are
read (R22, R25, R30, R33, R39, R42, R48). A valid supply with PD0 held takes the unpowered module to the supplied
phase with reset cause 2, or 3 after a finished hold-up. PD1_START, and the restarts after a hold-up (cause 3) and
after over-temperature (cause 7), start PD1: the phase is the boot ROM's, IDENTIFY is as read, and flash and calendar
instant stay. A valid slot code is latched with its fields; a code missed by the deadline raises 0x00C and enters
start-failed. A sample that differs raises 0x00C, fault 22. A good first slot runs the firmware; a bad one raises
0x009 and tries the other. -/
def Obligations.StartOfTheModule : Prop :=
  (∀ s : State, s.boot.phase = .unpowered → s.boot.pd0 = true → exec (.supplyValid true false) s =
    .next ((s.setBoot { s.boot with supplyValid := true, phase := .supplied
                                    nextCause := if s.boot.nextCause = 3 then 3 else 2 }).put pgPWR PWR.DOM_STATE.STATE 2)) ∧
  (∀ (s : State) (r : StartReading), s.boot.phase = .supplied → ∃ t, exec (.pd1Start r) s = .next t ∧
    t = s.pd1Start s.boot.nextCause r ∧ t.boot.phase = .rom ∧ t.boot.idWait = r.identify ∧ t.boot.reachedStop = false ∧
    t.boot.prefFw = s.boot.prefFw ∧ t.boot.keyHash = s.boot.keyHash ∧ t.flash = s.flash ∧ t.cal.now = s.cal.now) ∧
  (∀ (s : State) (r : StartReading), s.boot.phase = .supplied → s.boot.nextCause = 3 →
    exec (.restartAfterHoldup r) s = .next (s.pd1Start 3 r)) ∧
  (∀ (s : State) (r : StartReading), s.boot.phase = .parked → s.boot.overTemp = true →
    exec (.overTemperatureRestart r) s = .next ((s.pd1Off .supplied 7).pd1Start 7 r)) ∧
  (∀ (s : State) (raw : BitVec 6), s.pd1 = true → s.on pgSUP SUP.SLOT_ID.VALID = false →
    State.slotValid raw.toNat = true → ∃ u, u = (((((({ s with pins := { s.pins with slotId := raw } } : State).put pgSUP
      SUP.SLOT_ID.RAW raw.toNat).put pgSUP SUP.SLOT_ID.LIVE_RAW raw.toNat).put pgSUP SUP.SLOT_ID.POSITION (raw.toNat % 4)).put
      pgSUP SUP.SLOT_ID.CARRIER (bits raw.toNat 4 2)).put pgSUP SUP.SLOT_ID.VALID 1).pairFollow ∧
      exec (.slotIdPoll raw) s = .next (if u.pairSlot && u.pageOn pgDVL then u.runOn pgDVL 0 else u)) ∧
  (∀ (s : State) (raw : BitVec 6), s.pd1 = true → s.inSequence = false → s.on pgSUP SUP.SLOT_ID.VALID = false →
    s.boot.idDeadline = false → exec (.slotIdDeadline raw) s = .next ((({ s with
      boot := { s.boot with idDeadline := true }, pins := { s.pins with slotId := raw } } : State).raise pgSUP 0x00C 0
      [0, raw.toNat]).startFail)) ∧
  (∀ (s : State) (raw : BitVec 6), s.pd1 = true → s.on pgSUP SUP.SLOT_ID.VALID = true → s.boot.idEpisode = false →
    raw.toNat ≠ s.get pgSUP SUP.SLOT_ID.RAW → exec (.slotIdSample raw) s =
      .next ((((((({ s with pins := { s.pins with slotId := raw } } : State).put pgSUP SUP.SLOT_ID.LIVE_RAW raw.toNat).setBoot
        { s.boot with idEpisode := true }).setFault pgSUP 22).cond pgSUP 22 true).raise pgSUP 0x00C 1
        [s.get pgSUP SUP.SLOT_ID.RAW, raw.toNat]))) ∧
  (∀ (s : State) (ma : BitVec 16) (good : Bool), s.boot.phase = .rom → s.boot.fwFailed = [] →
      exec (.fwSlotVerify 0 ⟨ma, good⟩) s = .next (((((s.setBoot { s.boot with phase := .firmware }).put pgSUP SUP.RESET_CAUSE.FW_SLOT s.boot.prefFw).putB pgSUP
        SUP.RESET_CAUSE.FW_FALLBACK false).put pgPWR PWR.SEQ.STEP 2).domStart 2 ma.toNat good)) ∧
  (∀ (s : State) (reason : Fin 10) (ma : BitVec 16) (good : Bool), s.boot.phase = .rom → reason.val ≠ 0 → s.boot.fwFailed = [] →
    exec (.fwSlotVerify reason ⟨ma, good⟩) s = .next ((s.raise pgSUP 0x009 s.boot.prefFw [reason.val]).setBoot
      { s.boot with fwFailed := [s.boot.prefFw], phase := .rom }))

/-- Clock faults, reference drift and the temperature limits of the supervisor (R48, R53, R412). With PD1 on: a lost
clock clears its status bit and reports through CLK's fault 16 + k with code 0x014; restored, the bit comes back and
the condition ends. A reference deviation above the limit sets fault 20, within it ends the condition. Above the
warning limit the first time, fault 21 stands and 0x00E is raised; 2 degrees below it, the warning ends. At 104
degrees the module records 0x00F and, in any mode, begins the over-temperature sequence; a sequence already running is
not begun again. -/
def Obligations.ClocksAndTemperature : Prop :=
  ∀ s : State, s.pd1 = true →
    (∀ k : Fin 4, exec (.clockFault k) s = .next ((s.put pgCLK ⟨0x040, k.val, k.val⟩ 0).clkFault (16 + k.val))) ∧
    (∀ k : Fin 4, exec (.clockLockRestored k) s =
      .next ((s.put pgCLK ⟨0x040, k.val, k.val⟩ 1).cond pgCLK (16 + k.val) false)) ∧
    (∀ dev : BitVec 16, s.get pgCLK CLK.REF_DEV_LIMIT.LIMIT < dev.toInt.natAbs → exec (.refDrift dev) s =
      .next ((s.put pgCLK CLK.STATUS_X.REF_DEV dev.toNat).clkFault 20)) ∧
    (∀ dev : BitVec 16, ¬ s.get pgCLK CLK.REF_DEV_LIMIT.LIMIT < dev.toInt.natAbs → exec (.refDrift dev) s =
      .next ((s.put pgCLK CLK.STATUS_X.REF_DEV dev.toNat).cond pgCLK 20 false)) ∧
    (∀ t : BitVec 16, s.boot.warm = false → signed 16 (s.get pgSUP SUP.TEMP_WARN.CASE_WARN) < t.toInt →
      exec (.tempWarn t) s = .next (((((s.put pgSUP SUP.TEMP.CASE t.toNat).setBoot { s.boot with warm := true }).setFault
        pgSUP 21).cond pgSUP 21 true).raise pgSUP 0x00E 0 [t.toNat])) ∧
    (∀ t : BitVec 16, s.boot.warm = true → t.toInt ≤ signed 16 (s.get pgSUP SUP.TEMP_WARN.CASE_WARN) - 16 →
      exec (.tempWarn t) s = .next ((((s.put pgSUP SUP.TEMP.CASE t.toNat).setBoot { s.boot with warm := false }).cond pgSUP 21
        false).raise pgSUP 0x00E 1 [t.toNat])) ∧
    (∀ (t : BitVec 16) (u : State), s.boot.overTemp = false → 1040 ≤ t.toInt →
      u = ((s.put pgSUP SUP.TEMP.CASE t.toNat).setBoot { s.boot with overTemp := true }).raise pgSUP 0x00F 0 [t.toNat] →
      exec (.overTemperatureShutdown t) s = .next (if u.fastKind then u else if u.slowKind
        then u.setBoot { u.boot with seqKind := .overTemp } else u.seqBegin .overTemp 3))

/-- The hold-up and shutdown sequences begin, pass their rows in order and end (R28, R30, R38, R46, R464). A supply
loss, a watchdog expiry or an uncorrectable error while PD1 is on and no sequence runs begins the hold-up sequence.
Then, each only after the row before it: PD11 to PD2 go off together; 0x006, the recorder tail and the tally flush;
the rest image; completion. In a SHUTDOWN or RESTART the domains go off one at a time in reverse start order, then
tail, rest image and end follow in the same order. -/
def Obligations.HoldupAndShutdownSequences : Prop :=
  ∀ s : State,
    (s.pd1 = true → s.boot.phase ≠ .sequence → exec .supplyLoss s =
      .next ((s.setBoot { s.boot with supplyValid := false }).seqBegin .supplyLoss 1)) ∧
    (s.pd1 = true → s.inSequence = false → exec .supWatchdogExpiry s = .next (s.seqBegin .watchdog 4)) ∧
    (s.pd1 = true → s.inSequence = false → exec .supUncorrectableError s = .next (s.seqBegin .uncorrectable 5)) ∧
    (s.fastKind = true → s.boot.seqDone = 3 → exec .holdupDomainsOff s = .next ((forEach [11, 10, 9, 8, 3, 4, 5, 6, 7, 2]
      (fun u d => if u.dom d = 0 then u else u.domDown d 0) s).seqStep 4)) ∧
    (s.boot.seqKind = .supplyLoss → s.boot.seqDone = 4 → exec .holdupRecorderTail s =
      .next ((s.raise pgSUP 0x006 0 [s.get pgSUP SUP.HOLDUP.HOLDUP_T]).seqTail)) ∧
    (s.fastKind = true → s.boot.seqDone = 5 → exec .holdupRestImage s = .next s.seqRest) ∧
    (s.fastKind = true → s.boot.seqDone = 6 → exec .holdupCompletion s = .next s.seqEnd) ∧
    (s.slowKind = true → s.boot.seqDone = 3 → s.boot.shutPos < 9 → s.dom (shutOrder.getD s.boot.shutPos 2) ≠ 0 →
      ∃ u, u = s.domDown (shutOrder.getD s.boot.shutPos 2) 0 ∧
        exec .shutdownDomainOff s = .next (u.setBoot { u.boot with shutPos := s.boot.shutPos + 1 })) ∧
    (s.slowKind = true → s.boot.seqDone = 4 → exec (.shutdownTail 0) s = .next s.seqTail) ∧
    (s.slowKind = true → s.boot.seqDone = 5 → exec (.shutdownTail 1) s = .next s.seqRest) ∧
    (s.slowKind = true → s.boot.seqDone = 6 → exec (.shutdownTail 2) s = .next s.seqEnd)

/-- IDENTIFY, maintenance, the station image check and the reaching of Stop (R40, R42, R47). IDENTIFY pressed starts
identification with 0x016; held 5 s after start it starts maintenance with 0x015; released earlier it does neither;
identification ends after its time. An image that is readable and held and passes every check becomes VERIFIED with
REASON 0; one that fails a check reports its reason and enters start-failed. With the firmware running, the start
order done and the image verified, Stop is reached. -/
def Obligations.IdentifyAndStop : Prop :=
  ∀ s : State,
    (s.pd1 = true → s.fastKind = false → exec .identifyPress s =
      .next ((s.setBoot { s.boot with identify := true }).raise pgSUP 0x016 0)) ∧
    (s.pd1 = true → s.inSequence = false → s.boot.idWait = true → exec .maintenanceStart s =
      .next (((s.setBoot { s.boot with idWait := false, maint := true }).put pgSUP SUP.RESET_CAUSE.MAINT 1).raise pgSUP
        0x015)) ∧
    exec .identifyRelease s =
      .next { s with boot := { s.boot with idWait := false }, pins := { s.pins with identify := false } } ∧
    exec .identifyEnd s = .next (s.setBoot { s.boot with identify := false }) ∧
    (∀ (im : StationImage) (c : ImageCheck) (u : State), s.boot.phase = .firmware → s.on pgSUP SUP.SLOT_ID.VALID = true →
      s.boot.reachedStop = false → c.readable = true → c.held = true →
      u = (s.setImage (s.get pgSUP SUP.IMAGE_STATUS.ACTIVE_SLOT) (some im)).imageCarrier im →
      exec (.imageVerify im c) s = .next (if u.imageReason im c = 0
        then (u.put pgSUP SUP.IMAGE_STATUS.VERIFIED 1).put pgSUP SUP.IMAGE_STATUS.REASON 0
        else ((u.imageBad (s.get pgSUP SUP.IMAGE_STATUS.ACTIVE_SLOT) (u.imageReason im c)).setBoot
          { u.boot with imageFailed := true }).startFail)) ∧
    (∀ (im : StationImage) (bad : List (Fin 4096)), s.boot.phase = .firmware → s.on pgPWR PWR.SEQ.DONE = true →
      s.on pgSUP SUP.IMAGE_STATUS.VERIFIED = true → s.boot.maint = false → s.boot.idWait = false →
      s.boot.startFailed = false → s.boot.reachedStop = false → s.dom 2 = 2 → s.dom 7 = 2 →
      Store.get none s.seq.images (s.get pgSUP SUP.IMAGE_STATUS.ACTIVE_SLOT) = some im →
      exec (.stopReached bad) s = .next (s.stopReached im (bad.map (fun c => c.val))))

/-- The commands of SUP.CMD by the owner: what each accepted command does (R27, R39, R46, R47, R51). With PD1 on,
outside ROM recovery and maintenance, not busy, from the owner: every command takes the unlock; RESTART and SHUTDOWN,
where accepted, answer 0, record 0x012 or 0x010 and begin their sequence; HOLDUP_TEST makes CMD busy; IDENTIFY starts
identification with 0x016. Unlocked: RECORDER_CLEAR clears the recorder; KEY_ENROL stores the key's hash and its bit;
KEY_REVOKE sets its bit; FW_SLOT_PREFER stores the slot; FW_LOAD and IMAGE_LOAD make CMD busy. The two UNLOCK keys in
order within 1 ms unlock. -/
def Obligations.SupervisorCommands : Prop :=
  ∀ (s u : State) (m : Fin 4), s.pd1 = true → s.boot.phase ≠ .romRecovery → s.boot.maint = false →
    s.owner pgSUP = m.val → s.on pgSUP SUP.CMD_STATUS.BUSY = false → u = s.setBoot { s.boot with unlock := 0 } →
    (u.mayStop = true → exec (.restart m) s = .next (((u.supResult 0).raise pgSUP 0x012 0 [m.val]).seqBegin .restart 6)) ∧
    (u.mayStop = true → exec (.shutdown m) s = .next (((u.supResult 0).raise pgSUP 0x010 0 [m.val]).seqBegin .shutdown 2)) ∧
    exec (.holdupTest m) s = .next ((u.setBoot { u.boot with busyCmd := 4 }).put pgSUP SUP.CMD_STATUS.BUSY 1) ∧
    (u.fastKind = false → exec (.identify m) s =
      .next (((u.setBoot { u.boot with identify := true }).raise pgSUP 0x016 1).supResult 0)) ∧
    (s.boot.unlock = 2 →
      (u.inSequence = false → exec (.recorderClear m) s = .next ((u.recClear m.val).supResult 0)) ∧
      (∀ arg : BitVec 16, arg.toNat ≤ 7 → u.cmdAddr % 4096 = 0 → exec (.keyEnrol m arg) s =
        .next (((u.setBoot { u.boot with keyHash := (Store.set 0 u.boot.keyHash arg.toNat
          (leNat ((Memory.bytes u.mem u.cmdAddr 32).reverse))) }).keyBit SUP.KEYS.IMG_ENROLLED arg.toNat).supResult 0)) ∧
      (∀ arg : BitVec 16, arg.toNat ≤ 7 → exec (.keyRevoke m arg) s =
        .next ((u.keyBit SUP.KEYS.IMG_REVOKED arg.toNat).supResult 0)) ∧
      (∀ arg : BitVec 16, arg.toNat ≤ 1 → exec (.fwSlotPrefer m arg) s =
        .next ((u.setBoot { u.boot with prefFw := arg.toNat }).supResult 0)) ∧
      (u.cmdAddr % 4096 = 0 → u.get pgSUP SUP.CMD_LEN.BLOCKS ≠ 0 → u.get pgSUP SUP.CMD_LEN.BLOCKS ≤ 65536 →
        exec (.fwLoad m 0) s = .next ((u.setBoot { u.boot with
          busyCmd := 0x14, loadAddr := u.cmdAddr, loadLen := u.get pgSUP SUP.CMD_LEN.BLOCKS }).put pgSUP SUP.CMD_STATUS.BUSY 1)) ∧
      (u.cmdAddr % 4096 = 0 → u.get pgSUP SUP.CMD_LEN.BLOCKS ≠ 0 → u.get pgSUP SUP.CMD_LEN.BLOCKS ≤ 262144 →
        exec (.imageLoad m 0) s = .next ((u.setBoot { u.boot with
          busyCmd := 0x15, loadAddr := u.cmdAddr, loadLen := u.get pgSUP SUP.CMD_LEN.BLOCKS }).put pgSUP SUP.CMD_STATUS.BUSY 1))) ∧
    (s.mayAct pgSUP m.val → s.boot.unlock = 0 → exec (.unlock m 0x5EC7#32) s =
      .next (s.setBoot { s.boot with unlock := 1, unlockAt := s.clk.ref })) ∧
    (s.mayAct pgSUP m.val → s.boot.unlock = 1 → s.clk.ref ≤ s.boot.unlockAt + 100000 → exec (.unlock m 0xA17B#32) s =
      .next (s.setBoot { s.boot with unlock := 2 }))

/-- Flash operations and loads: what starts, copies and ends them (R39, R40, R49, R51). An accepted flash operation by
the owner, with a legal region and its end in it, stores block, count, DMA address and makes FLASH busy (writes and
erases only of writable regions). Its end counts corrected blocks and copies flash to memory, memory to flash, or
erases, with DONE; an uncorrectable read ends with code 2, a failed program or erase with 4. A firmware load ends with
the blocks in its slot and RESULT 0, or event 0x009 and RESULT 4, or 5 on a flash error; an image load likewise, its
image becoming the inactive slot's and, where the active image failed its check, the verified one. -/
def Obligations.FlashAndLoads : Prop :=
  ∀ s : State,
    (∀ (m : Fin 4) (last : Nat) (w : Bool) (u : State), s.mayAct pgSUP m.val → u = s.supTouch →
      u.on pgSUP SUP.FLASH_STATUS.BUSY = false → u.get pgSUP SUP.FLASH_COUNT.COUNT ≠ 0 →
      flashRegion (u.get pgSUP SUP.FLASH_BLOCK.BLOCK) = some (last, w) →
      u.get pgSUP SUP.FLASH_BLOCK.BLOCK + u.get pgSUP SUP.FLASH_COUNT.COUNT - 1 ≤ last →
      (∀ t : Nat → State, t = (fun op => (u.setBoot { u.boot with
          flashOp := op, flashBlock := u.get pgSUP SUP.FLASH_BLOCK.BLOCK, flashCount := u.get pgSUP SUP.FLASH_COUNT.COUNT
          flashDma := u.flashDma }).put pgSUP SUP.FLASH_STATUS.BUSY 1) →
        exec (.flashRead m) s = .next (t 1) ∧ (w = true → exec (.flashWrite m) s = .next (t 2)) ∧
        (w = true → exec (.flashErase m) s = .next (t 3)))) ∧
    (∀ (c : BitVec 16) (u : State), s.pd1 = true → u = s.incSat pgSUP SUP.FLASH_STATUS.CORRECTED c.toNat →
      (s.boot.flashOp = 1 → inTier12 s.boot.flashDma (s.boot.flashCount * 4096) = true →
        exec (.flashOperationDone c false) s = .next ((u.memCopy s.boot.flashDma u.flash
          (s.boot.flashBlock * 4096) (s.boot.flashCount * 4096)).flashEnd 0) ∧
        exec (.flashOperationDone c true) s = .next (u.flashEnd 2)) ∧
      (s.boot.flashOp = 2 → (inTier12 s.boot.flashDma (s.boot.flashCount * 4096) = true ∨
          inTrace s.boot.flashDma (s.boot.flashCount * 4096) = true) →
        exec (.flashOperationDone c false) s = .next ({ u with
          flash := Memory.copy u.flash (s.boot.flashBlock * 4096) u.mem
            s.boot.flashDma (s.boot.flashCount * 4096) }.flashEnd 0) ∧
        exec (.flashOperationDone c true) s = .next (u.flashEnd 4)) ∧
      (s.boot.flashOp = 3 → exec (.flashOperationDone c false) s = .next ({ u with
          flash := Memory.erase u.flash
            (s.boot.flashBlock * 4096) (s.boot.flashCount * 4096) }.flashEnd 0) ∧
        exec (.flashOperationDone c true) s = .next (u.flashEnd 4))) ∧
    (s.boot.busyCmd = 0x14 → s.pd1 = true → ∀ (r : Fin 10) (u : State), u = s.flashStore (fwBase s.fwTarget) →
      (r.val = 0 → exec (.fwLoadComplete false r) s = .next (u.loadEnd 0)) ∧
      (r.val ≠ 0 → exec (.fwLoadComplete false r) s = .next ((u.raise pgSUP 0x009 s.fwTarget [r.val]).loadEnd 4)) ∧
      exec (.fwLoadComplete true r) s = .next (s.loadEnd 5)) ∧
    (s.boot.busyCmd = 0x15 → s.pd1 = true → ∀ (im : StationImage) (c : ImageCheck) (u : State),
      u = (s.flashStore (imageBase s.imageTarget)).setImage s.imageTarget (if c.readable && c.held then some im else none) →
      (u.imageReason im c = 0 → (u.loadEnd 0).boot.imageFailed = false → exec (.imageLoadComplete false im c) s =
        .next (u.loadEnd 0)) ∧
      (∀ w : State, w = u.loadEnd 0 → u.imageReason im c = 0 → w.boot.imageFailed = true →
        exec (.imageLoadComplete false im c) s = .next ((((w.setBoot { w.boot with
          imageFailed := false
          startFailed := w.boot.startFailed && (w.boot.idDeadline || w.dom 2 == 3 || w.dom 7 == 3) }).imageCarrier im).put
            pgSUP SUP.IMAGE_STATUS.VERIFIED 1).put pgSUP SUP.IMAGE_STATUS.REASON 0)) ∧
      (u.imageReason im c ≠ 0 → exec (.imageLoadComplete false im c) s =
        .next ((u.imageBad s.imageTarget (u.imageReason im c)).loadEnd 4)) ∧
      exec (.imageLoadComplete true im c) s = .next (s.loadEnd 5))

/-- The start order of the domains, its failures and retry, and DOM_CMD (R33, R35, R36, R44, R361, R371). Each start
step takes the next domain of the start order and starts it; a domain that fails at its step becomes failed and joins
the retry list; the retry brings each up or fails it again, fences what is left, and sets DONE. A lost power-good of a
running domain is taken as its loss. DOM_CMD by the owner switches a switchable domain on or off. A ready island
measures its inrush and becomes READY, and a cooled stage ends its over-temperature. -/
def Obligations.PowerDomains : Prop :=
  ∀ s : State,
    (∀ (ma : BitVec 16) (good : Bool), s.boot.phase = .firmware → s.get pgPWR PWR.SEQ.STEP < 11 →
      s.on pgPWR PWR.SEQ.DONE = false → ∀ u d, d = startOrder.getD (s.get pgPWR PWR.SEQ.STEP + 1) 2 →
      u = (s.domTimeout.put pgPWR PWR.SEQ.STEP (s.get pgPWR PWR.SEQ.STEP + 1)) → u.domOffBit d = false →
      exec (.domainStart ⟨ma, good⟩) s = .next (if 1650 < ma.toNat then (u.inrush d ma.toNat).startLost d 2
        else if good then (u.inrush d ma.toNat).domUp d else (u.inrush d ma.toNat).setDom d 1)) ∧
    (∀ (d : Fin 12) (inr : Bool), s.boot.phase = .firmware → s.dom d.val = 1 →
      exec (.domainStartFault ⟨d, inr⟩) s = .next (s.startLost d.val (if inr then 2 else 1))) ∧
    (∀ f : List (Fin 12 × StartRun), s.boot.phase = .firmware → s.get pgPWR PWR.SEQ.STEP = 11 →
      s.on pgPWR PWR.SEQ.DONE = false → ∃ u v : State,
        u = forEach s.domTimeout.boot.retry (fun w d => w.domRetry d (f.find? (fun x => x.1.val == d))) s.domTimeout ∧
        v = forEach ((List.range 12).filter (fun d => u.dom d == 3)) (fun w d => w.domOutcome d) u ∧
        exec (.domainRetry f) s = .next ((v.setBoot { v.boot with retry := [] }).put pgPWR PWR.SEQ.DONE 1)) ∧
    (∀ d : Fin 12, s.pd1 = true → s.inSequence = false → 2 ≤ d.val → s.dom d.val = 2 →
      exec (.powerGoodLost d) s = .next (s.powerLost d.val)) ∧
    (∀ m : Fin 4, s.mayAct pgPWR m.val → ∀ d : Fin 12, State.switchable d.val = true →
      (s.domOffBit d.val = false → (pagesOf d.val).all (fun p => s.st p == 0 || s.st p == 2 || s.st p == 5) = true →
        exec (.domOff m d) s = .next ((s.setDomOff d.val true).domDown d.val 0)) ∧
      ∀ (ma : BitVec 16) (good : Bool) (u : State), s.domOffBit d.val = true → u = s.setDomOff d.val false →
        u.inSequence = false → startOrder.findIdx (fun x => x == d.val) ≤ u.get pgPWR PWR.SEQ.STEP →
        exec (.domOn m d ⟨ma, good⟩) s = .next (u.domStart d.val ma.toNat good)) ∧
    (∀ (n : Fin 16) (ma : BitVec 16), s.dom 11 = 2 →
      exec (.islandReady n ma) s = .next ((s.inrush 11 ma.toNat).put (pgANA n.val) ANA.STATUS.READY 1)) ∧
    (∀ n : Fin 64, exec (.powerStageCooled 0 n) s = .next (s.dioCooled n.val) ∧
      (n.val < 8 → exec (.powerStageCooled 1 n) s = .next (s.axCooled n.val)) ∧
      (n.val < 16 → exec (.powerStageCooled 2 n) s = .next (s.anaCooled n.val)))

/-- Writes, commits, OWNER, FAULT_EN and FAULT: the accesses every page has (R66, R69, R71, R72, R73, R75, R412). On a
populated page that is on, for the owner: GO with nothing pending sets PENDING and copies the shadows into the apply
buffer; DISCARD ends PENDING and reloads the shadows; a FAULT_EN write leaves its value; an OWNER write that the rule
of ownership allows changes OWNER with 0x029; a FAULT clear clears the named bits. A pending commit without a bad
value is applied: the buffer becomes the configuration. A register write of a Live field in range stores it, one of a
Staged field stores it in the shadow, one to Tier 0 in memory. -/
def Obligations.RegisterAccess : Prop :=
  ∀ s : State,
    (∀ (page : BitVec 9) (m : Fin 4), populated page.toNat = true → s.mayAct page.toNat m.val →
      (∀ u : State, u = s.pageTouch page.toNat 0x018 → u.pageOn page.toNat = true →
        (u.on page.toNat HDR.COMMIT.PENDING = false → ∃ t, exec (.commitGo m page) s = .next t ∧
          t.on page.toNat HDR.COMMIT.PENDING = true ∧ t.shad = u.shad ∧
          t.buf = (u.stagedKeys page.toNat u.shad).foldl (fun b k =>
            Store.set (keyReset k) b k (Store.get (keyReset k) u.shad k)) (u.buf.filter (fun e => keyPage e.1 != page.toNat))) ∧
        ∃ t, exec (.discard m page) s = .next t ∧ t.on page.toNat HDR.COMMIT.PENDING = false ∧
          t.buf = u.buf.filter (fun e => keyPage e.1 != page.toNat)) ∧
      (∀ v : BitVec 32, ∃ t, exec (.faultEnWrite m page v) s = .next t ∧ t.reg page.toNat 0x014 = v)) ∧
    (∀ (page : BitVec 9) (m : Fin 4), populated page.toNat = true → s.servedTo m.val = true →
      (∀ (v : Fin 4) (u : State), u = s.pageTouch page.toNat 0x020 → (u.owner page.toNat = m.val ∨
          State.rank (u.owner page.toNat) < State.rank m.val) → (m.val ≠ 2 ∨ u.inRun = false) → u.owner page.toNat ≠ v.val →
        exec (.ownerWrite m page v) s =
          .next ((u.put page.toNat HDR.OWNER v.val).raise page.toNat 0x029 0 [u.owner page.toNat, v.val])) ∧
      (s.owner page.toNat = m.val ∨ m.val = 0 → ∀ k : BitVec 32,
        exec (.faultClear m page k) s = .next ((s.pageTouch page.toNat 0x010).faultClear page.toNat k.toNat))) ∧
    (∀ (page : BitVec 9) (u : Option (Fin 32)) (keys : List Nat) (t : State), populated page.toNat = true → s.pd1 = true →
      page.toNat ≠ pgCAL → page.toNat ≠ pgSEQ → page.toNat ≠ pgLPE → s.pageOn page.toNat = true →
      s.on page.toNat HDR.COMMIT.PENDING = true → keys = s.stagedKeys page.toNat s.buf → t = s.withBuffer page.toNat keys →
      State.rangeReject t page.toNat keys = none → s.blockReject t page.toNat keys = none →
      exec (.commitApply page u) s = .next (s.commitEffects (t.commitDone page.toNat) page.toNat keys)) ∧
    (∀ u : Option (Fin 32), exec (.commitApply (BitVec.ofNat 9 pgCAL) u) s = .next s.calApply) ∧
    (∀ u : Option (Fin 32), s.pd1 = true → s.pageOn pgSEQ = true → s.on pgSEQ HDR.COMMIT.PENDING = true →
      exec (.commitApply (BitVec.ofNat 9 pgSEQ) u) s = .next (s.seqApply (u.map (fun k => k.val)))) ∧
    (∀ u : Option (Fin 32), s.pd1 = true → s.pageOn pgLPE = true → s.on pgLPE HDR.COMMIT.PENDING = true →
      s.on pgLPE LPE.STATUS.APPLYING = false →
      exec (.commitApply (BitVec.ofNat 9 pgLPE) u) s = .next (s.lpeApply (s.stagedKeys pgLPE s.buf))) ∧
    (∀ (m : Fin 4) (v : BitVec 32), s.mayAct pgCLK m.val → s.boot.phase ≠ .romRecovery →
      exec (.registerWrite m (.page (BitVec.ofNat 9 pgCLK) 0x044#12) v) s =
        .next (s.put pgCLK CLK.REF_DEV_LIMIT.LIMIT (v.toNat % 65536))) ∧
    (∀ (m : Fin 4) (v : BitVec 32), s.mayAct pgDWY m.val → s.boot.phase ≠ .romRecovery →
      exec (.registerWrite m (.page (BitVec.ofNat 9 pgDWY) 0x044#12) v) s = .next (s.setShadow pgDWY 0x044
        (BitVec.ofNat 32 (putBits (s.shadow pgDWY 0x044 0).toNat 10 0 (v.toNat % 2048))) 0)) ∧
    (∀ (m : Fin 4) (p : BitVec 9) (v : BitVec 32), populated p.toNat = true → p.toNat ≠ pgSUP → p.toNat ≠ pgTLY →
      s.mayAct p.toNat m.val → s.boot.phase ≠ .romRecovery →
      ∃ t, exec (.registerWrite m (.page p 0x014#12) v) s = .next t ∧ t.reg p.toNat 0x014 = v) ∧
    (∀ (m n : Fin 4) (off : BitVec 20) (v : BitVec 32), s.servedTo m.val = true → m.val ≠ 2 →
      exec (.registerWrite m (.tier0 n off) v) s = .next (s.memWr (tier0Base n.val + off.toNat / 4 * 4) 4 v.toNat))

/-- RUN and HOLD writes on any page by its owner, and the run bit of a core pair (R67, R496). For the owner of a page
that is on: where RUN always reads 1 a RUN write changes nothing; of a fenced page RUN is only kept; otherwise RUN = 1
written to a stopped block whose configuration is accepted sets RUN, refreshes STATE and does what starting that block
does, and RUN = 0 written to a running one clears RUN and does what stopping it does. HOLD on ETH and CAN writes the
bit and refreshes STATE, on SEQ also the degraded state, and does nothing elsewhere. A core pair's run bit is its
page's. -/
def Obligations.RunHold : Prop :=
  ∀ (s : State) (m : Fin 4) (page : BitVec 9) (p : Nat) (k : Kind) (i : Nat), p = page.toNat → pageKind p = some (k, i) →
    s.mayAct p m.val →
    (runAlwaysOne k = true → exec (.run m page) s = .next (s.pageTouch p 0x00C) ∧
      exec (.runClear m page) s = .next (s.pageTouch p 0x00C)) ∧
    (s.isFenced p = true → runAlwaysOne k = false → k ≠ .place → k ≠ .tmr → k ≠ .seq →
      exec (.run m page) s = .next (s.put p HDR.CTRL.RUN 1) ∧ exec (.runClear m page) s = .next (s.put p HDR.CTRL.RUN 0)) ∧
    (s.isFenced p = false → s.on p HDR.CTRL.RUN = false → ∀ u, u = s.setRun p true →
      (k = .eth → s.ethReject i = none → exec (.run m page) s = .next (s.setRun (pgETH i) true)) ∧
      (k = .can → s.canReject i = none → exec (.run m page) s = .next ((s.setRun (pgCAN i) true).canJoin i)) ∧
      (k = .asrc → s.asrcReject i = none → ∃ v, v = ((s.put (pgASRC i) HDR.CTRL.RUN 1).refreshState (pgASRC i)).setAsrcRt i {} ∧
        exec (.run m page) s = .next ((((v.put (pgASRC i) ASRC.STATUS.REFERENCED 0).put (pgASRC i) ASRC.STATUS.LOWSPD 0 |>.put
          (pgASRC i) ASRC.REF_COUNT 0).put (pgASRC i) ASRC.STATUS.DIR 0).setSrcState i 1)) ∧
      (k = .ax → s.axReject i = none → ∃ v, v = (s.put (pgAX i) HDR.CTRL.RUN 1).refreshState (pgAX i) ∧
        (v.axState i = 0 → exec (.run m page) s = .next (v.axEnable i)) ∧
        (v.axState i ≠ 0 → v.axState i ≠ 8 → exec (.run m page) s = .next v)) ∧
      (k = .ana → s.anaType i ≤ 4 → (s.setRun (pgANA i) true).anaOut i = false → exec (.run m page) s =
        .next (s.setRun (pgANA i) true)) ∧
      (k = .diog → (∀ c < 8, s.get (pgDIOG i) (DIOG.CH_CFG.MODE c) ≤ 4) → ∃ v, v = forEach (State.dioChans i) (fun u ch =>
          u.setDioRt ch { u.dioRt ch with accepted := false }) (s.setRun (pgDIOG i) true) ∧
        exec (.run m page) s = .next (if v.seq.running then v.dioRefreshGroup i
          else forEach ((State.dioChans i).filter (fun ch => v.dioIsOut ch)) (fun u ch => u.dioSafe ch) v)) ∧
      (k = .dvl → exec (.run m page) s = .next u.pairFollow) ∧
      (k = .lpt → exec (.run m page) s = .next u) ∧
      (k = .cp → exec (.run m page) s = .next (s.setRun (pgCP i) true)) ∧
      (k = .dwy → exec (.run m page) s = .next ((s.put pgDWY HDR.CTRL.RUN 1).refreshState pgDWY)) ∧
      (k = .ang → ∃ v, v = ((s.put pgANG HDR.CTRL.RUN 1).refreshState pgANG).setSyncState 0 ∧ exec (.run m page) s =
        .next (forEach ((List.range 256).filter (fun k => v.slotEn k)) (fun u k => u.slotApplied k) v))) ∧
    (s.isFenced p = false → s.on p HDR.CTRL.RUN = true → ∀ u, u = s.setRun p false →
      (k = .eth ∨ k = .dwy ∨ k = .lpt ∨ k = .ana → exec (.runClear m page) s = .next u) ∧
      (k = .can → exec (.runClear m page) s = .next (canLeave i u)) ∧
      (k = .diog → exec (.runClear m page) s = .next (u.dioRefreshGroup i)) ∧
      (k = .dvl → exec (.runClear m page) s = .next u.pairFollow) ∧
      (k = .asrc → exec (.runClear m page) s =
        .next (((s.put (pgASRC i) HDR.CTRL.RUN 0).refreshState (pgASRC i)).setSrcState i 0)) ∧
      (k = .ax → s.axState i ≠ 6 → ∃ v, v = (s.put (pgAX i) HDR.CTRL.RUN 0).refreshState (pgAX i) ∧
        exec (.runClear m page) s = .next (if v.axState i = 8 then v else v.axStop i (v.axQdec i) true))) ∧
    (State.hasHold p = false → exec (.hold m page) s = .next (s.pageTouch p 0x00C) ∧
      exec (.holdClear m page) s = .next (s.pageTouch p 0x00C)) ∧
    (k = .eth ∨ k = .can → exec (.hold m page) s = .next ((s.putB p HDR.CTRL.HOLD true).refreshState p) ∧
      exec (.holdClear m page) s = .next ((s.putB p HDR.CTRL.HOLD false).refreshState p)) ∧
    (p = pgSEQ → ∀ u, u = s.setWriter m.val false → u.pageOn pgSEQ = true →
      exec (.hold m page) s = .next (u.putB pgSEQ HDR.CTRL.HOLD true).seqRefresh ∧
      exec (.holdClear m page) s = .next (u.putB pgSEQ HDR.CTRL.HOLD false).seqRefresh) ∧
    (∀ c : Fin 4, p = pgCP c.val → s.isFenced p = false →
      (s.on p HDR.CTRL.RUN = false → exec (.corePairRunOn m c) s = .next (s.setRun (pgCP c.val) true)) ∧
      (s.on p HDR.CTRL.RUN = true → s.hostsTask c.val = false → exec (.corePairRunOff m c) s =
        .next (s.setRun (pgCP c.val) false)) ∧
      (s.on p HDR.CTRL.RUN = true → s.hostsTask c.val = true → s.pageOn pgPLACE = true → exec (.corePairRunOff m c) s =
        .next ((s.setRun (pgCP c.val) false).placeRun 4 (some c.val)).1))

/-- Core pairs: accesses, lock-step failures, the self-test and EVENT_TAKE (R54, R58, R59, R81, R152, R153, R413,
R496). For a served, running pair: a write to DRAM, Tier 1 or its own Tier 0 stores the bytes, a read of words without
error answers them; elsewhere an access is the fabric's, and one outside its task's windows makes the task lapse. A
task that writes the floating-point mode or reads a time source lapses. A lock-step mismatch counts and fails the pair
at its point. A self-test that misses an injected mismatch fails it with 0x11 + i; else it starts the pair, or ends
the re-admission that waits. EVENT_TAKE of an empty queue reads 0; else the first event of the highest priority leaves
and is read. -/
def Obligations.Cores : Prop :=
  ∀ (s : State) (p : Fin 4),
    (s.served = true → s.pairLives p.val = true →
      (∀ (a : BitVec 40) (n : Fin 4) (v : BitVec 64) (priv bad corr : Bool) (ecc : Ecc) (k : Fin 32) (r : Region),
        r = .dram ∨ r = .tier1 ∨ r = .tier0 p.val → regionOf a.toNat = r → regionOf (a.toNat + 2 ^ n.val - 1) = r →
        exec (.corePairAccess p (.write n v) a priv bad corr ecc k false) s =
          .next ((s.memWr a.toNat (2 ^ n.val) v.toNat).done 0) ∧
        ((State.wordsOf a.toNat (2 ^ n.val)).any (fun x => s.ecc.contains x) = false →
          exec (.corePairAccess p (.read n) a priv false false ecc k false) s =
            .next (s.done (s.memRd a.toNat (2 ^ n.val))))) ∧
      (∀ (op : CoreOp) (a : BitVec 40) (priv bad corr : Bool) (ecc : Ecc) (k : Fin 32) (v : State), op ≠ .fpMode → op ≠ .time →
        v = s.coreAccess p.val a.toNat op priv bad corr ecc →
        exec (.corePairAccess p op a priv bad corr ecc k false) s = .next v ∧
        exec (.corePairAccess p op a priv bad corr ecc k true) s =
          .next (if s.inWindows p.val k.val a.toNat (State.opInfo op).1 = false ∧ v.bus.cause = 0
            then v.lapse k.val 1 a.toNat else v)) ∧
      (∀ (k : Fin 32) (a : BitVec 40) (priv bad corr : Bool) (ecc : Ecc),
        exec (.corePairAccess p .fpMode a priv bad corr ecc k true) s = .next (s.lapse k.val 2 0) ∧
        exec (.corePairAccess p .time a priv bad corr ecc k true) s = .next ((s.lapse k.val 3 0).done 0)) ∧
      (∀ q, s.nextEvent p.val = some q → exec (.eventTake p) s = .next (((({ s with evd :=
          { s.evd with queue := State.dropFirst q s.evd.queue } } : State).put (pgCP p.val) CP.EVENT_STAMP q.stamp).routeRelease
          q.src).answer (State.eventWord q))) ∧
      (s.nextEvent p.val = none → exec (.eventTake p) s = .next (s.answer 0))) ∧
    (s.pairLives p.val = true → ∀ pt : Fin 4, exec (.lockstepMismatch p pt) s =
      .next ((s.incMod (pgCP p.val) CP.LS_COUNT).lockstepFail p.val (pt.val + 1))) ∧
    (s.pageOn (pgCP p.val) = true →
      (s.on pgFLT FLT.CMD_STATUS.BUSY = false →
        (s.isFenced (pgCP p.val) = false → s.on (pgCP p.val) HDR.CTRL.RUN = false →
          exec (.lockstepSelftest p 0#4) s = .next (s.setRun (pgCP p.val) true)) ∧
        exec (.lockstepSelftest p 1#4) s = .next (s.lockstepFail p.val 0x11) ∧
        exec (.lockstepSelftest p 4#4) s = .next (s.lockstepFail p.val 0x13)) ∧
      (s.on pgFLT FLT.CMD_STATUS.BUSY = true → s.get pgFLT FLT.READMIT.ID = pgCP p.val →
        exec (.lockstepSelftest p 0#4) s = .next ((s.readmitUnit (pgCP p.val)).readmitEnd 0 (pgCP p.val) 0) ∧
        exec (.lockstepSelftest p 8#4) s = .next ((s.lockstepFail p.val 0x14).readmitEnd 0 (pgCP p.val) 4)))

/-- The instants of a task: freeze, end of execution, publication and application (R91, R92, R95, R97, R99). With the
SEQ page on and no sequence running, at the freeze instant of a task that is on: a cycle is frozen where none is open
and the task is neither shed nor held (a held one only gains held time; the standby keeps its own frozen image of a
redundant task). The end of execution keeps outputs and lines, sets EXEC_US and the measures. At the publish instant a
finished cycle is published, then the outputs are latched and a waiting move is made. The next apply instant drives
what was latched, or the safe values where the task is shed. -/
def Obligations.Tasks : Prop :=
  ∀ (s : State) (k : Fin 32), s.pageOn pgSEQ = true → s.inSequence = false →
    (∀ m at_, s.seq.running = true → s.on pgSEQ SEQ.STATUS.STOP_PENDING = false → s.taskOn k.val = true →
      s.atFreeze k.val = some (m, at_) →
      (s.role ≠ 2 → ∀ u, u = s.dwyEvaluateAt k.val m at_ → (u.task k.val).cur = none → u.taskShed k.val = false →
        (u.wantsHold k.val = false → u.taskHeld k.val = false → (u.task k.val).host.isSome = true →
          exec (.taskFreeze k) s = .next (u.freeze k.val m at_)) ∧
        (u.wantsHold k.val = true → (u.task k.val).step = false → u.taskHeld k.val = true → exec (.taskFreeze k) s =
          .next ((u.setTask k.val { u.task k.val with held := (u.task k.val).held + (u.taskT k.val : Int) }).lapsed
            k.val).syncWatch)) ∧
      (s.role ≠ 2 → exec (.taskFreeze k) s = .next ((s.dwyEvaluateAt k.val m at_).freezeInstant k.val m at_)) ∧
      (s.role = 2 → s.taskRed k.val = true → exec (.taskFreeze k) s =
        .next (s.setTask k.val { s.task k.val with sbFrozen := some (m, s.freezeImage k.val at_) }))) ∧
    (∀ (c d : TaskCycle) (us : BitVec 32) (outs : List (Fin 32768 × Fin 16 × List Byte)) (lines : List (BitVec 32 × List Byte))
      (u : State), (s.task k.val).cur = some c → c.done = false → c.lost = none → c.ready = true → c.takeover = false →
      d = { c with done := true, outs := outs.map (fun o => (o.1.val, o.2.1.val, o.2.2))
                   lines := lines.map (fun l => (l.1.toNat, (l.2 ++ List.replicate 64 0).take 64)) } →
      u = d.lines.foldl (fun (v : State) l => v.memPut (s.blockAt k.val 0 + 64 * l.1) l.2) s →
      exec (.taskExecutionEnd k us outs lines) s = .next (((u.setTask k.val { u.task k.val with cur := some d }).put pgSEQ
        (SEQ.TSTAT.EXEC_US k.val) (min 65535 us.toNat)).measured k.val us.toNat)) ∧
    (∀ m p late, s.taskOn k.val = true → s.role ≠ 2 → s.atPublish k.val = some (m, p) →
      (∀ c, (s.task k.val).cur = some c → c.lost = none → c.done = true → ∀ u, u = (s.publish k.val p c late).latch k.val →
        exec (.taskPublish k late) s = .next (((if (u.task k.val).cur.isNone then u.moveWindow k.val else u).dwyCycleOut
          k.val m false).syncWatch)) ∧
      (∀ c, (s.task k.val).cur = some c → c.lost = none → c.done = false → c.takeover = false →
        s.on pgSEQ SEQ.STATUS.STOP_PENDING = false → ∀ u, u = (s.overrun k.val m c).latch k.val →
        exec (.taskPublish k late) s = .next (((if (u.task k.val).cur.isNone then u.moveWindow k.val else u).dwyCycleOut
          k.val m true).syncWatch))) ∧
    (s.seq.running = true → (s.atFreeze k.val).isSome = true →
      (s.taskShed k.val = true → exec (.taskApply k) s =
        .next (forEach (s.producedBy k.val) (fun u i => (u.dioSafeOf i).anaSafeOf i) s)) ∧
      (s.taskShed k.val = false → (s.task k.val).live = true → exec (.taskApply k) s =
        .next ((s.task k.val).latched.foldl (fun u o => ((u.dioApply o).anaApply o).axApply o) s)))

/-- RUN, Stop, HOLD, STEP and AUTORUN of the sequencer by its owner (R101, R102, R103, R104, R106, R108, R109, R110).
For the owner of SEQ: RUN with nothing against it sets RUN and RUN_PENDING, and with a reason sets LAST_REFUSAL, fault
17 and raises 0x048; RUN = 0 clears RUN and either withdraws the pending entry or makes a stop pending; the entry is
taken at its instant; a pending stop completes when no cycle is open. HOLD and release write the hold; HOLD_MASK
refuses tasks of class Sd with fault 19 and 0x044; STEP marks each held task without an open cycle. -/
def Obligations.SeqMode : Prop :=
  ∀ (s : State) (m : Fin 4),
    (s.mayAct pgSEQ m.val →
      (∀ u, u = s.setWriter m.val true → u.isFenced pgSEQ = false → u.pageOn pgSEQ = true → u.on pgSEQ HDR.CTRL.RUN = false →
        (u.runReason = 0 → exec (.seqRun m) s = .next ((u.put pgSEQ HDR.CTRL.RUN 1).put pgSEQ SEQ.STATUS.RUN_PENDING 1)) ∧
        (u.runReason ≠ 0 → exec (.seqRun m) s = .next (((u.put pgSEQ SEQ.RUN_INFO.LAST_REFUSAL u.runReason).setFault pgSEQ
          17).raise pgSEQ 0x048 0 [u.runReason]))) ∧
      (∀ u, u = (s.setWriter m.val true).put pgSEQ HDR.CTRL.RUN 0 →
        (u.on pgSEQ SEQ.STATUS.RUN_PENDING = true → exec (.seqStop m) s = .next (u.put pgSEQ SEQ.STATUS.RUN_PENDING 0)) ∧
        (u.on pgSEQ SEQ.STATUS.RUN_PENDING = false → u.seq.running = true → exec (.seqStop m) s =
          .next (forEach State.allTasks (fun v k => if (v.task k).step then v.setTask k { v.task k with step := false } else v)
            (u.put pgSEQ SEQ.STATUS.STOP_PENDING 1)).xchgDisturb)) ∧
      (∀ u, u = s.setWriter m.val false → u.pageOn pgSEQ = true →
        exec (.seqHold m) s = .next (u.putB pgSEQ HDR.CTRL.HOLD true).seqRefresh ∧
        exec (.seqRelease m) s = .next (u.putB pgSEQ HDR.CTRL.HOLD false).seqRefresh) ∧
      (∀ v : BitVec 32, exec (.holdMask m v) s =
        .next (forEach (State.allTasks.filter (fun k => v.getLsbD k && s.taskSd k))
          (fun u k => (u.setFault pgSEQ 19).raise pgSEQ 0x044 0 [k]) (s.put pgSEQ SEQ.HOLD_MASK (State.allTasks.foldl
            (fun acc k => if v.getLsbD k && !s.taskSd k then acc + 2 ^ k else acc) 0)))) ∧
      (∀ v : BitVec 32, exec (.step m v) s = .next (forEach (State.allTasks.filter (fun k => v.getLsbD k && s.taskHeld k &&
        !(s.task k).step && (s.task k).cur.isNone)) (fun u k => u.setTask k { u.task k with step := true }) s))) ∧
    (s.on pgSEQ SEQ.STATUS.RUN_PENDING = true → s.pageOn pgSEQ = true → s.inSequence = false → ∀ u,
      u = forEach State.allTasks (fun u k => (u.setTask k { u.task k with
          live := false, step := false, cur := none, gridAt := 0 }).heldAtEntry k u.e)
        (((s.seqRunning true).put pgSEQ SEQ.STATUS.RUN_PENDING 0).put pgSEQ SEQ.HELD 0).ownersAtRun.seqRefresh →
      exec .runEntry s =
        .next (forEach (u.cellsUsed.filter (fun c => !u.cellRetain c)) (fun u c => u.cellReset c)
        u).loopRunEntry.dioRunEntry) ∧
    (s.on pgSEQ SEQ.CFG.AUTORUN = true → s.seq.touched = false → s.duty = true → s.boot.reachedStop = true →
      s.boot.maint = false → ∀ u v, u = s.setWriter s.seq.writer true → v = u.setWriter 0 true →
      (u.mayAct pgSEQ 0 → v.isFenced pgSEQ = false → v.pageOn pgSEQ = true → v.on pgSEQ HDR.CTRL.RUN = false →
        v.runReason = 0 → exec .autorun s = .next ((v.put pgSEQ HDR.CTRL.RUN 1).put pgSEQ SEQ.STATUS.RUN_PENDING 1)) ∧
      (u.servedTo 0 = true → u.owner pgSEQ ≠ 0 → exec .autorun s = .next (u.refuseOwner pgSEQ 0x00C 0))) ∧
    (s.on pgSEQ SEQ.STATUS.STOP_PENDING = true → (∀ k ∈ State.allTasks, (s.task k).cur = none) → ∀ u,
      u = (forEach State.allTasks (fun u k => u.setTask k { u.task k with
        live := false, step := false, resume := false }) s).seqRunning false →
      exec .stopComplete s = .next (((u.put pgSEQ SEQ.STATUS.STOP_PENDING 0).put pgSEQ HDR.CTRL.RUN 0).put pgSEQ SEQ.HELD
        0).seqRefresh.dioSafeAll.anaSafeAll.axStopAll.dwyHold.syncWatch)

/-- PREPARE, APPLY and CANCEL of a program exchange and its window (R118, R119, R120, R121, R123). For the owner:
PREPARE outside states 1 and 3 with an image in the inactive slot and nothing against it enters state 1, REASON 0. A
preparation built, fitting, placeable and agreed with the partner keeps image, instance map and placement, writes the
counts, enters state 2 and raises 0x045; one that asks too much, cannot be placed or is not built is refused with 4, 5
or 9. APPLY enters state 3. In a window the exchange is made: slot, carrier, XCHG_TIME, state 4, 0x046, and the
partner is told. A search timeout refuses with 6; CANCEL drops the preparation, state 0. -/
def Obligations.Exchange : Prop :=
  ∀ (s : State) (m : Fin 4),
    (s.mayAct pgSEQ m.val →
      (s.xchgState ≠ 1 → s.xchgState ≠ 3 → ∀ u, u = ({ s with seq := { s.seq with prep := none } } : State) → ∀ im,
        Store.get none s.seq.images u.inactiveSlot = some im → u.xchgBlocked = false →
        exec (.prepare m) s = .next (((u.put pgSEQ SEQ.XCHG_STATUS.REASON 0).setXchg 1).xchgPartner 1)) ∧
      (∀ b : Bool, s.xchgState ≠ 1 → s.xchgState ≠ 3 → s.seq.prep ≠ none → s.xchgBlocked = false →
        (s.role = 1 → s.paired = true → b = true) →
        exec (.apply m b) s =
          .next ((({ s with seq := { s.seq with searchAt := s.e } } : State).setXchg 3).xchgPartner 2)) ∧
      (s.xchgState = 1 ∨ s.xchgState = 2 → exec (.cancel m) s =
        .next (({ s with seq := { s.seq with prep := none } } : State).setXchg 0)) ∧
      (s.xchgState = 3 → ∀ u, u = s.xchgRefuse 8 1 → exec (.cancel m) s =
        .next (({ u with seq := { u.seq with prep := none } } : State).setXchg 0))) ∧
    (∀ (im : StationImage) (p : Bool) (map : InstanceMap) (plan : Plan), s.xchgState = 1 →
      Store.get none s.seq.images s.inactiveSlot = some im →
      map = State.instanceMap ((s.seq.image.map (fun o => o.instances)).getD []) im.instances →
      plan = (s.exchanged im map).runPlan 3 none →
      (State.needsTooMuch im = false → plan.left = [] → plan.shed = [] → plan.full = [] →
        (s.role = 1 → s.paired = true → p = true) →
        exec (.exchangePrepared true p) s = .next ((((({ s with seq := { s.seq with prep := some (im, map, plan) } } :
          State).put pgSEQ SEQ.XCHG_MATCH.MATCHED map.matched).put pgSEQ SEQ.XCHG_MATCH.NEW map.fresh).put pgSEQ
          SEQ.XCHG_DROP.DROPPED map.dropped).setXchg 2 |>.raise pgSEQ 0x045 0 [map.matched, map.fresh, map.dropped])) ∧
      (State.needsTooMuch im = true → exec (.exchangePrepared true p) s = .next (s.xchgRefuse 4 0).xchgActive) ∧
      (State.needsTooMuch im = false → ¬ (plan.left = [] ∧ plan.shed = [] ∧ plan.full = []) →
        exec (.exchangePrepared true p) s = .next (s.xchgRefuse 5 0).xchgActive) ∧
      exec (.exchangePrepared false p) s = .next (s.xchgRefuse 9 0).xchgActive) ∧
    (∀ (p : StationImage × InstanceMap × Plan) (ns : BitVec 32), s.seq.prep = some p → s.xchgState = 3 →
      s.isWindow = true → s.e ≤ s.seq.searchAt + 2000000000 → (s.role ≠ 2 ∨ s.paired = false) →
      exec (.exchangeWindow ns) s = .next ((((((((s.exchange p.1 p.2.1 p.2.2).put pgSUP SUP.IMAGE_STATUS.ACTIVE_SLOT
        (1 - s.get pgSUP SUP.IMAGE_STATUS.ACTIVE_SLOT)).put pgSUP SUP.IMAGE_STATUS.IMAGE_CARRIER p.1.carrier.val).putB pgSUP
        SUP.IMAGE_STATUS.ANY_CARRIER p.1.anyCarrier).put pgSEQ SEQ.XCHG_TIME ns.toNat).setXchg 4).raise pgSEQ 0x046 0
        [ns.toNat, 1 - s.get pgSUP SUP.IMAGE_STATUS.ACTIVE_SLOT, s.tick]).xchgPartner 4)) ∧
    (s.xchgState = 3 → exec .exchangeSearchTimeout s = .next (s.xchgRefuse 6 1).xchgActive)

/-- TMR: the calls of timer, counter, edge and FAST cells by the task that owns them (R113, R114, R115, R116). A call,
in a current cycle of the cell's task and with the cell's type, keeps the cell for the cycle, computes Q and ET or CV
as R114 to R116 say from the cell and the task time, stores them in the cell, and returns them: TON without IN gives 0
and ET 0; with IN from its start on, Q from PT on with ET at most PT; TOF and TP likewise; counters saturate and
compare with PV; edge cells compare with their memory; FAST gives the latched count less its base; a counted edge
raises the running count of the FAST cells of the channel. -/
def Obligations.Timers : Prop :=
  ∀ (s u : State) (k : Fin 32) (c : Fin 4096) (cy : TaskCycle) (tau : Nat), (s.task k.val).cur = some cy → tau = cy.tau →
    s.pageOn pgTMR = true → s.cellTask c.val = k.val → u = s.setTask k.val { s.task k.val with
      cur := some { cy with cells := if cy.cells.any (fun e => e.1 == c.val) then cy.cells
                            else cy.cells ++ [(c.val, s.cellWords c.val)] } } →
    (∀ (stored : State.TimerCell → Nat → State), stored = (fun r pt => (((((((u.setCell64 c.val 2 pt).setCellB c.val 19
        r.q).setCellB c.val 18 r.run).setCellB c.val 17 r.mem).setCell64 c.val 4 r.start).setCell64 c.val 6 r.et).cellOut
        r.q false r.et).cellKeep c.val) →
      ∀ (inp : Bool) (pt : BitVec 64) (o : State.TimerCell), o = u.timerOf c.val →
      (s.cellType c.val = 1 → ∃ r, exec (.ton k c inp pt) s = .next (stored r pt.toNat) ∧
        (inp = false → r = { o with q := false, run := false, et := 0 }) ∧
        (inp = true → ∀ st, st = (if o.run || o.q then o.start else tau) →
          (pt.toNat ≤ State.elapsed tau st → r.q = true ∧ r.run = false ∧ r.et = pt.toNat) ∧
          (State.elapsed tau st < pt.toNat → r.q = o.q ∧ r.et = State.elapsed tau st ∧ r.start = st))) ∧
      (s.cellType c.val = 2 → ∃ r, exec (.tof k c inp pt) s = .next (stored r pt.toNat) ∧
        (inp = true → r = { o with q := true, run := false, et := 0 }) ∧
        (inp = false → o.q = false → r = o) ∧
        (inp = false → o.q = true → ∀ st, st = (if o.run then o.start else tau) →
          (pt.toNat ≤ State.elapsed tau st → r.q = false ∧ r.run = false ∧ r.et = pt.toNat) ∧
          (State.elapsed tau st < pt.toNat → r.q = true ∧ r.run = true ∧ r.et = State.elapsed tau st))) ∧
      (s.cellType c.val = 3 → ∃ r, exec (.tp k c inp pt) s = .next (stored r pt.toNat) ∧ r.mem = inp ∧ r.q = r.run ∧
        (o.run = true ∨ (inp = true ∧ o.mem = false) → ∀ st, st = (if o.run then o.start else tau) →
          (pt.toNat ≤ State.elapsed tau st → r.q = false ∧ r.et = pt.toNat) ∧
          (State.elapsed tau st < pt.toNat → r.q = true ∧ r.et = State.elapsed tau st)) ∧
        (o.run = false → (inp = true → o.mem = true) → r.q = false ∧ r.et = if inp then o.et else 0))) ∧
    (∀ (pv : BitVec 64) (up down r ld : Bool) (cv up1 down1 both : Int), cv = u.cvOf c.val →
      up1 = (if up = true ∧ u.cellB c.val 17 = false ∧ cv < State.max64 then cv + 1 else cv) →
      down1 = (if down = true ∧ u.cellB c.val 16 = false ∧ State.min64 < cv then cv - 1 else cv) →
      both = (if down = true ∧ u.cellB c.val 16 = false ∧ State.min64 < up1 then up1 - 1 else up1) →
      (s.cellType c.val = 4 → exec (.ctu k c up r pv) s = .next ((u.counterEnd c.val pv.toNat (if r then 0 else up1) up
        (u.cellB c.val 16) (decide (pv.toInt ≤ if r then 0 else up1)) false).cellKeep c.val)) ∧
      (s.cellType c.val = 5 → exec (.ctd k c down ld pv) s = .next ((u.counterEnd c.val pv.toNat
        (if ld then pv.toInt else down1) (u.cellB c.val 17) down (decide ((if ld then pv.toInt else down1) ≤ 0))
        false).cellKeep c.val)) ∧
      (s.cellType c.val = 6 → ∀ v : Int, v = (if r then 0 else if ld then pv.toInt else both) →
        exec (.ctud k c up down r ld pv) s = .next ((u.counterEnd c.val pv.toNat v up down (decide (pv.toInt ≤ v))
          (decide (v ≤ 0))).cellKeep c.val))) ∧
    (∀ clk mem q : Bool, (s.cellType c.val = 8 → mem = (if u.cellB c.val 20 then (if u.cellB c.val 21 then false else clk)
        else u.cellB c.val 17) → q = (clk && !mem) → exec (.rTrig k c clk) s = .next (((((u.setCellB c.val 20 false).setCellB
        c.val 17 clk).setCellB c.val 19 q).cellOut q false 0).cellKeep c.val)) ∧
      (s.cellType c.val = 9 → mem = (if u.cellB c.val 20 then (if u.cellB c.val 21 then true else clk)
        else u.cellB c.val 17) → q = (!clk && mem) → exec (.fTrig k c clk) s = .next (((((u.setCellB c.val 20 false).setCellB
        c.val 17 clk).setCellB c.val 19 q).cellOut q false 0).cellKeep c.val))) ∧
    (s.cellType c.val = 7 →
      exec (.fast k c true) s = .next (((u.setCell64 c.val 6 (u.cell64 c.val 2)).cellOut false false 0).cellKeep c.val) ∧
      exec (.fast k c false) s = .next ((u.cellOut false false (State.elapsed (u.cell64 c.val 2) (u.cell64 c.val
        6))).cellKeep c.val)) ∧
    (∀ (ch : Fin 64) (rising : Bool), s.dioMode ch.val = 2 → exec (.fastEdge ch rising) s =
      .next (forEach (s.cellsUsed.filter (fun c => s.cellType c == 7 && s.cellF c 5 0 == ch.val
        && bitOf (s.cellF c 7 6) (if rising then 0 else 1)))
        (fun v c => (v.setCell64 c 4 ((v.cell64 c 4 + 1) % 18446744073709551616)).cellKeep c) s))

/-- PLACE: replacement, moves, fencing of a pair's tasks, the directory and forcing (R138, R140, R146, R147, R149).
For the owner and CMD not busy: REPLACE answers 1 without an image, 2 before 10 s have passed, 3 during an exchange, 4
during moves, each with 0x051, else makes a placement run (0, or 5 where none is found); ABANDON ends the moves with
0; FORCE queues the bytes for an item that exists and is at most 16 bytes, else answers 3; RELEASE queues a release.
Requests take effect together at the tick. A fenced pair's running cycles are lost and measured and a placement run
follows. A directory word written in Stop is stored; otherwise DIR_WRITE is set with 0x058. -/
def Obligations.Placement : Prop :=
  ∀ (s : State) (m : Fin 4),
    (s.mayAct pgPLACE m.val → s.on pgPLACE PLACE.CMD_STATUS.BUSY = false →
      (∀ refuse : Nat → State, refuse = (fun r => (s.placeResult r).raise pgPLACE 0x051 0 [r]) →
        (s.seq.image = none → exec (.replace m) s = .next (refuse 1)) ∧
        (s.seq.image ≠ none →
          (s.seq.lastRun ≠ 0 → s.e < s.seq.lastRun - 1 + 10000000000 → exec (.replace m) s = .next (refuse 2)) ∧
          (s.seq.lastRun = 0 ∨ s.seq.lastRun - 1 + 10000000000 ≤ s.e →
            (s.on pgSEQ SEQ.STATUS.XCHG_ACTIVE = true → exec (.replace m) s = .next (refuse 3)) ∧
            (s.on pgSEQ SEQ.STATUS.XCHG_ACTIVE = false → s.on pgPLACE PLACE.STATUS.MOVING = true →
              exec (.replace m) s = .next (refuse 4)) ∧
            (s.on pgSEQ SEQ.STATUS.XCHG_ACTIVE = false → s.on pgPLACE PLACE.STATUS.MOVING = false →
              exec (.replace m) s = .next ((s.placeRun 2 none).1.placeResult (if (s.placeRun 2 none).2 then 0 else 5)))))) ∧
      (∀ a : Nat, a = (State.allTasks.filter (fun k => (s.task k).goal.isSome)).length →
        (a = 0 → exec (.abandonMoves m) s = .next (s.placeResult 0)) ∧
        (a ≠ 0 → exec (.abandonMoves m) s = .next ((((forEach State.allTasks (fun u k => if (u.task k).goal.isSome
          then u.setTask k { u.task k with goal := none } else u) s).setFault pgPLACE 21).raise pgPLACE 0x057 0
          [a]).placeRefresh.placeResult 0))) ∧
      (∀ i, i = s.get pgPLACE PLACE.FORCE_INDEX.INDEX →
        (s.dirType i ≠ 0 → s.dirSize i ≤ 16 → exec (.force m) s = .next (({ s with forceReq := s.forceReq ++ [(i, some
          ((List.range 4).foldl (fun acc j => acc + (s.get pgPLACE (PLACE.FORCE_V j)) * 2 ^ (32 * j)) 0))] } :
          State).placeResult 0)) ∧
        (s.dirType i = 0 ∨ 16 < s.dirSize i → exec (.force m) s = .next (s.placeResult 3)) ∧
        exec (.forceRelease m) s = .next (({ s with forceReq := s.forceReq ++ [(i, none)] } : State).placeResult 0))) ∧
    (∀ a : Nat, a = (State.allTasks.filter (fun k => (s.task k).goal.isSome)).length → s.pageOn pgPLACE = true → a ≠ 0 →
      exec .moveStalled s = .next ((((forEach State.allTasks (fun u k => if (u.task k).goal.isSome
        then u.setTask k { u.task k with goal := none } else u) s).setFault pgPLACE 21).raise pgPLACE 0x057 0
        [a]).placeRefresh)) ∧
    exec .forceTakeEffect s = .next (s.forceReq.foldl (fun u r => u.forceEffect r) ({ s with forceReq := [] } : State)) ∧
    (∀ k : Fin 32, (s.task k.val).fill = true → exec (.tier0FillDone k) s =
      .next ((s.fillTask k.val).setTask k.val { s.task k.val with
        fill := false, cur := (s.task k.val).cur.map (fun c => { c with ready := true }) })) ∧
    (∀ (i : Fin 32768) (w : Fin 4) (v : BitVec 32), s.pageOn pgPLACE = true →
      (s.st pgSEQ = 2 → w.val < 3 → exec (.directoryWrite i w v) s = .next (s.setDirW i.val w.val v.toNat)) ∧
      (s.st pgSEQ ≠ 2 ∨ w.val = 3 → exec (.directoryWrite i w v) s =
        .next ((s.setFault pgPLACE 20).raise pgPLACE 0x058 0 [i.val]))) ∧
    (∀ (p : Fin 4) (ran : List (Fin 32 × BitVec 32)), s.pageOn pgPLACE = true → s.st (pgCP p.val) = 5 → s.seq.image ≠ none →
      (∀ k ∈ State.allTasks, (s.task k).cur = none) →
      exec (.placementRunFence p ran) s = .next (((s.placeRun 1 (some p.val)).1.queueMove p.val).xchgDisturb))

/-- Loop slots: run, samples, commit, output writes, record writes and folds (R157, R159, R164, R166, R169, R172,
R186). For the owner, RUN of LPE makes every slot track and raises 0x087; its end puts the outputs safe. While LPE
samples, a due slot takes its pending record, evaluates itself and shows the sample to the trace; a due fold takes
what its members have pending and evaluates them together; at its time, its delay as reported (log 274), a slot's
write drives its output, or every member's and the fold's. A record word lands in the shadow, in a Live word at once,
in a state word in Stop. A slot that never samples takes its record a second after the check. -/
def Obligations.Loops : Prop :=
  ∀ (s : State),
    (∀ m : Fin 4, s.mayAct pgLPE m.val →
      (s.on pgLPE HDR.CTRL.RUN = false → exec (.lpeRunOn m) s = .next ((forEach s.lSlots (fun u n =>
        u.setLw n 0x0B0 (u.lw n 0x0B0 ||| 0x4000#32)) ((s.put pgLPE HDR.CTRL.RUN 1).refreshState pgLPE)).raise pgLPE 0x087 0 [1])) ∧
      (s.on pgLPE HDR.CTRL.RUN = true → exec (.lpeRunOff m) s = .next (((forEach s.lSlots (fun u n =>
        (u.setLoopRt n { u.loopRt n with write := none }).loopOutSafe n)
        (({ s with lpe := { s.lpe with folds := [] } } : State).put pgLPE HDR.CTRL.RUN 0)).refreshState pgLPE).raise pgLPE 0x087 0
          [0]))) ∧
    (s.lpeSamples = true → ∀ (n : Fin 1024) (ecc : Ecc) (u v : State), s.lEnabled n.val = true → s.lFoldEn n.val = false →
      s.lTriggered n.val = true → u = s.lTakeDue n.val →
      (u.lEnabled n.val = true → u.lFoldEn n.val = false → u.lAccess n.val ecc = (v, true) → ∃ ev w,
        ev = v.asBefore.evalTo7 n.val ∧ w = { v.finishSample n.val ev ev.y true false with
          freeUses := (v.finishSample n.val ev ev.y true false).freeUses + 2 } ∧
        exec (.loopSample n ecc) s = .next ((w.lDue 1).traceAll [State.traceViewOf v w n.val ev ev.y false])) ∧
      (u.lEnabled n.val = false → exec (.loopSample n ecc) s = .next u)) ∧
    (∀ n : Fin 1024, s.active pgLPE = true → s.pageOn pgLPE = true → s.lpe.checked + 1000000000 ≤ s.e → s.lEnabled n.val = false →
      s.lFoldEn n.val = false → s.on pgLPE LPE.STATUS.APPLYING = true → s.lpe.taking.contains n.val = true →
      exec (.slotCommitTimeout n) s = .next (s.lTake n.val)) ∧
    (s.lpeSamples = true → ∀ (n : Fin 1024) (due : BitVec 16),
      (∀ (w : LoopWrite) (i : Nat), s.lFoldEn n.val = false → (s.loopRt n.val).write = some w → w.at_ = s.e →
        ∀ u, u = s.setLoopRt n.val { s.loopRt n.val with write := none } →
        ∀ v, v = u.setLw n.val 0x0B0 (BitVec.ofNat 32 (putBits (u.lw n.val 0x0B0).toNat 12 12 0)) →
        s.lBind n.val 0x014 = some i → s.lBind n.val 0x030 = none →
        exec (.loopOutputWrite n 0 due) s = .next (v.loopOut i w.value w.qual)) ∧
      (s.lFoldEn n.val = true → exec (.loopOutputWrite n (BitVec.ofNat 64 (s.loopDelay n.val)) due) s = .next ((forEach (s.foldMembers (s.lFold n.val))
        (fun u k => u.loopWriteOut k due.toNat) s).foldWriteOut (s.lFold n.val)))) ∧
    (∀ (n : Fin 1024) (w : Fin 64) (v : Word), s.pageOn pgLPE = true →
      (w.val < 40 → exec (.loopRecordWrite n w v .good) s = .next { s with lpe := { s.lpe with
        shad := Store.set 0 s.lpe.shad (64 * n.val + w.val) (v &&& State.lMask w.val), pend := insNum n.val s.lpe.pend } }) ∧
      (40 ≤ w.val → w.val < 43 → exec (.loopRecordWrite n w v .good) s =
        .next (s.setLw n.val (4 * w.val) (v &&& State.lMask w.val))) ∧
      (44 ≤ w.val → w.val < 60 → s.st pgLPE = 2 → exec (.loopRecordWrite n w v .good) s =
        .next (s.setLw n.val (4 * w.val) (v &&& State.lMask w.val))) ∧
      (44 ≤ w.val → w.val < 60 → s.st pgLPE ≠ 2 → s.lw n.val (4 * w.val) ≠ v &&& State.lMask w.val →
        exec (.loopRecordWrite n w v .good) s = .next ((s.setFault pgLPE 0).raise pgLPE 0x011))) ∧
    (s.lpeSamples = true → ∀ (f : Fin 128) (n : Fin 1024) (ecc : Ecc) (u v : State), s.foldDue f.val = true →
      u = s.foldTakes f.val → (u.foldMembers f.val).contains n.val = false →
      v = forEach ((s.foldMembers f.val).filter (fun k => u.lEnabled k && !u.lFoldEn k)) (fun u k => u.loopSample k) u →
      v.foldOn f.val = true → v.foldMembers f.val ≠ [] →
      exec (.foldSample f n ecc) s = .next (v.foldSample f.val (v.foldMembers f.val)))

/-- LPT: ARM, ARM_ALL, FORCE and STOP of a trace channel by the owner (R201, R202). For the owner of LPT, with the
page on: CMD of a channel adds its arm, force or stop to that channel's waiting commands, which its next sample
instant takes up in order; ARM_ALL adds an arm to each channel of its mask. -/
def Obligations.TraceCapture : Prop :=
  ∀ (s : State) (m : Fin 4), s.mayAct pgLPT m.val → ∀ waits : State → Nat → Nat → State,
    waits = (fun u c code => u.setTraceRt c { u.traceRt c with cmds := (u.traceRt c).cmds ++ [code] }) →
    (∀ c : Fin 16, exec (.traceArm c m) s = .next (waits s c.val 1) ∧
      exec (.traceForce c m) s = .next (waits s c.val 2) ∧
      exec (.traceStop c m) s = .next (waits s c.val 3)) ∧
    (∀ mask : BitVec 16, exec (.armAll mask m) s =
      .next (forEach ((List.range 16).filter (fun c => mask.getLsbD c)) (fun u c => waits u c 1) s))

/-- Angle sources: encoder events, the wire, standstill, mains crossings and the read of ANGLE (R206, R208, R210,
R211, R215, R216, R217, R218, R228). On a running source: a count edge counts with its arrival time; the zero mark
references an encoder with Z_EN; a jump of both signals counts in QUAD_CNT with fault 19 and 0x0C5; too fast a rate
sets fault 20, a standing wire fault 18, and loses the source. Standstill of a locked source after STALL_MS without a
count enters state 4 with speed 0, dropping predictions. A mains crossing on a source's input writes EDGE_ANGLE,
EDGE_T, SPEED, ACCEL and VRMS, loses a locked source out of band or thrice off, locks after ten good ones, finds one
with volts. A read of ANGLE latches REV_SNAP and SNAP_T. -/
def Obligations.AngleSources : Prop :=
  ∀ s : State,
    (∀ n : Fin 4, s.srcRuns n.val = true →
      (∀ (fwd : Bool) (age : Fin 21),
        exec (.encoderCount n (.count fwd) age) s = .next (s.srcCount n.val fwd (s.e - 10 * age.val))) ∧
      (∀ age : Fin 21, s.srcMode n.val = 1 →
        (s.on (pgASRC n.val) ASRC.CFG.Z_EN = true → exec (.encoderCount n .zref age) s = .next (((s.srcReference n.val
          (State.srcResidue (s.srcCpr n.val) (s.asrcRt n.val).c) 0).slotsRefine n.val).axIndex n.val age.val)) ∧
        exec (.encoderCount n .quad age) s =
          .next (((s.incMod (pgASRC n.val) ASRC.QUAD_CNT).setFault (pgASRC n.val) 19).raise (pgASRC n.val) 0x0C5 1 [n.val])) ∧
      (∀ age : Fin 21, exec (.encoderCount n .rate age) s =
        .next (((s.setFault (pgASRC n.val) 20).raise (pgASRC n.val) 0x0C5 2 [n.val]).srcLost n.val)) ∧
      exec (.wire n true) s = .next ((((s.cond (pgASRC n.val) 18 true).setFault (pgASRC n.val) 18).raise (pgASRC n.val) 0x0C5 0
        [n.val]).srcLost n.val) ∧
      exec (.wire n false) s = .next (s.cond (pgASRC n.val) 18 false) ∧
      (s.srcState n.val = 3 → (s.asrcRt n.val).t + s.get (pgASRC n.val) ASRC.STALL.STALL_MS * 1000000 ≤ s.e →
        exec (.standstill n) s = .next ((((((s.setAsrcRt n.val (State.srcRestart (s.asrcRt
        n.val))).setSrcState n.val 4).raise (pgASRC n.val) 0x0C3 0 [n.val]).srcSpeedOut n.val F32.zero 0).setReg (pgASRC n.val)
        ASRC.SPEED.off 0).slotsUnpredict n.val))) ∧
    (∀ i : Fin 2, s.srcRuns (4 + i.val) = true →
      (∀ (inp : Fin 4) (vrms : Word) (pll4 pll5 pll : PllOut) (pg n ang dt a lock bad : Nat) (x1 : Int) (hz : Nat)
        (volts inBand : Bool) (u v w x y t : State), n = 4 + i.val → pg = pgASRC n → pll = (if n = 4 then pll4 else pll5) →
        hz = State.srcPerS pll.w.toNat → inBand = (fmt64.le (f64Of 40) hz && fmt64.le hz (f64Of 70)) →
        volts = F32.le (s.reg pg ASRC.V_MIN.off) vrms → ang = (pll.phase.toNat + s.get pg ASRC.PHASE_OFS) % 4294967296 →
        x1 = (if (s.asrcRt n).hist = 0 then (s.asrcRt n).x / 4294967296 * 4294967296 + ang
          else (s.asrcRt n).x + 4294967296 + signed 32 (unsigned 32 ((ang : Int) - ((s.asrcRt n).x + 4294967296)))) →
        dt = s.e - (s.asrcRt n).t → a = (if (s.asrcRt n).hist < 2 then 0 else fmt64.div (fmt64.sub pll.w.toNat (s.asrcRt n).w)
          (fmt64.div (f64Of (dt + (s.asrcRt n).pdt)) f64Two)) →
        lock = (if volts && inBand && phaseBelow pll.phase 1 then min 10 ((s.asrcRt n).lock + 1) else 0) →
        bad = (if phaseAbove pll.phase 5 then (s.asrcRt n).bad + 1 else 0) →
        u = ((((((s.setAsrcRt n { s.asrcRt n with
          t := s.e, x := x1, w := pll.w.toNat, a := a, pdt := dt, hist := min 2 ((s.asrcRt n).hist + 1), lock := lock
          bad := bad }).put pg ASRC.EDGE_ANGLE ang).put pg ASRC.EDGE_T s.e).setReg pg ASRC.SPEED.off (wordOf64 hz)).setReg pg
          ASRC.ACCEL.off (wordOf64 (fmt64.mul (State.srcPerS a) (f64Of 1000000000)))).setReg pg ASRC.VRMS.off vrms) →
        v = (if u.srcState n = 3 ∧ (inBand = false ∨ 3 ≤ bad) then u.srcLost n
          else if (u.srcState n = 2 ∨ u.srcState n = 5) ∧ lock = 10 then (u.put pg ASRC.STATUS.REFERENCED 1).setSrcState n 3
          else if (u.srcState n = 1 ∨ u.srcState n = 5) ∧ volts = true then u.setSrcState n 2
          else u) →
        w = v.srcSpeedOut n (wordOf64 hz) 0 →
        x = (if v.srcState n == 2 || v.srcState n == 3 then (if w.on pg ASRC.VOLT_OUT.VALID
          then w.imgWriteWord (w.get pg ASRC.VOLT_OUT.INDEX) (w.srcVolts n) 0 else w) else v) →
        y = (x.slotsRefine n).closeRefine n →
        t = (if n = 5 ∧ y.active pgANG = true then y.syncEvaluate else y.syncWatch) →
        (n = 4 → s.get (pgASRC 4) ASRC.MAINS.INPUT = inp.val ∧ t.get (pgASRC 5) ASRC.MAINS.INPUT ≠ inp.val) →
        (n = 5 → s.get (pgASRC 4) ASRC.MAINS.INPUT ≠ inp.val ∧ s.get (pgASRC 5) ASRC.MAINS.INPUT = inp.val) →
        exec (.mainsCrossing inp vrms pll4.phase pll4.w pll5.phase pll5.w) s = .next t) ∧
      (s.srcState (4 + i.val) = 2 ∨ s.srcState (4 + i.val) = 3 →
        exec (.mainsSignalLost i) s = .next (s.srcLost (4 + i.val)).syncWatch)) ∧
    (∀ n : Fin 6, s.served = true → s.pageOn (pgASRC n.val) = true → exec (.angleRead n) s =
      .next (((s.put (pgASRC n.val) ASRC.REV_SNAP (unsigned 32 (s.angX n.val / 4294967296))).put (pgASRC n.val) ASRC.SNAP_T
        s.stnNs).answer (unsigned 32 (s.angX n.val))))

/-- SLOT_CMD and the issue of an angle slot's action (R220, R223, R224, R225, R236). For the owner of ANG: ARM of an
enabled slot whose action is not the synchroniser's, in an active block, clears and arms it and aims it from the
source's angle; DISARM of such a slot clears it. The lowest armed slot whose prediction has come, on a locked source,
one slot in 10 ns, issues as reported (log 274): LAST_CAUSE 0, or 1 when late, its counts, its action unless a later
slot of the instant drives the same channel, its event, and the late record; a quiet slot only notes cause 4. Then it
disarms when it fires once and is aimed again otherwise. -/
def Obligations.AngleSlots : Prop :=
  ∀ (s : State),
    (∀ (m : Fin 4) (k : Nat), s.mayAct pgANG m.val → k = s.get pgANG ANG.SLOT_INDEX.SLOT → s.slotAct k ≠ 7 →
      (s.active pgANG = true → s.slotEn k = true → ∀ u, u = s.setAngSlot k { s.angSlot k with
          armed := true, tgt := none, pred := none } →
        exec (.slotArm m) s = .next (u.slotAim k (u.angX (u.slotSrc k)))) ∧
      exec (.slotDisarm m) s = .next (s.setAngSlot k { s.angSlot k with armed := false, tgt := none, pred := none })) ∧
    (∀ (k : Fin 256) (p : Nat) (x : Int) (cause : Nat) (v w r : State), s.active pgANG = true → (s.angSlot k.val).pred = some p →
      (s.angSlot k.val).tgt = some x → s.slotDue k.val p = true → p ≤ s.e → s.sync.issued ≠ s.e + 1 →
      (∀ j < k.val, s.slotDue j p = false) → cause = (if p < s.e then 1 else 0) →
      v = ((s.put pgANG ANG.SLOT_STAT.LAST_CAUSE cause k.val).incMod pgANG ANG.SLOT_FIRED 1 k.val).incMod pgANG ANG.FIRED_TOTAL →
      w = (if s.slotMerged k.val then v else v.slotAction k.val) →
      r = (if s.slotQuiet k.val then s.put pgANG ANG.SLOT_STAT.LAST_CAUSE 4 k.val
        else (if s.slotF k.val 0 19 19 = 1 then ({ w with sync := { w.sync with issued := s.e + 1 } } : State).event (0x200 + k.val)
          else ({ w with sync := { w.sync with issued := s.e + 1 } } : State)).slotLate k.val cause (s.e - p)) →
      exec (.actionIssue k (decide (p < s.e))) s = .next (if s.slotF k.val 0 23 22 = 2 then r.slotArmed k.val false else r.slotAim k.val x))

/-- The synchroniser: request, freeze, close, feedback, pulse end, no-close and timeout (R229, R231, R232, R233,
R234). With EN, in state 0 and not standby, a REQ that reads 1 starts state 1 with REASON 0, or aborts with reason 3
where the feedback already reads closed. After the watch, state 2 freezes into 3 from 2 ms before the close; in 3 the
close instant fires the slot: LAST_CAUSE, its counts, its event, the close output, 0x0C9, and state 4. Feedback in 4
writes the measured time and contact angle, 0x0CA, and state 5. Without feedback the end of the pulse enters 5. No
closing aborts with reason 7, the timeout in 1 or 2 with reason 4. -/
def Obligations.Synchroniser : Prop :=
  ∀ s : State,
    (s.active pgANG = true → s.on pgANG ANG.SYNC_CFG.EN = true → s.syncState = 0 → s.syncReq = true →
      s.get pgPAIR PAIR.STATUS.ROLE ≠ 2 →
      (s.on pgANG ANG.SYNC_CFG.FB_VALID = true → s.dioLevel (s.get pgANG ANG.SYNC_CFG.FB_CH) = true →
        exec .syncRequest s = .next (s.syncAbort 3)) ∧
      (s.on pgANG ANG.SYNC_CFG.FB_VALID = false ∨ s.dioLevel (s.get pgANG ANG.SYNC_CFG.FB_CH) = false →
        exec .syncRequest s = .next (((s.setSync { s.sync with inRun := s.seqRuns }).put pgANG ANG.SYNC_STATE.REASON
          0).setSyncState 1))) ∧
    (∀ u, u = s.syncWatch → u.active pgANG = true → u.syncState = 2 → u.sync.ti ≤ u.e + 2000000 →
      exec .syncFreeze s = .next (u.setSyncState 3)) ∧
    (∀ u k v w x, u = s.syncWatch → u.active pgANG = true → u.syncState = 3 → u.sync.ti ≤ u.e → k = u.syncSlot →
      v = (((u.put pgANG ANG.SLOT_STAT.LAST_CAUSE 0 k).incMod pgANG ANG.SLOT_FIRED 1 k).incMod pgANG
        ANG.FIRED_TOTAL).slotArmed k false →
      w = (if u.slotF k 0 19 19 = 1 then v.event (0x200 + k) else v) →
      x = (w.dioAngle (w.get pgANG ANG.SYNC_CFG.CLOSE_CH) true).raise pgANG 0x0C9 0 [unsigned 32 (w.syncPhiAt w.sync.tc),
        State.milli w.sync.slip, State.milli (w.reg pgANG ANG.SYNC_DVM.off)] →
      exec .syncClose s = .next ((x.setSync { x.sync with pulse := true, ti := x.e, issued := x.e + 1 }).setSyncState 4)) ∧
    (s.syncState = 4 → s.on pgANG ANG.SYNC_CFG.FB_VALID = true →
      (∀ us phi, us = (s.e - s.sync.ti) / 1000 → phi = unsigned 32 (s.syncPhiAt s.e) → exec .syncFeedback s =
        .next ((((s.put pgANG ANG.SYNC_TCLOSE_MEAS us).put pgANG ANG.SYNC_PHI_CONTACT phi).raise pgANG 0x0CA 0
          [us, phi, State.milli s.sync.slip]).setSyncState 5)) ∧
      exec .cbNoClose s = .next (s.syncAbort 7)) ∧
    (s.sync.pulse = true → ∀ u, u = (s.setSync { s.sync with pulse := false }).dioAngle (s.get pgANG ANG.SYNC_CFG.CLOSE_CH)
        false → exec .syncPulseEnd s = .next (if u.syncState = 4 ∧ u.on pgANG ANG.SYNC_CFG.FB_VALID = false
          then u.setSyncState 5 else u)) ∧
    (s.syncState = 1 ∨ s.syncState = 2 → exec .syncTmo s = .next (s.syncAbort 4))

/-- The eight commands of an axis: taken or refused when the waiting command has that code (R242, R243, R248, R255).
With the axis page on and a command with code c waiting, the command of code c acts on the acknowledged state. Without
a reason against it MOVE_ABS and MOVE_REL start a move to the target (a relative one from the last target while
moving, else from the position), VELOCITY runs, or stops at 0, STOP and QUICK_STOP stop with their decelerations or
abort homing, HOME clears HOMED and searches, GEAR_IN couples, GEAR_OUT stops. With a reason of R243 each sets fault
25 and LAST_REFUSAL and raises 0x0E1. -/
def Obligations.AxisCommands : Prop :=
  ∀ (s u : State) (n : Fin 8) (code k : Nat) (t : Int), s.pageOn (pgAX n.val) = true → s.axWaiting n.val = some (code, k, u) →
    t = (if code = 2 then (if u.axState n.val = 2 ∨ u.axState n.val = 4 then (u.axRt n.val).tgt else u.axPos n.val) +
      (u.axRt n.val).tgtIn else (u.axRt n.val).tgtIn) →
    (u.axReason n.val code k t = none →
      (code = 1 → exec (.moveAbs n) s = .next (u.axMove n.val k t 2)) ∧
      (code = 2 → exec (.moveRel n) s = .next (u.axMove n.val k t 2)) ∧
      (code = 3 → t = 0 → exec (.velocity n) s = .next (u.axStop n.val (u.axDec n.val k) false)) ∧
      (code = 3 → t ≠ 0 → exec (.velocity n) s = .next ((u.setAxRt n.val { u.axRt n.val with
        plan := 2, prof := k, vneg := decide (t < 0), openAtRest := false }).axGo n.val 3)) ∧
      (code = 4 → exec (.axisStop n) s = .next (if u.axState n.val = 6 then u.axHomeAbort n.val 3
        else u.axStop n.val (u.axDec n.val (u.axRt n.val).prof) false)) ∧
      (code = 5 → exec (.quickStop n) s = .next (if u.axState n.val = 6 then u.axHomeAbort n.val 3
        else u.axStop n.val (u.axQdec n.val) false)) ∧
      (code = 6 → ∀ v, v = u.put (pgAX n.val) AX.STATUS.HOMED 0 → exec (.home n) s =
        .next ((v.setAxRt n.val { u.axRt n.val with
          home := 1, homeFrom := (u.axRt n.val).p, plan := 2, prof := u.get (pgAX n.val) AX.HOME_CFG.PROFILE
          vneg := u.on (pgAX n.val) AX.HOME_CFG.DIR, openAtRest := false }).axGo n.val 6)) ∧
      (code = 7 → exec (.gearIn n) s = .next (u.axGearIn n.val)) ∧
      (code = 8 → exec (.gearOut n) s = .next (u.axStop n.val (u.axDec n.val k) false))) ∧
    (∀ reason r, u.axReason n.val code k t = some reason → r = ((u.setFault (pgAX n.val) 25).put (pgAX n.val)
        AX.HOME_INFO.LAST_REFUSAL reason).raise (pgAX n.val) 0x0E1 n.val [reason, code] →
      (code = 1 → exec (.moveAbs n) s = .next r) ∧ (code = 2 → exec (.moveRel n) s = .next r) ∧
      (code = 3 → exec (.velocity n) s = .next r) ∧ (code = 4 → exec (.axisStop n) s = .next r) ∧
      (code = 5 → exec (.quickStop n) s = .next r) ∧ (code = 6 → exec (.home n) s = .next r) ∧
      (code = 7 → exec (.gearIn n) s = .next r) ∧ (code = 8 → exec (.gearOut n) s = .next r))

/-- Axis events: target reached, gear changes, lag, lost source, switches, homing, chatter, hold (R245, R249, R250,
R251, R252, R253, R254, R255, R260). An axis at rest on its target ends the move with AT_TARGET, state 1. In gear, a
waiting or new ratio takes effect at the crossing, with 0x0E6; a lag above LAG_MAX sets fault 23 and at most once per
interval raises 0x0E7; a lost source stops with 0x0E8. A switch that qualifies, as reported (log 274), shows its
level; a limit in the direction of motion sets fault 20, raises 0x0E4 and stops. Homing's end sets HOMED and AT_TARGET
with 0x0E2. An edge is a candidate, a second before it qualifies is chatter; above CHAT_MAX in a second it sets fault
22 with 0x0E5. After the hold delay the coils hold. -/
def Obligations.AxisEvents : Prop :=
  ∀ (s : State) (n : Fin 8) (pg : Nat), pg = pgAX n.val →
    ((s.axRt n.val).plan = 1 → s.axOnTarget n.val = true → s.axState n.val = 2 ∨ s.axState n.val = 4 →
      exec (.moveDone n) s =
        .next (((s.setAxRt n.val { s.axRt n.val with plan := 0 }).put pg AX.STATUS.AT_TARGET 1).axSetState n.val 1)) ∧
    (s.axState n.val = 5 →
      (∀ u b q c, u = s.axSeeBell n.val → (u.axRt n.val).gat = some b →
        q = (if (u.axRt n.val).gwait then ((u.axRt n.val).gnum, (u.axRt n.val).gden)
          else (u.axRt n.val).gnew.getD ((u.axRt n.val).gnum, (u.axRt n.val).gden)) →
        ((u.axRt n.val).gwait && u.get pg AX.GEAR_CFG.FOLLOW == 2) = false → c = b →
        exec (.gearRatioApplied n) s = .next ((u.setAxRt n.val { u.axRt n.val with
          gwait := false, gnew := none, gat := none, ba := c
          pa := if (u.axRt n.val).gwait then u.axPos n.val else u.axP n.val b
          gnum := q.1, gden := max 1 q.2 }).raise pg 0x0E6 n.val [unsigned 32 q.1, max 1 q.2, unsigned 32 c])) ∧
      (∀ u b, u = s.axSeeBell n.val → (u.axRt n.val).gat = some b →
        ((u.axRt n.val).gwait && u.get pg AX.GEAR_CFG.FOLLOW == 2) = true →
        exec (.gearRatioApplied n) s = .next ((u.setAxRt n.val { u.axRt n.val with
          gwait := false, gnew := none, gat := none, ba := 0, pa := u.axPos n.val, gden := max 1 (u.axRt n.val).gden
          gpath := (u.axRt n.val).gpath - b }).raise pg 0x0E6 n.val
            [unsigned 32 (u.axRt n.val).gnum, max 1 (u.axRt n.val).gden, unsigned 32 0])) ∧
      (∀ lag, lag = signed 32 (s.get pg AX.LAG) → s.get pg AX.GEAR_CFG.LAG_MAX < lag.natAbs →
        (s.mayRecord (0x0E700 + n.val) = true → exec (.gearLag n) s =
          .next (((s.setFault pg 23).markRecord (0x0E700 + n.val)).raise pg 0x0E7 n.val [unsigned 32 lag])) ∧
        (s.mayRecord (0x0E700 + n.val) = false → exec (.gearLag n) s = .next (s.setFault pg 23))) ∧
      (s.axBellOk n.val = false → exec (.gearSrc n) s =
        .next (((s.setFault pg 24).raise pg 0x0E8 n.val).axStop n.val (s.axDec n.val 0) false))) ∧
    (∀ (sw : Fin 3) (w : AxSwitch) (u : State), s.pageOn pg = true → s.axQualifies n.val sw.val = true →
      w = s.axSwitch n.val sw.val → u = (s.putB pg (State.axSwF sw.val) (w.last == s.on pg (State.axSwPol
        sw.val))).setAxSwitch n.val sw.val { w with cand := none } →
      (w.last ≠ s.on pg (State.axSwPol sw.val) → exec (.switchQualified n sw false (w.cand.getD (s.axPos n.val))) s = .next u) ∧
      (w.last = s.on pg (State.axSwPol sw.val) →
        (s.axState n.val = 6 → (s.axRt n.val).home = 1 → s.axHomeSw n.val = sw.val → exec (.switchQualified n sw true (w.cand.getD (s.axPos n.val))) s =
          .next (u.axCapture n.val (w.cand.getD (s.axPos n.val)))) ∧
        (s.axState n.val ≠ 6 → (sw.val = 0 ∧ (s.axRt n.val).v < 0) ∨ (sw.val = 1 ∧ 0 < (s.axRt n.val).v) →
          exec (.switchQualified n sw true (w.cand.getD (s.axPos n.val))) s =
            .next (((u.setFault pg 20).raise pg 0x0E4 n.val [sw.val]).axStop n.val (u.axQdec n.val) false)))) ∧
    (∀ u, u = s.axShift n.val → u.axState n.val = 6 → (u.axRt n.val).home = 3 → (u.axRt n.val).plan = 1 →
      u.axOnTarget n.val = true → u.axHomeSw n.val = 2 → ∀ w, w = ((u.setAxRt n.val { u.axRt n.val with
        plan := 0, home := 0 }).put pg AX.STATUS.HOMED 1).put pg AX.STATUS.AT_TARGET 1 →
      exec (.homingComplete n) s =
        .next ((w.raise pg 0x0E2 n.val [w.get pg AX.CAPT_LO, w.get pg AX.HOME_CFG.MODE]).axSetState n.val 1)) ∧
    (∀ (sw : Fin 3) (lv : Bool) (w x : AxSwitch) (es : List Nat) (u v : State), s.pageOn pg = true →
      s.on pg (State.axSwValid sw.val) = true → w = s.axSwitch n.val sw.val → w.raw ≠ some lv →
      u = s.setAxSwitch n.val sw.val { w with raw := some lv } → lv ≠ s.axSwLevel n.val sw.val →
      (w.cand = none → exec (.chatter n sw lv) s = .next (u.setAxSwitch n.val sw.val { w with
        raw := some lv, cand := some (s.axPosAt n.val 0), candAt := s.clk.ref })) ∧
      (w.cand.isSome = true → x = u.axSwitch n.val sw.val →
        es = x.edges.filter (fun e => decide (u.clk.ref < e + 100000000)) ++ [s.clk.ref] →
        v = (u.setAxSwitch n.val sw.val { x with edges := es }).incSat pg ⟨AX.CHAT_CNT.COUNT.off, 8 * sw.val + 7, 8 * sw.val⟩ 1 →
        exec (.chatter n sw lv) s = .next (if u.get pg AX.SW_QUAL.CHAT_MAX < es.length
          then (v.setFault pg 22).raise pg 0x0E5 n.val [u.get pg (State.axSwCh sw.val), es.length] else v))) ∧
    (∀ i : Fin 4, (s.axRt i.val).coils = 1 → (s.axRt i.val).v = 0 → (s.axRt i.val).plan = 0 → s.axState i.val = 1 →
      exec (.holdDelay i) s = .next (s.setAxRt i.val { s.axRt i.val with coils := 2 }))

/-- Motor supply and bridge faults of the axes: what each writes, sets, raises and stops (R259, R262). With the axis
page on: a motor supply that newly falls below 18 V or rises above 52.8 V writes VMOT_MV, clears VMOT_OK, sets fault
16 with its condition and faults the four motor axes with 0x0E9 of kind 0 or 2; one newly between 18 and 21.6 V clears
VMOT_OK with kind 1; one newly good sets VMOT_OK and ends the condition with kind 3. Of driven coils overcurrent sets
fault 17, an open coil at rest with at least 100 mA hold current fault 18; above 120 C thermal shutdown sets fault 19
with its condition, each with 0x0EA and faulting the axis; above 108 C a warning is raised. -/
def Obligations.AxisFaults : Prop :=
  ∀ s : State,
    (∀ (mv : BitVec 16) (bad : State), s.pageOn (pgAX 0) = true → bad = forEach [0, 1, 2, 3] (fun u n =>
        ((((u.put (pgAX n) AX.BRIDGE.VMOT_MV mv.toNat).put (pgAX n) AX.STATUS.VMOT_OK 0).cond (pgAX n) 16 true).setFault (pgAX n)
          16).axFaulted n) s →
      (mv.toNat < 18000 → s.flt.conds.contains (faultKey (pgAX 0) 16) = false ∨ s.vmotZone ≠ 0 →
        exec (.vmotMissing mv) s = .next (bad.raise (pgAX 0) 0x0E9 0 [mv.toNat])) ∧
      (52800 < mv.toNat → s.vmotZone ≠ 2 → exec (.vmotOver mv) s = .next (bad.raise (pgAX 0) 0x0E9 2 [mv.toNat])) ∧
      (18000 ≤ mv.toNat → mv.toNat < 21600 → s.vmotZone = 2 ∨ s.vmotZone = 3 ∨ (s.vmotZone = 0 ∧ 18500 ≤ mv.toNat) →
        exec (.vmotLow mv) s = .next ((forEach [0, 1, 2, 3] (fun u n => ((u.put (pgAX n) AX.BRIDGE.VMOT_MV mv.toNat).put (pgAX n)
          AX.STATUS.VMOT_OK 0).cond (pgAX n) 16 false) s).raise (pgAX 0) 0x0E9 1 [mv.toNat])) ∧
      (21600 ≤ mv.toNat → mv.toNat ≤ 52800 → s.vmotZone ≠ 3 → exec (.vmotRestored mv) s = .next ((forEach [0, 1, 2, 3]
        (fun u n => ((u.put (pgAX n) AX.BRIDGE.VMOT_MV mv.toNat).put (pgAX n) AX.STATUS.VMOT_OK 1).cond (pgAX n) 16 false)
          s).raise (pgAX 0) 0x0E9 3 [mv.toNat]))) ∧
    (∀ (n : Fin 4) (ph : Fin 2), s.pageOn (pgAX n.val) = true →
      ((s.axRt n.val).coils ≠ 0 → exec (.overcurrent n ph) s =
        .next (((s.setFault (pgAX n.val) 17).raise (pgAX n.val) 0x0EA n.val [1, ph.val]).axFaulted n.val)) ∧
      (100 ≤ s.get (pgAX n.val) AX.CURRENT.I_HOLD → (s.axRt n.val).coils ≠ 0 → (s.axRt n.val).v = 0 →
        exec (.openCoil n ph) s =
          .next (((s.setFault (pgAX n.val) 18).raise (pgAX n.val) 0x0EA n.val [2, ph.val]).axFaulted n.val)) ∧
      (∀ temp : BitVec 16,
        (1080 < signed 16 temp.toNat → exec (.thermalWarning n ph temp) s =
          .next ((s.put (pgAX n.val) AX.BRIDGE.TEMP temp.toNat).raise (pgAX n.val) 0x0EA n.val [3, ph.val])) ∧
        (1200 < signed 16 temp.toNat → exec (.thermalShutdown n ph temp) s = .next (((((s.put (pgAX n.val) AX.BRIDGE.TEMP
          temp.toNat).cond (pgAX n.val) 19 true).setFault (pgAX n.val) 19).raise (pgAX n.val) 0x0EA n.val
            [4, ph.val]).axFaulted n.val))))

/-- TIME: wraps, timestamps, accepted Syncs, lost domains, cleared residuals and the snapshot reads (R269, R270, R273,
R274, R277, R281, R282, R289, R441). A wrap carries the accumulator, raises the high word by one, takes the residual's
trim and raises 0x320 or 0x321 (and REC's wrap for stamp time). A timestamp enters the FIFO below 64 entries with
0x322; above it is lost, counted, with fault 25. A matching Sync is accepted for each domain it matches. A domain
whose Sync is over is lost: SYNC_OK cleared, 20 + x with its condition and 0x107. The stamp change ends with state 1
and 0x105. FAR_CLEARED limits the residual to FAR_NS. An overdue estimate lapses. Reads of the nanoseconds latch the
high word; a read of TS_W3 pops the FIFO. -/
def Obligations.TimeCounters : Prop :=
  ∀ s : State,
    exec .stationTimeWrap s = .next ((s.setClk { s.clk with
      stn := BitVec.ofNat 56 (if 2 ^ 56 ≤ stnSum s then stnSum s - 2 ^ 56 else 0), stnHi := s.clk.stnHi + 1
      stnRes := stnResNext s }).event 0x320) ∧
    exec .stampTimeWrap s = .next ((recWrap (s.setClk { s.clk with
      stp := BitVec.ofNat 56 (if 2 ^ 56 ≤ stpSum s then stpSum s - 2 ^ 56 else 0), stpHi := s.clk.stpHi + 1
      stpRes := stpResNext s })).event 0x321) ∧
    (∀ (port : Fin 4) (sent : Bool) (ty : BitVec 4) (d : BitVec 8) (sq : BitVec 16),
      (s.tsFifo.length < 64 → exec (.ptpTimestamp port sent ty d sq) s = .next (({ s with tsFifo := s.tsFifo ++ [{
        w0 := BitVec.ofNat 32 (2 ^ 31 + b2n sent * 2 ^ 30 + port.val * 2 ^ 28 + ty.toNat * 2 ^ 24 + d.toNat * 2 ^ 16 + sq.toNat)
        stn := BitVec.ofNat 32 s.stnNs, stp := BitVec.ofNat 32 s.stpNs }] } : State).event 0x322)) ∧
      (64 ≤ s.tsFifo.length → ∀ u, u = (s.incMod pgTIME TIME.TS_OVF).setFault pgTIME 25 →
        (u.mayRecord 0x1500 = false → exec (.ptpTimestamp port sent ty d sq) s = .next u) ∧
        (u.mayRecord 0x1500 = true → exec (.ptpTimestamp port sent ty d sq) s =
          .next ((u.markRecord 0x1500).raise pgTIME 0x10C 0 [u.get pgTIME TIME.TS_OVF])))) ∧
    (s.served = true → exec .tsW3Read s = .next { s with tsFifo := s.tsFifo.tail, bus := {} }) ∧
    (∀ (port : Fin 4) (d : BitVec 8) (ident : BitVec 64) (sp : BitVec 16),
      exec (.syncAccepted port d ident sp) s = .next (forEach [0, 1] (fun u x =>
        if syncMatches u x port.val d.toNat ident.toNat sp.toNat then syncFor x u else u) s)) ∧
    (∀ x : Fin 2, s.domLost x.val = false → s.syncOver x.val = true → exec (.domainLost x) s = .next ((((((s.put pgTIME (State.syncOkF x.val)
      0).setDomLost x.val true).setFault pgTIME (20 + x.val)).cond pgTIME (20 + x.val) true).raise pgTIME 0x107 0
        [x.val]).domLostEffects x.val)) ∧
    (∀ x : Fin 2, s.estOver x.val = true → exec (.estimateExpired x) s = .next (s.putB pgTIME (State.estOkF x.val) false)) ∧
    (s.stpState = 2 → exec .residualCleared s = .next (((s.setStpRes 0).setStpState 1).raise pgTIME 0x105 0
      [s.stpDom, ((s.clk.ref - s.clk.changeAt) * 10 + 500) / 1000])) ∧
    (∀ (lim r : Int), lim = (s.get pgTIME TIME.FAR_NS : Int) * nsUnit →
      (r = s.clk.stpRes → s.on pgTIME TIME.STATUS.STP_FAR = true → exec (.farCleared true) s =
        .next (s.setStpRes (if lim < r then lim else if r < -lim then -lim else r))) ∧
      (r = s.clk.stnRes → s.on pgTIME TIME.STATUS.STN_FAR = true → exec (.farCleared false) s =
        .next (s.setStnRes (if lim < r then lim else if r < -lim then -lim else r)))) ∧
    (s.served = true →
      exec (.stnNsRead true) s = .next (({ s with bus := { data := BitVec.ofNat 64 s.stpNs } } : State).put pgTIME
        TIME.STP_SNAP_HI s.clk.stpHi.toNat) ∧
      exec (.stnNsRead false) s = .next (({ s with bus := { data := BitVec.ofNat 64 s.stnNs } } : State).put pgTIME
        TIME.STN_SNAP_HI s.clk.stnHi.toNat))

/-- TIME: first steps, commanded steps, trims, increments, domain offsets and changes by the owner (R268, R275, R276,
R278, R279, R280, R281, R282, R283). For the owner of TIME: a first station step outside Run is taken with RESULT 0,
in Run it waits with STEP_PENDING, RESULT 1 and state 1; a first stamp step jumps, with 0x100. Commanded steps outside
Run jump with 0x101 and RESULT 0. STN_ADJ loads the residual outside holdover and pending steps; a legal STN_INC is
written; DOM_OFS writes the offset and EST_OK, and corrects stamp time or ends its holdover; STN_DOM changes the
domain; STP_SWITCH changes to an eligible domain. What is not accepted is refused or ignored with its record. -/
def Obligations.TimeCommands : Prop :=
  ∀ (s : State) (m : Fin 4), s.mayAct pgTIME m.val →
    (s.stepOfs ≠ 0 →
      (s.clk.stnStepped = false →
        (s.inRun = false → exec (.firstStn m) s = .next ((s.firstStn s.stepOfs).put pgTIME TIME.STEP_INFO.RESULT 0)) ∧
        (s.inRun = true → exec (.firstStn m) s = .next ((((s.setClk { s.clk with pendOfs := s.stepOfs }).put pgTIME
          TIME.STATUS.STEP_PENDING 1).put pgTIME TIME.STEP_INFO.RESULT 1).setStnState 1))) ∧
      (s.clk.stpStepped = false → ∀ u, u = (s.stpJump s.stepOfs).setStpState (if s.domLost s.stpDom then 3 else 1) →
        exec (.firstStp m) s = .next (((u.setClk { u.clk with stpStepped := true }).put pgTIME TIME.STEP_INFO.RESULT 0).raise
          pgTIME 0x100 1 [unsigned 32 s.stepOfs, unsigned 64 s.stepOfs / 2 ^ 32])) ∧
      (s.inRun = false → ∀ (p : List Nat) (u : State → State) (v : State → State),
        p = [unsigned 32 s.stepOfs, unsigned 64 s.stepOfs / 2 ^ 32] →
        u = (fun w => (w.stnJump s.stepOfs).raise pgTIME 0x101 0 p) →
        v = (fun w => (if w.stpState = 2 then (w.stpJump s.stepOfs).setStpState 1 else w.stpJump s.stepOfs).raise pgTIME 0x101
          1 p) →
        exec (.stepStn m) s = .next ((u s).put pgTIME TIME.STEP_INFO.RESULT 0) ∧
        exec (.stepStp m) s = .next ((v s).put pgTIME TIME.STEP_INFO.RESULT 0) ∧
        exec (.stepBoth m) s = .next ((v (u s)).put pgTIME TIME.STEP_INFO.RESULT 0)) ∧
      (s.inRun = true → exec (.stepStn m) s = .next (s.stepRefuse 2 3) ∧ exec (.stepStp m) s = .next (s.stepRefuse 2 4) ∧
        exec (.stepBoth m) s = .next (s.stepRefuse 2 5))) ∧
    (∀ v : BitVec 32,
      (s.stnState ≠ 3 → s.on pgTIME TIME.STATUS.STEP_PENDING = false →
        exec (.stnAdj m v) s = .next (s.setStnRes (v.toInt * nsUnit))) ∧
      (s.stnState = 3 → exec (.stnAdj m v) s = .next (s.timeIgnore 0x054 v.toNat) ∧
        exec (.stnInc m v) s = .next (s.timeIgnore 0x050 v.toNat)) ∧
      (s.stnState ≠ 3 → 0x09FD70A4 ≤ v.toNat → v.toNat ≤ 0x0A028F5C →
        exec (.stnInc m v) s = .next (s.put pgTIME TIME.STN_INC v.toNat)) ∧
      (∀ (x : Fin 2) (u : State), u = ((s.put pgTIME (TIME.DOM_OFS x.val) v.toNat).putB pgTIME (State.estOkF x.val) true).estMark x.val →
        (u.stpState = 1 → u.stpDom = x.val → exec (.domOfs m x v) s = .next (u.setStpRes (v.toInt * nsUnit))) ∧
        (u.stpState = 2 → exec (.domOfs m x v) s = .next u) ∧
        (u.stpState = 3 → u.eligible x.val = true → ∀ w, w = ((u.put pgTIME TIME.STATUS.STP_DOM x.val).setStpRes
          (v.toInt * nsUnit)).cond pgTIME 23 false → exec (.domOfs m x v) s = .next (((w.setClk { w.clk with
            stpInc := w.get pgTIME (TIME.DOM_INC x.val) }).setStpState 1).raise pgTIME 0x106 1 [x.val])))) ∧
    (∀ x : Fin 2, (s.stnDom = x.val → exec (.stnDom m x) s = .next s) ∧
      (s.stnDom ≠ x.val → ∀ u, u = ((s.put pgTIME TIME.STATUS.STN_DOM x.val).put pgTIME TIME.DOM_SEL.STN_DOM
        x.val).raise pgTIME 0x109 0 [x.val, State.resNs s.clk.stnRes] →
        exec (.stnDom m x) s = .next (if u.stnState = 3 ∧ u.domLost x.val = false then u.stnHoldoverEnd
          else if u.stnState = 2 ∧ u.domLost x.val = true then u.stnHoldover else u))) ∧
    (s.stpState = 1 ∨ s.stpState = 2 → s.eligible (1 - s.stpDom) = true →
      ∀ new u, new = 1 - s.stpDom → u = (s.put pgTIME TIME.STATUS.STP_DOM new).setStpRes (signed 32 (s.get pgTIME (TIME.DOM_OFS
        new)) * nsUnit) → ∀ w, w = u.setClk { u.clk with stpInc := s.get pgTIME (TIME.DOM_INC new), changeAt := s.clk.ref } →
      exec (.stpSwitch m) s = .next ((if w.stpState = 2 then w.event 0x323 else w.setStpState 2).raise pgTIME 0x104 1
        [new, State.resNs (signed 32 (s.get pgTIME (TIME.DOM_OFS new)) * nsUnit)]))

/-- Ethernet: queues, launch-time frames, transmit write-back, receive filters, lost LAN and link changes (R284, R286,
R290, R327, R328, R329, R330, R331, R332). TAIL writes by the owner set the TAIL of the indexed queue (ring queue 7:
0x184). A running port takes its first ready queue's descriptor: OWN 0 stops the queue, a bad one returns 7, a good
one with link is sent, status 1. A launch frame goes within 1 us unless the wire or a higher queue's near head holds
it; later it is sent or dropped as LATE_SEND says; too early it returns 4. A frame with bad FCS is counted; an
accepted one without rule or storm limit fills its queue's descriptor. A LAN silent for LAN_TMO is lost, fault 17. A
link change updates the port, on the ring its rate and capacity. -/
def Obligations.Ethernet : Prop :=
  ∀ (s : State) (port : Fin 4) (p : Nat), p = port.val →
    (∀ m : Fin 4, s.mayAct (pgETH p) m.val → ∀ tail : BitVec 10,
      (∀ q, q = s.get (pgETH p) ETH.TXQ_INDEX.QUEUE →
        (p < 2 ∨ q ≠ 7 → exec (.txqTail port m tail) s = .next ((s.put (pgETH p) ETH.TXQ_TAIL.TAIL tail.toNat q).setEthRt p
          { s.ethRt p with stopped := delNum q (s.ethRt p).stopped })) ∧
        (2 ≤ p → q = 7 → exec (.txqTail port m tail) s = .next (s.raise (pgETH p) 0x184 0 [q, 0xFFFF]))) ∧
      exec (.rxqTail port m tail) s = .next (s.put (pgETH p) ETH.RXQ_TAIL.TAIL tail.toNat (s.get (pgETH p)
        ETH.RXQ_INDEX.QUEUE))) ∧
    (s.ethRuns p = true → s.inSequence = false →
      (∀ q, txNext s p = some q →
        (bitOf (s.memRd (s.txDesc p q + 4) 4) 31 = false → exec (.txWriteBack port) s =
          .next (s.setEthRt p { s.ethRt p with stopped := insNum q (s.ethRt p).stopped })) ∧
        (bitOf (s.memRd (s.txDesc p q + 4) 4) 31 = true → s.badDesc p q = true →
          exec (.txWriteBack port) s = .next (s.txBad p q)) ∧
        (bitOf (s.memRd (s.txDesc p q + 4) 4) 31 = true → s.badDesc p q = false → s.on (pgETH p) ETH.STATUS.LINK = true →
          exec (.txWriteBack port) s = .next ((s.txWire p q).txReturn p q 1 s.stnNs))) ∧
      (∀ (q : Fin 8) (late : Nat), s.ltEn p q.val = true → s.txReady p q.val = true →
        bitOf (s.memRd (s.txDesc p q.val + 4) 4) 31 = true → s.badDesc p q.val = false →
        s.on (pgETH p) ETH.STATUS.LINK = true → late = (s.stnNs + 2 ^ 32 - s.memRd (s.txDesc p q.val + 8) 4) % 2 ^ 32 →
        (late ≤ 1000 → ∀ b, b = (s.wireBusy p || s.ltWaits p q.val (s.memRd (s.txDesc p q.val + 8) 4)) →
          (b = true → exec (.frameLaunch port q) s = .next (s.setEthRt p { s.ethRt p with
            held := insNum q.val (s.ethRt p).held })) ∧
          (b = false → ∀ w, w = (s.txWire p q.val).txReturn p q.val 1 s.stnNs → exec (.frameLaunch port q) s =
            .next (w.setEthRt p { w.ethRt p with busy := s.clk.ref + s.headNs p q.val / 10 }))) ∧
        (1000 < late → late < 2 ^ 31 → (s.ethRt p).held.contains q.val = false →
          (s.get pgTIME (TIME.LT_CFG.LATE_SEND (p * 8 + q.val)) = 1 → s.wireBusy p = false →
            ∀ w, w = (s.txWire p q.val).txReturn p q.val 2 s.stnNs → exec (.frameLaunch port q) s = .next ((w.setEthRt p
              { w.ethRt p with busy := s.clk.ref + s.headNs p q.val / 10 }).ltLate p q.val late 1)) ∧
          (s.get pgTIME (TIME.LT_CFG.LATE_SEND (p * 8 + q.val)) ≠ 1 →
            exec (.frameLaunch port q) s = .next ((s.txReturn p q.val 3 0).ltLate p q.val late 0))) ∧
        (2 ^ 31 < late → 1000000000 < 2 ^ 32 - late →
          exec (.frameLaunch port q) s = .next ((s.txReturn p q.val 4 0).ltLate p q.val 0 0)))) ∧
    (s.pageOn (pgETH p) = true →
      (∀ f : List Byte, exec (.frameReceive port false f) s = .next ((s.lanSeen p).dropCount p 24)) ∧
      (∀ f : List Byte, p < 2 → s.prp = false → s.ethRuns p = true → 14 ≤ f.length → f.length ≤ rxLimit s p f →
        (exec (.frameReceive port true f) s = .next ((s.lanSeen p).rxAfterDup p false f)) ∧
        (∀ h q u d a w, h = parseFrame f → s.ruleOf p h = none → s.on (pgETH p) ETH.CFG.DEF_DROP = false →
          s.get (pgETH p) (ETH.STORM.RATE (if h.da = 2 ^ 48 - 1 then 0 else if h.da / 2 ^ 40 % 2 = 1 then 1 else 2)) = 0 →
          q = (if h.tagged then h.pcp else 0) → u = s.stormRefill p → d = u.rxqBase p q + u.get (pgETH p)
            ETH.RXQ_HEAD.HEAD q * 16 → a = u.memRd d 4 + bits (u.memRd (d + 8) 4) 7 0 * 2 ^ 32 →
          ¬ (u.get (pgETH p) ETH.RXQ_SIZE.SIZE q = 0 ∨ u.get (pgETH p) ETH.RXQ_HEAD.HEAD q = u.get (pgETH p)
            ETH.RXQ_TAIL.TAIL q ∨ bitOf (u.memRd (d + 4) 4) 31 = false) → inTier12 a f.length = true →
          w = (((((u.memPut a f).memWr (d + 4) 4 (b2n (decide (p = 0)) * 2 ^ 30 + b2n (decide (p = 1)) * 2 ^ 29 + f.length % 4096 * 2 ^ 16 +
            0x7FF)).memWr (d + 12) 4 u.stpNs).put (pgETH p) ETH.RXQ_HEAD.HEAD ((u.get (pgETH p) ETH.RXQ_HEAD.HEAD q + 1) %
              u.get (pgETH p) ETH.RXQ_SIZE.SIZE q) q).incMod (pgETH p) ETH.RX_CNT) →
          exec (.frameReceive port true f) s = .next (if u.get (pgETH p) ETH.RXQ_SIZE.EVT q = 1 then w.event (0x338 + p)
            else w))) ∧
      (∀ (v : Fin 4) (t u : State), v.val ≠ s.get (pgETH p) ETH.STATUS.SPEED →
        (v = 0 ∨ bitOf (s.get (pgETH p) ETH.CFG.ADV) (v.val - 1) = true) → t = (((s.put (pgETH p) ETH.STATUS.SPEED
          v.val).putB (pgETH p) ETH.STATUS.LINK (decide (v.val ≠ 0))).raise (pgETH p) 0x180 (if v.val = 0 then 0 else 1)
            [if v.val = 1 then 10 else if v.val = 2 then 100 else if v.val = 3 then 1000 else 0]).event (0x34C + p) →
        u = (if v.val = 0 then (t.setFault (pgETH p) 16).cond (pgETH p) 16 true else t.cond (pgETH p) 16 false) →
        (p < 2 → exec (.linkChange port v) s = .next u) ∧
        (2 ≤ p → ∀ w, w = u.putB pgDWY DWY.STATUS.RATE_1G (u.ringByteNs == 8) →
          (w.get (pgETH 2) ETH.STATUS.SPEED ≠ 1 → exec (.linkChange port v) s = .next w.dwyCapacity) ∧
          (w.get (pgETH 2) ETH.STATUS.SPEED = 1 → w.get (pgETH 3) ETH.STATUS.SPEED = 1 →
            exec (.linkChange port v) s = .next (w.setFault pgDWY 17))))) ∧
    (∀ lan : Fin 2, s.prp = true → (s.ethRt lan.val).lanLost = false → s.pageOn (pgETH lan.val) = true →
      (s.ethRt lan.val).lanAt + 100000 * s.get (pgETH 0) ETH.CFG.LAN_TMO ≤ s.clk.ref → exec (.lanLost lan) s = .next (((((s.put (pgETH lan.val) ETH.STATUS.LAN_OK 0).setFault (pgETH lan.val) 17).cond
        (pgETH lan.val) 17 true).setEthRt lan.val { s.ethRt lan.val with lanLost := true }).raise (pgETH lan.val) 0x181 0
          [lan.val]))

/-- DWY: announcements and their returns, joins, accepts, lapsed offers, cycle frames and evaluation (R299, R300,
R307, R308, R311, R312, R313, R315). A due announcement of the duty module counts missed returns, opens the ring
record after three, and is sent; a return notes its time and the longest round trip. JOIN, ACCEPT or CYCLE frames that
fail check, type, length or sender are discarded with their kind; an open JOIN is taken and, with a match and no
reason against it, reserved and offered; an ACCEPT of a live offer binds; a good CYCLE frame in a window is taken, its
inputs written; an offer over lapses. At a task's freeze each bound station of it is evaluated once. -/
def Obligations.Droveway : Prop :=
  ∀ s : State,
    (s.dwyRuns = true → s.duty = true → s.dwy.annAt = 0 ∨ s.dwy.annAt + 100000 * s.get pgDWY DWY.CFG.ANN_MS ≤ s.clk.ref + 1 →
      ∀ (noA noB : Nat) (u v : State) (pay : List Byte),
      noA = (if s.dwy.retA then 0 else s.dwy.noA + 1) → noB = (if s.dwy.retB then 0 else s.dwy.noB + 1) →
      u = ({ s with dwy := { s.dwy with
        joins := 0, noA := noA, noB := noB, retA := false, retB := false, trips := (0 :: s.dwy.trips).take 16
        annAt := s.clk.ref + 1 } } : State) →
      v = (if (decide (3 ≤ noA) || decide (3 ≤ noB)) && !s.on pgDWY DWY.STATUS.RING_OPEN then u.dwyRing true else u) →
      pay = beBytes 0x10 1 ++ beBytes 0x11 1 ++ beBytes (s.get pgDWY DWY.MAX_PAYLOAD.BYTES) 2
        ++ beBytes (s.get pgDWY DWY.CFG.ANN_MS) 2 ++ beBytes (s.get pgDWY DWY.T_RING.MAX_US) 2
        ++ beBytes (Config.mac 2).toNat 6 ++ beBytes s.macB 6 ++ beBytes (s.get pgTIME TIME.STATUS.STN_DOM) 1 ++ [0, 0, 0] →
      exec .announce s = .next ((v.useFree.dwySend 1 groupAddr (v.freeWord.toNat % 256) 255 0 0 0 allOnes pay).put pgDWY
        DWY.STATUS.ANNOUNCING 1)) ∧
    (s.dwyRuns = true → s.on pgDWY DWY.STATUS.RING_OPEN = false → ∀ (us : BitVec 16) (x : Nat) (r : List Nat) (u : State),
      s.dwy.trips = x :: r → (max x us.toNat :: r).foldl max 0 ≤ s.get pgDWY DWY.T_RING.MAX_US →
      u = (({ s with dwy := { s.dwy with
        lastA := us.toNat, trips := max x us.toNat :: r, retA := true } } : State).put pgDWY DWY.T_RING.LAST_US
          (max us.toNat s.dwy.lastB)).put pgDWY DWY.T_RING.MAX_US ((max x us.toNat :: r).foldl max 0) →
      exec (.announceReturn true us) s = .next u) ∧
    (s.dwyRuns = true → ∀ (frame : List Byte) (f : DwyFrame), f = parseDwy frame →
      (f.ok allOnes = false → exec (.join frame) s = .next (s.dwyDiscard 2 f.station) ∧
        exec (.accept frame) s = .next (s.dwyDiscard 2 f.station)) ∧
      (f.ok allOnes = true → f.type = 2 → f.payload.length = 32 →
        (bitOf f.flags 11 = false →
          (s.joinOpen = true → exec (.join frame) s = .next (s.joinTake.joinFrame f) ∧
            (∀ u a d, u = s.joinTake → u.joinMatch (f.num 6 2) (f.num 8 4) = (some a, 0) → u.stnHeld a = false →
              u.stnBound a = false → u.stnMayStart a = true → d = u.pickSlot a (f.num 22 2) → u.joinReason a f d = 0 →
              ∀ ver lim receipt safe, u.joinMode a f = (ver, lim, receipt, safe) → exec (.join frame) s =
                .next (((u.joinReserve a f d).dwySend 3 (f.num 0 6) ver a (u.stnGen a) 0 0 allOnes (beBytes 0 1 ++ beBytes ver 1
                  ++ beBytes (b2n receipt) 1 ++ beBytes (b2n safe) 1 ++ beBytes lim 2 ++ [0, 0])).setStState a 2))) ∧
          (s.joinOpen = false → exec (.join frame) s = .next s)) ∧
        (bitOf f.flags 11 = true → f.station < 250 → s.duty = true → s.stState f.station = 2 →
          s.stnMac f.station = f.num 0 6 → s.stnGen f.station = f.gen → s.offerOver f.station = false →
          exec (.accept frame) s = .next (s.stnBind f.station))) ∧
      (f.type = 5 → f.station < 250 →
        (f.gen ≠ s.stnGen f.station → exec (.cycleIn frame) s = .next (s.dwyDiscard 0 f.station)) ∧
        (f.gen = s.stnGen f.station → s.stnBound f.station = true → f.sa = s.stnMac f.station →
          (f.ok (if s.stnSafe f.station then (s.stnRt f.station).seed else allOnes) = false → exec (.cycleIn frame) s =
            .next ((((s.setStnRt f.station { s.stnRt f.station with why := 3 }).setFault (pgSTN f.station) 19).incMod (pgSTN
              f.station) STN.CODE_ERRS).dwyDiscard 2 f.station)) ∧
          (f.ok (if s.stnSafe f.station then (s.stnRt f.station).seed else allOnes) = true → 8 ≤ f.payload.length →
            ∀ next, s.inWindow f.station f.cycle = some next →
            exec (.cycleIn frame) s = .next (s.cycleIn f.station next f) ∧
            ((s.stnRt f.station).acc = none → ∀ pg u, pg = pgSTN f.station →
              u = ((((s.put pg STN.LAST_IN f.cycle).put pg STN.LAST_ACK (f.num 0 4)).putB pg STN.STATUS.TIME_OK
                (bitOf (f.num 4 2) 0)).putB pg STN.STATUS.OUT_SAFE (bitOf (f.num 4 2) 1)).setStnRt f.station
                  { s.stnRt f.station with acc := some (f.cycle, true), confirmed := true } →
              exec (.cycleIn frame) s = .next ((u.put pg STN.MARGIN (min (s.taskS (s.stnTask f.station) next - s.e) (s.get pg
                STN.MARGIN))).stnInputs f.station f (bitOf (f.num 4 2) 0))))))) ∧
    (∀ a : Fin 250, s.stState a.val = 2 → s.offerOver a.val = true → exec (.offerLapse a) s =
      .next (((s.stnFree a.val).put (pgSTN a.val) STN.SLOT.D_SLOT 0).setStState a.val (s.stnIdle a.val))) ∧
    (∀ (k : Fin 32) (m t : Nat), s.atFreeze k.val = some (m, t) → Store.get 0 s.dwy.evalAt k.val ≠ t + 1 → s.dwyRuns = true →
      exec (.evaluateStations k) s = .next (forEach ((List.range 250).filter (fun a => s.stnBound a && s.stnTask a == k.val))
        (fun u a => u.stnEvaluate m a) { s with dwy := { s.dwy with evalAt := Store.set 0 s.dwy.evalAt k.val (t + 1) } }))

/-- Stations: re-admission, leaving by command or by frame, and rejoining (R311, R315, R317, R318, R325). For the
owner of a station page: RE-ADMIT is kept for the next evaluation; LEAVE ends a bound station with reason 17 and takes
back an offer. A REJOIN frame with a bad check is discarded as 2, of wrong type or length as 3; of a station that is
not this one's it is a JOIN, after the join count; of this one's lost station, with nothing against it, it is reserved
and bound. A LEAVE frame of a bound station with its generation, sender and check records the reason with 0x149 and
frees the station. -/
def Obligations.Stations : Prop :=
  ∀ s : State,
    (∀ (a : Fin 250) (m : Fin 4), s.mayAct (pgSTN a.val) m.val →
      exec (.stnReadmit a m) s = .next (s.setStnRt a.val { s.stnRt a.val with cmd := true }) ∧
      (∀ u, u = (if s.duty then s.sendLeave a.val 17 else s) → s.stnBound a.val = true →
        exec (.stnLeave a m) s = .next (u.stnEnd a.val (u.stnIdle a.val) false)) ∧
      (s.stState a.val = 2 → exec (.stnLeave a m) s = .next (((s.stnFree a.val).put (pgSTN a.val) STN.SLOT.D_SLOT 0).setStState
        a.val (s.stnIdle a.val)))) ∧
    (s.dwyRuns = true → ∀ (frame : List Byte) (f : DwyFrame), f = parseDwy frame →
      (f.ok allOnes = false → exec (.rejoin frame) s = .next (s.dwyDiscard 2 f.station)) ∧
      (f.ok allOnes = true → f.type ≠ 8 → exec (.rejoin frame) s = .next (s.dwyDiscard 3 f.station)) ∧
      (f.ok allOnes = true → f.type = 8 → f.payload.length = 32 → f.station < 250 → s.joinOpen = true →
        ((s.joinTake).stnEn f.station = false → exec (.rejoin frame) s = .next (s.joinTake.joinFrame f)) ∧
        (∀ u, u = s.joinTake → (s.stnRt f.station).mac = f.num 0 6 → s.stnEn f.station = true →
          (s.stnRt f.station).cfg = s.stnKey f.station → s.stState f.station = 5 → (f.gen + 1) % 256 = s.stnGen f.station →
          s.stnBound f.station = false → s.stnMayStart f.station = true → ∀ d, d = u.pickSlot f.station (f.num 22 2) →
          u.joinReason f.station f d = 0 →
          exec (.rejoin frame) s = .next ((u.joinReserve f.station f d).stnBind f.station))) ∧
      (f.type = 9 → f.station < 250 →
        (f.gen ≠ s.stnGen f.station → exec (.leave frame) s = .next (s.dwyDiscard 0 f.station)) ∧
        (f.gen = s.stnGen f.station → s.stnBound f.station = true → f.sa = s.stnMac f.station →
          (f.ok allOnes = false → exec (.leave frame) s = .next (s.dwyDiscard 2 f.station)) ∧
          (f.ok allOnes = true → exec (.leave frame) s = .next (((s.put (pgSTN f.station) STN.REASON.LEAVE (f.num 0 1)).raise
            (pgSTN f.station) 0x149 1 [f.num 0 1]).stnEnd f.station (s.stnIdle f.station) false)))))

/-- CAN transmission: submission, abort, acknowledgement and the end of an attempt (R342, R343, R344, R345). For the
owner: a submission of an entry neither pending nor done, without replacement, joins the pending entries with its
words and data in order and sets its TX_PEND bit; on a free bus the arbitration winner goes on the bus; an entry
pending or done is refused with 0. An abort finishes an entry with 5, or marks it ending where it is on the bus.
TX_DONE is cleared by mask. The end of an attempt is taken for the entry on the bus, else for the winner; a success is
offered to the port itself, finishes the entry with 1 and lowers TEC; a port whose RUN is 0 then leaves the bus. -/
def Obligations.CanTransmit : Prop :=
  ∀ (s : State) (can : Fin 4) (n : Nat), n = can.val →
    (∀ m : Fin 4, s.mayAct (pgCAN n) m.val →
      (∀ (k : Fin 64) (free : Bool) (w0 w1 : Nat) (t : CanTx), w0 = s.memRd (s.canTxBase n + k.val * 80) 4 →
        w1 = s.memRd (s.canTxBase n + k.val * 80 + 4) 4 →
        (bitOf (s.canPendMask n) k.val = true → exec (.txSubmit can m k free) s = .next (s.canRefuse n 0 k.val)) ∧
        (bitOf (s.canPendMask n) k.val = false → bitOf (s.canDoneMask n) k.val = false → bitOf w0 29 = false →
          bitOf w1 28 = false → t = { entry := k.val, w0 := w0, w1 := w1, order := (s.canRt n).nextOrder
                                      data := (Memory.bytes s.mem (s.canTxBase n + k.val * 80 + 16) (dlcBytes false
                                        (bits w1 27 24))).map (fun b => b.toNat) } →
          ∀ u, u = s.setCanRt n { s.canRt n with
            pend := (s.canRt n).pend ++ [t], nextOrder := (s.canRt n).nextOrder + 1
            onBus := if free && (s.canRt n).onBus.isNone && s.on (pgCAN n) CAN.STATUS.ON_BUS && !s.on (pgCAN n) CAN.CFG.LISTEN
                && s.get (pgCAN n) CAN.STATUS.ERR_STATE != 2
              then (arbWinner ((s.canRt n).pend ++ [t])).map (fun u => u.entry) else (s.canRt n).onBus } →
          exec (.txSubmit can m k free) s = .next (u.setCanMask n CAN.TX_PEND_LO CAN.TX_PEND_HI
            (putBits (u.canPendMask n) k.val k.val 1)))) ∧
      (∀ (k : Fin 64) (t : CanTx), (s.canRt n).pend.find? (fun t => t.entry == k.val) = some t →
        ((s.canRt n).onBus ≠ some t.entry → exec (.txAbort can m k) s = .next (s.canFinish n t 5)) ∧
        ((s.canRt n).onBus = some t.entry → exec (.txAbort can m k) s = .next (s.setCanRt n { s.canRt n with
          pend := (s.canRt n).pend.map (fun u => if u.entry = t.entry then { u with ending := 5 } else u) }))) ∧
      (∀ mask : BitVec 64, exec (.txDone can m mask) s = .next (s.setCanMask n CAN.TX_DONE_LO CAN.TX_DONE_HI
        ((BitVec.ofNat 64 (s.canDoneMask n)) &&& ~~~ mask).toNat))) ∧
    (s.on (pgCAN n) CAN.STATUS.ON_BUS = true → s.on (pgCAN n) CAN.CFG.LISTEN = false →
      s.get (pgCAN n) CAN.STATUS.ERR_STATE ≠ 2 → ∀ (t : CanTx) (took : BitVec 32),
        ((s.canRt n).onBus = none → arbWinner (s.canRt n).pend = some t →
          ∀ res : Fin 3, exec (.canTxComplete can ⟨res, took⟩) s = .next (canLeave n (canAttempt n t res.val took.toNat s))) ∧
        (∀ k, (s.canRt n).onBus = some k → (s.canRt n).pend.find? (fun t => t.entry == k) = some t →
          (∀ res : Fin 3, exec (.canTxComplete can ⟨res, took⟩) s = .next (canLeave n (canAttempt n t res.val took.toNat s))) ∧
          (∀ at_ u v, at_ = (s.stpNs + 2 ^ 32 - took.toNat) % 2 ^ 32 → u = canOffer n true t.w0 (bits t.w1 31 31 * 2 + b2n
            (s.get (pgCAN n) CAN.STATUS.ERR_STATE == 1)) (bits t.w1 27 24) at_ (t.data.map (BitVec.ofNat 8)) s →
            v = (u.send (4 + n) 1 ([t.w0, t.w1] ++ t.data)).canFinish n { t with tries := satAdd 65535 t.tries 1, stamp := some at_ }
              1 → exec (.canTxComplete can ⟨0, took⟩) s = .next (canLeave n (v.canCounters n (v.get (pgCAN n) CAN.ERR.TEC - 1)
                (v.get (pgCAN n) CAN.ERR.REC))))))

/-- CAN reception, acknowledgement, bus errors, recovery and automatic bit rate (R339, R346, R347, R348, R349). A
received classic frame lowers REC, is filtered by the first rule that matches and, below 128 waiting, stored with its
stamp, rule and free padding where accepted; a reserved bit recessive counts in PEX_CNT with PEX. RX_ACK moves TAIL by
at most the filled entries, more records 0x1A2. A bus error writes LEC and DLEC and takes the counters. RECOVER in
bus-off sets RECOVERING; its end clears counters and condition with 0x1A0 and rejoins. Automatic bit rate starts only
in LISTEN; a good frame twice ends it with the rate and 0x1A3, an error moves on; its timeout sets fault 19. -/
def Obligations.CanReceive : Prop :=
  ∀ (s : State) (can : Fin 4) (n : Nat), n = can.val →
    (∀ (took : BitVec 32) (rr brs esi : Bool) (w0 : BitVec 32) (dlc : Fin 16) (data : List Byte),
      (s.on (pgCAN n) CAN.STATUS.ABR_ACTIVE = true → bitOf w0.toNat 29 = false → (s.canRt n).abrGood = 0 →
        exec (.canReceive can took rr w0 brs esi dlc data) s = .next (s.setCanRt n { s.canRt n with abrGood := 1 })) ∧
      (s.on (pgCAN n) CAN.STATUS.ABR_ACTIVE = true → bitOf w0.toNat 29 = false → (s.canRt n).abrGood ≠ 0 →
        ∀ rate, rate = abrRates.getD (s.canRt n).abrCand 10 → exec (.canReceive can took rr w0 brs esi dlc data) s =
          .next (((((s.setReg (pgCAN n) 0x044 (Config.abrTiming rate)).put (pgCAN n) CAN.ABR.RATE rate).put (pgCAN n)
            CAN.STATUS.ABR_ACTIVE 0).setCanRt n { s.canRt n with abrGood := 0 }).raise (pgCAN n) 0x1A3 0 [rate])) ∧
      (s.on (pgCAN n) CAN.STATUS.ABR_ACTIVE = false → s.on (pgCAN n) CAN.STATUS.ON_BUS = true →
        s.get (pgCAN n) CAN.STATUS.ERR_STATE ≠ 2 →
        (bitOf w0.toNat 29 = true → rr = true → s.on (pgCAN n) CAN.CFG.PEX = true →
          exec (.canReceive can took rr w0 brs esi dlc data) s = .next (s.incMod (pgCAN n) CAN.PEX_CNT)) ∧
        (bitOf w0.toNat 29 = false → s.on (pgCAN n) CAN.CFG.LISTEN = false → ∀ (rec0 : Nat) (u : State),
          rec0 = s.get (pgCAN n) CAN.ERR.REC →
          u = s.canCounters n (s.get (pgCAN n) CAN.ERR.TEC) (if 127 < rec0 then 127 else rec0 - 1) →
          (∀ i, canRuleOf u n w0.toNat false = some i → u.on (pgCAN n) CAN.RULE_W0.REJECT i = false →
            exec (.canReceive can took rr w0 brs esi dlc data) s = .next (canStore n w0.toNat 0 dlc.val i ((s.stpNs + 2 ^ 32 -
              took.toNat) % 2 ^ 32) (data.take (if bitOf w0.toNat 30 then 0 else dlcBytes false dlc.val)) u) ∧
            ((u.canRt n).filled < 128 → ∀ head a d v, head = u.get (pgCAN n) CAN.RX_HEAD.HEAD → a = u.canRxBase n + head * 80 →
              d = data.take (if bitOf w0.toNat 30 then 0 else dlcBytes false dlc.val) →
              v = ((((u.memWr a 4 w0.toNat).memWr (a + 4) 4 (putBits (putBits (putBits (putBits (u.memRd (a + 4) 4) 31 30 0) 27 24
                dlc.val) 23 16 (u.get (pgCAN n) CAN.FILT_GEN.GEN)) 15 10 i)).memWr (a + 12) 4 ((s.stpNs + 2 ^ 32 - took.toNat) %
                  2 ^ 32)).memPut (a + 16) (d ++ u.freeBytes (64 - d.length))).useFree (64 - d.length) →
              exec (.canReceive can took rr w0 brs esi dlc data) s = .next (((v.put (pgCAN n) CAN.RX_HEAD.HEAD ((head + 1) %
                128)).setCanRt n { u.canRt n with filled := (u.canRt n).filled + 1 }).event (0x340 + n)))) ∧
          (∀ i, canRuleOf u n w0.toNat false = some i → u.on (pgCAN n) CAN.RULE_W0.REJECT i = true →
            exec (.canReceive can took rr w0 brs esi dlc data) s = .next u)))) ∧
    (∀ m : Fin 4, s.mayAct (pgCAN n) m.val →
      (∀ c : BitVec 8,
        (c.toNat ≤ (s.canRt n).filled → exec (.rxAck can m c) s = .next ((s.put (pgCAN n) CAN.RX_TAIL.TAIL ((s.get (pgCAN n)
          CAN.RX_TAIL.TAIL + c.toNat) % 128)).setCanRt n { s.canRt n with filled := (s.canRt n).filled - c.toNat })) ∧
        ((s.canRt n).filled < c.toNat → exec (.rxAck can m c) s = .next (s.raise (pgCAN n) 0x1A2 1 [c.toNat]))) ∧
      (s.get (pgCAN n) CAN.STATUS.ERR_STATE = 2 → exec (.recover can m) s = .next (s.put (pgCAN n) CAN.STATUS.RECOVERING 1)) ∧
      (s.get (pgCAN n) CAN.STATUS.ERR_STATE ≠ 2 → exec (.recover can m) s = .next s) ∧
      (s.on (pgCAN n) CAN.CFG.LISTEN = true → exec (.startAbr can m) s = .next ((s.put (pgCAN n) CAN.STATUS.ABR_ACTIVE
        1).setCanRt n { s.canRt n with abrCand := 0, abrGood := 0, abrAt := s.e }))) ∧
    (∀ (tec : BitVec 9) (rec : BitVec 8) (lec dlec : Fin 7),
      (s.on (pgCAN n) CAN.STATUS.ABR_ACTIVE = true → exec (.canBusError can tec rec lec dlec) s = .next (s.setCanRt n
        { s.canRt n with abrGood := 0, abrCand := ((s.canRt n).abrCand + 1) % 9 })) ∧
      (s.on (pgCAN n) CAN.STATUS.ABR_ACTIVE = false → s.on (pgCAN n) CAN.STATUS.ON_BUS = true →
        s.on (pgCAN n) CAN.CFG.LISTEN = false → s.get (pgCAN n) CAN.STATUS.ERR_STATE ≠ 2 →
        exec (.canBusError can tec rec lec dlec) s = .next (((s.put (pgCAN n) CAN.ERR.LEC lec.val).put (pgCAN n) CAN.ERR.DLEC
          dlec.val).canCounters n tec.toNat rec.toNat))) ∧
    (s.get (pgCAN n) CAN.STATUS.ERR_STATE = 2 → s.get (pgCAN n) CAN.STATUS.RECOVERING ≠ 0 → exec (.recoveryDone can) s =
      .next ((((((((s.put (pgCAN n) CAN.STATUS.ERR_STATE 0).put (pgCAN n) CAN.STATUS.RECOVERING 0).put (pgCAN n) CAN.ERR.TEC
        0).put (pgCAN n) CAN.ERR.REC 0).cond (pgCAN n) 16 false).raise (pgCAN n) 0x1A0 0 [0, 0]).event (0x348 + n)).canJoin
          n)) ∧
    (s.on (pgCAN n) CAN.STATUS.ABR_ACTIVE = true → (s.canRt n).abrAt + s.get (pgCAN n) CAN.ABR.TMO * 1000000000 ≤ s.e → exec (.abrFail can) s =
      .next (((s.put (pgCAN n) CAN.STATUS.ABR_ACTIVE 0).setFault (pgCAN n) 19).raise (pgCAN n) 0x1A3 1))

/-- DIO channels: levels, overload, thermal cut-off and restart, tests, read-back and the edge queue (R354, R359,
R360, R361, R362, R363). On an active group with field supply: an accepted new level of an input, filtered, writes
both level bits, from the second one on its edge, and the item; of an output its read-back. Overload that stood 5 ms
writes MA and at first sets IN_LIMIT, fault 18, 0x1C1; thermal cut-off sets fault 19 with 0x1C2; RESTART by the owner
restarts the masked channels, a cooled one as held. Due test pulses, open-load and read-back checks run on outputs
that enable them. A read of EDGE_W1 with an empty queue answers 0, else it takes the oldest edge. -/
def Obligations.DigitalChannels : Prop :=
  ∀ (s : State) (ch : Fin 64) (pg : Nat), pg = State.dioPg ch.val →
    (∀ (lv : Bool) (age : BitVec 32), s.active pg = true → s.fsMissing (ch.val / 8) = false →
      (s.dioIsIn ch.val = true → s.dioFiltered ch.val age.toNat = true → ∀ v u, v = (lv != s.dioInv ch.val) → u = ((s.putB pg (State.levelF 8 ch.val) lv).putB pg
        (State.levelF 0 ch.val) v).setDioRt ch.val { s.dioRt ch.val with accepted := true } →
        ((s.dioRt ch.val).accepted = false → exec (.dioLevelAccepted ch lv age) s = .next (u.dioWriteIn ch.val)) ∧
        ((s.dioRt ch.val).accepted = true → s.dioLevel ch.val = !v → exec (.dioLevelAccepted ch lv age) s =
          .next ((u.dioEdge ch.val v (u.eStp - age.toNat)).dioWriteIn ch.val))) ∧
      (s.dioIsIn ch.val = false → s.dioIsOut ch.val = true → ∀ u, u = (s.putB pg (State.levelF 8 ch.val) lv).putB pg
        (State.levelF 0 ch.val) lv → exec (.dioLevelAccepted ch lv age) s = .next ((if lv = u.dioCmd ch.val then
          u.put pg (DIOG.CH_STAT.READBACK_ERR (ch.val % 8)) 0 else u).dioWriteIn ch.val))) ∧
    (∀ ma : BitVec 16, s.dioCmd ch.val = true →
      (700 ≤ ma.toNat → s.dioStood ch.val 5 = true → ∀ u, u = s.put pg (DIOG.CH_STAT.MA (ch.val % 8)) ma.toNat →
        (u.on pg (DIOG.CH_STAT.IN_LIMIT (ch.val % 8)) = true → exec (.overload ch ma) s = .next u) ∧
        (u.on pg (DIOG.CH_STAT.IN_LIMIT (ch.val % 8)) = false → exec (.overload ch ma) s =
          .next (((u.put pg (DIOG.CH_STAT.IN_LIMIT (ch.val % 8)) 1).setFault pg 18).raise pg 0x1C1 0 [ch.val, ma.toNat]))) ∧
      (s.on pg (DIOG.CH_CFG.OL_EN (ch.val % 8)) = true → s.dioStood ch.val 100 = true → exec (.openLoad ch ma) s =
        .next (((if ma.toNat < 700 then s.put pg (DIOG.CH_STAT.IN_LIMIT (ch.val % 8)) 0 else s).put pg (DIOG.CH_STAT.MA (ch.val %
          8)) ma.toNat).dioLoadCheck ch.val 1 (decide (ma.toNat < 2))))) ∧
    (s.pageOn pg = true → s.dioIsOut ch.val = true → s.on pg (DIOG.CH_STAT.THERMAL_OFF (ch.val % 8)) = false →
      exec (.dioThermal ch) s = .next ((((((s.put pg (DIOG.CH_STAT.THERMAL_OFF (ch.val % 8)) 1).put pg (DIOG.CH_STAT.COOL
        (ch.val % 8)) 0).dioRefresh ch.val).setFault pg 19).cond pg 19 true).raise pg 0x1C2 0 [ch.val])) ∧
    (s.mayDrive pg = true → s.active pg = true → s.dioIsOut ch.val = true →
      (∀ low : Bool, s.dioPulseDue ch.val = true → exec (.testPulse ch low) s = .next ((s.setDioRt ch.val { s.dioRt ch.val with
        pulseAt := some s.clk.ref }).dioLoadCheck ch.val 0 low)) ∧
      (s.on pg (DIOG.CH_CFG.RB_EN (ch.val % 8)) = true → (s.dioLevel ch.val != s.dioCmd ch.val) = true → s.dioStood ch.val 12 = true →
        s.on pg (DIOG.CH_STAT.READBACK_ERR (ch.val % 8)) = false → exec (.readback ch) s =
        .next (((s.put pg (DIOG.CH_STAT.READBACK_ERR (ch.val % 8)) 1).setFault pg 21).raise pg 0x1C4 0
          [ch.val, b2n (s.dioCmd ch.val)]))) ∧
    (∀ g : Fin 8,
      (∀ (m : Fin 4) (mask : BitVec 8), s.mayAct (pgDIOG g.val) m.val → exec (.dioRestart m g mask) s =
        .next (forEach ((State.dioChans g.val).filter (fun c => bitOf mask.toNat (c % 8))) (fun u c => u.dioRestart c) s)) ∧
      (∀ (m : Fin 4) (k : Fin 8) (n : Nat), n = 8 * g.val + k.val → s.mayAct (pgDIOG g.val) m.val →
        s.on (State.dioPg n) (DIOG.CH_STAT.COOL (n % 8)) = true → s.on (State.dioPg n) (DIOG.CH_STAT.THERMAL_OFF (n % 8)) = true →
        exec (.dioRestart m g (1#8 <<< k.val)) s = .next (((s.put (State.dioPg n) (DIOG.CH_STAT.THERMAL_OFF (n % 8)) 0).raise
          (State.dioPg n) 0x1C2 1 [n]).setDioRt n { s.dioRt n with held := true })) ∧
      (s.served = true → s.pageOn (pgDIOG g.val) = true → ∀ c, c = s.get (pgDIOG g.val) DIOG.EDGE_SEL.CH →
        ((s.dioRt (8 * g.val + c)).edges = [] → exec (.edgeW1Read g) s = .next (s.answer 0)) ∧
        (∀ en rest, (s.dioRt (8 * g.val + c)).edges = en :: rest → exec (.edgeW1Read g) s =
          .next (((s.setDioRt (8 * g.val + c) { s.dioRt (8 * g.val + c) with edges := rest }).put (pgDIOG g.val)
            (DIOG.CH_STAT.EDGES c) rest.length).answer (2147483648 + b2n en.level * 1073741824 + b2n en.lost * 536870912
              + b2n en.untrusted * 268435456 + en.hi)))))

/-- The field supply of a DIO group: missing, low and restored (R366). With the page on the measured voltage is
written. Below 9 V and not yet missing: FS_MISSING, fault 16 with its condition, 0x1C0 with 0, the owner degraded, no
level accepted any more, every channel refreshed and written. Below 19.2 V and not yet low: FS_LOW, fault 17 with its
condition and 0x1C0 with 1. Restored from 10 V (outputs held until a new value and written) and from 19.7 V, each
state ends with 0x1C0 and 2. -/
def Obligations.FieldSupply : Prop :=
  ∀ (s u : State) (g : Fin 8) (mv : BitVec 16) (pg : Nat), pg = pgDIOG g.val → s.pageOn pg = true →
    u = s.put pg DIOG.FS_MV.MV mv.toNat →
    (u.fsMissing g.val = true ∨ 9000 ≤ mv.toNat → exec (.fsMissing g mv) s = .next u) ∧
    (u.fsMissing g.val = false → mv.toNat < 9000 → exec (.fsMissing g mv) s = .next (((forEach (State.dioChans g.val)
      (fun v c => v.setDioRt c { v.dioRt c with accepted := false }) (((((u.put pg DIOG.STATUS.FS_MISSING 1).setFault pg
        16).cond pg 16 true).raise pg 0x1C0 0 [g.val, mv.toNat]).ownDegrade pg true)).dioRefreshGroup g.val).dioWriteGroup
          g.val)) ∧
    (u.fsLow g.val = true ∨ 19200 ≤ mv.toNat → exec (.fsLow g mv) s = .next u) ∧
    (u.fsLow g.val = false → mv.toNat < 19200 → exec (.fsLow g mv) s = .next (((((u.put pg DIOG.STATUS.FS_LOW 1).setFault pg 17).cond pg 17
      true).raise pg 0x1C0 1 [g.val, mv.toNat]).dioWriteGroup g.val)) ∧
    (u.fsMissing g.val = false → u.fsLow g.val = false → exec (.fsRestored g mv) s = .next u) ∧
    (u.fsMissing g.val = true → 10000 ≤ mv.toNat → ∀ t w, t = ((((u.put pg DIOG.STATUS.FS_MISSING 0).cond pg 16 false).raise
      pg 0x1C0 2 [g.val, mv.toNat]).ownDegrade pg false).dioHoldGroup g.val →
      w = forEach ((State.dioChans g.val).filter (fun c => t.dioIsOut c)) (fun v c => v.dioWriteIn c) t →
      (mv.toNat < 19700 → exec (.fsRestored g mv) s = .next w)) ∧
    (u.fsMissing g.val = false → u.fsLow g.val = true → 19700 ≤ mv.toNat → ∀ w, w = ((u.put pg DIOG.STATUS.FS_LOW 0).cond pg 17
      false).raise pg 0x1C0 2 [g.val, mv.toNat] → exec (.fsRestored g mv) s = .next (forEach ((State.dioChans g.val).filter
        (fun c => (w.dioRt c).accepted || w.dioIsOut c)) (fun v c => v.dioWriteIn c) w))

/-- Analogue channels: conversion, read-back, loops, thermal, miswiring and islands (R368, R369, R370, R371, R372,
R373, R412). A due conversion of an active channel in use writes MA, SUPPLY_MV and a free TEMP; an input takes its
range and writes its value with quality BAD, UNCERTAIN or good, an output its clock, compliance, deviation and
read-back. A deviation, as reported (log 274), that stood 100 ms sets fault 22 with 0x1E8. A lost loop sets NO_LOOP,
fault 20 and 0x1E5 until back. Thermal cut-off of channels 0 to 3 sets THERMAL, fault 18, 0x1E2; RESTART by the owner
ends it cool, else records 2. Miswiring sets MISWIRE, fault 19, 0x1E3 until a clear retest 1 s on. An island failure
clears READY with fault 23, 0x1E7. -/
def Obligations.AnalogueChannels : Prop :=
  ∀ (s : State) (n : Fin 16) (pg : Nat), pg = pgANA n.val →
    (s.active pg = true → s.anaType n.val ≠ 0 → s.anaDue n.val = true → ∀ (i : BitVec 32) (mv : BitVec 16) (p : Nat) (u : State),
      p = s.anaConvMs n.val * 1000000 → u = ((((s.setAnaRt n.val { s.anaRt n.val with convAt := some (s.e - s.e % p) }).setReg pg
        ANA.MA.off i).put pg ANA.SUPPLY_MV.MV (s.anaSupply n.val mv.toNat)).put pg ANA.TEMP.T s.freeWord.toNat).useFree →
      (u.anaIn n.val = true → ∀ v, v = u.anaRange n.val i →
      (v.anaBroken n.val = true ∨ (v.anaRt n.val).range ≠ 0 → exec (.analogueConversion n i mv) s = .next (v.anaWriteIn n.val (v.aiValue n.val i) qBAD)) ∧
      (v.anaBroken n.val = false → (v.anaRt n.val).range = 0 → F32.lt i (v.anaW n.val ANA.LIM_LO) = true →
        exec (.analogueConversion n i mv) s = .next (v.anaWriteIn n.val (v.aiValue n.val i) qUNCERTAIN)) ∧
      (v.anaBroken n.val = false → (v.anaRt n.val).range = 0 → F32.lt i (v.anaW n.val ANA.LIM_LO) = false →
        F32.lt (v.anaW n.val ANA.LIM_HI) i = false →
        exec (.analogueConversion n i mv) s = .next (v.anaWriteIn n.val (v.aiValue n.val i) 0))) ∧
      (u.anaIn n.val = false → ∀ (v w : State) (dev rb : Bool), v = (u.anaClock n.val).anaCompliance n.val i →
        dev = v.anaDeviates n.val i → rb = ((v.anaRt n.val).rbErr && dev) → w = v.setAnaRt n.val { v.anaRt n.val with
          rbErr := rb, devAt := if dev then some ((v.anaRt n.val).devAt.getD v.clk.ref) else none } →
        exec (.analogueConversion n i mv) s = .next (w.anaWriteIn n.val (w.aoReadback n.val i) (if w.anaBroken n.val ||
          w.on pg ANA.STATUS.COMPLIANCE || w.on pg ANA.STATUS.NO_LOOP || rb then qBAD else 0)))) ∧
    (s.active pg = true → s.anaOut n.val = true → s.on pg ANA.STATUS.COMPLIANCE = false → (s.anaRt n.val).boost = false →
      (s.anaRt n.val).rbErr = false → ∀ (t : Nat) (dev : BitVec 32), (s.anaRt n.val).devAt = some t → t + 10000000 ≤ s.clk.ref →
      dev.toNat = unsigned 32 (Int.ofNat (microAmp (s.anaW n.val ANA.MA)) - Int.ofNat (((s.anaDriven n.val).map microAmp).getD 0)) →
      exec (.analogueReadback n dev) s = .next ((((s.setAnaRt n.val { s.anaRt n.val with rbErr := true }).setFault pg 22).raise
        pg 0x1E8 0 [n.val, dev.toNat]).anaBad n.val)) ∧
    (s.pageOn pg = true →
      (s.anaType n.val = 4 → s.on pg ANA.STATUS.NO_LOOP = false → exec (.noLoop n true) s = .next (((((s.put pg
        ANA.STATUS.NO_LOOP 1).setFault pg 20).cond pg 20 true).raise pg 0x1E5 0 [n.val]).anaBad n.val)) ∧
      (s.anaType n.val = 4 → s.on pg ANA.STATUS.NO_LOOP = true → exec (.noLoop n false) s = .next (((s.put pg
        ANA.STATUS.NO_LOOP 0).cond pg 20 false).raise pg 0x1E5 1 [n.val])) ∧
      (n.val < 4 → s.on pg ANA.STATUS.THERMAL = false → exec (.islandThermal n) s =
        .next (((((s.setAnaRt n.val { s.anaRt n.val with cool := false }).put pg ANA.STATUS.THERMAL 1).setFault pg 18).cond pg
          18 true).raise pg 0x1E2 0 [n.val] |>.anaBad n.val)) ∧
      (∀ mv : BitVec 32, s.on pg ANA.STATUS.MISWIRE = false → exec (.miswire n mv) s = .next ((((((s.setAnaRt n.val
        { s.anaRt n.val with testAt := s.clk.ref }).put pg ANA.STATUS.MISWIRE 1).setFault pg 19).cond pg 19 true).raise pg 0x1E3 0 [n.val, mv.toNat]).anaBad n.val)) ∧
      (∀ kind : Fin 3, (s.anaRt n.val).island ≠ kind.val + 1 → exec (.island n kind) s = .next ((((((s.setAnaRt n.val { s.anaRt n.val with
        island := kind.val + 1 }).put pg ANA.STATUS.READY 0).setFault pg 23).cond pg 23 true).raise pg 0x1E7 0
          [n.val, kind.val + 1]).anaBad n.val))) ∧
    (∀ m : Fin 4, s.mayAct pg m.val → s.on pg ANA.STATUS.THERMAL = true →
      ((s.anaRt n.val).cool = true → exec (.anaRestart m n) s =
        .next ((s.put pg ANA.STATUS.THERMAL 0).raise pg 0x1E2 1 [n.val])) ∧
      ((s.anaRt n.val).cool = false → exec (.anaRestart m n) s = .next (s.raise pg 0x1E2 2 [n.val]))) ∧
    (∀ mv : BitVec 32, s.on pg ANA.STATUS.MISWIRE = true → (s.anaRt n.val).testAt + 100000000 ≤ s.clk.ref →
      exec (.miswireRetest n true mv) s = .next (((s.put pg ANA.STATUS.MISWIRE 0).cond pg 19 false).raise pg 0x1E3 1
        [n.val, mv.toNat]) ∧
      exec (.miswireRetest n false mv) s = .next (s.setAnaRt n.val { s.anaRt n.val with testAt := s.clk.ref })) ∧
    ((s.anaRt n.val).island ≠ 0 → exec (.islandLinkRestored n) s =
      .next ((s.setAnaRt n.val { s.anaRt n.val with island := 0 }).cond pg 23 false))

/-- HART: sending, abort, take, the end of a transaction and bursts (R374). With HART enabled, for the owner: a send
is refused with RESULT 6 while a transaction runs; else RESULT 1, TRIES 1 and the frame with its preambles, master bit
and check byte go out. ABORT ends a transaction with 5; TAKE sets TAKEN. A transaction's end repeats the frame for
each further try, writes TRIES and ends with 2, 3 or 4, storing the response of a good one, else with fault 21 and
0x1E6. A burst frame is stored where the last was taken, with RESULT 7 and its event, else counted as lost. -/
def Obligations.Hart : Prop :=
  ∀ (s : State) (n : Fin 16) (pg : Nat), pg = pgANA n.val →
    (∀ m : Fin 4, s.mayAct pg m.val →
      (s.on pg ANA.CFG.HART_EN = true →
        ((s.anaRt n.val).hart = true → exec (.hartSend m n) s = .next (s.put pg ANA.HART_STATUS.RESULT 6)) ∧
        ((s.anaRt n.val).hart = false → s.on pg HDR.CTRL.RUN = true → s.on pg ANA.STATUS.MISWIRE = false →
          s.on pg ANA.STATUS.NO_LOOP = false → s.anaType n.val ≠ 4 ∨ s.get pg ANA.STATUS.CLK_STEP ≠ 0 → ∀ d a rest bytes, (wordsBytes ((List.range 64).map
            (fun i => s.reg pg (ANA.HART_TX i).off))).take (s.get pg ANA.HART_LEN.TX_LEN) = d :: a :: rest →
          bytes = (List.replicate (s.get pg ANA.HART_CFG.PREAMBLES) 0xFF#8 ++ (d :: (a ||| 0x80#8) :: rest) ++
            [hartCheck (d :: (a ||| 0x80#8) :: rest)]).map BitVec.toNat →
          exec (.hartSend m n) s = .next ((((s.setAnaRt n.val { s.anaRt n.val with hart := true, frame := bytes }).put pg
            ANA.HART_STATUS.RESULT 1).put pg ANA.HART_STATUS.TRIES 1).send (11 + n.val) 0 bytes))) ∧
      ((s.anaRt n.val).hart = true → exec (.hartAbort m n) s = .next (s.hartEnd n.val 5)) ∧
      ((s.anaRt n.val).hart = false → exec (.hartAbort m n) s = .next s) ∧
      exec (.hartTake m n) s = .next (s.put pg ANA.HART_STATUS.TAKEN 1)) ∧
    ((s.anaRt n.val).hart = true → ∀ (tries : BitVec 8) (resp : List Byte) (most : Nat) (w : Nat → State),
      most = s.get pg ANA.HART_CFG.RETRIES + 1 → w = (fun k => forEach (List.range (k - 1)) (fun u _ => u.send (11 + n.val) 0
        (s.anaRt n.val).frame) (s.put pg ANA.HART_STATUS.TRIES k)) →
      exec (.hartTransactionEnd n 0 tries resp) s = .next (((w (max 1 (min most tries.toNat))).hartStore n.val resp).hartEnd
        n.val 2) ∧
      ∀ pos, pos = (if bitOf (bits (s.get pg (ANA.HART_TX 0)) 7 0) 7 then 6 else 2) + bits (bits (s.get pg (ANA.HART_TX 0))
        7 0) 6 5 → exec (.hartTransactionEnd n 1 tries resp) s =
        .next ((((w most).hartEnd n.val 3).setFault pg 21).raise pg 0x1E6 3 [n.val, bits (s.get pg (ANA.HART_TX (pos / 4)))
          (8 * (pos % 4) + 7) (8 * (pos % 4))])) ∧
    (s.active pg = true → s.on pg ANA.CFG.HART_EN = true → (s.anaRt n.val).hart = false → ∀ f : List Byte,
      (s.on pg ANA.HART_STATUS.TAKEN = true → exec (.hartBurst n f) s =
        .next (((s.hartStore n.val f).put pg ANA.HART_STATUS.RESULT 7).event (0x360 + n.val))) ∧
      (s.on pg ANA.HART_STATUS.TAKEN = false → exec (.hartBurst n f) s = .next (s.incMod pg ANA.BURST_LOST)))

/-- The Dervor link: each accepted frame is taken by its type, and the sends and losses of a pair (R382, R384, R385,
R386, R388, R390, R391, R392). A frame that the lane receives as its type (1 copy, 2 commit, 3 loop, 4 heartbeat, 5
pairing, 6 handover, 7 request, 8 response) is taken by that type's rule on the state after the receipt; for each type
the clause gives what an accepted payload leaves. A lane that changes writes its bit, raises 0x203, and the link's
bits follow. PAIRING goes out in states 2 and 3 every 10 ms; a duty module of a pair sends its loop snapshot once per
1 ms base; a heartbeat overdue clears HB_OK with 0x204; a due heartbeat carries roles, states and times. -/
def Obligations.PairLink : Prop :=
  ∀ (s u : State) (l : Fin 2) (f p : List Byte),
    (s.dvlReceive l.val 1 f = (u, some p) → exec (.copyFrame l f) s = .next (State.copyTake p u) ∧
      ∀ (k cycle : Nat) (dirty : List Nat), k = payNat p 0 1 → cycle = payNat p 4 4 →
        dirty = (List.range 16).filter (fun j => bitOf (payNat p 12 2) j) → u.role = 2 → k < 32 → payNat p 1 1 < 6 →
        p.length = 14 + 64 * dirty.length → exec (.copyFrame l f) s = .next (u.setPair { u.pair with
          lines := u.pair.lines ++ (List.zip (List.range dirty.length) dirty).map (fun e =>
            (k, cycle, payNat p 1 1, payNat p 8 4 + e.2, (p.drop (14 + 64 * e.1)).take 64))
          frames := u.pair.frames.filter (fun e => e.1 != k || e.2.1 != cycle) ++ [(k, cycle, ((u.pair.frames.find? (fun e =>
            e.1 == k && e.2.1 == cycle)).map (fun e => e.2.2)).getD 0 + 1)] })) ∧
    (s.dvlReceive l.val 2 f = (u, some p) → exec (.commit l f) s = .next (State.commitTake p u) ∧
      ∀ (k flags cycle digest : Nat) (mine : List (Nat × Nat × Nat × Nat × List Byte)) (v w : State), k = payNat p 0 1 →
        flags = payNat p 1 1 → cycle = payNat p 4 4 → digest = payNat p 36 8 → u.role = 2 → k < 32 → p.length = 44 →
        mine = u.pair.lines.filter (fun e => e.1 == k && e.2.1 == cycle) →
        ((u.pair.frames.find? (fun e => e.1 == k && e.2.1 == cycle)).map (fun e => e.2.2)).getD 0 = payNat p 8 4 →
        v = mine.foldl (fun (x : State) e => x.lineLoad k e.2.2.1 e.2.2.2.1 e.2.2.2.2) (u.setPair { u.pair with
          commits := (u.pair.commits + 1) % 4294967296
          lines := u.pair.lines.filter (fun e => e.1 != k), frames := u.pair.frames.filter (fun e => e.1 != k) }) →
        w = v.setPair { v.pair with
          copied := Store.set {} v.pair.copied k
            { cycle := cycle, tau := payNat p 12 8, held := paySigned p 20 8, pubT := payNat p 28 8, digest := digest,
              eligible := bitOf flags 0 }
          full := if bitOf flags 1 then insNum k v.pair.full else v.pair.full } →
        exec (.commit l f) s = .next (w.shadowSee k cycle digest (bitOf flags 0 && bitOf flags 2) (if u.pair.copied.any
          (fun e => e.1 == k) then some (Store.get {} u.pair.copied k).cycle else none) ((mine.filter (fun e => e.2.2.1 ==
            5)).map (fun e => (e.2.2.2.1, e.2.2.2.2)))).readyNow) ∧
    (s.dvlReceive l.val 3 f = (u, some p) → exec (.loop l f) s = .next (State.loopTake p u) ∧
      ∀ (n part t : Nat) (parts : List (Nat × List Byte)), n = payNat p 0 4 → part = payNat p 4 1 → t = payNat p 8 8 →
        u.role = 2 → part < 67 → p.length = 16 + (if part < 66 then 1024 else 512) →
        parts = (if u.pair.snapIn = n ∧ u.pair.snapT = t then u.pair.parts else []).filter (fun e => e.1 != part) ++
          [(part, p.drop 16)] →
        (parts.length = 67 → exec (.loop l f) s = .next ((u.setPair { u.pair with snapIn := n, snapT := t }).snapLoad t
          parts).readyNow) ∧
        (parts.length ≠ 67 → exec (.loop l f) s = .next (u.setPair { u.pair with snapIn := n, snapT := t, parts := parts }))) ∧
    (s.dvlReceive l.val 4 f = (u, some p) → ∀ mask : BitVec 32,
      exec (.heartbeat l f mask) s = .next (State.beatTake mask.toNat p u) ∧
      ∀ (role flags : Nat) (v1 v2 v3 v4 v5 v6 v7 : State), role = payNat p 0 1 → flags = payNat p 3 1 → p.length = 48 →
        v1 = u.setPair { u.pair with
          pRole := role, pState := payNat p 1 1, pMode := payNat p 2 1, pFlags := flags, pShTask := payNat p 4 1
          pTx := payNat p 8 8, pRx := u.e, pLastPub := payNat p 32 8, pShCycle := payNat p 40 4, pCommits := payNat p 44 4
          lostAt := 0, rxAt := u.clk.ref } →
        v2 = (if v1.on pgDVL DVL.STATUS.HB_OK then v1 else (v1.put pgDVL DVL.STATUS.HB_OK 1).raise pgDVL 0x204 1) →
        v3 = v2.offsets (payNat p 16 8) (payNat p 24 8) (payNat p 8 8) u.e →
        v4 = (if v3.role = 0 ∧ v3.paired = true ∧ role = 1 ∧ v3.pair.claim = 0 then v3.joinAsStandby else v3) →
        v5 = (if v4.role = 1 ∧ role = 1 ∧ v4.pairSlot = true then v4.bothDuty else v4) →
        v6 = (if v5.role = 2 ∧ role ≠ 1 ∧ v5.on pgPAIR PAIR.STATUS.DUTY_IN = true then v5.lineFault 0 else v5) →
        v7 = (if role = 1 then v6.followMode (payNat p 2 1) mask.toNat else v6) →
        exec (.heartbeat l f mask) s = .next (v7.partnerReady (bitOf flags 0 && role == 2)).readyNow) ∧
    (s.dvlReceive l.val 5 f = (u, some p) → ∀ c : Fin 8, exec (.pairing l f c) s = .next (State.pairTake c.val p u) ∧
      ∀ (hi pos fw : Nat) (fd cd : Bool) (v1 v2 v3 v4 : State), p.length = 80 → pos = payNat p 2 1 → fw = payNat p 4 4 →
        hi = min (payNat p 1 1) (u.get pgDVL DVL.PROTO.VER_MAX) → max (payNat p 0 1) (u.get pgDVL DVL.PROTO.VER_MIN) ≤ hi →
        payNat p 48 32 = u.ownHash → pos ≠ u.get pgSUP SUP.SLOT_ID.POSITION → pos ≠ 2 → u.get pgSUP SUP.SLOT_ID.POSITION ≠ 2 →
        c.val = u.get pgSUP SUP.SLOT_ID.CARRIER → fd = (fw != u.ownFw) → cd = (payNat p 16 32 != Config.capDigest.toNat) →
        v1 = (((((u.setPair { u.pair with pResult := some (payNat p 3 1) }).put pgPAIR PAIR.PAIR_INFO.PARTNER_POS pos).put pgPAIR
          PAIR.PARTNER_FW fw).put pgPAIR PAIR.PARTNER_SERIAL_LO (payNat p 12 4)).put pgPAIR PAIR.PARTNER_SERIAL_HI (payNat p 8
            4)).put pgPAIR PAIR.PAIR_INFO.PROTO hi →
        v2 = (if fd && !v1.on pgPAIR PAIR.STATUS.FW_DIFF then v1.raise pgPAIR 0x210 0 [fw] else v1) →
        v3 = (if cd && !v2.on pgPAIR PAIR.STATUS.CAP_DIFF then v2.raise pgPAIR 0x210 1 [fw] else v2) →
        v4 = ((v3.putB pgPAIR PAIR.STATUS.FW_DIFF fd).putB pgPAIR PAIR.STATUS.CAP_DIFF cd).put pgPAIR PAIR.PAIR_INFO.REFUSAL 0 →
        (u.pairState = 2 ∨ u.pairState = 3) → payNat p 3 1 = 0 → exec (.pairing l f c) s = .next v4.pairNow) ∧
    (s.dvlReceive l.val 6 f = (u, some p) → u.role = 2 → p.length = 16 → exec (.handover l f) s =
      .next (u.setPair { u.pair with hoCause := if payNat p 1 1 = 0 then payNat p 0 1 else 0 })) ∧
    (s.dvlReceive l.val 7 f = (u, some p) → p.length = 16 → ∀ r, r = u.requestDo (payNat p 2 1) (payNat p 4 8) (payNat p 12 4) →
      exec (.request l f) s = .next (r.1.dvlSend 8 (p.take 3 ++ beBytes r.2.1 1 ++ (p.drop 4).take 8 ++ beBytes r.2.2 4))) ∧
    (s.dvlReceive l.val 8 f = (u, some p) → p.length = 16 → exec (.response l f) s =
      .next (u.setPair { u.pair with lastResponse := some (payNat p 0 2, payNat p 3 1, payNat p 12 4) })) ∧
    (∀ (up : Bool) (bit : Fld) (v w : State) (used : List Nat) (isUp : Nat → Bool) (any one : Bool), s.dvlRuns = true →
      (up = true → (Store.get none s.pair.laneAt l.val).any (fun t => decide (s.clk.ref ≤ t + 30000)) = true) →
      bit = (if l.val = 0 then DVL.STATUS.LANE0_UP else DVL.STATUS.LANE1_UP) → s.on pgDVL bit = !up →
      v = (s.putB pgDVL bit up).raise pgDVL 0x203 (b2n up) [l.val] →
      used = (List.range 2).filter (fun j => bitOf (s.get pgDVL DVL.CFG.LANE_EN) j) →
      isUp = (fun j => v.on pgDVL (if j = 0 then DVL.STATUS.LANE0_UP else DVL.STATUS.LANE1_UP)) → any = used.any isUp →
      one = (any && used.any (fun j => !isUp j)) →
      w = ((v.putB pgDVL DVL.STATUS.LINK_OK any).cond pgDVL 17 one).cond pgDVL 16 (!any) →
      exec (.laneChange l up) s = .next ((if up then w else if any then w.setFault pgDVL 17 else
        (w.setFault pgDVL 16).setPair { w.pair with seen := [] }).readyNow)) ∧
    (s.pairState = 2 ∨ s.pairState = 3 → s.pair.pairingAt.all (fun t => decide (t + 1000000 ≤ s.clk.ref)) = true →
      exec .pairingSend s = .next (s.pairSend.setPair { s.pairSend.pair with pairingAt := some s.clk.ref })) ∧
    (s.role = 1 → s.paired = true → s.dvlRuns = true → ∀ t, t = s.e / 1000000 * 1000000 → s.e < t + 60000 →
      s.pair.snapSent ≠ some t → exec .loopSnapshot s = .next (s.snapSend.setPair { s.snapSend.pair with snapSent := some t })) ∧
    (s.on pgDVL DVL.STATUS.HB_OK = true → s.pair.rxAt + s.get pgDVL DVL.CFG.HB_MISS * 10000 + 5000 ≤ s.clk.ref → s.on pgPAIR PAIR.STATUS.DUTY_IN = false → ∀ v,
      v = (s.put pgDVL DVL.STATUS.HB_OK 0).raise pgDVL 0x204 0 → ∀ w, w = v.setPair { v.pair with
        lostAt := s.clk.ref + 1, unready := s.pair.unready } →
      exec .heartbeatLoss s = .next (if w.role = 2 then w.readyNow.dutyStopped else if w.paired then w.partnerLost else w)) ∧
    (2 ≤ s.pairState → s.dvlRuns = true → s.shadowRuns = false → s.pair.shTask = 255 →
      s.pair.hbAt.all (fun t => decide (t + 9900 ≤ s.clk.ref)) = true → ∀ last flags v,
      last = s.redTasks.foldl (fun acc k => max acc ((s.task k).pubAt - 1)) 0 →
      flags = s.get pgPAIR PAIR.STATUS.READY + 2 * s.get pgPAIR PAIR.STATUS.YIELD_OUT + 4 * s.get pgPAIR PAIR.STATUS.DUTY_IN
        + 8 * s.get pgPAIR PAIR.STATUS.TAKE_IN →
      v = s.dvlSend 4 (beBytes s.role 1 ++ beBytes s.pairState 1 ++ beBytes (s.st pgSEQ) 1 ++ beBytes flags 1
        ++ beBytes s.pair.shTask 1 ++ [0, 0, 0] ++ beBytes s.e 8 ++ beBytes s.pair.pTx 8 ++ beBytes s.pair.pRx 8
        ++ beBytes last 8 ++ beBytes s.pair.shCycle 4 ++ beBytes s.pair.commits 4) →
      exec .heartbeatSend s = .next (v.setPair { v.pair with myTx := s.e, hbAt := some s.clk.ref }))

/-- Claims, duty lines, handover, switch, resync and rotation of a pair (R379, R380, R387, R391, R392, R398, R400). A
waiting module without role claims after CLAIM_WAIT when DUTY_IN is free; a claim found contested raises 0x20A and
slot B gives way, else it is won. DUTY_IN is written when it changes, TAKE_IN claims for a standby. SWITCH by the
owner asks for a handover with cause 3, RESYNC on a standby asks for full copies, else RESULT 5. At the instant of a
handover the snapshot and HANDOVER go out and duty is given up with 0x206; without a window in 2 s it ends with reason
3. A standby's synchronisation timeout sets fault 17 with 0x211. A due rotation asks with cause 4. -/
def Obligations.PairDuty : Prop :=
  ∀ s : State,
    (s.pair.waiting = true → s.role = 0 → s.on pgPAIR PAIR.STATUS.DUTY_IN = false → s.inSequence = false →
      s.pair.waitAt + s.get pgPAIR PAIR.CFG.CLAIM_WAIT * 10000000 ≤ s.clk.ref → exec .claimWait s = .next ((s.put pgPAIR
        PAIR.STATUS.DUTY_OUT 1).setPair { s.pair with claim := 1, cause := 0, waiting := false, claimAt := s.clk.ref })) ∧
    (s.pair.claim ≠ 0 → s.on pgPAIR PAIR.STATUS.DUTY_OUT = true → s.inSequence = false → s.pair.claimAt + 2000 ≤ s.clk.ref →
      (s.on pgPAIR PAIR.STATUS.DUTY_IN = false → exec .claimCheck s = .next s.claimWon) ∧
      (s.on pgPAIR PAIR.STATUS.DUTY_IN = true → s.on pgPAIR PAIR.STATUS.TAKE_IN = false →
        (s.slotB = false → exec .claimCheck s = .next (s.raise pgPAIR 0x20A 0 [0]).claimWon) ∧
        (s.slotB = true → ∀ u, u = ((s.raise pgPAIR 0x20A 0 [1]).put pgPAIR PAIR.STATUS.DUTY_OUT 0).setRole 0 4 →
          exec .claimCheck s = .next (u.setPair { u.pair with claim := 0, cause := 0, unready := false })))) ∧
    (s.pd1 = true →
      (s.on pgPAIR PAIR.STATUS.DUTY_IN = false → ∀ u, u = (s.put pgPAIR PAIR.STATUS.YIELD_OUT 0).putB pgPAIR PAIR.STATUS.DUTY_IN true →
        exec (.partnerDutyReleased true) s = .next (u.setPair { u.pair with freeAt := 0 })) ∧
      (s.on pgPAIR PAIR.STATUS.DUTY_IN = true → ∀ u, u = s.putB pgPAIR PAIR.STATUS.DUTY_IN false →
        exec (.partnerDutyReleased false) s = .next (u.setPair { u.pair with
          freeAt := s.clk.ref + 1
          unready := if s.on pgDVL DVL.STATUS.HB_OK then !s.on pgPAIR PAIR.STATUS.READY else s.pair.unready }).dutyStopped) ∧
      exec (.takeIn false) s = .next (s.putB pgPAIR PAIR.STATUS.TAKE_IN false) ∧
      (∀ u, u = (if s.on pgPAIR PAIR.STATUS.TAKE_IN then s else s.setPair { s.pair with takeAt := s.clk.ref }).putB pgPAIR
        PAIR.STATUS.TAKE_IN true → u.role = 2 → u.pair.claim = 0 → u.inSequence = false →
        exec (.takeIn true) s =
          .next (u.claimNow 2 (if u.pair.hoCause = 3 ∨ u.pair.hoCause = 4 then u.pair.hoCause else 2)))) ∧
    (∀ m : Fin 4, s.mayAct pgPAIR m.val →
      (s.role = 1 → s.paired = true → s.on pgPAIR PAIR.STATUS.READY = true → s.on pgPAIR PAIR.STATUS.HANDOVER = false → ∀ u,
        u = (s.raise pgPAIR 0x206 0 [3, 0]).put pgPAIR PAIR.STATUS.HANDOVER 1 → exec (.switch m) s = .next (((u.setPair
          { (s.raise pgPAIR 0x206 0 [3, 0]).pair with hoCause := 3, hoAt := (s.raise pgPAIR 0x206 0 [3, 0]).e }).put pgPAIR
            PAIR.CMD_STATUS.BUSY 1).put pgPAIR PAIR.CMD_STATUS.RESULT 0)) ∧
      ((s.handoverAsk 3).2 = 0 → exec (.switch m) s = .next (((s.handoverAsk 3).1.put pgPAIR PAIR.CMD_STATUS.BUSY 1).put pgPAIR
        PAIR.CMD_STATUS.RESULT 0)) ∧
      ((s.handoverAsk 3).2 ≠ 0 → exec (.switch m) s = .next ((s.handoverAsk 3).1.put pgPAIR PAIR.CMD_STATUS.RESULT
        (s.handoverAsk 3).2)) ∧
      (s.role = 2 → exec (.resync m) s = .next ((s.put pgPAIR PAIR.CMD_STATUS.RESULT 0).askFull s.redMask).readyNow) ∧
      (s.role ≠ 2 → exec (.resync m) s = .next (s.put pgPAIR PAIR.CMD_STATUS.RESULT 5))) ∧
    (s.role = 1 → s.on pgPAIR PAIR.STATUS.HANDOVER = true →
      (s.paired = true → s.on pgPAIR PAIR.STATUS.READY = true → s.inSequence = false →
        s.e = s.e / 1000000 * 1000000 → s.pair.hoAt + 2000000 ≤ s.e → s.handOk (s.e / 1000000 * 1000000) = true → ∀ c u, c = s.pair.hoCause →
        u = ((s.snapSend.sendHandover c 0 (s.e / 1000000 * 1000000)).giveDuty c 3 true).raise pgPAIR 0x206 1 [c, 0] →
        exec .handInstant s = .next (if c = 3 then (u.put pgPAIR PAIR.CMD_STATUS.BUSY 0).put pgPAIR PAIR.CMD_STATUS.RESULT 0
          else u)) ∧
      (s.pair.hoAt + 2000000000 ≤ s.e → ∀ c u, c = s.pair.hoCause → u = ((s.put pgPAIR PAIR.STATUS.HANDOVER 0).raise pgPAIR
        0x206 2 [c, 3]).setPair { s.pair with hoCause := 0 } → exec .handoverNoWindow s = .next (if c = 3 then
          (u.put pgPAIR PAIR.CMD_STATUS.BUSY 0).put pgPAIR PAIR.CMD_STATUS.RESULT 3 else u.rotPostponed 3))) ∧
    (s.on pgPAIR PAIR.STATUS.DUTY_IN = true ∨ s.pair.yieldAt + 1000000 ≤ s.clk.ref → exec .yieldOutRelease s = .next (s.put pgPAIR PAIR.STATUS.YIELD_OUT 0)) ∧
    (s.role = 2 → s.pairState = 4 → s.pair.pairedAt + 1000000000 ≤ s.clk.ref → exec .pairSyncTmo s =
      .next ((((s.setPair { s.pair with pairedAt := s.clk.ref }).setFault pgPAIR 17).raise pgPAIR 0x211 0 [s.noFull]).askFull s.redMask)) ∧
    (s.role = 1 → s.pairSlot = true → s.get pgPAIR PAIR.CFG.ROT_H ≠ 0 →
      s.pair.dutyAt + s.get pgPAIR PAIR.CFG.ROT_H * 360000000000 ≤ s.clk.ref →
      s.pair.rotAt.all (fun t => decide (t + 6000000000 ≤ s.clk.ref)) = true → ∀ r,
      r = (s.setPair { s.pair with rotAt := some s.clk.ref }).handoverAsk 4 →
      (r.2 = 0 → exec .rotation s = .next r.1) ∧ (r.2 ≠ 0 → exec .rotation s = .next (r.1.rotPostponed r.2)))

/-- Shadow checks, the standby's self-test, lost readiness and line timeouts of a pair (R387, R396, R397, R399, R400).
A digest from a healthy pair that equals the duty's counts in SHADOW_OK, and after a mismatch names the first pair;
one that differs counts in SHADOW_BAD, raises 0x207 and 0x372, and a second pair decides. On a standby a due self-test
writes FAILED, each failure sets fault 22 with 0x20D, a failed core point fails its pair. Readiness is recomputed; an
offset lasting 100 ms sets fault 19 with 0x20E. With the link up, a duty or take line that does not follow in time
sets the line fault with 0x209. -/
def Obligations.PairTests : Prop :=
  ∀ s : State,
    (∀ (p : Fin 4) (d : BitVec 64) (want : Nat), s.pair.shDigest = some want → s.shadowRuns = true →
      s.pair.shPair ≠ some p.val → s.pairHealthy p.val = true →
      (d.toNat = want → s.pair.shPair = none →
        exec (.shadowCheck p d) s = .next ((s.incMod pgPAIR PAIR.SHADOW_OK).shadowShow 1 p.val).shadowNext) ∧
      (∀ q, d.toNat = want → s.pair.shPair = some q → exec (.shadowCheck p d) s = .next (((((s.incMod pgPAIR
        PAIR.SHADOW_OK).shadowShow 3 q).setFault pgPAIR 20).raise pgPAIR 0x207 1 [s.pair.shTask, s.pair.shCycle, q]).shadowNext)) ∧
      (∀ q, d.toNat ≠ want → s.pair.shPair = some q →
        exec (.shadowCheck p d) s = .next ((s.incMod pgPAIR PAIR.SHADOW_BAD).shadowState p.val)) ∧
      (d.toNat ≠ want → s.pair.shPair = none → ∀ u, u = ((((s.incMod pgPAIR PAIR.SHADOW_BAD).shadowShow 2 p.val).event
        0x372).raise pgPAIR 0x207 0 [s.pair.shTask, s.pair.shCycle, p.val]).setPair { s.pair with shPair := some p.val } →
        exec (.shadowCheck p d) s = .next (if (List.range 4).any (fun q => q != p.val && u.pairHealthy q) then u
          else u.shadowState p.val))) ∧
    (s.role = 2 →
      (s.pair.testAt.all (fun t => decide (t + s.get pgPAIR PAIR.SELFTEST_CFG.PERIOD_S * 100000000 ≤ s.clk.ref)) = true →
       ∀ (dio : List (Fin 64)) (aout ain : List (Fin 16)) (cores : List (Fin 4 × Fin 4)) (lanes : List Nat)
        (fails : List (Nat × Nat)) (mask : Nat),
        lanes = (List.range 2).filter (fun l => bitOf (s.get pgDVL DVL.CFG.LANE_EN) l
          && !s.on pgDVL (if l = 0 then DVL.STATUS.LANE0_UP else DVL.STATUS.LANE1_UP)) →
        fails = dio.map (fun c => (0, c.val)) ++ aout.map (fun c => (1, c.val)) ++ ain.map (fun c => (2, c.val))
          ++ cores.map (fun c => (3, c.1.val)) ++ lanes.map (fun l => (4, l)) →
        mask = (List.range 5).foldl (fun acc b => acc + b2n (fails.any (fun e => e.1 == b)) * 2 ^ b) 0 →
        exec (.selftest dio aout ain cores) s = .next (cores.foldl (fun (u : State) c => u.lockstepFail c.1.val
          (0x11 + c.2.val)) (fails.foldl (fun (u : State) e => (u.setFault pgPAIR 22).raise pgPAIR 0x20D 0 [e.1, e.2])
            ((s.setPair { s.pair with testAt := some s.clk.ref }).put pgPAIR PAIR.SELFTEST.FAILED mask)))) ∧
      (∀ u, u = s.readyNow →
        (u.pair.ofsBad = false → exec .readyLost s = .next u) ∧
        (u.pair.ofsBad = true → u.pair.ofsAt + 10000000 ≤ u.clk.ref + 1 → ∀ ofs, ofs = signed 64 (u.get pgDVL DVL.PEER_OFS_LO +
          u.get pgDVL DVL.PEER_OFS_HI * 4294967296) → exec .readyLost s = .next (((u.cond pgPAIR 19 true).setFault pgPAIR
            19).raise pgPAIR 0x20E 0 [unsigned 32 (max (-2147483648) (min 2147483647 ofs))]))) ∧
      (s.on pgDVL DVL.STATUS.LINK_OK = true → s.on pgDVL DVL.STATUS.HB_OK = true →
        (s.on pgPAIR PAIR.STATUS.TAKE_IN = true → bitOf s.pair.pFlags 1 = false →
          s.pair.takeAt + 100000 ≤ s.clk.ref → s.on pgPAIR PAIR.FAULT.LINE = false →
          exec (.partnerLineTimeout true) s = .next ((s.setFault pgPAIR 24).raise pgPAIR 0x209 0 [1])) ∧
        (s.pair.pRole = 1 → s.on pgPAIR PAIR.STATUS.DUTY_IN = false → s.pair.freeAt + 500000 ≤ s.clk.ref + 1 →
          s.on pgPAIR PAIR.FAULT.LINE = false →
          exec (.partnerLineTimeout false) s = .next ((s.setFault pgPAIR 24).raise pgPAIR 0x209 0 [0])))) ∧
    (s.role = 1 → s.on pgDVL DVL.STATUS.LINK_OK = true → s.on pgDVL DVL.STATUS.HB_OK = true →
      s.on pgPAIR PAIR.STATUS.DUTY_OUT = true → bitOf s.pair.pFlags 2 = false →
      exec (.partnerLineTimeout false) s = .next (s.setFault pgPAIR 24))

/-- FLT: risen faults are taken in order, sources cleared, pages and tasks re-admitted, LEG cleared (R65, R408, R412,
R413, R414, R415, R416, R418). Every fault bit that has risen is taken in descending class and ascending source; a
parity error first sets the page's bit 5 with 0x024. SRC_CLEAR by the owner or the supervisor clears every bit of the
source: one bit without condition or waiting edge leaves FAULT and the held ones. READMIT by the owner of a page or a
task that nothing keeps back brings it back and answers 0, a core pair first runs its self-test with BUSY; else it
ends with the first reason. FE_CLEAR by LEG's owner clears the captured access and its count. -/
def Obligations.FaultRegister : Prop :=
  ∀ s : State,
    exec (.faultSourceRise none) s = .next (forEach s.edgesInOrder (fun u k => u.fltTake k) s) ∧
    (∀ (p : BitVec 9) (off : BitVec 12), populated p.toNat = true → s.pd1 = true → ∀ u, u = (s.setFault p.toNat 5).raise
      p.toNat 0x024 0 [off.toNat] → exec (.faultSourceRise (some (p, off))) s =
        .next (forEach u.edgesInOrder (fun v k => v.fltTake k) u)) ∧
    (∀ (m : Fin 4) (n : Nat), s.servedTo m.val = true → s.owner pgFLT = m.val ∨ m.val = 0 → n = s.get pgFLT FLT.SRC_INDEX.SOURCE →
      exec (.srcClear m) s = .next (forEach ((s.flt.held ++ s.flt.edges).filter (fun k => State.keySrc k == n))
        (fun u k => u.clearBit k) s) ∧
      ∀ (k : Nat) (u : State), (s.flt.held ++ s.flt.edges).filter (fun k => State.keySrc k == n) = [k] → State.keyTask k = none →
        (s.faultBitSet k = true ∨ s.flt.held.contains k = true) → s.flt.conds.contains k = false → s.flt.edges.contains k = false →
        u = s.setReg (k / 64) 0x010 (s.reg (k / 64) 0x010 &&& ~~~ BitVec.ofNat 32 (2 ^ (k % 64))) → exec (.srcClear m) s =
          .next ((if k = faultKey pgPLACE 16 then u.budgetCleared else u).fltDrop k)) ∧
    (∀ m : Fin 4, s.servedTo m.val = true → s.on pgFLT FLT.CMD_STATUS.BUSY = false → s.owner pgFLT = m.val →
      (∀ id : BitVec 9, s.readmitPageReason id.toNat = 0 →
        (∀ k i, pageKind id.toNat = some (k, i) → k ≠ .cp →
          exec (.readmitPage m id) s = .next ((s.readmitUnit id.toNat).readmitEnd 0 id.toNat 0)) ∧
        (∀ i, pageKind id.toNat = some (.cp, i) → exec (.readmitPage m id) s =
          .next ((s.put pgFLT FLT.CMD_STATUS.BUSY 1).put pgFLT FLT.READMIT.ID id.toNat))) ∧
      (∀ id : BitVec 9, s.readmitPageReason id.toNat ≠ 0 →
        exec (.readmitPage m id) s = .next (s.readmitEnd 0 id.toNat (s.readmitPageReason id.toNat))) ∧
      (∀ id : BitVec 9, s.readmitTaskReason id.toNat = 0 →
        exec (.readmitTask m 0 id) s = .next ((s.readmitTask id.toNat).readmitEnd 1 id.toNat 0)) ∧
      (∀ id : BitVec 9, s.readmitTaskReason id.toNat ≠ 0 →
        exec (.readmitTask m 0 id) s = .next (s.readmitEnd 1 id.toNat (s.readmitTaskReason id.toNat)))) ∧
    (∀ m : Fin 4, s.mayAct pgLEG m.val → exec (.feClear m) s =
      .next (((s.put pgLEG LEG.FE_INFO.VALID 0).put pgLEG LEG.FE_INFO.MORE 0).put pgLEG LEG.FE_COUNT 0))

/-- TLY: preset, add, flush, thresholds, the unlock, the hourly count and the value read (R434, R435, R436, R437,
R453). For the owner: PRESET of counters 13 to 92 with the unlock, or from 128 on, sets the value with 0x242, stores
it, RESULT 0; other counters give 3, without the unlock 1. ADD adds from counter 128 on. FLUSH stores every counter,
as does each 60 s. A THRESH_HI write joins the held low word, and a counter below its threshold loses its warning. The
two keys in 1 ms unlock. Each second adds to counter 0 with supply, to each domain that is on, and to the
temperature's bin. A read of VALUE_LO latches the high word. -/
def Obligations.TallyCounters : Prop :=
  ∀ s : State,
    (∀ m : Fin 4, s.mayAct pgTLY m.val →
      (∀ i, i = s.get pgTLY TLY.INDEX.COUNTER →
        (128 ≤ i ∨ (13 ≤ i ∧ i ≤ 92 ∧ s.tly.unlock = 2) → exec (.preset m) s = .next ((((s.tlyLock.tallySet i
          s.tlyLock.tlyPresetVal).raise pgTLY 0x242 0 [i, s.tlyLock.tally i, s.tlyLock.tlyPresetVal]).tlyStore i).put pgTLY
            TLY.CMD_STATUS.RESULT 0)) ∧
        (13 ≤ i → i ≤ 92 → s.tly.unlock ≠ 2 → exec (.preset m) s = .next (s.tlyLock.tlyRefuse 1)) ∧
        (i < 13 ∨ (92 < i ∧ i < 128) → exec (.preset m) s = .next (s.tlyLock.tlyRefuse 3)) ∧
        (128 ≤ i → exec (.add m) s = .next ((s.tlyLock.tallyAdd i (s.tlyLock.get pgTLY TLY.PRESET_LO)).put pgTLY
          TLY.CMD_STATUS.RESULT 0)) ∧
        (i < 128 → exec (.add m) s = .next (s.tlyLock.tlyRefuse 3))) ∧
      exec (.flush m) s = .next (s.tlyLock.tlyFlush.put pgTLY TLY.CMD_STATUS.RESULT 0) ∧
      (∀ (v : BitVec 32) (u w : State) (i thr : Nat), u = s.tlyTouch → i = u.get pgTLY TLY.INDEX.COUNTER → i < 120 ∨ 127 < i →
        thr = v.toNat * 4294967296 + u.tly.thrHeld.getD (Store.get 0 u.tly.thr i % 4294967296) →
        w = ({ u with tly := { u.tly with thr := Store.set 0 u.tly.thr i thr, thrHeld := none } } : State) →
        (w.tally i < thr → exec (.threshHi m v) s = .next (((w.put pgTLY (TLY.WARN (i / 32)) (putBits (w.get pgTLY (TLY.WARN
          (i / 32))) (i % 32) (i % 32) 0)).tallyCheck i).tallyAdd 114 1)) ∧
        (thr ≤ w.tally i → exec (.threshHi m v) s = .next ((w.tallyCheck i).tallyAdd 114 1))) ∧
      (s.tly.unlock ≠ 2 →
        exec (.tlyUnlock m 0x5EC7#32) s = .next { s with tly := { s.tly with unlock := 1, unlockAt := s.clk.ref } } ∧
        (s.tly.unlock = 1 → s.clk.ref ≤ s.tly.unlockAt + 100000 →
          exec (.tlyUnlock m 0xA17B#32) s = .next { s with tly := { s.tly with unlock := 2 } }) ∧
        (s.tly.unlock = 0 → exec (.tlyUnlock m 0xA17B#32) s = .next { s with tly := { s.tly with unlock := 0 } }))) ∧
    (s.pd1 = true →
      (∀ n, n = s.clk.ref / 6000000000 → s.tly.flushes < n →
        exec .tallyFlush s = .next ({ s with tly := { s.tly with flushes := n } } : State).tlyFlush) ∧
      (∀ (c : BitVec 16) (u : State), s.tly.secs < s.clk.ref / 100000000 →
        u = ({ s with tly := { s.tly with secs := s.tly.secs + 1 } } : State).put pgSUP SUP.TEMP.CASE c.toNat → exec (.tallyTimeCount c) s =
        .next ((forEach ((List.range 11).map (· + 1)) (fun v d => if v.dom d == 2 then v.tallyAdd d 1 else v)
          (if u.boot.supplyValid then u.tallyAdd 0 1 else u)).tallyAdd (tempBin c.toInt) 1))) ∧
    (s.served = true → ∀ v, v = s.tally (s.get pgTLY TLY.INDEX.COUNTER) →
      exec .valueLoRead s = .next ((s.put pgTLY TLY.VALUE_HI (v / 4294967296)).answer (v % 4294967296)))

/-- REC: receipt, ring writes, summaries, LOG_CMD, wraps and epoch, windows and seeks (R440, R441, R442, R445, R454).
The next raised record is received, queued with its suppressed count where tokens allow; a ready recorder writes its
first queued record, and after a full queue 0x246 with the count. A code's summary with its tokens back joins the
queue. LOG_CMD by the owner of codes from 0x400 on queues the record with RESULT 0, or 1 without room or tokens; lower
codes give 2. WRAP_ACK moves up to PEND wraps into EPOCH; EPOCH is written with PEND 0 and 0x247. WIN_W0 locks a valid
window for its cursor, WIN_W7 unlocks and advances it; seeks move the cursor with RESULT 0, or 1. -/
def Obligations.RecorderCommands : Prop :=
  ∀ s : State,
    (∀ ev rest, State.nextRaised s.recd.raised = some (ev, rest) →
      exec .recordReceive s = .next (({ s with recd := { s.recd with raised := rest } } : State).receive ev) ∧
      (∀ u v, u = ({ s with recd := { s.recd with raised := rest } } : State) → u.queueFull = false → u.hasTokens ev.code = true →
        v = (u.takeTokens ev.code).put pgREC REC.CODE_STAT.SUPP 0 ev.code → exec .recordReceive s = .next { v with
          recd := { v.recd with queue := v.recd.queue ++ [{
            ev := ev, sev := u.get pgREC REC.CODE_CFG.SEV ev.code, supp := decide (0 < u.get pgREC REC.CODE_STAT.SUPP ev.code)
            count := u.get pgREC REC.CODE_STAT.SUPP ev.code }] } })) ∧
    (∀ (ok : Bool) (r : QRec) (rest : List QRec) (u : State), s.recd.ready = true → s.recd.queue = r :: rest →
      u = ({ s with recd := { s.recd with queue := rest } } : State).ringWrite r ok →
      (s.recd.fullCount = 0 → exec (.recordWrite ok) s = .next u) ∧
      (0 < s.recd.fullCount → exec (.recordWrite ok) s = .next (({ u with recd := { u.recd with fullCount := 0 } } : State).raise
        pgREC 0x246 0 [s.recd.fullCount]))) ∧
    (∀ (c : BitVec 12) (ev : RecEv) (u : State), s.get pgREC REC.CODE_STAT.SUPP c.toNat ≠ 0 →
      s.get pgREC REC.CODE_CFG.RATE c.toNat ≠ 0 → s.get pgREC REC.CODE_CFG.BURST c.toNat * token ≤ s.codeBucket c.toNat →
      s.queueFull = false → u = s.put pgREC REC.CODE_STAT.SUPP 0 c.toNat →
      ev = { code := c.toNat, page := Store.get 0 s.recd.suppPage c.toNat, sub := 0, p0 := 0xFFFFFFFF, p1 := 0xFFFFFFFF
             p2 := 0xFFFFFFFF, ns := s.stpNs, wrap := (s.get pgREC REC.EPOCH + s.get pgREC REC.PEND) % 4294967296
             late := !(s.on pgTIME TIME.STATUS.STP_TRUST) || s.on pgREC REC.STATUS.EPOCH_STALE, at_ := s.clk.ref } →
      exec (.summaryRecord c) s = .next { u with recd := { u.recd with queue := u.recd.queue ++ [{
        ev := ev, sev := s.get pgREC REC.CODE_CFG.SEV c.toNat, supp := true, count := s.get pgREC REC.CODE_STAT.SUPP c.toNat }] } }) ∧
    (∀ m : Fin 4, s.mayAct pgREC m.val →
      (∀ (c : BitVec 12) (sub : BitVec 3) (ev : RecEv),
        (c.toNat < 0x400 → exec (.logCmd m c sub) s = .next (s.put pgREC REC.LOG_STATUS.RESULT 2)) ∧
        (0x400 ≤ c.toNat → ev = {
            code := c.toNat, page := pgREC, sub := sub.toNat, p0 := s.get pgREC (REC.LOG_P 0)
            p1 := s.get pgREC (REC.LOG_P 1), p2 := s.get pgREC (REC.LOG_P 2), ns := s.stpNs
            wrap := (s.get pgREC REC.EPOCH + s.get pgREC REC.PEND) % 4294967296
            late := !(s.on pgTIME TIME.STATUS.STP_TRUST) || s.on pgREC REC.STATUS.EPOCH_STALE, at_ := s.clk.ref } →
          exec (.logCmd m c sub) s = .next ((s.receive ev).put pgREC REC.LOG_STATUS.RESULT
            (if !s.queueFull && s.hasTokens c.toNat then 0 else 1)) ∧
          (s.queueFull = false → s.hasTokens c.toNat = true → ∀ v w : State,
            v = (s.takeTokens c.toNat).put pgREC REC.CODE_STAT.SUPP 0 c.toNat → w = { v with
              recd := { v.recd with queue := v.recd.queue ++ [{
                ev := ev, sev := s.get pgREC REC.CODE_CFG.SEV c.toNat, supp := decide (0 < s.get pgREC REC.CODE_STAT.SUPP c.toNat)
                count := s.get pgREC REC.CODE_STAT.SUPP c.toNat }] } } →
            exec (.logCmd m c sub) s = .next (w.put pgREC REC.LOG_STATUS.RESULT 0)))) ∧
      (∀ n : BitVec 2, (n.toNat ≤ s.get pgREC REC.PEND → exec (.wrapAck m n) s = .next ((s.put pgREC REC.EPOCH (s.get pgREC
          REC.EPOCH + n.toNat)).put pgREC REC.PEND (s.get pgREC REC.PEND - n.toNat))) ∧
        (s.get pgREC REC.PEND < n.toNat → exec (.wrapAck m n) s = .next s)) ∧
      (∀ v : BitVec 32, exec (.epoch m v) s = .next (((((s.put pgREC REC.EPOCH v.toNat).put pgREC REC.PEND 0).put pgREC
        REC.STATUS.EPOCH_STALE 0).cond pgREC 18 false).raise pgREC 0x247 0
          [s.get pgREC REC.EPOCH, v.toNat, s.get pgREC REC.PEND]))) ∧
    (∀ c m : Fin 4, s.served = true →
      (m = c → s.on (pgRCUR c.val) RCUR.WIN_STATUS.VALID = true → exec (.winW0Read c m) s = .next ((s.answer (s.get
        (pgRCUR c.val) (RCUR.WIN_W 0))).put (pgRCUR c.val) RCUR.WIN_STATUS.LOCKED 1)) ∧
      (m ≠ c → exec (.winW0Read c m) s = .next (s.answer (s.get (pgRCUR c.val) (RCUR.WIN_W 0))) ∧
        exec (.winW7Read c m) s = .next (s.answer (s.get (pgRCUR c.val) (RCUR.WIN_W 7)))) ∧
      (m = c → exec (.winW7Read c m) s = .next (((s.answer (s.get (pgRCUR c.val) (RCUR.WIN_W 7))).put (pgRCUR c.val)
        RCUR.WIN_STATUS.LOCKED 0).curAdvance c.val))) ∧
    (∀ c m : Fin 4, s.mayAct (pgRCUR c.val) m.val →
      exec (.seekOldest c m) s = .next ((s.curMove c.val s.oldestSeq).put (pgRCUR c.val) RCUR.SEEK_STATUS.RESULT 0) ∧
      exec (.seekEnd c m) s = .next ((s.curMove c.val s.recd.nextSeq).put (pgRCUR c.val) RCUR.SEEK_STATUS.RESULT 0) ∧
      (∀ q, q = s.get (pgRCUR c.val) RCUR.SEEK_SEQ →
        (s.seqHeld q = true → exec (.seekSeq c m) s =
          .next ((s.curMove c.val q).put (pgRCUR c.val) RCUR.SEEK_STATUS.RESULT 0)) ∧
        (s.seqHeld q = false → exec (.seekSeq c m) s = .next (s.put (pgRCUR c.val) RCUR.SEEK_STATUS.RESULT 1))))

/-- PNL and IND: requests, updates, driven rows, the rest image, temperature range and emitter faults (R456, R457,
R459, R460, R461, R464, R465, R471). For the owner, REQ queues each enabled region of its mask, replacing a waiting
one with REPLACED; REST_CMD queues the rest image with its text or blank. With no job and PD1 on, an update whose gap
has passed begins. A common driven for 400 us writes its row, inverts its polarity, counts in DRIVES, records a bad
marker with fault 19 and 0x265 and a driver error with fault 16 and 0x263, and goes on. A temperature out of range the
first time sets fault 18 with 0x264. A fault of a driven emitter makes it dark with LAST_FAULT, its fault bit and
0x270. -/
def Obligations.PanelCommands : Prop :=
  ∀ s : State,
    (∀ m : Fin 4, s.mayAct pgPNL m.val →
      (∀ mask : BitVec 8, exec (.req m mask) s = .next (forEach ((List.range 8).filter (fun k => bitOf mask.toNat k))
        (fun u k => u.pnlRequest k) s).pnlStatus) ∧
      (∀ (k : Fin 8) (j : PanelJob) (rows : List (Nat × Nat)) (u : State), s.on pgPNL (PNL.REGION.EN k.val) = true →
        rows = (List.range (s.get pgPNL (PNL.REGION.LAST k.val) + 1 - s.get pgPNL (PNL.REGION.FIRST k.val))).map (fun i =>
          (s.get pgPNL (PNL.REGION.FIRST k.val) + i, s.get pgPNL (PNL.FB (3 * (s.get pgPNL (PNL.REGION.FIRST k.val) + i)))
            + s.get pgPNL (PNL.FB (3 * (s.get pgPNL (PNL.REGION.FIRST k.val) + i) + 1)) * 4294967296
            + s.get pgPNL (PNL.FB (3 * (s.get pgPNL (PNL.REGION.FIRST k.val) + i) + 2)) * 18446744073709551616)) →
        j = { kind := 1, region := k.val, rows := rows, total := rows.length } →
        u = { s with pnl := { s.pnl with updates := s.pnl.updates.filter (fun u => u.region != k.val) ++ [j] } } →
        exec (.req m (1#8 <<< k.val)) s = .next (if s.pnl.updates.any (fun u => u.region == k.val) then u.incMod pgPNL
          PNL.REPLACED else u).pnlStatus) ∧
      (∀ (req : Nat → PanelJob) (back : List PanelJob) (run : Bool) (w : Nat → State), s.pnl.tempOut = false →
        req = (fun c => { kind := 2, rows := s.restRows c s.modeWord [0, 1, 2, 3], cause := c, all := true, quiet := false
                          total := (s.restRows c s.modeWord [0, 1, 2, 3]).length }) →
        run = s.pnl.job.any (fun j => j.kind == 1) →
        back = (match s.pnl.job with
          | some j => if j.kind == 1 && decide (1 < j.rows.length) && !(s.pnl.updates.any (fun u => u.region == j.region))
            then [{ j with rows := j.rows.drop 1 }] else []
          | none => []) →
        w = (fun c => { s with pnl := { s.pnl with
          stopAfter := s.pnl.stopAfter || run, updates := back ++ s.pnl.updates, rests := s.pnl.rests ++ [req c] } }) →
        exec (.restCmdText m) s = .next (w 8).pnlRestNext ∧ exec (.restCmdBlank m) s = .next (w 0).pnlRestNext) ∧
      exec (.restCmdText m) s = .next (s.restTrigger 8 s.modeWord true false) ∧
      exec (.restCmdBlank m) s = .next (s.restTrigger 0 s.modeWord true false)) ∧
    (∀ j rest, s.pnl.job = none → s.pnl.updates = j :: rest → s.pd1 = true → s.pnl.tempOut = false → s.gapPassed j = true →
      exec .regionUpdateStart s = .next (({ s with pnl := { s.pnl with updates := rest } } : State).pnlBegin j)) ∧
    (∀ (j : PanelJob) (c pol x row : Nat) (u : State), s.pnl.job = some j → s.pnl.marker = some (c, pol, x) →
      s.pnl.driveAt + 40000 ≤ s.clk.ref → s.pnl.stopAfter = false → 1 < j.rows.length → row = (j.rows.headD (0, 0)).2 →
      u = ({ s with pnl := { s.pnl with
        image := Store.set 0 s.pnl.image c row, polarity := Store.set 0 s.pnl.polarity c (1 - pol), marker := none
        driven := Store.set 0 s.pnl.driven c (s.clk.ref + 1), job := some { j with rows := j.rows.drop 1 }
        stopAfter := false } } : State).incMod pgPNL PNL.DRIVES →
      exec (.commonDriveDone true 0) s = .next u.pnlNext ∧
      exec (.commonDriveDone false 0) s = .next ((u.setFault pgPNL 19).raise pgPNL 0x265).pnlNext ∧
      exec (.commonDriveDone true 1) s = .next ((u.setFault pgPNL 16).raise pgPNL 0x263 0 [c, 1]).pnlNext) ∧
    (s.pd1 = true →
      (∀ (t : BitVec 16) (u : State), u = s.put pgPNL PNL.TEMP.T t.toNat →
        (u.pnl.tempOut = false → t.toInt < -240 ∨ 680 < t.toInt → exec (.tempRange t) s = .next (((({ u with pnl :=
          { u.pnl with tempOut := true } } : State).setFault pgPNL 18).cond pgPNL 18 true).raise pgPNL 0x264 0
            [t.toNat]).pnlStatus) ∧
        (u.pnl.tempOut = false → -240 ≤ t.toInt → t.toInt ≤ 680 → exec (.tempRange t) s = .next u)) ∧
      (∀ (i : Fin 12) (col : Fin 3) (sh : Bool) (b : Nat), b = (if sh then 17 else 16) → (if sh then 1 else 50) ≤ s.emitterDriven i.val col.val →
        exec (.emitterFault i col sh) s = .next ((((({ s with pnl := { s.pnl with
          dark := insNum (i.val * 3 + col.val + (if sh then 36 else 0)) s.pnl.dark } } : State).put pgIND
            IND.LAST_FAULT.INDICATOR i.val).put pgIND IND.LAST_FAULT.COLOUR col.val).setFault pgIND b).cond pgIND b true |>.raise
              pgIND 0x270 (b2n sh) [i.val, col.val])))

/-- CAL: the date read, apply, alarm, wake, oscillator stop, low cell and the end of 2199 (R423, R424, R426, R428,
R429, R430, R431, R432). A read of DATE latches TIME and FRAC of the same instant. With no commit pending an apply
changes nothing; a good setting alone sets the calendar. A due alarm fires once for its instant; a due wake counts
and, with PD1, raises 0x381. A stop of the oscillator sets its flag, with PD1 recording 0x123; a low cell without
supply sets LBF. At the last instant of 2199 the calendar goes on at 2000-01-01 with the oscillator flag and fault 20,
with PD1 recording 0x125, and an alarm or wake due there follows. -/
def Obligations.CalendarCommands : Prop :=
  ∀ s : State,
    (s.served = true → exec .dateRead s = .next (((s.put pgCAL CAL.TIME s.cal.now.time).put pgCAL CAL.FRAC
      s.cal.now.frac).answer s.cal.now.date)) ∧
    (s.on pgCAL HDR.COMMIT.PENDING = false → exec .calCommitApply s = .next s) ∧
    (s.on pgCAL HDR.COMMIT.PENDING = true → s.cal.gSet = true → s.cal.gAlarm = false → s.cal.gWake = false →
      dateReason (s.calBuf 0x050) = 0 → timeReason (s.calBuf 0x054) = 0 →
      exec .calCommitApply s = .next ({ (s.put pgCAL HDR.COMMIT.PENDING 0).incMod pgCAL HDR.STAGE_SEQ with
        cal := { s.cal with gSet := false, gAlarm := false, gWake := false } } : State).calSet) ∧
    (s.boot.pd0 = true →
      (s.alarmDue = true → exec .alarmFire s = .next (({ s with cal := { s.cal with alarmAt := false } } : State).alarmFire 0
        s.cal.now.date s.cal.now.time)) ∧
      (s.wakeDue = true → ∀ u, u = ({ s with cal := { s.cal with wakeAt := false } } : State).incMod pgCAL CAL.WAKE_COUNT →
        exec .wake s = .next (if u.pd1 then u.event 0x381 else u)) ∧
      exec .oscillatorStop s = .next (if s.pd1 then s.setOsf.raise pgCAL 0x123 1 else s.setOsf) ∧
      (s.boot.supplyValid = false → exec .lbf s = .next s.setLbf) ∧
      (s.cal.now.last = true → ∀ u, u = ({ s with cal := { s.cal with
          now := { year := 2000, month := 1, day := 1 }, alarmAt := true, wakeAt := true } } : State).setOsf.setFault pgCAL 20 →
        exec .yearWrap s = .next (if u.pd1 then u.raise pgCAL 0x125 else u).alarmReached.wakeReached))
end

