-- ==== Sys2Proof/Laws/Store.lean ====
section
/-! SUPPORT. Stores and memories: what a write leaves to be read, and that every operation keeps the canonical form. -/

namespace Sys2Proof.Machine

/-! ### Reading after writing -/

namespace Store
variable {α : Type}

theorem get_ins_same (d : α) (m : Store α) (k : Nat) (v : α) : Store.get d (Store.ins m k v) k = v := by
  induction m with
  | nil => simp [Store.ins, Store.get]
  | cons e r ih =>
    obtain ⟨k', v'⟩ := e
    simp only [Store.ins]
    split
    · simp [Store.get]
    · split
      · simp [Store.get]
      · rename_i h1 h2
        simp only [Store.get]
        rw [if_neg (Ne.symm h2)]
        exact ih

theorem get_ins_ne (d : α) (m : Store α) {k j : Nat} (v : α) (h : j ≠ k) :
    Store.get d (Store.ins m k v) j = Store.get d m j := by
  induction m with
  | nil => simp [Store.ins, Store.get, Ne.symm h]
  | cons e r ih =>
    obtain ⟨k', v'⟩ := e
    simp only [Store.ins]
    split
    · simp [Store.get, Ne.symm h]
    · split
      · rename_i h2
        subst h2
        simp [Store.get, Ne.symm h]
      · simp only [Store.get, ih]

theorem get_drop_same (d : α) (m : Store α) (k : Nat) : Store.get d (m.filter (fun e => e.1 != k)) k = d := by
  induction m with
  | nil => rfl
  | cons e r ih =>
    obtain ⟨k', v'⟩ := e
    by_cases hk : k' = k
    · simpa [List.filter_cons, hk] using ih
    · simpa [List.filter_cons, hk, Store.get] using ih

theorem get_keep (d : α) (p : Nat → Bool) (m : Store α) {j : Nat} (h : p j = true) :
    Store.get d (Store.keep p m) j = Store.get d m j := by
  induction m with
  | nil => rfl
  | cons e r ih =>
    obtain ⟨k', v'⟩ := e
    simp only [Store.keep] at ih ⊢
    by_cases hp : p k' = true
    · simp [List.filter_cons, hp, Store.get, ih]
    · have : k' ≠ j := fun hk => hp (hk ▸ h)
      simp [List.filter_cons, hp, Store.get, ih, this]

variable [DecidableEq α]

/-- The value written is read. -/
@[simp] theorem get_set_same (d : α) (m : Store α) (k : Nat) (v : α) : Store.get d (Store.set d m k v) k = v := by
  unfold Store.set
  split
  · rename_i h; rw [get_drop_same, h]
  · exact get_ins_same d m k v

/-- Every other key reads as before. -/
theorem get_set_ne (d d' : α) (m : Store α) {k j : Nat} (v : α) (h : j ≠ k) :
    Store.get d' (Store.set d m k v) j = Store.get d' m j := by
  unfold Store.set
  split
  · exact get_keep d' (fun x => x != k) m (by simp [h])
  · exact get_ins_ne d' m v h

/-- A write outside the kept keys leaves them as they were. -/
theorem keep_set (p : Nat → Bool) (d : α) (m : Store α) {k : Nat} (v : α) (h : p k = false) :
    Store.keep p (Store.set d m k v) = Store.keep p m := by
  unfold Store.set Store.keep
  split
  · rw [List.filter_filter]
    congr 1
    funext e
    by_cases hk : e.1 = k
    · simp [hk, h]
    · simp [hk]
  · induction m with
    | nil => simp [Store.ins, h]
    | cons e r ih =>
      obtain ⟨k', v'⟩ := e
      simp only [Store.ins]
      split
      · simp [List.filter_cons, h]
      · split
        · rename_i h2
          subst h2
          simp [List.filter_cons, h]
        · simp only [List.filter_cons, ih]

/-! ### The canonical form -/

omit [DecidableEq α] in
theorem sorted_iff (m : Store α) : Store.sorted m = true ↔ m.Pairwise (fun a b => a.1 < b.1) := by
  induction m with
  | nil => simp [Store.sorted]
  | cons e r ih =>
    cases r with
    | nil => simp [Store.sorted]
    | cons f r' =>
      obtain ⟨k, v⟩ := e
      obtain ⟨k', v'⟩ := f
      simp only [Store.sorted, Bool.and_eq_true, decide_eq_true_eq, ih, List.pairwise_cons, List.mem_cons]
      constructor
      · rintro ⟨h1, h2, h3⟩
        refine ⟨?_, h2, h3⟩
        rintro a (rfl | ha)
        · exact h1
        · exact lt_trans h1 (h2 a ha)
      · rintro ⟨h1, h2, h3⟩
        exact ⟨h1 _ (Or.inl rfl), h2, h3⟩

theorem wf_iff (d : Nat → α) (m : Store α) :
    Store.wf d m = true ↔ m.Pairwise (fun a b => a.1 < b.1) ∧ ∀ e ∈ m, e.2 ≠ d e.1 := by
  simp [Store.wf, sorted_iff]

omit [DecidableEq α] in
theorem mem_ins {m : Store α} {k : Nat} {v : α} {e : Nat × α} (h : e ∈ Store.ins m k v) : e = (k, v) ∨ e ∈ m := by
  induction m with
  | nil => simpa [Store.ins] using h
  | cons f r ih =>
    obtain ⟨k', v'⟩ := f
    simp only [Store.ins] at h
    split at h
    · simpa using h
    · split at h
      · rcases List.mem_cons.1 h with h | h
        · exact Or.inl h
        · exact Or.inr (List.mem_cons_of_mem _ h)
      · rcases List.mem_cons.1 h with h | h
        · exact Or.inr (h ▸ List.mem_cons_self)
        · rcases ih h with h | h
          · exact Or.inl h
          · exact Or.inr (List.mem_cons_of_mem _ h)

omit [DecidableEq α] in
theorem pairwise_ins {m : Store α} (k : Nat) (v : α) (h : m.Pairwise (fun a b => a.1 < b.1)) :
    (Store.ins m k v).Pairwise (fun a b => a.1 < b.1) := by
  induction m with
  | nil => simp [Store.ins]
  | cons f r ih =>
    obtain ⟨k', v'⟩ := f
    obtain ⟨h1, h2⟩ := List.pairwise_cons.1 h
    simp only [Store.ins]
    split
    · rename_i hk
      refine List.pairwise_cons.2 ⟨?_, h⟩
      intro a ha
      rcases List.mem_cons.1 ha with rfl | ha
      · exact hk
      · exact lt_trans hk (h1 a ha)
    · split
      · rename_i hk
        subst hk
        exact List.pairwise_cons.2 ⟨h1, h2⟩
      · refine List.pairwise_cons.2 ⟨?_, ih h2⟩
        intro a ha
        rcases mem_ins ha with rfl | ha
        · show k' < k
          omega
        · exact h1 a ha

/-- A write keeps the canonical form. -/
theorem wf_set (d : Nat → α) {m : Store α} (k : Nat) (v : α) (h : Store.wf d m = true) :
    Store.wf d (Store.set (d k) m k v) = true := by
  rw [wf_iff] at h ⊢
  obtain ⟨h1, h2⟩ := h
  unfold Store.set
  split
  · exact ⟨h1.filter _, fun e he => h2 e (List.mem_filter.1 he).1⟩
  · rename_i hv
    refine ⟨pairwise_ins k v h1, ?_⟩
    intro e he
    rcases mem_ins he with rfl | he
    · exact hv
    · exact h2 e he

/-- Keeping some keys keeps the canonical form. -/
theorem wf_keep (d : Nat → α) {m : Store α} (p : Nat → Bool) (h : Store.wf d m = true) :
    Store.wf d (Store.keep p m) = true := by
  rw [wf_iff] at h ⊢
  exact ⟨h.1.filter _, fun e he => h.2 e (List.mem_filter.1 he).1⟩

theorem wf_nil (d : Nat → α) : Store.wf d ([] : Store α) = true := rfl

end Store

/-! ### Memories -/

namespace Memory

theorem rd_wr_same (m : Memory) (a : Nat) (b : Byte) : Memory.rd (Memory.wr m a b) a = b := by
  simp [Memory.rd, Memory.wr]

theorem rd_wr_ne (m : Memory) {a x : Nat} (b : Byte) (h : x ≠ a) : Memory.rd (Memory.wr m a b) x = Memory.rd m x := by
  simp [Memory.rd, Memory.wr, Store.get_set_ne _ _ _ _ h]

/-- Bytes outside the stored range read as before. -/
theorem rd_put_outside (l : List Byte) : ∀ (m : Memory) (a x : Nat), x < a ∨ a + l.length ≤ x →
    Memory.rd (Memory.put m a l) x = Memory.rd m x := by
  induction l with
  | nil => intro m a x _; rfl
  | cons b r ih =>
    intro m a x h
    simp only [List.length_cons] at h
    rw [Memory.put, ih _ _ _ (by omega), rd_wr_ne _ _ (by omega)]

/-- Bytes inside the stored range read as stored. -/
theorem rd_put_inside (l : List Byte) : ∀ (m : Memory) (a i : Nat) (h : i < l.length),
    Memory.rd (Memory.put m a l) (a + i) = l[i] := by
  induction l with
  | nil => intro m a i h; exact absurd h (by simp)
  | cons b r ih =>
    intro m a i h
    rw [Memory.put]
    cases i with
    | zero => rw [rd_put_outside r _ _ _ (by omega)]; simpa using rd_wr_same m a b
    | succ j =>
      have := ih (Memory.wr m a b) (a + 1) j (by simpa using h)
      simpa [Nat.add_assoc, Nat.add_comm 1 j] using this

theorem wf_nil : Memory.wf [] = true := rfl

theorem wf_wr {m : Memory} (a : Nat) (b : Byte) (h : Memory.wf m = true) : Memory.wf (Memory.wr m a b) = true :=
  Store.wf_set (fun _ => Config.unwrittenByte) a b h

theorem wf_put (l : List Byte) : ∀ {m : Memory} (a : Nat), Memory.wf m = true → Memory.wf (Memory.put m a l) = true := by
  induction l with
  | nil => intro m a h; exact h
  | cons b r ih => intro m a h; exact ih (a + 1) (wf_wr a b h)

theorem wf_wrLE {m : Memory} (a n v : Nat) (h : Memory.wf m = true) : Memory.wf (Memory.wrLE m a n v) = true :=
  wf_put _ a h

theorem wf_keep {m : Memory} (p : Nat → Bool) (h : Memory.wf m = true) : Memory.wf (Store.keep p m) = true :=
  Store.wf_keep _ p h

theorem wf_erase {m : Memory} (a n : Nat) (h : Memory.wf m = true) : Memory.wf (Memory.erase m a n) = true :=
  wf_keep _ h

theorem wf_foldl {β : Type} (f : Memory → β → Memory) (hf : ∀ m b, Memory.wf m = true → Memory.wf (f m b) = true)
    (l : List β) : ∀ {m : Memory}, Memory.wf m = true → Memory.wf (l.foldl f m) = true := by
  induction l with
  | nil => intro m h; exact h
  | cons b r ih => intro m h; exact ih (hf m b h)

theorem wf_copy {m : Memory} (dst : Nat) (source : Memory) (src n : Nat) (h : Memory.wf m = true) :
    Memory.wf (Memory.copy m dst source src n) = true :=
  wf_foldl _ (fun _ _ hm => wf_wr _ _ hm) _ (wf_erase dst n h)

end Memory

end Sys2Proof.Machine
end

