-- ==== Sys2Proof/Laws/Kept.lean ====
section
/-! SUPPORT. What an operation keeps: `Kept W p s` says that `s` holds the invariants of `State.Inv` if `p` does, and agrees
with `p` on the queue and on every part that `W` pins. Each operation has one lemma: it keeps `Kept` where `W` does not pin the parts it names. -/

namespace Sys2Proof.Machine

/-- `s` keeps the invariants of `p`, and agrees with `p` on the queue and on the parts that `W` pins. -/
structure Kept (W : Part → Bool) (p s : State) : Prop where
  inv : p.Inv → s.Inv
  queue : s.pending = p.pending
  pin : ∀ q, W q = true → q.same p s

/-- None of the parts of a list is pinned. -/
def Frees (W : Part → Bool) (l : List Part) : Prop := ∀ q ∈ l, W q = false

theorem Frees.sub {W : Part → Bool} {l k : List Part} (h : Frees W l) (e : k.all (fun q => l.contains q) = true) : Frees W k :=
  fun q hq => h q (by simpa using List.all_eq_true.mp e q hq)

/-- The outcome of a command keeps what `Kept` says, where it answers a next state. -/
def OutKept (W : Part → Bool) (p : State) : Out → Prop
  | .next t => Kept W p t
  | _ => True

theorem OutKept.next {W : Part → Bool} {p t : State} (h : Kept W p t) : OutKept W p (.next t) := h

theorem kept_foldl {β : Type} {W : Part → Bool} {p : State} (f : State → β → State) (l : List β) (s : State)
    (hf : ∀ u x, Kept W p u → Kept W p (f u x)) (h : Kept W p s) : Kept W p (l.foldl f s) := by
  induction l generalizing s with
  | nil => exact h
  | cons x r ih => exact ih _ (hf s x h)

theorem kept_foldl_fst {β γ : Type} {W : Part → Bool} {p : State} (f : State × γ → β → State × γ) (l : List β)
    (a : State × γ) (hf : ∀ u x, Kept W p u.1 → Kept W p (f u x).1) (h : Kept W p a.1) : Kept W p (l.foldl f a).1 := by
  induction l generalizing a with
  | nil => exact h
  | cons x r ih => exact ih _ (hf a x h)

theorem kept_cut {W : Part → Bool} {p v : State} {G : Prop} (hv : Kept W p v) (hb : Kept W p v → G) : G := hb hv

theorem kept_let {W : Part → Bool} {p v : State} {G : State → Prop} (hv : Kept W p v) (hb : ∀ x, Kept W p x → G x) :
    let x := v; G x := hb v hv

theorem kept_fst {W : Part → Bool} {p : State} {β : Type} {x : State × β} {a : State} {b : β} (e : x = (a, b))
    (ha : Kept W p a) : Kept W p x.1 := by
  rw [e]; exact ha

/-! ### One component changes -/

namespace Kept
variable {W : Part → Bool} {p s : State}

theorem start : Kept W s s := ⟨id, rfl, fun q _ => q.same_refl s⟩

theorem mono {t : State} (h : Kept W p s) (l : List Part) (hf : Frees W l) (hi : s.Inv → t.Inv) (hq : t.pending = s.pending)
    (hp : ∀ q, q ∉ l → q.same s t) : Kept W p t :=
  ⟨fun i => hi (h.inv i), hq.trans h.queue, fun q hw =>
    (hp q (fun hm => by rw [hf q hm] at hw; exact Bool.noConfusion hw)).trans (h.pin q hw)⟩

theorem setRegs (h : Kept W p s) (hf : Frees W [.regs]) (v : _) : Kept W p ({ s with regs := v } : State) :=
  h.mono [.regs] hf (fun i => ⟨i.mem, i.flash, i.cal, i.ts, i.recq, i.held, i.ring, i.val, i.recs⟩) rfl
    (fun q hq => by cases q <;> first | rfl | exact absurd List.mem_cons_self hq)
theorem setShad (h : Kept W p s) (hf : Frees W [.shad]) (v : _) : Kept W p ({ s with shad := v } : State) :=
  h.mono [.shad] hf (fun i => ⟨i.mem, i.flash, i.cal, i.ts, i.recq, i.held, i.ring, i.val, i.recs⟩) rfl
    (fun q hq => by cases q <;> first | rfl | exact absurd List.mem_cons_self hq)
theorem setBuf (h : Kept W p s) (hf : Frees W [.buf]) (v : _) : Kept W p ({ s with buf := v } : State) :=
  h.mono [.buf] hf (fun i => ⟨i.mem, i.flash, i.cal, i.ts, i.recq, i.held, i.ring, i.val, i.recs⟩) rfl
    (fun q hq => by cases q <;> first | rfl | exact absurd List.mem_cons_self hq)
theorem setEcc (h : Kept W p s) (hf : Frees W [.ecc]) (v : _) : Kept W p ({ s with ecc := v } : State) :=
  h.mono [.ecc] hf (fun i => ⟨i.mem, i.flash, i.cal, i.ts, i.recq, i.held, i.ring, i.val, i.recs⟩) rfl
    (fun q hq => by cases q <;> first | rfl | exact absurd List.mem_cons_self hq)
theorem setBoot (h : Kept W p s) (hf : Frees W [.boot]) (v : _) : Kept W p ({ s with boot := v } : State) :=
  h.mono [.boot] hf (fun i => ⟨i.mem, i.flash, i.cal, i.ts, i.recq, i.held, i.ring, i.val, i.recs⟩) rfl
    (fun q hq => by cases q <;> first | rfl | exact absurd List.mem_cons_self hq)
theorem setPins (h : Kept W p s) (hf : Frees W [.pins]) (v : _) : Kept W p ({ s with pins := v } : State) :=
  h.mono [.pins] hf (fun i => ⟨i.mem, i.flash, i.cal, i.ts, i.recq, i.held, i.ring, i.val, i.recs⟩) rfl
    (fun q hq => by cases q <;> first | rfl | exact absurd List.mem_cons_self hq)
theorem setClk (h : Kept W p s) (hf : Frees W [.clk]) (v : _) : Kept W p ({ s with clk := v } : State) :=
  h.mono [.clk] hf (fun i => ⟨i.mem, i.flash, i.cal, i.ts, i.recq, i.held, i.ring, i.val, i.recs⟩) rfl
    (fun q hq => by cases q <;> first | rfl | exact absurd List.mem_cons_self hq)
theorem setEvd (h : Kept W p s) (hf : Frees W [.evd]) (v : _) : Kept W p ({ s with evd := v } : State) :=
  h.mono [.evd] hf (fun i => ⟨i.mem, i.flash, i.cal, i.ts, i.recq, i.held, i.ring, i.val, i.recs⟩) rfl
    (fun q hq => by cases q <;> first | rfl | exact absurd List.mem_cons_self hq)
theorem setFlt (h : Kept W p s) (hf : Frees W [.flt]) (v : _) : Kept W p ({ s with flt := v } : State) :=
  h.mono [.flt] hf (fun i => ⟨i.mem, i.flash, i.cal, i.ts, i.recq, i.held, i.ring, i.val, i.recs⟩) rfl
    (fun q hq => by cases q <;> first | rfl | exact absurd List.mem_cons_self hq)
theorem setBus (h : Kept W p s) (hf : Frees W [.bus]) (v : _) : Kept W p ({ s with bus := v } : State) :=
  h.mono [.bus] hf (fun i => ⟨i.mem, i.flash, i.cal, i.ts, i.recq, i.held, i.ring, i.val, i.recs⟩) rfl
    (fun q hq => by cases q <;> first | rfl | exact absurd List.mem_cons_self hq)
theorem setSent (h : Kept W p s) (hf : Frees W [.sent]) (v : _) : Kept W p ({ s with sent := v } : State) :=
  h.mono [.sent] hf (fun i => ⟨i.mem, i.flash, i.cal, i.ts, i.recq, i.held, i.ring, i.val, i.recs⟩) rfl
    (fun q hq => by cases q <;> first | rfl | exact absurd List.mem_cons_self hq)
theorem setEth (h : Kept W p s) (hf : Frees W [.eth]) (v : _) : Kept W p ({ s with eth := v } : State) :=
  h.mono [.eth] hf (fun i => ⟨i.mem, i.flash, i.cal, i.ts, i.recq, i.held, i.ring, i.val, i.recs⟩) rfl
    (fun q hq => by cases q <;> first | rfl | exact absurd List.mem_cons_self hq)
theorem setCan (h : Kept W p s) (hf : Frees W [.can]) (v : _) : Kept W p ({ s with can := v } : State) :=
  h.mono [.can] hf (fun i => ⟨i.mem, i.flash, i.cal, i.ts, i.recq, i.held, i.ring, i.val, i.recs⟩) rfl
    (fun q hq => by cases q <;> first | rfl | exact absurd List.mem_cons_self hq)
theorem setForceQ (h : Kept W p s) (hf : Frees W [.forceQ]) (v : _) : Kept W p ({ s with forceQ := v } : State) :=
  h.mono [.forceQ] hf (fun i => ⟨i.mem, i.flash, i.cal, i.ts, i.recq, i.held, i.ring, i.val, i.recs⟩) rfl
    (fun q hq => by cases q <;> first | rfl | exact absurd List.mem_cons_self hq)
theorem setForceReq (h : Kept W p s) (hf : Frees W [.forceReq]) (v : _) : Kept W p ({ s with forceReq := v } : State) :=
  h.mono [.forceReq] hf (fun i => ⟨i.mem, i.flash, i.cal, i.ts, i.recq, i.held, i.ring, i.val, i.recs⟩) rfl
    (fun q hq => by cases q <;> first | rfl | exact absurd List.mem_cons_self hq)
theorem setLastRec (h : Kept W p s) (hf : Frees W [.lastRec]) (v : _) : Kept W p ({ s with lastRec := v } : State) :=
  h.mono [.lastRec] hf (fun i => ⟨i.mem, i.flash, i.cal, i.ts, i.recq, i.held, i.ring, i.val, i.recs⟩) rfl
    (fun q hq => by cases q <;> first | rfl | exact absurd List.mem_cons_self hq)
theorem setPnl (h : Kept W p s) (hf : Frees W [.pnl]) (v : _) : Kept W p ({ s with pnl := v } : State) :=
  h.mono [.pnl] hf (fun i => ⟨i.mem, i.flash, i.cal, i.ts, i.recq, i.held, i.ring, i.val, i.recs⟩) rfl
    (fun q hq => by cases q <;> first | rfl | exact absurd List.mem_cons_self hq)
theorem setDio (h : Kept W p s) (hf : Frees W [.dio]) (v : _) : Kept W p ({ s with dio := v } : State) :=
  h.mono [.dio] hf (fun i => ⟨i.mem, i.flash, i.cal, i.ts, i.recq, i.held, i.ring, i.val, i.recs⟩) rfl
    (fun q hq => by cases q <;> first | rfl | exact absurd List.mem_cons_self hq)
theorem setAna (h : Kept W p s) (hf : Frees W [.ana]) (v : _) : Kept W p ({ s with ana := v } : State) :=
  h.mono [.ana] hf (fun i => ⟨i.mem, i.flash, i.cal, i.ts, i.recq, i.held, i.ring, i.val, i.recs⟩) rfl
    (fun q hq => by cases q <;> first | rfl | exact absurd List.mem_cons_self hq)
theorem setLpe (h : Kept W p s) (hf : Frees W [.lpe]) (v : _) : Kept W p ({ s with lpe := v } : State) :=
  h.mono [.lpe] hf (fun i => ⟨i.mem, i.flash, i.cal, i.ts, i.recq, i.held, i.ring, i.val, i.recs⟩) rfl
    (fun q hq => by cases q <;> first | rfl | exact absurd List.mem_cons_self hq)
theorem setFrozeAt (h : Kept W p s) (hf : Frees W [.froze]) (v : _) : Kept W p ({ s with frozeAt := v } : State) :=
  h.mono [.froze] hf (fun i => ⟨i.mem, i.flash, i.cal, i.ts, i.recq, i.held, i.ring, i.val, i.recs⟩) rfl
    (fun q hq => by cases q <;> first | rfl | exact absurd List.mem_cons_self hq)
theorem setAx (h : Kept W p s) (hf : Frees W [.ax]) (v : _) : Kept W p ({ s with ax := v } : State) :=
  h.mono [.ax] hf (fun i => ⟨i.mem, i.flash, i.cal, i.ts, i.recq, i.held, i.ring, i.val, i.recs⟩) rfl
    (fun q hq => by cases q <;> first | rfl | exact absurd List.mem_cons_self hq)
theorem setAsrc (h : Kept W p s) (hf : Frees W [.asrc]) (v : _) : Kept W p ({ s with asrc := v } : State) :=
  h.mono [.asrc] hf (fun i => ⟨i.mem, i.flash, i.cal, i.ts, i.recq, i.held, i.ring, i.val, i.recs⟩) rfl
    (fun q hq => by cases q <;> first | rfl | exact absurd List.mem_cons_self hq)
theorem setAng (h : Kept W p s) (hf : Frees W [.ang]) (v : _) : Kept W p ({ s with ang := v } : State) :=
  h.mono [.ang] hf (fun i => ⟨i.mem, i.flash, i.cal, i.ts, i.recq, i.held, i.ring, i.val, i.recs⟩) rfl
    (fun q hq => by cases q <;> first | rfl | exact absurd List.mem_cons_self hq)
theorem setSync (h : Kept W p s) (hf : Frees W [.sync]) (v : _) : Kept W p ({ s with sync := v } : State) :=
  h.mono [.sync] hf (fun i => ⟨i.mem, i.flash, i.cal, i.ts, i.recq, i.held, i.ring, i.val, i.recs⟩) rfl
    (fun q hq => by cases q <;> first | rfl | exact absurd List.mem_cons_self hq)
theorem setDwy (h : Kept W p s) (hf : Frees W [.dwy]) (v : _) : Kept W p ({ s with dwy := v } : State) :=
  h.mono [.dwy] hf (fun i => ⟨i.mem, i.flash, i.cal, i.ts, i.recq, i.held, i.ring, i.val, i.recs⟩) rfl
    (fun q hq => by cases q <;> first | rfl | exact absurd List.mem_cons_self hq)
theorem setSeq (h : Kept W p s) (hf : Frees W [.seq]) (v : _) : Kept W p ({ s with seq := v } : State) :=
  h.mono [.seq] hf (fun i => ⟨i.mem, i.flash, i.cal, i.ts, i.recq, i.held, i.ring, i.val, i.recs⟩) rfl
    (fun q hq => by cases q <;> first | rfl | exact absurd List.mem_cons_self hq)
theorem setPair (h : Kept W p s) (hf : Frees W [.pair]) (v : _) : Kept W p ({ s with pair := v } : State) :=
  h.mono [.pair] hf (fun i => ⟨i.mem, i.flash, i.cal, i.ts, i.recq, i.held, i.ring, i.val, i.recs⟩) rfl
    (fun q hq => by cases q <;> first | rfl | exact absurd List.mem_cons_self hq)
theorem setFreeUses (h : Kept W p s) (hf : Frees W [.free]) (v : _) : Kept W p ({ s with freeUses := v } : State) :=
  h.mono [.free] hf (fun i => ⟨i.mem, i.flash, i.cal, i.ts, i.recq, i.held, i.ring, i.val, i.recs⟩) rfl
    (fun q hq => by cases q <;> first | rfl | exact absurd List.mem_cons_self hq)
theorem setMem (h : Kept W p s) (hf : Frees W [.mem]) (v : _) (e : s.Inv → Memory.wf v = true) :
    Kept W p ({ s with mem := v } : State) :=
  h.mono [.mem] hf (fun i => ⟨e i, i.flash, i.cal, i.ts, i.recq, i.held, i.ring, i.val, i.recs⟩) rfl
    (fun q hq => by cases q <;> first | rfl | exact absurd (by simp) hq)
theorem setFlash (h : Kept W p s) (hf : Frees W [.flash]) (v : _) (e : s.Inv → Memory.wf v = true) :
    Kept W p ({ s with flash := v } : State) :=
  h.mono [.flash] hf (fun i => ⟨i.mem, e i, i.cal, i.ts, i.recq, i.held, i.ring, i.val, i.recs⟩) rfl
    (fun q hq => by cases q <;> first | rfl | exact absurd (by simp) hq)
theorem setTsFifo (h : Kept W p s) (hf : Frees W [.ts]) (v : _) (e : s.Inv → v.length ≤ 64) :
    Kept W p ({ s with tsFifo := v } : State) :=
  h.mono [.ts] hf (fun i => ⟨i.mem, i.flash, i.cal, e i, i.recq, i.held, i.ring, i.val, i.recs⟩) rfl
    (fun q hq => by cases q <;> first | rfl | exact absurd (by simp) hq)
theorem setRecd (h : Kept W p s) (hf : Frees W [.recd]) (v : _) (e1 : s.Inv → v.queue.length ≤ 1024)
    (e2 : s.Inv → v.held ≤ 262144) (e3 : s.Inv → v.nextIdx < 262144) :
    Kept W p ({ s with recd := v } : State) :=
  h.mono [.recd] hf (fun i => ⟨i.mem, i.flash, i.cal, i.ts, e1 i, e2 i, e3 i, i.val, i.recs⟩) rfl
    (fun q hq => by cases q <;> first | rfl | exact absurd (by simp) hq)
theorem setRecdSame (h : Kept W p s) (hf : Frees W [.recd]) (v : _) (e1 : v.queue = s.recd.queue)
    (e2 : v.held = s.recd.held) (e3 : v.nextIdx = s.recd.nextIdx) :
    Kept W p ({ s with recd := v } : State) :=
  h.mono [.recd] hf (fun i => ⟨i.mem, i.flash, i.cal, i.ts, (by rw [e1]; exact i.recq), (by rw [e2]; exact i.held), (by rw [e3]; exact i.ring), i.val, i.recs⟩) rfl
    (fun q hq => by cases q <;> first | rfl | exact absurd (by simp) hq)
theorem setCal (h : Kept W p s) (hf : Frees W [.cal]) (v : _) (e : v.now = s.cal.now) :
    Kept W p ({ s with cal := v } : State) :=
  h.mono [.cal] hf (fun i => ⟨i.mem, i.flash, (by rw [e]; exact i.cal), i.ts, i.recq, i.held, i.ring, i.val, i.recs⟩) rfl
    (fun q hq => by cases q <;> first | rfl | exact e | exact absurd (by simp) hq)
theorem setCalNow (h : Kept W p s) (hf : Frees W [.cal, .now]) (v : _) (e : v.now.valid = true) :
    Kept W p ({ s with cal := v } : State) :=
  h.mono [.cal, .now] hf (fun i => ⟨i.mem, i.flash, e, i.ts, i.recq, i.held, i.ring, i.val, i.recs⟩) rfl
    (fun q hq => by cases q <;> first | rfl | exact absurd (by simp) hq)
theorem setTly (h : Kept W p s) (hf : Frees W [.tly]) (v : _) (e1 : s.Inv → ∀ i, Store.get 0 v.val i < 2 ^ 64)
    (e2 : s.Inv → ∀ i, Store.get 0 v.recs i < 2 ^ 96) :
    Kept W p ({ s with tly := v } : State) :=
  h.mono [.tly] hf (fun i => ⟨i.mem, i.flash, i.cal, i.ts, i.recq, i.held, i.ring, e1 i, e2 i⟩) rfl
    (fun q hq => by cases q <;> first | rfl | exact absurd (by simp) hq)
theorem setTlySame (h : Kept W p s) (hf : Frees W [.tly]) (v : _) (e1 : v.val = s.tly.val) (e2 : v.recs = s.tly.recs) :
    Kept W p ({ s with tly := v } : State) :=
  h.mono [.tly] hf (fun i => ⟨i.mem, i.flash, i.cal, i.ts, i.recq, i.held, i.ring, (by rw [e1]; exact i.val), (by rw [e2]; exact i.recs)⟩) rfl
    (fun q hq => by cases q <;> first | rfl | exact absurd (by simp) hq)

end Kept

theorem store_set_lt {n : Nat} {m : Store Nat} (h : ∀ i, Store.get 0 m i < n) {k v : Nat} (hv : v < n) :
    ∀ i, Store.get 0 (Store.set 0 m k v) i < n := by
  intro i
  by_cases hi : i = k
  · subst hi; simp only [Store.get_set_same]; exact hv
  · simp only [Store.get_set_ne _ _ _ _ hi]; exact h i

theorem store_foldl_lt {β : Type} {n : Nat} (f : Store Nat → β → Store Nat)
    (hf : ∀ m b, (∀ i, Store.get 0 m i < n) → ∀ i, Store.get 0 (f m b) i < n)
    (l : List β) (m : Store Nat) (h : ∀ i, Store.get 0 m i < n) : ∀ i, Store.get 0 (l.foldl f m) i < n := by
  induction l generalizing m with
  | nil => exact h
  | cons b r ih => exact ih _ (hf m b h)

end Sys2Proof.Machine
end

