-- ==== Sys2Proof/Laws/KeptOps.lean ====
section
/-! SUPPORT. One lemma for each operation and each meaning of the shared operations and the task image: what it keeps
(`Kept`), and at most which parts it changes. -/

namespace Sys2Proof.Machine
set_option linter.all false
variable {W : Part → Bool} {p : State}

/-! ### Ops -/

theorem State.setReg_kept (s : State) (page : Nat) (off : Nat) (w : Word) (idx : Nat) (h : Kept W p s) (hf : Frees W [.regs]) :
    Kept W p (State.setReg s page off w idx) := by
  unfold State.setReg
  with_reducible repeat' (first
      | assumption | exact hf.sub rfl
      | (intro x; first | (refine kept_cut (W := W) (p := p) (v := x) ?_ (fun hx => ?_) <;> [simp only [x]; clear_value x]) | skip)
      | lift_lets | refine Kept.setRegs ?_ (hf.sub rfl) _)

theorem State.put_kept (s : State) (page : Nat) (f : Fld) (v : Nat) (idx : Nat) (h : Kept W p s) (hf : Frees W [.regs]) :
    Kept W p (State.put s page f v idx) := by
  unfold State.put
  with_reducible repeat' (first | assumption | exact hf.sub rfl | apply State.setReg_kept | intro x)

theorem State.putB_kept (s : State) (page : Nat) (f : Fld) (b : Bool) (idx : Nat) (h : Kept W p s) (hf : Frees W [.regs]) :
    Kept W p (State.putB s page f b idx) := by
  unfold State.putB
  with_reducible repeat' (first | assumption | exact hf.sub rfl | apply State.put_kept | intro x)

theorem State.setShadow_kept (s : State) (page : Nat) (off : Nat) (w : Word) (idx : Nat) (h : Kept W p s) (hf : Frees W [.shad]) :
    Kept W p (State.setShadow s page off w idx) := by
  unfold State.setShadow
  with_reducible repeat' (first
      | assumption | exact hf.sub rfl
      | (intro x; first | (refine kept_cut (W := W) (p := p) (v := x) ?_ (fun hx => ?_) <;> [simp only [x]; clear_value x]) | skip)
      | lift_lets | refine Kept.setShad ?_ (hf.sub rfl) _)

theorem State.setBoot_kept (s : State) (b : Boot) (h : Kept W p s) (hf : Frees W [.boot]) :
    Kept W p (State.setBoot s b) := by
  unfold State.setBoot
  with_reducible repeat' (first
      | assumption | exact hf.sub rfl
      | (intro x; first | (refine kept_cut (W := W) (p := p) (v := x) ?_ (fun hx => ?_) <;> [simp only [x]; clear_value x]) | skip)
      | lift_lets | refine Kept.setBoot ?_ (hf.sub rfl) _)

theorem State.incSat_kept (s : State) (page : Nat) (f : Fld) (k : Nat) (idx : Nat) (h : Kept W p s) (hf : Frees W [.regs]) :
    Kept W p (State.incSat s page f k idx) := by
  unfold State.incSat
  with_reducible repeat' (first | assumption | exact hf.sub rfl | apply State.put_kept | intro x)

theorem State.incMod_kept (s : State) (page : Nat) (f : Fld) (k : Nat) (idx : Nat) (h : Kept W p s) (hf : Frees W [.regs]) :
    Kept W p (State.incMod s page f k idx) := by
  unfold State.incMod
  with_reducible repeat' (first | assumption | exact hf.sub rfl | apply State.put_kept | intro x)

theorem State.useFree_kept (s : State) (n : Nat) (h : Kept W p s) (hf : Frees W [.free]) :
    Kept W p (State.useFree s n) := by
  unfold State.useFree
  with_reducible repeat' (first
      | assumption | exact hf.sub rfl
      | (intro x; first | (refine kept_cut (W := W) (p := p) (v := x) ?_ (fun hx => ?_) <;> [simp only [x]; clear_value x]) | skip)
      | lift_lets | refine Kept.setFreeUses ?_ (hf.sub rfl) _)

theorem State.setDom_kept (s : State) (d : Nat) (v : Nat) (h : Kept W p s) (hf : Frees W [.regs]) :
    Kept W p (State.setDom s d v) := by
  unfold State.setDom
  with_reducible repeat' (first | assumption | exact hf.sub rfl | apply State.put_kept | intro x)

theorem State.setSt_kept (s : State) (page : Nat) (v : Nat) (h : Kept W p s) (hf : Frees W [.regs]) :
    Kept W p (State.setSt s page v) := by
  unfold State.setSt
  with_reducible repeat' (first | assumption | exact hf.sub rfl | apply State.put_kept | intro x)

theorem State.setTask_kept (s : State) (k : Nat) (t : TaskRt) (h : Kept W p s) (hf : Frees W [.seq]) :
    Kept W p (State.setTask s k t) := by
  unfold State.setTask
  with_reducible repeat' (first
      | assumption | exact hf.sub rfl
      | (intro x; first | (refine kept_cut (W := W) (p := p) (v := x) ?_ (fun hx => ?_) <;> [simp only [x]; clear_value x]) | skip)
      | lift_lets | refine Kept.setSeq ?_ (hf.sub rfl) _)

theorem State.refreshState_kept (s : State) (page : Nat) (h : Kept W p s) (hf : Frees W [.regs]) :
    Kept W p (State.refreshState s page) := by
  unfold State.refreshState
  with_reducible repeat' (first
      | assumption | exact hf.sub rfl | apply State.setSt_kept
      | (intro x; first | (refine kept_cut (W := W) (p := p) (v := x) ?_ (fun hx => ?_) <;> [simp only [x]; clear_value x]) | skip)
      | split | lift_lets)

theorem State.ownDegrade_kept (s : State) (page : Nat) (d : Bool) (h : Kept W p s) (hf : Frees W [.regs, .flt]) :
    Kept W p (State.ownDegrade s page d) := by
  unfold State.ownDegrade
  with_reducible repeat' (first
      | assumption | exact hf.sub rfl | apply State.refreshState_kept
      | (intro x; first | (refine kept_cut (W := W) (p := p) (v := x) ?_ (fun hx => ?_) <;> [simp only [x]; clear_value x]) | skip)
      | split | lift_lets | refine Kept.setFlt ?_ (hf.sub rfl) _)

theorem State.note_kept (s : State) (a2 a3 a4 : Nat) (a5 : List Nat) (h : Kept W p s)
    (hf : Frees W [.recd, .free]) : Kept W p (State.note s a2 a3 a4 a5) := by
  unfold State.note
  dsimp only
  exact h.mono [.recd, .free] hf
    (fun i => ⟨i.mem, i.flash, i.cal, i.ts, i.recq, i.held, i.ring, i.val, i.recs⟩) rfl
    (fun q hq => by cases q <;> first | rfl | exact absurd (by decide) hq)

theorem State.edge_kept (s : State) (key : Nat) (h : Kept W p s) (hf : Frees W [.regs, .flt]) :
    Kept W p (State.edge s key) := by
  unfold State.edge
  with_reducible repeat' (first
      | assumption | exact hf.sub rfl | apply State.incSat_kept | apply State.put_kept
      | (intro x; first | (refine kept_cut (W := W) (p := p) (v := x) ?_ (fun hx => ?_) <;> [simp only [x]; clear_value x]) | skip)
      | split | lift_lets | refine Kept.setFlt ?_ (hf.sub rfl) _)

theorem State.setFault_kept (s : State) (page : Nat) (b : Nat) (h : Kept W p s) (hf : Frees W [.regs, .flt]) :
    Kept W p (State.setFault s page b) := by
  unfold State.setFault
  with_reducible repeat' (first
      | assumption | exact hf.sub rfl | apply State.edge_kept | apply State.setReg_kept
      | (intro x; first | (refine kept_cut (W := W) (p := p) (v := x) ?_ (fun hx => ?_) <;> [simp only [x]; clear_value x]) | skip)
      | split | lift_lets)

theorem State.cond_kept (s : State) (page : Nat) (b : Nat) (stands : Bool) (h : Kept W p s) (hf : Frees W [.flt]) :
    Kept W p (State.cond s page b stands) := by
  unfold State.cond
  with_reducible repeat' (first
      | assumption | exact hf.sub rfl
      | (intro x; first | (refine kept_cut (W := W) (p := p) (v := x) ?_ (fun hx => ?_) <;> [simp only [x]; clear_value x]) | skip)
      | split | lift_lets | refine Kept.setFlt ?_ (hf.sub rfl) _)

theorem State.clearFault_kept (s : State) (page : Nat) (b : Nat) (h : Kept W p s) (hf : Frees W [.regs, .flt]) :
    Kept W p (State.clearFault s page b) := by
  unfold State.clearFault
  with_reducible repeat' (first
      | assumption | exact hf.sub rfl | apply State.setReg_kept
      | (intro x; first | (refine kept_cut (W := W) (p := p) (v := x) ?_ (fun hx => ?_) <;> [simp only [x]; clear_value x]) | skip)
      | lift_lets | refine Kept.setFlt ?_ (hf.sub rfl) _)

theorem State.evDrop_kept (s : State) (pair : Nat) (src : Nat) (h : Kept W p s) (hf : Frees W [.regs, .recd, .flt, .free]) :
    Kept W p (State.evDrop s pair src) := by
  unfold State.evDrop
  with_reducible repeat' (first
      | assumption | exact hf.sub rfl | apply State.note_kept | apply State.put_kept | apply State.setFault_kept
      | intro x)

theorem State.enqueueEvent_kept (s : State) (src : Nat) (stamp : Nat) (moved : Bool) (h : Kept W p s) (hf : Frees W [.regs, .recd, .evd, .flt, .free]) :
    Kept W p (State.enqueueEvent s src stamp moved) := by
  unfold State.enqueueEvent
  with_reducible repeat' (first
      | assumption | exact hf.sub rfl | apply State.evDrop_kept
      | (intro x; first | (refine kept_cut (W := W) (p := p) (v := x) ?_ (fun hx => ?_) <;> [simp only [x]; clear_value x]) | skip)
      | split | lift_lets | refine Kept.setEvd ?_ (hf.sub rfl) _)

theorem State.event_kept (s : State) (src : Nat) (h : Kept W p s) (hf : Frees W [.regs, .recd, .evd, .flt, .free]) :
    Kept W p (State.event s src) := by
  unfold State.event
  with_reducible repeat' (first
      | assumption | exact hf.sub rfl | apply State.enqueueEvent_kept
      | (intro x; first | (refine kept_cut (W := W) (p := p) (v := x) ?_ (fun hx => ?_) <;> [simp only [x]; clear_value x]) | skip)
      | split | lift_lets | refine Kept.setEvd ?_ (hf.sub rfl) _)

theorem State.lineEvent_kept (s : State) (kind : Nat) (h : Kept W p s) (hf : Frees W [.evd]) :
    Kept W p (State.lineEvent s kind) := by
  unfold State.lineEvent
  with_reducible repeat' (first
      | assumption | exact hf.sub rfl
      | (intro x; first | (refine kept_cut (W := W) (p := p) (v := x) ?_ (fun hx => ?_) <;> [simp only [x]; clear_value x]) | skip)
      | lift_lets | refine Kept.setEvd ?_ (hf.sub rfl) _)

theorem State.tallyCheck_kept (s : State) (i : Nat) (h : Kept W p s) (hf : Frees W [.regs, .recd, .evd, .flt, .free]) :
    Kept W p (State.tallyCheck s i) := by
  unfold State.tallyCheck
  with_reducible repeat' (first
      | assumption | exact hf.sub rfl | apply State.event_kept | apply State.note_kept | apply State.put_kept
      | apply State.setFault_kept
      | (intro x; first | (refine kept_cut (W := W) (p := p) (v := x) ?_ (fun hx => ?_) <;> [simp only [x]; clear_value x]) | skip)
      | split | lift_lets)

theorem State.tallySet_kept (s : State) (a2 a3 : Nat) (h : Kept W p s) (hf : Frees W [.regs, .recd, .evd, .flt, .tly, .free]) :
    Kept W p (State.tallySet s a2 a3) := by
  unfold State.tallySet
  split
  · exact h
  · apply State.tallyCheck_kept _ _ _ (hf.sub rfl)
    exact h.setTly (hf.sub rfl) _ (fun i => store_set_lt i.val (by omega)) (fun i => i.recs)

theorem State.tallyAdd_kept (s : State) (i : Nat) (n : Nat) (h : Kept W p s) (hf : Frees W [.regs, .recd, .evd, .flt, .tly, .free]) :
    Kept W p (State.tallyAdd s i n) := by
  unfold State.tallyAdd
  with_reducible repeat' (first | assumption | exact hf.sub rfl | apply State.tallySet_kept | intro x)

theorem State.raise_kept (s : State) (page : Nat) (code : Nat) (sub : Nat) (a5 : List Nat) (h : Kept W p s) (hf : Frees W [.regs, .recd, .evd, .flt, .tly, .free]) :
    Kept W p (State.raise s page code sub a5) := by
  unfold State.raise
  with_reducible repeat' (first
      | assumption | exact hf.sub rfl | apply State.note_kept | apply State.tallyAdd_kept
      | (intro x; first | (refine kept_cut (W := W) (p := p) (v := x) ?_ (fun hx => ?_) <;> [simp only [x]; clear_value x]) | skip)
      | split | lift_lets)

theorem State.refuseOwner_kept (s : State) (page : Nat) (off : Nat) (m : Nat) (h : Kept W p s) (hf : Frees W [.regs, .recd, .evd, .flt, .tly, .free]) :
    Kept W p (State.refuseOwner s page off m) := by
  unfold State.refuseOwner
  with_reducible repeat' (first
      | assumption | exact hf.sub rfl | apply State.raise_kept | apply State.setFault_kept | intro x)

theorem State.send_kept (s : State) (port : Nat) (kind : Nat) (body : List Nat) (h : Kept W p s) (hf : Frees W [.sent]) :
    Kept W p (State.send s port kind body) := by
  unfold State.send
  with_reducible repeat' (first
      | assumption | exact hf.sub rfl
      | (intro x; first | (refine kept_cut (W := W) (p := p) (v := x) ?_ (fun hx => ?_) <;> [simp only [x]; clear_value x]) | skip)
      | lift_lets | refine Kept.setSent ?_ (hf.sub rfl) _)

theorem forEach_kept (l : List Nat) (f : State → Nat → State) (s : State) (h : Kept W p s) (hf2 : ∀ x0 x1, Kept W p x0 → Kept W p (f x0 x1)) :
    Kept W p (forEach l f s) := by
  unfold forEach
  with_reducible repeat' (first | assumption | apply hf2 | apply kept_foldl | intro x)

theorem onlyIf_kept (c : Bool) (f : State → State) (s : State) (h : Kept W p s) (hf2 : ∀ x0, Kept W p x0 → Kept W p (f x0)) :
    Kept W p (onlyIf c f s) := by
  unfold onlyIf
  with_reducible repeat' (first | assumption | apply hf2 | intro x | split)

theorem State.withBuffer_kept (s : State) (page : Nat) (keys : List Nat) (h : Kept W p s) (hf : Frees W [.regs]) :
    Kept W p (State.withBuffer s page keys) := by
  unfold State.withBuffer
  with_reducible repeat' (first
      | assumption | exact hf.sub rfl | apply kept_foldl
      | (intro x; first | (refine kept_cut (W := W) (p := p) (v := x) ?_ (fun hx => ?_) <;> [simp only [x]; clear_value x]) | skip)
      | lift_lets | refine Kept.setRegs ?_ (hf.sub rfl) _)

theorem State.commitDrop_kept (s : State) (page : Nat) (h : Kept W p s) (hf : Frees W [.regs, .buf]) :
    Kept W p (State.commitDrop s page) := by
  unfold State.commitDrop
  with_reducible repeat' (first
      | assumption | exact hf.sub rfl | apply State.put_kept
      | (intro x; first | (refine kept_cut (W := W) (p := p) (v := x) ?_ (fun hx => ?_) <;> [simp only [x]; clear_value x]) | skip)
      | lift_lets | refine Kept.setBuf ?_ (hf.sub rfl) _)

theorem State.commitDone_kept (s : State) (page : Nat) (h : Kept W p s) (hf : Frees W [.regs, .buf]) :
    Kept W p (State.commitDone s page) := by
  unfold State.commitDone
  with_reducible repeat' (first
      | assumption | exact hf.sub rfl | apply State.commitDrop_kept | apply State.incMod_kept | intro x)

/-! ### Image -/

theorem State.eccClear_kept (s : State) (a : Nat) (n : Nat) (h : Kept W p s) (hf : Frees W [.ecc]) :
    Kept W p (State.eccClear s a n) := by
  unfold State.eccClear
  with_reducible repeat' (first
      | assumption | exact hf.sub rfl
      | (intro x; first | (refine kept_cut (W := W) (p := p) (v := x) ?_ (fun hx => ?_) <;> [simp only [x]; clear_value x]) | skip)
      | lift_lets | refine Kept.setEcc ?_ (hf.sub rfl) _)

theorem State.memWr_kept (s : State) (a2 a3 a4 : Nat) (h : Kept W p s)
    (hf : Frees W [.mem, .ecc]) : Kept W p (State.memWr s a2 a3 a4) :=
  (State.eccClear_kept s _ _ h (hf.sub rfl)).setMem (hf.sub rfl) _ (fun i => Memory.wf_wrLE _ _ _ i.mem)

theorem State.memPut_kept (s : State) (a2 : Nat) (a3 : List Byte) (h : Kept W p s)
    (hf : Frees W [.mem, .ecc]) : Kept W p (State.memPut s a2 a3) :=
  (State.eccClear_kept s _ _ h (hf.sub rfl)).setMem (hf.sub rfl) _ (fun i => Memory.wf_put _ _ i.mem)

theorem State.memCopy_kept (s : State) (a2 : Nat) (a3 : Memory) (a4 a5 : Nat) (h : Kept W p s)
    (hf : Frees W [.mem, .ecc]) : Kept W p (State.memCopy s a2 a3 a4 a5) :=
  (State.eccClear_kept s _ _ h (hf.sub rfl)).setMem (hf.sub rfl) _ (fun i => Memory.wf_copy _ _ _ _ i.mem)

theorem State.setDirW_kept (s : State) (i : Nat) (w : Nat) (v : Nat) (h : Kept W p s) (hf : Frees W [.mem, .ecc]) :
    Kept W p (State.setDirW s i w v) := by
  unfold State.setDirW
  with_reducible repeat' (first | assumption | exact hf.sub rfl | apply State.memWr_kept | intro x)

theorem State.keepBefore_kept (s : State) (a2 : Nat) (i : Nat) (h : Kept W p s) (hf : Frees W [.seq]) :
    Kept W p (State.keepBefore s a2 i) := by
  unfold State.keepBefore
  with_reducible repeat' (first
      | assumption | exact hf.sub rfl
      | (intro x; first | (refine kept_cut (W := W) (p := p) (v := x) ?_ (fun hx => ?_) <;> [simp only [x]; clear_value x]) | skip)
      | split | lift_lets | refine Kept.setSeq ?_ (hf.sub rfl) _)

theorem State.asBefore_kept (s : State) (h : Kept W p s) (hf : Frees W [.mem, .ecc]) :
    Kept W p (State.asBefore s) := by
  unfold State.asBefore
  with_reducible repeat' (first
      | assumption | exact hf.sub rfl | apply State.memWr_kept | apply State.setDirW_kept | apply kept_foldl | intro x
      | split)

theorem State.imgWrite_kept (s : State) (i : Nat) (v : Nat) (q : Quality) (h : Kept W p s) (hf : Frees W [.mem, .ecc, .forceQ]) :
    Kept W p (State.imgWrite s i v q) := by
  unfold State.imgWrite
  with_reducible repeat' (first
      | assumption | exact hf.sub rfl | apply State.memWr_kept | apply State.setDirW_kept
      | (intro x; first | (refine kept_cut (W := W) (p := p) (v := x) ?_ (fun hx => ?_) <;> [simp only [x]; clear_value x]) | skip)
      | split | lift_lets | refine Kept.setForceQ ?_ (hf.sub rfl) _)

theorem State.imgWriteWord_kept (s : State) (i : Nat) (v : Word) (q : Quality) (h : Kept W p s) (hf : Frees W [.mem, .ecc, .forceQ]) :
    Kept W p (State.imgWriteWord s i v q) := by
  unfold State.imgWriteWord
  with_reducible repeat' (first | assumption | exact hf.sub rfl | apply State.imgWrite_kept | intro x)

theorem State.imgWriteBool_kept (s : State) (i : Nat) (v : Bool) (q : Quality) (h : Kept W p s) (hf : Frees W [.mem, .ecc, .forceQ]) :
    Kept W p (State.imgWriteBool s i v q) := by
  unfold State.imgWriteBool
  with_reducible repeat' (first | assumption | exact hf.sub rfl | apply State.imgWrite_kept | intro x)

theorem State.imgQual_kept (s : State) (i : Nat) (f : Quality → Quality) (h : Kept W p s) (hf : Frees W [.mem, .ecc, .forceQ]) :
    Kept W p (State.imgQual s i f) := by
  unfold State.imgQual
  with_reducible repeat' (first
      | assumption | exact hf.sub rfl | apply State.setDirW_kept
      | (intro x; first | (refine kept_cut (W := W) (p := p) (v := x) ?_ (fun hx => ?_) <;> [simp only [x]; clear_value x]) | skip)
      | split | lift_lets | refine Kept.setForceQ ?_ (hf.sub rfl) _)

theorem State.markRecord_kept (s : State) (key : Nat) (h : Kept W p s) (hf : Frees W [.lastRec]) :
    Kept W p (State.markRecord s key) := by
  unfold State.markRecord
  with_reducible repeat' (first
      | assumption | exact hf.sub rfl
      | (intro x; first | (refine kept_cut (W := W) (p := p) (v := x) ?_ (fun hx => ?_) <;> [simp only [x]; clear_value x]) | skip)
      | lift_lets | refine Kept.setLastRec ?_ (hf.sub rfl) _)

theorem State.legCapture_kept (s : State) (addr : Nat) (ty : Nat) (master : Nat) (h : Kept W p s) (hf : Frees W [.regs]) :
    Kept W p (State.legCapture s addr ty master) := by
  unfold State.legCapture
  with_reducible repeat' (first
      | assumption | exact hf.sub rfl | apply State.incSat_kept | apply State.put_kept
      | (intro x; first | (refine kept_cut (W := W) (p := p) (v := x) ?_ (fun hx => ?_) <;> [simp only [x]; clear_value x]) | skip)
      | split | lift_lets)

theorem State.dmaError_kept (s : State) (page : Nat) (addr : Nat) (ty : Nat) (master : Nat) (h : Kept W p s) (hf : Frees W [.regs, .recd, .evd, .flt, .tly, .free]) :
    Kept W p (State.dmaError s page addr ty master) := by
  unfold State.dmaError
  with_reducible repeat' (first
      | assumption | exact hf.sub rfl | apply State.legCapture_kept | apply State.raise_kept | intro x)

theorem State.supTouch_kept (s : State) (h : Kept W p s) (hf : Frees W [.boot]) :
    Kept W p (State.supTouch s) := by
  unfold State.supTouch
  with_reducible repeat' (first
      | assumption | exact hf.sub rfl | apply State.setBoot_kept
      | (intro x; first | (refine kept_cut (W := W) (p := p) (v := x) ?_ (fun hx => ?_) <;> [simp only [x]; clear_value x]) | skip)
      | split | lift_lets)

theorem State.tlyTouch_kept (s : State) (h : Kept W p s) (hf : Frees W [.tly]) :
    Kept W p (State.tlyTouch s) := by
  unfold State.tlyTouch
  with_reducible repeat' (first
      | assumption | exact hf.sub rfl
      | (intro x; first | (refine kept_cut (W := W) (p := p) (v := x) ?_ (fun hx => ?_) <;> [simp only [x]; clear_value x]) | skip)
      | split | lift_lets | (refine Kept.setTlySame ?_ (hf.sub rfl) _ ?_ ?_ <;> first | rfl | skip))

theorem State.pageTouch_kept (s : State) (page : Nat) (off : Nat) (h : Kept W p s) (hf : Frees W [.boot, .tly]) :
    Kept W p (State.pageTouch s page off) := by
  unfold State.pageTouch
  with_reducible repeat' (first
      | assumption | exact hf.sub rfl | apply State.supTouch_kept | apply State.tlyTouch_kept | intro x | split)

theorem State.action_kept (s : State) (page : Nat) (off : Nat) (m : Nat) (f : State → State) (h : Kept W p s) (hf : Frees W [.regs, .boot, .recd, .evd, .flt, .tly, .free]) (hf5 : ∀ x0, Kept W p x0 → Kept W p (f x0)) :
    Kept W p (State.action s page off m f) := by
  unfold State.action
  with_reducible repeat' (first
      | assumption | exact hf.sub rfl | apply State.pageTouch_kept | apply State.refuseOwner_kept | apply hf5 | intro x
      | split)

theorem State.actionRes_kept (s : State) (page : Nat) (off : Nat) (m : Nat) (res : Fld) (v : Nat) (f : State → State) (h : Kept W p s) (hf : Frees W [.regs, .boot, .recd, .evd, .flt, .tly, .free]) (hf7 : ∀ x0, Kept W p x0 → Kept W p (f x0)) :
    Kept W p (State.actionRes s page off m res v f) := by
  unfold State.actionRes
  with_reducible repeat' (first
      | assumption | exact hf.sub rfl | apply State.action_kept | apply State.put_kept | apply State.refuseOwner_kept
      | apply hf7 | intro x | split)

theorem State.answer_kept (s : State) (v : Nat) (h : Kept W p s) (hf : Frees W [.bus]) :
    Kept W p (State.answer s v) := by
  unfold State.answer
  with_reducible repeat' (first
      | assumption | exact hf.sub rfl
      | (intro x; first | (refine kept_cut (W := W) (p := p) (v := x) ?_ (fun hx => ?_) <;> [simp only [x]; clear_value x]) | skip)
      | lift_lets | refine Kept.setBus ?_ (hf.sub rfl) _)

end Sys2Proof.Machine
end

