-- ==== Sys2Proof/Laws/KeptField.lean ====
section
/-! SUPPORT. One lemma for each operation and each meaning of the field side: ANA, DIO, LPE, ANG and AX: what it keeps
(`Kept`), and at most which parts it changes. -/

namespace Sys2Proof.Machine
set_option linter.all false
variable {W : Part → Bool} {p : State}

/-! ### Ana -/

theorem State.setAnaRt_kept (s : State) (n : Nat) (r : AnaRt) (h : Kept W p s) (hf : Frees W [.ana]) :
    Kept W p (State.setAnaRt s n r) := by
  unfold State.setAnaRt
  with_reducible repeat' (first
      | assumption | exact hf.sub rfl
      | (intro x; first | (refine kept_cut (W := W) (p := p) (v := x) ?_ (fun hx => ?_) <;> [simp only [x]; clear_value x]) | skip)
      | lift_lets | refine Kept.setAna ?_ (hf.sub rfl) _)

theorem State.anaClock_kept (s : State) (n : Nat) (h : Kept W p s) (hf : Frees W [.regs, .recd, .evd, .flt, .tly, .lastRec, .free]) :
    Kept W p (State.anaClock s n) := by
  unfold State.anaClock
  with_reducible repeat' (first
      | assumption | exact hf.sub rfl | apply State.markRecord_kept | apply State.put_kept | apply State.raise_kept
      | (intro x; first | (refine kept_cut (W := W) (p := p) (v := x) ?_ (fun hx => ?_) <;> [simp only [x]; clear_value x]) | skip)
      | split | lift_lets)

theorem State.anaSet_kept (s : State) (n : Nat) (c : Option Word) (h : Kept W p s) (hf : Frees W [.regs, .recd, .evd, .flt, .tly, .lastRec, .ana, .free]) :
    Kept W p (State.anaSet s n c) := by
  unfold State.anaSet
  with_reducible repeat' (first
      | assumption | exact hf.sub rfl | apply State.anaClock_kept | apply State.setAnaRt_kept
      | (intro x; first | (refine kept_cut (W := W) (p := p) (v := x) ?_ (fun hx => ?_) <;> [simp only [x]; clear_value x]) | skip)
      | lift_lets)

theorem State.anaCommand_kept (s : State) (n : Nat) (c : Option Word) (h : Kept W p s) (hf : Frees W [.regs, .recd, .evd, .flt, .tly, .lastRec, .ana, .free]) :
    Kept W p (State.anaCommand s n c) := by
  unfold State.anaCommand
  with_reducible repeat' (first
      | assumption | exact hf.sub rfl | apply State.anaSet_kept | apply State.setAnaRt_kept
      | (intro x; first | (refine kept_cut (W := W) (p := p) (v := x) ?_ (fun hx => ?_) <;> [simp only [x]; clear_value x]) | skip)
      | split | lift_lets)

theorem State.anaUpdate_kept (s : State) (n : Nat) (h : Kept W p s) (hf : Frees W [.regs, .recd, .evd, .flt, .tly, .lastRec, .ana, .free]) :
    Kept W p (State.anaUpdate s n) := by
  unfold State.anaUpdate
  with_reducible repeat' (first
      | assumption | exact hf.sub rfl | apply State.anaSet_kept
      | (intro x; first | (refine kept_cut (W := W) (p := p) (v := x) ?_ (fun hx => ?_) <;> [simp only [x]; clear_value x]) | skip)
      | split | lift_lets)

theorem State.anaSafe_kept (s : State) (n : Nat) (h : Kept W p s) (hf : Frees W [.regs, .recd, .evd, .flt, .tly, .lastRec, .ana, .free]) :
    Kept W p (State.anaSafe s n) := by
  unfold State.anaSafe
  with_reducible repeat' (first
      | assumption | exact hf.sub rfl | apply State.anaCommand_kept
      | (intro x; first | (refine kept_cut (W := W) (p := p) (v := x) ?_ (fun hx => ?_) <;> [simp only [x]; clear_value x]) | skip)
      | split | lift_lets)

theorem State.anaSafeAll_kept (s : State) (h : Kept W p s) (hf : Frees W [.regs, .recd, .evd, .flt, .tly, .lastRec, .ana, .free]) :
    Kept W p (State.anaSafeAll s) := by
  unfold State.anaSafeAll
  with_reducible repeat' (first
      | assumption | exact hf.sub rfl | apply State.anaSafe_kept | apply forEach_kept | intro x)

theorem State.anaApply_kept (s : State) (o : OutVal) (h : Kept W p s) (hf : Frees W [.regs, .recd, .evd, .flt, .tly, .lastRec, .ana, .free]) :
    Kept W p (State.anaApply s o) := by
  unfold State.anaApply
  with_reducible repeat' (first
      | assumption | exact hf.sub rfl | apply State.anaCommand_kept | apply State.anaSafe_kept | apply forEach_kept
      | intro x | split)

theorem State.anaTake_kept (s : State) (i : Nat) (h : Kept W p s) (hf : Frees W [.regs, .recd, .evd, .flt, .tly, .lastRec, .ana, .free]) :
    Kept W p (State.anaTake s i) := by
  unfold State.anaTake
  with_reducible repeat' (first | assumption | exact hf.sub rfl | apply State.anaApply_kept | intro x)

theorem State.anaSafeOf_kept (s : State) (i : Nat) (h : Kept W p s) (hf : Frees W [.regs, .recd, .evd, .flt, .tly, .lastRec, .ana, .free]) :
    Kept W p (State.anaSafeOf s i) := by
  unfold State.anaSafeOf
  with_reducible repeat' (first
      | assumption | exact hf.sub rfl | apply State.anaSafe_kept | apply forEach_kept | intro x)

theorem State.anaWriteIn_kept (s : State) (n : Nat) (v : Word) (q : Quality) (h : Kept W p s) (hf : Frees W [.regs, .mem, .ecc, .forceQ]) :
    Kept W p (State.anaWriteIn s n v q) := by
  unfold State.anaWriteIn
  with_reducible repeat' (first
      | assumption | exact hf.sub rfl | apply State.imgWriteWord_kept | apply State.setReg_kept
      | (intro x; first | (refine kept_cut (W := W) (p := p) (v := x) ?_ (fun hx => ?_) <;> [simp only [x]; clear_value x]) | skip)
      | split | lift_lets)

theorem State.anaBad_kept (s : State) (n : Nat) (h : Kept W p s) (hf : Frees W [.regs, .mem, .ecc, .forceQ]) :
    Kept W p (State.anaBad s n) := by
  unfold State.anaBad
  with_reducible repeat' (first | assumption | exact hf.sub rfl | apply State.anaWriteIn_kept | intro x)

theorem State.anaFence_kept (s : State) (n : Nat) (h : Kept W p s) (hf : Frees W [.regs, .mem, .ecc, .forceQ, .ana]) :
    Kept W p (State.anaFence s n) := by
  unfold State.anaFence
  with_reducible repeat' (first
      | assumption | exact hf.sub rfl | apply State.anaBad_kept | apply State.setAnaRt_kept
      | (intro x; first | (refine kept_cut (W := W) (p := p) (v := x) ?_ (fun hx => ?_) <;> [simp only [x]; clear_value x]) | skip)
      | lift_lets)

theorem State.anaRange_kept (s : State) (n : Nat) (i : Word) (h : Kept W p s) (hf : Frees W [.regs, .recd, .evd, .flt, .tly, .ana, .free]) :
    Kept W p (State.anaRange s n i) := by
  unfold State.anaRange
  with_reducible repeat' (first
      | assumption | exact hf.sub rfl | apply State.raise_kept | apply State.setAnaRt_kept | apply State.setFault_kept
      | (intro x; first | (refine kept_cut (W := W) (p := p) (v := x) ?_ (fun hx => ?_) <;> [simp only [x]; clear_value x]) | skip)
      | split | lift_lets)

theorem State.anaCompliance_kept (s : State) (n : Nat) (i : Word) (h : Kept W p s) (hf : Frees W [.regs, .recd, .evd, .flt, .tly, .ana, .free]) :
    Kept W p (State.anaCompliance s n i) := by
  unfold State.anaCompliance
  with_reducible repeat' (first
      | assumption | exact hf.sub rfl | apply State.cond_kept | apply State.put_kept | apply State.raise_kept
      | apply State.setAnaRt_kept | apply State.setFault_kept
      | (intro x; first | (refine kept_cut (W := W) (p := p) (v := x) ?_ (fun hx => ?_) <;> [simp only [x]; clear_value x]) | skip)
      | split | lift_lets)

theorem execAnalogueConversion_kept (n : Fin 16) (i : BitVec 32) (mv : BitVec 16) (s : State) (h : Kept W p s) (hf : Frees W [.regs, .mem, .ecc, .recd, .evd, .flt, .tly, .forceQ, .lastRec, .ana, .free]) :
    OutKept W p (execAnalogueConversion n i mv s) := by
  unfold execAnalogueConversion
  with_reducible repeat' (first
      | assumption | exact hf.sub rfl | apply State.anaClock_kept | apply State.anaCompliance_kept
      | apply State.anaRange_kept | apply State.anaWriteIn_kept | apply State.put_kept | apply State.setAnaRt_kept
      | apply State.setReg_kept | apply State.useFree_kept | apply OutKept.next
      | (intro x; first | (refine kept_cut (W := W) (p := p) (v := x) ?_ (fun hx => ?_) <;> [simp only [x]; clear_value x]) | skip)
      | split | lift_lets)

theorem execAnalogueReadback_kept (n : Fin 16) (dev : BitVec 32) (s : State) (h : Kept W p s) (hf : Frees W [.regs, .mem, .ecc, .recd, .evd, .flt, .tly, .forceQ, .ana, .free]) :
    OutKept W p (execAnalogueReadback n dev s) := by
  unfold execAnalogueReadback
  with_reducible repeat' (first
      | assumption | exact hf.sub rfl | apply State.anaBad_kept | apply State.raise_kept | apply State.setAnaRt_kept
      | apply State.setFault_kept | apply OutKept.next
      | (intro x; first | (refine kept_cut (W := W) (p := p) (v := x) ?_ (fun hx => ?_) <;> [simp only [x]; clear_value x]) | skip)
      | split | lift_lets)

theorem execNoLoop_kept (n : Fin 16) (lost : Bool) (s : State) (h : Kept W p s) (hf : Frees W [.regs, .mem, .ecc, .recd, .evd, .flt, .tly, .forceQ, .free]) :
    OutKept W p (execNoLoop n lost s) := by
  unfold execNoLoop
  with_reducible repeat' (first
      | assumption | exact hf.sub rfl | apply State.anaBad_kept | apply State.cond_kept | apply State.put_kept
      | apply State.raise_kept | apply State.setFault_kept | apply OutKept.next
      | (intro x; first | (refine kept_cut (W := W) (p := p) (v := x) ?_ (fun hx => ?_) <;> [simp only [x]; clear_value x]) | skip)
      | split | lift_lets)

theorem execIslandThermal_kept (n : Fin 16) (s : State) (h : Kept W p s) (hf : Frees W [.regs, .mem, .ecc, .recd, .evd, .flt, .tly, .forceQ, .ana, .free]) :
    OutKept W p (execIslandThermal n s) := by
  unfold execIslandThermal
  with_reducible repeat' (first
      | assumption | exact hf.sub rfl | apply State.anaBad_kept | apply State.cond_kept | apply State.put_kept
      | apply State.raise_kept | apply State.setAnaRt_kept | apply State.setFault_kept | apply OutKept.next
      | (intro x; first | (refine kept_cut (W := W) (p := p) (v := x) ?_ (fun hx => ?_) <;> [simp only [x]; clear_value x]) | skip)
      | split | lift_lets)

theorem State.anaCooled_kept (s : State) (k : Nat) (h : Kept W p s) (hf : Frees W [.flt, .ana]) :
    Kept W p (State.anaCooled s k) := by
  unfold State.anaCooled
  with_reducible repeat' (first
      | assumption | exact hf.sub rfl | apply State.cond_kept | apply State.setAnaRt_kept
      | (intro x; first | (refine kept_cut (W := W) (p := p) (v := x) ?_ (fun hx => ?_) <;> [simp only [x]; clear_value x]) | skip)
      | lift_lets)

theorem execAnaRestart_kept (m : Fin 4) (n : Fin 16) (s : State) (h : Kept W p s) (hf : Frees W [.regs, .boot, .recd, .evd, .flt, .tly, .free]) :
    OutKept W p (execAnaRestart m n s) := by
  unfold execAnaRestart
  with_reducible repeat' (first
      | assumption | exact hf.sub rfl | apply State.action_kept | apply State.put_kept | apply State.raise_kept
      | apply OutKept.next
      | (intro x; first | (refine kept_cut (W := W) (p := p) (v := x) ?_ (fun hx => ?_) <;> [simp only [x]; clear_value x]) | skip)
      | split | lift_lets)

theorem execMiswire_kept (n : Fin 16) (mv : BitVec 32) (s : State) (h : Kept W p s) (hf : Frees W [.regs, .mem, .ecc, .recd, .evd, .flt, .tly, .forceQ, .ana, .free]) :
    OutKept W p (execMiswire n mv s) := by
  unfold execMiswire
  with_reducible repeat' (first
      | assumption | exact hf.sub rfl | apply State.anaBad_kept | apply State.cond_kept | apply State.put_kept
      | apply State.raise_kept | apply State.setAnaRt_kept | apply State.setFault_kept | apply OutKept.next
      | (intro x; first | (refine kept_cut (W := W) (p := p) (v := x) ?_ (fun hx => ?_) <;> [simp only [x]; clear_value x]) | skip)
      | split | lift_lets)

theorem execMiswireRetest_kept (n : Fin 16) (clear : Bool) (mv : BitVec 32) (s : State) (h : Kept W p s) (hf : Frees W [.regs, .recd, .evd, .flt, .tly, .ana, .free]) :
    OutKept W p (execMiswireRetest n clear mv s) := by
  unfold execMiswireRetest
  with_reducible repeat' (first
      | assumption | exact hf.sub rfl | apply State.cond_kept | apply State.put_kept | apply State.raise_kept
      | apply State.setAnaRt_kept | apply OutKept.next
      | (intro x; first | (refine kept_cut (W := W) (p := p) (v := x) ?_ (fun hx => ?_) <;> [simp only [x]; clear_value x]) | skip)
      | split | lift_lets)

theorem execIsland_kept (n : Fin 16) (kind : Fin 3) (s : State) (h : Kept W p s) (hf : Frees W [.regs, .mem, .ecc, .recd, .evd, .flt, .tly, .forceQ, .ana, .free]) :
    OutKept W p (execIsland n kind s) := by
  unfold execIsland
  with_reducible repeat' (first
      | assumption | exact hf.sub rfl | apply State.anaBad_kept | apply State.cond_kept | apply State.put_kept
      | apply State.raise_kept | apply State.setAnaRt_kept | apply State.setFault_kept | apply OutKept.next
      | (intro x; first | (refine kept_cut (W := W) (p := p) (v := x) ?_ (fun hx => ?_) <;> [simp only [x]; clear_value x]) | skip)
      | split | lift_lets)

theorem execIslandLinkRestored_kept (n : Fin 16) (s : State) (h : Kept W p s) (hf : Frees W [.flt, .ana]) :
    OutKept W p (execIslandLinkRestored n s) := by
  unfold execIslandLinkRestored
  with_reducible repeat' (first
      | assumption | exact hf.sub rfl | apply State.cond_kept | apply State.setAnaRt_kept | apply OutKept.next
      | (intro x; first | (refine kept_cut (W := W) (p := p) (v := x) ?_ (fun hx => ?_) <;> [simp only [x]; clear_value x]) | skip)
      | split | lift_lets)

theorem execHartSend_kept (m : Fin 4) (n : Fin 16) (s : State) (h : Kept W p s) (hf : Frees W [.regs, .boot, .recd, .evd, .flt, .tly, .sent, .ana, .free]) :
    OutKept W p (execHartSend m n s) := by
  unfold execHartSend
  with_reducible repeat' (first
      | assumption | exact hf.sub rfl | apply State.action_kept | apply State.put_kept | apply State.send_kept
      | apply State.setAnaRt_kept | apply OutKept.next
      | (intro x; first | (refine kept_cut (W := W) (p := p) (v := x) ?_ (fun hx => ?_) <;> [simp only [x]; clear_value x]) | skip)
      | split | lift_lets)

theorem State.hartEnd_kept (s : State) (k : Nat) (result : Nat) (h : Kept W p s) (hf : Frees W [.regs, .recd, .evd, .flt, .ana, .free]) :
    Kept W p (State.hartEnd s k result) := by
  unfold State.hartEnd
  with_reducible repeat' (first
      | assumption | exact hf.sub rfl | apply State.event_kept | apply State.put_kept | apply State.setAnaRt_kept
      | (intro x; first | (refine kept_cut (W := W) (p := p) (v := x) ?_ (fun hx => ?_) <;> [simp only [x]; clear_value x]) | skip)
      | lift_lets)

theorem execHartAbort_kept (m : Fin 4) (n : Fin 16) (s : State) (h : Kept W p s) (hf : Frees W [.regs, .boot, .recd, .evd, .flt, .tly, .ana, .free]) :
    OutKept W p (execHartAbort m n s) := by
  unfold execHartAbort
  with_reducible repeat' (first
      | assumption | exact hf.sub rfl | apply State.action_kept | apply State.hartEnd_kept | apply OutKept.next
      | intro x | split)

theorem execHartTake_kept (m : Fin 4) (n : Fin 16) (s : State) (h : Kept W p s) (hf : Frees W [.regs, .boot, .recd, .evd, .flt, .tly, .free]) :
    OutKept W p (execHartTake m n s) := by
  unfold execHartTake
  with_reducible repeat' (first
      | assumption | exact hf.sub rfl | apply State.action_kept | apply State.put_kept | apply OutKept.next | intro x)

theorem State.hartStore_kept (s : State) (k : Nat) (bytes : List Byte) (h : Kept W p s) (hf : Frees W [.regs]) :
    Kept W p (State.hartStore s k bytes) := by
  unfold State.hartStore
  with_reducible repeat' (first
      | assumption | exact hf.sub rfl | apply State.put_kept | apply forEach_kept
      | (intro x; first | (refine kept_cut (W := W) (p := p) (v := x) ?_ (fun hx => ?_) <;> [simp only [x]; clear_value x]) | skip)
      | lift_lets)

theorem execHartTransactionEnd_kept (n : Fin 16) (result : Fin 3) (tries : BitVec 8) (response : List Byte) (s : State) (h : Kept W p s) (hf : Frees W [.regs, .recd, .evd, .flt, .tly, .sent, .ana, .free]) :
    OutKept W p (execHartTransactionEnd n result tries response s) := by
  unfold execHartTransactionEnd
  with_reducible repeat' (first
      | assumption | exact hf.sub rfl | apply State.hartEnd_kept | apply State.hartStore_kept | apply State.put_kept
      | apply State.raise_kept | apply State.send_kept | apply State.setFault_kept | apply forEach_kept
      | apply OutKept.next
      | (intro x; first | (refine kept_cut (W := W) (p := p) (v := x) ?_ (fun hx => ?_) <;> [simp only [x]; clear_value x]) | skip)
      | split | lift_lets)

theorem execHartBurst_kept (n : Fin 16) (frame : List Byte) (s : State) (h : Kept W p s) (hf : Frees W [.regs, .recd, .evd, .flt, .free]) :
    OutKept W p (execHartBurst n frame s) := by
  unfold execHartBurst
  with_reducible repeat' (first
      | assumption | exact hf.sub rfl | apply State.event_kept | apply State.hartStore_kept | apply State.incMod_kept
      | apply State.put_kept | apply OutKept.next
      | (intro x; first | (refine kept_cut (W := W) (p := p) (v := x) ?_ (fun hx => ?_) <;> [simp only [x]; clear_value x]) | skip)
      | split | lift_lets)

/-! ### Dio -/

theorem State.setDioRt_kept (s : State) (ch : Nat) (r : DioRt) (h : Kept W p s) (hf : Frees W [.dio]) :
    Kept W p (State.setDioRt s ch r) := by
  unfold State.setDioRt
  with_reducible repeat' (first
      | assumption | exact hf.sub rfl
      | (intro x; first | (refine kept_cut (W := W) (p := p) (v := x) ?_ (fun hx => ?_) <;> [simp only [x]; clear_value x]) | skip)
      | lift_lets | refine Kept.setDio ?_ (hf.sub rfl) _)

theorem State.dioWriteIn_kept (s : State) (ch : Nat) (h : Kept W p s) (hf : Frees W [.mem, .ecc, .forceQ]) :
    Kept W p (State.dioWriteIn s ch) := by
  unfold State.dioWriteIn
  with_reducible repeat' (first
      | assumption | exact hf.sub rfl | apply State.imgWriteBool_kept
      | (intro x; first | (refine kept_cut (W := W) (p := p) (v := x) ?_ (fun hx => ?_) <;> [simp only [x]; clear_value x]) | skip)
      | split | lift_lets)

theorem State.dioRefresh_kept (s : State) (ch : Nat) (h : Kept W p s) (hf : Frees W [.regs, .recd, .evd, .flt, .tly, .dio, .free]) :
    Kept W p (State.dioRefresh s ch) := by
  unfold State.dioRefresh
  with_reducible repeat' (first
      | assumption | exact hf.sub rfl | apply State.incMod_kept | apply State.putB_kept | apply State.put_kept
      | apply State.setDioRt_kept | apply State.tallyAdd_kept
      | (intro x; first | (refine kept_cut (W := W) (p := p) (v := x) ?_ (fun hx => ?_) <;> [simp only [x]; clear_value x]) | skip)
      | split | lift_lets)

theorem State.dioRefreshGroup_kept (s : State) (g : Nat) (h : Kept W p s) (hf : Frees W [.regs, .recd, .evd, .flt, .tly, .dio, .free]) :
    Kept W p (State.dioRefreshGroup s g) := by
  unfold State.dioRefreshGroup
  with_reducible repeat' (first
      | assumption | exact hf.sub rfl | apply State.dioRefresh_kept | apply forEach_kept | intro x)

theorem State.dioBaseTick_kept (s : State) (h : Kept W p s) (hf : Frees W [.regs, .recd, .evd, .flt, .tly, .dio, .free]) :
    Kept W p (State.dioBaseTick s) := by
  unfold State.dioBaseTick
  with_reducible repeat' (first
      | assumption | exact hf.sub rfl | apply State.dioRefresh_kept | apply State.setDioRt_kept | apply forEach_kept
      | (intro x; first | (refine kept_cut (W := W) (p := p) (v := x) ?_ (fun hx => ?_) <;> [simp only [x]; clear_value x]) | skip)
      | lift_lets)

theorem State.dioHoldGroup_kept (s : State) (g : Nat) (h : Kept W p s) (hf : Frees W [.dio]) :
    Kept W p (State.dioHoldGroup s g) := by
  unfold State.dioHoldGroup
  with_reducible repeat' (first
      | assumption | exact hf.sub rfl | apply State.setDioRt_kept | apply forEach_kept
      | (intro x; first | (refine kept_cut (W := W) (p := p) (v := x) ?_ (fun hx => ?_) <;> [simp only [x]; clear_value x]) | skip)
      | lift_lets)

theorem State.dioInverted_kept (s : State) (g : Nat) (h : Kept W p s) (hf : Frees W [.regs, .mem, .ecc, .forceQ]) :
    Kept W p (State.dioInverted s g) := by
  unfold State.dioInverted
  with_reducible repeat' (first
      | assumption | exact hf.sub rfl | apply State.dioWriteIn_kept | apply State.putB_kept | apply forEach_kept
      | intro x)

theorem State.dioRefreshAll_kept (s : State) (h : Kept W p s) (hf : Frees W [.regs, .recd, .evd, .flt, .tly, .dio, .free]) :
    Kept W p (State.dioRefreshAll s) := by
  unfold State.dioRefreshAll
  with_reducible repeat' (first
      | assumption | exact hf.sub rfl | apply State.dioRefresh_kept | apply forEach_kept | intro x)

theorem State.dioCommand_kept (s : State) (ch : Nat) (v : Bool) (h : Kept W p s) (hf : Frees W [.regs, .recd, .evd, .flt, .tly, .dio, .free]) :
    Kept W p (State.dioCommand s ch v) := by
  unfold State.dioCommand
  with_reducible repeat' (first
      | assumption | exact hf.sub rfl | apply State.dioRefresh_kept | apply State.setDioRt_kept
      | (intro x; first | (refine kept_cut (W := W) (p := p) (v := x) ?_ (fun hx => ?_) <;> [simp only [x]; clear_value x]) | skip)
      | lift_lets)

theorem State.dioSafe_kept (s : State) (ch : Nat) (h : Kept W p s) (hf : Frees W [.regs, .recd, .evd, .flt, .tly, .dio, .free]) :
    Kept W p (State.dioSafe s ch) := by
  unfold State.dioSafe
  with_reducible repeat' (first
      | assumption | exact hf.sub rfl | apply State.dioRefresh_kept | apply State.setDioRt_kept
      | (intro x; first | (refine kept_cut (W := W) (p := p) (v := x) ?_ (fun hx => ?_) <;> [simp only [x]; clear_value x]) | skip)
      | split | lift_lets)

theorem State.dioSafeAll_kept (s : State) (h : Kept W p s) (hf : Frees W [.regs, .recd, .evd, .flt, .tly, .dio, .free]) :
    Kept W p (State.dioSafeAll s) := by
  unfold State.dioSafeAll
  with_reducible repeat' (first
      | assumption | exact hf.sub rfl | apply State.dioSafe_kept | apply forEach_kept | intro x)

theorem State.dioRunEntry_kept (s : State) (h : Kept W p s) (hf : Frees W [.regs, .recd, .evd, .flt, .tly, .dio, .free]) :
    Kept W p (State.dioRunEntry s) := by
  unfold State.dioRunEntry
  with_reducible repeat' (first
      | assumption | exact hf.sub rfl | apply State.dioRefresh_kept | apply State.setDioRt_kept | apply forEach_kept
      | (intro x; first | (refine kept_cut (W := W) (p := p) (v := x) ?_ (fun hx => ?_) <;> [simp only [x]; clear_value x]) | skip)
      | lift_lets)

theorem State.dioApply_kept (s : State) (o : OutVal) (h : Kept W p s) (hf : Frees W [.regs, .recd, .evd, .flt, .tly, .dio, .free]) :
    Kept W p (State.dioApply s o) := by
  unfold State.dioApply
  with_reducible repeat' (first
      | assumption | exact hf.sub rfl | apply State.dioCommand_kept | apply State.dioSafe_kept | apply forEach_kept
      | intro x | split)

theorem State.dioTake_kept (s : State) (i : Nat) (h : Kept W p s) (hf : Frees W [.regs, .recd, .evd, .flt, .tly, .dio, .free]) :
    Kept W p (State.dioTake s i) := by
  unfold State.dioTake
  with_reducible repeat' (first | assumption | exact hf.sub rfl | apply State.dioApply_kept | intro x)

theorem State.dioSafeOf_kept (s : State) (i : Nat) (h : Kept W p s) (hf : Frees W [.regs, .recd, .evd, .flt, .tly, .dio, .free]) :
    Kept W p (State.dioSafeOf s i) := by
  unfold State.dioSafeOf
  with_reducible repeat' (first
      | assumption | exact hf.sub rfl | apply State.dioSafe_kept | apply forEach_kept | intro x)

theorem State.dioAngle_kept (s : State) (ch : Nat) (v : Bool) (h : Kept W p s) (hf : Frees W [.regs, .recd, .evd, .flt, .tly, .dio, .free]) :
    Kept W p (State.dioAngle s ch v) := by
  unfold State.dioAngle
  with_reducible repeat' (first | assumption | exact hf.sub rfl | apply State.dioCommand_kept | intro x | split)

theorem State.dioFence_kept (s : State) (g : Nat) (h : Kept W p s) (hf : Frees W [.regs, .mem, .ecc, .recd, .evd, .flt, .tly, .forceQ, .dio, .free]) :
    Kept W p (State.dioFence s g) := by
  unfold State.dioFence
  with_reducible repeat' (first
      | assumption | exact hf.sub rfl | apply State.dioRefreshGroup_kept | apply State.dioWriteIn_kept
      | apply forEach_kept | intro x)

theorem State.dioEdge_kept (s : State) (ch : Nat) (level : Bool) (origin : Nat) (h : Kept W p s) (hf : Frees W [.regs, .recd, .evd, .flt, .tly, .dio, .free]) :
    Kept W p (State.dioEdge s ch level origin) := by
  unfold State.dioEdge
  with_reducible repeat' (first
      | assumption | exact hf.sub rfl | apply State.event_kept | apply State.incMod_kept | apply State.put_kept
      | apply State.raise_kept | apply State.setDioRt_kept | apply State.setFault_kept
      | (intro x; first | (refine kept_cut (W := W) (p := p) (v := x) ?_ (fun hx => ?_) <;> [simp only [x]; clear_value x]) | skip)
      | split | lift_lets)

theorem execDioLevelAccepted_kept (ch : Fin 64) (level : Bool) (age : BitVec 32) (s : State) (h : Kept W p s) (hf : Frees W [.regs, .mem, .ecc, .recd, .evd, .flt, .tly, .forceQ, .dio, .free]) :
    OutKept W p (execDioLevelAccepted ch level age s) := by
  unfold execDioLevelAccepted
  with_reducible repeat' (first
      | assumption | exact hf.sub rfl | apply State.dioEdge_kept | apply State.dioWriteIn_kept | apply State.putB_kept
      | apply State.put_kept | apply State.setDioRt_kept | apply OutKept.next
      | (intro x; first | (refine kept_cut (W := W) (p := p) (v := x) ?_ (fun hx => ?_) <;> [simp only [x]; clear_value x]) | skip)
      | split | lift_lets)

theorem execOverload_kept (ch : Fin 64) (ma : BitVec 16) (s : State) (h : Kept W p s) (hf : Frees W [.regs, .recd, .evd, .flt, .tly, .free]) :
    OutKept W p (execOverload ch ma s) := by
  unfold execOverload
  with_reducible repeat' (first
      | assumption | exact hf.sub rfl | apply State.put_kept | apply State.raise_kept | apply State.setFault_kept
      | apply OutKept.next
      | (intro x; first | (refine kept_cut (W := W) (p := p) (v := x) ?_ (fun hx => ?_) <;> [simp only [x]; clear_value x]) | skip)
      | split | lift_lets)

theorem execDioThermal_kept (ch : Fin 64) (s : State) (h : Kept W p s) (hf : Frees W [.regs, .recd, .evd, .flt, .tly, .dio, .free]) :
    OutKept W p (execDioThermal ch s) := by
  unfold execDioThermal
  with_reducible repeat' (first
      | assumption | exact hf.sub rfl | apply State.cond_kept | apply State.dioRefresh_kept | apply State.put_kept
      | apply State.raise_kept | apply State.setFault_kept | apply OutKept.next
      | (intro x; first | (refine kept_cut (W := W) (p := p) (v := x) ?_ (fun hx => ?_) <;> [simp only [x]; clear_value x]) | skip)
      | split | lift_lets)

theorem State.dioCooled_kept (s : State) (n : Nat) (h : Kept W p s) (hf : Frees W [.regs, .flt]) :
    Kept W p (State.dioCooled s n) := by
  unfold State.dioCooled
  with_reducible repeat' (first
      | assumption | exact hf.sub rfl | apply State.cond_kept | apply State.put_kept
      | (intro x; first | (refine kept_cut (W := W) (p := p) (v := x) ?_ (fun hx => ?_) <;> [simp only [x]; clear_value x]) | skip)
      | lift_lets)

theorem State.dioRestart_kept (s : State) (n : Nat) (h : Kept W p s) (hf : Frees W [.regs, .recd, .evd, .flt, .tly, .dio, .free]) :
    Kept W p (State.dioRestart s n) := by
  unfold State.dioRestart
  with_reducible repeat' (first
      | assumption | exact hf.sub rfl | apply State.put_kept | apply State.raise_kept | apply State.setDioRt_kept
      | (intro x; first | (refine kept_cut (W := W) (p := p) (v := x) ?_ (fun hx => ?_) <;> [simp only [x]; clear_value x]) | skip)
      | split | lift_lets)

theorem execDioRestart_kept (m : Fin 4) (g : Fin 8) (mask : BitVec 8) (s : State) (h : Kept W p s) (hf : Frees W [.regs, .boot, .recd, .evd, .flt, .tly, .dio, .free]) :
    OutKept W p (execDioRestart m g mask s) := by
  unfold execDioRestart
  with_reducible repeat' (first
      | assumption | exact hf.sub rfl | apply State.action_kept | apply State.dioRestart_kept | apply forEach_kept
      | apply OutKept.next | intro x)

theorem State.dioLoadCheck_kept (s : State) (n : Nat) (sub : Nat) (bad : Bool) (h : Kept W p s) (hf : Frees W [.regs, .recd, .evd, .flt, .tly, .free]) :
    Kept W p (State.dioLoadCheck s n sub bad) := by
  unfold State.dioLoadCheck
  with_reducible repeat' (first
      | assumption | exact hf.sub rfl | apply State.put_kept | apply State.raise_kept | apply State.setFault_kept
      | (intro x; first | (refine kept_cut (W := W) (p := p) (v := x) ?_ (fun hx => ?_) <;> [simp only [x]; clear_value x]) | skip)
      | split | lift_lets)

theorem execTestPulse_kept (ch : Fin 64) (low : Bool) (s : State) (h : Kept W p s) (hf : Frees W [.regs, .recd, .evd, .flt, .tly, .dio, .free]) :
    OutKept W p (execTestPulse ch low s) := by
  unfold execTestPulse
  with_reducible repeat' (first
      | assumption | exact hf.sub rfl | apply State.dioLoadCheck_kept | apply State.setDioRt_kept | apply OutKept.next
      | (intro x; first | (refine kept_cut (W := W) (p := p) (v := x) ?_ (fun hx => ?_) <;> [simp only [x]; clear_value x]) | skip)
      | split | lift_lets)

theorem execOpenLoad_kept (ch : Fin 64) (ma : BitVec 16) (s : State) (h : Kept W p s) (hf : Frees W [.regs, .recd, .evd, .flt, .tly, .free]) :
    OutKept W p (execOpenLoad ch ma s) := by
  unfold execOpenLoad
  with_reducible repeat' (first
      | assumption | exact hf.sub rfl | apply State.dioLoadCheck_kept | apply State.put_kept | apply OutKept.next
      | (intro x; first | (refine kept_cut (W := W) (p := p) (v := x) ?_ (fun hx => ?_) <;> [simp only [x]; clear_value x]) | skip)
      | split | lift_lets)

theorem execReadback_kept (ch : Fin 64) (s : State) (h : Kept W p s) (hf : Frees W [.regs, .recd, .evd, .flt, .tly, .free]) :
    OutKept W p (execReadback ch s) := by
  unfold execReadback
  with_reducible repeat' (first
      | assumption | exact hf.sub rfl | apply State.put_kept | apply State.raise_kept | apply State.setFault_kept
      | apply OutKept.next
      | (intro x; first | (refine kept_cut (W := W) (p := p) (v := x) ?_ (fun hx => ?_) <;> [simp only [x]; clear_value x]) | skip)
      | split | lift_lets)

theorem State.dioWriteGroup_kept (s : State) (g : Nat) (h : Kept W p s) (hf : Frees W [.mem, .ecc, .forceQ]) :
    Kept W p (State.dioWriteGroup s g) := by
  unfold State.dioWriteGroup
  with_reducible repeat' (first
      | assumption | exact hf.sub rfl | apply State.dioWriteIn_kept | apply forEach_kept | intro x)

theorem execFsMissing_kept (g : Fin 8) (mv : BitVec 16) (s : State) (h : Kept W p s) (hf : Frees W [.regs, .mem, .ecc, .recd, .evd, .flt, .tly, .forceQ, .dio, .free]) :
    OutKept W p (execFsMissing g mv s) := by
  unfold execFsMissing
  with_reducible repeat' (first
      | assumption | exact hf.sub rfl | apply State.cond_kept | apply State.dioRefreshGroup_kept
      | apply State.dioWriteGroup_kept | apply State.ownDegrade_kept | apply State.put_kept | apply State.raise_kept
      | apply State.setDioRt_kept | apply State.setFault_kept | apply forEach_kept | apply OutKept.next
      | (intro x; first | (refine kept_cut (W := W) (p := p) (v := x) ?_ (fun hx => ?_) <;> [simp only [x]; clear_value x]) | skip)
      | split | lift_lets)

theorem execFsLow_kept (g : Fin 8) (mv : BitVec 16) (s : State) (h : Kept W p s) (hf : Frees W [.regs, .mem, .ecc, .recd, .evd, .flt, .tly, .forceQ, .free]) :
    OutKept W p (execFsLow g mv s) := by
  unfold execFsLow
  with_reducible repeat' (first
      | assumption | exact hf.sub rfl | apply State.cond_kept | apply State.dioWriteGroup_kept | apply State.put_kept
      | apply State.raise_kept | apply State.setFault_kept | apply OutKept.next
      | (intro x; first | (refine kept_cut (W := W) (p := p) (v := x) ?_ (fun hx => ?_) <;> [simp only [x]; clear_value x]) | skip)
      | split | lift_lets)

theorem execFsRestored_kept (g : Fin 8) (mv : BitVec 16) (s : State) (h : Kept W p s) (hf : Frees W [.regs, .mem, .ecc, .recd, .evd, .flt, .tly, .forceQ, .dio, .free]) :
    OutKept W p (execFsRestored g mv s) := by
  unfold execFsRestored
  with_reducible repeat' (first
      | assumption | exact hf.sub rfl | apply State.cond_kept | apply State.dioHoldGroup_kept
      | apply State.dioWriteIn_kept | apply State.ownDegrade_kept | apply State.put_kept | apply State.raise_kept
      | apply forEach_kept | apply OutKept.next
      | (intro x; first | (refine kept_cut (W := W) (p := p) (v := x) ?_ (fun hx => ?_) <;> [simp only [x]; clear_value x]) | skip)
      | split | lift_lets)

theorem execEdgeW1Read_kept (g : Fin 8) (s : State) (h : Kept W p s) (hf : Frees W [.regs, .bus, .dio]) :
    OutKept W p (execEdgeW1Read g s) := by
  unfold execEdgeW1Read
  (try dsimp only)
  with_reducible repeat' (first
      | assumption | exact hf.sub rfl | apply State.answer_kept | apply State.put_kept | apply State.setDioRt_kept
      | apply OutKept.next
      | (intro x; first | (refine kept_cut (W := W) (p := p) (v := x) ?_ (fun hx => ?_) <;> [simp only [x]; clear_value x]) | skip)
      | split | lift_lets)

/-! ### Lpe -/

theorem State.setLw_kept (s : State) (n : Nat) (off : Nat) (w : Word) (h : Kept W p s) (hf : Frees W [.lpe]) :
    Kept W p (State.setLw s n off w) := by
  unfold State.setLw
  with_reducible repeat' (first
      | assumption | exact hf.sub rfl
      | (intro x; first | (refine kept_cut (W := W) (p := p) (v := x) ?_ (fun hx => ?_) <;> [simp only [x]; clear_value x]) | skip)
      | lift_lets | refine Kept.setLpe ?_ (hf.sub rfl) _)

theorem State.setLoopRt_kept (s : State) (n : Nat) (r : LoopRt) (h : Kept W p s) (hf : Frees W [.lpe]) :
    Kept W p (State.setLoopRt s n r) := by
  unfold State.setLoopRt
  with_reducible repeat' (first
      | assumption | exact hf.sub rfl
      | (intro x; first | (refine kept_cut (W := W) (p := p) (v := x) ?_ (fun hx => ?_) <;> [simp only [x]; clear_value x]) | skip)
      | lift_lets | refine Kept.setLpe ?_ (hf.sub rfl) _)

theorem State.lCount_kept (s : State) (n : Nat) (off : Nat) (h : Kept W p s) (hf : Frees W [.lpe]) :
    Kept W p (State.lCount s n off) := by
  unfold State.lCount
  with_reducible repeat' (first | assumption | exact hf.sub rfl | apply State.setLw_kept | intro x)

theorem State.finishSample_kept (s : State) (n : Nat) (ev : Eval) (w : Word) (src : Bool) (competing : Bool) (h : Kept W p s) (hf : Frees W [.regs, .recd, .evd, .flt, .tly, .lpe, .free]) :
    Kept W p (State.finishSample s n ev w src competing) := by
  unfold State.finishSample
  with_reducible repeat' (first
      | assumption | exact hf.sub rfl | apply State.incMod_kept | apply State.lCount_kept | apply State.put_kept
      | apply State.raise_kept | apply State.setFault_kept | apply State.setLoopRt_kept | apply State.setLw_kept
      | (intro x; first | (refine kept_cut (W := W) (p := p) (v := x) ?_ (fun hx => ?_) <;> [simp only [x]; clear_value x]) | skip)
      | split | lift_lets)

/-! ### AxBase -/

theorem State.setAxRt_kept (s : State) (n : Nat) (r : AxRt) (h : Kept W p s) (hf : Frees W [.ax]) :
    Kept W p (State.setAxRt s n r) := by
  unfold State.setAxRt
  with_reducible repeat' (first
      | assumption | exact hf.sub rfl
      | (intro x; first | (refine kept_cut (W := W) (p := p) (v := x) ?_ (fun hx => ?_) <;> [simp only [x]; clear_value x]) | skip)
      | lift_lets | refine Kept.setAx ?_ (hf.sub rfl) _)

theorem State.axSetState_kept (s : State) (n : Nat) (st : Nat) (h : Kept W p s) (hf : Frees W [.regs, .recd, .evd, .flt, .tly, .free]) :
    Kept W p (State.axSetState s n st) := by
  unfold State.axSetState
  with_reducible repeat' (first
      | assumption | exact hf.sub rfl | apply State.event_kept | apply State.put_kept | apply State.raise_kept
      | intro x | split)

theorem State.axPutPair_kept (s : State) (n : Nat) (lo : Fld) (hi : Fld) (v : Int) (h : Kept W p s) (hf : Frees W [.regs]) :
    Kept W p (State.axPutPair s n lo hi v) := by
  unfold State.axPutPair
  with_reducible repeat' (first
      | assumption | exact hf.sub rfl | apply State.put_kept
      | (intro x; first | (refine kept_cut (W := W) (p := p) (v := x) ?_ (fun hx => ?_) <;> [simp only [x]; clear_value x]) | skip)
      | lift_lets)

theorem State.axMoved_kept (s : State) (n : Nat) (d : Int) (h : Kept W p s) (hf : Frees W [.regs, .recd, .evd, .flt, .tly, .ax, .free]) :
    Kept W p (State.axMoved s n d) := by
  unfold State.axMoved
  with_reducible repeat' (first
      | assumption | exact hf.sub rfl | apply State.incMod_kept | apply State.put_kept | apply State.setAxRt_kept
      | apply State.tallyAdd_kept
      | (intro x; first | (refine kept_cut (W := W) (p := p) (v := x) ?_ (fun hx => ?_) <;> [simp only [x]; clear_value x]) | skip)
      | split | lift_lets)

theorem State.axEmit_kept (s : State) (n : Nat) (a3 : Int) (q : Int) (h : Kept W p s) (hf : Frees W [.ax]) :
    Kept W p (State.axEmit s n a3 q) := by
  unfold State.axEmit
  with_reducible repeat' (first
      | assumption | exact hf.sub rfl | apply State.setAxRt_kept | apply kept_foldl | apply kept_foldl_fst
      | (intro x; first | (refine kept_cut (W := W) (p := p) (v := x) ?_ (fun hx => ?_) <;> [simp only [x]; clear_value x]) | skip)
      | split | lift_lets)

theorem State.axPlace_kept (s : State) (n : Nat) (a3 : Int) (v : Int) (h : Kept W p s) (hf : Frees W [.regs, .recd, .evd, .flt, .tly, .ax, .free]) :
    Kept W p (State.axPlace s n a3 v) := by
  unfold State.axPlace
  with_reducible repeat' (first
      | assumption | exact hf.sub rfl | apply State.axEmit_kept | apply State.axMoved_kept | apply State.axPutPair_kept
      | apply State.put_kept | apply State.setAxRt_kept
      | (intro x; first | (refine kept_cut (W := W) (p := p) (v := x) ?_ (fun hx => ?_) <;> [simp only [x]; clear_value x]) | skip)
      | split | lift_lets)

theorem State.axTarget_kept (s : State) (n : Nat) (t : Int) (h : Kept W p s) (hf : Frees W [.regs, .ax]) :
    Kept W p (State.axTarget s n t) := by
  unfold State.axTarget
  with_reducible repeat' (first
      | assumption | exact hf.sub rfl | apply State.axPutPair_kept | apply State.setAxRt_kept
      | (intro x; first | (refine kept_cut (W := W) (p := p) (v := x) ?_ (fun hx => ?_) <;> [simp only [x]; clear_value x]) | skip)
      | lift_lets)

theorem State.axOpen_kept (s : State) (n : Nat) (h : Kept W p s) (hf : Frees W [.regs, .ax]) :
    Kept W p (State.axOpen s n) := by
  unfold State.axOpen
  with_reducible repeat' (first
      | assumption | exact hf.sub rfl | apply State.put_kept | apply State.setAxRt_kept
      | (intro x; first | (refine kept_cut (W := W) (p := p) (v := x) ?_ (fun hx => ?_) <;> [simp only [x]; clear_value x]) | skip)
      | split | lift_lets)

theorem State.axRelease_kept (s : State) (n : Nat) (h : Kept W p s) (hf : Frees W [.regs, .ax]) :
    Kept W p (State.axRelease s n) := by
  unfold State.axRelease
  with_reducible repeat' (first
      | assumption | exact hf.sub rfl | apply State.axOpen_kept | apply State.setAxRt_kept
      | (intro x; first | (refine kept_cut (W := W) (p := p) (v := x) ?_ (fun hx => ?_) <;> [simp only [x]; clear_value x]) | skip)
      | split | lift_lets)

theorem State.axAtTarget_kept (s : State) (n : Nat) (h : Kept W p s) (hf : Frees W [.regs]) :
    Kept W p (State.axAtTarget s n) := by
  unfold State.axAtTarget
  with_reducible repeat' (first | assumption | exact hf.sub rfl | apply State.putB_kept | intro x)

theorem State.axStand_kept (s : State) (n : Nat) (h : Kept W p s) (hf : Frees W [.regs, .ax]) :
    Kept W p (State.axStand s n) := by
  unfold State.axStand
  with_reducible repeat' (first
      | assumption | exact hf.sub rfl | apply State.axAtTarget_kept | apply State.axTarget_kept
      | apply State.setAxRt_kept
      | (intro x; first | (refine kept_cut (W := W) (p := p) (v := x) ?_ (fun hx => ?_) <;> [simp only [x]; clear_value x]) | skip)
      | lift_lets)

theorem State.axGo_kept (s : State) (n : Nat) (st : Nat) (h : Kept W p s) (hf : Frees W [.regs, .recd, .evd, .flt, .tly, .ax, .free]) :
    Kept W p (State.axGo s n st) := by
  unfold State.axGo
  with_reducible repeat' (first
      | assumption | exact hf.sub rfl | apply State.axSetState_kept | apply State.put_kept | apply State.setAxRt_kept
      | (intro x; first | (refine kept_cut (W := W) (p := p) (v := x) ?_ (fun hx => ?_) <;> [simp only [x]; clear_value x]) | skip)
      | lift_lets)

theorem State.axMove_kept (s : State) (n : Nat) (k : Nat) (t : Int) (st : Nat) (h : Kept W p s) (hf : Frees W [.regs, .recd, .evd, .flt, .tly, .ax, .free]) :
    Kept W p (State.axMove s n k t st) := by
  unfold State.axMove
  with_reducible repeat' (first
      | assumption | exact hf.sub rfl | apply State.axGo_kept | apply State.axTarget_kept | apply State.setAxRt_kept
      | (intro x; first | (refine kept_cut (W := W) (p := p) (v := x) ?_ (fun hx => ?_) <;> [simp only [x]; clear_value x]) | skip)
      | lift_lets)

theorem State.axStop_kept (s : State) (n : Nat) (dec : Nat) (openAtRest : Bool) (h : Kept W p s) (hf : Frees W [.regs, .recd, .evd, .flt, .tly, .ax, .free]) :
    Kept W p (State.axStop s n dec openAtRest) := by
  unfold State.axStop
  with_reducible repeat' (first
      | assumption | exact hf.sub rfl | apply State.axRelease_kept | apply State.axSetState_kept
      | apply State.axStand_kept | apply State.put_kept | apply State.setAxRt_kept
      | (intro x; first | (refine kept_cut (W := W) (p := p) (v := x) ?_ (fun hx => ?_) <;> [simp only [x]; clear_value x]) | skip)
      | split | lift_lets)

theorem State.axHomeAbort_kept (s : State) (n : Nat) (reason : Nat) (h : Kept W p s) (hf : Frees W [.regs, .recd, .evd, .flt, .tly, .ax, .free]) :
    Kept W p (State.axHomeAbort s n reason) := by
  unfold State.axHomeAbort
  with_reducible repeat' (first
      | assumption | exact hf.sub rfl | apply State.axStop_kept | apply State.put_kept | apply State.raise_kept
      | apply State.setAxRt_kept | apply State.setFault_kept
      | (intro x; first | (refine kept_cut (W := W) (p := p) (v := x) ?_ (fun hx => ?_) <;> [simp only [x]; clear_value x]) | skip)
      | lift_lets)

theorem State.axFaulted_kept (s : State) (n : Nat) (h : Kept W p s) (hf : Frees W [.regs, .recd, .evd, .flt, .tly, .ax, .free]) :
    Kept W p (State.axFaulted s n) := by
  unfold State.axFaulted
  with_reducible repeat' (first
      | assumption | exact hf.sub rfl | apply State.axHomeAbort_kept | apply State.axOpen_kept
      | apply State.axPlace_kept | apply State.axSetState_kept | apply State.setAxRt_kept
      | (intro x; first | (refine kept_cut (W := W) (p := p) (v := x) ?_ (fun hx => ?_) <;> [simp only [x]; clear_value x]) | skip)
      | split | lift_lets)

theorem State.axFence_kept (s : State) (n : Nat) (h : Kept W p s) (hf : Frees W [.regs, .recd, .evd, .flt, .tly, .ax, .free]) :
    Kept W p (State.axFence s n) := by
  unfold State.axFence
  with_reducible repeat' (first
      | assumption | exact hf.sub rfl | apply State.axOpen_kept | apply State.axPlace_kept
      | apply State.axSetState_kept | apply State.setAxRt_kept
      | (intro x; first | (refine kept_cut (W := W) (p := p) (v := x) ?_ (fun hx => ?_) <;> [simp only [x]; clear_value x]) | skip)
      | lift_lets)

theorem State.axStopBeh_kept (s : State) (n : Nat) (h : Kept W p s) (hf : Frees W [.regs, .recd, .evd, .flt, .tly, .ax, .free]) :
    Kept W p (State.axStopBeh s n) := by
  unfold State.axStopBeh
  with_reducible repeat' (first
      | assumption | exact hf.sub rfl | apply State.axHomeAbort_kept | apply State.axStop_kept
      | (intro x; first | (refine kept_cut (W := W) (p := p) (v := x) ?_ (fun hx => ?_) <;> [simp only [x]; clear_value x]) | skip)
      | split | lift_lets)

theorem State.axStopAll_kept (s : State) (h : Kept W p s) (hf : Frees W [.regs, .recd, .evd, .flt, .tly, .ax, .free]) :
    Kept W p (State.axStopAll s) := by
  unfold State.axStopAll
  with_reducible repeat' (first
      | assumption | exact hf.sub rfl | apply State.axStopBeh_kept | apply forEach_kept | intro x)

theorem State.axHalt_kept (s : State) (n : Nat) (h : Kept W p s) (hf : Frees W [.regs, .recd, .evd, .flt, .tly, .ax, .free]) :
    Kept W p (State.axHalt s n) := by
  unfold State.axHalt
  with_reducible repeat' (first
      | assumption | exact hf.sub rfl | apply State.axHomeAbort_kept | apply State.axStop_kept | apply State.put_kept
      | apply State.refreshState_kept
      | (intro x; first | (refine kept_cut (W := W) (p := p) (v := x) ?_ (fun hx => ?_) <;> [simp only [x]; clear_value x]) | skip)
      | split | lift_lets)

theorem State.axBurst_kept (s : State) (n : Nat) (arg : Nat) (h : Kept W p s) (hf : Frees W [.regs, .recd, .evd, .flt, .tly, .lastRec, .ax, .free]) :
    Kept W p (State.axBurst s n arg) := by
  unfold State.axBurst
  with_reducible repeat' (first
      | assumption | exact hf.sub rfl | apply State.axMove_kept | apply State.markRecord_kept | apply State.raise_kept
      | (intro x; first | (refine kept_cut (W := W) (p := p) (v := x) ?_ (fun hx => ?_) <;> [simp only [x]; clear_value x]) | skip)
      | split | lift_lets)

/-! ### Ang -/

theorem State.setAsrcRt_kept (s : State) (n : Nat) (r : AsrcRt) (h : Kept W p s) (hf : Frees W [.asrc]) :
    Kept W p (State.setAsrcRt s n r) := by
  unfold State.setAsrcRt
  with_reducible repeat' (first
      | assumption | exact hf.sub rfl
      | (intro x; first | (refine kept_cut (W := W) (p := p) (v := x) ?_ (fun hx => ?_) <;> [simp only [x]; clear_value x]) | skip)
      | lift_lets | refine Kept.setAsrc ?_ (hf.sub rfl) _)

theorem State.setAngSlot_kept (s : State) (k : Nat) (a : AngSlot) (h : Kept W p s) (hf : Frees W [.regs, .ang]) :
    Kept W p (State.setAngSlot s k a) := by
  unfold State.setAngSlot
  with_reducible repeat' (first
      | assumption | exact hf.sub rfl | apply State.putB_kept | apply State.put_kept
      | (intro x; first | (refine kept_cut (W := W) (p := p) (v := x) ?_ (fun hx => ?_) <;> [simp only [x]; clear_value x]) | skip)
      | lift_lets | refine Kept.setAng ?_ (hf.sub rfl) _)

theorem State.slotArmed_kept (s : State) (k : Nat) (on : Bool) (h : Kept W p s) (hf : Frees W [.regs, .ang]) :
    Kept W p (State.slotArmed s k on) := by
  unfold State.slotArmed
  with_reducible repeat' (first
      | assumption | exact hf.sub rfl | apply State.setAngSlot_kept
      | (intro x; first | (refine kept_cut (W := W) (p := p) (v := x) ?_ (fun hx => ?_) <;> [simp only [x]; clear_value x]) | skip)
      | lift_lets)

theorem State.slotAim_kept (s : State) (k : Nat) (x : Int) (h : Kept W p s) (hf : Frees W [.regs, .ang]) :
    Kept W p (State.slotAim s k x) := by
  unfold State.slotAim
  with_reducible repeat' (first
      | assumption | exact hf.sub rfl | apply State.setAngSlot_kept
      | (intro x; first | (refine kept_cut (W := W) (p := p) (v := x) ?_ (fun hx => ?_) <;> [simp only [x]; clear_value x]) | skip)
      | split | lift_lets)

theorem State.slotsAim_kept (s : State) (n : Nat) (h : Kept W p s) (hf : Frees W [.regs, .ang]) :
    Kept W p (State.slotsAim s n) := by
  unfold State.slotsAim
  with_reducible repeat' (first
      | assumption | exact hf.sub rfl | apply State.slotAim_kept | apply forEach_kept | intro x)

theorem State.slotsUnpredict_kept (s : State) (n : Nat) (h : Kept W p s) (hf : Frees W [.regs, .ang]) :
    Kept W p (State.slotsUnpredict s n) := by
  unfold State.slotsUnpredict
  with_reducible repeat' (first
      | assumption | exact hf.sub rfl | apply State.setAngSlot_kept | apply forEach_kept
      | (intro x; first | (refine kept_cut (W := W) (p := p) (v := x) ?_ (fun hx => ?_) <;> [simp only [x]; clear_value x]) | skip)
      | lift_lets)

theorem State.loopTrigger_kept (s : State) (n : Nat) (h : Kept W p s) (hf : Frees W [.lpe]) :
    Kept W p (State.loopTrigger s n) := by
  unfold State.loopTrigger
  with_reducible repeat' (first
      | assumption | exact hf.sub rfl | apply State.lCount_kept | apply State.setLoopRt_kept
      | (intro x; first | (refine kept_cut (W := W) (p := p) (v := x) ?_ (fun hx => ?_) <;> [simp only [x]; clear_value x]) | skip)
      | split | lift_lets)

theorem State.slotSnap_kept (s : State) (k : Nat) (w : Nat) (h : Kept W p s) (hf : Frees W [.mem, .ecc, .forceQ, .seq]) :
    Kept W p (State.slotSnap s k w) := by
  unfold State.slotSnap
  with_reducible repeat' (first
      | assumption | exact hf.sub rfl | apply State.imgWrite_kept | apply State.keepBefore_kept
      | (intro x; first | (refine kept_cut (W := W) (p := p) (v := x) ?_ (fun hx => ?_) <;> [simp only [x]; clear_value x]) | skip)
      | split | lift_lets)

theorem State.slotAction_kept (s : State) (k : Nat) (h : Kept W p s) (hf : Frees W [.regs, .mem, .ecc, .recd, .evd, .flt, .tly, .forceQ, .lastRec, .dio, .lpe, .ax, .seq, .free]) :
    Kept W p (State.slotAction s k) := by
  unfold State.slotAction
  with_reducible repeat' (first
      | assumption | exact hf.sub rfl | apply State.axBurst_kept | apply State.dioAngle_kept
      | apply State.loopTrigger_kept | apply State.slotSnap_kept | apply forEach_kept
      | (intro x; first | (refine kept_cut (W := W) (p := p) (v := x) ?_ (fun hx => ?_) <;> [simp only [x]; clear_value x]) | skip)
      | split | lift_lets)

theorem State.slotLate_kept (s : State) (k : Nat) (cause : Nat) (late : Nat) (h : Kept W p s) (hf : Frees W [.regs, .recd, .evd, .flt, .tly, .lastRec, .free]) :
    Kept W p (State.slotLate s k cause late) := by
  unfold State.slotLate
  with_reducible repeat' (first
      | assumption | exact hf.sub rfl | apply State.incMod_kept | apply State.markRecord_kept | apply State.put_kept
      | apply State.raise_kept | apply State.setFault_kept
      | (intro x; first | (refine kept_cut (W := W) (p := p) (v := x) ?_ (fun hx => ?_) <;> [simp only [x]; clear_value x]) | skip)
      | split | lift_lets)

theorem State.slotIssue_kept (s : State) (k : Nat) (cause : Nat) (h : Kept W p s) (hf : Frees W [.regs, .mem, .ecc, .recd, .evd, .flt, .tly, .forceQ, .lastRec, .dio, .lpe, .ax, .ang, .sync, .seq, .free]) :
    Kept W p (State.slotIssue s k cause) := by
  unfold State.slotIssue
  with_reducible repeat' (first
      | assumption | exact hf.sub rfl | apply State.event_kept | apply State.incMod_kept | apply State.put_kept
      | apply State.slotAction_kept | apply State.slotAim_kept | apply State.slotArmed_kept | apply State.slotLate_kept
      | (intro x; first | (refine kept_cut (W := W) (p := p) (v := x) ?_ (fun hx => ?_) <;> [simp only [x]; clear_value x]) | skip)
      | split | lift_lets | refine Kept.setSync ?_ (hf.sub rfl) _)

theorem State.slotsRefine_kept (s : State) (n : Nat) (h : Kept W p s) (hf : Frees W [.regs, .mem, .ecc, .recd, .evd, .flt, .tly, .forceQ, .lastRec, .dio, .lpe, .ax, .ang, .sync, .seq, .free]) :
    Kept W p (State.slotsRefine s n) := by
  unfold State.slotsRefine
  with_reducible repeat' (first
      | assumption | exact hf.sub rfl | apply State.setAngSlot_kept | apply State.slotIssue_kept | apply forEach_kept
      | (intro x; first | (refine kept_cut (W := W) (p := p) (v := x) ?_ (fun hx => ?_) <;> [simp only [x]; clear_value x]) | skip)
      | split | lift_lets)

theorem State.closeRefine_kept (s : State) (n : Nat) (h : Kept W p s) (hf : Frees W [.regs, .ang]) :
    Kept W p (State.closeRefine s n) := by
  unfold State.closeRefine
  with_reducible repeat' (first
      | assumption | exact hf.sub rfl | apply State.setAngSlot_kept
      | (intro x; first | (refine kept_cut (W := W) (p := p) (v := x) ?_ (fun hx => ?_) <;> [simp only [x]; clear_value x]) | skip)
      | split | lift_lets)

theorem State.setSync_kept (s : State) (r : SyncRt) (h : Kept W p s) (hf : Frees W [.sync]) :
    Kept W p (State.setSync s r) := by
  unfold State.setSync
  with_reducible repeat' (first
      | assumption | exact hf.sub rfl
      | (intro x; first | (refine kept_cut (W := W) (p := p) (v := x) ?_ (fun hx => ?_) <;> [simp only [x]; clear_value x]) | skip)
      | lift_lets | refine Kept.setSync ?_ (hf.sub rfl) _)

theorem State.setSyncState_kept (s : State) (st : Nat) (h : Kept W p s) (hf : Frees W [.regs, .recd, .evd, .flt, .tly, .free]) :
    Kept W p (State.setSyncState s st) := by
  unfold State.setSyncState
  with_reducible repeat' (first
      | assumption | exact hf.sub rfl | apply State.event_kept | apply State.putB_kept | apply State.put_kept
      | apply State.raise_kept
      | (intro x; first | (refine kept_cut (W := W) (p := p) (v := x) ?_ (fun hx => ?_) <;> [simp only [x]; clear_value x]) | skip)
      | split | lift_lets)

theorem State.syncAbort_kept (s : State) (reason : Nat) (h : Kept W p s) (hf : Frees W [.regs, .recd, .evd, .flt, .tly, .ang, .free]) :
    Kept W p (State.syncAbort s reason) := by
  unfold State.syncAbort
  with_reducible repeat' (first
      | assumption | exact hf.sub rfl | apply State.put_kept | apply State.raise_kept | apply State.setFault_kept
      | apply State.setSyncState_kept | apply State.slotArmed_kept
      | (intro x; first | (refine kept_cut (W := W) (p := p) (v := x) ?_ (fun hx => ?_) <;> [simp only [x]; clear_value x]) | skip)
      | split | lift_lets)

theorem State.srcSpeedOut_kept (s : State) (n : Nat) (v : Word) (q : Quality) (h : Kept W p s) (hf : Frees W [.mem, .ecc, .forceQ]) :
    Kept W p (State.srcSpeedOut s n v q) := by
  unfold State.srcSpeedOut
  with_reducible repeat' (first | assumption | exact hf.sub rfl | apply State.imgWriteWord_kept | intro x | split)

theorem State.imgAgainBad_kept (s : State) (valid : Fld) (index : Fld) (page : Nat) (h : Kept W p s) (hf : Frees W [.mem, .ecc, .forceQ]) :
    Kept W p (State.imgAgainBad s valid index page) := by
  unfold State.imgAgainBad
  with_reducible repeat' (first | assumption | exact hf.sub rfl | apply State.imgWrite_kept | intro x | split)

theorem State.setSrcState_kept (s : State) (n : Nat) (st : Nat) (h : Kept W p s) (hf : Frees W [.regs, .mem, .ecc, .recd, .evd, .flt, .tly, .forceQ, .ang, .free]) :
    Kept W p (State.setSrcState s n st) := by
  unfold State.setSrcState
  with_reducible repeat' (first
      | assumption | exact hf.sub rfl | apply State.event_kept | apply State.imgAgainBad_kept | apply State.put_kept
      | apply State.raise_kept | apply State.setFault_kept | apply State.slotsAim_kept | apply State.syncAbort_kept
      | (intro x; first | (refine kept_cut (W := W) (p := p) (v := x) ?_ (fun hx => ?_) <;> [simp only [x]; clear_value x]) | skip)
      | split | lift_lets)

theorem State.srcLost_kept (s : State) (n : Nat) (h : Kept W p s) (hf : Frees W [.regs, .mem, .ecc, .recd, .evd, .flt, .tly, .forceQ, .asrc, .ang, .free]) :
    Kept W p (State.srcLost s n) := by
  unfold State.srcLost
  with_reducible repeat' (first
      | assumption | exact hf.sub rfl | apply State.setAsrcRt_kept | apply State.setSrcState_kept
      | (intro x; first | (refine kept_cut (W := W) (p := p) (v := x) ?_ (fun hx => ?_) <;> [simp only [x]; clear_value x]) | skip)
      | lift_lets)

theorem State.srcPitch_kept (s : State) (n : Nat) (h : Kept W p s) (hf : Frees W [.regs, .mem, .ecc, .forceQ, .asrc]) :
    Kept W p (State.srcPitch s n) := by
  unfold State.srcPitch
  with_reducible repeat' (first
      | assumption | exact hf.sub rfl | apply State.putB_kept | apply State.setAsrcRt_kept | apply State.setReg_kept
      | apply State.srcSpeedOut_kept
      | (intro x; first | (refine kept_cut (W := W) (p := p) (v := x) ?_ (fun hx => ?_) <;> [simp only [x]; clear_value x]) | skip)
      | split | lift_lets)

theorem State.srcAt_kept (s : State) (n : Nat) (c : Int) (t : Nat) (h : Kept W p s) (hf : Frees W [.regs, .asrc]) :
    Kept W p (State.srcAt s n c t) := by
  unfold State.srcAt
  with_reducible repeat' (first
      | assumption | exact hf.sub rfl | apply State.put_kept | apply State.setAsrcRt_kept
      | (intro x; first | (refine kept_cut (W := W) (p := p) (v := x) ?_ (fun hx => ?_) <;> [simp only [x]; clear_value x]) | skip)
      | lift_lets)

theorem State.srcReference_kept (s : State) (n : Nat) (d : Int) (off : Int) (h : Kept W p s) (hf : Frees W [.regs, .mem, .ecc, .recd, .evd, .flt, .tly, .forceQ, .asrc, .ang, .free]) :
    Kept W p (State.srcReference s n d off) := by
  unfold State.srcReference
  with_reducible repeat' (first
      | assumption | exact hf.sub rfl | apply State.incMod_kept | apply State.put_kept | apply State.raise_kept
      | apply State.setAsrcRt_kept | apply State.setFault_kept | apply State.setSrcState_kept | apply State.srcAt_kept
      | apply State.srcLost_kept
      | (intro x; first | (refine kept_cut (W := W) (p := p) (v := x) ?_ (fun hx => ?_) <;> [simp only [x]; clear_value x]) | skip)
      | split | lift_lets)

theorem State.srcReverse_kept (s : State) (n : Nat) (astern : Bool) (h : Kept W p s) (hf : Frees W [.regs, .recd, .evd, .flt, .tly, .asrc, .ang, .free]) :
    Kept W p (State.srcReverse s n astern) := by
  unfold State.srcReverse
  with_reducible repeat' (first
      | assumption | exact hf.sub rfl | apply State.putB_kept | apply State.raise_kept | apply State.setAsrcRt_kept
      | apply State.slotsAim_kept
      | (intro x; first | (refine kept_cut (W := W) (p := p) (v := x) ?_ (fun hx => ?_) <;> [simp only [x]; clear_value x]) | skip)
      | lift_lets)

theorem State.srcWake_kept (s : State) (n : Nat) (h : Kept W p s) (hf : Frees W [.regs, .mem, .ecc, .recd, .evd, .flt, .tly, .forceQ, .asrc, .ang, .free]) :
    Kept W p (State.srcWake s n) := by
  unfold State.srcWake
  with_reducible repeat' (first
      | assumption | exact hf.sub rfl | apply State.put_kept | apply State.raise_kept | apply State.setAsrcRt_kept
      | apply State.setSrcState_kept
      | (intro x; first | (refine kept_cut (W := W) (p := p) (v := x) ?_ (fun hx => ?_) <;> [simp only [x]; clear_value x]) | skip)
      | split | lift_lets)

theorem State.srcGap_kept (s : State) (n : Nat) (dt : Nat) (astern : Bool) (h : Kept W p s) (hf : Frees W [.regs, .mem, .ecc, .recd, .evd, .flt, .tly, .forceQ, .asrc, .ang, .free]) :
    Kept W p (State.srcGap s n dt astern) := by
  unfold State.srcGap
  with_reducible repeat' (first
      | assumption | exact hf.sub rfl | apply State.setAsrcRt_kept | apply State.srcReference_kept
      | (intro x; first | (refine kept_cut (W := W) (p := p) (v := x) ?_ (fun hx => ?_) <;> [simp only [x]; clear_value x]) | skip)
      | split | lift_lets)

theorem State.srcCount_kept (s : State) (n : Nat) (fwd : Bool) (t : Nat) (h : Kept W p s) (hf : Frees W [.regs, .mem, .ecc, .recd, .evd, .flt, .tly, .forceQ, .lastRec, .dio, .lpe, .ax, .asrc, .ang, .sync, .seq, .free]) :
    Kept W p (State.srcCount s n fwd t) := by
  unfold State.srcCount
  with_reducible repeat' (first
      | assumption | exact hf.sub rfl | apply State.setAsrcRt_kept | apply State.slotsRefine_kept
      | apply State.srcAt_kept | apply State.srcGap_kept | apply State.srcPitch_kept | apply State.srcReference_kept
      | apply State.srcReverse_kept | apply State.srcWake_kept
      | (intro x; first | (refine kept_cut (W := W) (p := p) (v := x) ?_ (fun hx => ?_) <;> [simp only [x]; clear_value x]) | skip)
      | split | lift_lets)

theorem State.setCloseAngle_kept (s : State) (k : Nat) (w : Word) (h : Kept W p s) (hf : Frees W [.regs, .shad, .buf]) :
    Kept W p (State.setCloseAngle s k w) := by
  unfold State.setCloseAngle
  with_reducible repeat' (first
      | assumption | exact hf.sub rfl | apply State.setReg_kept | apply State.setShadow_kept
      | (intro x; first | (refine kept_cut (W := W) (p := p) (v := x) ?_ (fun hx => ?_) <;> [simp only [x]; clear_value x]) | skip)
      | split | lift_lets | refine Kept.setBuf ?_ (hf.sub rfl) _)

theorem State.syncWatch_kept (s : State) (h : Kept W p s) (hf : Frees W [.regs, .recd, .evd, .flt, .tly, .ang, .sync, .free]) :
    Kept W p (State.syncWatch s) := by
  unfold State.syncWatch
  with_reducible repeat' (first
      | assumption | exact hf.sub rfl | apply State.setSyncState_kept | apply State.setSync_kept
      | apply State.syncAbort_kept
      | (intro x; first | (refine kept_cut (W := W) (p := p) (v := x) ?_ (fun hx => ?_) <;> [simp only [x]; clear_value x]) | skip)
      | split | lift_lets)

theorem State.syncOut_kept (s : State) (k : Nat) (v : Word) (h : Kept W p s) (hf : Frees W [.mem, .ecc, .forceQ]) :
    Kept W p (State.syncOut s k v) := by
  unfold State.syncOut
  with_reducible repeat' (first | assumption | exact hf.sub rfl | apply State.imgWriteWord_kept | intro x | split)

theorem State.syncEvaluate_kept (s : State) (h : Kept W p s) (hf : Frees W [.regs, .shad, .buf, .mem, .ecc, .recd, .evd, .flt, .tly, .forceQ, .ang, .sync, .free]) :
    Kept W p (State.syncEvaluate s) := by
  unfold State.syncEvaluate
  extract_lets r t phi slip dt ds dv s1 s2 deg s3 s4 st lim
  have h1 : Kept W p s1 := State.setSync_kept _ _ h (hf.sub rfl)
  have h2 : Kept W p s2 := State.setReg_kept _ _ _ _ _ (State.setReg_kept _ _ _ _ _ (State.put_kept _ _ _ _ _ h1 (hf.sub rfl))
    (hf.sub rfl)) (hf.sub rfl)
  have h3 : Kept W p s3 := State.syncOut_kept _ _ _ (State.syncOut_kept _ _ _ (State.syncOut_kept _ _ _
    (State.syncOut_kept _ _ _ h2 (hf.sub rfl)) (hf.sub rfl)) (hf.sub rfl)) (hf.sub rfl)
  have h4 : Kept W p s4 := State.syncWatch_kept _ h3 (hf.sub rfl)
  generalize s4 = u at h4 ⊢
  split
  · split
    · with_reducible repeat' (first
      | assumption | exact hf.sub rfl | apply State.put_kept | apply State.setAngSlot_kept
      | apply State.setCloseAngle_kept | apply State.setReg_kept | apply State.setSyncState_kept
      | apply State.setSync_kept | apply State.slotArmed_kept | apply State.syncOut_kept | apply State.syncWatch_kept
      | (intro x; first | (refine kept_cut (W := W) (p := p) (v := x) ?_ (fun hx => ?_) <;> [simp only [x]; clear_value x]) | skip)
      | split | lift_lets)
    · dsimp only
      with_reducible repeat' (first
      | assumption | exact hf.sub rfl | apply State.put_kept | apply State.setAngSlot_kept
      | apply State.setCloseAngle_kept | apply State.setReg_kept | apply State.setSyncState_kept
      | apply State.setSync_kept | apply State.slotArmed_kept | apply State.syncOut_kept | apply State.syncWatch_kept
      | (intro x; first | (refine kept_cut (W := W) (p := p) (v := x) ?_ (fun hx => ?_) <;> [simp only [x]; clear_value x]) | skip)
      | split | lift_lets)
  · exact h4

theorem State.asrcRun_kept (s : State) (n : Nat) (h : Kept W p s) (hf : Frees W [.regs, .mem, .ecc, .recd, .evd, .flt, .tly, .forceQ, .asrc, .ang, .free]) :
    Kept W p (State.asrcRun s n) := by
  unfold State.asrcRun
  with_reducible repeat' (first
      | assumption | exact hf.sub rfl | apply State.put_kept | apply State.raise_kept | apply State.refreshState_kept
      | apply State.setAsrcRt_kept | apply State.setFault_kept | apply State.setSrcState_kept
      | (intro x; first | (refine kept_cut (W := W) (p := p) (v := x) ?_ (fun hx => ?_) <;> [simp only [x]; clear_value x]) | skip)
      | split | lift_lets)

theorem State.asrcHalt_kept (s : State) (n : Nat) (h : Kept W p s) (hf : Frees W [.regs, .mem, .ecc, .recd, .evd, .flt, .tly, .forceQ, .ang, .free]) :
    Kept W p (State.asrcHalt s n) := by
  unfold State.asrcHalt
  with_reducible repeat' (first
      | assumption | exact hf.sub rfl | apply State.put_kept | apply State.refreshState_kept
      | apply State.setSrcState_kept | intro x)

theorem State.slotApplied_kept (s : State) (k : Nat) (h : Kept W p s) (hf : Frees W [.regs, .ang]) :
    Kept W p (State.slotApplied s k) := by
  unfold State.slotApplied
  with_reducible repeat' (first
      | assumption | exact hf.sub rfl | apply State.slotAim_kept | apply State.slotArmed_kept
      | (intro x; first | (refine kept_cut (W := W) (p := p) (v := x) ?_ (fun hx => ?_) <;> [simp only [x]; clear_value x]) | skip)
      | split | lift_lets)

theorem State.slotsGone_kept (s : State) (rejected : Bool) (h : Kept W p s) (hf : Frees W [.regs, .ang]) :
    Kept W p (State.slotsGone s rejected) := by
  unfold State.slotsGone
  with_reducible repeat' (first
      | assumption | exact hf.sub rfl | apply State.setAngSlot_kept | apply forEach_kept
      | (intro x; first | (refine kept_cut (W := W) (p := p) (v := x) ?_ (fun hx => ?_) <;> [simp only [x]; clear_value x]) | skip)
      | lift_lets)

theorem State.angRun_kept (s : State) (h : Kept W p s) (hf : Frees W [.regs, .recd, .evd, .flt, .tly, .ang, .free]) :
    Kept W p (State.angRun s) := by
  unfold State.angRun
  with_reducible repeat' (first
      | assumption | exact hf.sub rfl | apply State.put_kept | apply State.refreshState_kept
      | apply State.setSyncState_kept | apply State.slotApplied_kept | apply forEach_kept
      | (intro x; first | (refine kept_cut (W := W) (p := p) (v := x) ?_ (fun hx => ?_) <;> [simp only [x]; clear_value x]) | skip)
      | lift_lets)

theorem State.angHalt_kept (s : State) (h : Kept W p s) (hf : Frees W [.regs, .recd, .evd, .flt, .tly, .ang, .free]) :
    Kept W p (State.angHalt s) := by
  unfold State.angHalt
  with_reducible repeat' (first
      | assumption | exact hf.sub rfl | apply State.put_kept | apply State.refreshState_kept
      | apply State.setSyncState_kept | apply State.slotArmed_kept | apply forEach_kept
      | (intro x; first | (refine kept_cut (W := W) (p := p) (v := x) ?_ (fun hx => ?_) <;> [simp only [x]; clear_value x]) | skip)
      | lift_lets)

theorem execWire_kept (n : Fin 4) (stands : Bool) (s : State) (h : Kept W p s) (hf : Frees W [.regs, .mem, .ecc, .recd, .evd, .flt, .tly, .forceQ, .asrc, .ang, .free]) :
    OutKept W p (execWire n stands s) := by
  unfold execWire
  with_reducible repeat' (first
      | assumption | exact hf.sub rfl | apply State.cond_kept | apply State.raise_kept | apply State.setFault_kept
      | apply State.srcLost_kept | apply OutKept.next | intro x | split)

theorem execStandstill_kept (n : Fin 4) (s : State) (h : Kept W p s) (hf : Frees W [.regs, .mem, .ecc, .recd, .evd, .flt, .tly, .forceQ, .asrc, .ang, .free]) :
    OutKept W p (execStandstill n s) := by
  unfold execStandstill
  with_reducible repeat' (first
      | assumption | exact hf.sub rfl | apply State.raise_kept | apply State.setAsrcRt_kept | apply State.setReg_kept
      | apply State.setSrcState_kept | apply State.slotsUnpredict_kept | apply State.srcSpeedOut_kept
      | apply OutKept.next
      | (intro x; first | (refine kept_cut (W := W) (p := p) (v := x) ?_ (fun hx => ?_) <;> [simp only [x]; clear_value x]) | skip)
      | split | lift_lets)

theorem State.srcCross_kept (s : State) (n : Nat) (vrms : Word) (pll : PllOut) (h : Kept W p s) (hf : Frees W [.regs, .shad, .buf, .mem, .ecc, .recd, .evd, .flt, .tly, .forceQ, .lastRec, .dio, .lpe, .ax, .asrc, .ang, .sync, .seq, .free]) :
    Kept W p (State.srcCross s n vrms pll) := by
  unfold State.srcCross
  with_reducible repeat' (first
      | assumption | exact hf.sub rfl | apply State.closeRefine_kept | apply State.imgWriteWord_kept
      | apply State.put_kept | apply State.setAsrcRt_kept | apply State.setReg_kept | apply State.setSrcState_kept
      | apply State.slotsRefine_kept | apply State.srcLost_kept | apply State.srcSpeedOut_kept
      | apply State.syncEvaluate_kept | apply State.syncWatch_kept
      | (intro x; first | (refine kept_cut (W := W) (p := p) (v := x) ?_ (fun hx => ?_) <;> [simp only [x]; clear_value x]) | skip)
      | split | lift_lets)

theorem execMainsCrossing_kept (j : Fin 4) (vrms phase4 : Word) (w4 : BitVec 64) (phase5 : Word) (w5 : BitVec 64) (s : State) (h : Kept W p s) (hf : Frees W [.regs, .shad, .buf, .mem, .ecc, .recd, .evd, .flt, .tly, .forceQ, .lastRec, .dio, .lpe, .ax, .asrc, .ang, .sync, .seq, .free]) :
    OutKept W p (execMainsCrossing j vrms phase4 w4 phase5 w5 s) := by
  unfold execMainsCrossing
  with_reducible repeat' (first
      | assumption | exact hf.sub rfl | apply State.srcCross_kept | apply OutKept.next
      | (intro x; first | (refine kept_cut (W := W) (p := p) (v := x) ?_ (fun hx => ?_) <;> [simp only [x]; clear_value x]) | skip)
      | split | lift_lets)

theorem execMainsSignalLost_kept (i : Fin 2) (s : State) (h : Kept W p s) (hf : Frees W [.regs, .mem, .ecc, .recd, .evd, .flt, .tly, .forceQ, .asrc, .ang, .sync, .free]) :
    OutKept W p (execMainsSignalLost i s) := by
  unfold execMainsSignalLost
  with_reducible repeat' (first
      | assumption | exact hf.sub rfl | apply State.srcLost_kept | apply State.syncWatch_kept | apply OutKept.next
      | (intro x; first | (refine kept_cut (W := W) (p := p) (v := x) ?_ (fun hx => ?_) <;> [simp only [x]; clear_value x]) | skip)
      | split | lift_lets)

theorem execAngleRead_kept (n : Fin 6) (s : State) (h : Kept W p s) (hf : Frees W [.regs, .bus]) :
    OutKept W p (execAngleRead n s) := by
  unfold execAngleRead
  with_reducible repeat' (first
      | assumption | exact hf.sub rfl | apply State.answer_kept | apply State.put_kept | apply OutKept.next
      | (intro x; first | (refine kept_cut (W := W) (p := p) (v := x) ?_ (fun hx => ?_) <;> [simp only [x]; clear_value x]) | skip)
      | split | lift_lets)

theorem execSlotArm_kept (m : Fin 4) (s : State) (h : Kept W p s) (hf : Frees W [.regs, .boot, .recd, .evd, .flt, .tly, .ang, .free]) :
    OutKept W p (execSlotArm m s) := by
  unfold execSlotArm
  with_reducible repeat' (first
      | assumption | exact hf.sub rfl | apply State.action_kept | apply State.slotApplied_kept | apply OutKept.next
      | (intro x; first | (refine kept_cut (W := W) (p := p) (v := x) ?_ (fun hx => ?_) <;> [simp only [x]; clear_value x]) | skip)
      | split | lift_lets)

theorem execSlotDisarm_kept (m : Fin 4) (s : State) (h : Kept W p s) (hf : Frees W [.regs, .boot, .recd, .evd, .flt, .tly, .ang, .free]) :
    OutKept W p (execSlotDisarm m s) := by
  unfold execSlotDisarm
  with_reducible repeat' (first
      | assumption | exact hf.sub rfl | apply State.action_kept | apply State.slotArmed_kept | apply OutKept.next
      | (intro x; first | (refine kept_cut (W := W) (p := p) (v := x) ?_ (fun hx => ?_) <;> [simp only [x]; clear_value x]) | skip)
      | split | lift_lets)

theorem execActionIssue_kept (k : Fin 256) (busy : Bool) (s : State) (h : Kept W p s) (hf : Frees W [.regs, .mem, .ecc, .recd, .evd, .flt, .tly, .forceQ, .lastRec, .dio, .lpe, .ax, .ang, .sync, .seq, .free]) :
    OutKept W p (execActionIssue k busy s) := by
  unfold execActionIssue
  with_reducible repeat' (first
      | assumption | exact hf.sub rfl | apply State.slotIssue_kept | apply OutKept.next
      | (intro x; first | (refine kept_cut (W := W) (p := p) (v := x) ?_ (fun hx => ?_) <;> [simp only [x]; clear_value x]) | skip)
      | split | lift_lets)

theorem execSyncRequest_kept (s : State) (h : Kept W p s) (hf : Frees W [.regs, .recd, .evd, .flt, .tly, .ang, .sync, .free]) :
    OutKept W p (execSyncRequest s) := by
  unfold execSyncRequest
  with_reducible repeat' (first
      | assumption | exact hf.sub rfl | apply State.put_kept | apply State.setSyncState_kept | apply State.setSync_kept
      | apply State.syncAbort_kept | apply OutKept.next
      | (intro x; first | (refine kept_cut (W := W) (p := p) (v := x) ?_ (fun hx => ?_) <;> [simp only [x]; clear_value x]) | skip)
      | split | lift_lets)

theorem execSyncFreeze_kept (s : State) (h : Kept W p s) (hf : Frees W [.regs, .recd, .evd, .flt, .tly, .ang, .sync, .free]) :
    OutKept W p (execSyncFreeze s) := by
  unfold execSyncFreeze
  with_reducible repeat' (first
      | assumption | exact hf.sub rfl | apply State.setSyncState_kept | apply State.syncWatch_kept | apply OutKept.next
      | (intro x; first | (refine kept_cut (W := W) (p := p) (v := x) ?_ (fun hx => ?_) <;> [simp only [x]; clear_value x]) | skip)
      | split | lift_lets)

theorem execSyncClose_kept (s : State) (h : Kept W p s) (hf : Frees W [.regs, .recd, .evd, .flt, .tly, .dio, .ang, .sync, .free]) :
    OutKept W p (execSyncClose s) := by
  unfold execSyncClose
  with_reducible repeat' (first
      | assumption | exact hf.sub rfl | apply State.dioAngle_kept | apply State.event_kept | apply State.incMod_kept
      | apply State.put_kept | apply State.raise_kept | apply State.setSyncState_kept | apply State.setSync_kept
      | apply State.slotArmed_kept | apply State.syncWatch_kept | apply OutKept.next
      | (intro x; first | (refine kept_cut (W := W) (p := p) (v := x) ?_ (fun hx => ?_) <;> [simp only [x]; clear_value x]) | skip)
      | split | lift_lets)

theorem execSyncFeedback_kept (s : State) (h : Kept W p s) (hf : Frees W [.regs, .recd, .evd, .flt, .tly, .free]) :
    OutKept W p (execSyncFeedback s) := by
  unfold execSyncFeedback
  with_reducible repeat' (first
      | assumption | exact hf.sub rfl | apply State.put_kept | apply State.raise_kept | apply State.setSyncState_kept
      | apply OutKept.next
      | (intro x; first | (refine kept_cut (W := W) (p := p) (v := x) ?_ (fun hx => ?_) <;> [simp only [x]; clear_value x]) | skip)
      | split | lift_lets)

theorem execSyncPulseEnd_kept (s : State) (h : Kept W p s) (hf : Frees W [.regs, .recd, .evd, .flt, .tly, .dio, .sync, .free]) :
    OutKept W p (execSyncPulseEnd s) := by
  unfold execSyncPulseEnd
  with_reducible repeat' (first
      | assumption | exact hf.sub rfl | apply State.dioAngle_kept | apply State.setSyncState_kept
      | apply State.setSync_kept | apply OutKept.next
      | (intro x; first | (refine kept_cut (W := W) (p := p) (v := x) ?_ (fun hx => ?_) <;> [simp only [x]; clear_value x]) | skip)
      | split | lift_lets)

theorem execCbNoClose_kept (s : State) (h : Kept W p s) (hf : Frees W [.regs, .recd, .evd, .flt, .tly, .ang, .free]) :
    OutKept W p (execCbNoClose s) := by
  unfold execCbNoClose
  with_reducible repeat' (first
      | assumption | exact hf.sub rfl | apply State.syncAbort_kept | apply OutKept.next | intro x | split)

theorem execSyncTmo_kept (s : State) (h : Kept W p s) (hf : Frees W [.regs, .recd, .evd, .flt, .tly, .ang, .free]) :
    OutKept W p (execSyncTmo s) := by
  unfold execSyncTmo
  with_reducible repeat' (first
      | assumption | exact hf.sub rfl | apply State.syncAbort_kept | apply OutKept.next | intro x | split)

/-! ### Ax -/

theorem State.axNewRatio_kept (s : State) (n : Nat) (q : Int × Nat) (h : Kept W p s) (hf : Frees W [.ax]) :
    Kept W p (State.axNewRatio s n q) := by
  unfold State.axNewRatio
  with_reducible repeat' (first
      | assumption | exact hf.sub rfl | apply State.setAxRt_kept
      | (intro x; first | (refine kept_cut (W := W) (p := p) (v := x) ?_ (fun hx => ?_) <;> [simp only [x]; clear_value x]) | skip)
      | split | lift_lets)

theorem State.axTakeOne_kept (s : State) (o : OutVal) (n : Nat) (h : Kept W p s) (hf : Frees W [.ax]) :
    Kept W p (State.axTakeOne s o n) := by
  unfold State.axTakeOne
  with_reducible repeat' (first
      | assumption | exact hf.sub rfl | apply State.axNewRatio_kept | apply State.setAxRt_kept
      | (intro x; first | (refine kept_cut (W := W) (p := p) (v := x) ?_ (fun hx => ?_) <;> [simp only [x]; clear_value x]) | skip)
      | split | lift_lets)

theorem State.axApply_kept (s : State) (o : OutVal) (h : Kept W p s) (hf : Frees W [.ax]) :
    Kept W p (State.axApply s o) := by
  unfold State.axApply
  with_reducible repeat' (first
      | assumption | exact hf.sub rfl | apply State.axTakeOne_kept | apply forEach_kept | intro x)

theorem State.axTake_kept (s : State) (i : Nat) (h : Kept W p s) (hf : Frees W [.ax]) :
    Kept W p (State.axTake s i) := by
  unfold State.axTake
  with_reducible repeat' (first | assumption | exact hf.sub rfl | apply State.axApply_kept | intro x)

theorem State.axRatioApplied_kept (s : State) (n : Nat) (h : Kept W p s) (hf : Frees W [.ax]) :
    Kept W p (State.axRatioApplied s n) := by
  unfold State.axRatioApplied
  with_reducible repeat' (first | assumption | exact hf.sub rfl | apply State.axNewRatio_kept | intro x | split)

theorem State.axWriteBack_kept (s : State) (n : Nat) (h : Kept W p s) (hf : Frees W [.mem, .ecc, .forceQ]) :
    Kept W p (State.axWriteBack s n) := by
  unfold State.axWriteBack
  with_reducible repeat' (first
      | assumption | exact hf.sub rfl | apply State.imgWrite_kept
      | (intro x; first | (refine kept_cut (W := W) (p := p) (v := x) ?_ (fun hx => ?_) <;> [simp only [x]; clear_value x]) | skip)
      | split | lift_lets)

theorem State.axSeeBell_kept (s : State) (n : Nat) (h : Kept W p s) (hf : Frees W [.ax]) :
    Kept W p (State.axSeeBell s n) := by
  unfold State.axSeeBell
  with_reducible repeat' (first
      | assumption | exact hf.sub rfl | apply State.setAxRt_kept
      | (intro x; first | (refine kept_cut (W := W) (p := p) (v := x) ?_ (fun hx => ?_) <;> [simp only [x]; clear_value x]) | skip)
      | split | lift_lets)

theorem State.axFollow_kept (s : State) (n : Nat) (h : Kept W p s) (hf : Frees W [.regs, .recd, .evd, .flt, .tly, .ax, .free]) :
    Kept W p (State.axFollow s n) := by
  unfold State.axFollow
  with_reducible repeat' (first
      | assumption | exact hf.sub rfl | apply State.axPlace_kept | apply State.axSeeBell_kept | apply State.put_kept
      | apply State.raise_kept | apply State.setAxRt_kept
      | (intro x; first | (refine kept_cut (W := W) (p := p) (v := x) ?_ (fun hx => ?_) <;> [simp only [x]; clear_value x]) | skip)
      | split | lift_lets)

theorem State.axGearIn_kept (s : State) (n : Nat) (h : Kept W p s) (hf : Frees W [.regs, .recd, .evd, .flt, .tly, .ax, .free]) :
    Kept W p (State.axGearIn s n) := by
  unfold State.axGearIn
  with_reducible repeat' (first
      | assumption | exact hf.sub rfl | apply State.axGo_kept | apply State.setAxRt_kept
      | (intro x; first | (refine kept_cut (W := W) (p := p) (v := x) ?_ (fun hx => ?_) <;> [simp only [x]; clear_value x]) | skip)
      | split | lift_lets)

theorem State.gearLost_kept (s : State) (n : Nat) (h : Kept W p s) (hf : Frees W [.regs, .recd, .evd, .flt, .tly, .ax, .free]) :
    Kept W p (State.gearLost s n) := by
  unfold State.gearLost
  with_reducible repeat' (first
      | assumption | exact hf.sub rfl | apply State.axStop_kept | apply State.raise_kept | apply State.setFault_kept
      | intro x | split)

theorem State.axRested_kept (s : State) (n : Nat) (h : Kept W p s) (hf : Frees W [.regs, .recd, .evd, .flt, .tly, .ax, .free]) :
    Kept W p (State.axRested s n) := by
  unfold State.axRested
  with_reducible repeat' (first
      | assumption | exact hf.sub rfl | apply State.axRelease_kept | apply State.axSetState_kept
      | apply State.axStand_kept
      | (intro x; first | (refine kept_cut (W := W) (p := p) (v := x) ?_ (fun hx => ?_) <;> [simp only [x]; clear_value x]) | skip)
      | split | lift_lets)

theorem State.axMoveUpdate_kept (s : State) (n : Nat) (h : Kept W p s) (hf : Frees W [.regs, .recd, .evd, .flt, .tly, .ax, .free]) :
    Kept W p (State.axMoveUpdate s n) := by
  unfold State.axMoveUpdate
  with_reducible repeat' (first
      | assumption | exact hf.sub rfl | apply State.axPlace_kept
      | (intro x; first | (refine kept_cut (W := W) (p := p) (v := x) ?_ (fun hx => ?_) <;> [simp only [x]; clear_value x]) | skip)
      | split | lift_lets)

theorem State.axUpdate_kept (s : State) (n : Nat) (h : Kept W p s) (hf : Frees W [.regs, .recd, .evd, .flt, .tly, .ax, .free]) :
    Kept W p (State.axUpdate s n) := by
  unfold State.axUpdate
  with_reducible repeat' (first
      | assumption | exact hf.sub rfl | apply State.axFollow_kept | apply State.axMoveUpdate_kept
      | apply State.axPlace_kept | apply State.axRested_kept | apply State.gearLost_kept
      | (intro x; first | (refine kept_cut (W := W) (p := p) (v := x) ?_ (fun hx => ?_) <;> [simp only [x]; clear_value x]) | skip)
      | split | lift_lets)

theorem State.axRefuse_kept (s : State) (n : Nat) (reason : Nat) (code : Nat) (h : Kept W p s) (hf : Frees W [.regs, .recd, .evd, .flt, .tly, .free]) :
    Kept W p (State.axRefuse s n reason code) := by
  unfold State.axRefuse
  with_reducible repeat' (first
      | assumption | exact hf.sub rfl | apply State.put_kept | apply State.raise_kept | apply State.setFault_kept
      | intro x)

theorem State.axObey_kept (s : State) (n : Nat) (code : Nat) (k : Nat) (t : Int) (h : Kept W p s) (hf : Frees W [.regs, .recd, .evd, .flt, .tly, .ax, .free]) :
    Kept W p (State.axObey s n code k t) := by
  unfold State.axObey
  with_reducible repeat' (first
      | assumption | exact hf.sub rfl | apply State.axGearIn_kept | apply State.axGo_kept
      | apply State.axHomeAbort_kept | apply State.axMove_kept | apply State.axStop_kept | apply State.put_kept
      | apply State.setAxRt_kept
      | (intro x; first | (refine kept_cut (W := W) (p := p) (v := x) ?_ (fun hx => ?_) <;> [simp only [x]; clear_value x]) | skip)
      | split | lift_lets)

theorem State.axDo_kept (s : State) (n : Nat) (code : Nat) (k : Nat) (h : Kept W p s) (hf : Frees W [.regs, .recd, .evd, .flt, .tly, .ax, .free]) :
    Kept W p (State.axDo s n code k) := by
  unfold State.axDo
  with_reducible repeat' (first
      | assumption | exact hf.sub rfl | apply State.axObey_kept | apply State.axRefuse_kept
      | (intro x; first | (refine kept_cut (W := W) (p := p) (v := x) ?_ (fun hx => ?_) <;> [simp only [x]; clear_value x]) | skip)
      | split | lift_lets)

theorem State.axWaiting_kept (s : State) (a2 : Nat) (h : Kept W p s) (hf : Frees W [.regs, .ax])
    {c k : Nat} {u : State} (e : State.axWaiting s a2 = some (c, k, u)) : Kept W p u := by
  simp only [State.axWaiting] at e
  split at e
  · split at e
    · cases e
    · cases e; with_reducible repeat' (first
      | assumption | exact hf.sub rfl | apply State.put_kept | apply State.setAxRt_kept
      | (intro x; first | (refine kept_cut (W := W) (p := p) (v := x) ?_ (fun hx => ?_) <;> [simp only [x]; clear_value x]) | skip)
      | split | lift_lets)
  · split at e
    · cases e; with_reducible repeat' (first
      | assumption | exact hf.sub rfl | apply State.put_kept | apply State.setAxRt_kept
      | (intro x; first | (refine kept_cut (W := W) (p := p) (v := x) ?_ (fun hx => ?_) <;> [simp only [x]; clear_value x]) | skip)
      | split | lift_lets)
    · cases e

theorem State.axCommand_kept (s : State) (a2 a3 : Nat) (h : Kept W p s) (hf : Frees W [.regs, .recd, .evd, .flt, .tly, .ax, .free]) :
    Kept W p (State.axCommand s a2 a3) := by
  unfold State.axCommand
  split
  · split
    · rename_i e
      have := State.axWaiting_kept s a2 h (hf.sub rfl) e
      split
      · exact State.axDo_kept _ _ _ _ this (hf.sub rfl)
      · exact h
    · exact h
  · exact h

theorem State.axBaseTick_kept (s : State) (a2 : Nat) (h : Kept W p s) (hf : Frees W [.regs, .mem, .ecc, .recd, .evd, .flt, .tly, .forceQ, .ax, .free]) :
    Kept W p (State.axBaseTick s a2) := by
  unfold State.axBaseTick
  split
  · exact h
  · apply State.axWriteBack_kept _ _ _ (hf.sub rfl)
    split
    · rename_i e
      have := State.axWaiting_kept s a2 h (hf.sub rfl) e
      split
      · exact this
      · split
        · exact State.axDo_kept _ _ _ _ this (hf.sub rfl)
        · exact h
    · exact h

theorem State.setAxSwitch_kept (s : State) (n : Nat) (sw : Nat) (w : AxSwitch) (h : Kept W p s) (hf : Frees W [.ax]) :
    Kept W p (State.setAxSwitch s n sw w) := by
  unfold State.setAxSwitch
  with_reducible repeat' (first
      | assumption | exact hf.sub rfl | apply State.setAxRt_kept
      | (intro x; first | (refine kept_cut (W := W) (p := p) (v := x) ?_ (fun hx => ?_) <;> [simp only [x]; clear_value x]) | skip)
      | lift_lets)

theorem State.axChat_kept (s : State) (n : Nat) (sw : Nat) (t : Nat) (h : Kept W p s) (hf : Frees W [.regs, .recd, .evd, .flt, .tly, .ax, .free]) :
    Kept W p (State.axChat s n sw t) := by
  unfold State.axChat
  with_reducible repeat' (first
      | assumption | exact hf.sub rfl | apply State.incSat_kept | apply State.raise_kept | apply State.setAxSwitch_kept
      | apply State.setFault_kept
      | (intro x; first | (refine kept_cut (W := W) (p := p) (v := x) ?_ (fun hx => ?_) <;> [simp only [x]; clear_value x]) | skip)
      | split | lift_lets)

theorem State.axSample_kept (s : State) (n : Nat) (sw : Nat) (h : Kept W p s) (hf : Frees W [.regs, .recd, .evd, .flt, .tly, .ax, .free]) :
    Kept W p (State.axSample s n sw) := by
  unfold State.axSample
  with_reducible repeat' (first
      | assumption | exact hf.sub rfl | apply State.axChat_kept | apply State.setAxSwitch_kept
      | (intro x; first | (refine kept_cut (W := W) (p := p) (v := x) ?_ (fun hx => ?_) <;> [simp only [x]; clear_value x]) | skip)
      | split | lift_lets)

theorem State.axSampleAll_kept (s : State) (n : Nat) (h : Kept W p s) (hf : Frees W [.regs, .recd, .evd, .flt, .tly, .ax, .free]) :
    Kept W p (State.axSampleAll s n) := by
  unfold State.axSampleAll
  with_reducible repeat' (first
      | assumption | exact hf.sub rfl | apply State.axSample_kept | apply forEach_kept | intro x | split)

theorem State.axChop_kept (s : State) (n : Nat) (h : Kept W p s) (hf : Frees W [.regs, .free]) :
    Kept W p (State.axChop s n) := by
  unfold State.axChop
  with_reducible repeat' (first
      | assumption | exact hf.sub rfl | apply State.put_kept | apply State.setReg_kept
      | (intro x; first | (refine kept_cut (W := W) (p := p) (v := x) ?_ (fun hx => ?_) <;> [simp only [x]; clear_value x]) | skip)
      | lift_lets | refine Kept.setFreeUses ?_ (hf.sub rfl) _)

theorem State.axCapture_kept (s : State) (n : Nat) (c : Int) (h : Kept W p s) (hf : Frees W [.regs, .ax]) :
    Kept W p (State.axCapture s n c) := by
  unfold State.axCapture
  with_reducible repeat' (first
      | assumption | exact hf.sub rfl | apply State.axPutPair_kept | apply State.setAxRt_kept
      | (intro x; first | (refine kept_cut (W := W) (p := p) (v := x) ?_ (fun hx => ?_) <;> [simp only [x]; clear_value x]) | skip)
      | lift_lets)

theorem State.axShift_kept (s : State) (n : Nat) (h : Kept W p s) (hf : Frees W [.regs, .recd, .evd, .flt, .tly, .ax, .free]) :
    Kept W p (State.axShift s n) := by
  unfold State.axShift
  with_reducible repeat' (first
      | assumption | exact hf.sub rfl | apply State.axMove_kept | apply State.axPutPair_kept | apply State.setAxRt_kept
      | (intro x; first | (refine kept_cut (W := W) (p := p) (v := x) ?_ (fun hx => ?_) <;> [simp only [x]; clear_value x]) | skip)
      | split | lift_lets)

theorem State.axHomeWatch_kept (s : State) (n : Nat) (h : Kept W p s) (hf : Frees W [.regs, .recd, .evd, .flt, .tly, .ax, .free]) :
    Kept W p (State.axHomeWatch s n) := by
  unfold State.axHomeWatch
  with_reducible repeat' (first
      | assumption | exact hf.sub rfl | apply State.axHomeAbort_kept
      | (intro x; first | (refine kept_cut (W := W) (p := p) (v := x) ?_ (fun hx => ?_) <;> [simp only [x]; clear_value x]) | skip)
      | split | lift_lets)

theorem State.axTick_kept (s : State) (h : Kept W p s) (hf : Frees W [.regs, .recd, .evd, .flt, .tly, .ax, .free]) :
    Kept W p (State.axTick s) := by
  unfold State.axTick
  with_reducible repeat' (first
      | assumption | exact hf.sub rfl | apply State.axChop_kept | apply State.axHomeWatch_kept
      | apply State.axSampleAll_kept | apply State.axShift_kept | apply State.axUpdate_kept | apply forEach_kept
      | (intro x; first | (refine kept_cut (W := W) (p := p) (v := x) ?_ (fun hx => ?_) <;> [simp only [x]; clear_value x]) | skip)
      | lift_lets)

theorem State.axIndex_kept (s : State) (src : Nat) (age : Nat) (h : Kept W p s) (hf : Frees W [.regs, .ax]) :
    Kept W p (State.axIndex s src age) := by
  unfold State.axIndex
  with_reducible repeat' (first
      | assumption | exact hf.sub rfl | apply State.axCapture_kept | apply forEach_kept | intro x)

theorem State.axEnable_kept (s : State) (n : Nat) (h : Kept W p s) (hf : Frees W [.regs, .recd, .evd, .flt, .tly, .ax, .free]) :
    Kept W p (State.axEnable s n) := by
  unfold State.axEnable
  with_reducible repeat' (first
      | assumption | exact hf.sub rfl | apply State.axAtTarget_kept | apply State.axSetState_kept
      | apply State.put_kept | apply State.setAxRt_kept
      | (intro x; first | (refine kept_cut (W := W) (p := p) (v := x) ?_ (fun hx => ?_) <;> [simp only [x]; clear_value x]) | skip)
      | split | lift_lets)

theorem State.axesStart_kept (s : State) (h : Kept W p s) (hf : Frees W [.regs, .recd, .evd, .flt, .tly, .ax, .free]) :
    Kept W p (State.axesStart s) := by
  unfold State.axesStart
  with_reducible repeat' (first
      | assumption | exact hf.sub rfl | apply State.axEnable_kept | apply forEach_kept | intro x)

theorem State.axRun_kept (s : State) (n : Nat) (h : Kept W p s) (hf : Frees W [.regs, .recd, .evd, .flt, .tly, .ax, .free]) :
    Kept W p (State.axRun s n) := by
  unfold State.axRun
  with_reducible repeat' (first
      | assumption | exact hf.sub rfl | apply State.axEnable_kept | apply State.put_kept | apply State.raise_kept
      | apply State.refreshState_kept | apply State.setFault_kept
      | (intro x; first | (refine kept_cut (W := W) (p := p) (v := x) ?_ (fun hx => ?_) <;> [simp only [x]; clear_value x]) | skip)
      | split | lift_lets)

theorem State.vmotShow_kept (s : State) (mv : Nat) (h : Kept W p s) (hf : Frees W [.regs]) :
    Kept W p (State.vmotShow s mv) := by
  unfold State.vmotShow
  with_reducible repeat' (first | assumption | exact hf.sub rfl | apply State.put_kept | apply forEach_kept | intro x)

theorem State.axVmotFault_kept (s : State) (sub : Nat) (mv : Nat) (h : Kept W p s) (hf : Frees W [.regs, .recd, .evd, .flt, .tly, .ax, .free]) :
    Kept W p (State.axVmotFault s sub mv) := by
  unfold State.axVmotFault
  with_reducible repeat' (first
      | assumption | exact hf.sub rfl | apply State.axFaulted_kept | apply State.cond_kept | apply State.put_kept
      | apply State.raise_kept | apply State.setFault_kept | apply forEach_kept
      | (intro x; first | (refine kept_cut (W := W) (p := p) (v := x) ?_ (fun hx => ?_) <;> [simp only [x]; clear_value x]) | skip)
      | lift_lets)

theorem execEncoderCount_kept (n : Fin 4) (ev : EncEvent) (age : Fin 21) (s : State) (h : Kept W p s) (hf : Frees W [.regs, .mem, .ecc, .recd, .evd, .flt, .tly, .forceQ, .lastRec, .dio, .lpe, .ax, .asrc, .ang, .sync, .seq, .free]) :
    OutKept W p (execEncoderCount n ev age s) := by
  unfold execEncoderCount
  with_reducible repeat' (first
      | assumption | exact hf.sub rfl | apply State.axIndex_kept | apply State.incMod_kept | apply State.raise_kept
      | apply State.setFault_kept | apply State.slotsRefine_kept | apply State.srcCount_kept | apply State.srcLost_kept
      | apply State.srcReference_kept | apply OutKept.next
      | (intro x; first | (refine kept_cut (W := W) (p := p) (v := x) ?_ (fun hx => ?_) <;> [simp only [x]; clear_value x]) | skip)
      | split | lift_lets)

theorem execMoveAbs_kept (n : Fin 8) (s : State) (h : Kept W p s) (hf : Frees W [.regs, .recd, .evd, .flt, .tly, .ax, .free]) :
    OutKept W p (execMoveAbs n s) := by
  unfold execMoveAbs
  with_reducible repeat' (first
      | assumption | exact hf.sub rfl | apply State.axCommand_kept | apply OutKept.next | intro x)

theorem execMoveRel_kept (n : Fin 8) (s : State) (h : Kept W p s) (hf : Frees W [.regs, .recd, .evd, .flt, .tly, .ax, .free]) :
    OutKept W p (execMoveRel n s) := by
  unfold execMoveRel
  with_reducible repeat' (first
      | assumption | exact hf.sub rfl | apply State.axCommand_kept | apply OutKept.next | intro x)

theorem execVelocity_kept (n : Fin 8) (s : State) (h : Kept W p s) (hf : Frees W [.regs, .recd, .evd, .flt, .tly, .ax, .free]) :
    OutKept W p (execVelocity n s) := by
  unfold execVelocity
  with_reducible repeat' (first
      | assumption | exact hf.sub rfl | apply State.axCommand_kept | apply OutKept.next | intro x)

theorem execAxisStop_kept (n : Fin 8) (s : State) (h : Kept W p s) (hf : Frees W [.regs, .recd, .evd, .flt, .tly, .ax, .free]) :
    OutKept W p (execAxisStop n s) := by
  unfold execAxisStop
  with_reducible repeat' (first
      | assumption | exact hf.sub rfl | apply State.axCommand_kept | apply OutKept.next | intro x)

theorem execQuickStop_kept (n : Fin 8) (s : State) (h : Kept W p s) (hf : Frees W [.regs, .recd, .evd, .flt, .tly, .ax, .free]) :
    OutKept W p (execQuickStop n s) := by
  unfold execQuickStop
  with_reducible repeat' (first
      | assumption | exact hf.sub rfl | apply State.axCommand_kept | apply OutKept.next | intro x)

theorem execHome_kept (n : Fin 8) (s : State) (h : Kept W p s) (hf : Frees W [.regs, .recd, .evd, .flt, .tly, .ax, .free]) :
    OutKept W p (execHome n s) := by
  unfold execHome
  with_reducible repeat' (first
      | assumption | exact hf.sub rfl | apply State.axCommand_kept | apply OutKept.next | intro x)

theorem execGearIn_kept (n : Fin 8) (s : State) (h : Kept W p s) (hf : Frees W [.regs, .recd, .evd, .flt, .tly, .ax, .free]) :
    OutKept W p (execGearIn n s) := by
  unfold execGearIn
  with_reducible repeat' (first
      | assumption | exact hf.sub rfl | apply State.axCommand_kept | apply OutKept.next | intro x)

theorem execGearOut_kept (n : Fin 8) (s : State) (h : Kept W p s) (hf : Frees W [.regs, .recd, .evd, .flt, .tly, .ax, .free]) :
    OutKept W p (execGearOut n s) := by
  unfold execGearOut
  with_reducible repeat' (first
      | assumption | exact hf.sub rfl | apply State.axCommand_kept | apply OutKept.next | intro x)

theorem execMoveDone_kept (n : Fin 8) (s : State) (h : Kept W p s) (hf : Frees W [.regs, .recd, .evd, .flt, .tly, .ax, .free]) :
    OutKept W p (execMoveDone n s) := by
  unfold execMoveDone
  with_reducible repeat' (first
      | assumption | exact hf.sub rfl | apply State.axHomeAbort_kept | apply State.axSetState_kept
      | apply State.put_kept | apply State.setAxRt_kept | apply OutKept.next
      | (intro x; first | (refine kept_cut (W := W) (p := p) (v := x) ?_ (fun hx => ?_) <;> [simp only [x]; clear_value x]) | skip)
      | split | lift_lets)

theorem State.gearCross_kept (s : State) (k : Nat) (b : Int) (h : Kept W p s) (hf : Frees W [.regs, .recd, .evd, .flt, .tly, .ax, .free]) :
    Kept W p (State.gearCross s k b) := by
  unfold State.gearCross
  with_reducible repeat' (first
      | assumption | exact hf.sub rfl | apply State.raise_kept | apply State.setAxRt_kept
      | (intro x; first | (refine kept_cut (W := W) (p := p) (v := x) ?_ (fun hx => ?_) <;> [simp only [x]; clear_value x]) | skip)
      | split | lift_lets)

theorem execGearRatioApplied_kept (n : Fin 8) (s : State) (h : Kept W p s) (hf : Frees W [.regs, .recd, .evd, .flt, .tly, .ax, .free]) :
    OutKept W p (execGearRatioApplied n s) := by
  unfold execGearRatioApplied
  with_reducible repeat' (first
      | assumption | exact hf.sub rfl | apply State.axSeeBell_kept | apply State.gearCross_kept | apply OutKept.next
      | (intro x; first | (refine kept_cut (W := W) (p := p) (v := x) ?_ (fun hx => ?_) <;> [simp only [x]; clear_value x]) | skip)
      | split | lift_lets)

theorem execGearLag_kept (n : Fin 8) (s : State) (h : Kept W p s) (hf : Frees W [.regs, .recd, .evd, .flt, .tly, .lastRec, .free]) :
    OutKept W p (execGearLag n s) := by
  unfold execGearLag
  with_reducible repeat' (first
      | assumption | exact hf.sub rfl | apply State.markRecord_kept | apply State.raise_kept
      | apply State.setFault_kept | apply OutKept.next
      | (intro x; first | (refine kept_cut (W := W) (p := p) (v := x) ?_ (fun hx => ?_) <;> [simp only [x]; clear_value x]) | skip)
      | split | lift_lets)

theorem execGearSrc_kept (n : Fin 8) (s : State) (h : Kept W p s) (hf : Frees W [.regs, .recd, .evd, .flt, .tly, .ax, .free]) :
    OutKept W p (execGearSrc n s) := by
  unfold execGearSrc
  with_reducible repeat' (first
      | assumption | exact hf.sub rfl | apply State.gearLost_kept | apply OutKept.next | intro x)

theorem execSwitchQualified_kept (n : Fin 8) (sw : Fin 3) (active : Bool) (capt : Int) (s : State) (h : Kept W p s) (hf : Frees W [.regs, .recd, .evd, .flt, .tly, .ax, .free]) :
    OutKept W p (execSwitchQualified n sw active capt s) := by
  unfold execSwitchQualified
  with_reducible repeat' (first
      | assumption | exact hf.sub rfl | apply State.axCapture_kept | apply State.axHomeAbort_kept
      | apply State.axStop_kept | apply State.putB_kept | apply State.raise_kept | apply State.setAxSwitch_kept
      | apply State.setFault_kept | apply OutKept.next
      | (intro x; first | (refine kept_cut (W := W) (p := p) (v := x) ?_ (fun hx => ?_) <;> [simp only [x]; clear_value x]) | skip)
      | split | lift_lets)

theorem execHomingComplete_kept (n : Fin 8) (s : State) (h : Kept W p s) (hf : Frees W [.regs, .recd, .evd, .flt, .tly, .ax, .free]) :
    OutKept W p (execHomingComplete n s) := by
  unfold execHomingComplete
  with_reducible repeat' (first
      | assumption | exact hf.sub rfl | apply State.axSetState_kept | apply State.axShift_kept | apply State.put_kept
      | apply State.raise_kept | apply State.setAxRt_kept | apply OutKept.next
      | (intro x; first | (refine kept_cut (W := W) (p := p) (v := x) ?_ (fun hx => ?_) <;> [simp only [x]; clear_value x]) | skip)
      | split | lift_lets)

theorem execChatter_kept (n : Fin 8) (sw : Fin 3) (level : Bool) (s : State) (h : Kept W p s) (hf : Frees W [.regs, .recd, .evd, .flt, .tly, .ax, .free]) :
    OutKept W p (execChatter n sw level s) := by
  unfold execChatter
  with_reducible repeat' (first
      | assumption | exact hf.sub rfl | apply State.axChat_kept | apply State.setAxSwitch_kept | apply OutKept.next
      | (intro x; first | (refine kept_cut (W := W) (p := p) (v := x) ?_ (fun hx => ?_) <;> [simp only [x]; clear_value x]) | skip)
      | split | lift_lets)

theorem execVmotMissing_kept (mv : BitVec 16) (s : State) (h : Kept W p s) (hf : Frees W [.regs, .recd, .evd, .flt, .tly, .ax, .free]) :
    OutKept W p (execVmotMissing mv s) := by
  unfold execVmotMissing
  with_reducible repeat' (first
      | assumption | exact hf.sub rfl | apply State.axVmotFault_kept | apply State.vmotShow_kept | apply OutKept.next
      | intro x | split)

theorem execVmotLow_kept (mv : BitVec 16) (s : State) (h : Kept W p s) (hf : Frees W [.regs, .recd, .evd, .flt, .tly, .free]) :
    OutKept W p (execVmotLow mv s) := by
  unfold execVmotLow
  with_reducible repeat' (first
      | assumption | exact hf.sub rfl | apply State.cond_kept | apply State.put_kept | apply State.raise_kept
      | apply State.vmotShow_kept | apply forEach_kept | apply OutKept.next | intro x | split)

theorem execVmotOver_kept (mv : BitVec 16) (s : State) (h : Kept W p s) (hf : Frees W [.regs, .recd, .evd, .flt, .tly, .ax, .free]) :
    OutKept W p (execVmotOver mv s) := by
  unfold execVmotOver
  with_reducible repeat' (first
      | assumption | exact hf.sub rfl | apply State.axVmotFault_kept | apply State.vmotShow_kept | apply OutKept.next
      | intro x | split)

theorem execVmotRestored_kept (mv : BitVec 16) (s : State) (h : Kept W p s) (hf : Frees W [.regs, .recd, .evd, .flt, .tly, .free]) :
    OutKept W p (execVmotRestored mv s) := by
  unfold execVmotRestored
  with_reducible repeat' (first
      | assumption | exact hf.sub rfl | apply State.cond_kept | apply State.put_kept | apply State.raise_kept
      | apply State.vmotShow_kept | apply forEach_kept | apply OutKept.next | intro x | split)

theorem execOvercurrent_kept (n : Fin 4) (phase : Fin 2) (s : State) (h : Kept W p s) (hf : Frees W [.regs, .recd, .evd, .flt, .tly, .ax, .free]) :
    OutKept W p (execOvercurrent n phase s) := by
  unfold execOvercurrent
  with_reducible repeat' (first
      | assumption | exact hf.sub rfl | apply State.axFaulted_kept | apply State.raise_kept | apply State.setFault_kept
      | apply OutKept.next | intro x | split)

theorem execOpenCoil_kept (n : Fin 4) (phase : Fin 2) (s : State) (h : Kept W p s) (hf : Frees W [.regs, .recd, .evd, .flt, .tly, .ax, .free]) :
    OutKept W p (execOpenCoil n phase s) := by
  unfold execOpenCoil
  with_reducible repeat' (first
      | assumption | exact hf.sub rfl | apply State.axFaulted_kept | apply State.raise_kept | apply State.setFault_kept
      | apply OutKept.next | intro x | split)

theorem execThermalWarning_kept (n : Fin 4) (phase : Fin 2) (temp : BitVec 16) (s : State) (h : Kept W p s) (hf : Frees W [.regs, .recd, .evd, .flt, .tly, .free]) :
    OutKept W p (execThermalWarning n phase temp s) := by
  unfold execThermalWarning
  with_reducible repeat' (first
      | assumption | exact hf.sub rfl | apply State.put_kept | apply State.raise_kept | apply OutKept.next | intro x
      | split)

theorem execThermalShutdown_kept (n : Fin 4) (phase : Fin 2) (temp : BitVec 16) (s : State) (h : Kept W p s) (hf : Frees W [.regs, .recd, .evd, .flt, .tly, .ax, .free]) :
    OutKept W p (execThermalShutdown n phase temp s) := by
  unfold execThermalShutdown
  with_reducible repeat' (first
      | assumption | exact hf.sub rfl | apply State.axFaulted_kept | apply State.cond_kept | apply State.put_kept
      | apply State.raise_kept | apply State.setFault_kept | apply OutKept.next | intro x | split)

theorem State.axCooled_kept (s : State) (n : Nat) (h : Kept W p s) (hf : Frees W [.flt]) :
    Kept W p (State.axCooled s n) := by
  unfold State.axCooled
  with_reducible repeat' (first | assumption | exact hf.sub rfl | apply State.cond_kept | intro x)

theorem execHoldDelay_kept (n : Fin 4) (s : State) (h : Kept W p s) (hf : Frees W [.ax]) :
    OutKept W p (execHoldDelay n s) := by
  unfold execHoldDelay
  with_reducible repeat' (first
      | assumption | exact hf.sub rfl | apply State.setAxRt_kept | apply OutKept.next
      | (intro x; first | (refine kept_cut (W := W) (p := p) (v := x) ?_ (fun hx => ?_) <;> [simp only [x]; clear_value x]) | skip)
      | split | lift_lets)

/-! ### LpeRun -/

theorem State.loopOut_kept (s : State) (i : Nat) (v : Word) (q : Quality) (h : Kept W p s) (hf : Frees W [.regs, .mem, .ecc, .recd, .evd, .flt, .tly, .forceQ, .lastRec, .dio, .ana, .ax, .seq, .free]) :
    Kept W p (State.loopOut s i v q) := by
  unfold State.loopOut
  with_reducible repeat' (first
      | assumption | exact hf.sub rfl | apply State.anaTake_kept | apply State.axTake_kept | apply State.dioTake_kept
      | apply State.imgWriteWord_kept | apply State.keepBefore_kept | intro x)

theorem State.loopOutSafe_kept (s : State) (n : Nat) (h : Kept W p s) (hf : Frees W [.regs, .mem, .ecc, .recd, .evd, .flt, .tly, .forceQ, .lastRec, .dio, .ana, .ax, .seq, .free]) :
    Kept W p (State.loopOutSafe s n) := by
  unfold State.loopOutSafe
  with_reducible repeat' (first
      | assumption | exact hf.sub rfl | apply State.loopOut_kept
      | (intro x; first | (refine kept_cut (W := W) (p := p) (v := x) ?_ (fun hx => ?_) <;> [simp only [x]; clear_value x]) | skip)
      | split | lift_lets)

theorem State.setTraceRt_kept (s : State) (c : Nat) (r : TraceRt) (h : Kept W p s) (hf : Frees W [.lpe]) :
    Kept W p (State.setTraceRt s c r) := by
  unfold State.setTraceRt
  with_reducible repeat' (first
      | assumption | exact hf.sub rfl
      | (intro x; first | (refine kept_cut (W := W) (p := p) (v := x) ?_ (fun hx => ?_) <;> [simp only [x]; clear_value x]) | skip)
      | lift_lets | refine Kept.setLpe ?_ (hf.sub rfl) _)

theorem State.traceStore_kept (s : State) (c : Nat) (t : TraceView) (h : Kept W p s) (hf : Frees W [.regs, .mem, .ecc]) :
    Kept W p (State.traceStore s c t) := by
  unfold State.traceStore
  with_reducible repeat' (first
      | assumption | exact hf.sub rfl | apply State.incMod_kept | apply State.memWr_kept | apply State.put_kept
      | apply forEach_kept
      | (intro x; first | (refine kept_cut (W := W) (p := p) (v := x) ?_ (fun hx => ?_) <;> [simp only [x]; clear_value x]) | skip)
      | lift_lets)

theorem State.traceDone_kept (s : State) (c : Nat) (h : Kept W p s) (hf : Frees W [.regs, .recd, .evd, .flt, .tly, .free]) :
    Kept W p (State.traceDone s c) := by
  unfold State.traceDone
  with_reducible repeat' (first
      | assumption | exact hf.sub rfl | apply State.put_kept | apply State.raise_kept
      | (intro x; first | (refine kept_cut (W := W) (p := p) (v := x) ?_ (fun hx => ?_) <;> [simp only [x]; clear_value x]) | skip)
      | lift_lets)

theorem State.traceCount_kept (s : State) (c : Nat) (left : Nat) (h : Kept W p s) (hf : Frees W [.regs, .recd, .evd, .flt, .tly, .lpe, .free]) :
    Kept W p (State.traceCount s c left) := by
  unfold State.traceCount
  with_reducible repeat' (first
      | assumption | exact hf.sub rfl | apply State.setTraceRt_kept | apply State.traceDone_kept
      | (intro x; first | (refine kept_cut (W := W) (p := p) (v := x) ?_ (fun hx => ?_) <;> [simp only [x]; clear_value x]) | skip)
      | split | lift_lets)

theorem State.traceSample_kept (s : State) (c : Nat) (t : TraceView) (trig : Bool) (h : Kept W p s) (hf : Frees W [.regs, .mem, .ecc, .recd, .evd, .flt, .tly, .lpe, .free]) :
    Kept W p (State.traceSample s c t trig) := by
  unfold State.traceSample
  with_reducible repeat' (first
      | assumption | exact hf.sub rfl | apply State.put_kept | apply State.raise_kept | apply State.setTraceRt_kept
      | apply State.traceCount_kept | apply State.traceStore_kept
      | (intro x; first | (refine kept_cut (W := W) (p := p) (v := x) ?_ (fun hx => ?_) <;> [simp only [x]; clear_value x]) | skip)
      | split | lift_lets)

theorem State.traceAll_kept (s : State) (views : List TraceView) (h : Kept W p s) (hf : Frees W [.regs, .mem, .ecc, .recd, .evd, .flt, .tly, .lpe, .free]) :
    Kept W p (State.traceAll s views) := by
  unfold State.traceAll
  with_reducible repeat' (first
      | assumption | exact hf.sub rfl | apply State.traceSample_kept | apply forEach_kept | apply kept_foldl
      | (intro x; first | (refine kept_cut (W := W) (p := p) (v := x) ?_ (fun hx => ?_) <;> [simp only [x]; clear_value x]) | skip)
      | split | lift_lets)

theorem State.traceCmd_kept (s : State) (c : Nat) (code : Nat) (h : Kept W p s) (hf : Frees W [.regs, .lpe]) :
    Kept W p (State.traceCmd s c code) := by
  unfold State.traceCmd
  with_reducible repeat' (first
      | assumption | exact hf.sub rfl | apply State.put_kept | apply State.setTraceRt_kept
      | (intro x; first | (refine kept_cut (W := W) (p := p) (v := x) ?_ (fun hx => ?_) <;> [simp only [x]; clear_value x]) | skip)
      | split | lift_lets)

theorem State.traceTick_kept (s : State) (h : Kept W p s) (hf : Frees W [.regs, .lpe]) :
    Kept W p (State.traceTick s) := by
  unfold State.traceTick
  with_reducible repeat' (first
      | assumption | exact hf.sub rfl | apply State.setTraceRt_kept | apply State.traceCmd_kept | apply forEach_kept
      | apply kept_foldl
      | (intro x; first | (refine kept_cut (W := W) (p := p) (v := x) ?_ (fun hx => ?_) <;> [simp only [x]; clear_value x]) | skip)
      | split | lift_lets)

theorem State.traceIdle_kept (s : State) (c : Nat) (h : Kept W p s) (hf : Frees W [.regs, .lpe]) :
    Kept W p (State.traceIdle s c) := by
  unfold State.traceIdle
  with_reducible repeat' (first
      | assumption | exact hf.sub rfl | apply State.put_kept | apply State.setTraceRt_kept | intro x)

theorem State.lTakeRecord_kept (s : State) (n : Nat) (h : Kept W p s) (hf : Frees W [.regs, .mem, .ecc, .recd, .evd, .flt, .tly, .forceQ, .lastRec, .dio, .ana, .lpe, .ax, .seq, .free]) :
    Kept W p (State.lTakeRecord s n) := by
  unfold State.lTakeRecord
  with_reducible repeat' (first
      | assumption | exact hf.sub rfl | apply State.loopOutSafe_kept | apply State.ownDegrade_kept
      | apply State.setLoopRt_kept | apply State.setLw_kept | apply forEach_kept | apply kept_foldl
      | apply kept_foldl_fst
      | (intro x; first | (refine kept_cut (W := W) (p := p) (v := x) ?_ (fun hx => ?_) <;> [simp only [x]; clear_value x]) | skip)
      | split | lift_lets | refine Kept.setLpe ?_ (hf.sub rfl) _)

theorem State.lTaken_kept (s : State) (h : Kept W p s) (hf : Frees W [.regs, .buf]) :
    Kept W p (State.lTaken s) := by
  unfold State.lTaken
  with_reducible repeat' (first
      | assumption | exact hf.sub rfl | apply State.commitDone_kept | apply State.put_kept
      | apply State.withBuffer_kept | apply kept_foldl
      | (intro x; first | (refine kept_cut (W := W) (p := p) (v := x) ?_ (fun hx => ?_) <;> [simp only [x]; clear_value x]) | skip)
      | split | lift_lets)

theorem State.lTake_kept (s : State) (n : Nat) (h : Kept W p s) (hf : Frees W [.regs, .buf, .mem, .ecc, .recd, .evd, .flt, .tly, .forceQ, .lastRec, .dio, .ana, .lpe, .ax, .seq, .free]) :
    Kept W p (State.lTake s n) := by
  unfold State.lTake
  with_reducible repeat' (first
      | assumption | exact hf.sub rfl | apply State.lTakeRecord_kept | apply State.lTaken_kept
      | (intro x; first | (refine kept_cut (W := W) (p := p) (v := x) ?_ (fun hx => ?_) <;> [simp only [x]; clear_value x]) | skip)
      | split | lift_lets | refine Kept.setLpe ?_ (hf.sub rfl) _)

theorem State.foldTake_kept (s : State) (f : Nat) (h : Kept W p s) (hf : Frees W [.regs, .buf, .lpe]) :
    Kept W p (State.foldTake s f) := by
  unfold State.foldTake
  with_reducible repeat' (first
      | assumption | exact hf.sub rfl | apply State.lTaken_kept | apply State.withBuffer_kept | apply kept_foldl
      | (intro x; first | (refine kept_cut (W := W) (p := p) (v := x) ?_ (fun hx => ?_) <;> [simp only [x]; clear_value x]) | skip)
      | split | lift_lets | refine Kept.setLpe ?_ (hf.sub rfl) _)

theorem State.lTakeAll_kept (s : State) (h : Kept W p s) (hf : Frees W [.regs, .buf, .mem, .ecc, .recd, .evd, .flt, .tly, .forceQ, .lastRec, .dio, .ana, .lpe, .ax, .seq, .free]) :
    Kept W p (State.lTakeAll s) := by
  unfold State.lTakeAll
  with_reducible repeat' (first
      | assumption | exact hf.sub rfl | apply State.foldTake_kept | apply State.lTake_kept | apply forEach_kept
      | apply kept_foldl | intro x)

theorem State.lGo_kept (s : State) (h : Kept W p s) (hf : Frees W [.lpe]) :
    Kept W p (State.lGo s) := by
  unfold State.lGo
  with_reducible repeat' (first
      | assumption | exact hf.sub rfl | apply kept_foldl
      | (intro x; first | (refine kept_cut (W := W) (p := p) (v := x) ?_ (fun hx => ?_) <;> [simp only [x]; clear_value x]) | skip)
      | lift_lets | refine Kept.setLpe ?_ (hf.sub rfl) _)

theorem State.lDiscard_kept (s : State) (h : Kept W p s) (hf : Frees W [.lpe]) :
    Kept W p (State.lDiscard s) := by
  unfold State.lDiscard
  with_reducible repeat' (first
      | assumption | exact hf.sub rfl | apply kept_foldl | apply kept_foldl_fst
      | (intro x; first | (refine kept_cut (W := W) (p := p) (v := x) ?_ (fun hx => ?_) <;> [simp only [x]; clear_value x]) | skip)
      | lift_lets | refine Kept.setLpe ?_ (hf.sub rfl) _)

theorem State.lCandidate_kept (s : State) (h : Kept W p s) (hf : Frees W [.lpe]) :
    Kept W p (State.lCandidate s) := by
  unfold State.lCandidate
  with_reducible repeat' (first
      | assumption | exact hf.sub rfl | apply kept_foldl
      | (intro x; first | (refine kept_cut (W := W) (p := p) (v := x) ?_ (fun hx => ?_) <;> [simp only [x]; clear_value x]) | skip)
      | lift_lets | refine Kept.setLpe ?_ (hf.sub rfl) _)

theorem State.memEcc_kept (s : State) (n : Nat) (w : Nat) (h : Kept W p s) (hf : Frees W [.regs, .mem, .ecc, .recd, .evd, .flt, .tly, .forceQ, .lastRec, .dio, .ana, .lpe, .ax, .seq, .free]) :
    Kept W p (State.memEcc s n w) := by
  unfold State.memEcc
  with_reducible repeat' (first
      | assumption | exact hf.sub rfl | apply State.loopOutSafe_kept | apply State.ownDegrade_kept
      | apply State.raise_kept | apply State.setFault_kept | apply State.setLoopRt_kept | apply State.setLw_kept
      | (intro x; first | (refine kept_cut (W := W) (p := p) (v := x) ?_ (fun hx => ?_) <;> [simp only [x]; clear_value x]) | skip)
      | split | lift_lets | refine Kept.setLpe ?_ (hf.sub rfl) _)

theorem State.lAccess_kept (s : State) (n : Nat) (ecc : Ecc) (h : Kept W p s) (hf : Frees W [.regs, .mem, .ecc, .recd, .evd, .flt, .tly, .forceQ, .lastRec, .dio, .ana, .lpe, .ax, .seq, .free]) :
    Kept W p (State.lAccess s n ecc).1 := by
  unfold State.lAccess
  with_reducible repeat' (first
      | assumption | exact hf.sub rfl | apply State.incMod_kept | apply State.memEcc_kept | apply State.tallyAdd_kept
      | (intro x; first | (refine kept_cut (W := W) (p := p) (v := x) ?_ (fun hx => ?_) <;> [simp only [x]; clear_value x]) | skip)
      | split | lift_lets)

theorem State.lDue_kept (s : State) (k : Nat) (h : Kept W p s) (hf : Frees W [.regs, .lpe]) :
    Kept W p (State.lDue s k) := by
  unfold State.lDue
  with_reducible repeat' (first
      | assumption | exact hf.sub rfl | apply State.put_kept
      | (intro x; first | (refine kept_cut (W := W) (p := p) (v := x) ?_ (fun hx => ?_) <;> [simp only [x]; clear_value x]) | skip)
      | split | lift_lets | refine Kept.setLpe ?_ (hf.sub rfl) _)

theorem State.lTakeDue_kept (s : State) (n : Nat) (h : Kept W p s) (hf : Frees W [.regs, .buf, .mem, .ecc, .recd, .evd, .flt, .tly, .forceQ, .lastRec, .dio, .ana, .lpe, .ax, .seq, .free]) :
    Kept W p (State.lTakeDue s n) := by
  unfold State.lTakeDue
  with_reducible repeat' (first | assumption | exact hf.sub rfl | apply State.lTake_kept | intro x | split)

theorem State.loopSample_kept (s : State) (n : Nat) (h : Kept W p s) (hf : Frees W [.regs, .mem, .ecc, .recd, .evd, .flt, .tly, .lpe, .free]) :
    Kept W p (State.loopSample s n) := by
  unfold State.loopSample
  with_reducible repeat' (first
      | assumption | exact hf.sub rfl | apply State.asBefore_kept | apply State.finishSample_kept
      | apply State.lDue_kept | apply State.traceAll_kept
      | (intro x; first | (refine kept_cut (W := W) (p := p) (v := x) ?_ (fun hx => ?_) <;> [simp only [x]; clear_value x]) | skip)
      | lift_lets | refine Kept.setFreeUses ?_ (hf.sub rfl) _)

theorem State.foldSample_kept (s : State) (a2 : Nat) (a3 : List Nat) (h : Kept W p s)
    (hf : Frees W [.regs, .mem, .ecc, .recd, .evd, .flt, .tly, .lpe, .free]) : Kept W p (State.foldSample s a2 a3) := by
  unfold State.foldSample
  extract_lets z ms
  generalize s.foldSelect a2 ms = r
  obtain ⟨v, src, cas⟩ := r
  dsimp only
  have h0 : Kept W p (ms.foldl (fun u x => u.finishSample x.slot x.ev v (x.pos == src) (x.cls == 1)) s) :=
    kept_foldl _ _ _ (fun u x hu => State.finishSample_kept _ _ _ _ _ _ hu (hf.sub rfl)) h
  generalize (ms.foldl (fun u x => u.finishSample x.slot x.ev v (x.pos == src) (x.cls == 1)) s) = u at h0 ⊢
  have h1 := h0.setFreeUses (hf.sub rfl) (u.freeUses + 2 * a3.length)
  generalize ({ u with freeUses := u.freeUses + 2 * a3.length } : State) = u1 at h1 ⊢
  with_reducible repeat' (first
      | assumption | exact hf.sub rfl | apply State.asBefore_kept | apply State.finishSample_kept
      | apply State.incMod_kept | apply State.lDue_kept | apply State.put_kept | apply State.raise_kept
      | apply State.setReg_kept | apply State.traceAll_kept | apply kept_foldl | apply kept_foldl_fst
      | (intro x; first | (refine kept_cut (W := W) (p := p) (v := x) ?_ (fun hx => ?_) <;> [simp only [x]; clear_value x]) | skip)
      | split | lift_lets | refine Kept.setFreeUses ?_ (hf.sub rfl) _ | refine Kept.setLpe ?_ (hf.sub rfl) _)

theorem State.lateTasks_kept (s : State) (i : Nat) (delay : Nat) (h : Kept W p s) (hf : Frees W [.regs]) :
    Kept W p (State.lateTasks s i delay) := by
  unfold State.lateTasks
  with_reducible repeat' (first
      | assumption | exact hf.sub rfl | apply State.put_kept | apply kept_foldl
      | (intro x; first | (refine kept_cut (W := W) (p := p) (v := x) ?_ (fun hx => ?_) <;> [simp only [x]; clear_value x]) | skip)
      | lift_lets)

theorem State.loopWriteOut_kept (s : State) (n : Nat) (due : Nat) (h : Kept W p s) (hf : Frees W [.regs, .mem, .ecc, .recd, .evd, .flt, .tly, .forceQ, .lastRec, .dio, .ana, .lpe, .ax, .seq, .free]) :
    Kept W p (State.loopWriteOut s n due) := by
  unfold State.loopWriteOut
  (try dsimp only)
  with_reducible repeat' (first
      | assumption | exact hf.sub rfl | apply State.imgWrite_kept | apply State.incMod_kept | apply State.lCount_kept
      | apply State.lateTasks_kept | apply State.loopOut_kept | apply State.put_kept | apply State.raise_kept
      | apply State.setFault_kept | apply State.setLoopRt_kept | apply State.setLw_kept
      | (intro x; first | (refine kept_cut (W := W) (p := p) (v := x) ?_ (fun hx => ?_) <;> [simp only [x]; clear_value x]) | skip)
      | split | lift_lets)

theorem State.foldWriteOut_kept (s : State) (f : Nat) (h : Kept W p s) (hf : Frees W [.regs, .mem, .ecc, .recd, .evd, .flt, .tly, .forceQ, .lastRec, .dio, .ana, .lpe, .ax, .seq, .free]) :
    Kept W p (State.foldWriteOut s f) := by
  unfold State.foldWriteOut
  with_reducible repeat' (first
      | assumption | exact hf.sub rfl | apply State.lateTasks_kept | apply State.loopOut_kept | apply kept_foldl
      | (intro x; first | (refine kept_cut (W := W) (p := p) (v := x) ?_ (fun hx => ?_) <;> [simp only [x]; clear_value x]) | skip)
      | split | lift_lets | refine Kept.setLpe ?_ (hf.sub rfl) _)

theorem State.lpeRun_kept (s : State) (h : Kept W p s) (hf : Frees W [.regs, .recd, .evd, .flt, .tly, .lpe, .free]) :
    Kept W p (State.lpeRun s) := by
  unfold State.lpeRun
  with_reducible repeat' (first
      | assumption | exact hf.sub rfl | apply State.put_kept | apply State.raise_kept | apply State.refreshState_kept
      | apply State.setLw_kept | apply forEach_kept | intro x | split)

theorem State.lpeHalt_kept (s : State) (h : Kept W p s) (hf : Frees W [.regs, .mem, .ecc, .recd, .evd, .flt, .tly, .forceQ, .lastRec, .dio, .ana, .lpe, .ax, .seq, .free]) :
    Kept W p (State.lpeHalt s) := by
  unfold State.lpeHalt
  with_reducible repeat' (first
      | assumption | exact hf.sub rfl | apply State.loopOutSafe_kept | apply State.put_kept | apply State.raise_kept
      | apply State.refreshState_kept | apply State.setLoopRt_kept | apply forEach_kept | apply kept_foldl
      | (intro x; first | (refine kept_cut (W := W) (p := p) (v := x) ?_ (fun hx => ?_) <;> [simp only [x]; clear_value x]) | skip)
      | split | lift_lets | refine Kept.setLpe ?_ (hf.sub rfl) _)

theorem State.loopRunEntry_kept (s : State) (h : Kept W p s) (hf : Frees W [.lpe]) :
    Kept W p (State.loopRunEntry s) := by
  unfold State.loopRunEntry
  with_reducible repeat' (first
      | assumption | exact hf.sub rfl | apply State.setLoopRt_kept | apply State.setLw_kept | apply forEach_kept
      | (intro x; first | (refine kept_cut (W := W) (p := p) (v := x) ?_ (fun hx => ?_) <;> [simp only [x]; clear_value x]) | skip)
      | split | lift_lets)

theorem execLpeRunOn_kept (m : Fin 4) (s : State) (h : Kept W p s) (hf : Frees W [.regs, .boot, .recd, .evd, .flt, .tly, .lpe, .free]) :
    OutKept W p (execLpeRunOn m s) := by
  unfold execLpeRunOn
  with_reducible repeat' (first
      | assumption | exact hf.sub rfl | apply State.action_kept | apply State.lpeRun_kept | apply OutKept.next
      | intro x)

theorem execLpeRunOff_kept (m : Fin 4) (s : State) (h : Kept W p s) (hf : Frees W [.regs, .mem, .ecc, .boot, .recd, .evd, .flt, .tly, .forceQ, .lastRec, .dio, .ana, .lpe, .ax, .seq, .free]) :
    OutKept W p (execLpeRunOff m s) := by
  unfold execLpeRunOff
  with_reducible repeat' (first
      | assumption | exact hf.sub rfl | apply State.action_kept | apply State.lpeHalt_kept | apply OutKept.next
      | intro x)

theorem execLoopSample_kept (a1 : Fin 1024) (a2 : Ecc) (s : State) (h : Kept W p s)
    (hf : Frees W [.regs, .buf, .mem, .ecc, .recd, .evd, .flt, .tly, .forceQ, .lastRec, .dio, .ana, .lpe, .ax, .seq, .free]) : OutKept W p (execLoopSample a1 a2 s) := by
  unfold execLoopSample
  apply OutKept.next
  split
  · split
    · have h1 : Kept W p (s.lTakeDue a1.val) := State.lTakeDue_kept _ _ h (hf.sub rfl)
      dsimp only
      generalize s.lTakeDue a1.val = s1 at h1 ⊢
      have h2 : Kept W p (s1.lAccess a1.val a2).1 := State.lAccess_kept _ _ _ h1 (hf.sub rfl)
      generalize s1.lAccess a1.val a2 = r at h2 ⊢
      obtain ⟨s2, b⟩ := r
      cases b
      all_goals with_reducible repeat' (first
      | assumption | exact hf.sub rfl | apply State.lAccess_kept | apply State.lTakeDue_kept
      | apply State.loopSample_kept | apply OutKept.next
      | (intro x; first | (refine kept_cut (W := W) (p := p) (v := x) ?_ (fun hx => ?_) <;> [simp only [x]; clear_value x]) | skip)
      | split | lift_lets)
    · exact h
  · exact h

theorem execSlotCommitTimeout_kept (n : Fin 1024) (s : State) (h : Kept W p s) (hf : Frees W [.regs, .buf, .mem, .ecc, .recd, .evd, .flt, .tly, .forceQ, .lastRec, .dio, .ana, .lpe, .ax, .seq, .free]) :
    OutKept W p (execSlotCommitTimeout n s) := by
  unfold execSlotCommitTimeout
  with_reducible repeat' (first
      | assumption | exact hf.sub rfl | apply State.foldTake_kept | apply State.lTakeDue_kept | apply kept_foldl
      | apply OutKept.next | intro x | split)

theorem execLoopOutputWrite_kept (n : Fin 1024) (delay : BitVec 64) (due : BitVec 16) (s : State) (h : Kept W p s) (hf : Frees W [.regs, .mem, .ecc, .recd, .evd, .flt, .tly, .forceQ, .lastRec, .dio, .ana, .lpe, .ax, .seq, .free]) :
    OutKept W p (execLoopOutputWrite n delay due s) := by
  unfold execLoopOutputWrite
  with_reducible repeat' (first
      | assumption | exact hf.sub rfl | apply State.foldWriteOut_kept | apply State.loopWriteOut_kept
      | apply forEach_kept | apply kept_foldl | apply OutKept.next | intro x | split)

theorem State.recordWrite_kept (s : State) (n : Nat) (w : Nat) (v : Word) (ecc : Ecc) (h : Kept W p s) (hf : Frees W [.regs, .mem, .ecc, .recd, .evd, .flt, .tly, .forceQ, .lastRec, .dio, .ana, .lpe, .ax, .seq, .free]) :
    Kept W p (State.recordWrite s n w v ecc) := by
  unfold State.recordWrite
  with_reducible repeat' (first
      | assumption | exact hf.sub rfl | apply State.lAccess_kept | apply State.raise_kept | apply State.setFault_kept
      | apply State.setLw_kept
      | (intro x; first | (refine kept_cut (W := W) (p := p) (v := x) ?_ (fun hx => ?_) <;> [simp only [x]; clear_value x]) | skip)
      | split | lift_lets | refine Kept.setLpe ?_ (hf.sub rfl) _)

theorem execLoopRecordWrite_kept (n : Fin 1024) (w : Fin 64) (v : Word) (ecc : Ecc) (s : State) (h : Kept W p s) (hf : Frees W [.regs, .mem, .ecc, .recd, .evd, .flt, .tly, .forceQ, .lastRec, .dio, .ana, .lpe, .ax, .seq, .free]) :
    OutKept W p (execLoopRecordWrite n w v ecc s) := by
  unfold execLoopRecordWrite
  with_reducible repeat' (first
      | assumption | exact hf.sub rfl | apply State.recordWrite_kept | apply OutKept.next | intro x)

theorem State.foldTakes_kept (s : State) (f : Nat) (h : Kept W p s) (hf : Frees W [.regs, .buf, .mem, .ecc, .recd, .evd, .flt, .tly, .forceQ, .lastRec, .dio, .ana, .lpe, .ax, .seq, .free]) :
    Kept W p (State.foldTakes s f) := by
  unfold State.foldTakes
  with_reducible repeat' (first
      | assumption | exact hf.sub rfl | apply State.foldTake_kept | apply State.lTakeDue_kept | apply forEach_kept
      | apply kept_foldl | intro x)

theorem execFoldSample_kept (f : Fin 128) (n : Fin 1024) (ecc : Ecc) (s : State) (h : Kept W p s) (hf : Frees W [.regs, .buf, .mem, .ecc, .recd, .evd, .flt, .tly, .forceQ, .lastRec, .dio, .ana, .lpe, .ax, .seq, .free]) :
    OutKept W p (execFoldSample f n ecc s) := by
  unfold execFoldSample
  with_reducible repeat' (first
      | assumption | exact hf.sub rfl | apply State.foldSample_kept | apply State.foldTakes_kept
      | apply State.lAccess_kept | apply State.loopSample_kept | apply forEach_kept | apply kept_foldl
      | apply kept_foldl_fst | apply OutKept.next
      | (intro x; first | (refine kept_cut (W := W) (p := p) (v := x) ?_ (fun hx => ?_) <;> [simp only [x]; clear_value x]) | skip)
      | split | lift_lets)

theorem State.traceCommand_kept (s : State) (c : Nat) (code : Nat) (h : Kept W p s) (hf : Frees W [.lpe]) :
    Kept W p (State.traceCommand s c code) := by
  unfold State.traceCommand
  with_reducible repeat' (first
      | assumption | exact hf.sub rfl | apply State.setTraceRt_kept
      | (intro x; first | (refine kept_cut (W := W) (p := p) (v := x) ?_ (fun hx => ?_) <;> [simp only [x]; clear_value x]) | skip)
      | lift_lets)

theorem execTraceArm_kept (c : Fin 16) (m : Fin 4) (s : State) (h : Kept W p s) (hf : Frees W [.regs, .boot, .recd, .evd, .flt, .tly, .lpe, .free]) :
    OutKept W p (execTraceArm c m s) := by
  unfold execTraceArm
  with_reducible repeat' (first
      | assumption | exact hf.sub rfl | apply State.action_kept | apply State.traceCommand_kept | apply OutKept.next
      | intro x)

theorem execArmAll_kept (mask : BitVec 16) (m : Fin 4) (s : State) (h : Kept W p s) (hf : Frees W [.regs, .boot, .recd, .evd, .flt, .tly, .lpe, .free]) :
    OutKept W p (execArmAll mask m s) := by
  unfold execArmAll
  with_reducible repeat' (first
      | assumption | exact hf.sub rfl | apply State.action_kept | apply State.traceCommand_kept | apply forEach_kept
      | apply OutKept.next | intro x)

theorem execTraceForce_kept (c : Fin 16) (m : Fin 4) (s : State) (h : Kept W p s) (hf : Frees W [.regs, .boot, .recd, .evd, .flt, .tly, .lpe, .free]) :
    OutKept W p (execTraceForce c m s) := by
  unfold execTraceForce
  with_reducible repeat' (first
      | assumption | exact hf.sub rfl | apply State.action_kept | apply State.traceCommand_kept | apply OutKept.next
      | intro x)

theorem execTraceStop_kept (c : Fin 16) (m : Fin 4) (s : State) (h : Kept W p s) (hf : Frees W [.regs, .boot, .recd, .evd, .flt, .tly, .lpe, .free]) :
    OutKept W p (execTraceStop c m s) := by
  unfold execTraceStop
  with_reducible repeat' (first
      | assumption | exact hf.sub rfl | apply State.action_kept | apply State.traceCommand_kept | apply OutKept.next
      | intro x)

end Sys2Proof.Machine
end

