-- ==== Sys2Proof/Laws/KeptTasks.lean ====
section
/-! SUPPORT. One lemma for each operation and each meaning of tasks and stations: ETH, DWY, PLACE, SEQ and TMR: what it keeps
(`Kept`), and at most which parts it changes. -/

namespace Sys2Proof.Machine
set_option linter.all false
variable {W : Part → Bool} {p : State}

/-! ### Task -/



/-! ### Eth -/

theorem State.setEthRt_kept (s : State) (a2 : Nat) (r : EthRt) (h : Kept W p s) (hf : Frees W [.eth]) :
    Kept W p (State.setEthRt s a2 r) := by
  unfold State.setEthRt
  with_reducible repeat' (first
      | assumption | exact hf.sub rfl
      | (intro x; first | (refine kept_cut (W := W) (p := p) (v := x) ?_ (fun hx => ?_) <;> [simp only [x]; clear_value x]) | skip)
      | lift_lets | refine Kept.setEth ?_ (hf.sub rfl) _)

theorem State.txReturn_kept (s : State) (a2 : Nat) (q : Nat) (status : Nat) (t : Nat) (h : Kept W p s) (hf : Frees W [.regs, .mem, .ecc, .recd, .evd, .flt, .eth, .free]) :
    Kept W p (State.txReturn s a2 q status t) := by
  unfold State.txReturn
  with_reducible repeat' (first
      | assumption | exact hf.sub rfl | apply State.event_kept | apply State.memWr_kept | apply State.put_kept
      | apply State.setEthRt_kept
      | (intro x; first | (refine kept_cut (W := W) (p := p) (v := x) ?_ (fun hx => ?_) <;> [simp only [x]; clear_value x]) | skip)
      | split | lift_lets)

theorem State.txFlush_kept (s : State) (a b c n : Nat) (h : Kept W p s)
    (hf : Frees W [.regs, .mem, .ecc, .recd, .evd, .flt, .eth, .free]) : Kept W p (s.txFlush a b c n) := by
  induction n generalizing s with
  | zero => exact h
  | succ n ih =>
    unfold State.txFlush
    split
    · exact ih _ (State.txReturn_kept _ _ _ _ _ h hf)
    · exact h
theorem State.stepFlush_kept (s : State) (h : Kept W p s) (hf : Frees W [.regs, .mem, .ecc, .recd, .evd, .flt, .eth, .free]) :
    Kept W p s.stepFlush := by
  unfold State.stepFlush
  refine forEach_kept _ _ _ h (fun u x hu => ?_)
  split
  · exact State.txFlush_kept _ _ _ _ _ hu hf
  · exact hu

theorem State.txCopy_kept (s : State) (a2 : Nat) (b : List Nat) (h : Kept W p s) (hf : Frees W [.regs, .sent]) :
    Kept W p (State.txCopy s a2 b) := by
  unfold State.txCopy
  with_reducible repeat' (first
      | assumption | exact hf.sub rfl | apply State.incMod_kept | apply State.send_kept | intro x | split)

theorem State.txWire_kept (s : State) (a2 : Nat) (q : Nat) (h : Kept W p s) (hf : Frees W [.regs, .sent, .eth]) :
    Kept W p (State.txWire s a2 q) := by
  unfold State.txWire
  with_reducible repeat' (first
      | assumption | exact hf.sub rfl | apply State.setEthRt_kept | apply State.txCopy_kept
      | (intro x; first | (refine kept_cut (W := W) (p := p) (v := x) ?_ (fun hx => ?_) <;> [simp only [x]; clear_value x]) | skip)
      | split | lift_lets)

theorem State.txBad_kept (s : State) (a2 : Nat) (q : Nat) (h : Kept W p s) (hf : Frees W [.regs, .mem, .ecc, .recd, .evd, .flt, .tly, .eth, .free]) :
    Kept W p (State.txBad s a2 q) := by
  unfold State.txBad
  with_reducible repeat' (first
      | assumption | exact hf.sub rfl | apply State.raise_kept | apply State.setFault_kept | apply State.txReturn_kept
      | (intro x; first | (refine kept_cut (W := W) (p := p) (v := x) ?_ (fun hx => ?_) <;> [simp only [x]; clear_value x]) | skip)
      | lift_lets)

theorem State.ltLate_kept (s : State) (a2 : Nat) (q : Nat) (lateness : Nat) (sent : Nat) (h : Kept W p s) (hf : Frees W [.regs, .recd, .evd, .flt, .tly, .lastRec, .free]) :
    Kept W p (State.ltLate s a2 q lateness sent) := by
  unfold State.ltLate
  with_reducible repeat' (first
      | assumption | exact hf.sub rfl | apply State.event_kept | apply State.incSat_kept | apply State.markRecord_kept
      | apply State.raise_kept | apply State.setFault_kept
      | (intro x; first | (refine kept_cut (W := W) (p := p) (v := x) ?_ (fun hx => ?_) <;> [simp only [x]; clear_value x]) | skip)
      | split | lift_lets)

theorem State.ltSend_kept (s : State) (a2 : Nat) (q : Nat) (status : Nat) (h : Kept W p s) (hf : Frees W [.regs, .mem, .ecc, .recd, .evd, .flt, .sent, .eth, .free]) :
    Kept W p (State.ltSend s a2 q status) := by
  unfold State.ltSend
  with_reducible repeat' (first
      | assumption | exact hf.sub rfl | apply State.setEthRt_kept | apply State.txReturn_kept | apply State.txWire_kept
      | (intro x; first | (refine kept_cut (W := W) (p := p) (v := x) ?_ (fun hx => ?_) <;> [simp only [x]; clear_value x]) | skip)
      | lift_lets)

theorem execTxWriteBack_kept (port : Fin 4) (s : State) (h : Kept W p s) (hf : Frees W [.regs, .mem, .ecc, .recd, .evd, .flt, .tly, .sent, .eth, .free]) :
    OutKept W p (execTxWriteBack port s) := by
  unfold execTxWriteBack
  with_reducible repeat' (first
      | assumption | exact hf.sub rfl | apply State.setEthRt_kept | apply State.txBad_kept | apply State.txReturn_kept
      | apply State.txWire_kept | apply OutKept.next
      | (intro x; first | (refine kept_cut (W := W) (p := p) (v := x) ?_ (fun hx => ?_) <;> [simp only [x]; clear_value x]) | skip)
      | split | lift_lets)

theorem execFrameLaunch_kept (port : Fin 4) (queue : Fin 8) (s : State) (h : Kept W p s) (hf : Frees W [.regs, .mem, .ecc, .recd, .evd, .flt, .tly, .sent, .eth, .lastRec, .free]) :
    OutKept W p (execFrameLaunch port queue s) := by
  unfold execFrameLaunch
  with_reducible repeat' (first
      | assumption | exact hf.sub rfl | apply State.ltLate_kept | apply State.ltSend_kept | apply State.setEthRt_kept
      | apply State.txBad_kept | apply State.txReturn_kept | apply OutKept.next
      | (intro x; first | (refine kept_cut (W := W) (p := p) (v := x) ?_ (fun hx => ?_) <;> [simp only [x]; clear_value x]) | skip)
      | split | lift_lets)

theorem execTxqTail_kept (port : Fin 4) (m : Fin 4) (tail : BitVec 10) (s : State) (h : Kept W p s) (hf : Frees W [.regs, .boot, .recd, .evd, .flt, .tly, .eth, .free]) :
    OutKept W p (execTxqTail port m tail s) := by
  unfold execTxqTail
  with_reducible repeat' (first
      | assumption | exact hf.sub rfl | apply State.action_kept | apply State.put_kept | apply State.raise_kept
      | apply State.setEthRt_kept | apply OutKept.next
      | (intro x; first | (refine kept_cut (W := W) (p := p) (v := x) ?_ (fun hx => ?_) <;> [simp only [x]; clear_value x]) | skip)
      | split | lift_lets)

theorem execRxqTail_kept (port : Fin 4) (m : Fin 4) (tail : BitVec 10) (s : State) (h : Kept W p s) (hf : Frees W [.regs, .boot, .recd, .evd, .flt, .tly, .free]) :
    OutKept W p (execRxqTail port m tail s) := by
  unfold execRxqTail
  with_reducible repeat' (first
      | assumption | exact hf.sub rfl | apply State.action_kept | apply State.put_kept | apply OutKept.next
      | (intro x; first | (refine kept_cut (W := W) (p := p) (v := x) ?_ (fun hx => ?_) <;> [simp only [x]; clear_value x]) | skip)
      | lift_lets)

theorem State.dropCount_kept (s : State) (a2 : Nat) (lo : Nat) (h : Kept W p s) (hf : Frees W [.regs]) :
    Kept W p (State.dropCount s a2 lo) := by
  unfold State.dropCount
  with_reducible repeat' (first | assumption | exact hf.sub rfl | apply State.incSat_kept | intro x)

theorem State.stormRefill_kept (s : State) (a2 : Nat) (h : Kept W p s) (hf : Frees W [.eth]) :
    Kept W p (State.stormRefill s a2) := by
  unfold State.stormRefill
  with_reducible repeat' (first
      | assumption | exact hf.sub rfl | apply State.setEthRt_kept | apply kept_foldl
      | (intro x; first | (refine kept_cut (W := W) (p := p) (v := x) ?_ (fun hx => ?_) <;> [simp only [x]; clear_value x]) | skip)
      | lift_lets)

theorem State.stormDrop_kept (s : State) (a2 : Nat) (c : Nat) (h : Kept W p s) (hf : Frees W [.regs, .recd, .evd, .flt, .tly, .eth, .lastRec, .free]) :
    Kept W p (State.stormDrop s a2 c) := by
  unfold State.stormDrop
  with_reducible repeat' (first
      | assumption | exact hf.sub rfl | apply State.dropCount_kept | apply State.markRecord_kept
      | apply State.raise_kept | apply State.setEthRt_kept | apply State.setFault_kept
      | (intro x; first | (refine kept_cut (W := W) (p := p) (v := x) ?_ (fun hx => ?_) <;> [simp only [x]; clear_value x]) | skip)
      | split | lift_lets)

theorem State.rxDeliver_kept (s : State) (a2 : Nat) (dp : Nat) (q : Nat) (rctHere : Bool) (rule : Nat) (b : List Byte) (h : Kept W p s) (hf : Frees W [.regs, .mem, .ecc, .recd, .evd, .flt, .tly, .lastRec, .free]) :
    Kept W p (State.rxDeliver s a2 dp q rctHere rule b) := by
  unfold State.rxDeliver
  with_reducible repeat' (first
      | assumption | exact hf.sub rfl | apply State.dmaError_kept | apply State.dropCount_kept | apply State.event_kept
      | apply State.incMod_kept | apply State.markRecord_kept | apply State.memPut_kept | apply State.memWr_kept
      | apply State.put_kept | apply State.raise_kept | apply State.setFault_kept
      | (intro x; first | (refine kept_cut (W := W) (p := p) (v := x) ?_ (fun hx => ?_) <;> [simp only [x]; clear_value x]) | skip)
      | split | lift_lets)

theorem State.ringForward_kept (s : State) (a2 : Nat) (seq : Nat) (b : List Byte) (h : Kept W p s) (hf : Frees W [.sent, .eth]) :
    Kept W p (State.ringForward s a2 seq b) := by
  unfold State.ringForward
  with_reducible repeat' (first
      | assumption | exact hf.sub rfl | apply State.send_kept | apply State.setEthRt_kept
      | (intro x; first | (refine kept_cut (W := W) (p := p) (v := x) ?_ (fun hx => ?_) <;> [simp only [x]; clear_value x]) | skip)
      | split | lift_lets)

theorem State.lanSeen_kept (s : State) (a2 : Nat) (h : Kept W p s) (hf : Frees W [.regs, .recd, .evd, .flt, .tly, .eth, .free]) :
    Kept W p (State.lanSeen s a2) := by
  unfold State.lanSeen
  with_reducible repeat' (first
      | assumption | exact hf.sub rfl | apply State.cond_kept | apply State.put_kept | apply State.raise_kept
      | apply State.setEthRt_kept
      | (intro x; first | (refine kept_cut (W := W) (p := p) (v := x) ?_ (fun hx => ?_) <;> [simp only [x]; clear_value x]) | skip)
      | split | lift_lets)

theorem State.rxAfterDup_kept (s : State) (a2 : Nat) (rctHere : Bool) (b : List Byte) (h : Kept W p s) (hf : Frees W [.regs, .mem, .ecc, .recd, .evd, .flt, .tly, .eth, .lastRec, .free]) :
    Kept W p (State.rxAfterDup s a2 rctHere b) := by
  unfold State.rxAfterDup
  with_reducible repeat' (first
      | assumption | exact hf.sub rfl | apply State.dropCount_kept | apply State.rxDeliver_kept
      | apply State.setEthRt_kept | apply State.stormDrop_kept | apply State.stormRefill_kept
      | (intro x; first | (refine kept_cut (W := W) (p := p) (v := x) ?_ (fun hx => ?_) <;> [simp only [x]; clear_value x]) | skip)
      | split | lift_lets)

theorem State.dwyDiscard_kept (s : State) (kind : Nat) (station : Nat) (h : Kept W p s) (hf : Frees W [.regs, .recd, .evd, .flt, .tly, .lastRec, .free]) :
    Kept W p (State.dwyDiscard s kind station) := by
  unfold State.dwyDiscard
  with_reducible repeat' (first
      | assumption | exact hf.sub rfl | apply State.incSat_kept | apply State.markRecord_kept | apply State.raise_kept
      | apply State.setFault_kept
      | (intro x; first | (refine kept_cut (W := W) (p := p) (v := x) ?_ (fun hx => ?_) <;> [simp only [x]; clear_value x]) | skip)
      | split | lift_lets)

theorem execFrameReceive_kept (port : Fin 4) (fcsOk : Bool) (frame : List Byte) (s : State) (h : Kept W p s) (hf : Frees W [.regs, .mem, .ecc, .recd, .evd, .flt, .tly, .sent, .eth, .lastRec, .free]) :
    OutKept W p (execFrameReceive port fcsOk frame s) := by
  unfold execFrameReceive
  with_reducible repeat' (first
      | assumption | exact hf.sub rfl | apply State.dropCount_kept | apply State.dwyDiscard_kept
      | apply State.incMod_kept | apply State.lanSeen_kept | apply State.markRecord_kept | apply State.raise_kept
      | apply State.ringForward_kept | apply State.rxAfterDup_kept | apply State.setEthRt_kept
      | apply State.setFault_kept | apply OutKept.next
      | (intro x; first | (refine kept_cut (W := W) (p := p) (v := x) ?_ (fun hx => ?_) <;> [simp only [x]; clear_value x]) | skip)
      | split | lift_lets)

theorem execLanLost_kept (lan : Fin 2) (s : State) (h : Kept W p s) (hf : Frees W [.regs, .recd, .evd, .flt, .tly, .eth, .free]) :
    OutKept W p (execLanLost lan s) := by
  unfold execLanLost
  with_reducible repeat' (first
      | assumption | exact hf.sub rfl | apply State.cond_kept | apply State.put_kept | apply State.raise_kept
      | apply State.setEthRt_kept | apply State.setFault_kept | apply OutKept.next
      | (intro x; first | (refine kept_cut (W := W) (p := p) (v := x) ?_ (fun hx => ?_) <;> [simp only [x]; clear_value x]) | skip)
      | split | lift_lets)

theorem ethLink_kept (a1 : Nat) (speed : Nat) (s : State) (h : Kept W p s) (hf : Frees W [.regs, .recd, .evd, .flt, .tly, .free]) :
    Kept W p (ethLink a1 speed s) := by
  unfold ethLink
  with_reducible repeat' (first
      | assumption | exact hf.sub rfl | apply State.cond_kept | apply State.event_kept | apply State.putB_kept
      | apply State.put_kept | apply State.raise_kept | apply State.setFault_kept
      | (intro x; first | (refine kept_cut (W := W) (p := p) (v := x) ?_ (fun hx => ?_) <;> [simp only [x]; clear_value x]) | skip)
      | split | lift_lets)

theorem ethFence_kept (a1 : Nat) (s : State) (h : Kept W p s)
    (hf : Frees W [.regs, .mem, .ecc, .recd, .evd, .flt, .eth, .free]) : Kept W p (ethFence a1 s) :=
  forEach_kept _ _ _ h (fun _ _ hu => State.txFlush_kept _ _ _ _ _ hu hf)

/-! ### Crc -/



/-! ### Dwy -/

theorem State.setStnRt_kept (s : State) (a : Nat) (r : StnRt) (h : Kept W p s) (hf : Frees W [.dwy]) :
    Kept W p (State.setStnRt s a r) := by
  unfold State.setStnRt
  with_reducible repeat' (first
      | assumption | exact hf.sub rfl
      | (intro x; first | (refine kept_cut (W := W) (p := p) (v := x) ?_ (fun hx => ?_) <;> [simp only [x]; clear_value x]) | skip)
      | lift_lets | refine Kept.setDwy ?_ (hf.sub rfl) _)

theorem State.setStnGen_kept (s : State) (a : Nat) (g : Nat) (h : Kept W p s) (hf : Frees W [.regs, .dwy]) :
    Kept W p (State.setStnGen s a g) := by
  unfold State.setStnGen
  with_reducible repeat' (first
      | assumption | exact hf.sub rfl | apply State.put_kept
      | (intro x; first | (refine kept_cut (W := W) (p := p) (v := x) ?_ (fun hx => ?_) <;> [simp only [x]; clear_value x]) | skip)
      | lift_lets | refine Kept.setDwy ?_ (hf.sub rfl) _)

theorem State.stnShow_kept (s : State) (a : Nat) (st : Nat) (h : Kept W p s) (hf : Frees W [.regs]) :
    Kept W p (State.stnShow s a st) := by
  unfold State.stnShow
  with_reducible repeat' (first | assumption | exact hf.sub rfl | apply State.putB_kept | intro x)

theorem State.setStState_kept (s : State) (a : Nat) (st : Nat) (h : Kept W p s) (hf : Frees W [.regs, .recd, .evd, .flt, .tly, .free]) :
    Kept W p (State.setStState s a st) := by
  unfold State.setStState
  with_reducible repeat' (first
      | assumption | exact hf.sub rfl | apply State.event_kept | apply State.put_kept | apply State.raise_kept
      | apply State.stnShow_kept
      | (intro x; first | (refine kept_cut (W := W) (p := p) (v := x) ?_ (fun hx => ?_) <;> [simp only [x]; clear_value x]) | skip)
      | split | lift_lets)

theorem State.dwySendAt_kept (s : State) (t : Nat) (type : Nat) (dst : Nat) (ver : Nat) (station : Nat) (gen : Nat) (cycle : Nat) (flags : Nat) (init : Nat) (payload : List Byte) (h : Kept W p s) (hf : Frees W [.regs, .sent, .eth]) :
    Kept W p (State.dwySendAt s t type dst ver station gen cycle flags init payload) := by
  unfold State.dwySendAt
  with_reducible repeat' (first
      | assumption | exact hf.sub rfl | apply State.incMod_kept | apply State.setEthRt_kept
      | (intro x; first | (refine kept_cut (W := W) (p := p) (v := x) ?_ (fun hx => ?_) <;> [simp only [x]; clear_value x]) | skip)
      | split | lift_lets | refine Kept.setSent ?_ (hf.sub rfl) _)

theorem State.dwySend_kept (s : State) (type : Nat) (dst : Nat) (ver : Nat) (station : Nat) (gen : Nat) (cycle : Nat) (flags : Nat) (init : Nat) (payload : List Byte) (h : Kept W p s) (hf : Frees W [.regs, .sent, .eth]) :
    Kept W p (State.dwySend s type dst ver station gen cycle flags init payload) := by
  unfold State.dwySend
  with_reducible repeat' (first | assumption | exact hf.sub rfl | apply State.dwySendAt_kept | intro x)

theorem State.sendLeave_kept (s : State) (a : Nat) (reason : Nat) (h : Kept W p s) (hf : Frees W [.regs, .recd, .evd, .flt, .tly, .sent, .eth, .free]) :
    Kept W p (State.sendLeave s a reason) := by
  unfold State.sendLeave
  with_reducible repeat' (first
      | assumption | exact hf.sub rfl | apply State.dwySend_kept | apply State.put_kept | apply State.raise_kept
      | intro x)

theorem State.stnMark_kept (s : State) (a : Nat) (q : Quality) (h : Kept W p s) (hf : Frees W [.mem, .ecc, .forceQ]) :
    Kept W p (State.stnMark s a q) := by
  unfold State.stnMark
  with_reducible repeat' (first
      | assumption | exact hf.sub rfl | apply State.imgWrite_kept | apply forEach_kept
      | (intro x; first | (refine kept_cut (W := W) (p := p) (v := x) ?_ (fun hx => ?_) <;> [simp only [x]; clear_value x]) | skip)
      | split | lift_lets)

theorem State.stnFree_kept (s : State) (a : Nat) (h : Kept W p s) (hf : Frees W [.dwy]) :
    Kept W p (State.stnFree s a) := by
  unfold State.stnFree
  with_reducible repeat' (first
      | assumption | exact hf.sub rfl | apply State.setStnRt_kept
      | (intro x; first | (refine kept_cut (W := W) (p := p) (v := x) ?_ (fun hx => ?_) <;> [simp only [x]; clear_value x]) | skip)
      | lift_lets)

theorem State.stnUnoffer_kept (s : State) (a : Nat) (st : Nat) (h : Kept W p s) (hf : Frees W [.regs, .recd, .evd, .flt, .tly, .dwy, .free]) :
    Kept W p (State.stnUnoffer s a st) := by
  unfold State.stnUnoffer
  with_reducible repeat' (first
      | assumption | exact hf.sub rfl | apply State.put_kept | apply State.setStState_kept | apply State.stnFree_kept
      | intro x)

theorem State.stnEnd_kept (s : State) (a : Nat) (st : Nat) (roseAlready : Bool) (h : Kept W p s) (hf : Frees W [.regs, .mem, .ecc, .recd, .evd, .flt, .tly, .forceQ, .dwy, .free]) :
    Kept W p (State.stnEnd s a st roseAlready) := by
  unfold State.stnEnd
  with_reducible repeat' (first
      | assumption | exact hf.sub rfl | apply State.put_kept | apply State.setStState_kept | apply State.setStnGen_kept
      | apply State.stnFree_kept | apply State.stnMark_kept
      | (intro x; first | (refine kept_cut (W := W) (p := p) (v := x) ?_ (fun hx => ?_) <;> [simp only [x]; clear_value x]) | skip)
      | split | lift_lets)

theorem State.stnLeave_kept (s : State) (a : Nat) (reason : Nat) (h : Kept W p s) (hf : Frees W [.regs, .mem, .ecc, .recd, .evd, .flt, .tly, .sent, .eth, .forceQ, .dwy, .free]) :
    Kept W p (State.stnLeave s a reason) := by
  unfold State.stnLeave
  with_reducible repeat' (first
      | assumption | exact hf.sub rfl | apply State.sendLeave_kept | apply State.stnEnd_kept
      | apply State.stnUnoffer_kept
      | (intro x; first | (refine kept_cut (W := W) (p := p) (v := x) ?_ (fun hx => ?_) <;> [simp only [x]; clear_value x]) | skip)
      | split | lift_lets)

theorem State.stnBind_kept (s : State) (a : Nat) (h : Kept W p s) (hf : Frees W [.regs, .recd, .evd, .flt, .tly, .sent, .eth, .dwy, .free]) :
    Kept W p (State.stnBind s a) := by
  unfold State.stnBind
  with_reducible repeat' (first
      | assumption | exact hf.sub rfl | apply State.dwySend_kept | apply State.put_kept | apply State.setStState_kept
      | apply State.setStnRt_kept | apply State.useFree_kept
      | (intro x; first | (refine kept_cut (W := W) (p := p) (v := x) ?_ (fun hx => ?_) <;> [simp only [x]; clear_value x]) | skip)
      | split | lift_lets)

theorem State.joinRefuse_kept (s : State) (a : Option Nat) (f : DwyFrame) (reason : Nat) (h : Kept W p s) (hf : Frees W [.regs, .recd, .evd, .flt, .tly, .sent, .eth, .free]) :
    Kept W p (State.joinRefuse s a f reason) := by
  unfold State.joinRefuse
  with_reducible repeat' (first
      | assumption | exact hf.sub rfl | apply State.dwySend_kept | apply State.incMod_kept | apply State.put_kept
      | apply State.raise_kept | apply State.setFault_kept | apply State.useFree_kept
      | (intro x; first | (refine kept_cut (W := W) (p := p) (v := x) ?_ (fun hx => ?_) <;> [simp only [x]; clear_value x]) | skip)
      | split | lift_lets)

theorem State.joinReserve_kept (s : State) (a : Nat) (f : DwyFrame) (dslot : Nat) (h : Kept W p s) (hf : Frees W [.regs, .dwy]) :
    Kept W p (State.joinReserve s a f dslot) := by
  unfold State.joinReserve
  with_reducible repeat' (first
      | assumption | exact hf.sub rfl | apply State.putB_kept | apply State.put_kept | apply State.setStnRt_kept
      | (intro x; first | (refine kept_cut (W := W) (p := p) (v := x) ?_ (fun hx => ?_) <;> [simp only [x]; clear_value x]) | skip)
      | split | lift_lets)

theorem State.joinPage_kept (s : State) (a : Nat) (f : DwyFrame) (h : Kept W p s) (hf : Frees W [.regs, .mem, .ecc, .recd, .evd, .flt, .tly, .sent, .eth, .forceQ, .dwy, .free]) :
    Kept W p (State.joinPage s a f) := by
  unfold State.joinPage
  with_reducible repeat' (first
      | assumption | exact hf.sub rfl | apply State.dwySend_kept | apply State.joinRefuse_kept
      | apply State.joinReserve_kept | apply State.setStState_kept | apply State.stnEnd_kept
      | apply State.stnUnoffer_kept
      | (intro x; first | (refine kept_cut (W := W) (p := p) (v := x) ?_ (fun hx => ?_) <;> [simp only [x]; clear_value x]) | skip)
      | split | lift_lets)

theorem State.joinFrame_kept (s : State) (f : DwyFrame) (h : Kept W p s) (hf : Frees W [.regs, .mem, .ecc, .recd, .evd, .flt, .tly, .sent, .eth, .forceQ, .dwy, .free]) :
    Kept W p (State.joinFrame s f) := by
  unfold State.joinFrame
  with_reducible repeat' (first
      | assumption | exact hf.sub rfl | apply State.joinPage_kept | apply State.joinRefuse_kept
      | (intro x; first | (refine kept_cut (W := W) (p := p) (v := x) ?_ (fun hx => ?_) <;> [simp only [x]; clear_value x]) | skip)
      | split | lift_lets)

theorem State.joinTake_kept (s : State) (h : Kept W p s) (hf : Frees W [.dwy]) :
    Kept W p (State.joinTake s) := by
  unfold State.joinTake
  with_reducible repeat' (first
      | assumption | exact hf.sub rfl
      | (intro x; first | (refine kept_cut (W := W) (p := p) (v := x) ?_ (fun hx => ?_) <;> [simp only [x]; clear_value x]) | skip)
      | lift_lets | refine Kept.setDwy ?_ (hf.sub rfl) _)

theorem State.dwyCapacity_kept (s : State) (h : Kept W p s) (hf : Frees W [.regs, .recd, .evd, .flt, .tly, .free]) :
    Kept W p (State.dwyCapacity s) := by
  unfold State.dwyCapacity
  with_reducible repeat' (first
      | assumption | exact hf.sub rfl | apply State.raise_kept | apply State.setFault_kept | intro x | split)

theorem State.dwyWindows_kept (s : State) (h : Kept W p s) (hf : Frees W [.regs, .recd, .evd, .flt, .tly, .free]) :
    Kept W p (State.dwyWindows s) := by
  unfold State.dwyWindows
  with_reducible repeat' (first
      | assumption | exact hf.sub rfl | apply State.raise_kept | apply State.setFault_kept | apply forEach_kept
      | (intro x; first | (refine kept_cut (W := W) (p := p) (v := x) ?_ (fun hx => ?_) <;> [simp only [x]; clear_value x]) | skip)
      | lift_lets)

theorem State.dwyRing_kept (s : State) (isOpen : Bool) (h : Kept W p s) (hf : Frees W [.regs, .recd, .evd, .flt, .tly, .free]) :
    Kept W p (State.dwyRing s isOpen) := by
  unfold State.dwyRing
  with_reducible repeat' (first
      | assumption | exact hf.sub rfl | apply State.cond_kept | apply State.event_kept | apply State.putB_kept
      | apply State.raise_kept | apply State.setFault_kept
      | (intro x; first | (refine kept_cut (W := W) (p := p) (v := x) ?_ (fun hx => ?_) <;> [simp only [x]; clear_value x]) | skip)
      | split | lift_lets)

theorem State.cycleOut_kept (s : State) (a : Nat) (m : Nat) (repeated : Bool) (safeOut : Bool) (h : Kept W p s) (hf : Frees W [.regs, .sent, .eth]) :
    Kept W p (State.cycleOut s a m repeated safeOut) := by
  unfold State.cycleOut
  with_reducible repeat' (first
      | assumption | exact hf.sub rfl | apply State.dwySendAt_kept
      | (intro x; first | (refine kept_cut (W := W) (p := p) (v := x) ?_ (fun hx => ?_) <;> [simp only [x]; clear_value x]) | skip)
      | split | lift_lets)

theorem State.dwyCycleOut_kept (s : State) (k : Nat) (m : Nat) (repeated : Bool) (h : Kept W p s) (hf : Frees W [.regs, .sent, .eth]) :
    Kept W p (State.dwyCycleOut s k m repeated) := by
  unfold State.dwyCycleOut
  with_reducible repeat' (first
      | assumption | exact hf.sub rfl | apply State.cycleOut_kept | apply forEach_kept
      | (intro x; first | (refine kept_cut (W := W) (p := p) (v := x) ?_ (fun hx => ?_) <;> [simp only [x]; clear_value x]) | skip)
      | split | lift_lets)

theorem State.dwyHold_kept (s : State) (h : Kept W p s) (hf : Frees W [.regs, .sent, .eth, .free]) :
    Kept W p (State.dwyHold s) := by
  unfold State.dwyHold
  with_reducible repeat' (first
      | assumption | exact hf.sub rfl | apply State.dwySend_kept | apply State.useFree_kept | intro x | split)

theorem State.stnInputs_kept (s : State) (a : Nat) (f : DwyFrame) (timeOk : Bool) (h : Kept W p s) (hf : Frees W [.mem, .ecc, .forceQ]) :
    Kept W p (State.stnInputs s a f timeOk) := by
  unfold State.stnInputs
  with_reducible repeat' (first
      | assumption | exact hf.sub rfl | apply State.imgWrite_kept | apply forEach_kept
      | (intro x; first | (refine kept_cut (W := W) (p := p) (v := x) ?_ (fun hx => ?_) <;> [simp only [x]; clear_value x]) | skip)
      | split | lift_lets)

theorem State.cycleIn_kept (s : State) (a : Nat) (next : Nat) (f : DwyFrame) (h : Kept W p s) (hf : Frees W [.regs, .mem, .ecc, .recd, .evd, .flt, .tly, .forceQ, .lastRec, .dwy, .free]) :
    Kept W p (State.cycleIn s a next f) := by
  unfold State.cycleIn
  with_reducible repeat' (first
      | assumption | exact hf.sub rfl | apply State.dwyDiscard_kept | apply State.putB_kept | apply State.put_kept
      | apply State.setStnRt_kept | apply State.stnInputs_kept
      | (intro x; first | (refine kept_cut (W := W) (p := p) (v := x) ?_ (fun hx => ?_) <;> [simp only [x]; clear_value x]) | skip)
      | split | lift_lets)

theorem State.stnReadmit_kept (s : State) (a : Nat) (m : Nat) (h : Kept W p s) (hf : Frees W [.regs, .recd, .evd, .flt, .tly, .dwy, .free]) :
    Kept W p (State.stnReadmit s a m) := by
  unfold State.stnReadmit
  with_reducible repeat' (first
      | assumption | exact hf.sub rfl | apply State.raise_kept | apply State.setStState_kept
      | apply State.setStnRt_kept
      | (intro x; first | (refine kept_cut (W := W) (p := p) (v := x) ?_ (fun hx => ?_) <;> [simp only [x]; clear_value x]) | skip)
      | split | lift_lets)

theorem State.stnStat_kept (s : State) (a : Nat) (missed : Bool) (h : Kept W p s) (hf : Frees W [.mem, .ecc, .forceQ]) :
    Kept W p (State.stnStat s a missed) := by
  unfold State.stnStat
  with_reducible repeat' (first
      | assumption | exact hf.sub rfl | apply State.imgWrite_kept
      | (intro x; first | (refine kept_cut (W := W) (p := p) (v := x) ?_ (fun hx => ?_) <;> [simp only [x]; clear_value x]) | skip)
      | split | lift_lets)

theorem State.stnEvaluate_kept (s : State) (m : Nat) (a : Nat) (h : Kept W p s) (hf : Frees W [.regs, .mem, .ecc, .recd, .evd, .flt, .tly, .forceQ, .dwy, .free]) :
    Kept W p (State.stnEvaluate s m a) := by
  unfold State.stnEvaluate
  with_reducible repeat' (first
      | assumption | exact hf.sub rfl | apply State.incMod_kept | apply State.put_kept | apply State.raise_kept
      | apply State.setFault_kept | apply State.setStnGen_kept | apply State.setStnRt_kept | apply State.stnEnd_kept
      | apply State.stnMark_kept | apply State.stnReadmit_kept | apply State.stnStat_kept
      | (first | (intro x; (have : True := by clear_value x; trivial); revert x; refine kept_let (W := W) (p := p) ?_ ?_) | intro x)
      | split | lift_lets)

theorem State.dwyEvaluate_kept (s : State) (k : Nat) (m : Nat) (h : Kept W p s) (hf : Frees W [.regs, .mem, .ecc, .recd, .evd, .flt, .tly, .forceQ, .dwy, .free]) :
    Kept W p (State.dwyEvaluate s k m) := by
  unfold State.dwyEvaluate
  with_reducible repeat' (first
      | assumption | exact hf.sub rfl | apply State.stnEvaluate_kept | apply forEach_kept | intro x | split)

theorem State.dwyEvaluateAt_kept (s : State) (k : Nat) (m : Nat) (t : Nat) (h : Kept W p s) (hf : Frees W [.regs, .mem, .ecc, .recd, .evd, .flt, .tly, .forceQ, .dwy, .free]) :
    Kept W p (State.dwyEvaluateAt s k m t) := by
  unfold State.dwyEvaluateAt
  with_reducible repeat' (first
      | assumption | exact hf.sub rfl | apply State.dwyEvaluate_kept
      | (intro x; first | (refine kept_cut (W := W) (p := p) (v := x) ?_ (fun hx => ?_) <;> [simp only [x]; clear_value x]) | skip)
      | split | lift_lets | refine Kept.setDwy ?_ (hf.sub rfl) _)

theorem State.dwyRun_kept (s : State) (h : Kept W p s) (hf : Frees W [.regs]) :
    Kept W p (State.dwyRun s) := by
  unfold State.dwyRun
  with_reducible repeat' (first
      | assumption | exact hf.sub rfl | apply State.put_kept | apply State.refreshState_kept | intro x)

theorem State.dwyStart_kept (s : State) (h : Kept W p s) (hf : Frees W [.regs, .dwy]) :
    Kept W p (State.dwyStart s) := by
  unfold State.dwyStart
  with_reducible repeat' (first
      | assumption | exact hf.sub rfl | apply State.setStnGen_kept | apply State.setStnRt_kept | apply forEach_kept
      | intro x)

theorem State.stnEnable_kept (s : State) (a : Nat) (h : Kept W p s) (hf : Frees W [.regs, .mem, .ecc, .recd, .evd, .flt, .tly, .sent, .eth, .forceQ, .dwy, .free]) :
    Kept W p (State.stnEnable s a) := by
  unfold State.stnEnable
  with_reducible repeat' (first
      | assumption | exact hf.sub rfl | apply State.setStState_kept | apply State.setSt_kept
      | apply State.stnLeave_kept
      | (intro x; first | (refine kept_cut (W := W) (p := p) (v := x) ?_ (fun hx => ?_) <;> [simp only [x]; clear_value x]) | skip)
      | split | lift_lets)

theorem State.stnFence_kept (s : State) (a : Nat) (h : Kept W p s) (hf : Frees W [.regs, .mem, .ecc, .recd, .evd, .flt, .tly, .sent, .eth, .forceQ, .dwy, .free]) :
    Kept W p (State.stnFence s a) := by
  unfold State.stnFence
  with_reducible repeat' (first | assumption | exact hf.sub rfl | apply State.stnLeave_kept | intro x)

theorem State.stnApplied_kept (s : State) (s1 : State) (a : Nat) (h : Kept W p s) (h1 : Kept W p s1) (hf : Frees W [.regs, .mem, .ecc, .recd, .evd, .flt, .tly, .sent, .eth, .forceQ, .dwy, .free]) :
    Kept W p (State.stnApplied s s1 a) := by
  unfold State.stnApplied
  with_reducible repeat' (first
      | assumption | exact hf.sub rfl | apply State.put_kept | apply State.stnEnable_kept | apply State.stnLeave_kept
      | (intro x; first | (refine kept_cut (W := W) (p := p) (v := x) ?_ (fun hx => ?_) <;> [simp only [x]; clear_value x]) | skip)
      | split | lift_lets)

theorem State.stnsLoaded_kept (s : State) (s1 : State) (pages : List Nat) (h : Kept W p s) (h1 : Kept W p s1) (hf : Frees W [.regs, .mem, .ecc, .recd, .evd, .flt, .tly, .sent, .eth, .forceQ, .dwy, .free]) :
    Kept W p (State.stnsLoaded s s1 pages) := by
  unfold State.stnsLoaded
  with_reducible repeat' (first
      | assumption | exact hf.sub rfl | apply State.stnApplied_kept | apply forEach_kept | intro x)

theorem State.dwyTaskChanged_kept (s : State) (k : Nat) (h : Kept W p s) (hf : Frees W [.regs, .mem, .ecc, .recd, .evd, .flt, .tly, .sent, .eth, .forceQ, .dwy, .free]) :
    Kept W p (State.dwyTaskChanged s k) := by
  unfold State.dwyTaskChanged
  with_reducible repeat' (first
      | assumption | exact hf.sub rfl | apply State.dwyCapacity_kept | apply State.stnLeave_kept | apply forEach_kept
      | intro x)

theorem execAnnounce_kept (s : State) (h : Kept W p s) (hf : Frees W [.regs, .recd, .evd, .flt, .tly, .sent, .eth, .dwy, .free]) :
    OutKept W p (execAnnounce s) := by
  unfold execAnnounce
  with_reducible repeat' (first
      | assumption | exact hf.sub rfl | apply State.dwyRing_kept | apply State.dwySend_kept | apply State.put_kept
      | apply State.useFree_kept | apply OutKept.next
      | (intro x; first | (refine kept_cut (W := W) (p := p) (v := x) ?_ (fun hx => ?_) <;> [simp only [x]; clear_value x]) | skip)
      | split | lift_lets | refine Kept.setDwy ?_ (hf.sub rfl) _)

theorem execAnnounceReturn_kept (dir : Bool) (us : BitVec 16) (s : State) (h : Kept W p s) (hf : Frees W [.regs, .recd, .evd, .flt, .tly, .dwy, .free]) :
    OutKept W p (execAnnounceReturn dir us s) := by
  unfold execAnnounceReturn
  with_reducible repeat' (first
      | assumption | exact hf.sub rfl | apply State.dwyRing_kept | apply State.dwyWindows_kept | apply State.put_kept
      | apply kept_foldl | apply OutKept.next
      | (intro x; first | (refine kept_cut (W := W) (p := p) (v := x) ?_ (fun hx => ?_) <;> [simp only [x]; clear_value x]) | skip)
      | split | lift_lets | refine Kept.setDwy ?_ (hf.sub rfl) _)

theorem execJoin_kept (frame : List Byte) (s : State) (h : Kept W p s) (hf : Frees W [.regs, .mem, .ecc, .recd, .evd, .flt, .tly, .sent, .eth, .forceQ, .lastRec, .dwy, .free]) :
    OutKept W p (execJoin frame s) := by
  unfold execJoin
  with_reducible repeat' (first
      | assumption | exact hf.sub rfl | apply State.dwyDiscard_kept | apply State.joinFrame_kept
      | apply State.joinTake_kept | apply OutKept.next
      | (intro x; first | (refine kept_cut (W := W) (p := p) (v := x) ?_ (fun hx => ?_) <;> [simp only [x]; clear_value x]) | skip)
      | split | lift_lets)

theorem execAccept_kept (frame : List Byte) (s : State) (h : Kept W p s) (hf : Frees W [.regs, .recd, .evd, .flt, .tly, .sent, .eth, .lastRec, .dwy, .free]) :
    OutKept W p (execAccept frame s) := by
  unfold execAccept
  with_reducible repeat' (first
      | assumption | exact hf.sub rfl | apply State.dwyDiscard_kept | apply State.stnBind_kept | apply OutKept.next
      | (intro x; first | (refine kept_cut (W := W) (p := p) (v := x) ?_ (fun hx => ?_) <;> [simp only [x]; clear_value x]) | skip)
      | split | lift_lets)

theorem execOfferLapse_kept (a : Fin 250) (s : State) (h : Kept W p s) (hf : Frees W [.regs, .recd, .evd, .flt, .tly, .dwy, .free]) :
    OutKept W p (execOfferLapse a s) := by
  unfold execOfferLapse
  with_reducible repeat' (first
      | assumption | exact hf.sub rfl | apply State.stnUnoffer_kept | apply OutKept.next | intro x | split)

theorem execCycleIn_kept (frame : List Byte) (s : State) (h : Kept W p s) (hf : Frees W [.regs, .mem, .ecc, .recd, .evd, .flt, .tly, .forceQ, .lastRec, .dwy, .free]) :
    OutKept W p (execCycleIn frame s) := by
  unfold execCycleIn
  with_reducible repeat' (first
      | assumption | exact hf.sub rfl | apply State.cycleIn_kept | apply State.dwyDiscard_kept
      | apply State.incMod_kept | apply State.setFault_kept | apply State.setStnRt_kept | apply OutKept.next
      | (intro x; first | (refine kept_cut (W := W) (p := p) (v := x) ?_ (fun hx => ?_) <;> [simp only [x]; clear_value x]) | skip)
      | split | lift_lets)

theorem execEvaluateStations_kept (k : Fin 32) (s : State) (h : Kept W p s) (hf : Frees W [.regs, .mem, .ecc, .recd, .evd, .flt, .tly, .forceQ, .dwy, .free]) :
    OutKept W p (execEvaluateStations k s) := by
  unfold execEvaluateStations
  with_reducible repeat' (first
      | assumption | exact hf.sub rfl | apply State.dwyEvaluateAt_kept | apply OutKept.next
      | (intro x; first | (refine kept_cut (W := W) (p := p) (v := x) ?_ (fun hx => ?_) <;> [simp only [x]; clear_value x]) | skip)
      | split | lift_lets)

theorem execStnReadmit_kept (a : Fin 250) (m : Fin 4) (s : State) (h : Kept W p s) (hf : Frees W [.regs, .boot, .recd, .evd, .flt, .tly, .dwy, .free]) :
    OutKept W p (execStnReadmit a m s) := by
  unfold execStnReadmit
  with_reducible repeat' (first
      | assumption | exact hf.sub rfl | apply State.action_kept | apply State.setStnRt_kept | apply OutKept.next
      | (intro x; first | (refine kept_cut (W := W) (p := p) (v := x) ?_ (fun hx => ?_) <;> [simp only [x]; clear_value x]) | skip)
      | lift_lets)

theorem execStnLeave_kept (a : Fin 250) (m : Fin 4) (s : State) (h : Kept W p s) (hf : Frees W [.regs, .mem, .ecc, .boot, .recd, .evd, .flt, .tly, .sent, .eth, .forceQ, .dwy, .free]) :
    OutKept W p (execStnLeave a m s) := by
  unfold execStnLeave
  with_reducible repeat' (first
      | assumption | exact hf.sub rfl | apply State.action_kept | apply State.stnLeave_kept | apply OutKept.next
      | intro x)

theorem execRejoin_kept (frame : List Byte) (s : State) (h : Kept W p s) (hf : Frees W [.regs, .mem, .ecc, .recd, .evd, .flt, .tly, .sent, .eth, .forceQ, .lastRec, .dwy, .free]) :
    OutKept W p (execRejoin frame s) := by
  unfold execRejoin
  with_reducible repeat' (first
      | assumption | exact hf.sub rfl | apply State.dwyDiscard_kept | apply State.joinFrame_kept
      | apply State.joinRefuse_kept | apply State.joinReserve_kept | apply State.joinTake_kept
      | apply State.stnBind_kept | apply State.stnEnd_kept | apply OutKept.next
      | (intro x; first | (refine kept_cut (W := W) (p := p) (v := x) ?_ (fun hx => ?_) <;> [simp only [x]; clear_value x]) | skip)
      | split | lift_lets)

theorem execLeave_kept (frame : List Byte) (s : State) (h : Kept W p s) (hf : Frees W [.regs, .mem, .ecc, .recd, .evd, .flt, .tly, .forceQ, .lastRec, .dwy, .free]) :
    OutKept W p (execLeave frame s) := by
  unfold execLeave
  with_reducible repeat' (first
      | assumption | exact hf.sub rfl | apply State.dwyDiscard_kept | apply State.put_kept | apply State.raise_kept
      | apply State.stnEnd_kept | apply OutKept.next
      | (intro x; first | (refine kept_cut (W := W) (p := p) (v := x) ?_ (fun hx => ?_) <;> [simp only [x]; clear_value x]) | skip)
      | split | lift_lets)

theorem execLinkChange_kept (port : Fin 4) (speed : Fin 4) (s : State) (h : Kept W p s) (hf : Frees W [.regs, .recd, .evd, .flt, .tly, .free]) :
    OutKept W p (execLinkChange port speed s) := by
  unfold execLinkChange
  with_reducible repeat' (first
      | assumption | exact hf.sub rfl | apply State.dwyCapacity_kept | apply State.putB_kept
      | apply State.setFault_kept | apply ethLink_kept | apply OutKept.next
      | (intro x; first | (refine kept_cut (W := W) (p := p) (v := x) ?_ (fun hx => ?_) <;> [simp only [x]; clear_value x]) | skip)
      | split | lift_lets)

/-! ### SeqBase -/

theorem State.setMaskBit_kept (s : State) (page : Nat) (f : Fld) (k : Nat) (b : Bool) (h : Kept W p s) (hf : Frees W [.regs]) :
    Kept W p (State.setMaskBit s page f k b) := by
  unfold State.setMaskBit
  with_reducible repeat' (first | assumption | exact hf.sub rfl | apply State.putB_kept | intro x)

theorem State.lapsed_kept (s : State) (k : Nat) (h : Kept W p s) (hf : Frees W [.regs]) :
    Kept W p (State.lapsed s k) := by
  unfold State.lapsed
  with_reducible repeat' (first | assumption | exact hf.sub rfl | apply State.setMaskBit_kept | intro x)

theorem State.setCellW_kept (s : State) (c : Nat) (w : Nat) (v : Nat) (h : Kept W p s) (hf : Frees W [.regs]) :
    Kept W p (State.setCellW s c w v) := by
  unfold State.setCellW
  with_reducible repeat' (first | assumption | exact hf.sub rfl | apply State.setReg_kept | intro x)

theorem State.setCellF_kept (s : State) (c : Nat) (hi : Nat) (lo : Nat) (v : Nat) (h : Kept W p s) (hf : Frees W [.regs]) :
    Kept W p (State.setCellF s c hi lo v) := by
  unfold State.setCellF
  with_reducible repeat' (first | assumption | exact hf.sub rfl | apply State.setCellW_kept | intro x)

theorem State.setCellB_kept (s : State) (c : Nat) (b : Nat) (v : Bool) (h : Kept W p s) (hf : Frees W [.regs]) :
    Kept W p (State.setCellB s c b v) := by
  unfold State.setCellB
  with_reducible repeat' (first | assumption | exact hf.sub rfl | apply State.setCellF_kept | intro x)

theorem State.setCell64_kept (s : State) (c : Nat) (w : Nat) (v : Nat) (h : Kept W p s) (hf : Frees W [.regs]) :
    Kept W p (State.setCell64 s c w v) := by
  unfold State.setCell64
  with_reducible repeat' (first | assumption | exact hf.sub rfl | apply State.setCellW_kept | intro x)

theorem State.setCellWords_kept (s : State) (c : Nat) (ws : List Word) (h : Kept W p s) (hf : Frees W [.regs]) :
    Kept W p (State.setCellWords s c ws) := by
  unfold State.setCellWords
  with_reducible repeat' (first
      | assumption | exact hf.sub rfl | apply State.setReg_kept | apply forEach_kept | intro x)

theorem State.cellKeep_kept (s : State) (c : Nat) (h : Kept W p s) (hf : Frees W [.seq]) :
    Kept W p (State.cellKeep s c) := by
  unfold State.cellKeep
  with_reducible repeat' (first
      | assumption | exact hf.sub rfl
      | (intro x; first | (refine kept_cut (W := W) (p := p) (v := x) ?_ (fun hx => ?_) <;> [simp only [x]; clear_value x]) | skip)
      | split | lift_lets | refine Kept.setSeq ?_ (hf.sub rfl) _)

theorem State.cellReset_kept (s : State) (c : Nat) (h : Kept W p s) (hf : Frees W [.regs]) :
    Kept W p (State.cellReset s c) := by
  unfold State.cellReset
  with_reducible repeat' (first
      | assumption | exact hf.sub rfl | apply State.setCell64_kept | apply State.setCellB_kept
      | apply State.setCellF_kept
      | (intro x; first | (refine kept_cut (W := W) (p := p) (v := x) ?_ (fun hx => ?_) <;> [simp only [x]; clear_value x]) | skip)
      | split | lift_lets)

theorem State.cellsBack_kept (s : State) (c : TaskCycle) (h : Kept W p s) (hf : Frees W [.regs, .seq]) :
    Kept W p (State.cellsBack s c) := by
  unfold State.cellsBack
  with_reducible repeat' (first
      | assumption | exact hf.sub rfl | apply State.cellKeep_kept | apply State.setCellWords_kept | apply kept_foldl
      | apply kept_foldl_fst
      | (intro x; first | (refine kept_cut (W := W) (p := p) (v := x) ?_ (fun hx => ?_) <;> [simp only [x]; clear_value x]) | skip)
      | split | lift_lets)

theorem State.abandon_kept (s : State) (k : Nat) (h : Kept W p s) (hf : Frees W [.regs, .seq]) :
    Kept W p (State.abandon s k) := by
  unfold State.abandon
  with_reducible repeat' (first
      | assumption | exact hf.sub rfl | apply State.cellsBack_kept | apply State.setTask_kept
      | (intro x; first | (refine kept_cut (W := W) (p := p) (v := x) ?_ (fun hx => ?_) <;> [simp only [x]; clear_value x]) | skip)
      | split | lift_lets)

theorem State.loseCycle_kept (s : State) (k : Nat) (h : Kept W p s) (hf : Frees W [.regs, .recd, .evd, .flt, .tly, .seq, .free]) :
    Kept W p (State.loseCycle s k) := by
  unfold State.loseCycle
  with_reducible repeat' (first
      | assumption | exact hf.sub rfl | apply State.abandon_kept | apply State.lapsed_kept | apply State.raise_kept
      | (intro x; first | (refine kept_cut (W := W) (p := p) (v := x) ?_ (fun hx => ?_) <;> [simp only [x]; clear_value x]) | skip)
      | split | lift_lets)

theorem State.seqRefresh_kept (s : State) (h : Kept W p s) (hf : Frees W [.regs, .recd, .evd, .flt, .tly, .free]) :
    Kept W p (State.seqRefresh s) := by
  unfold State.seqRefresh
  with_reducible repeat' (first
      | assumption | exact hf.sub rfl | apply State.raise_kept | apply State.refreshState_kept
      | (intro x; first | (refine kept_cut (W := W) (p := p) (v := x) ?_ (fun hx => ?_) <;> [simp only [x]; clear_value x]) | skip)
      | split | lift_lets)

theorem State.shedRefresh_kept (s : State) (h : Kept W p s) (hf : Frees W [.regs, .flt]) :
    Kept W p (State.shedRefresh s) := by
  unfold State.shedRefresh
  with_reducible repeat' (first
      | assumption | exact hf.sub rfl | apply State.ownDegrade_kept | apply State.putB_kept
      | apply State.refreshState_kept
      | (intro x; first | (refine kept_cut (W := W) (p := p) (v := x) ?_ (fun hx => ?_) <;> [simp only [x]; clear_value x]) | skip)
      | lift_lets)

theorem State.placeRefresh_kept (s : State) (h : Kept W p s) (hf : Frees W [.regs, .flt]) :
    Kept W p (State.placeRefresh s) := by
  unfold State.placeRefresh
  with_reducible repeat' (first
      | assumption | exact hf.sub rfl | apply State.ownDegrade_kept | apply State.putB_kept
      | (intro x; first | (refine kept_cut (W := W) (p := p) (v := x) ?_ (fun hx => ?_) <;> [simp only [x]; clear_value x]) | skip)
      | lift_lets)

theorem State.pairsRefresh_kept (s : State) (h : Kept W p s) (hf : Frees W [.regs]) :
    Kept W p (State.pairsRefresh s) := by
  unfold State.pairsRefresh
  with_reducible repeat' (first
      | assumption | exact hf.sub rfl | apply State.refreshState_kept | apply forEach_kept | intro x | split)

theorem State.shedTask_kept (s : State) (k : Nat) (cap : Bool) (step : Nat) (h : Kept W p s) (hf : Frees W [.regs, .recd, .evd, .flt, .tly, .ang, .sync, .seq, .free]) :
    Kept W p (State.shedTask s k cap step) := by
  unfold State.shedTask
  with_reducible repeat' (first
      | assumption | exact hf.sub rfl | apply State.abandon_kept | apply State.pairsRefresh_kept
      | apply State.placeRefresh_kept | apply State.raise_kept | apply State.setMaskBit_kept | apply State.setTask_kept
      | apply State.shedRefresh_kept | apply State.syncWatch_kept
      | (intro x; first | (refine kept_cut (W := W) (p := p) (v := x) ?_ (fun hx => ?_) <;> [simp only [x]; clear_value x]) | skip)
      | split | lift_lets)

theorem State.xchgRefuse_kept (s : State) (reason : Nat) (step : Nat) (h : Kept W p s) (hf : Frees W [.regs, .recd, .evd, .flt, .tly, .free]) :
    Kept W p (State.xchgRefuse s reason step) := by
  unfold State.xchgRefuse
  with_reducible repeat' (first
      | assumption | exact hf.sub rfl | apply State.put_kept | apply State.raise_kept | apply State.setFault_kept
      | intro x | split)

theorem State.xchgActive_kept (s : State) (h : Kept W p s) (hf : Frees W [.regs]) :
    Kept W p (State.xchgActive s) := by
  unfold State.xchgActive
  with_reducible repeat' (first
      | assumption | exact hf.sub rfl | apply State.putB_kept
      | (intro x; first | (refine kept_cut (W := W) (p := p) (v := x) ?_ (fun hx => ?_) <;> [simp only [x]; clear_value x]) | skip)
      | lift_lets)

theorem State.xchgDisturb_kept (s : State) (h : Kept W p s) (hf : Frees W [.regs, .recd, .evd, .flt, .tly, .free]) :
    Kept W p (State.xchgDisturb s) := by
  unfold State.xchgDisturb
  with_reducible repeat' (first
      | assumption | exact hf.sub rfl | apply State.xchgActive_kept | apply State.xchgRefuse_kept | intro x | split)

theorem State.seqRunning_kept (s : State) (b : Bool) (h : Kept W p s) (hf : Frees W [.seq]) :
    Kept W p (State.seqRunning s b) := by
  unfold State.seqRunning
  with_reducible repeat' (first
      | assumption | exact hf.sub rfl
      | (intro x; first | (refine kept_cut (W := W) (p := p) (v := x) ?_ (fun hx => ?_) <;> [simp only [x]; clear_value x]) | skip)
      | lift_lets | refine Kept.setSeq ?_ (hf.sub rfl) _)

theorem State.stopNow_kept (s : State) (h : Kept W p s) (hf : Frees W [.regs, .recd, .evd, .flt, .tly, .sent, .eth, .lastRec, .dio, .ana, .ax, .ang, .sync, .seq, .free]) :
    Kept W p (State.stopNow s) := by
  unfold State.stopNow
  with_reducible repeat' (first
      | assumption | exact hf.sub rfl | apply State.anaSafeAll_kept | apply State.axStopAll_kept
      | apply State.dioSafeAll_kept | apply State.dwyHold_kept | apply State.put_kept | apply State.seqRefresh_kept
      | apply State.seqRunning_kept | apply State.setTask_kept | apply State.syncWatch_kept | apply forEach_kept
      | (intro x; first | (refine kept_cut (W := W) (p := p) (v := x) ?_ (fun hx => ?_) <;> [simp only [x]; clear_value x]) | skip)
      | lift_lets)

theorem State.forceStop_kept (s : State) (h : Kept W p s) (hf : Frees W [.regs, .recd, .evd, .flt, .tly, .sent, .eth, .lastRec, .dio, .ana, .ax, .ang, .sync, .seq, .free]) :
    Kept W p (State.forceStop s) := by
  unfold State.forceStop
  with_reducible repeat' (first
      | assumption | exact hf.sub rfl | apply State.abandon_kept | apply State.put_kept | apply State.stopNow_kept
      | apply forEach_kept
      | (intro x; first | (refine kept_cut (W := W) (p := p) (v := x) ?_ (fun hx => ?_) <;> [simp only [x]; clear_value x]) | skip)
      | split | lift_lets)

/-! ### Place -/

theorem State.routeRelease_kept (s : State) (src : Nat) (h : Kept W p s) (hf : Frees W [.regs, .recd, .evd, .flt, .free]) :
    Kept W p (State.routeRelease s src) := by
  unfold State.routeRelease
  with_reducible repeat' (first
      | assumption | exact hf.sub rfl | apply State.enqueueEvent_kept | apply kept_foldl | apply kept_foldl_fst
      | (intro x; first | (refine kept_cut (W := W) (p := p) (v := x) ?_ (fun hx => ?_) <;> [simp only [x]; clear_value x]) | skip)
      | split | lift_lets | refine Kept.setEvd ?_ (hf.sub rfl) _)

theorem State.routeChanged_kept (s : State) (src : Nat) (h : Kept W p s) (hf : Frees W [.evd]) :
    Kept W p (State.routeChanged s src) := by
  unfold State.routeChanged
  with_reducible repeat' (first
      | assumption | exact hf.sub rfl
      | (intro x; first | (refine kept_cut (W := W) (p := p) (v := x) ?_ (fun hx => ?_) <;> [simp only [x]; clear_value x]) | skip)
      | split | lift_lets | refine Kept.setEvd ?_ (hf.sub rfl) _)

theorem State.routeTo_kept (s : State) (src : Nat) (a3 : Nat) (h : Kept W p s) (hf : Frees W [.regs, .evd]) :
    Kept W p (State.routeTo s src a3) := by
  unfold State.routeTo
  with_reducible repeat' (first
      | assumption | exact hf.sub rfl | apply State.put_kept | apply State.routeChanged_kept | intro x | split)

theorem State.routesTo_kept (s : State) (k : Nat) (a3 : Nat) (h : Kept W p s) (hf : Frees W [.regs, .evd]) :
    Kept W p (State.routesTo s k a3) := by
  unfold State.routesTo
  with_reducible repeat' (first
      | assumption | exact hf.sub rfl | apply State.routeTo_kept | apply forEach_kept | intro x)

theorem State.entryMove_kept (s : State) (a2 : Nat) (acc : State × List EvEntry × List Nat)
    (q : EvEntry) (h : Kept W p acc.1) (hf : Frees W [.regs, .recd, .flt, .free]) : Kept W p (State.entryMove s a2 acc q).1 := by
  unfold State.entryMove
  dsimp only
  split
  · exact h
  · split
    · exact h
    · exact State.evDrop_kept _ _ _ h (hf.sub rfl)

theorem State.queueMove_kept (s : State) (a2 : Nat) (h : Kept W p s) (hf : Frees W [.regs, .recd, .evd, .flt, .free]) :
    Kept W p (State.queueMove s a2) := by
  unfold State.queueMove
  dsimp only
  have h1 : Kept W p (s.evd.queue.foldl (s.entryMove a2) (s, [], [])).1 :=
    kept_foldl_fst _ _ _ (fun u x hu => State.entryMove_kept _ _ _ _ hu (hf.sub rfl)) h
  generalize (s.evd.queue.foldl (s.entryMove a2) (s, [], [])) = r at h1 ⊢
  exact forEach_kept _ _ _ (h1.setEvd (hf.sub rfl) _) (fun u x hu => State.routeRelease_kept _ _ hu (hf.sub rfl))

theorem State.layTasks_kept (s : State) (h : Kept W p s) (hf : Frees W [.seq]) :
    Kept W p (State.layTasks s) := by
  unfold State.layTasks
  with_reducible repeat' (first
      | assumption | exact hf.sub rfl | apply State.setTask_kept | apply kept_foldl | apply kept_foldl_fst
      | (intro x; first | (refine kept_cut (W := W) (p := p) (v := x) ?_ (fun hx => ?_) <;> [simp only [x]; clear_value x]) | skip)
      | lift_lets)

theorem State.fillTask_kept (s : State) (k : Nat) (h : Kept W p s) (hf : Frees W [.mem, .ecc]) :
    Kept W p (State.fillTask s k) := by
  unfold State.fillTask
  with_reducible repeat' (first
      | assumption | exact hf.sub rfl | apply State.memCopy_kept | apply State.memPut_kept
      | (intro x; first | (refine kept_cut (W := W) (p := p) (v := x) ?_ (fun hx => ?_) <;> [simp only [x]; clear_value x]) | skip)
      | lift_lets)

theorem State.tier0Of_kept (s : State) (a2 : Nat) (h : Kept W p s) (hf : Frees W [.seq]) :
    Kept W p (State.tier0Of s a2) := by
  unfold State.tier0Of
  with_reducible repeat' (first
      | assumption | exact hf.sub rfl | apply State.setTask_kept | apply kept_foldl | apply kept_foldl_fst
      | (intro x; first | (refine kept_cut (W := W) (p := p) (v := x) ?_ (fun hx => ?_) <;> [simp only [x]; clear_value x]) | skip)
      | lift_lets)

theorem State.placeEntries_kept (s : State) (s1 : State) (h : Kept W p s) (h1 : Kept W p s1) (hf : Frees W [.mem, .ecc]) :
    Kept W p (State.placeEntries s s1) := by
  unfold State.placeEntries
  with_reducible repeat' (first
      | assumption | exact hf.sub rfl | apply State.memCopy_kept | apply State.setDirW_kept | apply kept_foldl
      | apply kept_foldl_fst
      | (intro x; first | (refine kept_cut (W := W) (p := p) (v := x) ?_ (fun hx => ?_) <;> [simp only [x]; clear_value x]) | skip)
      | lift_lets)

theorem State.tier0_kept (s : State) (h : Kept W p s) (hf : Frees W [.mem, .ecc, .seq]) :
    Kept W p (State.tier0 s) := by
  unfold State.tier0
  with_reducible repeat' (first
      | assumption | exact hf.sub rfl | apply State.memCopy_kept | apply State.memPut_kept
      | apply State.placeEntries_kept | apply State.tier0Of_kept | apply forEach_kept
      | (intro x; first | (refine kept_cut (W := W) (p := p) (v := x) ?_ (fun hx => ?_) <;> [simp only [x]; clear_value x]) | skip)
      | lift_lets)

theorem State.hostNow_kept (s : State) (k : Nat) (a3 : Nat) (fill : Bool) (h : Kept W p s) (hf : Frees W [.regs, .evd, .seq]) :
    Kept W p (State.hostNow s k a3 fill) := by
  unfold State.hostNow
  with_reducible repeat' (first
      | assumption | exact hf.sub rfl | apply State.routesTo_kept | apply State.setTask_kept
      | (intro x; first | (refine kept_cut (W := W) (p := p) (v := x) ?_ (fun hx => ?_) <;> [simp only [x]; clear_value x]) | skip)
      | lift_lets)

theorem State.placeInstall_kept (s : State) (cause : Nat) (gone : Option Nat) (pl : Plan) (h : Kept W p s) (hf : Frees W [.regs, .mem, .ecc, .recd, .evd, .flt, .tly, .sent, .eth, .lastRec, .dio, .ana, .ax, .ang, .sync, .seq, .free]) :
    Kept W p (State.placeInstall s cause gone pl).1 := by
  unfold State.placeInstall
  with_reducible repeat' (first
      | assumption | exact hf.sub rfl | apply State.cond_kept | apply State.fillTask_kept | apply State.forceStop_kept
      | apply State.hostNow_kept | apply State.incSat_kept | apply State.pairsRefresh_kept
      | apply State.placeRefresh_kept | apply State.put_kept | apply State.raise_kept | apply State.setFault_kept
      | apply State.setMaskBit_kept | apply State.setTask_kept | apply State.shedRefresh_kept
      | apply State.shedTask_kept | apply State.tier0_kept | apply forEach_kept | apply onlyIf_kept | apply kept_foldl
      | apply kept_foldl_fst
      | (intro x; first | (refine kept_cut (W := W) (p := p) (v := x) ?_ (fun hx => ?_) <;> [simp only [x]; clear_value x]) | skip)
      | split | lift_lets | refine Kept.setSeq ?_ (hf.sub rfl) _)

theorem State.placeRun_kept (s : State) (cause : Nat) (gone : Option Nat) (h : Kept W p s) (hf : Frees W [.regs, .mem, .ecc, .recd, .evd, .flt, .tly, .sent, .eth, .lastRec, .dio, .ana, .ax, .ang, .sync, .seq, .free]) :
    Kept W p (State.placeRun s cause gone).1 := by
  unfold State.placeRun
  with_reducible repeat' (first | assumption | exact hf.sub rfl | apply State.placeInstall_kept | intro x)

theorem State.placeAlone_kept (s : State) (k : Nat) (h : Kept W p s) (hf : Frees W [.regs, .mem, .ecc, .recd, .evd, .flt, .tly, .seq, .free]) :
    Kept W p (State.placeAlone s k).1 := by
  unfold State.placeAlone
  with_reducible repeat' (first
      | assumption | exact hf.sub rfl | apply State.hostNow_kept | apply State.placeRefresh_kept
      | apply State.raise_kept | apply State.setMaskBit_kept | apply State.tier0_kept
      | (intro x; first | (refine kept_cut (W := W) (p := p) (v := x) ?_ (fun hx => ?_) <;> [simp only [x]; clear_value x]) | skip)
      | split | lift_lets)

theorem State.moveWindow_kept (s : State) (k : Nat) (h : Kept W p s) (hf : Frees W [.regs, .mem, .ecc, .evd, .flt, .seq]) :
    Kept W p (State.moveWindow s k) := by
  unfold State.moveWindow
  with_reducible repeat' (first
      | assumption | exact hf.sub rfl | apply State.fillTask_kept | apply State.hostNow_kept
      | apply State.pairsRefresh_kept | apply State.placeRefresh_kept | apply State.setTask_kept
      | apply State.tier0_kept
      | (intro x; first | (refine kept_cut (W := W) (p := p) (v := x) ?_ (fun hx => ?_) <;> [simp only [x]; clear_value x]) | skip)
      | split | lift_lets)

theorem State.movesAbandon_kept (s : State) (h : Kept W p s) (hf : Frees W [.regs, .recd, .evd, .flt, .tly, .seq, .free]) :
    Kept W p (State.movesAbandon s) := by
  unfold State.movesAbandon
  with_reducible repeat' (first
      | assumption | exact hf.sub rfl | apply State.placeRefresh_kept | apply State.raise_kept
      | apply State.setFault_kept | apply State.setTask_kept | apply forEach_kept
      | (intro x; first | (refine kept_cut (W := W) (p := p) (v := x) ?_ (fun hx => ?_) <;> [simp only [x]; clear_value x]) | skip)
      | split | lift_lets)

theorem State.lapse_kept (s : State) (k : Nat) (cause : Nat) (addr : Nat) (h : Kept W p s) (hf : Frees W [.regs, .recd, .evd, .flt, .tly, .lastRec, .seq, .free]) :
    Kept W p (State.lapse s k cause addr) := by
  unfold State.lapse
  with_reducible repeat' (first
      | assumption | exact hf.sub rfl | apply State.lapsed_kept | apply State.markRecord_kept | apply State.put_kept
      | apply State.raise_kept | apply State.setFault_kept | apply State.setTask_kept
      | (intro x; first | (refine kept_cut (W := W) (p := p) (v := x) ?_ (fun hx => ?_) <;> [simp only [x]; clear_value x]) | skip)
      | split | lift_lets)

theorem State.measured_kept (s : State) (k : Nat) (us : Nat) (h : Kept W p s) (hf : Frees W [.regs, .recd, .evd, .flt, .tly, .seq, .free]) :
    Kept W p (State.measured s k us) := by
  unfold State.measured
  with_reducible repeat' (first
      | assumption | exact hf.sub rfl | apply State.raise_kept | apply State.setFault_kept | apply State.setTask_kept
      | (intro x; first | (refine kept_cut (W := W) (p := p) (v := x) ?_ (fun hx => ?_) <;> [simp only [x]; clear_value x]) | skip)
      | split | lift_lets)

theorem State.placeResult_kept (s : State) (r : Nat) (h : Kept W p s) (hf : Frees W [.regs]) :
    Kept W p (State.placeResult s r) := by
  unfold State.placeResult
  with_reducible repeat' (first | assumption | exact hf.sub rfl | apply State.put_kept | intro x)

theorem State.placeCmd_kept (s : State) (off : Nat) (m : Nat) (f : State → State) (h : Kept W p s) (hf : Frees W [.regs, .boot, .recd, .evd, .flt, .tly, .free]) (hf4 : ∀ x0, Kept W p x0 → Kept W p (f x0)) :
    Kept W p (State.placeCmd s off m f) := by
  unfold State.placeCmd
  with_reducible repeat' (first
      | assumption | exact hf.sub rfl | apply State.actionRes_kept | apply hf4 | intro x | split)

theorem execReplace_kept (m : Fin 4) (s : State) (h : Kept W p s) (hf : Frees W [.regs, .mem, .ecc, .boot, .recd, .evd, .flt, .tly, .sent, .eth, .lastRec, .dio, .ana, .ax, .ang, .sync, .seq, .free]) :
    OutKept W p (execReplace m s) := by
  unfold execReplace
  with_reducible repeat' (first
      | assumption | exact hf.sub rfl | apply State.placeCmd_kept | apply State.placeResult_kept
      | apply State.placeRun_kept | apply State.raise_kept | apply OutKept.next
      | (intro x; first | (refine kept_cut (W := W) (p := p) (v := x) ?_ (fun hx => ?_) <;> [simp only [x]; clear_value x]) | skip)
      | split | lift_lets)

theorem execAbandonMoves_kept (m : Fin 4) (s : State) (h : Kept W p s) (hf : Frees W [.regs, .boot, .recd, .evd, .flt, .tly, .seq, .free]) :
    OutKept W p (execAbandonMoves m s) := by
  unfold execAbandonMoves
  with_reducible repeat' (first
      | assumption | exact hf.sub rfl | apply State.movesAbandon_kept | apply State.placeCmd_kept
      | apply State.placeResult_kept | apply OutKept.next | intro x)

theorem execMoveStalled_kept (s : State) (h : Kept W p s) (hf : Frees W [.regs, .recd, .evd, .flt, .tly, .seq, .free]) :
    OutKept W p (execMoveStalled s) := by
  unfold execMoveStalled
  with_reducible repeat' (first
      | assumption | exact hf.sub rfl | apply State.movesAbandon_kept | apply OutKept.next | intro x | split)

theorem execPlacementRunFence_kept (a1 : Fin 4) (ran : List (Fin 32 × BitVec 32)) (s : State) (h : Kept W p s) (hf : Frees W [.regs, .mem, .ecc, .recd, .evd, .flt, .tly, .sent, .eth, .lastRec, .dio, .ana, .ax, .ang, .sync, .seq, .free]) :
    OutKept W p (execPlacementRunFence a1 ran s) := by
  unfold execPlacementRunFence
  with_reducible repeat' (first
      | assumption | exact hf.sub rfl | apply State.measured_kept | apply State.placeRun_kept
      | apply State.queueMove_kept | apply State.setTask_kept | apply State.xchgDisturb_kept | apply forEach_kept
      | apply OutKept.next
      | (intro x; first | (refine kept_cut (W := W) (p := p) (v := x) ?_ (fun hx => ?_) <;> [simp only [x]; clear_value x]) | skip)
      | split | lift_lets)

theorem execTier0FillDone_kept (k : Fin 32) (s : State) (h : Kept W p s) (hf : Frees W [.mem, .ecc, .seq]) :
    OutKept W p (execTier0FillDone k s) := by
  unfold execTier0FillDone
  with_reducible repeat' (first
      | assumption | exact hf.sub rfl | apply State.fillTask_kept | apply State.setTask_kept | apply OutKept.next
      | (intro x; first | (refine kept_cut (W := W) (p := p) (v := x) ?_ (fun hx => ?_) <;> [simp only [x]; clear_value x]) | skip)
      | split | lift_lets)

theorem State.directoryWrite_kept (s : State) (i : Nat) (w : Nat) (v : Word) (h : Kept W p s) (hf : Frees W [.regs, .mem, .ecc, .recd, .evd, .flt, .tly, .free]) :
    Kept W p (State.directoryWrite s i w v) := by
  unfold State.directoryWrite
  with_reducible repeat' (first
      | assumption | exact hf.sub rfl | apply State.raise_kept | apply State.setDirW_kept | apply State.setFault_kept
      | intro x | split)

theorem execDirectoryWrite_kept (i : Fin 32768) (w : Fin 4) (v : BitVec 32) (s : State) (h : Kept W p s) (hf : Frees W [.regs, .mem, .ecc, .recd, .evd, .flt, .tly, .free]) :
    OutKept W p (execDirectoryWrite i w v s) := by
  unfold execDirectoryWrite
  with_reducible repeat' (first
      | assumption | exact hf.sub rfl | apply State.directoryWrite_kept | apply OutKept.next | intro x)

theorem execForce_kept (m : Fin 4) (s : State) (h : Kept W p s) (hf : Frees W [.regs, .boot, .recd, .evd, .flt, .tly, .forceReq, .free]) :
    OutKept W p (execForce m s) := by
  unfold execForce
  with_reducible repeat' (first
      | assumption | exact hf.sub rfl | apply State.placeCmd_kept | apply State.placeResult_kept | apply kept_foldl
      | apply OutKept.next
      | (intro x; first | (refine kept_cut (W := W) (p := p) (v := x) ?_ (fun hx => ?_) <;> [simp only [x]; clear_value x]) | skip)
      | split | lift_lets | refine Kept.setForceReq ?_ (hf.sub rfl) _)

theorem execForceRelease_kept (m : Fin 4) (s : State) (h : Kept W p s) (hf : Frees W [.regs, .boot, .recd, .evd, .flt, .tly, .forceReq, .free]) :
    OutKept W p (execForceRelease m s) := by
  unfold execForceRelease
  with_reducible repeat' (first
      | assumption | exact hf.sub rfl | apply State.placeCmd_kept | apply State.placeResult_kept | apply OutKept.next
      | (intro x; first | (refine kept_cut (W := W) (p := p) (v := x) ?_ (fun hx => ?_) <;> [simp only [x]; clear_value x]) | skip)
      | lift_lets | refine Kept.setForceReq ?_ (hf.sub rfl) _)

theorem State.forceEffect_kept (s : State) (r : Nat × Option Nat) (h : Kept W p s) (hf : Frees W [.mem, .ecc, .forceQ]) :
    Kept W p (State.forceEffect s r) := by
  unfold State.forceEffect
  with_reducible repeat' (first
      | assumption | exact hf.sub rfl | apply State.memWr_kept | apply State.setDirW_kept
      | (intro x; first | (refine kept_cut (W := W) (p := p) (v := x) ?_ (fun hx => ?_) <;> [simp only [x]; clear_value x]) | skip)
      | split | lift_lets | refine Kept.setForceQ ?_ (hf.sub rfl) _)

theorem execForceTakeEffect_kept (s : State) (h : Kept W p s) (hf : Frees W [.mem, .ecc, .forceQ, .forceReq]) :
    OutKept W p (execForceTakeEffect s) := by
  unfold execForceTakeEffect
  with_reducible repeat' (first
      | assumption | exact hf.sub rfl | apply State.forceEffect_kept | apply kept_foldl | apply OutKept.next
      | (intro x; first | (refine kept_cut (W := W) (p := p) (v := x) ?_ (fun hx => ?_) <;> [simp only [x]; clear_value x]) | skip)
      | lift_lets | refine Kept.setForceReq ?_ (hf.sub rfl) _)

/-! ### PairBase -/

theorem State.dvlSend_kept (s : State) (type : Nat) (payload : List Byte) (h : Kept W p s) (hf : Frees W [.regs, .sent, .pair]) :
    Kept W p (State.dvlSend s type payload) := by
  unfold State.dvlSend
  with_reducible repeat' (first
      | assumption | exact hf.sub rfl | apply State.incMod_kept | apply State.send_kept | apply forEach_kept
      | (intro x; first | (refine kept_cut (W := W) (p := p) (v := x) ?_ (fun hx => ?_) <;> [simp only [x]; clear_value x]) | skip)
      | split | lift_lets | refine Kept.setPair ?_ (hf.sub rfl) _)

theorem State.setPair_kept (s : State) (a2 : PairRt) (h : Kept W p s) (hf : Frees W [.pair]) :
    Kept W p (State.setPair s a2) := by
  unfold State.setPair
  with_reducible repeat' (first
      | assumption | exact hf.sub rfl
      | (intro x; first | (refine kept_cut (W := W) (p := p) (v := x) ?_ (fun hx => ?_) <;> [simp only [x]; clear_value x]) | skip)
      | lift_lets | refine Kept.setPair ?_ (hf.sub rfl) _)

theorem State.setRole_kept (s : State) (v : Nat) (cause : Nat) (h : Kept W p s) (hf : Frees W [.regs, .recd, .evd, .flt, .tly, .free]) :
    Kept W p (State.setRole s v cause) := by
  unfold State.setRole
  with_reducible repeat' (first
      | assumption | exact hf.sub rfl | apply State.event_kept | apply State.put_kept | apply State.raise_kept
      | (intro x; first | (refine kept_cut (W := W) (p := p) (v := x) ?_ (fun hx => ?_) <;> [simp only [x]; clear_value x]) | skip)
      | split | lift_lets)

theorem State.setPairState_kept (s : State) (v : Nat) (h : Kept W p s) (hf : Frees W [.regs, .recd, .evd, .flt, .tly, .free]) :
    Kept W p (State.setPairState s v) := by
  unfold State.setPairState
  with_reducible repeat' (first
      | assumption | exact hf.sub rfl | apply State.event_kept | apply State.put_kept | apply State.raise_kept
      | (intro x; first | (refine kept_cut (W := W) (p := p) (v := x) ?_ (fun hx => ?_) <;> [simp only [x]; clear_value x]) | skip)
      | split | lift_lets)

theorem State.pairFollow_kept (s : State) (h : Kept W p s) (hf : Frees W [.regs, .recd, .evd, .flt, .tly, .free]) :
    Kept W p (State.pairFollow s) := by
  unfold State.pairFollow
  with_reducible repeat' (first | assumption | exact hf.sub rfl | apply State.setPairState_kept | intro x | split)

theorem State.areaWrite_kept (s : State) (r : Nat) (k : Nat) (l : Nat) (b : List Byte) (h : Kept W p s) (hf : Frees W [.mem, .ecc, .forceQ]) :
    Kept W p (State.areaWrite s r k l b) := by
  unfold State.areaWrite
  with_reducible repeat' (first
      | assumption | exact hf.sub rfl | apply State.memPut_kept
      | (intro x; first | (refine kept_cut (W := W) (p := p) (v := x) ?_ (fun hx => ?_) <;> [simp only [x]; clear_value x]) | skip)
      | split | lift_lets | refine Kept.setForceQ ?_ (hf.sub rfl) _)

theorem State.sendCopy_kept (s : State) (k : Nat) (cycle : Nat) (tau : Nat) (digest : Nat) (eligible : Bool) (whole : Bool) (frozen : Bool) (lines : List (Nat × Nat × List Byte)) (h : Kept W p s) (hf : Frees W [.regs, .sent, .seq, .pair]) :
    Kept W p (State.sendCopy s k cycle tau digest eligible whole frozen lines) := by
  unfold State.sendCopy
  with_reducible repeat' (first
      | assumption | exact hf.sub rfl | apply State.dvlSend_kept | apply State.setPair_kept | apply State.setTask_kept
      | apply kept_foldl | apply kept_foldl_fst
      | (intro x; first | (refine kept_cut (W := W) (p := p) (v := x) ?_ (fun hx => ?_) <;> [simp only [x]; clear_value x]) | skip)
      | lift_lets)

theorem State.sendFull_kept (s : State) (k : Nat) (h : Kept W p s) (hf : Frees W [.regs, .sent, .seq, .pair]) :
    Kept W p (State.sendFull s k) := by
  unfold State.sendFull
  with_reducible repeat' (first
      | assumption | exact hf.sub rfl | apply State.sendCopy_kept
      | (intro x; first | (refine kept_cut (W := W) (p := p) (v := x) ?_ (fun hx => ?_) <;> [simp only [x]; clear_value x]) | skip)
      | lift_lets)

theorem State.sendFullAll_kept (s : State) (h : Kept W p s) (hf : Frees W [.regs, .sent, .seq, .pair]) :
    Kept W p (State.sendFullAll s) := by
  unfold State.sendFullAll
  with_reducible repeat' (first
      | assumption | exact hf.sub rfl | apply State.sendFull_kept | apply forEach_kept | intro x)

theorem State.readyRefresh_kept (s : State) (h : Kept W p s) (hf : Frees W [.regs, .recd, .evd, .flt, .tly, .free]) :
    Kept W p (State.readyRefresh s) := by
  unfold State.readyRefresh
  with_reducible repeat' (first
      | assumption | exact hf.sub rfl | apply State.putB_kept | apply State.raise_kept | apply State.setPairState_kept
      | (intro x; first | (refine kept_cut (W := W) (p := p) (v := x) ?_ (fun hx => ?_) <;> [simp only [x]; clear_value x]) | skip)
      | split | lift_lets)

theorem State.outputsFollow_kept (s : State) (h : Kept W p s) (hf : Frees W [.regs, .recd, .evd, .flt, .tly, .dio, .ax, .free]) :
    Kept W p (State.outputsFollow s) := by
  unfold State.outputsFollow
  with_reducible repeat' (first
      | assumption | exact hf.sub rfl | apply State.axFence_kept | apply State.axesStart_kept
      | apply State.dioRefreshAll_kept | apply forEach_kept
      | (intro x; first | (refine kept_cut (W := W) (p := p) (v := x) ?_ (fun hx => ?_) <;> [simp only [x]; clear_value x]) | skip)
      | split | lift_lets)

theorem State.countSwitch_kept (s : State) (cause : Nat) (h : Kept W p s) (hf : Frees W [.regs, .recd, .evd, .flt, .tly, .pair, .free]) :
    Kept W p (State.countSwitch s cause) := by
  unfold State.countSwitch
  with_reducible repeat' (first
      | assumption | exact hf.sub rfl | apply State.incMod_kept | apply State.put_kept | apply State.setPair_kept
      | apply State.tallyAdd_kept
      | (intro x; first | (refine kept_cut (W := W) (p := p) (v := x) ?_ (fun hx => ?_) <;> [simp only [x]; clear_value x]) | skip)
      | lift_lets)

theorem State.dropCopies_kept (s : State) (full : List Nat) (h : Kept W p s) (hf : Frees W [.pair]) :
    Kept W p (State.dropCopies s full) := by
  unfold State.dropCopies
  with_reducible repeat' (first
      | assumption | exact hf.sub rfl | apply State.setPair_kept
      | (intro x; first | (refine kept_cut (W := W) (p := p) (v := x) ?_ (fun hx => ?_) <;> [simp only [x]; clear_value x]) | skip)
      | lift_lets)

theorem State.giveDuty_kept (s : State) (cause : Nat) (roleCause : Nat) (yieldOut : Bool) (h : Kept W p s) (hf : Frees W [.regs, .recd, .evd, .flt, .tly, .dio, .ax, .sync, .seq, .pair, .free]) :
    Kept W p (State.giveDuty s cause roleCause yieldOut) := by
  unfold State.giveDuty
  with_reducible repeat' (first
      | assumption | exact hf.sub rfl | apply State.abandon_kept | apply State.countSwitch_kept
      | apply State.dropCopies_kept | apply State.outputsFollow_kept | apply State.putB_kept | apply State.put_kept
      | apply State.setPairState_kept | apply State.setPair_kept | apply State.setRole_kept
      | apply State.setSyncState_kept | apply State.setSync_kept | apply State.xchgDisturb_kept | apply forEach_kept
      | (intro x; first | (refine kept_cut (W := W) (p := p) (v := x) ?_ (fun hx => ?_) <;> [simp only [x]; clear_value x]) | skip)
      | split | lift_lets)

theorem State.sendHandover_kept (s : State) (cause : Nat) (result : Nat) (a4 : Nat) (h : Kept W p s) (hf : Frees W [.regs, .sent, .pair]) :
    Kept W p (State.sendHandover s cause result a4) := by
  unfold State.sendHandover
  with_reducible repeat' (first | assumption | exact hf.sub rfl | apply State.dvlSend_kept | intro x)

theorem State.yieldDuty_kept (s : State) (h : Kept W p s) (hf : Frees W [.regs, .recd, .evd, .flt, .tly, .sent, .dio, .ax, .sync, .seq, .pair, .free]) :
    Kept W p (State.yieldDuty s) := by
  unfold State.yieldDuty
  with_reducible repeat' (first
      | assumption | exact hf.sub rfl | apply State.giveDuty_kept | apply State.sendHandover_kept
      | apply State.setFault_kept | intro x | split)

theorem State.outputsFromImage_kept (s : State) (h : Kept W p s) (hf : Frees W [.regs, .recd, .evd, .flt, .tly, .lastRec, .dio, .ana, .free]) :
    Kept W p (State.outputsFromImage s) := by
  unfold State.outputsFromImage
  with_reducible repeat' (first
      | assumption | exact hf.sub rfl | apply State.anaTake_kept | apply State.dioRefreshAll_kept
      | apply State.dioTake_kept | apply forEach_kept | intro x)

theorem State.resetCellsOf_kept (s : State) (k : Nat) (h : Kept W p s) (hf : Frees W [.regs]) :
    Kept W p (State.resetCellsOf s k) := by
  unfold State.resetCellsOf
  with_reducible repeat' (first
      | assumption | exact hf.sub rfl | apply State.cellReset_kept | apply forEach_kept | intro x)

theorem State.heldAtEntry_kept (s : State) (k : Nat) (from_ : Nat) (h : Kept W p s) (hf : Frees W [.seq]) :
    Kept W p (State.heldAtEntry s k from_) := by
  unfold State.heldAtEntry
  with_reducible repeat' (first
      | assumption | exact hf.sub rfl | apply State.setTask_kept
      | (intro x; first | (refine kept_cut (W := W) (p := p) (v := x) ?_ (fun hx => ?_) <;> [simp only [x]; clear_value x]) | skip)
      | split | lift_lets)

theorem State.loopsResume_kept (s : State) (h : Kept W p s) (hf : Frees W [.lpe]) :
    Kept W p (State.loopsResume s) := by
  unfold State.loopsResume
  with_reducible repeat' (first
      | assumption | exact hf.sub rfl | apply State.setLoopRt_kept | apply forEach_kept
      | (intro x; first | (refine kept_cut (W := W) (p := p) (v := x) ?_ (fun hx => ?_) <;> [simp only [x]; clear_value x]) | skip)
      | split | lift_lets)

theorem State.resumeTask_kept (s : State) (k : Nat) (h : Kept W p s) (hf : Frees W [.regs, .seq]) :
    Kept W p (State.resumeTask s k) := by
  unfold State.resumeTask
  (try dsimp only)
  with_reducible repeat' (first
      | assumption | exact hf.sub rfl | apply State.lapsed_kept | apply State.put_kept | apply State.setTask_kept
      | (intro x; first | (refine kept_cut (W := W) (p := p) (v := x) ?_ (fun hx => ?_) <;> [simp only [x]; clear_value x]) | skip)
      | split | lift_lets)

theorem State.takeDuty_kept (s : State) (cause : Nat) (h : Kept W p s) (hf : Frees W [.regs, .recd, .evd, .flt, .tly, .lastRec, .dio, .ana, .lpe, .seq, .pair, .free]) :
    Kept W p (State.takeDuty s cause) := by
  unfold State.takeDuty
  with_reducible repeat' (first
      | assumption | exact hf.sub rfl | apply State.anaSafeAll_kept | apply State.countSwitch_kept
      | apply State.dioSafeAll_kept | apply State.heldAtEntry_kept | apply State.loopsResume_kept
      | apply State.outputsFromImage_kept | apply State.put_kept | apply State.raise_kept
      | apply State.resetCellsOf_kept | apply State.resumeTask_kept | apply State.seqRefresh_kept
      | apply State.seqRunning_kept | apply State.setPairState_kept | apply State.setPair_kept
      | apply State.setRole_kept | apply State.setTask_kept | apply forEach_kept | apply kept_foldl
      | (intro x; first | (refine kept_cut (W := W) (p := p) (v := x) ?_ (fun hx => ?_) <;> [simp only [x]; clear_value x]) | skip)
      | split | lift_lets)

/-! ### Load -/

theorem State.imageReg_kept (defer : Bool) (s : State) (r : ImageReg) (h : Kept W p s) (hf : Frees W [.regs, .shad, .buf]) :
    Kept W p (State.imageReg defer s r) := by
  unfold State.imageReg
  with_reducible repeat' (first
      | assumption | exact hf.sub rfl | apply State.put_kept | apply State.refreshState_kept | apply State.setReg_kept
      | apply State.setShadow_kept
      | (intro x; first | (refine kept_cut (W := W) (p := p) (v := x) ?_ (fun hx => ?_) <;> [simp only [x]; clear_value x]) | skip)
      | split | lift_lets | refine Kept.setBuf ?_ (hf.sub rfl) _)

theorem State.imageFixed_kept (s : State) (im : StationImage) (h : Kept W p s) (hf : Frees W [.regs]) :
    Kept W p (State.imageFixed s im) := by
  unfold State.imageFixed
  with_reducible repeat' (first
      | assumption | exact hf.sub rfl | apply State.putB_kept | apply State.put_kept | apply forEach_kept
      | (intro x; first | (refine kept_cut (W := W) (p := p) (v := x) ?_ (fun hx => ?_) <;> [simp only [x]; clear_value x]) | skip)
      | lift_lets)

theorem State.imageClasses_kept (s : State) (h : Kept W p s) (hf : Frees W [.regs, .shad]) :
    Kept W p (State.imageClasses s) := by
  unfold State.imageClasses
  with_reducible repeat' (first
      | assumption | exact hf.sub rfl | apply State.put_kept | apply State.setShadow_kept | apply forEach_kept
      | (intro x; first | (refine kept_cut (W := W) (p := p) (v := x) ?_ (fun hx => ?_) <;> [simp only [x]; clear_value x]) | skip)
      | split | lift_lets)

theorem State.imageValue_kept (load : Bool) (kept : List EntryKept) (s : State) (e : ImageEntry) (h : Kept W p s) (hf : Frees W [.mem, .ecc, .forceQ]) :
    Kept W p (State.imageValue load kept s e) := by
  unfold State.imageValue
  with_reducible repeat' (first
      | assumption | exact hf.sub rfl | apply State.memPut_kept | apply State.setDirW_kept
      | (intro x; first | (refine kept_cut (W := W) (p := p) (v := x) ?_ (fun hx => ?_) <;> [simp only [x]; clear_value x]) | skip)
      | split | lift_lets | refine Kept.setForceQ ?_ (hf.sub rfl) _)

theorem State.imageDir_kept (s : State) (im : StationImage) (load : Bool)
    (carried : List (Nat × Nat)) (h : Kept W p s) (hf : Frees W [.mem, .ecc, .forceQ, .forceReq]) : Kept W p (State.imageDir s im load carried) := by
  unfold State.imageDir
  have h0 : Kept W p ({ s with forceQ := [], forceReq := [] } : State) :=
    (h.setForceQ (hf.sub rfl) []).setForceReq (hf.sub rfl) []
  generalize ({ s with forceQ := [], forceReq := [] } : State) = s0 at h0 ⊢
  with_reducible repeat' (first
      | assumption | exact hf.sub rfl | apply State.imageValue_kept | apply State.setDirW_kept | apply forEach_kept
      | apply kept_foldl | apply kept_foldl_fst
      | (intro x; first | (refine kept_cut (W := W) (p := p) (v := x) ?_ (fun hx => ?_) <;> [simp only [x]; clear_value x]) | skip)
      | lift_lets | refine Kept.setForceQ ?_ (hf.sub rfl) _ | refine Kept.setForceReq ?_ (hf.sub rfl) _)

theorem State.imageStates_kept (s : State) (im : StationImage) (load : Bool) (h : Kept W p s) (hf : Frees W [.mem, .ecc]) :
    Kept W p (State.imageStates s im load) := by
  unfold State.imageStates
  with_reducible repeat' (first
      | assumption | exact hf.sub rfl | apply State.memCopy_kept | apply State.memPut_kept | apply kept_foldl
      | (intro x; first | (refine kept_cut (W := W) (p := p) (v := x) ?_ (fun hx => ?_) <;> [simp only [x]; clear_value x]) | skip)
      | split | lift_lets)

theorem State.imageLapse_kept (s : State) (im : StationImage) (h : Kept W p s) (hf : Frees W [.regs, .recd, .evd, .flt, .tly, .free]) :
    Kept W p (State.imageLapse s im) := by
  unfold State.imageLapse
  with_reducible repeat' (first
      | assumption | exact hf.sub rfl | apply State.put_kept | apply State.raise_kept | intro x | split)

theorem State.imageLoops_kept (s : State) (im : StationImage) (keep : Bool) (h : Kept W p s) (hf : Frees W [.regs, .buf, .mem, .ecc, .recd, .evd, .flt, .tly, .forceQ, .lastRec, .dio, .ana, .lpe, .ax, .seq, .free]) :
    Kept W p (State.imageLoops s im keep) := by
  unfold State.imageLoops
  with_reducible repeat' (first
      | assumption | exact hf.sub rfl | apply State.commitDrop_kept | apply State.lTakeAll_kept | apply State.put_kept
      | apply State.setLoopRt_kept | apply State.setLw_kept | apply forEach_kept | apply kept_foldl
      | (intro x; first | (refine kept_cut (W := W) (p := p) (v := x) ?_ (fun hx => ?_) <;> [simp only [x]; clear_value x]) | skip)
      | split | lift_lets | refine Kept.setLpe ?_ (hf.sub rfl) _)

theorem State.cellAux_kept (s : State) (c : Nat) (h : Kept W p s) (hf : Frees W [.regs]) :
    Kept W p (State.cellAux s c) := by
  unfold State.cellAux
  with_reducible repeat' (first | assumption | exact hf.sub rfl | apply State.setCellW_kept | intro x | split)

theorem State.newCell_kept (s : State) (c : Nat) (h : Kept W p s) (hf : Frees W [.regs]) :
    Kept W p (State.newCell s c) := by
  unfold State.newCell
  with_reducible repeat' (first
      | assumption | exact hf.sub rfl | apply State.cellAux_kept | apply State.setCellB_kept
      | (intro x; first | (refine kept_cut (W := W) (p := p) (v := x) ?_ (fun hx => ?_) <;> [simp only [x]; clear_value x]) | skip)
      | split | lift_lets)

theorem State.loadCells_kept (s : State) (bad : List Nat) (h : Kept W p s) (hf : Frees W [.regs, .recd, .evd, .flt, .tly, .seq, .free]) :
    Kept W p (State.loadCells s bad) := by
  unfold State.loadCells
  with_reducible repeat' (first
      | assumption | exact hf.sub rfl | apply State.cellKeep_kept | apply State.cellReset_kept
      | apply State.newCell_kept | apply State.raise_kept | apply State.setCellF_kept | apply State.setCellWords_kept
      | apply State.setFault_kept | apply forEach_kept
      | (intro x; first | (refine kept_cut (W := W) (p := p) (v := x) ?_ (fun hx => ?_) <;> [simp only [x]; clear_value x]) | skip)
      | split | lift_lets)

theorem State.loadImage_kept (s : State) (im : StationImage) (bad : List Nat) (h : Kept W p s) (hf : Frees W (Part.except [.flash, .boot, .pins, .clk, .ts, .bus, .cal, .now, .can, .pnl, .froze, .asrc, .pair])) :
    Kept W p (State.loadImage s im bad) := by
  unfold State.loadImage
  with_reducible repeat' (first
      | assumption | exact hf.sub rfl | apply State.imageClasses_kept | apply State.imageDir_kept
      | apply State.imageFixed_kept | apply State.imageLapse_kept | apply State.imageLoops_kept
      | apply State.imageReg_kept | apply State.imageStates_kept | apply State.layTasks_kept
      | apply State.loadCells_kept | apply State.placeRun_kept | apply State.put_kept | apply State.setTask_kept
      | apply State.slotApplied_kept | apply State.stnsLoaded_kept | apply forEach_kept | apply kept_foldl
      | apply kept_foldl_fst
      | (intro x; first | (refine kept_cut (W := W) (p := p) (v := x) ?_ (fun hx => ?_) <;> [simp only [x]; clear_value x]) | skip)
      | lift_lets | refine Kept.setSeq ?_ (hf.sub rfl) _)

theorem State.carryCells_kept (s : State) (old : List (Nat × List Word)) (map : List (Nat × Nat)) (h : Kept W p s) (hf : Frees W [.regs, .seq]) :
    Kept W p (State.carryCells s old map) := by
  unfold State.carryCells
  with_reducible repeat' (first
      | assumption | exact hf.sub rfl | apply State.cellKeep_kept | apply State.setCellF_kept
      | apply State.setCellW_kept | apply kept_foldl | apply kept_foldl_fst
      | (first | (intro x; (have : True := by clear_value x; trivial); revert x; refine kept_let (W := W) (p := p) ?_ ?_) | intro x)
      | split | lift_lets)

theorem State.carrySlots_kept (s : State) (map : List (Nat × Nat)) (h : Kept W p s) (hf : Frees W [.lpe]) :
    Kept W p (State.carrySlots s map) := by
  unfold State.carrySlots
  with_reducible repeat' (first
      | assumption | exact hf.sub rfl | apply State.setLoopRt_kept | apply State.setLw_kept | apply forEach_kept
      | apply kept_foldl | apply kept_foldl_fst
      | (intro x; first | (refine kept_cut (W := W) (p := p) (v := x) ?_ (fun hx => ?_) <;> [simp only [x]; clear_value x]) | skip)
      | lift_lets)

theorem State.carryTasks_kept (s : State) (map : List (Nat × Nat)) (h : Kept W p s) (hf : Frees W [.regs, .shad, .seq]) :
    Kept W p (State.carryTasks s map) := by
  unfold State.carryTasks
  with_reducible repeat' (first
      | assumption | exact hf.sub rfl | apply State.setMaskBit_kept | apply State.setReg_kept
      | apply State.setShadow_kept | apply State.setTask_kept | apply forEach_kept
      | (intro x; first | (refine kept_cut (W := W) (p := p) (v := x) ?_ (fun hx => ?_) <;> [simp only [x]; clear_value x]) | skip)
      | lift_lets)

theorem State.exchanged_kept (s : State) (im : StationImage) (map : InstanceMap) (h : Kept W p s) (hf : Frees W (Part.except [.flash, .boot, .pins, .clk, .ts, .bus, .cal, .now, .can, .pnl, .froze, .asrc, .sync, .pair])) :
    Kept W p (State.exchanged s im map) := by
  unfold State.exchanged
  with_reducible repeat' (first
      | assumption | exact hf.sub rfl | apply State.carryCells_kept | apply State.carrySlots_kept
      | apply State.carryTasks_kept | apply State.cellKeep_kept | apply State.dwyTaskChanged_kept
      | apply State.imageClasses_kept | apply State.imageDir_kept | apply State.imageFixed_kept
      | apply State.imageLapse_kept | apply State.imageLoops_kept | apply State.imageReg_kept
      | apply State.imageStates_kept | apply State.layTasks_kept | apply State.loopOutSafe_kept
      | apply State.memCopy_kept | apply State.newCell_kept | apply State.setCellWords_kept
      | apply State.setLoopRt_kept | apply State.setLw_kept | apply State.slotApplied_kept
      | apply State.stnsLoaded_kept | apply forEach_kept | apply kept_foldl | apply kept_foldl_fst
      | (intro x; first | (refine kept_cut (W := W) (p := p) (v := x) ?_ (fun hx => ?_) <;> [simp only [x]; clear_value x]) | skip)
      | lift_lets | refine Kept.setSeq ?_ (hf.sub rfl) _)

theorem State.exchange_kept (s : State) (im : StationImage) (map : InstanceMap) (plan : Plan) (h : Kept W p s) (hf : Frees W (Part.except [.flash, .boot, .pins, .clk, .ts, .bus, .cal, .now, .can, .pnl, .froze, .asrc, .pair])) :
    Kept W p (State.exchange s im map plan) := by
  unfold State.exchange
  with_reducible repeat' (first
      | assumption | exact hf.sub rfl | apply State.exchanged_kept | apply State.placeInstall_kept
      | apply State.placeRun_kept
      | (intro x; first | (refine kept_cut (W := W) (p := p) (v := x) ?_ (fun hx => ?_) <;> [simp only [x]; clear_value x]) | skip)
      | split | lift_lets)

/-! ### Tmr -/

theorem State.cellOut_kept (s : State) (q : Bool) (qd : Bool) (v : Nat) (h : Kept W p s) (hf : Frees W [.seq]) :
    Kept W p (State.cellOut s q qd v) := by
  unfold State.cellOut
  with_reducible repeat' (first
      | assumption | exact hf.sub rfl
      | (intro x; first | (refine kept_cut (W := W) (p := p) (v := x) ?_ (fun hx => ?_) <;> [simp only [x]; clear_value x]) | skip)
      | lift_lets | refine Kept.setSeq ?_ (hf.sub rfl) _)

theorem State.cellCall_kept (s : State) (k : Nat) (c : Nat) (ty : Nat) (f : State → Nat → State) (h : Kept W p s) (hf : Frees W [.regs, .recd, .evd, .flt, .tly, .seq, .free]) (hf5 : ∀ x0 x1, Kept W p x0 → Kept W p (f x0 x1)) :
    Kept W p (State.cellCall s k c ty f) := by
  unfold State.cellCall
  with_reducible repeat' (first
      | assumption | exact hf.sub rfl | apply State.cellKeep_kept | apply State.cellOut_kept | apply State.lapsed_kept
      | apply State.raise_kept | apply State.setFault_kept | apply State.setTask_kept | apply hf5
      | (intro x; first | (refine kept_cut (W := W) (p := p) (v := x) ?_ (fun hx => ?_) <;> [simp only [x]; clear_value x]) | skip)
      | split | lift_lets)

theorem State.timerCall_kept (s : State) (k : Nat) (c : Nat) (ty : Nat) (f : TimerCell → Nat → TimerCell) (pt : Nat) (h : Kept W p s) (hf : Frees W [.regs, .recd, .evd, .flt, .tly, .seq, .free]) :
    Kept W p (State.timerCall s k c ty f pt) := by
  unfold State.timerCall
  with_reducible repeat' (first
      | assumption | exact hf.sub rfl | apply State.cellCall_kept | apply State.cellOut_kept
      | apply State.setCell64_kept | apply State.setCellB_kept
      | (intro x; first | (refine kept_cut (W := W) (p := p) (v := x) ?_ (fun hx => ?_) <;> [simp only [x]; clear_value x]) | skip)
      | lift_lets)

theorem State.counterEnd_kept (s : State) (c : Nat) (pv : Nat) (cv : Int) (memA : Bool) (memB : Bool) (q : Bool) (qd : Bool) (h : Kept W p s) (hf : Frees W [.regs, .seq]) :
    Kept W p (State.counterEnd s c pv cv memA memB q qd) := by
  unfold State.counterEnd
  with_reducible repeat' (first
      | assumption | exact hf.sub rfl | apply State.cellOut_kept | apply State.setCell64_kept
      | apply State.setCellB_kept
      | (intro x; first | (refine kept_cut (W := W) (p := p) (v := x) ?_ (fun hx => ?_) <;> [simp only [x]; clear_value x]) | skip)
      | lift_lets)

theorem State.edgeCall_kept (s : State) (k : Nat) (c : Nat) (ty : Nat) (clk : Bool) (fall : Bool) (h : Kept W p s) (hf : Frees W [.regs, .recd, .evd, .flt, .tly, .seq, .free]) :
    Kept W p (State.edgeCall s k c ty clk fall) := by
  unfold State.edgeCall
  with_reducible repeat' (first
      | assumption | exact hf.sub rfl | apply State.cellCall_kept | apply State.cellOut_kept
      | apply State.setCellB_kept
      | (intro x; first | (refine kept_cut (W := W) (p := p) (v := x) ?_ (fun hx => ?_) <;> [simp only [x]; clear_value x]) | skip)
      | split | lift_lets)

theorem State.latchFast_kept (s : State) (k : Nat) (h : Kept W p s) (hf : Frees W [.regs, .seq]) :
    Kept W p (State.latchFast s k) := by
  unfold State.latchFast
  with_reducible repeat' (first
      | assumption | exact hf.sub rfl | apply State.cellKeep_kept | apply State.setCell64_kept | apply forEach_kept
      | intro x)

theorem execTon_kept (k : Fin 32) (c : Fin 4096) (inp : Bool) (pt : BitVec 64) (s : State) (h : Kept W p s) (hf : Frees W [.regs, .recd, .evd, .flt, .tly, .seq, .free]) :
    OutKept W p (execTon k c inp pt s) := by
  unfold execTon
  with_reducible repeat' (first
      | assumption | exact hf.sub rfl | apply State.timerCall_kept | apply OutKept.next | intro x)

theorem execTof_kept (k : Fin 32) (c : Fin 4096) (inp : Bool) (pt : BitVec 64) (s : State) (h : Kept W p s) (hf : Frees W [.regs, .recd, .evd, .flt, .tly, .seq, .free]) :
    OutKept W p (execTof k c inp pt s) := by
  unfold execTof
  with_reducible repeat' (first
      | assumption | exact hf.sub rfl | apply State.timerCall_kept | apply OutKept.next | intro x)

theorem execTp_kept (k : Fin 32) (c : Fin 4096) (inp : Bool) (pt : BitVec 64) (s : State) (h : Kept W p s) (hf : Frees W [.regs, .recd, .evd, .flt, .tly, .seq, .free]) :
    OutKept W p (execTp k c inp pt s) := by
  unfold execTp
  with_reducible repeat' (first
      | assumption | exact hf.sub rfl | apply State.timerCall_kept | apply OutKept.next | intro x)

theorem execCtu_kept (k : Fin 32) (c : Fin 4096) (cu : Bool) (r : Bool) (pv : BitVec 64) (s : State) (h : Kept W p s) (hf : Frees W [.regs, .recd, .evd, .flt, .tly, .seq, .free]) :
    OutKept W p (execCtu k c cu r pv s) := by
  unfold execCtu
  with_reducible repeat' (first
      | assumption | exact hf.sub rfl | apply State.cellCall_kept | apply State.counterEnd_kept | apply OutKept.next
      | (intro x; first | (refine kept_cut (W := W) (p := p) (v := x) ?_ (fun hx => ?_) <;> [simp only [x]; clear_value x]) | skip)
      | split | lift_lets)

theorem execCtd_kept (k : Fin 32) (c : Fin 4096) (cd : Bool) (ld : Bool) (pv : BitVec 64) (s : State) (h : Kept W p s) (hf : Frees W [.regs, .recd, .evd, .flt, .tly, .seq, .free]) :
    OutKept W p (execCtd k c cd ld pv s) := by
  unfold execCtd
  with_reducible repeat' (first
      | assumption | exact hf.sub rfl | apply State.cellCall_kept | apply State.counterEnd_kept | apply OutKept.next
      | (intro x; first | (refine kept_cut (W := W) (p := p) (v := x) ?_ (fun hx => ?_) <;> [simp only [x]; clear_value x]) | skip)
      | split | lift_lets)

theorem execCtud_kept (k : Fin 32) (c : Fin 4096) (cu : Bool) (cd : Bool) (r : Bool) (ld : Bool) (pv : BitVec 64) (s : State) (h : Kept W p s) (hf : Frees W [.regs, .recd, .evd, .flt, .tly, .seq, .free]) :
    OutKept W p (execCtud k c cu cd r ld pv s) := by
  unfold execCtud
  with_reducible repeat' (first
      | assumption | exact hf.sub rfl | apply State.cellCall_kept | apply State.counterEnd_kept | apply OutKept.next
      | (intro x; first | (refine kept_cut (W := W) (p := p) (v := x) ?_ (fun hx => ?_) <;> [simp only [x]; clear_value x]) | skip)
      | split | lift_lets)

theorem execRTrig_kept (k : Fin 32) (c : Fin 4096) (clk : Bool) (s : State) (h : Kept W p s) (hf : Frees W [.regs, .recd, .evd, .flt, .tly, .seq, .free]) :
    OutKept W p (execRTrig k c clk s) := by
  unfold execRTrig
  with_reducible repeat' (first
      | assumption | exact hf.sub rfl | apply State.edgeCall_kept | apply OutKept.next | intro x)

theorem execFTrig_kept (k : Fin 32) (c : Fin 4096) (clk : Bool) (s : State) (h : Kept W p s) (hf : Frees W [.regs, .recd, .evd, .flt, .tly, .seq, .free]) :
    OutKept W p (execFTrig k c clk s) := by
  unfold execFTrig
  with_reducible repeat' (first
      | assumption | exact hf.sub rfl | apply State.edgeCall_kept | apply OutKept.next | intro x)

theorem execFast_kept (k : Fin 32) (c : Fin 4096) (reset : Bool) (s : State) (h : Kept W p s) (hf : Frees W [.regs, .recd, .evd, .flt, .tly, .seq, .free]) :
    OutKept W p (execFast k c reset s) := by
  unfold execFast
  with_reducible repeat' (first
      | assumption | exact hf.sub rfl | apply State.cellCall_kept | apply State.cellOut_kept
      | apply State.setCell64_kept | apply OutKept.next
      | (intro x; first | (refine kept_cut (W := W) (p := p) (v := x) ?_ (fun hx => ?_) <;> [simp only [x]; clear_value x]) | skip)
      | split | lift_lets)

theorem execFastEdge_kept (ch : Fin 64) (rising : Bool) (s : State) (h : Kept W p s) (hf : Frees W [.regs, .seq]) :
    OutKept W p (execFastEdge ch rising s) := by
  unfold execFastEdge
  with_reducible repeat' (first
      | assumption | exact hf.sub rfl | apply State.cellKeep_kept | apply State.setCell64_kept | apply forEach_kept
      | apply OutKept.next | intro x | split)

/-! ### Seq -/

theorem State.freeze_kept (s : State) (k : Nat) (m : Nat) (at_ : Nat) (h : Kept W p s) (hf : Frees W [.regs, .mem, .ecc, .froze, .seq]) :
    Kept W p (State.freeze s k m at_) := by
  unfold State.freeze
  with_reducible repeat' (first
      | assumption | exact hf.sub rfl | apply State.fillTask_kept | apply State.lapsed_kept
      | apply State.latchFast_kept | apply State.put_kept | apply State.setTask_kept
      | (intro x; first | (refine kept_cut (W := W) (p := p) (v := x) ?_ (fun hx => ?_) <;> [simp only [x]; clear_value x]) | skip)
      | split | lift_lets | refine Kept.setFrozeAt ?_ (hf.sub rfl) _)

theorem State.freezeInstant_kept (s : State) (k : Nat) (m : Nat) (at_ : Nat) (h : Kept W p s) (hf : Frees W [.regs, .mem, .ecc, .recd, .evd, .flt, .tly, .froze, .ang, .sync, .seq, .free]) :
    Kept W p (State.freezeInstant s k m at_) := by
  unfold State.freezeInstant
  with_reducible repeat' (first
      | assumption | exact hf.sub rfl | apply State.freeze_kept | apply State.lapsed_kept | apply State.loseCycle_kept
      | apply State.raise_kept | apply State.setMaskBit_kept | apply State.setTask_kept | apply State.syncWatch_kept
      | (intro x; first | (refine kept_cut (W := W) (p := p) (v := x) ?_ (fun hx => ?_) <;> [simp only [x]; clear_value x]) | skip)
      | split | lift_lets)

theorem State.publishOuts_kept (s : State) (k : Nat) (a3 : Nat) (c : TaskCycle) (h : Kept W p s) (hf : Frees W [.mem, .ecc, .forceQ, .seq]) :
    Kept W p (State.publishOuts s k a3 c) := by
  unfold State.publishOuts
  with_reducible repeat' (first
      | assumption | exact hf.sub rfl | apply State.imgWrite_kept | apply State.keepBefore_kept
      | apply State.memPut_kept | apply kept_foldl | apply kept_foldl_fst
      | (intro x; first | (refine kept_cut (W := W) (p := p) (v := x) ?_ (fun hx => ?_) <;> [simp only [x]; clear_value x]) | skip)
      | lift_lets)

theorem State.publishCopy_kept (s : State) (k : Nat) (c : TaskCycle) (late : Bool) (h : Kept W p s) (hf : Frees W [.regs, .recd, .evd, .flt, .tly, .sent, .lastRec, .seq, .pair, .free]) :
    Kept W p (State.publishCopy s k c late) := by
  unfold State.publishCopy
  with_reducible repeat' (first
      | assumption | exact hf.sub rfl | apply State.incMod_kept | apply State.markRecord_kept | apply State.raise_kept
      | apply State.sendCopy_kept
      | (intro x; first | (refine kept_cut (W := W) (p := p) (v := x) ?_ (fun hx => ?_) <;> [simp only [x]; clear_value x]) | skip)
      | split | lift_lets)

theorem State.closeGap_kept (s : State) (k : Nat) (h : Kept W p s) (hf : Frees W [.regs, .pair]) :
    Kept W p (State.closeGap s k) := by
  unfold State.closeGap
  with_reducible repeat' (first
      | assumption | exact hf.sub rfl | apply State.put_kept | apply State.setPair_kept
      | (intro x; first | (refine kept_cut (W := W) (p := p) (v := x) ?_ (fun hx => ?_) <;> [simp only [x]; clear_value x]) | skip)
      | split | lift_lets)

theorem State.latch_kept (s : State) (k : Nat) (h : Kept W p s) (hf : Frees W [.seq]) :
    Kept W p (State.latch s k) := by
  unfold State.latch
  with_reducible repeat' (first
      | assumption | exact hf.sub rfl | apply State.setTask_kept
      | (intro x; first | (refine kept_cut (W := W) (p := p) (v := x) ?_ (fun hx => ?_) <;> [simp only [x]; clear_value x]) | skip)
      | lift_lets)

theorem State.publish_kept (s : State) (k : Nat) (a3 : Nat) (c : TaskCycle) (copyLate : Bool) (h : Kept W p s) (hf : Frees W [.regs, .mem, .ecc, .recd, .evd, .flt, .tly, .sent, .forceQ, .lastRec, .seq, .pair, .free]) :
    Kept W p (State.publish s k a3 c copyLate) := by
  unfold State.publish
  with_reducible repeat' (first
      | assumption | exact hf.sub rfl | apply State.closeGap_kept | apply State.moveWindow_kept
      | apply State.publishCopy_kept | apply State.publishOuts_kept | apply State.put_kept | apply State.setTask_kept
      | (intro x; first | (refine kept_cut (W := W) (p := p) (v := x) ?_ (fun hx => ?_) <;> [simp only [x]; clear_value x]) | skip)
      | lift_lets)

theorem State.overrun_kept (s : State) (k : Nat) (m : Nat) (c : TaskCycle) (h : Kept W p s) (hf : Frees W [.regs, .recd, .evd, .flt, .tly, .seq, .free]) :
    Kept W p (State.overrun s k m c) := by
  unfold State.overrun
  with_reducible repeat' (first
      | assumption | exact hf.sub rfl | apply State.edge_kept | apply State.incMod_kept | apply State.lapsed_kept
      | apply State.put_kept | apply State.raise_kept | apply State.setFault_kept | apply State.setMaskBit_kept
      | apply State.setTask_kept
      | (intro x; first | (refine kept_cut (W := W) (p := p) (v := x) ?_ (fun hx => ?_) <;> [simp only [x]; clear_value x]) | skip)
      | split | lift_lets)

theorem State.publishInstant_kept (s : State) (k : Nat) (m : Nat) (a4 : Nat) (copyLate : Bool) (h : Kept W p s) (hf : Frees W [.regs, .mem, .ecc, .recd, .evd, .flt, .tly, .sent, .forceQ, .lastRec, .seq, .pair, .free]) :
    Kept W p (State.publishInstant s k m a4 copyLate).1 := by
  unfold State.publishInstant
  with_reducible repeat' (first
      | assumption | exact hf.sub rfl | apply State.abandon_kept | apply State.loseCycle_kept
      | apply State.overrun_kept | apply State.publish_kept
      | (intro x; first | (refine kept_cut (W := W) (p := p) (v := x) ?_ (fun hx => ?_) <;> [simp only [x]; clear_value x]) | skip)
      | split | lift_lets)

theorem State.setWriter_kept (s : State) (m : Nat) (run : Bool) (h : Kept W p s) (hf : Frees W [.seq]) :
    Kept W p (State.setWriter s m run) := by
  unfold State.setWriter
  with_reducible repeat' (first
      | assumption | exact hf.sub rfl
      | (intro x; first | (refine kept_cut (W := W) (p := p) (v := x) ?_ (fun hx => ?_) <;> [simp only [x]; clear_value x]) | skip)
      | lift_lets | refine Kept.setSeq ?_ (hf.sub rfl) _)

theorem State.seqRun_kept (s : State) (m : Nat) (h : Kept W p s) (hf : Frees W [.regs, .recd, .evd, .flt, .tly, .seq, .free]) :
    Kept W p (State.seqRun s m) := by
  unfold State.seqRun
  with_reducible repeat' (first
      | assumption | exact hf.sub rfl | apply State.put_kept | apply State.raise_kept | apply State.setFault_kept
      | apply State.setWriter_kept
      | (intro x; first | (refine kept_cut (W := W) (p := p) (v := x) ?_ (fun hx => ?_) <;> [simp only [x]; clear_value x]) | skip)
      | split | lift_lets)

theorem State.seqStop_kept (s : State) (m : Nat) (h : Kept W p s) (hf : Frees W [.regs, .recd, .evd, .flt, .tly, .seq, .free]) :
    Kept W p (State.seqStop s m) := by
  unfold State.seqStop
  with_reducible repeat' (first
      | assumption | exact hf.sub rfl | apply State.put_kept | apply State.setTask_kept | apply State.setWriter_kept
      | apply State.xchgDisturb_kept | apply forEach_kept
      | (intro x; first | (refine kept_cut (W := W) (p := p) (v := x) ?_ (fun hx => ?_) <;> [simp only [x]; clear_value x]) | skip)
      | split | lift_lets)

theorem State.seqHold_kept (s : State) (m : Nat) (v : Bool) (h : Kept W p s) (hf : Frees W [.regs, .recd, .evd, .flt, .tly, .seq, .free]) :
    Kept W p (State.seqHold s m v) := by
  unfold State.seqHold
  with_reducible repeat' (first
      | assumption | exact hf.sub rfl | apply State.putB_kept | apply State.seqRefresh_kept
      | apply State.setWriter_kept
      | (intro x; first | (refine kept_cut (W := W) (p := p) (v := x) ?_ (fun hx => ?_) <;> [simp only [x]; clear_value x]) | skip)
      | split | lift_lets)

theorem State.ownersAtRun_kept (s : State) (h : Kept W p s) (hf : Frees W [.regs, .recd, .evd, .flt, .tly, .free]) :
    Kept W p (State.ownersAtRun s) := by
  unfold State.ownersAtRun
  with_reducible repeat' (first
      | assumption | exact hf.sub rfl | apply State.put_kept | apply State.raise_kept | apply forEach_kept | intro x)

theorem State.runEntry_kept (s : State) (h : Kept W p s) (hf : Frees W [.regs, .recd, .evd, .flt, .tly, .dio, .lpe, .seq, .free]) :
    Kept W p (State.runEntry s) := by
  unfold State.runEntry
  with_reducible repeat' (first
      | assumption | exact hf.sub rfl | apply State.cellReset_kept | apply State.dioRunEntry_kept
      | apply State.heldAtEntry_kept | apply State.loopRunEntry_kept | apply State.ownersAtRun_kept
      | apply State.put_kept | apply State.seqRefresh_kept | apply State.seqRunning_kept | apply State.setTask_kept
      | apply forEach_kept
      | (intro x; first | (refine kept_cut (W := W) (p := p) (v := x) ?_ (fun hx => ?_) <;> [simp only [x]; clear_value x]) | skip)
      | lift_lets)

theorem State.setXchg_kept (s : State) (v : Nat) (h : Kept W p s) (hf : Frees W [.regs]) :
    Kept W p (State.setXchg s v) := by
  unfold State.setXchg
  with_reducible repeat' (first
      | assumption | exact hf.sub rfl | apply State.put_kept | apply State.xchgActive_kept | intro x)

theorem State.applyAt_kept (s : State) (a2 : StationImage × InstanceMap × Plan) (ns : Nat) (h : Kept W p s) (hf : Frees W (Part.except [.flash, .boot, .pins, .clk, .ts, .bus, .cal, .now, .can, .pnl, .froze, .asrc, .pair])) :
    Kept W p (State.applyAt s a2 ns) := by
  unfold State.applyAt
  with_reducible repeat' (first
      | assumption | exact hf.sub rfl | apply State.exchange_kept | apply State.putB_kept | apply State.put_kept
      | apply State.raise_kept | apply State.setXchg_kept
      | (intro x; first | (refine kept_cut (W := W) (p := p) (v := x) ?_ (fun hx => ?_) <;> [simp only [x]; clear_value x]) | skip)
      | lift_lets)

theorem State.xchgPartner_kept (s : State) (code : Nat) (h : Kept W p s) (hf : Frees W [.regs, .sent, .pair]) :
    Kept W p (State.xchgPartner s code) := by
  unfold State.xchgPartner
  with_reducible repeat' (first
      | assumption | exact hf.sub rfl | apply State.dvlSend_kept | apply State.setPair_kept
      | (intro x; first | (refine kept_cut (W := W) (p := p) (v := x) ?_ (fun hx => ?_) <;> [simp only [x]; clear_value x]) | skip)
      | split | lift_lets)

theorem execTaskFreeze_kept (k : Fin 32) (s : State) (h : Kept W p s) (hf : Frees W [.regs, .mem, .ecc, .recd, .evd, .flt, .tly, .forceQ, .froze, .ang, .sync, .dwy, .seq, .free]) :
    OutKept W p (execTaskFreeze k s) := by
  unfold execTaskFreeze
  with_reducible repeat' (first
      | assumption | exact hf.sub rfl | apply State.dwyEvaluateAt_kept | apply State.freezeInstant_kept
      | apply State.setTask_kept | apply OutKept.next
      | (intro x; first | (refine kept_cut (W := W) (p := p) (v := x) ?_ (fun hx => ?_) <;> [simp only [x]; clear_value x]) | skip)
      | split | lift_lets)

theorem execTaskExecutionEnd_kept (k : Fin 32) (us : BitVec 32) (outs : List (Fin 32768 × Fin 16 × List Byte)) (lines : List (BitVec 32 × List Byte)) (s : State) (h : Kept W p s) (hf : Frees W [.regs, .mem, .ecc, .recd, .evd, .flt, .tly, .sent, .eth, .forceQ, .lastRec, .seq, .pair, .free]) :
    OutKept W p (execTaskExecutionEnd k us outs lines s) := by
  unfold execTaskExecutionEnd
  with_reducible repeat' (first
      | assumption | exact hf.sub rfl | apply State.dwyCycleOut_kept | apply State.latch_kept
      | apply State.measured_kept | apply State.memPut_kept | apply State.publish_kept | apply State.put_kept
      | apply State.raise_kept | apply State.setTask_kept | apply kept_foldl | apply kept_foldl_fst
      | apply OutKept.next
      | (intro x; first | (refine kept_cut (W := W) (p := p) (v := x) ?_ (fun hx => ?_) <;> [simp only [x]; clear_value x]) | skip)
      | split | lift_lets)

theorem execTaskPublish_kept (k : Fin 32) (copyLate : Bool) (s : State) (h : Kept W p s) (hf : Frees W [.regs, .mem, .ecc, .recd, .evd, .flt, .tly, .sent, .eth, .forceQ, .lastRec, .ang, .sync, .seq, .pair, .free]) :
    OutKept W p (execTaskPublish k copyLate s) := by
  unfold execTaskPublish
  with_reducible repeat' (first
      | assumption | exact hf.sub rfl | apply State.dwyCycleOut_kept | apply State.latch_kept
      | apply State.moveWindow_kept | apply State.publishInstant_kept | apply State.syncWatch_kept | apply OutKept.next
      | (intro x; first | (refine kept_cut (W := W) (p := p) (v := x) ?_ (fun hx => ?_) <;> [simp only [x]; clear_value x]) | skip)
      | split | lift_lets)

theorem execTaskApply_kept (k : Fin 32) (s : State) (h : Kept W p s) (hf : Frees W [.regs, .recd, .evd, .flt, .tly, .lastRec, .dio, .ana, .ax, .free]) :
    OutKept W p (execTaskApply k s) := by
  unfold execTaskApply
  with_reducible repeat' (first
      | assumption | exact hf.sub rfl | apply State.anaApply_kept | apply State.anaSafeOf_kept
      | apply State.axApply_kept | apply State.dioApply_kept | apply State.dioSafeOf_kept | apply forEach_kept
      | apply kept_foldl | apply OutKept.next | intro x | split)

theorem execSeqRun_kept (m : Fin 4) (s : State) (h : Kept W p s) (hf : Frees W [.regs, .boot, .recd, .evd, .flt, .tly, .seq, .free]) :
    OutKept W p (execSeqRun m s) := by
  unfold execSeqRun
  with_reducible repeat' (first
      | assumption | exact hf.sub rfl | apply State.action_kept | apply State.seqRun_kept | apply OutKept.next
      | intro x)

theorem execRunEntry_kept (s : State) (h : Kept W p s) (hf : Frees W [.regs, .recd, .evd, .flt, .tly, .dio, .lpe, .seq, .free]) :
    OutKept W p (execRunEntry s) := by
  unfold execRunEntry
  with_reducible repeat' (first
      | assumption | exact hf.sub rfl | apply State.runEntry_kept | apply OutKept.next | intro x | split)

theorem execAutorun_kept (s : State) (h : Kept W p s) (hf : Frees W [.regs, .boot, .recd, .evd, .flt, .tly, .seq, .free]) :
    OutKept W p (execAutorun s) := by
  unfold execAutorun
  with_reducible repeat' (first
      | assumption | exact hf.sub rfl | apply State.action_kept | apply State.seqRun_kept | apply State.setWriter_kept
      | apply OutKept.next | intro x | split)

theorem execSeqStop_kept (m : Fin 4) (s : State) (h : Kept W p s) (hf : Frees W [.regs, .boot, .recd, .evd, .flt, .tly, .seq, .free]) :
    OutKept W p (execSeqStop m s) := by
  unfold execSeqStop
  with_reducible repeat' (first
      | assumption | exact hf.sub rfl | apply State.action_kept | apply State.seqStop_kept | apply OutKept.next
      | intro x)

theorem execStopComplete_kept (s : State) (h : Kept W p s) (hf : Frees W [.regs, .recd, .evd, .flt, .tly, .sent, .eth, .lastRec, .dio, .ana, .ax, .ang, .sync, .seq, .free]) :
    OutKept W p (execStopComplete s) := by
  unfold execStopComplete
  with_reducible repeat' (first
      | assumption | exact hf.sub rfl | apply State.stopNow_kept | apply OutKept.next | intro x | split)

theorem execSeqHold_kept (m : Fin 4) (s : State) (h : Kept W p s) (hf : Frees W [.regs, .boot, .recd, .evd, .flt, .tly, .seq, .free]) :
    OutKept W p (execSeqHold m s) := by
  unfold execSeqHold
  with_reducible repeat' (first
      | assumption | exact hf.sub rfl | apply State.action_kept | apply State.seqHold_kept | apply OutKept.next
      | intro x)

theorem execSeqRelease_kept (m : Fin 4) (s : State) (h : Kept W p s) (hf : Frees W [.regs, .boot, .recd, .evd, .flt, .tly, .seq, .free]) :
    OutKept W p (execSeqRelease m s) := by
  unfold execSeqRelease
  with_reducible repeat' (first
      | assumption | exact hf.sub rfl | apply State.action_kept | apply State.seqHold_kept | apply OutKept.next
      | intro x)

theorem execHoldMask_kept (m : Fin 4) (v : BitVec 32) (s : State) (h : Kept W p s) (hf : Frees W [.regs, .boot, .recd, .evd, .flt, .tly, .free]) :
    OutKept W p (execHoldMask m v s) := by
  unfold execHoldMask
  with_reducible repeat' (first
      | assumption | exact hf.sub rfl | apply State.action_kept | apply State.put_kept | apply State.raise_kept
      | apply State.setFault_kept | apply forEach_kept | apply kept_foldl | apply OutKept.next
      | (intro x; first | (refine kept_cut (W := W) (p := p) (v := x) ?_ (fun hx => ?_) <;> [simp only [x]; clear_value x]) | skip)
      | split | lift_lets)

theorem execStep_kept (m : Fin 4) (v : BitVec 32) (s : State) (h : Kept W p s) (hf : Frees W [.regs, .boot, .recd, .evd, .flt, .tly, .seq, .free]) :
    OutKept W p (execStep m v s) := by
  unfold execStep
  with_reducible repeat' (first
      | assumption | exact hf.sub rfl | apply State.action_kept | apply State.setTask_kept | apply forEach_kept
      | apply OutKept.next
      | (intro x; first | (refine kept_cut (W := W) (p := p) (v := x) ?_ (fun hx => ?_) <;> [simp only [x]; clear_value x]) | skip)
      | lift_lets)

theorem execPrepare_kept (m : Fin 4) (s : State) (h : Kept W p s) (hf : Frees W [.regs, .boot, .recd, .evd, .flt, .tly, .sent, .seq, .pair, .free]) :
    OutKept W p (execPrepare m s) := by
  unfold execPrepare
  with_reducible repeat' (first
      | assumption | exact hf.sub rfl | apply State.action_kept | apply State.put_kept | apply State.setXchg_kept
      | apply State.xchgActive_kept | apply State.xchgPartner_kept | apply State.xchgRefuse_kept | apply OutKept.next
      | (intro x; first | (refine kept_cut (W := W) (p := p) (v := x) ?_ (fun hx => ?_) <;> [simp only [x]; clear_value x]) | skip)
      | split | lift_lets | refine Kept.setSeq ?_ (hf.sub rfl) _)

theorem execExchangePrepared_kept (built : Bool) (partner : Bool) (s : State) (h : Kept W p s) (hf : Frees W (Part.except [.flash, .boot, .pins, .clk, .ts, .bus, .cal, .now, .can, .pnl, .froze, .asrc, .sync, .pair])) :
    OutKept W p (execExchangePrepared built partner s) := by
  unfold execExchangePrepared
  with_reducible repeat' (first
      | assumption | exact hf.sub rfl | apply State.exchanged_kept | apply State.put_kept | apply State.raise_kept
      | apply State.setXchg_kept | apply State.xchgActive_kept | apply State.xchgRefuse_kept | apply OutKept.next
      | (intro x; first | (refine kept_cut (W := W) (p := p) (v := x) ?_ (fun hx => ?_) <;> [simp only [x]; clear_value x]) | skip)
      | split | lift_lets | refine Kept.setSeq ?_ (hf.sub rfl) _)

theorem execApply_kept (m : Fin 4) (partner : Bool) (s : State) (h : Kept W p s) (hf : Frees W [.regs, .boot, .recd, .evd, .flt, .tly, .sent, .seq, .pair, .free]) :
    OutKept W p (execApply m partner s) := by
  unfold execApply
  with_reducible repeat' (first
      | assumption | exact hf.sub rfl | apply State.action_kept | apply State.setXchg_kept
      | apply State.xchgActive_kept | apply State.xchgPartner_kept | apply State.xchgRefuse_kept | apply OutKept.next
      | (intro x; first | (refine kept_cut (W := W) (p := p) (v := x) ?_ (fun hx => ?_) <;> [simp only [x]; clear_value x]) | skip)
      | split | lift_lets | refine Kept.setSeq ?_ (hf.sub rfl) _)

theorem execExchangeWindow_kept (ns : BitVec 32) (s : State) (h : Kept W p s) (hf : Frees W (Part.except [.flash, .boot, .pins, .clk, .ts, .bus, .cal, .now, .can, .pnl, .froze, .asrc])) :
    OutKept W p (execExchangeWindow ns s) := by
  unfold execExchangeWindow
  with_reducible repeat' (first
      | assumption | exact hf.sub rfl | apply State.applyAt_kept | apply State.xchgPartner_kept | apply OutKept.next
      | (intro x; first | (refine kept_cut (W := W) (p := p) (v := x) ?_ (fun hx => ?_) <;> [simp only [x]; clear_value x]) | skip)
      | split | lift_lets)

theorem execExchangeSearchTimeout_kept (s : State) (h : Kept W p s) (hf : Frees W [.regs, .recd, .evd, .flt, .tly, .free]) :
    OutKept W p (execExchangeSearchTimeout s) := by
  unfold execExchangeSearchTimeout
  with_reducible repeat' (first
      | assumption | exact hf.sub rfl | apply State.xchgActive_kept | apply State.xchgRefuse_kept | apply OutKept.next
      | intro x | split)

theorem execCancel_kept (m : Fin 4) (s : State) (h : Kept W p s) (hf : Frees W [.regs, .boot, .recd, .evd, .flt, .tly, .seq, .free]) :
    OutKept W p (execCancel m s) := by
  unfold execCancel
  with_reducible repeat' (first
      | assumption | exact hf.sub rfl | apply State.action_kept | apply State.setXchg_kept
      | apply State.xchgRefuse_kept | apply OutKept.next
      | (intro x; first | (refine kept_cut (W := W) (p := p) (v := x) ?_ (fun hx => ?_) <;> [simp only [x]; clear_value x]) | skip)
      | split | lift_lets | refine Kept.setSeq ?_ (hf.sub rfl) _)

end Sys2Proof.Machine
end

