-- ==== Sys2Proof/Laws/KeptBus.lean ====
section
/-! SUPPORT. One lemma for each operation and each meaning of CAN, RUN, FLT, TIME and IND: what it keeps
(`Kept`), and at most which parts it changes. -/

namespace Sys2Proof.Machine
set_option linter.all false
variable {W : Part → Bool} {p : State}

/-! ### Can -/

theorem State.setCanRt_kept (s : State) (n : Nat) (r : CanRt) (h : Kept W p s) (hf : Frees W [.can]) :
    Kept W p (State.setCanRt s n r) := by
  unfold State.setCanRt
  with_reducible repeat' (first
      | assumption | exact hf.sub rfl
      | (intro x; first | (refine kept_cut (W := W) (p := p) (v := x) ?_ (fun hx => ?_) <;> [simp only [x]; clear_value x]) | skip)
      | lift_lets | refine Kept.setCan ?_ (hf.sub rfl) _)

theorem State.setCanMask_kept (s : State) (n : Nat) (lo : Fld) (hi : Fld) (m : Nat) (h : Kept W p s) (hf : Frees W [.regs]) :
    Kept W p (State.setCanMask s n lo hi m) := by
  unfold State.setCanMask
  with_reducible repeat' (first | assumption | exact hf.sub rfl | apply State.put_kept | intro x)

theorem State.canStat_kept (s : State) (n : Nat) (h : Kept W p s) (hf : Frees W [.mem, .ecc, .can, .forceQ]) :
    Kept W p (State.canStat s n) := by
  unfold State.canStat
  with_reducible repeat' (first
      | assumption | exact hf.sub rfl | apply State.imgWrite_kept | apply State.setCanRt_kept
      | (intro x; first | (refine kept_cut (W := W) (p := p) (v := x) ?_ (fun hx => ?_) <;> [simp only [x]; clear_value x]) | skip)
      | split | lift_lets)

theorem State.canFinish_kept (s : State) (n : Nat) (t : CanTx) (outcome : Nat) (h : Kept W p s) (hf : Frees W [.regs, .mem, .ecc, .recd, .evd, .flt, .can, .free]) :
    Kept W p (State.canFinish s n t outcome) := by
  unfold State.canFinish
  with_reducible repeat' (first
      | assumption | exact hf.sub rfl | apply State.event_kept | apply State.memWr_kept | apply State.setCanMask_kept
      | apply State.setCanRt_kept | apply State.useFree_kept
      | (intro x; first | (refine kept_cut (W := W) (p := p) (v := x) ?_ (fun hx => ?_) <;> [simp only [x]; clear_value x]) | skip)
      | split | lift_lets)

theorem State.canCounters_kept (s : State) (n : Nat) (tec : Nat) (rec : Nat) (h : Kept W p s) (hf : Frees W [.regs, .mem, .ecc, .recd, .evd, .flt, .tly, .can, .free]) :
    Kept W p (State.canCounters s n tec rec) := by
  unfold State.canCounters
  with_reducible repeat' (first
      | assumption | exact hf.sub rfl | apply State.canFinish_kept | apply State.cond_kept | apply State.event_kept
      | apply State.incMod_kept | apply State.putB_kept | apply State.put_kept | apply State.raise_kept
      | apply State.setCanRt_kept | apply State.setFault_kept | apply kept_foldl
      | (intro x; first | (refine kept_cut (W := W) (p := p) (v := x) ?_ (fun hx => ?_) <;> [simp only [x]; clear_value x]) | skip)
      | split | lift_lets)

theorem State.canJoin_kept (s : State) (n : Nat) (h : Kept W p s) (hf : Frees W [.regs]) :
    Kept W p (State.canJoin s n) := by
  unfold State.canJoin
  with_reducible repeat' (first | assumption | exact hf.sub rfl | apply State.put_kept | intro x | split)

theorem State.canRefuse_kept (s : State) (n : Nat) (sub : Nat) (p0 : Nat) (h : Kept W p s) (hf : Frees W [.regs, .recd, .evd, .flt, .tly, .free]) :
    Kept W p (State.canRefuse s n sub p0) := by
  unfold State.canRefuse
  with_reducible repeat' (first
      | assumption | exact hf.sub rfl | apply State.raise_kept | apply State.setFault_kept | intro x)

theorem execTxSubmit_kept (can : Fin 4) (m : Fin 4) (k : Fin 64) (busFree : Bool) (s : State) (h : Kept W p s) (hf : Frees W [.regs, .mem, .ecc, .boot, .recd, .evd, .flt, .tly, .can, .free]) :
    OutKept W p (execTxSubmit can m k busFree s) := by
  unfold execTxSubmit
  with_reducible repeat' (first
      | assumption | exact hf.sub rfl | apply State.action_kept | apply State.canFinish_kept
      | apply State.canRefuse_kept | apply State.setCanMask_kept | apply State.setCanRt_kept | apply kept_foldl
      | apply OutKept.next
      | (intro x; first | (refine kept_cut (W := W) (p := p) (v := x) ?_ (fun hx => ?_) <;> [simp only [x]; clear_value x]) | skip)
      | split | lift_lets)

theorem execTxAbort_kept (can : Fin 4) (m : Fin 4) (k : Fin 64) (s : State) (h : Kept W p s) (hf : Frees W [.regs, .mem, .ecc, .boot, .recd, .evd, .flt, .tly, .can, .free]) :
    OutKept W p (execTxAbort can m k s) := by
  unfold execTxAbort
  with_reducible repeat' (first
      | assumption | exact hf.sub rfl | apply State.action_kept | apply State.canFinish_kept
      | apply State.setCanRt_kept | apply OutKept.next
      | (intro x; first | (refine kept_cut (W := W) (p := p) (v := x) ?_ (fun hx => ?_) <;> [simp only [x]; clear_value x]) | skip)
      | split | lift_lets)

theorem execTxDone_kept (can : Fin 4) (m : Fin 4) (mask : BitVec 64) (s : State) (h : Kept W p s) (hf : Frees W [.regs, .boot, .recd, .evd, .flt, .tly, .free]) :
    OutKept W p (execTxDone can m mask s) := by
  unfold execTxDone
  with_reducible repeat' (first
      | assumption | exact hf.sub rfl | apply State.action_kept | apply State.setCanMask_kept | apply OutKept.next
      | (intro x; first | (refine kept_cut (W := W) (p := p) (v := x) ?_ (fun hx => ?_) <;> [simp only [x]; clear_value x]) | skip)
      | lift_lets)

theorem canStore_kept (n : Nat) (w0 : Nat) (brsEsi : Nat) (dlc : Nat) (rule : Nat) (stamp : Nat) (data : List Byte) (s : State) (h : Kept W p s) (hf : Frees W [.regs, .mem, .ecc, .recd, .evd, .flt, .tly, .can, .lastRec, .free]) :
    Kept W p (canStore n w0 brsEsi dlc rule stamp data s) := by
  unfold canStore
  with_reducible repeat' (first
      | assumption | exact hf.sub rfl | apply State.event_kept | apply State.incMod_kept | apply State.markRecord_kept
      | apply State.memPut_kept | apply State.memWr_kept | apply State.put_kept | apply State.raise_kept
      | apply State.setCanRt_kept | apply State.setFault_kept | apply State.useFree_kept
      | (intro x; first | (refine kept_cut (W := W) (p := p) (v := x) ?_ (fun hx => ?_) <;> [simp only [x]; clear_value x]) | skip)
      | split | lift_lets)

theorem canOffer_kept (n : Nat) (own : Bool) (w0 : Nat) (brsEsi : Nat) (dlc : Nat) (stamp : Nat) (data : List Byte) (s : State) (h : Kept W p s) (hf : Frees W [.regs, .mem, .ecc, .recd, .evd, .flt, .tly, .can, .lastRec, .free]) :
    Kept W p (canOffer n own w0 brsEsi dlc stamp data s) := by
  unfold canOffer
  with_reducible repeat' (first
      | assumption | exact hf.sub rfl | apply canStore_kept
      | (intro x; first | (refine kept_cut (W := W) (p := p) (v := x) ?_ (fun hx => ?_) <;> [simp only [x]; clear_value x]) | skip)
      | split | lift_lets)

theorem canLeave_kept (n : Nat) (s : State) (h : Kept W p s) (hf : Frees W [.regs]) :
    Kept W p (canLeave n s) := by
  unfold canLeave
  with_reducible repeat' (first | assumption | exact hf.sub rfl | apply State.put_kept | intro x | split)

theorem canAttempt_kept (n : Nat) (t : CanTx) (result : Nat) (took : Nat) (s : State) (h : Kept W p s) (hf : Frees W [.regs, .mem, .ecc, .recd, .evd, .flt, .tly, .sent, .can, .lastRec, .free]) :
    Kept W p (canAttempt n t result took s) := by
  unfold canAttempt
  with_reducible repeat' (first
      | assumption | exact hf.sub rfl | apply State.canCounters_kept | apply State.canFinish_kept
      | apply State.send_kept | apply State.setCanRt_kept | apply canOffer_kept
      | (intro x; first | (refine kept_cut (W := W) (p := p) (v := x) ?_ (fun hx => ?_) <;> [simp only [x]; clear_value x]) | skip)
      | split | lift_lets)

theorem execCanTxComplete_kept (can : Fin 4) (ending : CanEnd) (s : State) (h : Kept W p s) (hf : Frees W [.regs, .mem, .ecc, .recd, .evd, .flt, .tly, .sent, .can, .lastRec, .free]) :
    OutKept W p (execCanTxComplete can ending s) := by
  unfold execCanTxComplete
  with_reducible repeat' (first
      | assumption | exact hf.sub rfl | apply canAttempt_kept | apply canLeave_kept | apply OutKept.next
      | (intro x; first | (refine kept_cut (W := W) (p := p) (v := x) ?_ (fun hx => ?_) <;> [simp only [x]; clear_value x]) | clear_value x)
      | split | lift_lets)

theorem execCanReceive_kept (can : Fin 4) (took : BitVec 32) (resRecessive : Bool) (w0 : BitVec 32) (brs : Bool) (esi : Bool) (dlc : Fin 16) (data : List Byte) (s : State) (h : Kept W p s) (hf : Frees W [.regs, .mem, .ecc, .recd, .evd, .flt, .tly, .can, .lastRec, .free]) :
    OutKept W p (execCanReceive can took resRecessive w0 brs esi dlc data s) := by
  unfold execCanReceive
  with_reducible repeat' (first
      | assumption | exact hf.sub rfl | apply State.canCounters_kept | apply State.incMod_kept | apply State.put_kept
      | apply State.raise_kept | apply State.setCanRt_kept | apply State.setReg_kept | apply canOffer_kept
      | apply OutKept.next
      | (intro x; first | (refine kept_cut (W := W) (p := p) (v := x) ?_ (fun hx => ?_) <;> [simp only [x]; clear_value x]) | skip)
      | split | lift_lets)

theorem execRxAck_kept (can : Fin 4) (m : Fin 4) (count : BitVec 8) (s : State) (h : Kept W p s) (hf : Frees W [.regs, .boot, .recd, .evd, .flt, .tly, .can, .free]) :
    OutKept W p (execRxAck can m count s) := by
  unfold execRxAck
  with_reducible repeat' (first
      | assumption | exact hf.sub rfl | apply State.action_kept | apply State.put_kept | apply State.raise_kept
      | apply State.setCanRt_kept | apply OutKept.next
      | (intro x; first | (refine kept_cut (W := W) (p := p) (v := x) ?_ (fun hx => ?_) <;> [simp only [x]; clear_value x]) | skip)
      | split | lift_lets)

theorem execCanBusError_kept (can : Fin 4) (tec : BitVec 9) (rec : BitVec 8) (lec : Fin 7) (dlec : Fin 7) (s : State) (h : Kept W p s) (hf : Frees W [.regs, .mem, .ecc, .recd, .evd, .flt, .tly, .can, .free]) :
    OutKept W p (execCanBusError can tec rec lec dlec s) := by
  unfold execCanBusError
  with_reducible repeat' (first
      | assumption | exact hf.sub rfl | apply State.canCounters_kept | apply State.put_kept | apply State.setCanRt_kept
      | apply OutKept.next
      | (intro x; first | (refine kept_cut (W := W) (p := p) (v := x) ?_ (fun hx => ?_) <;> [simp only [x]; clear_value x]) | skip)
      | split | lift_lets)

theorem execRecover_kept (can : Fin 4) (m : Fin 4) (s : State) (h : Kept W p s) (hf : Frees W [.regs, .boot, .recd, .evd, .flt, .tly, .free]) :
    OutKept W p (execRecover can m s) := by
  unfold execRecover
  with_reducible repeat' (first
      | assumption | exact hf.sub rfl | apply State.action_kept | apply State.put_kept | apply OutKept.next
      | (intro x; first | (refine kept_cut (W := W) (p := p) (v := x) ?_ (fun hx => ?_) <;> [simp only [x]; clear_value x]) | skip)
      | split | lift_lets)

theorem execRecoveryDone_kept (can : Fin 4) (s : State) (h : Kept W p s) (hf : Frees W [.regs, .recd, .evd, .flt, .tly, .free]) :
    OutKept W p (execRecoveryDone can s) := by
  unfold execRecoveryDone
  with_reducible repeat' (first
      | assumption | exact hf.sub rfl | apply State.canJoin_kept | apply State.cond_kept | apply State.event_kept
      | apply State.put_kept | apply State.raise_kept | apply OutKept.next
      | (intro x; first | (refine kept_cut (W := W) (p := p) (v := x) ?_ (fun hx => ?_) <;> [simp only [x]; clear_value x]) | skip)
      | split | lift_lets)

theorem execStartAbr_kept (can : Fin 4) (m : Fin 4) (s : State) (h : Kept W p s) (hf : Frees W [.regs, .boot, .recd, .evd, .flt, .tly, .can, .free]) :
    OutKept W p (execStartAbr can m s) := by
  unfold execStartAbr
  with_reducible repeat' (first
      | assumption | exact hf.sub rfl | apply State.action_kept | apply State.put_kept | apply State.setCanRt_kept
      | apply OutKept.next
      | (intro x; first | (refine kept_cut (W := W) (p := p) (v := x) ?_ (fun hx => ?_) <;> [simp only [x]; clear_value x]) | skip)
      | split | lift_lets)

theorem execAbrFail_kept (can : Fin 4) (s : State) (h : Kept W p s) (hf : Frees W [.regs, .recd, .evd, .flt, .tly, .free]) :
    OutKept W p (execAbrFail can s) := by
  unfold execAbrFail
  with_reducible repeat' (first
      | assumption | exact hf.sub rfl | apply State.put_kept | apply State.raise_kept | apply State.setFault_kept
      | apply OutKept.next
      | (intro x; first | (refine kept_cut (W := W) (p := p) (v := x) ?_ (fun hx => ?_) <;> [simp only [x]; clear_value x]) | skip)
      | split | lift_lets)

theorem canFence_kept (n : Nat) (s : State) (h : Kept W p s) (hf : Frees W [.regs, .mem, .ecc, .recd, .evd, .flt, .can, .free]) :
    Kept W p (canFence n s) := by
  unfold canFence
  with_reducible repeat' (first
      | assumption | exact hf.sub rfl | apply State.canFinish_kept | apply State.put_kept | apply kept_foldl | intro x)

/-! ### Run -/

theorem State.runRefused_kept (s : State) (page : Nat) (off : Nat) (h : Kept W p s) (hf : Frees W [.regs, .recd, .evd, .flt, .tly, .free]) :
    Kept W p (State.runRefused s page off) := by
  unfold State.runRefused
  with_reducible repeat' (first
      | assumption | exact hf.sub rfl | apply State.raise_kept | apply State.setFault_kept | intro x)

theorem State.setRun_kept (s : State) (page : Nat) (v : Bool) (h : Kept W p s) (hf : Frees W [.regs]) :
    Kept W p (State.setRun s page v) := by
  unfold State.setRun
  with_reducible repeat' (first
      | assumption | exact hf.sub rfl | apply State.putB_kept | apply State.refreshState_kept | intro x)

theorem State.dioRun_kept (s : State) (g : Nat) (h : Kept W p s) (hf : Frees W [.regs, .recd, .evd, .flt, .tly, .dio, .free]) :
    Kept W p (State.dioRun s g) := by
  unfold State.dioRun
  with_reducible repeat' (first
      | assumption | exact hf.sub rfl | apply State.dioRefreshGroup_kept | apply State.dioSafe_kept
      | apply State.runRefused_kept | apply State.setDioRt_kept | apply State.setRun_kept | apply forEach_kept
      | (intro x; first | (refine kept_cut (W := W) (p := p) (v := x) ?_ (fun hx => ?_) <;> [simp only [x]; clear_value x]) | skip)
      | split | lift_lets)

theorem State.anaRun_kept (s : State) (n : Nat) (h : Kept W p s) (hf : Frees W [.regs, .recd, .evd, .flt, .tly, .lastRec, .ana, .free]) :
    Kept W p (State.anaRun s n) := by
  unfold State.anaRun
  with_reducible repeat' (first
      | assumption | exact hf.sub rfl | apply State.anaSafe_kept | apply State.runRefused_kept
      | apply State.setRun_kept
      | (intro x; first | (refine kept_cut (W := W) (p := p) (v := x) ?_ (fun hx => ?_) <;> [simp only [x]; clear_value x]) | skip)
      | split | lift_lets)

theorem State.ethRun_kept (s : State) (a2 : Nat) (h : Kept W p s) (hf : Frees W [.regs, .recd, .evd, .flt, .tly, .free]) :
    Kept W p (State.ethRun s a2) := by
  unfold State.ethRun
  with_reducible repeat' (first
      | assumption | exact hf.sub rfl | apply State.runRefused_kept | apply State.setRun_kept
      | (intro x; first | (refine kept_cut (W := W) (p := p) (v := x) ?_ (fun hx => ?_) <;> [simp only [x]; clear_value x]) | skip)
      | split | lift_lets)

theorem State.canRun_kept (s : State) (n : Nat) (h : Kept W p s) (hf : Frees W [.regs, .recd, .evd, .flt, .tly, .free]) :
    Kept W p (State.canRun s n) := by
  unfold State.canRun
  with_reducible repeat' (first
      | assumption | exact hf.sub rfl | apply State.canJoin_kept | apply State.runRefused_kept
      | apply State.setRun_kept
      | (intro x; first | (refine kept_cut (W := W) (p := p) (v := x) ?_ (fun hx => ?_) <;> [simp only [x]; clear_value x]) | skip)
      | split | lift_lets)

theorem State.cpRun_kept (s : State) (a2 : Nat) (h : Kept W p s) (hf : Frees W [.regs]) :
    Kept W p (State.cpRun s a2) := by
  unfold State.cpRun
  with_reducible repeat' (first | assumption | exact hf.sub rfl | apply State.setRun_kept | intro x)

theorem State.cpHalt_kept (s : State) (a2 : Nat) (h : Kept W p s) (hf : Frees W [.regs, .mem, .ecc, .recd, .evd, .flt, .tly, .sent, .eth, .lastRec, .dio, .ana, .ax, .ang, .sync, .seq, .free]) :
    Kept W p (State.cpHalt s a2) := by
  unfold State.cpHalt
  with_reducible repeat' (first
      | assumption | exact hf.sub rfl | apply State.placeRun_kept | apply State.setRun_kept
      | (intro x; first | (refine kept_cut (W := W) (p := p) (v := x) ?_ (fun hx => ?_) <;> [simp only [x]; clear_value x]) | skip)
      | split | lift_lets)

theorem State.runOn_kept (s : State) (page : Nat) (m : Nat) (h : Kept W p s) (hf : Frees W [.regs, .mem, .ecc, .recd, .evd, .flt, .tly, .forceQ, .lastRec, .dio, .ana, .lpe, .ax, .asrc, .ang, .seq, .free]) :
    Kept W p (State.runOn s page m) := by
  unfold State.runOn
  with_reducible repeat' (first
      | assumption | exact hf.sub rfl | apply State.anaRun_kept | apply State.angRun_kept | apply State.asrcRun_kept
      | apply State.axRun_kept | apply State.canRun_kept | apply State.cpRun_kept | apply State.dioRun_kept
      | apply State.dwyRun_kept | apply State.ethRun_kept | apply State.lpeRun_kept | apply State.pairFollow_kept
      | apply State.put_kept | apply State.seqRun_kept | apply State.setRun_kept
      | (intro x; first | (refine kept_cut (W := W) (p := p) (v := x) ?_ (fun hx => ?_) <;> [simp only [x]; clear_value x]) | skip)
      | split | lift_lets)

theorem State.runOff_kept (s : State) (page : Nat) (m : Nat) (h : Kept W p s) (hf : Frees W [.regs, .mem, .ecc, .recd, .evd, .flt, .tly, .sent, .eth, .forceQ, .lastRec, .dio, .ana, .lpe, .ax, .ang, .sync, .seq, .free]) :
    Kept W p (State.runOff s page m) := by
  unfold State.runOff
  with_reducible repeat' (first
      | assumption | exact hf.sub rfl | apply State.angHalt_kept | apply State.asrcHalt_kept | apply State.axHalt_kept
      | apply State.cpHalt_kept | apply State.dioRefreshGroup_kept | apply State.lpeHalt_kept
      | apply State.pairFollow_kept | apply State.put_kept | apply State.seqStop_kept | apply State.setRun_kept
      | apply canLeave_kept
      | (intro x; first | (refine kept_cut (W := W) (p := p) (v := x) ?_ (fun hx => ?_) <;> [simp only [x]; clear_value x]) | skip)
      | split | lift_lets)

theorem State.holdWrite_kept (s : State) (page : Nat) (m : Nat) (v : Bool) (h : Kept W p s) (hf : Frees W [.regs, .recd, .evd, .flt, .tly, .seq, .free]) :
    Kept W p (State.holdWrite s page m v) := by
  unfold State.holdWrite
  with_reducible repeat' (first
      | assumption | exact hf.sub rfl | apply State.putB_kept | apply State.refreshState_kept
      | apply State.seqHold_kept
      | (intro x; first | (refine kept_cut (W := W) (p := p) (v := x) ?_ (fun hx => ?_) <;> [simp only [x]; clear_value x]) | skip)
      | split | lift_lets)

theorem State.fenceEffect_kept (s : State) (page : Nat) (h : Kept W p s) (hf : Frees W [.regs, .mem, .ecc, .recd, .evd, .flt, .tly, .sent, .eth, .can, .forceQ, .dio, .ana, .ax, .asrc, .ang, .dwy, .free]) :
    Kept W p (State.fenceEffect s page) := by
  unfold State.fenceEffect
  with_reducible repeat' (first
      | assumption | exact hf.sub rfl | apply State.anaFence_kept | apply State.axFence_kept
      | apply State.dioFence_kept | apply State.gearLost_kept | apply State.incMod_kept | apply State.lineEvent_kept
      | apply State.setFault_kept | apply State.srcLost_kept | apply State.stnEnd_kept | apply State.stnFence_kept
      | apply State.stnUnoffer_kept | apply canFence_kept | apply ethFence_kept | apply forEach_kept
      | (intro x; first | (refine kept_cut (W := W) (p := p) (v := x) ?_ (fun hx => ?_) <;> [simp only [x]; clear_value x]) | skip)
      | split | lift_lets)

theorem State.fenceUnit_kept (s : State) (key : Nat) (u : Nat) (h : Kept W p s) (hf : Frees W [.regs, .mem, .ecc, .recd, .evd, .flt, .tly, .sent, .eth, .can, .forceQ, .dio, .ana, .ax, .asrc, .ang, .dwy, .free]) :
    Kept W p (State.fenceUnit s key u) := by
  unfold State.fenceUnit
  with_reducible repeat' (first
      | assumption | exact hf.sub rfl | apply State.fenceEffect_kept | apply State.refreshState_kept
      | apply State.xchgDisturb_kept
      | (intro x; first | (refine kept_cut (W := W) (p := p) (v := x) ?_ (fun hx => ?_) <;> [simp only [x]; clear_value x]) | skip)
      | split | lift_lets | refine Kept.setFlt ?_ (hf.sub rfl) _)

theorem State.unfence_kept (s : State) (u : Nat) (h : Kept W p s) (hf : Frees W [.regs, .flt]) :
    Kept W p (State.unfence s u) := by
  unfold State.unfence
  with_reducible repeat' (first
      | assumption | exact hf.sub rfl | apply State.refreshState_kept
      | (intro x; first | (refine kept_cut (W := W) (p := p) (v := x) ?_ (fun hx => ?_) <;> [simp only [x]; clear_value x]) | skip)
      | lift_lets | refine Kept.setFlt ?_ (hf.sub rfl) _)

theorem State.readmitUnit_kept (s : State) (u : Nat) (h : Kept W p s) (hf : Frees W [.regs, .mem, .ecc, .recd, .evd, .flt, .tly, .sent, .eth, .forceQ, .lastRec, .dio, .ana, .ax, .asrc, .ang, .dwy, .free]) :
    Kept W p (State.readmitUnit s u) := by
  unfold State.readmitUnit
  with_reducible repeat' (first
      | assumption | exact hf.sub rfl | apply State.anaSafe_kept | apply State.asrcHalt_kept | apply State.asrcRun_kept
      | apply State.axRun_kept | apply State.canRun_kept | apply State.ethRun_kept | apply State.put_kept
      | apply State.setAnaRt_kept | apply State.setDioRt_kept | apply State.stnEnable_kept | apply State.unfence_kept
      | apply forEach_kept
      | (intro x; first | (refine kept_cut (W := W) (p := p) (v := x) ?_ (fun hx => ?_) <;> [simp only [x]; clear_value x]) | skip)
      | split | lift_lets)

/-! ### Flt -/

theorem State.refreshUnit_kept (s : State) (page : Nat) (h : Kept W p s) (hf : Frees W [.regs]) :
    Kept W p (State.refreshUnit s page) := by
  unfold State.refreshUnit
  with_reducible repeat' (first | assumption | exact hf.sub rfl | apply State.refreshState_kept | intro x | split)

theorem State.reactDegrade_kept (s : State) (key : Nat) (h : Kept W p s) (hf : Frees W [.regs, .recd, .evd, .flt, .tly, .ang, .sync, .seq, .free]) :
    Kept W p (State.reactDegrade s key).1 := by
  unfold State.reactDegrade
  with_reducible repeat' (first
      | assumption | exact hf.sub rfl | apply State.refreshUnit_kept | apply State.shedTask_kept
      | (intro x; first | (refine kept_cut (W := W) (p := p) (v := x) ?_ (fun hx => ?_) <;> [simp only [x]; clear_value x]) | skip)
      | split | lift_lets | refine Kept.setFlt ?_ (hf.sub rfl) _)

theorem State.reactFence_kept (s : State) (key : Nat) (h : Kept W p s) (hf : Frees W [.regs, .mem, .ecc, .recd, .evd, .flt, .tly, .sent, .eth, .can, .forceQ, .dio, .ana, .ax, .asrc, .ang, .sync, .dwy, .seq, .free]) :
    Kept W p (State.reactFence s key).1 := by
  unfold State.reactFence
  with_reducible repeat' (first
      | assumption | exact hf.sub rfl | apply State.fenceUnit_kept | apply State.reactDegrade_kept | apply forEach_kept
      | (intro x; first | (refine kept_cut (W := W) (p := p) (v := x) ?_ (fun hx => ?_) <;> [simp only [x]; clear_value x]) | skip)
      | split | lift_lets)

theorem State.reactYield_kept (s : State) (key : Nat) (h : Kept W p s) (hf : Frees W (Part.except [.shad, .buf, .flash, .boot, .pins, .clk, .ts, .bus, .cal, .now, .forceReq, .lastRec, .pnl, .lpe, .froze])) :
    Kept W p (State.reactYield s key).1 := by
  unfold State.reactYield
  with_reducible repeat' (first
      | assumption | exact hf.sub rfl | apply State.fenceUnit_kept | apply State.yieldDuty_kept | apply forEach_kept
      | (intro x; first | (refine kept_cut (W := W) (p := p) (v := x) ?_ (fun hx => ?_) <;> [simp only [x]; clear_value x]) | skip)
      | split | lift_lets)

theorem State.reactClass_kept (s : State) (c : Nat) (key : Nat) (h : Kept W p s) (hf : Frees W (Part.except [.shad, .buf, .flash, .boot, .pins, .clk, .ts, .bus, .cal, .now, .forceReq, .lastRec, .pnl, .lpe, .froze])) :
    Kept W p (State.reactClass s c key) := by
  unfold State.reactClass
  with_reducible repeat' (first
      | assumption | exact hf.sub rfl | apply State.raise_kept | apply State.reactDegrade_kept
      | apply State.reactFence_kept | apply State.reactYield_kept
      | (intro x; first | (refine kept_cut (W := W) (p := p) (v := x) ?_ (fun hx => ?_) <;> [simp only [x]; clear_value x]) | skip)
      | split | lift_lets)

theorem State.fltTake_kept (s : State) (key : Nat) (h : Kept W p s) (hf : Frees W (Part.except [.shad, .buf, .flash, .boot, .pins, .clk, .ts, .bus, .cal, .now, .forceReq, .lastRec, .pnl, .lpe, .froze])) :
    Kept W p (State.fltTake s key) := by
  unfold State.fltTake
  with_reducible repeat' (first
      | assumption | exact hf.sub rfl | apply State.reactClass_kept
      | (intro x; first | (refine kept_cut (W := W) (p := p) (v := x) ?_ (fun hx => ?_) <;> [simp only [x]; clear_value x]) | skip)
      | split | lift_lets | refine Kept.setFlt ?_ (hf.sub rfl) _)

theorem State.becameDuty_kept (s : State) (h : Kept W p s) (hf : Frees W (Part.except [.shad, .buf, .flash, .boot, .pins, .clk, .ts, .bus, .cal, .now, .forceReq, .lastRec, .pnl, .lpe, .froze])) :
    Kept W p (State.becameDuty s) := by
  unfold State.becameDuty
  with_reducible repeat' (first
      | assumption | exact hf.sub rfl | apply State.reactClass_kept | apply forEach_kept | intro x)

theorem State.clearRefused_kept (s : State) (key : Nat) (h : Kept W p s) (hf : Frees W [.regs, .recd, .evd, .flt, .tly, .free]) :
    Kept W p (State.clearRefused s key) := by
  unfold State.clearRefused
  with_reducible repeat' (first
      | assumption | exact hf.sub rfl | apply State.incMod_kept | apply State.raise_kept | apply State.setFault_kept
      | (intro x; first | (refine kept_cut (W := W) (p := p) (v := x) ?_ (fun hx => ?_) <;> [simp only [x]; clear_value x]) | skip)
      | lift_lets)

theorem State.fltDrop_kept (s : State) (key : Nat) (h : Kept W p s) (hf : Frees W [.regs, .flt]) :
    Kept W p (State.fltDrop s key) := by
  unfold State.fltDrop
  with_reducible repeat' (first
      | assumption | exact hf.sub rfl | apply State.refreshUnit_kept
      | (intro x; first | (refine kept_cut (W := W) (p := p) (v := x) ?_ (fun hx => ?_) <;> [simp only [x]; clear_value x]) | skip)
      | lift_lets | refine Kept.setFlt ?_ (hf.sub rfl) _)

theorem State.budgetCleared_kept (s : State) (h : Kept W p s) (hf : Frees W [.seq]) :
    Kept W p (State.budgetCleared s) := by
  unfold State.budgetCleared
  with_reducible repeat' (first
      | assumption | exact hf.sub rfl | apply State.setTask_kept | apply forEach_kept
      | (intro x; first | (refine kept_cut (W := W) (p := p) (v := x) ?_ (fun hx => ?_) <;> [simp only [x]; clear_value x]) | skip)
      | split | lift_lets)

theorem State.clearBit_kept (s : State) (key : Nat) (h : Kept W p s) (hf : Frees W [.regs, .recd, .evd, .flt, .tly, .seq, .free]) :
    Kept W p (State.clearBit s key) := by
  unfold State.clearBit
  with_reducible repeat' (first
      | assumption | exact hf.sub rfl | apply State.budgetCleared_kept | apply State.clearRefused_kept
      | apply State.fltDrop_kept | apply State.setMaskBit_kept | apply State.setReg_kept
      | (intro x; first | (refine kept_cut (W := W) (p := p) (v := x) ?_ (fun hx => ?_) <;> [simp only [x]; clear_value x]) | skip)
      | split | lift_lets)

theorem State.readmitEnd_kept (s : State) (kind : Nat) (id : Nat) (r : Nat) (h : Kept W p s) (hf : Frees W [.regs, .recd, .evd, .flt, .tly, .free]) :
    Kept W p (State.readmitEnd s kind id r) := by
  unfold State.readmitEnd
  with_reducible repeat' (first
      | assumption | exact hf.sub rfl | apply State.put_kept | apply State.raise_kept | apply State.setFault_kept
      | simp only [id_eq]
      | (intro x; first | (refine kept_cut (W := W) (p := p) (v := x) ?_ (fun hx => ?_) <;> [simp only [x]; clear_value x]) | skip)
      | split | lift_lets)

theorem State.readmitTask_kept (s : State) (k : Nat) (h : Kept W p s) (hf : Frees W [.regs, .mem, .ecc, .recd, .evd, .flt, .tly, .ang, .sync, .seq, .free]) :
    Kept W p (State.readmitTask s k) := by
  unfold State.readmitTask
  with_reducible repeat' (first
      | assumption | exact hf.sub rfl | apply State.placeAlone_kept | apply State.placeRefresh_kept
      | apply State.raise_kept | apply State.setMaskBit_kept | apply State.shedRefresh_kept
      | apply State.syncWatch_kept
      | (intro x; first | (refine kept_cut (W := W) (p := p) (v := x) ?_ (fun hx => ?_) <;> [simp only [x]; clear_value x]) | skip)
      | split | lift_lets)

theorem State.readmit_kept (s : State) (m : Nat) (kind : Nat) (id : Nat) (f : State → State) (h : Kept W p s) (hf : Frees W [.regs, .recd, .evd, .flt, .tly, .free]) (hf5 : ∀ x0, Kept W p x0 → Kept W p (f x0)) :
    Kept W p (State.readmit s m kind id f) := by
  unfold State.readmit
  with_reducible repeat' (first
      | assumption | exact hf.sub rfl | apply State.readmitEnd_kept | apply State.refuseOwner_kept | simp only [id_eq]
      | apply hf5 | intro x | split)

theorem execFaultSourceRise_kept (parity : Option (BitVec 9 × BitVec 12)) (s : State) (h : Kept W p s) (hf : Frees W (Part.except [.shad, .buf, .flash, .boot, .pins, .clk, .ts, .bus, .cal, .now, .forceReq, .lastRec, .pnl, .lpe, .froze])) :
    OutKept W p (execFaultSourceRise parity s) := by
  unfold execFaultSourceRise
  with_reducible repeat' (first
      | assumption | exact hf.sub rfl | apply State.fltTake_kept | apply State.raise_kept | apply State.setFault_kept
      | apply forEach_kept | apply OutKept.next
      | (intro x; first | (refine kept_cut (W := W) (p := p) (v := x) ?_ (fun hx => ?_) <;> [simp only [x]; clear_value x]) | skip)
      | split | lift_lets)

theorem execSrcClear_kept (m : Fin 4) (s : State) (h : Kept W p s) (hf : Frees W [.regs, .recd, .evd, .flt, .tly, .seq, .free]) :
    OutKept W p (execSrcClear m s) := by
  unfold execSrcClear
  with_reducible repeat' (first
      | assumption | exact hf.sub rfl | apply State.clearBit_kept | apply State.refuseOwner_kept | apply forEach_kept
      | apply OutKept.next
      | (intro x; first | (refine kept_cut (W := W) (p := p) (v := x) ?_ (fun hx => ?_) <;> [simp only [x]; clear_value x]) | skip)
      | split | lift_lets)

theorem execReadmitPage_kept (m : Fin 4) (id : BitVec 9) (s : State) (h : Kept W p s) (hf : Frees W [.regs, .mem, .ecc, .recd, .evd, .flt, .tly, .sent, .eth, .forceQ, .lastRec, .dio, .ana, .ax, .asrc, .ang, .dwy, .free]) :
    OutKept W p (execReadmitPage m id s) := by
  unfold execReadmitPage
  with_reducible repeat' (first
      | assumption | exact hf.sub rfl | apply State.put_kept | apply State.readmitEnd_kept
      | apply State.readmitUnit_kept | apply State.readmit_kept | simp only [id_eq] | apply OutKept.next
      | (intro x; first | (refine kept_cut (W := W) (p := p) (v := x) ?_ (fun hx => ?_) <;> [simp only [x]; clear_value x]) | skip)
      | split | lift_lets)

theorem execReadmitTask_kept (m : Fin 4) (kind : Fin 3) (id : BitVec 9) (s : State) (h : Kept W p s) (hf : Frees W [.regs, .mem, .ecc, .recd, .evd, .flt, .tly, .ang, .sync, .seq, .free]) :
    OutKept W p (execReadmitTask m kind id s) := by
  unfold execReadmitTask
  with_reducible repeat' (first
      | assumption | exact hf.sub rfl | apply State.readmitEnd_kept | apply State.readmitTask_kept
      | apply State.readmit_kept | simp only [id_eq] | apply OutKept.next
      | (intro x; first | (refine kept_cut (W := W) (p := p) (v := x) ?_ (fun hx => ?_) <;> [simp only [x]; clear_value x]) | skip)
      | split | lift_lets)

theorem execFeClear_kept (m : Fin 4) (s : State) (h : Kept W p s) (hf : Frees W [.regs, .boot, .recd, .evd, .flt, .tly, .free]) :
    OutKept W p (execFeClear m s) := by
  unfold execFeClear
  with_reducible repeat' (first
      | assumption | exact hf.sub rfl | apply State.action_kept | apply State.put_kept | apply OutKept.next | intro x)

/-! ### Time -/

theorem State.setClk_kept (s : State) (c : Clocks) (h : Kept W p s) (hf : Frees W [.clk]) :
    Kept W p (State.setClk s c) := by
  unfold State.setClk
  with_reducible repeat' (first
      | assumption | exact hf.sub rfl
      | (intro x; first | (refine kept_cut (W := W) (p := p) (v := x) ?_ (fun hx => ?_) <;> [simp only [x]; clear_value x]) | skip)
      | lift_lets | refine Kept.setClk ?_ (hf.sub rfl) _)

theorem State.farUpdate_kept (s : State) (stp : Bool) (h : Kept W p s) (hf : Frees W [.regs, .recd, .evd, .flt, .tly, .free]) :
    Kept W p (State.farUpdate s stp) := by
  unfold State.farUpdate
  with_reducible repeat' (first
      | assumption | exact hf.sub rfl | apply State.cond_kept | apply State.putB_kept | apply State.raise_kept
      | apply State.setFault_kept
      | (intro x; first | (refine kept_cut (W := W) (p := p) (v := x) ?_ (fun hx => ?_) <;> [simp only [x]; clear_value x]) | skip)
      | split | lift_lets)

theorem State.setStnRes_kept (s : State) (r : Int) (h : Kept W p s) (hf : Frees W [.regs, .clk, .recd, .evd, .flt, .tly, .free]) :
    Kept W p (State.setStnRes s r) := by
  unfold State.setStnRes
  with_reducible repeat' (first
      | assumption | exact hf.sub rfl | apply State.farUpdate_kept | apply State.setClk_kept
      | (intro x; first | (refine kept_cut (W := W) (p := p) (v := x) ?_ (fun hx => ?_) <;> [simp only [x]; clear_value x]) | skip)
      | lift_lets)

theorem State.setStpRes_kept (s : State) (r : Int) (h : Kept W p s) (hf : Frees W [.regs, .clk, .recd, .evd, .flt, .tly, .free]) :
    Kept W p (State.setStpRes s r) := by
  unfold State.setStpRes
  with_reducible repeat' (first
      | assumption | exact hf.sub rfl | apply State.farUpdate_kept | apply State.setClk_kept
      | (intro x; first | (refine kept_cut (W := W) (p := p) (v := x) ?_ (fun hx => ?_) <;> [simp only [x]; clear_value x]) | skip)
      | lift_lets)

theorem State.setStnState_kept (s : State) (v : Nat) (h : Kept W p s) (hf : Frees W [.regs, .recd, .evd, .flt, .free]) :
    Kept W p (State.setStnState s v) := by
  unfold State.setStnState
  with_reducible repeat' (first
      | assumption | exact hf.sub rfl | apply State.event_kept | apply State.put_kept | intro x | split)

theorem State.setStpState_kept (s : State) (v : Nat) (h : Kept W p s) (hf : Frees W [.regs, .recd, .evd, .flt, .free]) :
    Kept W p (State.setStpState s v) := by
  unfold State.setStpState
  with_reducible repeat' (first
      | assumption | exact hf.sub rfl | apply State.event_kept | apply State.putB_kept | apply State.put_kept | intro x
      | split)

theorem State.setDomLost_kept (s : State) (x : Nat) (b : Bool) (h : Kept W p s) (hf : Frees W [.clk]) :
    Kept W p (State.setDomLost s x b) := by
  unfold State.setDomLost
  with_reducible repeat' (first
      | assumption | exact hf.sub rfl | apply State.setClk_kept
      | (intro x; first | (refine kept_cut (W := W) (p := p) (v := x) ?_ (fun hx => ?_) <;> [simp only [x]; clear_value x]) | skip)
      | split | lift_lets)

theorem State.syncMark_kept (s : State) (x : Nat) (h : Kept W p s) (hf : Frees W [.clk]) :
    Kept W p (State.syncMark s x) := by
  unfold State.syncMark
  with_reducible repeat' (first
      | assumption | exact hf.sub rfl | apply State.setClk_kept
      | (intro x; first | (refine kept_cut (W := W) (p := p) (v := x) ?_ (fun hx => ?_) <;> [simp only [x]; clear_value x]) | skip)
      | split | lift_lets)

theorem State.estMark_kept (s : State) (x : Nat) (h : Kept W p s) (hf : Frees W [.clk]) :
    Kept W p (State.estMark s x) := by
  unfold State.estMark
  with_reducible repeat' (first
      | assumption | exact hf.sub rfl | apply State.setClk_kept
      | (intro x; first | (refine kept_cut (W := W) (p := p) (v := x) ?_ (fun hx => ?_) <;> [simp only [x]; clear_value x]) | skip)
      | split | lift_lets)

theorem State.stnHoldover_kept (s : State) (h : Kept W p s) (hf : Frees W [.regs, .recd, .evd, .flt, .tly, .free]) :
    Kept W p (State.stnHoldover s) := by
  unfold State.stnHoldover
  with_reducible repeat' (first
      | assumption | exact hf.sub rfl | apply State.cond_kept | apply State.raise_kept | apply State.setFault_kept
      | apply State.setStnState_kept | intro x)

theorem State.stnHoldoverEnd_kept (s : State) (h : Kept W p s) (hf : Frees W [.regs, .recd, .evd, .flt, .tly, .free]) :
    Kept W p (State.stnHoldoverEnd s) := by
  unfold State.stnHoldoverEnd
  with_reducible repeat' (first
      | assumption | exact hf.sub rfl | apply State.cond_kept | apply State.raise_kept | apply State.setStnState_kept
      | intro x)

theorem State.stampChange_kept (s : State) (sub : Nat) (new : Nat) (h : Kept W p s) (hf : Frees W [.regs, .clk, .recd, .evd, .flt, .tly, .free]) :
    Kept W p (State.stampChange s sub new) := by
  unfold State.stampChange
  with_reducible repeat' (first
      | assumption | exact hf.sub rfl | apply State.event_kept | apply State.put_kept | apply State.raise_kept
      | apply State.setClk_kept | apply State.setStpRes_kept | apply State.setStpState_kept
      | (intro x; first | (refine kept_cut (W := W) (p := p) (v := x) ?_ (fun hx => ?_) <;> [simp only [x]; clear_value x]) | skip)
      | split | lift_lets)

theorem State.stpHoldover_kept (s : State) (h : Kept W p s) (hf : Frees W [.regs, .recd, .evd, .flt, .tly, .free]) :
    Kept W p (State.stpHoldover s) := by
  unfold State.stpHoldover
  with_reducible repeat' (first
      | assumption | exact hf.sub rfl | apply State.cond_kept | apply State.raise_kept | apply State.setFault_kept
      | apply State.setStpState_kept | intro x)

theorem State.domLostEffects_kept (s : State) (x : Nat) (h : Kept W p s) (hf : Frees W [.regs, .clk, .recd, .evd, .flt, .tly, .free]) :
    Kept W p (State.domLostEffects s x) := by
  unfold State.domLostEffects
  with_reducible repeat' (first
      | assumption | exact hf.sub rfl | apply State.stampChange_kept | apply State.stnHoldover_kept
      | apply State.stpHoldover_kept
      | (intro x; first | (refine kept_cut (W := W) (p := p) (v := x) ?_ (fun hx => ?_) <;> [simp only [x]; clear_value x]) | skip)
      | split | lift_lets)

theorem State.domUntrack_kept (s : State) (x : Nat) (h : Kept W p s) (hf : Frees W [.regs, .clk, .recd, .evd, .flt, .tly, .free]) :
    Kept W p (State.domUntrack s x) := by
  unfold State.domUntrack
  with_reducible repeat' (first
      | assumption | exact hf.sub rfl | apply State.cond_kept | apply State.domLostEffects_kept | apply State.put_kept
      | apply State.raise_kept | intro x)

theorem State.domTrack_kept (s : State) (x : Nat) (h : Kept W p s) (hf : Frees W [.regs, .clk]) :
    Kept W p (State.domTrack s x) := by
  unfold State.domTrack
  with_reducible repeat' (first
      | assumption | exact hf.sub rfl | apply State.put_kept | apply State.setDomLost_kept | apply State.syncMark_kept
      | intro x)

theorem State.angStepped_kept (s : State) (ofs : Int) (h : Kept W p s) (hf : Frees W [.regs, .asrc, .ang]) :
    Kept W p (State.angStepped s ofs) := by
  unfold State.angStepped
  with_reducible repeat' (first
      | assumption | exact hf.sub rfl | apply State.setAsrcRt_kept | apply State.slotsUnpredict_kept
      | apply forEach_kept
      | (intro x; first | (refine kept_cut (W := W) (p := p) (v := x) ?_ (fun hx => ?_) <;> [simp only [x]; clear_value x]) | skip)
      | lift_lets)

theorem State.stnJump_kept (s : State) (ofs : Int) (h : Kept W p s) (hf : Frees W [.regs, .mem, .ecc, .clk, .recd, .evd, .flt, .tly, .eth, .asrc, .ang, .free]) :
    Kept W p (State.stnJump s ofs) := by
  unfold State.stnJump
  with_reducible repeat' (first
      | assumption | exact hf.sub rfl | apply State.angStepped_kept | apply State.event_kept | apply State.setClk_kept
      | apply State.setStnRes_kept | apply State.stepFlush_kept
      | (intro x; first | (refine kept_cut (W := W) (p := p) (v := x) ?_ (fun hx => ?_) <;> [simp only [x]; clear_value x]) | skip)
      | lift_lets)

theorem State.stpJump_kept (s : State) (ofs : Int) (h : Kept W p s) (hf : Frees W [.regs, .clk, .recd, .evd, .flt, .tly, .free]) :
    Kept W p (State.stpJump s ofs) := by
  unfold State.stpJump
  with_reducible repeat' (first
      | assumption | exact hf.sub rfl | apply State.cond_kept | apply State.event_kept | apply State.put_kept
      | apply State.setClk_kept | apply State.setFault_kept | apply State.setStpRes_kept
      | (intro x; first | (refine kept_cut (W := W) (p := p) (v := x) ?_ (fun hx => ?_) <;> [simp only [x]; clear_value x]) | skip)
      | lift_lets)

theorem State.firstStn_kept (s : State) (ofs : Int) (h : Kept W p s) (hf : Frees W [.regs, .mem, .ecc, .clk, .recd, .evd, .flt, .tly, .eth, .asrc, .ang, .free]) :
    Kept W p (State.firstStn s ofs) := by
  unfold State.firstStn
  with_reducible repeat' (first
      | assumption | exact hf.sub rfl | apply State.put_kept | apply State.raise_kept | apply State.setClk_kept
      | apply State.setStnState_kept | apply State.stnHoldover_kept | apply State.stnJump_kept
      | (intro x; first | (refine kept_cut (W := W) (p := p) (v := x) ?_ (fun hx => ?_) <;> [simp only [x]; clear_value x]) | skip)
      | split | lift_lets)

theorem State.takePendingStep_kept (s : State) (h : Kept W p s) (hf : Frees W [.regs, .mem, .ecc, .clk, .recd, .evd, .flt, .tly, .eth, .asrc, .ang, .free]) :
    Kept W p (State.takePendingStep s) := by
  unfold State.takePendingStep
  with_reducible repeat' (first | assumption | exact hf.sub rfl | apply State.firstStn_kept | intro x | split)

theorem State.stepRefuse_kept (s : State) (result : Nat) (code : Nat) (h : Kept W p s) (hf : Frees W [.regs, .recd, .evd, .flt, .tly, .free]) :
    Kept W p (State.stepRefuse s result code) := by
  unfold State.stepRefuse
  with_reducible repeat' (first
      | assumption | exact hf.sub rfl | apply State.put_kept | apply State.raise_kept | apply State.setFault_kept
      | intro x)

theorem State.timeIgnore_kept (s : State) (off : Nat) (value : Nat) (h : Kept W p s) (hf : Frees W [.regs, .recd, .evd, .flt, .tly, .free]) :
    Kept W p (State.timeIgnore s off value) := by
  unfold State.timeIgnore
  with_reducible repeat' (first | assumption | exact hf.sub rfl | apply State.raise_kept | intro x)

theorem State.domIncWrite_kept (s : State) (x : Nat) (v : Nat) (h : Kept W p s) (hf : Frees W [.regs, .clk, .recd, .evd, .flt, .tly, .free]) :
    Kept W p (State.domIncWrite s x v) := by
  unfold State.domIncWrite
  with_reducible repeat' (first
      | assumption | exact hf.sub rfl | apply State.put_kept | apply State.setClk_kept | apply State.timeIgnore_kept
      | (intro x; first | (refine kept_cut (W := W) (p := p) (v := x) ?_ (fun hx => ?_) <;> [simp only [x]; clear_value x]) | skip)
      | split | lift_lets)

theorem execStationTimeWrap_kept (s : State) (h : Kept W p s) (hf : Frees W [.regs, .clk, .recd, .evd, .flt, .free]) :
    OutKept W p (execStationTimeWrap s) := by
  unfold execStationTimeWrap
  with_reducible repeat' (first
      | assumption | exact hf.sub rfl | apply State.event_kept | apply State.setClk_kept | apply OutKept.next
      | (intro x; first | (refine kept_cut (W := W) (p := p) (v := x) ?_ (fun hx => ?_) <;> [simp only [x]; clear_value x]) | skip)
      | split | lift_lets)

theorem recWrap_kept (s : State) (h : Kept W p s) (hf : Frees W [.regs, .recd, .evd, .flt, .tly, .free]) :
    Kept W p (recWrap s) := by
  unfold recWrap
  with_reducible repeat' (first
      | assumption | exact hf.sub rfl | apply State.incMod_kept | apply State.put_kept | apply State.raise_kept
      | apply State.setFault_kept
      | (intro x; first | (refine kept_cut (W := W) (p := p) (v := x) ?_ (fun hx => ?_) <;> [simp only [x]; clear_value x]) | skip)
      | split | lift_lets)

theorem execStampTimeWrap_kept (s : State) (h : Kept W p s) (hf : Frees W [.regs, .clk, .recd, .evd, .flt, .tly, .free]) :
    OutKept W p (execStampTimeWrap s) := by
  unfold execStampTimeWrap
  with_reducible repeat' (first
      | assumption | exact hf.sub rfl | apply State.event_kept | apply State.setClk_kept | apply recWrap_kept
      | apply OutKept.next
      | (intro x; first | (refine kept_cut (W := W) (p := p) (v := x) ?_ (fun hx => ?_) <;> [simp only [x]; clear_value x]) | skip)
      | split | lift_lets)

theorem execPtpTimestamp_kept (a1 : Fin 4) (a2 : Bool) (a3 : BitVec 4) (a4 : BitVec 8)
    (a5 : BitVec 16) (s : State) (h : Kept W p s) (hf : Frees W [.regs, .ts, .recd, .evd, .flt, .tly, .lastRec, .free]) : OutKept W p (execPtpTimestamp a1 a2 a3 a4 a5 s) := by
  unfold execPtpTimestamp
  split
  · dsimp only
    apply OutKept.next
    apply State.event_kept _ _ _ (hf.sub rfl)
    exact h.setTsFifo (hf.sub rfl) _ (by simp; omega)
  · with_reducible repeat' (first
      | assumption | exact hf.sub rfl | apply State.event_kept | apply State.incMod_kept | apply State.markRecord_kept
      | apply State.raise_kept | apply State.setFault_kept | apply OutKept.next
      | (intro x; first | (refine kept_cut (W := W) (p := p) (v := x) ?_ (fun hx => ?_) <;> [simp only [x]; clear_value x]) | skip)
      | split | lift_lets)

theorem execTsW3Read_kept (s : State) (h : Kept W p s) (hf : Frees W [.ts, .bus]) :
    OutKept W p (execTsW3Read s) := by
  unfold execTsW3Read
  apply OutKept.next
  split
  · exact (h.setTsFifo (hf.sub rfl) s.tsFifo.tail (fun i => by have := i.ts; simp; omega)).setBus (hf.sub rfl) {}
  · with_reducible repeat' (first
      | assumption | exact hf.sub rfl | apply OutKept.next
      | (intro x; first | (refine kept_cut (W := W) (p := p) (v := x) ?_ (fun hx => ?_) <;> [simp only [x]; clear_value x]) | skip)
      | split | lift_lets | refine Kept.setBus ?_ (hf.sub rfl) _)

theorem syncFor_kept (x : Nat) (s : State) (h : Kept W p s) (hf : Frees W [.regs, .clk, .recd, .evd, .flt, .tly, .free]) :
    Kept W p (syncFor x s) := by
  unfold syncFor
  with_reducible repeat' (first
      | assumption | exact hf.sub rfl | apply State.cond_kept | apply State.put_kept | apply State.raise_kept
      | apply State.setDomLost_kept | apply State.stnHoldoverEnd_kept | apply State.syncMark_kept
      | (intro x; first | (refine kept_cut (W := W) (p := p) (v := x) ?_ (fun hx => ?_) <;> [simp only [x]; clear_value x]) | skip)
      | split | lift_lets)

theorem execSyncAccepted_kept (port : Fin 4) (domNum : BitVec 8) (ident : BitVec 64) (srcPort : BitVec 16) (s : State) (h : Kept W p s) (hf : Frees W [.regs, .clk, .recd, .evd, .flt, .tly, .free]) :
    OutKept W p (execSyncAccepted port domNum ident srcPort s) := by
  unfold execSyncAccepted
  with_reducible repeat' (first
      | assumption | exact hf.sub rfl | apply forEach_kept | apply syncFor_kept | apply OutKept.next | intro x | split)

theorem execDomainLost_kept (dom : Fin 2) (s : State) (h : Kept W p s) (hf : Frees W [.regs, .clk, .recd, .evd, .flt, .tly, .free]) :
    OutKept W p (execDomainLost dom s) := by
  unfold execDomainLost
  with_reducible repeat' (first
      | assumption | exact hf.sub rfl | apply State.cond_kept | apply State.domLostEffects_kept | apply State.put_kept
      | apply State.raise_kept | apply State.setDomLost_kept | apply State.setFault_kept | apply OutKept.next
      | (intro x; first | (refine kept_cut (W := W) (p := p) (v := x) ?_ (fun hx => ?_) <;> [simp only [x]; clear_value x]) | skip)
      | split | lift_lets)

theorem execFirstStn_kept (m : Fin 4) (s : State) (h : Kept W p s) (hf : Frees W [.regs, .mem, .ecc, .boot, .clk, .recd, .evd, .flt, .tly, .eth, .asrc, .ang, .free]) :
    OutKept W p (execFirstStn m s) := by
  unfold execFirstStn
  with_reducible repeat' (first
      | assumption | exact hf.sub rfl | apply State.action_kept | apply State.firstStn_kept | apply State.put_kept
      | apply State.setClk_kept | apply State.setStnState_kept | apply State.stepRefuse_kept | apply OutKept.next
      | (intro x; first | (refine kept_cut (W := W) (p := p) (v := x) ?_ (fun hx => ?_) <;> [simp only [x]; clear_value x]) | skip)
      | split | lift_lets)

theorem execFirstStp_kept (m : Fin 4) (s : State) (h : Kept W p s) (hf : Frees W [.regs, .boot, .clk, .recd, .evd, .flt, .tly, .free]) :
    OutKept W p (execFirstStp m s) := by
  unfold execFirstStp
  with_reducible repeat' (first
      | assumption | exact hf.sub rfl | apply State.action_kept | apply State.put_kept | apply State.raise_kept
      | apply State.setClk_kept | apply State.setStpState_kept | apply State.stepRefuse_kept | apply State.stpJump_kept
      | apply OutKept.next
      | (intro x; first | (refine kept_cut (W := W) (p := p) (v := x) ?_ (fun hx => ?_) <;> [simp only [x]; clear_value x]) | skip)
      | split | lift_lets)

theorem stepCmd_kept (m : Nat) (code : Nat) (stn : Bool) (stp : Bool) (s : State) (h : Kept W p s) (hf : Frees W [.regs, .mem, .ecc, .boot, .clk, .recd, .evd, .flt, .tly, .eth, .asrc, .ang, .free]) :
    Kept W p (stepCmd m code stn stp s) := by
  unfold stepCmd
  with_reducible repeat' (first
      | assumption | exact hf.sub rfl | apply State.action_kept | apply State.put_kept | apply State.raise_kept
      | apply State.setStpState_kept | apply State.stepRefuse_kept | apply State.stnJump_kept
      | apply State.stpJump_kept
      | (intro x; first | (refine kept_cut (W := W) (p := p) (v := x) ?_ (fun hx => ?_) <;> [simp only [x]; clear_value x]) | skip)
      | split | lift_lets)

theorem execStepStn_kept (m : Fin 4) (s : State) (h : Kept W p s) (hf : Frees W [.regs, .mem, .ecc, .boot, .clk, .recd, .evd, .flt, .tly, .eth, .asrc, .ang, .free]) :
    OutKept W p (execStepStn m s) := by
  unfold execStepStn
  with_reducible repeat' (first | assumption | exact hf.sub rfl | apply stepCmd_kept | apply OutKept.next | intro x)

theorem execStepStp_kept (m : Fin 4) (s : State) (h : Kept W p s) (hf : Frees W [.regs, .mem, .ecc, .boot, .clk, .recd, .evd, .flt, .tly, .eth, .asrc, .ang, .free]) :
    OutKept W p (execStepStp m s) := by
  unfold execStepStp
  with_reducible repeat' (first | assumption | exact hf.sub rfl | apply stepCmd_kept | apply OutKept.next | intro x)

theorem execStepBoth_kept (m : Fin 4) (s : State) (h : Kept W p s) (hf : Frees W [.regs, .mem, .ecc, .boot, .clk, .recd, .evd, .flt, .tly, .eth, .asrc, .ang, .free]) :
    OutKept W p (execStepBoth m s) := by
  unfold execStepBoth
  with_reducible repeat' (first | assumption | exact hf.sub rfl | apply stepCmd_kept | apply OutKept.next | intro x)

theorem execStnAdj_kept (m : Fin 4) (v : BitVec 32) (s : State) (h : Kept W p s) (hf : Frees W [.regs, .boot, .clk, .recd, .evd, .flt, .tly, .free]) :
    OutKept W p (execStnAdj m v s) := by
  unfold execStnAdj
  with_reducible repeat' (first
      | assumption | exact hf.sub rfl | apply State.action_kept | apply State.setStnRes_kept
      | apply State.timeIgnore_kept | apply OutKept.next | intro x | split)

theorem execStnInc_kept (m : Fin 4) (v : BitVec 32) (s : State) (h : Kept W p s) (hf : Frees W [.regs, .boot, .recd, .evd, .flt, .tly, .free]) :
    OutKept W p (execStnInc m v s) := by
  unfold execStnInc
  with_reducible repeat' (first
      | assumption | exact hf.sub rfl | apply State.action_kept | apply State.put_kept | apply State.timeIgnore_kept
      | apply OutKept.next | intro x | split)

theorem execDomOfs_kept (m : Fin 4) (dom : Fin 2) (v : BitVec 32) (s : State) (h : Kept W p s) (hf : Frees W [.regs, .boot, .clk, .recd, .evd, .flt, .tly, .free]) :
    OutKept W p (execDomOfs m dom v s) := by
  unfold execDomOfs
  with_reducible repeat' (first
      | assumption | exact hf.sub rfl | apply State.action_kept | apply State.cond_kept | apply State.estMark_kept
      | apply State.putB_kept | apply State.put_kept | apply State.raise_kept | apply State.setClk_kept
      | apply State.setStpRes_kept | apply State.setStpState_kept | apply OutKept.next
      | (intro x; first | (refine kept_cut (W := W) (p := p) (v := x) ?_ (fun hx => ?_) <;> [simp only [x]; clear_value x]) | skip)
      | split | lift_lets)

theorem stnDomWrite_kept (dom : Nat) (s : State) (h : Kept W p s) (hf : Frees W [.regs, .recd, .evd, .flt, .tly, .free]) :
    Kept W p (stnDomWrite dom s) := by
  unfold stnDomWrite
  with_reducible repeat' (first
      | assumption | exact hf.sub rfl | apply State.put_kept | apply State.raise_kept | apply State.stnHoldoverEnd_kept
      | apply State.stnHoldover_kept
      | (intro x; first | (refine kept_cut (W := W) (p := p) (v := x) ?_ (fun hx => ?_) <;> [simp only [x]; clear_value x]) | skip)
      | split | lift_lets)

theorem execStnDom_kept (m : Fin 4) (dom : Fin 2) (s : State) (h : Kept W p s) (hf : Frees W [.regs, .boot, .recd, .evd, .flt, .tly, .free]) :
    OutKept W p (execStnDom m dom s) := by
  unfold execStnDom
  with_reducible repeat' (first
      | assumption | exact hf.sub rfl | apply State.action_kept | apply stnDomWrite_kept | apply OutKept.next | intro x)

theorem execStpSwitch_kept (m : Fin 4) (s : State) (h : Kept W p s) (hf : Frees W [.regs, .boot, .clk, .recd, .evd, .flt, .tly, .free]) :
    OutKept W p (execStpSwitch m s) := by
  unfold execStpSwitch
  with_reducible repeat' (first
      | assumption | exact hf.sub rfl | apply State.action_kept | apply State.stampChange_kept
      | apply State.timeIgnore_kept | apply OutKept.next | intro x | split)

theorem execResidualCleared_kept (s : State) (h : Kept W p s) (hf : Frees W [.regs, .clk, .recd, .evd, .flt, .tly, .free]) :
    OutKept W p (execResidualCleared s) := by
  unfold execResidualCleared
  with_reducible repeat' (first
      | assumption | exact hf.sub rfl | apply State.raise_kept | apply State.setStpRes_kept
      | apply State.setStpState_kept | apply OutKept.next
      | (intro x; first | (refine kept_cut (W := W) (p := p) (v := x) ?_ (fun hx => ?_) <;> [simp only [x]; clear_value x]) | skip)
      | split | lift_lets)

theorem execFarCleared_kept (stp : Bool) (s : State) (h : Kept W p s) (hf : Frees W [.regs, .clk, .recd, .evd, .flt, .tly, .free]) :
    OutKept W p (execFarCleared stp s) := by
  unfold execFarCleared
  with_reducible repeat' (first
      | assumption | exact hf.sub rfl | apply State.setStnRes_kept | apply State.setStpRes_kept | apply OutKept.next
      | (intro x; first | (refine kept_cut (W := W) (p := p) (v := x) ?_ (fun hx => ?_) <;> [simp only [x]; clear_value x]) | skip)
      | split | lift_lets)

theorem execEstimateExpired_kept (dom : Fin 2) (s : State) (h : Kept W p s) (hf : Frees W [.regs]) :
    OutKept W p (execEstimateExpired dom s) := by
  unfold execEstimateExpired
  with_reducible repeat' (first
      | assumption | exact hf.sub rfl | apply State.putB_kept | apply OutKept.next | intro x | split)

theorem execStnNsRead_kept (stp : Bool) (s : State) (h : Kept W p s) (hf : Frees W [.regs, .bus]) :
    OutKept W p (execStnNsRead stp s) := by
  unfold execStnNsRead
  with_reducible repeat' (first
      | assumption | exact hf.sub rfl | apply State.put_kept | apply OutKept.next
      | (intro x; first | (refine kept_cut (W := W) (p := p) (v := x) ?_ (fun hx => ?_) <;> [simp only [x]; clear_value x]) | skip)
      | split | lift_lets | refine Kept.setBus ?_ (hf.sub rfl) _)

/-! ### Ind -/



end Sys2Proof.Machine
end

