-- ==== Sys2Proof/Laws/KeptLog.lean ====
section
/-! SUPPORT. One lemma for each operation and each meaning of REC, TLY, CAL and PNL: what it keeps
(`Kept`), and at most which parts it changes. -/

namespace Sys2Proof.Machine
set_option linter.all false
variable {W : Part → Bool} {p : State}

/-! ### Rec -/

theorem State.setCodeBucket_kept (s : State) (code : Nat) (level : Nat) (h : Kept W p s) (hf : Frees W [.recd]) :
    Kept W p (State.setCodeBucket s code level) := by
  unfold State.setCodeBucket
  with_reducible repeat' (first
      | assumption | exact hf.sub rfl
      | (intro x; first | (refine kept_cut (W := W) (p := p) (v := x) ?_ (fun hx => ?_) <;> [simp only [x]; clear_value x]) | skip)
      | lift_lets | (refine Kept.setRecdSame ?_ (hf.sub rfl) _ ?_ ?_ ?_ <;> first | rfl | skip))

theorem State.setGlobalBucket_kept (s : State) (level : Nat) (h : Kept W p s) (hf : Frees W [.recd]) :
    Kept W p (State.setGlobalBucket s level) := by
  unfold State.setGlobalBucket
  with_reducible repeat' (first
      | assumption | exact hf.sub rfl
      | (intro x; first | (refine kept_cut (W := W) (p := p) (v := x) ?_ (fun hx => ?_) <;> [simp only [x]; clear_value x]) | skip)
      | lift_lets | (refine Kept.setRecdSame ?_ (hf.sub rfl) _ ?_ ?_ ?_ <;> first | rfl | skip))

theorem State.takeTokens_kept (s : State) (code : Nat) (h : Kept W p s) (hf : Frees W [.recd]) :
    Kept W p (State.takeTokens s code) := by
  unfold State.takeTokens
  with_reducible repeat' (first
      | assumption | exact hf.sub rfl | apply State.setCodeBucket_kept | apply State.setGlobalBucket_kept
      | (intro x; first | (refine kept_cut (W := W) (p := p) (v := x) ?_ (fun hx => ?_) <;> [simp only [x]; clear_value x]) | skip)
      | split | lift_lets)

theorem State.suppress_kept (s : State) (code : Nat) (page : Nat) (h : Kept W p s) (hf : Frees W [.regs, .recd]) :
    Kept W p (State.suppress s code page) := by
  unfold State.suppress
  with_reducible repeat' (first
      | assumption | exact hf.sub rfl | apply State.incMod_kept | apply State.incSat_kept
      | (intro x; first | (refine kept_cut (W := W) (p := p) (v := x) ?_ (fun hx => ?_) <;> [simp only [x]; clear_value x]) | skip)
      | lift_lets | (refine Kept.setRecdSame ?_ (hf.sub rfl) _ ?_ ?_ ?_ <;> first | rfl | skip))

theorem State.noteFull_kept (s : State) (h : Kept W p s) (hf : Frees W [.regs, .recd, .flt]) :
    Kept W p (State.noteFull s) := by
  unfold State.noteFull
  with_reducible repeat' (first
      | assumption | exact hf.sub rfl | apply State.setFault_kept
      | (intro x; first | (refine kept_cut (W := W) (p := p) (v := x) ?_ (fun hx => ?_) <;> [simp only [x]; clear_value x]) | skip)
      | lift_lets | (refine Kept.setRecdSame ?_ (hf.sub rfl) _ ?_ ?_ ?_ <;> first | rfl | skip))

theorem State.takeTokens_queue (s : State) (c : Nat) : (s.takeTokens c).recd.queue = s.recd.queue := by
  unfold State.takeTokens; split <;> (try split) <;> rfl
theorem State.receive_kept (s : State) (a2 : RecEv) (h : Kept W p s) (hf : Frees W [.regs, .recd, .flt]) :
    Kept W p (State.receive s a2) := by
  unfold State.receive
  split
  · with_reducible repeat' (first
      | assumption | exact hf.sub rfl | apply State.noteFull_kept | apply State.put_kept | apply State.suppress_kept
      | apply State.takeTokens_kept
      | (intro x; first | (refine kept_cut (W := W) (p := p) (v := x) ?_ (fun hx => ?_) <;> [simp only [x]; clear_value x]) | skip)
      | split | lift_lets | (refine Kept.setRecdSame ?_ (hf.sub rfl) _ ?_ ?_ ?_ <;> first | rfl | skip))
  · rename_i hn
    have hq : s.recd.queue.length < 1024 := by simpa [State.queueFull] using hn
    split
    · have ht := State.takeTokens_kept s a2.code h (hf.sub rfl)
      have hp := State.put_kept _ pgREC REC.CODE_STAT.SUPP 0 a2.code ht (hf.sub rfl)
      have he : ((s.takeTokens a2.code).put pgREC REC.CODE_STAT.SUPP 0 a2.code).recd.queue = s.recd.queue :=
        State.takeTokens_queue s a2.code
      refine hp.setRecd (hf.sub rfl) _ (fun _ => ?_) (fun i => i.held) (fun i => i.ring)
      simp only [List.length_append, List.length_singleton, he]; omega
    · with_reducible repeat' (first
      | assumption | exact hf.sub rfl | apply State.noteFull_kept | apply State.put_kept | apply State.suppress_kept
      | apply State.takeTokens_kept
      | (intro x; first | (refine kept_cut (W := W) (p := p) (v := x) ?_ (fun hx => ?_) <;> [simp only [x]; clear_value x]) | skip)
      | split | lift_lets | (refine Kept.setRecdSame ?_ (hf.sub rfl) _ ?_ ?_ ?_ <;> first | rfl | skip))

theorem State.showWindow_kept (s : State) (c : Nat) (addr : Nat) (h : Kept W p s) (hf : Frees W [.regs]) :
    Kept W p (State.showWindow s c addr) := by
  unfold State.showWindow
  with_reducible repeat' (first | assumption | exact hf.sub rfl | apply State.put_kept | apply forEach_kept | intro x)

theorem State.curEnter_kept (s : State) (c : Nat) (h : Kept W p s) (hf : Frees W [.regs, .recd, .evd, .flt, .tly, .free]) :
    Kept W p (State.curEnter s c) := by
  unfold State.curEnter
  with_reducible repeat' (first
      | assumption | exact hf.sub rfl | apply State.put_kept | apply State.raise_kept | apply State.setFault_kept
      | apply State.showWindow_kept | apply forEach_kept
      | (intro x; first | (refine kept_cut (W := W) (p := p) (v := x) ?_ (fun hx => ?_) <;> [simp only [x]; clear_value x]) | skip)
      | split | lift_lets)

theorem State.curMove_kept (s : State) (c : Nat) (q : Nat) (h : Kept W p s) (hf : Frees W [.regs, .recd, .evd, .flt, .tly, .free]) :
    Kept W p (State.curMove s c q) := by
  unfold State.curMove
  with_reducible repeat' (first
      | assumption | exact hf.sub rfl | apply State.curEnter_kept | apply State.put_kept | intro x)

theorem State.curLap_kept (s : State) (c : Nat) (q : Nat) (n : Nat) (h : Kept W p s) (hf : Frees W [.regs, .recd, .evd, .flt, .tly, .free]) :
    Kept W p (State.curLap s c q n) := by
  unfold State.curLap
  with_reducible repeat' (first
      | assumption | exact hf.sub rfl | apply State.curMove_kept | apply State.incMod_kept | apply State.raise_kept
      | apply State.setFault_kept | intro x)

theorem State.curAdvance_kept (s : State) (c : Nat) (h : Kept W p s) (hf : Frees W [.regs, .recd, .evd, .flt, .tly, .free]) :
    Kept W p (State.curAdvance s c) := by
  unfold State.curAdvance
  with_reducible repeat' (first
      | assumption | exact hf.sub rfl | apply State.curLap_kept | apply State.curMove_kept
      | (intro x; first | (refine kept_cut (W := W) (p := p) (v := x) ?_ (fun hx => ?_) <;> [simp only [x]; clear_value x]) | skip)
      | split | lift_lets)

theorem State.ringWrite_kept (s : State) (a2 : QRec) (a3 : Bool) (h : Kept W p s)
    (hf : Frees W [.regs, .mem, .ecc, .recd, .evd, .flt, .tly, .free]) : Kept W p (State.ringWrite s a2 a3) := by
  unfold State.ringWrite
  lift_lets
  intro d full old lapped atEnd s1 s2
  have h1 : Kept W p s1 := State.memPut_kept _ _ _ h (hf.sub rfl)
  have h2 : Kept W p s2 :=
    (h1.setRecd (hf.sub rfl) { d with
      nextSeq := (d.nextSeq + 1) % 4294967296, nextIdx := (d.nextIdx + 1) % ringSize, held := min ringSize (d.held + 1) }
      (fun i => i.recq) (fun _ => Nat.min_le_left _ _) (fun _ => Nat.mod_lt _ (by decide))).setFreeUses (hf.sub rfl) _
  clear_value s2
  dsimp only
  with_reducible repeat' (first
      | assumption | exact hf.sub rfl | apply State.curEnter_kept | apply State.curLap_kept | apply State.event_kept
      | apply State.incMod_kept | apply State.memPut_kept | apply State.raise_kept | apply State.setFault_kept
      | apply State.tallyAdd_kept | apply forEach_kept
      | (intro x; first | (refine kept_cut (W := W) (p := p) (v := x) ?_ (fun hx => ?_) <;> [simp only [x]; clear_value x]) | skip)
      | split | lift_lets | refine Kept.setFreeUses ?_ (hf.sub rfl) _
      | (refine Kept.setRecdSame ?_ (hf.sub rfl) _ ?_ ?_ ?_ <;> first | rfl | skip))

theorem State.recDrain_kept (s : State) (h : Kept W p s) (hf : Frees W [.regs, .mem, .ecc, .recd, .evd, .flt, .tly, .free]) :
    Kept W p (State.recDrain s) := by
  unfold State.recDrain
  have h1 := h.setRecd (hf.sub rfl) ({ s.recd with queue := [] } : Recorder) (fun _ => Nat.zero_le _) (fun i => i.held) (fun i => i.ring)
  dsimp only
  with_reducible repeat' (first
      | assumption | exact hf.sub rfl | apply State.ringWrite_kept | apply forEach_kept
      | (intro x; first | (refine kept_cut (W := W) (p := p) (v := x) ?_ (fun hx => ?_) <;> [simp only [x]; clear_value x]) | skip)
      | split | lift_lets | (refine Kept.setRecdSame ?_ (hf.sub rfl) _ ?_ ?_ ?_ <;> first | rfl | skip))

theorem State.recReceiveAll_kept (s : State) (h : Kept W p s) (hf : Frees W [.regs, .recd, .flt]) :
    Kept W p (State.recReceiveAll s) := by
  unfold State.recReceiveAll
  refine forEach_kept _ _ _ h (fun u x hu => ?_)
  split
  · exact State.receive_kept _ _ (hu.setRecdSame (hf.sub rfl) _ rfl rfl rfl) (hf.sub rfl)
  · exact hu

theorem State.recClear_kept (s : State) (a2 : Nat) (h : Kept W p s) (hf : Frees W [.regs, .mem, .ecc, .recd, .evd, .flt, .tly, .free]) :
    Kept W p (State.recClear s a2) := by
  unfold State.recClear
  lift_lets
  intro d newest s1
  have h1 : Kept W p s1 := by simp only [s1]; with_reducible repeat' (first
      | assumption | exact hf.sub rfl | apply State.incMod_kept | apply State.put_kept | apply State.ringWrite_kept
      | apply forEach_kept
      | (intro x; first | (refine kept_cut (W := W) (p := p) (v := x) ?_ (fun hx => ?_) <;> [simp only [x]; clear_value x]) | skip)
      | lift_lets | (refine Kept.setRecdSame ?_ (hf.sub rfl) _ ?_ ?_ ?_ <;> first | rfl | skip))
  clear_value s1
  dsimp only
  exact State.ringWrite_kept _ _ _ (h1.setRecd (hf.sub rfl) _ (fun i => i.recq) (fun _ => Nat.zero_le _) (fun i => i.ring)) (hf.sub rfl)

theorem State.recStart_kept (s : State) (h : Kept W p s) (hf : Frees W [.regs, .recd, .evd, .flt, .tly, .free]) :
    Kept W p (State.recStart s) := by
  unfold State.recStart
  have h1 := h.setRecd (hf.sub rfl) ({ s.recd with queue := [], fullCount := 0, buckets := [], gbucket := {}, suppPage := []
                                                   ready := false } : Recorder) (fun _ => Nat.zero_le _) (fun i => i.held) (fun i => i.ring)
  dsimp only
  with_reducible repeat' (first
      | assumption | exact hf.sub rfl | apply State.curMove_kept | apply State.incMod_kept | apply State.raise_kept
      | apply forEach_kept
      | (intro x; first | (refine kept_cut (W := W) (p := p) (v := x) ?_ (fun hx => ?_) <;> [simp only [x]; clear_value x]) | skip)
      | split | lift_lets | (refine Kept.setRecdSame ?_ (hf.sub rfl) _ ?_ ?_ ?_ <;> first | rfl | skip))

theorem execRecordReceive_kept (s : State) (h : Kept W p s) (hf : Frees W [.regs, .recd, .flt]) :
    OutKept W p (execRecordReceive s) := by
  unfold execRecordReceive
  split
  · exact h
  · exact State.receive_kept _ _ (h.setRecdSame (hf.sub rfl) _ rfl rfl rfl) (hf.sub rfl)

theorem execRecordWrite_kept (a1 : Bool) (s : State) (h : Kept W p s) (hf : Frees W [.regs, .mem, .ecc, .recd, .evd, .flt, .tly, .free]) :
    OutKept W p (execRecordWrite a1 s) := by
  unfold execRecordWrite
  split
  · exact h
  · split
    · exact h
    · rename_i r rest hq
      have hl (i : s.Inv) : rest.length ≤ 1024 := by have := i.recq; rw [hq, List.length_cons] at this; omega
      have h1 := State.ringWrite_kept _ r a1
        (h.setRecd (hf.sub rfl) ({ s.recd with queue := rest } : Recorder) hl (fun i => i.held) (fun i => i.ring)) (hf.sub rfl)
      apply OutKept.next
      dsimp only
      split
      · exact State.raise_kept _ _ _ _ _ (h1.setRecdSame (hf.sub rfl) _ rfl rfl rfl) (hf.sub rfl)
      · exact h1

theorem execSummaryRecord_kept (a1 : BitVec 12) (s : State) (h : Kept W p s)
    (hf : Frees W [.regs, .recd, .flt]) : OutKept W p (execSummaryRecord a1 s) := by
  unfold execSummaryRecord
  dsimp only
  split
  · exact h
  · split
    · with_reducible repeat' (first
      | assumption | exact hf.sub rfl | apply State.noteFull_kept | apply State.put_kept | apply State.suppress_kept
      | apply OutKept.next
      | (intro x; first | (refine kept_cut (W := W) (p := p) (v := x) ?_ (fun hx => ?_) <;> [simp only [x]; clear_value x]) | skip)
      | split | lift_lets | (refine Kept.setRecdSame ?_ (hf.sub rfl) _ ?_ ?_ ?_ <;> first | rfl | skip))
    · rename_i hn
      have hq : s.recd.queue.length < 1024 := by simpa [State.queueFull] using hn
      have hp := State.put_kept s pgREC REC.CODE_STAT.SUPP 0 a1.toNat h (hf.sub rfl)
      refine hp.setRecd (hf.sub rfl) _ (fun _ => ?_) (fun i => i.held) (fun i => i.ring)
      simp only [List.length_append, List.length_singleton]
      show s.recd.queue.length + 1 ≤ 1024
      omega

theorem execLogCmd_kept (m : Fin 4) (code : BitVec 12) (sub : BitVec 3) (s : State) (h : Kept W p s) (hf : Frees W [.regs, .boot, .recd, .evd, .flt, .tly, .free]) :
    OutKept W p (execLogCmd m code sub s) := by
  unfold execLogCmd
  with_reducible repeat' (first
      | assumption | exact hf.sub rfl | apply State.actionRes_kept | apply State.put_kept | apply State.receive_kept
      | apply OutKept.next
      | (intro x; first | (refine kept_cut (W := W) (p := p) (v := x) ?_ (fun hx => ?_) <;> [simp only [x]; clear_value x]) | skip)
      | split | lift_lets)

theorem execWrapAck_kept (m : Fin 4) (n : BitVec 2) (s : State) (h : Kept W p s) (hf : Frees W [.regs, .boot, .recd, .evd, .flt, .tly, .free]) :
    OutKept W p (execWrapAck m n s) := by
  unfold execWrapAck
  with_reducible repeat' (first
      | assumption | exact hf.sub rfl | apply State.action_kept | apply State.put_kept | apply OutKept.next | intro x
      | split)

theorem execEpoch_kept (m : Fin 4) (v : BitVec 32) (s : State) (h : Kept W p s) (hf : Frees W [.regs, .boot, .recd, .evd, .flt, .tly, .free]) :
    OutKept W p (execEpoch m v s) := by
  unfold execEpoch
  with_reducible repeat' (first
      | assumption | exact hf.sub rfl | apply State.action_kept | apply State.cond_kept | apply State.put_kept
      | apply State.raise_kept | apply OutKept.next
      | (intro x; first | (refine kept_cut (W := W) (p := p) (v := x) ?_ (fun hx => ?_) <;> [simp only [x]; clear_value x]) | skip)
      | lift_lets)

theorem execWinW0Read_kept (c : Fin 4) (m : Fin 4) (s : State) (h : Kept W p s) (hf : Frees W [.regs, .bus]) :
    OutKept W p (execWinW0Read c m s) := by
  unfold execWinW0Read
  with_reducible repeat' (first
      | assumption | exact hf.sub rfl | apply State.answer_kept | apply State.put_kept | apply OutKept.next
      | (intro x; first | (refine kept_cut (W := W) (p := p) (v := x) ?_ (fun hx => ?_) <;> [simp only [x]; clear_value x]) | skip)
      | split | lift_lets)

theorem execWinW7Read_kept (c : Fin 4) (m : Fin 4) (s : State) (h : Kept W p s) (hf : Frees W [.regs, .recd, .evd, .flt, .bus, .tly, .free]) :
    OutKept W p (execWinW7Read c m s) := by
  unfold execWinW7Read
  with_reducible repeat' (first
      | assumption | exact hf.sub rfl | apply State.answer_kept | apply State.curAdvance_kept | apply State.put_kept
      | apply OutKept.next
      | (intro x; first | (refine kept_cut (W := W) (p := p) (v := x) ?_ (fun hx => ?_) <;> [simp only [x]; clear_value x]) | skip)
      | split | lift_lets)

theorem seek_kept (c : Fin 4) (m : Fin 4) (q : State → Option Nat) (s : State) (h : Kept W p s) (hf : Frees W [.regs, .boot, .recd, .evd, .flt, .tly, .free]) :
    OutKept W p (seek c m q s) := by
  unfold seek
  with_reducible repeat' (first
      | assumption | exact hf.sub rfl | apply State.actionRes_kept | apply State.curMove_kept | apply State.put_kept
      | apply OutKept.next
      | (intro x; first | (refine kept_cut (W := W) (p := p) (v := x) ?_ (fun hx => ?_) <;> [simp only [x]; clear_value x]) | skip)
      | split | lift_lets)

theorem execSeekOldest_kept (c : Fin 4) (m : Fin 4) (s : State) (h : Kept W p s) (hf : Frees W [.regs, .boot, .recd, .evd, .flt, .tly, .free]) :
    OutKept W p (execSeekOldest c m s) := by
  unfold execSeekOldest
  with_reducible repeat' (first | assumption | exact hf.sub rfl | apply seek_kept | apply OutKept.next | intro x)

theorem execSeekEnd_kept (c : Fin 4) (m : Fin 4) (s : State) (h : Kept W p s) (hf : Frees W [.regs, .boot, .recd, .evd, .flt, .tly, .free]) :
    OutKept W p (execSeekEnd c m s) := by
  unfold execSeekEnd
  with_reducible repeat' (first | assumption | exact hf.sub rfl | apply seek_kept | apply OutKept.next | intro x)

theorem execSeekSeq_kept (c : Fin 4) (m : Fin 4) (s : State) (h : Kept W p s) (hf : Frees W [.regs, .boot, .recd, .evd, .flt, .tly, .free]) :
    OutKept W p (execSeekSeq c m s) := by
  unfold execSeekSeq
  with_reducible repeat' (first
      | assumption | exact hf.sub rfl | apply seek_kept | apply OutKept.next
      | (intro x; first | (refine kept_cut (W := W) (p := p) (v := x) ?_ (fun hx => ?_) <;> [simp only [x]; clear_value x]) | skip)
      | split | lift_lets)

/-! ### Tly -/

theorem State.tlyLock_kept (s : State) (h : Kept W p s) (hf : Frees W [.tly]) :
    Kept W p (State.tlyLock s) := by
  unfold State.tlyLock
  with_reducible repeat' (first
      | assumption | exact hf.sub rfl
      | (intro x; first | (refine kept_cut (W := W) (p := p) (v := x) ?_ (fun hx => ?_) <;> [simp only [x]; clear_value x]) | skip)
      | lift_lets | (refine Kept.setTlySame ?_ (hf.sub rfl) _ ?_ ?_ <;> first | rfl | skip))

theorem State.tlyStore_kept (s : State) (a2 : Nat) (h : Kept W p s) (hf : Frees W [.regs, .recd, .evd, .flt, .tly, .free]) :
    Kept W p (State.tlyStore s a2) := by
  unfold State.tlyStore
  dsimp only
  apply State.tallyAdd_kept _ _ _ _ (hf.sub rfl)
  refine h.setTly (hf.sub rfl) _ (fun i => i.val) (fun i => store_set_lt i.recs ?_)
  have : s.tally a2 < 2 ^ 64 := i.val a2
  omega

theorem State.tlyFlush_kept (s : State) (h : Kept W p s) (hf : Frees W [.regs, .recd, .evd, .flt, .tly, .free]) :
    Kept W p (State.tlyFlush s) := by
  unfold State.tlyFlush
  with_reducible repeat' (first
      | assumption | exact hf.sub rfl | apply State.tlyStore_kept | apply forEach_kept | apply kept_foldl
      | (intro x; first | (refine kept_cut (W := W) (p := p) (v := x) ?_ (fun hx => ?_) <;> [simp only [x]; clear_value x]) | skip)
      | lift_lets | (refine Kept.setRecdSame ?_ (hf.sub rfl) _ ?_ ?_ ?_ <;> first | rfl | skip))

theorem State.tlyRefuse_kept (s : State) (result : Nat) (h : Kept W p s) (hf : Frees W [.regs, .flt]) :
    Kept W p (State.tlyRefuse s result) := by
  unfold State.tlyRefuse
  with_reducible repeat' (first
      | assumption | exact hf.sub rfl | apply State.put_kept | apply State.setFault_kept | intro x)

theorem State.tlyCmd_kept (s : State) (m : Nat) (f : State → State) (h : Kept W p s) (hf : Frees W [.regs, .boot, .recd, .evd, .flt, .tly, .free]) (hf3 : ∀ x0, Kept W p x0 → Kept W p (f x0)) :
    Kept W p (State.tlyCmd s m f) := by
  unfold State.tlyCmd
  with_reducible repeat' (first
      | assumption | exact hf.sub rfl | apply State.action_kept | apply State.refuseOwner_kept
      | apply State.tlyRefuse_kept | apply hf3 | intro x | split)

theorem execTallyFlush_kept (s : State) (h : Kept W p s) (hf : Frees W [.regs, .recd, .evd, .flt, .tly, .free]) :
    OutKept W p (execTallyFlush s) := by
  unfold execTallyFlush
  with_reducible repeat' (first
      | assumption | exact hf.sub rfl | apply State.tlyFlush_kept | apply OutKept.next
      | (intro x; first | (refine kept_cut (W := W) (p := p) (v := x) ?_ (fun hx => ?_) <;> [simp only [x]; clear_value x]) | skip)
      | split | lift_lets | (refine Kept.setTlySame ?_ (hf.sub rfl) _ ?_ ?_ <;> first | rfl | skip))

theorem execPreset_kept (m : Fin 4) (s : State) (h : Kept W p s) (hf : Frees W [.regs, .boot, .recd, .evd, .flt, .tly, .free]) :
    OutKept W p (execPreset m s) := by
  unfold execPreset
  with_reducible repeat' (first
      | assumption | exact hf.sub rfl | apply State.put_kept | apply State.raise_kept | apply State.tallySet_kept
      | apply State.tlyCmd_kept | apply State.tlyLock_kept | apply State.tlyRefuse_kept | apply State.tlyStore_kept
      | apply OutKept.next
      | (intro x; first | (refine kept_cut (W := W) (p := p) (v := x) ?_ (fun hx => ?_) <;> [simp only [x]; clear_value x]) | skip)
      | split | lift_lets)

theorem execAdd_kept (m : Fin 4) (s : State) (h : Kept W p s) (hf : Frees W [.regs, .boot, .recd, .evd, .flt, .tly, .free]) :
    OutKept W p (execAdd m s) := by
  unfold execAdd
  with_reducible repeat' (first
      | assumption | exact hf.sub rfl | apply State.put_kept | apply State.tallyAdd_kept | apply State.tlyCmd_kept
      | apply State.tlyLock_kept | apply State.tlyRefuse_kept | apply OutKept.next
      | (intro x; first | (refine kept_cut (W := W) (p := p) (v := x) ?_ (fun hx => ?_) <;> [simp only [x]; clear_value x]) | skip)
      | split | lift_lets)

theorem execFlush_kept (m : Fin 4) (s : State) (h : Kept W p s) (hf : Frees W [.regs, .boot, .recd, .evd, .flt, .tly, .free]) :
    OutKept W p (execFlush m s) := by
  unfold execFlush
  with_reducible repeat' (first
      | assumption | exact hf.sub rfl | apply State.put_kept | apply State.tlyCmd_kept | apply State.tlyFlush_kept
      | apply State.tlyLock_kept | apply OutKept.next | intro x)

theorem execThreshHi_kept (a1 : Fin 4) (a2 : BitVec 32) (s : State) (h : Kept W p s)
    (hf : Frees W [.regs, .boot, .recd, .evd, .flt, .tly, .free]) : OutKept W p (execThreshHi a1 a2 s) := by
  unfold execThreshHi
  apply OutKept.next
  refine State.action_kept _ _ _ _ _ h (hf.sub rfl) (fun s hs => ?_)
  have h0 := State.tlyTouch_kept s hs (hf.sub rfl)
  generalize s.tlyTouch = s0 at h0 ⊢
  dsimp only
  split
  · exact h0
  · apply State.tallyAdd_kept _ _ _ _ (hf.sub rfl)
    apply State.tallyCheck_kept _ _ _ (hf.sub rfl)
    split
    · exact State.put_kept _ _ _ _ _ (h0.setTlySame (hf.sub rfl) _ rfl rfl) (hf.sub rfl)
    · exact h0.setTlySame (hf.sub rfl) _ rfl rfl

theorem execTlyUnlock_kept (m : Fin 4) (key : BitVec 32) (s : State) (h : Kept W p s) (hf : Frees W [.regs, .boot, .recd, .evd, .flt, .tly, .free]) :
    OutKept W p (execTlyUnlock m key s) := by
  unfold execTlyUnlock
  with_reducible repeat' (first
      | assumption | exact hf.sub rfl | apply State.action_kept | apply OutKept.next
      | (intro x; first | (refine kept_cut (W := W) (p := p) (v := x) ?_ (fun hx => ?_) <;> [simp only [x]; clear_value x]) | skip)
      | split | lift_lets | (refine Kept.setTlySame ?_ (hf.sub rfl) _ ?_ ?_ <;> first | rfl | skip))

theorem execTallyTimeCount_kept (case_ : BitVec 16) (s : State) (h : Kept W p s) (hf : Frees W [.regs, .recd, .evd, .flt, .tly, .free]) :
    OutKept W p (execTallyTimeCount case_ s) := by
  unfold execTallyTimeCount
  with_reducible repeat' (first
      | assumption | exact hf.sub rfl | apply State.put_kept | apply State.tallyAdd_kept | apply forEach_kept
      | apply onlyIf_kept | apply OutKept.next
      | (intro x; first | (refine kept_cut (W := W) (p := p) (v := x) ?_ (fun hx => ?_) <;> [simp only [x]; clear_value x]) | skip)
      | split | lift_lets | (refine Kept.setTlySame ?_ (hf.sub rfl) _ ?_ ?_ <;> first | rfl | skip))

theorem execValueLoRead_kept (s : State) (h : Kept W p s) (hf : Frees W [.regs, .bus]) :
    OutKept W p (execValueLoRead s) := by
  unfold execValueLoRead
  with_reducible repeat' (first
      | assumption | exact hf.sub rfl | apply State.answer_kept | apply State.put_kept | apply OutKept.next
      | (intro x; first | (refine kept_cut (W := W) (p := p) (v := x) ?_ (fun hx => ?_) <;> [simp only [x]; clear_value x]) | skip)
      | split | lift_lets)

/-! ### Cal -/

theorem State.calTrust_kept (s : State) (h : Kept W p s) (hf : Frees W [.regs]) :
    Kept W p (State.calTrust s) := by
  unfold State.calTrust
  with_reducible repeat' (first | assumption | exact hf.sub rfl | apply State.put_kept | intro x | split)

theorem State.setOsf_kept (s : State) (h : Kept W p s) (hf : Frees W [.regs, .flt]) :
    Kept W p (State.setOsf s) := by
  unfold State.setOsf
  with_reducible repeat' (first
      | assumption | exact hf.sub rfl | apply State.calTrust_kept | apply State.cond_kept | apply State.put_kept
      | apply State.setFault_kept | intro x)

theorem State.setLbf_kept (s : State) (h : Kept W p s) (hf : Frees W [.regs, .flt]) :
    Kept W p (State.setLbf s) := by
  unfold State.setLbf
  with_reducible repeat' (first
      | assumption | exact hf.sub rfl | apply State.calTrust_kept | apply State.cond_kept | apply State.put_kept
      | apply State.setFault_kept | intro x)

theorem State.alarmFire_kept (s : State) (a2 a3 a4 : Nat) (h : Kept W p s)
    (hf : Frees W [.regs, .shad, .recd, .evd, .flt, .cal, .tly, .free]) : Kept W p (State.alarmFire s a2 a3 a4) := by
  unfold State.alarmFire
  have h1 : Kept W p ((s.put pgCAL CAL.ALARM_STAT.FIRED 1).put pgCAL CAL.LAST_FIRED a3) := by with_reducible repeat' (first
      | assumption | exact hf.sub rfl | apply State.event_kept | apply State.put_kept | apply State.raise_kept
      | apply State.setFault_kept | apply State.setShadow_kept
      | (intro x; first | (refine kept_cut (W := W) (p := p) (v := x) ?_ (fun hx => ?_) <;> [simp only [x]; clear_value x]) | skip)
      | split | lift_lets | (refine Kept.setCal ?_ (hf.sub rfl) _ ?_ <;> first | rfl | skip))
  generalize (s.put pgCAL CAL.ALARM_STAT.FIRED 1).put pgCAL CAL.LAST_FIRED a3 = s1 at h1 ⊢
  have h2 : Kept W p (if s1.on pgCAL CAL.ALARM_DATE.DATE_EN then
      (s1.put pgCAL CAL.ALARM_TIME.EN 0).setShadow pgCAL 0x064 (s1.shadow pgCAL 0x064 &&& 0x7FFFFFFF#32)
    else s1) := by with_reducible repeat' (first
      | assumption | exact hf.sub rfl | apply State.event_kept | apply State.put_kept | apply State.raise_kept
      | apply State.setFault_kept | apply State.setShadow_kept
      | (intro x; first | (refine kept_cut (W := W) (p := p) (v := x) ?_ (fun hx => ?_) <;> [simp only [x]; clear_value x]) | skip)
      | split | lift_lets | (refine Kept.setCal ?_ (hf.sub rfl) _ ?_ <;> first | rfl | skip))
  dsimp only
  generalize (if s1.on pgCAL CAL.ALARM_DATE.DATE_EN then
      (s1.put pgCAL CAL.ALARM_TIME.EN 0).setShadow pgCAL 0x064 (s1.shadow pgCAL 0x064 &&& 0x7FFFFFFF#32)
    else s1) = s2 at h2 ⊢
  have h3 : Kept W p (if a2 = 1 then (s2.put pgCAL CAL.ALARM_STAT.LATE 1).setFault pgCAL 19 else s2) := by with_reducible repeat' (first
      | assumption | exact hf.sub rfl | apply State.event_kept | apply State.put_kept | apply State.raise_kept
      | apply State.setFault_kept | apply State.setShadow_kept
      | (intro x; first | (refine kept_cut (W := W) (p := p) (v := x) ?_ (fun hx => ?_) <;> [simp only [x]; clear_value x]) | skip)
      | split | lift_lets | (refine Kept.setCal ?_ (hf.sub rfl) _ ?_ <;> first | rfl | skip))
  generalize (if a2 = 1 then (s2.put pgCAL CAL.ALARM_STAT.LATE 1).setFault pgCAL 19 else s2) = s3 at h3 ⊢
  split
  · with_reducible repeat' (first
      | assumption | exact hf.sub rfl | apply State.event_kept | apply State.put_kept | apply State.raise_kept
      | apply State.setFault_kept | apply State.setShadow_kept
      | (intro x; first | (refine kept_cut (W := W) (p := p) (v := x) ?_ (fun hx => ?_) <;> [simp only [x]; clear_value x]) | skip)
      | split | lift_lets | (refine Kept.setCal ?_ (hf.sub rfl) _ ?_ <;> first | rfl | skip))
  · exact (State.put_kept _ _ _ _ _ h3 (hf.sub rfl)).setCal (hf.sub rfl) _ rfl

theorem State.calCount_kept (s : State) (t : CalTime) (h : Kept W p s) (hf : Frees W [.cal, .now])
    (hv : t.valid = true) : Kept W p (State.calCount s t) := h.setCalNow (hf.sub rfl) _ hv

theorem State.alarmReached_kept (s : State) (h : Kept W p s) (hf : Frees W [.regs, .shad, .recd, .evd, .flt, .cal, .tly, .free]) :
    Kept W p (State.alarmReached s) := by
  unfold State.alarmReached
  with_reducible repeat' (first
      | assumption | exact hf.sub rfl | apply State.alarmFire_kept
      | (intro x; first | (refine kept_cut (W := W) (p := p) (v := x) ?_ (fun hx => ?_) <;> [simp only [x]; clear_value x]) | skip)
      | split | lift_lets | (refine Kept.setCal ?_ (hf.sub rfl) _ ?_ <;> first | rfl | skip))

theorem State.wakeReached_kept (s : State) (h : Kept W p s) (hf : Frees W [.regs, .recd, .evd, .flt, .cal, .free]) :
    Kept W p (State.wakeReached s) := by
  unfold State.wakeReached
  with_reducible repeat' (first
      | assumption | exact hf.sub rfl | apply State.event_kept | apply State.incMod_kept
      | (intro x; first | (refine kept_cut (W := W) (p := p) (v := x) ?_ (fun hx => ?_) <;> [simp only [x]; clear_value x]) | skip)
      | split | lift_lets | (refine Kept.setCal ?_ (hf.sub rfl) _ ?_ <;> first | rfl | skip))

theorem calNew_valid (dw tw : Nat) (ht : timeReason tw = 0) (hd : dateReason dw = 0) :
    CalTime.valid (CalTime.mk (wYear dw) (wMonth dw) (wDay dw) (wHour tw) (wMin tw) (wSec tw) 0 0) = true := by
  revert ht hd
  unfold timeReason dateReason CalTime.valid
  split
  · split
    · split
      · intros; simp; omega
      · intro _ e; simp at e
    · intro _ e; simp at e
  · intro e; simp at e
theorem State.calSet_kept (s : State) (h : Kept W p s) (hf : Frees W [.regs, .shad, .recd, .evd, .flt, .cal, .now, .tly, .free])
    (ht : timeReason (s.calBuf 0x054) = 0) (hd : dateReason (s.calBuf 0x050) = 0) : Kept W p (State.calSet s) := by
  have hn := calNew_valid _ _ ht hd
  unfold State.calSet
  dsimp only
  generalize CalTime.mk (wYear (s.calBuf 0x050)) (wMonth (s.calBuf 0x050)) (wDay (s.calBuf 0x050)) (wHour (s.calBuf 0x054))
    (wMin (s.calBuf 0x054)) (wSec (s.calBuf 0x054)) 0 0 = new at hn ⊢
  have h0 := h.setCalNow (hf.sub rfl) ({ s.cal with now := new, alarmAt := false, wakeAt := false }) hn
  generalize ({ s with cal := { s.cal with now := new, alarmAt := false, wakeAt := false } } : State) = s0 at h0 ⊢
  refine kept_cut (W := W) (p := p) (v := ((((s0.setReg pgCAL 0x050 (BitVec.ofNat 32 (s.calBuf 0x050))).setReg pgCAL 0x054
    (BitVec.ofNat 32 (s.calBuf 0x054))).put pgCAL CAL.APPLY_T s0.stpNs))) ?_ (fun _ => ?_)
  · with_reducible repeat' (first
      | assumption | exact hf.sub rfl | apply State.alarmFire_kept | apply State.calTrust_kept | apply State.cond_kept
      | apply State.put_kept | apply State.raise_kept | apply State.setReg_kept
      | (intro x; first | (refine kept_cut (W := W) (p := p) (v := x) ?_ (fun hx => ?_) <;> [simp only [x]; clear_value x]) | skip)
      | split | lift_lets | (refine Kept.setCal ?_ (hf.sub rfl) _ ?_ <;> first | rfl | skip))
  · with_reducible repeat' (first
      | assumption | exact hf.sub rfl | apply State.alarmFire_kept | apply State.calTrust_kept | apply State.cond_kept
      | apply State.put_kept | apply State.raise_kept | apply State.setReg_kept
      | (intro x; first | (refine kept_cut (W := W) (p := p) (v := x) ?_ (fun hx => ?_) <;> [simp only [x]; clear_value x]) | skip)
      | split | lift_lets | (refine Kept.setCal ?_ (hf.sub rfl) _ ?_ <;> first | rfl | skip))

theorem State.calReject_kept (s : State) (a2 a3 a4 a5 : Nat) (h : Kept W p s)
    (hf : Frees W [.regs, .recd, .evd, .flt, .cal, .tly, .free]) : Kept W p (State.calReject s a2 a3 a4 a5) := by
  unfold State.calReject
  have h1 := (State.put_kept s pgCAL HDR.COMMIT.PENDING 0 0 h (hf.sub rfl)).setCal (hf.sub rfl) ({ s.cal with
    wSet := s.cal.wSet || s.cal.gSet, wAlarm := s.cal.wAlarm || s.cal.gAlarm, wWake := s.cal.wWake || s.cal.gWake
    gSet := false, gAlarm := false, gWake := false } : Calendar) rfl
  dsimp only
  split
  · with_reducible repeat' (first
      | assumption | exact hf.sub rfl | apply State.put_kept | apply State.raise_kept | apply State.setFault_kept
      | (intro x; first | (refine kept_cut (W := W) (p := p) (v := x) ?_ (fun hx => ?_) <;> [simp only [x]; clear_value x]) | skip)
      | split | lift_lets | (refine Kept.setCal ?_ (hf.sub rfl) _ ?_ <;> first | rfl | skip))
  · with_reducible repeat' (first
      | assumption | exact hf.sub rfl | apply State.put_kept | apply State.raise_kept | apply State.setFault_kept
      | (intro x; first | (refine kept_cut (W := W) (p := p) (v := x) ?_ (fun hx => ?_) <;> [simp only [x]; clear_value x]) | skip)
      | split | lift_lets | (refine Kept.setCal ?_ (hf.sub rfl) _ ?_ <;> first | rfl | skip))

theorem State.calApply_kept (s : State) (h : Kept W p s) (hf : Frees W [.regs, .shad, .recd, .evd, .flt, .cal, .now, .tly, .free]) :
    Kept W p (State.calApply s) := by
  unfold State.calApply
  split
  · exact h
  · dsimp only
    refine iteInduction (motive := Kept W p) (fun _ => ?_) (fun hset => ?_)
    · exact State.calReject_kept _ _ _ _ _ h (hf.sub rfl)
    · refine iteInduction (motive := Kept W p) (fun _ => ?_) (fun _ => ?_)
      · exact State.calReject_kept _ _ _ _ _ h (hf.sub rfl)
      · refine iteInduction (motive := Kept W p) (fun _ => ?_) (fun _ => ?_)
        · exact State.calReject_kept _ _ _ _ _ h (hf.sub rfl)
        · have h0 : Kept W p ({ (s.put pgCAL HDR.COMMIT.PENDING 0).incMod pgCAL HDR.STAGE_SEQ with
              cal := { s.cal with gSet := false, gAlarm := false, gWake := false, alarmAt := s.cal.alarmAt && !s.cal.gAlarm, wakeAt := s.cal.wakeAt && !s.cal.gWake } } : State) :=
            (State.incMod_kept _ _ _ _ _ (State.put_kept s pgCAL HDR.COMMIT.PENDING 0 0 h (hf.sub rfl)) (hf.sub rfl)).setCal
              (hf.sub rfl) _ rfl
          have hb : ∀ o, ({ (s.put pgCAL HDR.COMMIT.PENDING 0).incMod pgCAL HDR.STAGE_SEQ with
              cal := { s.cal with gSet := false, gAlarm := false, gWake := false, alarmAt := s.cal.alarmAt && !s.cal.gAlarm, wakeAt := s.cal.wakeAt && !s.cal.gWake } } : State).calBuf o = s.calBuf o := fun o => rfl
          generalize ({ (s.put pgCAL HDR.COMMIT.PENDING 0).incMod pgCAL HDR.STAGE_SEQ with
              cal := { s.cal with gSet := false, gAlarm := false, gWake := false, alarmAt := s.cal.alarmAt && !s.cal.gAlarm, wakeAt := s.cal.wakeAt && !s.cal.gWake } } : State) = s0 at h0 hb ⊢
          have h1 : Kept W p (if s.cal.gWake then s0.setReg pgCAL 0x070 (BitVec.ofNat 32 (s.calBuf 0x070)) else s0) := by with_reducible repeat' (first
      | assumption | exact hf.sub rfl | apply State.calReject_kept | apply State.calSet_kept | apply State.incMod_kept
      | apply State.put_kept | apply State.setReg_kept
      | (intro x; first | (refine kept_cut (W := W) (p := p) (v := x) ?_ (fun hx => ?_) <;> [simp only [x]; clear_value x]) | skip)
      | split | lift_lets | (refine Kept.setCal ?_ (hf.sub rfl) _ ?_ <;> first | rfl | skip))
          have hb1 : ∀ o, (if s.cal.gWake then s0.setReg pgCAL 0x070 (BitVec.ofNat 32 (s.calBuf 0x070)) else s0).calBuf o
              = s.calBuf o := by
            intro o; rw [← hb o]; split <;> rfl
          generalize (if s.cal.gWake then s0.setReg pgCAL 0x070 (BitVec.ofNat 32 (s.calBuf 0x070)) else s0) = s1 at h1 hb1 ⊢
          have h2 : Kept W p (if s.cal.gAlarm then ((s1.setReg pgCAL 0x060 (BitVec.ofNat 32 (s.calBuf 0x060))).setReg pgCAL 0x064
        (BitVec.ofNat 32 (s.calBuf 0x064))).put pgCAL CAL.LAST_FIRED 0 else s1) := by with_reducible repeat' (first
      | assumption | exact hf.sub rfl | apply State.calReject_kept | apply State.calSet_kept | apply State.incMod_kept
      | apply State.put_kept | apply State.setReg_kept
      | (intro x; first | (refine kept_cut (W := W) (p := p) (v := x) ?_ (fun hx => ?_) <;> [simp only [x]; clear_value x]) | skip)
      | split | lift_lets | (refine Kept.setCal ?_ (hf.sub rfl) _ ?_ <;> first | rfl | skip))
          have hb2 : ∀ o, (if s.cal.gAlarm then ((s1.setReg pgCAL 0x060 (BitVec.ofNat 32 (s.calBuf 0x060))).setReg pgCAL 0x064
        (BitVec.ofNat 32 (s.calBuf 0x064))).put pgCAL CAL.LAST_FIRED 0 else s1).calBuf o = s.calBuf o := by
            intro o; rw [← hb1 o]; split <;> rfl
          generalize (if s.cal.gAlarm then ((s1.setReg pgCAL 0x060 (BitVec.ofNat 32 (s.calBuf 0x060))).setReg pgCAL 0x064
        (BitVec.ofNat 32 (s.calBuf 0x064))).put pgCAL CAL.LAST_FIRED 0 else s1) = s2 at h2 hb2 ⊢
          split
          · rename_i hg
            simp only [hg, Bool.not_true, if_false, Bool.false_eq_true] at hset
            apply State.calSet_kept _ h2 (hf.sub rfl)
            · rw [hb2]
              by_contra hc
              by_cases h3 : dateReason (s.calBuf 0x050) = 2 <;> simp_all
            · rw [hb2]
              split at hset <;> simp_all
          · exact h2

theorem execDateRead_kept (s : State) (h : Kept W p s) (hf : Frees W [.regs, .bus]) :
    OutKept W p (execDateRead s) := by
  unfold execDateRead
  with_reducible repeat' (first
      | assumption | exact hf.sub rfl | apply State.answer_kept | apply State.put_kept | apply OutKept.next
      | (intro x; first | (refine kept_cut (W := W) (p := p) (v := x) ?_ (fun hx => ?_) <;> [simp only [x]; clear_value x]) | skip)
      | split | lift_lets)

theorem execCalCommitApply_kept (s : State) (h : Kept W p s) (hf : Frees W [.regs, .shad, .recd, .evd, .flt, .cal, .now, .tly, .free]) :
    OutKept W p (execCalCommitApply s) := by
  unfold execCalCommitApply
  with_reducible repeat' (first
      | assumption | exact hf.sub rfl | apply State.calApply_kept | apply OutKept.next | intro x)

theorem execAlarmFire_kept (s : State) (h : Kept W p s) (hf : Frees W [.regs, .shad, .recd, .evd, .flt, .cal, .tly, .free]) :
    OutKept W p (execAlarmFire s) := by
  unfold execAlarmFire
  with_reducible repeat' (first
      | assumption | exact hf.sub rfl | apply State.alarmReached_kept | apply OutKept.next | intro x | split)

theorem execWake_kept (s : State) (h : Kept W p s) (hf : Frees W [.regs, .recd, .evd, .flt, .cal, .free]) :
    OutKept W p (execWake s) := by
  unfold execWake
  with_reducible repeat' (first
      | assumption | exact hf.sub rfl | apply State.wakeReached_kept | apply OutKept.next | intro x | split)

theorem execOscillatorStop_kept (s : State) (h : Kept W p s) (hf : Frees W [.regs, .recd, .evd, .flt, .tly, .free]) :
    OutKept W p (execOscillatorStop s) := by
  unfold execOscillatorStop
  with_reducible repeat' (first
      | assumption | exact hf.sub rfl | apply State.raise_kept | apply State.setOsf_kept | apply OutKept.next | intro x
      | split)

theorem execLbf_kept (s : State) (h : Kept W p s) (hf : Frees W [.regs, .flt]) :
    OutKept W p (execLbf s) := by
  unfold execLbf
  with_reducible repeat' (first
      | assumption | exact hf.sub rfl | apply State.setLbf_kept | apply OutKept.next | intro x | split)

theorem execYearWrap_kept (s : State) (h : Kept W p s) (hf : Frees W [.regs, .shad, .recd, .evd, .flt, .cal, .now, .tly, .free]) :
    OutKept W p (execYearWrap s) := by
  unfold execYearWrap
  split
  · exact h
  · have h1 := State.calCount_kept s { year := 2000, month := 1, day := 1 } h (hf.sub rfl) (by decide)
    dsimp only
    generalize s.calCount { year := 2000, month := 1, day := 1 } = s1 at h1 ⊢
    with_reducible repeat' (first
      | assumption | exact hf.sub rfl | apply State.alarmReached_kept | apply State.calCount_kept
      | apply State.raise_kept | apply State.setFault_kept | apply State.setOsf_kept | apply State.wakeReached_kept
      | apply OutKept.next
      | (intro x; first | (refine kept_cut (W := W) (p := p) (v := x) ?_ (fun hx => ?_) <;> [simp only [x]; clear_value x]) | skip)
      | split | lift_lets)

/-! ### Pnl -/

theorem State.pnlStatus_kept (s : State) (h : Kept W p s) (hf : Frees W [.regs]) :
    Kept W p (State.pnlStatus s) := by
  unfold State.pnlStatus
  with_reducible repeat' (first
      | assumption | exact hf.sub rfl | apply State.put_kept | apply kept_foldl
      | (intro x; first | (refine kept_cut (W := W) (p := p) (v := x) ?_ (fun hx => ?_) <;> [simp only [x]; clear_value x]) | skip)
      | split | lift_lets)

theorem State.pnlNext_kept (s : State) (h : Kept W p s) (hf : Frees W [.regs, .pnl]) :
    Kept W p (State.pnlNext s) := by
  unfold State.pnlNext
  with_reducible repeat' (first
      | assumption | exact hf.sub rfl | apply State.pnlStatus_kept
      | (intro x; first | (refine kept_cut (W := W) (p := p) (v := x) ?_ (fun hx => ?_) <;> [simp only [x]; clear_value x]) | skip)
      | split | lift_lets | refine Kept.setPnl ?_ (hf.sub rfl) _)

theorem State.pnlBegin_kept (s : State) (j : PanelJob) (h : Kept W p s) (hf : Frees W [.regs, .pnl]) :
    Kept W p (State.pnlBegin s j) := by
  unfold State.pnlBegin
  with_reducible repeat' (first
      | assumption | exact hf.sub rfl | apply State.pnlNext_kept | apply State.put_kept
      | (intro x; first | (refine kept_cut (W := W) (p := p) (v := x) ?_ (fun hx => ?_) <;> [simp only [x]; clear_value x]) | skip)
      | split | lift_lets | refine Kept.setPnl ?_ (hf.sub rfl) _)

theorem State.pnlRestNext_kept (s : State) (h : Kept W p s) (hf : Frees W [.regs, .pnl]) :
    Kept W p (State.pnlRestNext s) := by
  unfold State.pnlRestNext
  with_reducible repeat' (first
      | assumption | exact hf.sub rfl | apply State.pnlBegin_kept | apply State.pnlStatus_kept
      | (intro x; first | (refine kept_cut (W := W) (p := p) (v := x) ?_ (fun hx => ?_) <;> [simp only [x]; clear_value x]) | skip)
      | split | lift_lets | refine Kept.setPnl ?_ (hf.sub rfl) _)

theorem State.restTrigger_kept (s : State) (cause : Nat) (mode : String) (all : Bool) (off : Bool) (h : Kept W p s) (hf : Frees W [.regs, .recd, .evd, .flt, .tly, .pnl, .free]) :
    Kept W p (State.restTrigger s cause mode all off) := by
  unfold State.restTrigger
  with_reducible repeat' (first
      | assumption | exact hf.sub rfl | apply State.pnlRestNext_kept | apply State.raise_kept
      | (intro x; first | (refine kept_cut (W := W) (p := p) (v := x) ?_ (fun hx => ?_) <;> [simp only [x]; clear_value x]) | skip)
      | split | lift_lets | refine Kept.setPnl ?_ (hf.sub rfl) _)

theorem State.pnlRequest_kept (s : State) (k : Nat) (h : Kept W p s) (hf : Frees W [.regs, .pnl]) :
    Kept W p (State.pnlRequest s k) := by
  unfold State.pnlRequest
  with_reducible repeat' (first
      | assumption | exact hf.sub rfl | apply State.incMod_kept | apply onlyIf_kept
      | (intro x; first | (refine kept_cut (W := W) (p := p) (v := x) ?_ (fun hx => ?_) <;> [simp only [x]; clear_value x]) | skip)
      | split | lift_lets | refine Kept.setPnl ?_ (hf.sub rfl) _)

theorem State.pnlRecovery_kept (s : State) (a2 : Nat) (h : Kept W p s) (hf : Frees W [.regs, .recd, .evd, .flt, .tly, .pnl, .free]) :
    Kept W p (State.pnlRecovery s a2) := by
  unfold State.pnlRecovery
  split
  · exact h
  · extract_lets w row rows q s1 s2
    have h1 : Kept W p s1 := (h.setFreeUses (hf.sub rfl) (s.freeUses + 3)).setPnl (hf.sub rfl) { s.pnl with marker := none }
    have h2 : Kept W p s2 := State.raise_kept _ _ _ _ _ (State.setFault_kept _ _ _ h1 (hf.sub rfl)) (hf.sub rfl)
    generalize s2 = u at h2 ⊢
    exact State.restTrigger_kept _ _ _ _ _ (State.pnlBegin_kept _ _ h2 (hf.sub rfl)) (hf.sub rfl)

theorem State.pnlOff_kept (s : State) (h : Kept W p s) (hf : Frees W [.pnl]) :
    Kept W p (State.pnlOff s) := by
  unfold State.pnlOff
  with_reducible repeat' (first
      | assumption | exact hf.sub rfl
      | (intro x; first | (refine kept_cut (W := W) (p := p) (v := x) ?_ (fun hx => ?_) <;> [simp only [x]; clear_value x]) | skip)
      | lift_lets | refine Kept.setPnl ?_ (hf.sub rfl) _)

theorem execReq_kept (m : Fin 4) (mask : BitVec 8) (s : State) (h : Kept W p s) (hf : Frees W [.regs, .boot, .recd, .evd, .flt, .tly, .pnl, .free]) :
    OutKept W p (execReq m mask s) := by
  unfold execReq
  with_reducible repeat' (first
      | assumption | exact hf.sub rfl | apply State.action_kept | apply State.pnlRequest_kept
      | apply State.pnlStatus_kept | apply forEach_kept | apply OutKept.next | intro x)

theorem execRegionUpdateStart_kept (s : State) (h : Kept W p s) (hf : Frees W [.regs, .pnl]) :
    OutKept W p (execRegionUpdateStart s) := by
  unfold execRegionUpdateStart
  with_reducible repeat' (first
      | assumption | exact hf.sub rfl | apply State.pnlBegin_kept | apply OutKept.next
      | (intro x; first | (refine kept_cut (W := W) (p := p) (v := x) ?_ (fun hx => ?_) <;> [simp only [x]; clear_value x]) | skip)
      | split | lift_lets | refine Kept.setPnl ?_ (hf.sub rfl) _)

theorem execCommonDriveDone_kept (markerOk : Bool) (driveErr : Fin 3) (s : State) (h : Kept W p s) (hf : Frees W [.regs, .recd, .evd, .flt, .tly, .pnl, .free]) :
    OutKept W p (execCommonDriveDone markerOk driveErr s) := by
  unfold execCommonDriveDone
  with_reducible repeat' (first
      | assumption | exact hf.sub rfl | apply State.incMod_kept | apply State.pnlNext_kept
      | apply State.pnlRestNext_kept | apply State.raise_kept | apply State.setFault_kept | apply onlyIf_kept
      | apply OutKept.next
      | (intro x; first | (refine kept_cut (W := W) (p := p) (v := x) ?_ (fun hx => ?_) <;> [simp only [x]; clear_value x]) | skip)
      | split | lift_lets | refine Kept.setPnl ?_ (hf.sub rfl) _)

theorem execRestCmdText_kept (m : Fin 4) (s : State) (h : Kept W p s) (hf : Frees W [.regs, .boot, .recd, .evd, .flt, .tly, .pnl, .free]) :
    OutKept W p (execRestCmdText m s) := by
  unfold execRestCmdText
  with_reducible repeat' (first
      | assumption | exact hf.sub rfl | apply State.action_kept | apply State.restTrigger_kept | apply OutKept.next
      | intro x)

theorem execRestCmdBlank_kept (m : Fin 4) (s : State) (h : Kept W p s) (hf : Frees W [.regs, .boot, .recd, .evd, .flt, .tly, .pnl, .free]) :
    OutKept W p (execRestCmdBlank m s) := by
  unfold execRestCmdBlank
  with_reducible repeat' (first
      | assumption | exact hf.sub rfl | apply State.action_kept | apply State.restTrigger_kept | apply OutKept.next
      | intro x)

theorem execTempRange_kept (t : BitVec 16) (s : State) (h : Kept W p s) (hf : Frees W [.regs, .recd, .evd, .flt, .tly, .pnl, .free]) :
    OutKept W p (execTempRange t s) := by
  unfold execTempRange
  with_reducible repeat' (first
      | assumption | exact hf.sub rfl | apply State.cond_kept | apply State.pnlNext_kept | apply State.pnlRestNext_kept
      | apply State.pnlStatus_kept | apply State.put_kept | apply State.raise_kept | apply State.setFault_kept
      | apply OutKept.next
      | (intro x; first | (refine kept_cut (W := W) (p := p) (v := x) ?_ (fun hx => ?_) <;> [simp only [x]; clear_value x]) | skip)
      | split | lift_lets | refine Kept.setPnl ?_ (hf.sub rfl) _)

theorem execEmitterFault_kept (i : Fin 12) (colour : Fin 3) (short : Bool) (s : State) (h : Kept W p s) (hf : Frees W [.regs, .recd, .evd, .flt, .tly, .pnl, .free]) :
    OutKept W p (execEmitterFault i colour short s) := by
  unfold execEmitterFault
  with_reducible repeat' (first
      | assumption | exact hf.sub rfl | apply State.cond_kept | apply State.put_kept | apply State.raise_kept
      | apply State.setFault_kept | apply OutKept.next
      | (intro x; first | (refine kept_cut (W := W) (p := p) (v := x) ?_ (fun hx => ?_) <;> [simp only [x]; clear_value x]) | skip)
      | split | lift_lets | refine Kept.setPnl ?_ (hf.sub rfl) _)

end Sys2Proof.Machine
end

