-- ==== Sys2Proof/Laws/KeptBoard.lean ====
section
/-! SUPPORT. One lemma for each operation and each meaning of the register interface, the cores, the domains, start and the supervisory commands: what it keeps
(`Kept`), and at most which parts it changes. -/

namespace Sys2Proof.Machine
set_option linter.all false
variable {W : Part → Bool} {p : State}

/-! ### View -/



/-! ### RegWrite -/

theorem State.cfgLocked_kept (s : State) (page : Nat) (h : Kept W p s) (hf : Frees W [.regs, .recd, .evd, .flt, .tly, .free]) :
    Kept W p (State.cfgLocked s page) := by
  unfold State.cfgLocked
  with_reducible repeat' (first
      | assumption | exact hf.sub rfl | apply State.raise_kept | apply State.setFault_kept | intro x)

theorem State.writeField_kept (s : State) (page : Nat) (off : Nat) (idx : Nat) (v : Nat) (r : RegRow) (h : Kept W p s) (hf : Frees W [.regs, .shad, .recd, .evd, .flt, .tly, .free]) :
    Kept W p (State.writeField s page off idx v r) := by
  unfold State.writeField
  with_reducible repeat' (first
      | assumption | exact hf.sub rfl | apply State.put_kept | apply State.setShadow_kept | apply State.timeIgnore_kept
      | (intro x; first | (refine kept_cut (W := W) (p := p) (v := x) ?_ (fun hx => ?_) <;> [simp only [x]; clear_value x]) | skip)
      | split | lift_lets)

theorem State.writeEffects_kept (s : State) (k : Kind) (off : Nat) (idx : Nat) (v : Nat) (h : Kept W p s) (hf : Frees W [.regs, .recd, .evd, .flt, .cal, .tly, .ang, .seq, .free]) :
    Kept W p (State.writeEffects s k off idx v) := by
  unfold State.writeEffects
  with_reducible repeat' (first
      | assumption | exact hf.sub rfl | apply State.cellAux_kept | apply State.cellKeep_kept
      | apply State.farUpdate_kept | apply State.routeChanged_kept | apply State.setAngSlot_kept
      | (intro x; first | (refine kept_cut (W := W) (p := p) (v := x) ?_ (fun hx => ?_) <;> [simp only [x]; clear_value x]) | skip)
      | split | lift_lets | (refine Kept.setCal ?_ (hf.sub rfl) _ ?_ <;> first | rfl | skip)
      | (refine Kept.setTlySame ?_ (hf.sub rfl) _ ?_ ?_ <;> first | rfl | skip))

theorem State.settleBuckets_kept (s : State) (k : Kind) (off : Nat) (idx : Nat) (h : Kept W p s) (hf : Frees W [.recd]) :
    Kept W p (State.settleBuckets s k off idx) := by
  unfold State.settleBuckets
  with_reducible repeat' (first
      | assumption | exact hf.sub rfl | apply State.setCodeBucket_kept | apply State.setGlobalBucket_kept | intro x
      | split)

theorem State.plainWrite_kept (s : State) (page : Nat) (off : Nat) (v : Nat) (h : Kept W p s) (hf : Frees W [.regs, .shad, .recd, .evd, .flt, .cal, .tly, .ang, .seq, .free]) :
    Kept W p (State.plainWrite s page off v) := by
  unfold State.plainWrite
  with_reducible repeat' (first
      | assumption | exact hf.sub rfl | apply State.cfgLocked_kept | apply State.settleBuckets_kept
      | apply State.writeEffects_kept | apply State.writeField_kept | apply kept_foldl
      | (intro x; first | (refine kept_cut (W := W) (p := p) (v := x) ?_ (fun hx => ?_) <;> [simp only [x]; clear_value x]) | skip)
      | split | lift_lets)

theorem State.fieldWrite_kept (s : State) (page : Nat) (off : Nat) (m : Nat) (v : Nat) (h : Kept W p s) (hf : Frees W [.regs, .shad, .boot, .recd, .evd, .flt, .cal, .tly, .ang, .seq, .free]) :
    Kept W p (State.fieldWrite s page off m v) := by
  unfold State.fieldWrite
  with_reducible repeat' (first
      | assumption | exact hf.sub rfl | apply State.pageTouch_kept | apply State.plainWrite_kept
      | apply State.refuseOwner_kept
      | (intro x; first | (refine kept_cut (W := W) (p := p) (v := x) ?_ (fun hx => ?_) <;> [simp only [x]; clear_value x]) | skip)
      | split | lift_lets)

theorem State.commitGo_kept (s : State) (page : Nat) (h : Kept W p s) (hf : Frees W [.regs, .buf, .recd, .evd, .flt, .cal, .tly, .lpe, .ang, .free]) :
    Kept W p (State.commitGo s page) := by
  unfold State.commitGo
  with_reducible repeat' (first
      | assumption | exact hf.sub rfl | apply State.lGo_kept | apply State.put_kept | apply State.raise_kept
      | apply State.setAngSlot_kept | apply State.setFault_kept | apply forEach_kept | apply kept_foldl
      | apply kept_foldl_fst
      | (intro x; first | (refine kept_cut (W := W) (p := p) (v := x) ?_ (fun hx => ?_) <;> [simp only [x]; clear_value x]) | skip)
      | split | lift_lets | refine Kept.setBuf ?_ (hf.sub rfl) _
      | (refine Kept.setCal ?_ (hf.sub rfl) _ ?_ <;> first | rfl | skip))

theorem State.commitDiscard_kept (s : State) (page : Nat) (h : Kept W p s) (hf : Frees W [.regs, .shad, .buf, .cal, .lpe, .ang]) :
    Kept W p (State.commitDiscard s page) := by
  unfold State.commitDiscard
  with_reducible repeat' (first
      | assumption | exact hf.sub rfl | apply State.commitDrop_kept | apply State.lDiscard_kept | apply State.put_kept
      | apply State.slotsGone_kept | apply kept_foldl | apply kept_foldl_fst
      | (intro x; first | (refine kept_cut (W := W) (p := p) (v := x) ?_ (fun hx => ?_) <;> [simp only [x]; clear_value x]) | skip)
      | split | lift_lets | (refine Kept.setCal ?_ (hf.sub rfl) _ ?_ <;> first | rfl | skip)
      | refine Kept.setShad ?_ (hf.sub rfl) _)

theorem State.commitReject_kept (s : State) (page : Nat) (p0 : Nat) (h : Kept W p s) (hf : Frees W [.regs, .buf, .recd, .evd, .flt, .tly, .lpe, .ang, .free]) :
    Kept W p (State.commitReject s page p0) := by
  unfold State.commitReject
  with_reducible repeat' (first
      | assumption | exact hf.sub rfl | apply State.commitDrop_kept | apply State.raise_kept
      | apply State.setFault_kept | apply State.slotsGone_kept | apply kept_foldl
      | (intro x; first | (refine kept_cut (W := W) (p := p) (v := x) ?_ (fun hx => ?_) <;> [simp only [x]; clear_value x]) | skip)
      | split | lift_lets | refine Kept.setLpe ?_ (hf.sub rfl) _)

theorem State.commitEffects_kept (s : State) (s1 : State) (page : Nat) (keys : List Nat) (h : Kept W p s) (h1 : Kept W p s1) (hf : Frees W [.regs, .mem, .ecc, .clk, .recd, .evd, .flt, .tly, .sent, .eth, .forceQ, .pnl, .dio, .lpe, .ax, .ang, .dwy, .seq, .free]) :
    Kept W p (State.commitEffects s s1 page keys) := by
  unfold State.commitEffects
  with_reducible repeat' (first
      | assumption | exact hf.sub rfl | apply State.axRatioApplied_kept | apply State.dioInverted_kept
      | apply State.dioRefreshGroup_kept | apply State.domTrack_kept | apply State.domUntrack_kept
      | apply State.dwyTaskChanged_kept | apply State.incMod_kept | apply State.pnlStatus_kept | apply State.put_kept
      | apply State.raise_kept | apply State.setAngSlot_kept | apply State.setSyncState_kept | apply State.setTask_kept
      | apply State.slotApplied_kept | apply State.stnApplied_kept | apply State.syncAbort_kept
      | apply State.traceIdle_kept | apply State.txFlush_kept | apply forEach_kept | apply onlyIf_kept
      | (intro x; first | (refine kept_cut (W := W) (p := p) (v := x) ?_ (fun hx => ?_) <;> [simp only [x]; clear_value x]) | skip)
      | split | lift_lets | refine Kept.setPnl ?_ (hf.sub rfl) _)

theorem State.lpeApply_kept (s : State) (keys : List Nat) (h : Kept W p s) (hf : Frees W [.regs, .buf, .mem, .ecc, .recd, .evd, .flt, .tly, .forceQ, .lastRec, .dio, .ana, .lpe, .ax, .ang, .seq, .free]) :
    Kept W p (State.lpeApply s keys) := by
  unfold State.lpeApply
  with_reducible repeat' (first
      | assumption | exact hf.sub rfl | apply State.commitReject_kept | apply State.lCandidate_kept
      | apply State.lTakeAll_kept | apply State.lTaken_kept | apply State.put_kept | apply State.withBuffer_kept
      | apply kept_foldl
      | (intro x; first | (refine kept_cut (W := W) (p := p) (v := x) ?_ (fun hx => ?_) <;> [simp only [x]; clear_value x]) | skip)
      | split | lift_lets | refine Kept.setLpe ?_ (hf.sub rfl) _)

theorem State.seqApply_kept (s : State) (unit : Option Nat) (h : Kept W p s) (hf : Frees W [.regs, .buf, .mem, .ecc, .clk, .recd, .evd, .flt, .tly, .sent, .eth, .forceQ, .pnl, .dio, .lpe, .ax, .ang, .dwy, .seq, .free]) :
    Kept W p (State.seqApply s unit) := by
  unfold State.seqApply
  with_reducible repeat' (first
      | assumption | exact hf.sub rfl | apply State.commitDone_kept | apply State.commitEffects_kept
      | apply State.commitReject_kept | apply State.withBuffer_kept
      | (intro x; first | (refine kept_cut (W := W) (p := p) (v := x) ?_ (fun hx => ?_) <;> [simp only [x]; clear_value x]) | skip)
      | split | lift_lets)

theorem State.commitApply_kept (s : State) (page : Nat) (unit : Option Nat) (h : Kept W p s) (hf : Frees W (Part.except [.shad, .flash, .boot, .pins, .ts, .bus, .cal, .now, .can, .forceReq, .froze, .asrc, .sync, .pair])) :
    Kept W p (State.commitApply s page unit) := by
  unfold State.commitApply
  with_reducible repeat' (first
      | assumption | exact hf.sub rfl | apply State.commitDone_kept | apply State.commitEffects_kept
      | apply State.commitReject_kept | apply State.lTakeAll_kept | apply State.lpeApply_kept
      | apply State.seqApply_kept | apply State.withBuffer_kept
      | (intro x; first | (refine kept_cut (W := W) (p := p) (v := x) ?_ (fun hx => ?_) <;> [simp only [x]; clear_value x]) | skip)
      | split | lift_lets)

theorem State.ctrlWrite_kept (s : State) (page : Nat) (m : Nat) (v : Nat) (h : Kept W p s) (hf : Frees W [.regs, .mem, .ecc, .recd, .evd, .flt, .tly, .sent, .eth, .forceQ, .lastRec, .dio, .ana, .lpe, .ax, .asrc, .ang, .sync, .seq, .free]) :
    Kept W p (State.ctrlWrite s page m v) := by
  unfold State.ctrlWrite
  with_reducible repeat' (first
      | assumption | exact hf.sub rfl | apply State.holdWrite_kept | apply State.runOff_kept | apply State.runOn_kept
      | (intro x; first | (refine kept_cut (W := W) (p := p) (v := x) ?_ (fun hx => ?_) <;> [simp only [x]; clear_value x]) | skip)
      | split | lift_lets)

theorem State.faultClear_kept (s : State) (page : Nat) (mask : Nat) (h : Kept W p s) (hf : Frees W [.regs, .recd, .evd, .flt, .tly, .seq, .free]) :
    Kept W p (State.faultClear s page mask) := by
  unfold State.faultClear
  with_reducible repeat' (first
      | assumption | exact hf.sub rfl | apply State.clearBit_kept | apply forEach_kept
      | (intro x; first | (refine kept_cut (W := W) (p := p) (v := x) ?_ (fun hx => ?_) <;> [simp only [x]; clear_value x]) | skip)
      | split | lift_lets)

theorem State.faultEnWrite_kept (s : State) (page : Nat) (v : Nat) (h : Kept W p s) (hf : Frees W [.regs, .flt]) :
    Kept W p (State.faultEnWrite s page v) := by
  unfold State.faultEnWrite
  with_reducible repeat' (first
      | assumption | exact hf.sub rfl | apply State.edge_kept | apply State.fltDrop_kept | apply State.setReg_kept
      | apply forEach_kept
      | (intro x; first | (refine kept_cut (W := W) (p := p) (v := x) ?_ (fun hx => ?_) <;> [simp only [x]; clear_value x]) | skip)
      | split | lift_lets)

theorem State.setOwner_kept (s : State) (page : Nat) (v : Nat) (h : Kept W p s) (hf : Frees W [.regs, .recd, .evd, .flt, .tly, .free]) :
    Kept W p (State.setOwner s page v) := by
  unfold State.setOwner
  with_reducible repeat' (first
      | assumption | exact hf.sub rfl | apply State.put_kept | apply State.raise_kept
      | (intro x; first | (refine kept_cut (W := W) (p := p) (v := x) ?_ (fun hx => ?_) <;> [simp only [x]; clear_value x]) | skip)
      | split | lift_lets)

theorem State.ownerWrite_kept (s : State) (m : Nat) (page : Nat) (v : Nat) (h : Kept W p s) (hf : Frees W [.regs, .recd, .evd, .flt, .tly, .free]) :
    Kept W p (State.ownerWrite s m page v) := by
  unfold State.ownerWrite
  with_reducible repeat' (first
      | assumption | exact hf.sub rfl | apply State.refuseOwner_kept | apply State.setOwner_kept
      | (intro x; first | (refine kept_cut (W := W) (p := p) (v := x) ?_ (fun hx => ?_) <;> [simp only [x]; clear_value x]) | skip)
      | split | lift_lets)

theorem execCommitGo_kept (m : Fin 4) (page : BitVec 9) (s : State) (h : Kept W p s) (hf : Frees W [.regs, .buf, .boot, .recd, .evd, .flt, .cal, .tly, .lpe, .ang, .free]) :
    OutKept W p (execCommitGo m page s) := by
  unfold execCommitGo
  with_reducible repeat' (first
      | assumption | exact hf.sub rfl | apply State.action_kept | apply State.commitGo_kept | apply OutKept.next
      | intro x | split)

theorem execDiscard_kept (m : Fin 4) (page : BitVec 9) (s : State) (h : Kept W p s) (hf : Frees W [.regs, .shad, .buf, .boot, .recd, .evd, .flt, .cal, .tly, .lpe, .ang, .free]) :
    OutKept W p (execDiscard m page s) := by
  unfold execDiscard
  with_reducible repeat' (first
      | assumption | exact hf.sub rfl | apply State.action_kept | apply State.commitDiscard_kept | apply OutKept.next
      | intro x | split)

theorem execCommitApply_kept (page : BitVec 9) (unit : Option (Fin 32)) (s : State) (h : Kept W p s) (hf : Frees W (Part.except [.flash, .boot, .pins, .ts, .bus, .can, .forceReq, .froze, .asrc, .sync, .pair])) :
    OutKept W p (execCommitApply page unit s) := by
  unfold execCommitApply
  with_reducible repeat' (first
      | assumption | exact hf.sub rfl | apply State.calApply_kept | apply State.commitApply_kept | apply OutKept.next
      | intro x | split)

theorem execOwnerWrite_kept (m : Fin 4) (page : BitVec 9) (v : Fin 4) (s : State) (h : Kept W p s) (hf : Frees W [.regs, .boot, .recd, .evd, .flt, .tly, .free]) :
    OutKept W p (execOwnerWrite m page v s) := by
  unfold execOwnerWrite
  with_reducible repeat' (first
      | assumption | exact hf.sub rfl | apply State.ownerWrite_kept | apply State.pageTouch_kept | apply OutKept.next
      | intro x | split)

theorem execFaultEnWrite_kept (m : Fin 4) (page : BitVec 9) (v : BitVec 32) (s : State) (h : Kept W p s) (hf : Frees W [.regs, .boot, .recd, .evd, .flt, .tly, .free]) :
    OutKept W p (execFaultEnWrite m page v s) := by
  unfold execFaultEnWrite
  with_reducible repeat' (first
      | assumption | exact hf.sub rfl | apply State.action_kept | apply State.faultEnWrite_kept | apply OutKept.next
      | intro x | split)

theorem execFaultClear_kept (m : Fin 4) (page : BitVec 9) (mask : BitVec 32) (s : State) (h : Kept W p s) (hf : Frees W [.regs, .boot, .recd, .evd, .flt, .tly, .seq, .free]) :
    OutKept W p (execFaultClear m page mask s) := by
  unfold execFaultClear
  with_reducible repeat' (first
      | assumption | exact hf.sub rfl | apply State.faultClear_kept | apply State.pageTouch_kept
      | apply State.refuseOwner_kept | apply OutKept.next | intro x | split)

theorem execRun_kept (m : Fin 4) (page : BitVec 9) (s : State) (h : Kept W p s) (hf : Frees W [.regs, .mem, .ecc, .boot, .recd, .evd, .flt, .tly, .forceQ, .lastRec, .dio, .ana, .lpe, .ax, .asrc, .ang, .seq, .free]) :
    OutKept W p (execRun m page s) := by
  unfold execRun
  with_reducible repeat' (first
      | assumption | exact hf.sub rfl | apply State.action_kept | apply State.runOn_kept | apply OutKept.next | intro x
      | split)

theorem execRunClear_kept (m : Fin 4) (page : BitVec 9) (s : State) (h : Kept W p s) (hf : Frees W [.regs, .mem, .ecc, .boot, .recd, .evd, .flt, .tly, .sent, .eth, .forceQ, .lastRec, .dio, .ana, .lpe, .ax, .ang, .sync, .seq, .free]) :
    OutKept W p (execRunClear m page s) := by
  unfold execRunClear
  with_reducible repeat' (first
      | assumption | exact hf.sub rfl | apply State.action_kept | apply State.runOff_kept | apply OutKept.next
      | intro x | split)

theorem execHold_kept (m : Fin 4) (page : BitVec 9) (s : State) (h : Kept W p s) (hf : Frees W [.regs, .boot, .recd, .evd, .flt, .tly, .seq, .free]) :
    OutKept W p (execHold m page s) := by
  unfold execHold
  with_reducible repeat' (first
      | assumption | exact hf.sub rfl | apply State.action_kept | apply State.holdWrite_kept | apply OutKept.next
      | intro x | split)

theorem execHoldClear_kept (m : Fin 4) (page : BitVec 9) (s : State) (h : Kept W p s) (hf : Frees W [.regs, .boot, .recd, .evd, .flt, .tly, .seq, .free]) :
    OutKept W p (execHoldClear m page s) := by
  unfold execHoldClear
  with_reducible repeat' (first
      | assumption | exact hf.sub rfl | apply State.action_kept | apply State.holdWrite_kept | apply OutKept.next
      | intro x | split)

/-! ### Cores -/

theorem State.lockstepFail_kept (s : State) (a2 : Nat) (point : Nat) (h : Kept W p s) (hf : Frees W [.regs, .mem, .ecc, .recd, .evd, .flt, .tly, .sent, .eth, .can, .forceQ, .dio, .ana, .ax, .asrc, .ang, .dwy, .free]) :
    Kept W p (State.lockstepFail s a2 point) := by
  unfold State.lockstepFail
  with_reducible repeat' (first
      | assumption | exact hf.sub rfl | apply State.fenceUnit_kept | apply State.put_kept | apply State.raise_kept
      | apply State.setFault_kept
      | (intro x; first | (refine kept_cut (W := W) (p := p) (v := x) ?_ (fun hx => ?_) <;> [simp only [x]; clear_value x]) | skip)
      | lift_lets)

theorem State.eventTake_kept (s : State) (a2 : Nat) (h : Kept W p s) (hf : Frees W [.regs, .recd, .evd, .flt, .bus, .free]) :
    Kept W p (State.eventTake s a2) := by
  unfold State.eventTake
  with_reducible repeat' (first
      | assumption | exact hf.sub rfl | apply State.answer_kept | apply State.put_kept | apply State.routeRelease_kept
      | (intro x; first | (refine kept_cut (W := W) (p := p) (v := x) ?_ (fun hx => ?_) <;> [simp only [x]; clear_value x]) | skip)
      | split | lift_lets | refine Kept.setEvd ?_ (hf.sub rfl) _)

theorem execLockstepMismatch_kept (a1 : Fin 4) (point : Fin 4) (s : State) (h : Kept W p s) (hf : Frees W [.regs, .mem, .ecc, .recd, .evd, .flt, .tly, .sent, .eth, .can, .forceQ, .dio, .ana, .ax, .asrc, .ang, .dwy, .free]) :
    OutKept W p (execLockstepMismatch a1 point s) := by
  unfold execLockstepMismatch
  with_reducible repeat' (first
      | assumption | exact hf.sub rfl | apply State.incMod_kept | apply State.lockstepFail_kept | apply OutKept.next
      | intro x | split)

theorem execLockstepSelftest_kept (a1 : Fin 4) (failed : BitVec 4) (s : State) (h : Kept W p s) (hf : Frees W (Part.except [.shad, .buf, .flash, .boot, .pins, .clk, .ts, .bus, .cal, .now, .forceReq, .pnl, .froze, .sync, .pair])) :
    OutKept W p (execLockstepSelftest a1 failed s) := by
  unfold execLockstepSelftest
  with_reducible repeat' (first
      | assumption | exact hf.sub rfl | apply State.lockstepFail_kept | apply State.readmitEnd_kept
      | apply State.readmitUnit_kept | apply State.runOn_kept | apply OutKept.next
      | (intro x; first | (refine kept_cut (W := W) (p := p) (v := x) ?_ (fun hx => ?_) <;> [simp only [x]; clear_value x]) | skip)
      | split | lift_lets)

theorem execCorePairRunOn_kept (m : Fin 4) (a2 : Fin 4) (s : State) (h : Kept W p s) (hf : Frees W [.regs, .mem, .ecc, .boot, .recd, .evd, .flt, .tly, .forceQ, .lastRec, .dio, .ana, .lpe, .ax, .asrc, .ang, .seq, .free]) :
    OutKept W p (execCorePairRunOn m a2 s) := by
  unfold execCorePairRunOn
  with_reducible repeat' (first
      | assumption | exact hf.sub rfl | apply State.action_kept | apply State.runOn_kept | apply OutKept.next | intro x)

theorem execCorePairRunOff_kept (m : Fin 4) (a2 : Fin 4) (s : State) (h : Kept W p s) (hf : Frees W [.regs, .mem, .ecc, .boot, .recd, .evd, .flt, .tly, .sent, .eth, .forceQ, .lastRec, .dio, .ana, .lpe, .ax, .ang, .sync, .seq, .free]) :
    OutKept W p (execCorePairRunOff m a2 s) := by
  unfold execCorePairRunOff
  with_reducible repeat' (first
      | assumption | exact hf.sub rfl | apply State.action_kept | apply State.runOff_kept | apply OutKept.next
      | intro x)

theorem execEventTake_kept (a1 : Fin 4) (s : State) (h : Kept W p s) (hf : Frees W [.regs, .recd, .evd, .flt, .bus, .free]) :
    OutKept W p (execEventTake a1 s) := by
  unfold execEventTake
  with_reducible repeat' (first
      | assumption | exact hf.sub rfl | apply State.eventTake_kept | apply OutKept.next | intro x | split)

/-! ### Dom -/

theorem State.memLost_kept (s : State) (a2 : Nat) (h : Kept W p s) (hf : Frees W [.mem, .ecc]) :
    Kept W p (State.memLost s a2) :=
  (h.setMem (hf.sub rfl) _ (fun i => Memory.wf_foldl _ (fun m b hm => Memory.wf_erase _ _ hm) _ i.mem)).setEcc (hf.sub rfl) _

theorem State.runtimeLost_kept (s : State) (a2 : Nat) (h : Kept W p s) (hf : Frees W [.eth, .can, .forceQ, .forceReq, .dio, .ana, .lpe, .froze, .ax, .asrc, .ang, .sync, .dwy, .seq, .pair]) :
    Kept W p (State.runtimeLost s a2) := by
  unfold State.runtimeLost
  repeat' (first | (with_reducible assumption) | split | dsimp only)
  all_goals
    refine h.mono [.eth, .can, .forceQ, .forceReq, .dio, .ana, .lpe, .froze, .ax, .asrc, .ang, .sync, .dwy, .seq, .pair] hf (fun i => ⟨i.mem, i.flash, i.cal, i.ts, i.recq, i.held, i.ring, i.val, i.recs⟩) rfl
      (fun q hq => ?_)
    cases q <;> first | rfl | exact absurd (by decide) hq

theorem State.regsLost_kept (s : State) (a2 : Nat) (h : Kept W p s) (hf : Frees W [.regs, .shad, .buf, .flt]) :
    Kept W p (State.regsLost s a2) := by
  unfold State.regsLost
  extract_lets block mine f s1 active
  have h1 : Kept W p s1 := (((h.setRegs (hf.sub rfl) (Store.keep (fun k => !block k) s.regs)).setShad (hf.sub rfl)
    (Store.keep (fun k => !block k) s.shad)).setBuf (hf.sub rfl) (Store.keep (fun k => !block k) s.buf)).setFlt (hf.sub rfl)
    { s.flt with
      conds := s.flt.conds.filter (fun k => !mine k)
      ownDegraded := s.flt.ownDegraded.filter (fun p => !(populated p && domainOf p == a2)) }
  generalize s1 = u at h1 ⊢
  with_reducible repeat' (first
      | assumption | exact hf.sub rfl | apply State.put_kept | apply State.setReg_kept | apply forEach_kept
      | apply kept_foldl
      | (intro x; first | (refine kept_cut (W := W) (p := p) (v := x) ?_ (fun hx => ?_) <;> [simp only [x]; clear_value x]) | skip)
      | lift_lets | refine Kept.setBuf ?_ (hf.sub rfl) _ | refine Kept.setFlt ?_ (hf.sub rfl) _
      | refine Kept.setRegs ?_ (hf.sub rfl) _ | refine Kept.setShad ?_ (hf.sub rfl) _)

theorem State.runCleared_kept (s : State) (d : Nat) (h : Kept W p s) (hf : Frees W [.regs]) :
    Kept W p (State.runCleared s d) := by
  unfold State.runCleared
  with_reducible repeat' (first | assumption | exact hf.sub rfl | apply State.put_kept | apply forEach_kept | intro x)

theorem State.domDown_kept (s : State) (d : Nat) (v : Nat) (h : Kept W p s) (hf : Frees W (Part.except [.flash, .boot, .pins, .clk, .ts, .bus, .cal, .now, .sent, .lastRec, .pnl])) :
    Kept W p (State.domDown s d v) := by
  unfold State.domDown
  with_reducible repeat' (first
      | assumption | exact hf.sub rfl | apply State.memLost_kept | apply State.pairFollow_kept
      | apply State.readyRefresh_kept | apply State.regsLost_kept | apply State.runtimeLost_kept
      | apply State.setDom_kept | apply State.setSrcState_kept | apply forEach_kept
      | (intro x; first | (refine kept_cut (W := W) (p := p) (v := x) ?_ (fun hx => ?_) <;> [simp only [x]; clear_value x]) | skip)
      | split | lift_lets)

theorem State.domUp_kept (s : State) (d : Nat) (h : Kept W p s) (hf : Frees W (Part.except [.flash, .boot, .pins, .clk, .ts, .bus, .cal, .now, .sent, .pnl])) :
    Kept W p (State.domUp s d) := by
  unfold State.domUp
  with_reducible repeat' (first
      | assumption | exact hf.sub rfl | apply State.dwyStart_kept | apply State.memLost_kept
      | apply State.refreshState_kept | apply State.regsLost_kept | apply State.runCleared_kept
      | apply State.runOn_kept | apply State.runtimeLost_kept | apply State.setDom_kept | apply forEach_kept
      | (intro x; first | (refine kept_cut (W := W) (p := p) (v := x) ?_ (fun hx => ?_) <;> [simp only [x]; clear_value x]) | skip)
      | split | lift_lets)

theorem State.fenceByDomain_kept (s : State) (u : Nat) (h : Kept W p s) (hf : Frees W [.regs, .mem, .ecc, .recd, .evd, .flt, .tly, .sent, .eth, .can, .forceQ, .dio, .ana, .ax, .asrc, .ang, .dwy, .free]) :
    Kept W p (State.fenceByDomain s u) := by
  unfold State.fenceByDomain
  with_reducible repeat' (first
      | assumption | exact hf.sub rfl | apply State.fenceEffect_kept | apply State.refreshState_kept
      | apply State.xchgDisturb_kept
      | (intro x; first | (refine kept_cut (W := W) (p := p) (v := x) ?_ (fun hx => ?_) <;> [simp only [x]; clear_value x]) | skip)
      | split | lift_lets | refine Kept.setFlt ?_ (hf.sub rfl) _)

theorem State.fenceDomain_kept (s : State) (d : Nat) (h : Kept W p s) (hf : Frees W [.regs, .mem, .ecc, .recd, .evd, .flt, .tly, .sent, .eth, .can, .forceQ, .dio, .ana, .ax, .asrc, .ang, .dwy, .free]) :
    Kept W p (State.fenceDomain s d) := by
  unfold State.fenceDomain
  with_reducible repeat' (first
      | assumption | exact hf.sub rfl | apply State.fenceByDomain_kept | apply forEach_kept | intro x)

theorem State.startFail_kept (s : State) (h : Kept W p s) (hf : Frees W [.regs, .boot, .recd, .evd, .flt, .tly, .pnl, .free]) :
    Kept W p (State.startFail s) := by
  unfold State.startFail
  with_reducible repeat' (first
      | assumption | exact hf.sub rfl | apply State.restTrigger_kept | apply State.setBoot_kept
      | (intro x; first | (refine kept_cut (W := W) (p := p) (v := x) ?_ (fun hx => ?_) <;> [simp only [x]; clear_value x]) | skip)
      | split | lift_lets)

theorem State.inrush_kept (s : State) (d : Nat) (ma : Nat) (h : Kept W p s) (hf : Frees W [.regs, .flt]) :
    Kept W p (State.inrush s d ma) := by
  unfold State.inrush
  with_reducible repeat' (first
      | assumption | exact hf.sub rfl | apply State.put_kept | apply State.setFault_kept
      | (intro x; first | (refine kept_cut (W := W) (p := p) (v := x) ?_ (fun hx => ?_) <;> [simp only [x]; clear_value x]) | skip)
      | split | lift_lets)

theorem State.domFail_kept (s : State) (d : Nat) (reason : Nat) (h : Kept W p s) (hf : Frees W (Part.except [.flash, .boot, .pins, .clk, .ts, .bus, .cal, .now, .sent, .lastRec, .pnl])) :
    Kept W p (State.domFail s d reason) := by
  unfold State.domFail
  with_reducible repeat' (first
      | assumption | exact hf.sub rfl | apply State.domDown_kept | apply State.put_kept | apply State.raise_kept
      | apply State.setFault_kept
      | (intro x; first | (refine kept_cut (W := W) (p := p) (v := x) ?_ (fun hx => ?_) <;> [simp only [x]; clear_value x]) | skip)
      | lift_lets)

theorem State.domOutcome_kept (s : State) (d : Nat) (h : Kept W p s) (hf : Frees W [.regs, .mem, .ecc, .boot, .recd, .evd, .flt, .tly, .sent, .eth, .can, .forceQ, .pnl, .dio, .ana, .ax, .asrc, .ang, .dwy, .free]) :
    Kept W p (State.domOutcome s d) := by
  unfold State.domOutcome
  with_reducible repeat' (first
      | assumption | exact hf.sub rfl | apply State.fenceDomain_kept | apply State.startFail_kept | intro x | split)

theorem State.startLost_kept (s : State) (d : Nat) (reason : Nat) (h : Kept W p s) (hf : Frees W (Part.except [.flash, .pins, .clk, .ts, .bus, .cal, .now, .lastRec])) :
    Kept W p (State.startLost s d reason) := by
  unfold State.startLost
  with_reducible repeat' (first
      | assumption | exact hf.sub rfl | apply State.domFail_kept | apply State.domOutcome_kept
      | apply State.setBoot_kept
      | (intro x; first | (refine kept_cut (W := W) (p := p) (v := x) ?_ (fun hx => ?_) <;> [simp only [x]; clear_value x]) | skip)
      | split | lift_lets)

theorem State.domStart_kept (s : State) (d : Nat) (ma : Nat) (good : Bool) (h : Kept W p s) (hf : Frees W (Part.except [.flash, .pins, .clk, .ts, .bus, .cal, .now])) :
    Kept W p (State.domStart s d ma good) := by
  unfold State.domStart
  with_reducible repeat' (first
      | assumption | exact hf.sub rfl | apply State.domUp_kept | apply State.inrush_kept | apply State.setDom_kept
      | apply State.startLost_kept
      | (intro x; first | (refine kept_cut (W := W) (p := p) (v := x) ?_ (fun hx => ?_) <;> [simp only [x]; clear_value x]) | skip)
      | split | lift_lets)

theorem State.domTimeout_kept (s : State) (h : Kept W p s) (hf : Frees W (Part.except [.flash, .pins, .clk, .ts, .bus, .cal, .now, .lastRec])) :
    Kept W p (State.domTimeout s) := by
  unfold State.domTimeout
  with_reducible repeat' (first
      | assumption | exact hf.sub rfl | apply State.startLost_kept | apply forEach_kept | intro x)

theorem State.setDomOff_kept (s : State) (d : Nat) (v : Bool) (h : Kept W p s) (hf : Frees W [.regs]) :
    Kept W p (State.setDomOff s d v) := by
  unfold State.setDomOff
  with_reducible repeat' (first | assumption | exact hf.sub rfl | apply State.setReg_kept | intro x)

theorem State.domOff_kept (s : State) (d : Nat) (h : Kept W p s) (hf : Frees W (Part.except [.flash, .boot, .pins, .clk, .ts, .bus, .cal, .now, .sent, .lastRec, .pnl])) :
    Kept W p (State.domOff s d) := by
  unfold State.domOff
  with_reducible repeat' (first
      | assumption | exact hf.sub rfl | apply State.domDown_kept | apply State.raise_kept | apply State.setDomOff_kept
      | apply State.setFault_kept | intro x | split)

theorem State.domOn_kept (s : State) (d : Nat) (ma : Nat) (good : Bool) (h : Kept W p s) (hf : Frees W (Part.except [.flash, .pins, .clk, .ts, .bus, .cal, .now])) :
    Kept W p (State.domOn s d ma good) := by
  unfold State.domOn
  with_reducible repeat' (first
      | assumption | exact hf.sub rfl | apply State.domStart_kept | apply State.setDomOff_kept
      | (intro x; first | (refine kept_cut (W := W) (p := p) (v := x) ?_ (fun hx => ?_) <;> [simp only [x]; clear_value x]) | skip)
      | split | lift_lets)

theorem State.domOffWrite_kept (s : State) (v : Nat) (h : Kept W p s) (hf : Frees W (Part.except [.flash, .pins, .clk, .ts, .bus, .cal, .now])) :
    Kept W p (State.domOffWrite s v) := by
  unfold State.domOffWrite
  with_reducible repeat' (first
      | assumption | exact hf.sub rfl | apply State.domOff_kept | apply State.domOn_kept | apply forEach_kept | intro x
      | split)

theorem State.powerLost_kept (s : State) (d : Nat) (h : Kept W p s) (hf : Frees W (Part.except [.flash, .boot, .pins, .clk, .ts, .bus, .cal, .now, .lastRec, .pnl])) :
    Kept W p (State.powerLost s d) := by
  unfold State.powerLost
  with_reducible repeat' (first
      | assumption | exact hf.sub rfl | apply State.domDown_kept | apply State.fenceDomain_kept | apply State.put_kept
      | apply State.raise_kept | apply State.setFault_kept
      | (intro x; first | (refine kept_cut (W := W) (p := p) (v := x) ?_ (fun hx => ?_) <;> [simp only [x]; clear_value x]) | skip)
      | split | lift_lets)

theorem execDomainStart_kept (run : StartRun) (s : State) (h : Kept W p s) (hf : Frees W (Part.except [.flash, .pins, .clk, .ts, .bus, .cal, .now])) :
    OutKept W p (execDomainStart run s) := by
  unfold execDomainStart
  with_reducible repeat' (first
      | assumption | exact hf.sub rfl | apply State.domStart_kept | apply State.domTimeout_kept | apply State.put_kept
      | apply OutKept.next
      | (intro x; first | (refine kept_cut (W := W) (p := p) (v := x) ?_ (fun hx => ?_) <;> [simp only [x]; clear_value x]) | skip)
      | split | lift_lets)

theorem execDomainStartFault_kept (f : StartFault) (s : State) (h : Kept W p s) (hf : Frees W (Part.except [.flash, .pins, .clk, .ts, .bus, .cal, .now, .lastRec])) :
    OutKept W p (execDomainStartFault f s) := by
  unfold execDomainStartFault
  with_reducible repeat' (first
      | assumption | exact hf.sub rfl | apply State.startLost_kept | apply OutKept.next | intro x | split)

theorem State.domRetry_kept (s : State) (d : Nat) (t : Option (Fin 12 × StartRun)) (h : Kept W p s) (hf : Frees W (Part.except [.flash, .boot, .pins, .clk, .ts, .bus, .cal, .now, .sent, .pnl])) :
    Kept W p (State.domRetry s d t) := by
  unfold State.domRetry
  with_reducible repeat' (first
      | assumption | exact hf.sub rfl | apply State.domFail_kept | apply State.domUp_kept | apply State.inrush_kept
      | (intro x; first | (refine kept_cut (W := W) (p := p) (v := x) ?_ (fun hx => ?_) <;> [simp only [x]; clear_value x]) | skip)
      | split | lift_lets)

theorem execDomainRetry_kept (tries : List (Fin 12 × StartRun)) (s : State) (h : Kept W p s) (hf : Frees W (Part.except [.flash, .pins, .clk, .ts, .bus, .cal, .now])) :
    OutKept W p (execDomainRetry tries s) := by
  unfold execDomainRetry
  with_reducible repeat' (first
      | assumption | exact hf.sub rfl | apply State.domOutcome_kept | apply State.domRetry_kept
      | apply State.domTimeout_kept | apply State.put_kept | apply State.setBoot_kept | apply forEach_kept
      | apply OutKept.next
      | (intro x; first | (refine kept_cut (W := W) (p := p) (v := x) ?_ (fun hx => ?_) <;> [simp only [x]; clear_value x]) | skip)
      | split | lift_lets)

theorem execPowerGoodLost_kept (d : Fin 12) (s : State) (h : Kept W p s) (hf : Frees W (Part.except [.flash, .boot, .pins, .clk, .ts, .bus, .cal, .now, .lastRec, .pnl])) :
    OutKept W p (execPowerGoodLost d s) := by
  unfold execPowerGoodLost
  with_reducible repeat' (first
      | assumption | exact hf.sub rfl | apply State.powerLost_kept | apply OutKept.next | intro x | split)

theorem execDomOff_kept (m : Fin 4) (d : Fin 12) (s : State) (h : Kept W p s) (hf : Frees W (Part.except [.flash, .pins, .clk, .ts, .bus, .cal, .now, .sent, .lastRec, .pnl])) :
    OutKept W p (execDomOff m d s) := by
  unfold execDomOff
  with_reducible repeat' (first
      | assumption | exact hf.sub rfl | apply State.action_kept | apply State.domOff_kept | apply OutKept.next
      | intro x | split)

theorem execDomOn_kept (m : Fin 4) (d : Fin 12) (run : StartRun) (s : State) (h : Kept W p s) (hf : Frees W (Part.except [.flash, .pins, .clk, .ts, .bus, .cal, .now])) :
    OutKept W p (execDomOn m d run s) := by
  unfold execDomOn
  with_reducible repeat' (first
      | assumption | exact hf.sub rfl | apply State.action_kept | apply State.domOn_kept | apply OutKept.next | intro x
      | split)

theorem execIslandReady_kept (n : Fin 16) (ma : BitVec 16) (s : State) (h : Kept W p s) (hf : Frees W [.regs, .flt]) :
    OutKept W p (execIslandReady n ma s) := by
  unfold execIslandReady
  with_reducible repeat' (first
      | assumption | exact hf.sub rfl | apply State.inrush_kept | apply State.put_kept | apply OutKept.next | intro x
      | split)

theorem execPowerStageCooled_kept (kind : Fin 3) (n : Fin 64) (s : State) (h : Kept W p s) (hf : Frees W [.regs, .flt, .ana]) :
    OutKept W p (execPowerStageCooled kind n s) := by
  unfold execPowerStageCooled
  with_reducible repeat' (first
      | assumption | exact hf.sub rfl | apply State.anaCooled_kept | apply State.axCooled_kept
      | apply State.dioCooled_kept | apply OutKept.next
      | (intro x; first | (refine kept_cut (W := W) (p := p) (v := x) ?_ (fun hx => ?_) <;> [simp only [x]; clear_value x]) | skip)
      | split | lift_lets)

/-! ### Boot -/

theorem State.pd0Start_kept (s : State) (h : Kept W p s) (hf : Frees W [.regs, .shad, .buf, .boot, .flt, .cal, .now]) :
    Kept W p (State.pd0Start s) := by
  unfold State.pd0Start
  dsimp only
  apply State.setOsf_kept _ _ (hf.sub rfl)
  apply State.setBoot_kept _ _ _ (hf.sub rfl)
  exact ((((h.setRegs (hf.sub rfl) _).setShad (hf.sub rfl) _).setBuf (hf.sub rfl) _).setCalNow (hf.sub rfl) {}
    (show CalTime.valid {} = true by decide)).setFlt (hf.sub rfl) _

theorem State.pd1Off_kept (s : State) (phase : Phase) (cause : Nat) (h : Kept W p s) (hf : Frees W [.regs, .boot, .pnl]) :
    Kept W p (State.pd1Off s phase cause) := by
  unfold State.pd1Off
  with_reducible repeat' (first
      | assumption | exact hf.sub rfl | apply State.pnlOff_kept | apply State.put_kept | apply State.setBoot_kept
      | (intro x; first | (refine kept_cut (W := W) (p := p) (v := x) ?_ (fun hx => ?_) <;> [simp only [x]; clear_value x]) | skip)
      | split | lift_lets)

theorem State.tallyStart_kept (s : State) (a2 : List Nat) (h : Kept W p s) (hf : Frees W [.regs, .recd, .evd, .flt, .tly, .free]) :
    Kept W p (State.tallyStart s a2) := by
  unfold State.tallyStart
  have h1 : Kept W p ({ s with tly := { s.tly with val := (List.range 256).foldl (fun m i =>
    Store.set 0 m i (if a2.contains i then 0 else s.tlyRec i (s.tlyNewer i) / 4294967296)) ([] : Store Nat), recs := a2.foldl (fun m i => Store.set 0 (Store.set 0 m (2 * i) 0) (2 * i + 1) 0) s.tly.recs } } : State) := by
    apply h.setTly (hf.sub rfl)
    · intro iv
      apply store_foldl_lt
      case h => intro i; exact Nat.two_pow_pos _
      intro m i hm
      apply store_set_lt hm
      have : s.tlyRec i (s.tlyNewer i) < 2 ^ 96 := iv.recs _
      split <;> omega
    · exact fun iv => store_foldl_lt _ (fun m i hm => store_set_lt (store_set_lt hm (by decide)) (by decide)) _ _ iv.recs
  dsimp only
  with_reducible repeat' (first
      | assumption | exact hf.sub rfl | apply State.put_kept | apply State.raise_kept | apply State.setFault_kept
      | apply forEach_kept | apply kept_foldl
      | (intro x; first | (refine kept_cut (W := W) (p := p) (v := x) ?_ (fun hx => ?_) <;> [simp only [x]; clear_value x]) | skip)
      | split | lift_lets | (refine Kept.setTlySame ?_ (hf.sub rfl) _ ?_ ?_ <;> first | rfl | skip))

theorem State.slotRead_kept (s : State) (raw : Nat) (h : Kept W p s) (hf : Frees W [.regs, .mem, .ecc, .pins, .recd, .evd, .flt, .tly, .forceQ, .lastRec, .dio, .ana, .lpe, .ax, .asrc, .ang, .seq, .free]) :
    Kept W p (State.slotRead s raw) := by
  unfold State.slotRead
  with_reducible repeat' (first
      | assumption | exact hf.sub rfl | apply State.pairFollow_kept | apply State.put_kept | apply State.runOn_kept
      | (intro x; first | (refine kept_cut (W := W) (p := p) (v := x) ?_ (fun hx => ?_) <;> [simp only [x]; clear_value x]) | skip)
      | split | lift_lets | refine Kept.setPins ?_ (hf.sub rfl) _)

theorem State.calEdges_kept (s : State) (h : Kept W p s) (hf : Frees W [.regs, .flt]) :
    Kept W p (State.calEdges s) := by
  unfold State.calEdges
  with_reducible repeat' (first
      | assumption | exact hf.sub rfl | apply State.edge_kept | apply forEach_kept
      | (intro x; first | (refine kept_cut (W := W) (p := p) (v := x) ?_ (fun hx => ?_) <;> [simp only [x]; clear_value x]) | skip)
      | lift_lets)

theorem State.calAtStart_kept (s : State) (h : Kept W p s) (hf : Frees W [.regs, .recd, .evd, .flt, .cal, .tly, .free]) :
    Kept W p (State.calAtStart s) := by
  unfold State.calAtStart
  with_reducible repeat' (first
      | assumption | exact hf.sub rfl | apply State.raise_kept | apply onlyIf_kept
      | (intro x; first | (refine kept_cut (W := W) (p := p) (v := x) ?_ (fun hx => ?_) <;> [simp only [x]; clear_value x]) | skip)
      | split | lift_lets | (refine Kept.setCal ?_ (hf.sub rfl) _ ?_ <;> first | rfl | skip))

theorem State.pd1Fresh_kept (s : State) (h : Kept W p s) (hf : Frees W (Part.except [.flash, .pins, .cal, .now, .sent, .free])) :
    Kept W p (State.pd1Fresh s) := by
  unfold State.pd1Fresh
  lift_lets
  intro active b s1 s2
  have h1 : Kept W p s1 := h.mono (Part.except [.flash, .pins, .cal, .now, .sent, .free]) hf (fun iv => ⟨(show Memory.wf (mramOnly s.mem) = true from Memory.wf_keep _ iv.mem),
    iv.flash, iv.cal, Nat.zero_le _, Nat.zero_le _, iv.held, iv.ring, fun i => Nat.two_pow_pos _, iv.recs⟩) rfl
    (fun q hq => by cases q <;> first | rfl | exact absurd (by decide) hq)
  clear_value s1
  dsimp only [s2]
  with_reducible repeat' (first
      | assumption | exact hf.sub rfl | apply State.put_kept | apply State.refreshState_kept | apply State.setDom_kept
      | apply State.setReg_kept | apply forEach_kept | apply kept_foldl
      | (intro x; first | (refine kept_cut (W := W) (p := p) (v := x) ?_ (fun hx => ?_) <;> [simp only [x]; clear_value x]) | skip)
      | lift_lets | refine Kept.setAna ?_ (hf.sub rfl) _ | refine Kept.setAng ?_ (hf.sub rfl) _
      | refine Kept.setAsrc ?_ (hf.sub rfl) _ | refine Kept.setAx ?_ (hf.sub rfl) _
      | refine Kept.setBoot ?_ (hf.sub rfl) _ | refine Kept.setBuf ?_ (hf.sub rfl) _
      | refine Kept.setBus ?_ (hf.sub rfl) _ | refine Kept.setCan ?_ (hf.sub rfl) _
      | refine Kept.setClk ?_ (hf.sub rfl) _ | refine Kept.setDio ?_ (hf.sub rfl) _
      | refine Kept.setDwy ?_ (hf.sub rfl) _ | refine Kept.setEcc ?_ (hf.sub rfl) _
      | refine Kept.setEth ?_ (hf.sub rfl) _ | refine Kept.setEvd ?_ (hf.sub rfl) _
      | refine Kept.setFlt ?_ (hf.sub rfl) _ | refine Kept.setForceQ ?_ (hf.sub rfl) _
      | refine Kept.setForceReq ?_ (hf.sub rfl) _ | refine Kept.setFrozeAt ?_ (hf.sub rfl) _
      | refine Kept.setLastRec ?_ (hf.sub rfl) _ | refine Kept.setLpe ?_ (hf.sub rfl) _
      | refine Kept.setPair ?_ (hf.sub rfl) _ | refine Kept.setPnl ?_ (hf.sub rfl) _
      | (refine Kept.setRecdSame ?_ (hf.sub rfl) _ ?_ ?_ ?_ <;> first | rfl | skip)
      | refine Kept.setRegs ?_ (hf.sub rfl) _ | refine Kept.setSeq ?_ (hf.sub rfl) _
      | refine Kept.setShad ?_ (hf.sub rfl) _ | refine Kept.setSync ?_ (hf.sub rfl) _
      | (refine Kept.setTlySame ?_ (hf.sub rfl) _ ?_ ?_ <;> first | rfl | skip))

theorem State.pd1Start_kept (s : State) (a2 : Nat) (a3 : StartReading) (h : Kept W p s)
    (hf : Frees W (Part.except [.flash, .now, .sent])) : Kept W p (State.pd1Start s a2 a3) := by
  unfold State.pd1Start
  extract_lets s0 vin s1 s2 s3 s5 b pn s6 s7 r s8 s9 s10
  have h5 : Kept W p s5 := by
    simp only [s5, s3, s2, s1, s0]
    with_reducible repeat' (first
      | assumption | exact hf.sub rfl | apply State.calAtStart_kept | apply State.calEdges_kept
      | apply State.pd1Fresh_kept | apply State.pnlRecovery_kept | apply State.putB_kept | apply State.put_kept
      | apply State.raise_kept | apply State.recStart_kept | apply State.setReg_kept | apply State.slotRead_kept
      | apply State.tallyStart_kept | apply onlyIf_kept
      | (intro x; first | (refine kept_cut (W := W) (p := p) (v := x) ?_ (fun hx => ?_) <;> [simp only [x]; clear_value x]) | skip)
      | lift_lets | refine Kept.setBoot ?_ (hf.sub rfl) _ | refine Kept.setPins ?_ (hf.sub rfl) _
      | (refine Kept.setRecdSame ?_ (hf.sub rfl) _ ?_ ?_ ?_ <;> first | rfl | skip))
  have h6 : Kept W p s6 := (h5.setBoot (hf.sub rfl) { s5.boot with idWait := a3.identify }).setPins (hf.sub rfl)
    { s5.pins with identify := a3.identify }
  clear_value s6
  have h7 : Kept W p s7 := by
    simp only [s7]
    with_reducible repeat' (first
      | assumption | exact hf.sub rfl | apply State.calAtStart_kept | apply State.calEdges_kept
      | apply State.pd1Fresh_kept | apply State.pnlRecovery_kept | apply State.putB_kept | apply State.put_kept
      | apply State.raise_kept | apply State.recStart_kept | apply State.setReg_kept | apply State.slotRead_kept
      | apply State.tallyStart_kept | apply onlyIf_kept
      | (intro x; first | (refine kept_cut (W := W) (p := p) (v := x) ?_ (fun hx => ?_) <;> [simp only [x]; clear_value x]) | skip)
      | lift_lets | refine Kept.setBoot ?_ (hf.sub rfl) _ | refine Kept.setPins ?_ (hf.sub rfl) _
      | (refine Kept.setRecdSame ?_ (hf.sub rfl) _ ?_ ?_ ?_ <;> first | rfl | skip))
  clear_value s7
  have h8 : Kept W p s8 := h7.setRecdSame (hf.sub rfl) { s7.recd with ready := true } rfl rfl rfl
  clear_value s8
  simp only [s10, s9]
  with_reducible repeat' (first
      | assumption | exact hf.sub rfl | apply State.calAtStart_kept | apply State.calEdges_kept
      | apply State.pd1Fresh_kept | apply State.pnlRecovery_kept | apply State.putB_kept | apply State.put_kept
      | apply State.raise_kept | apply State.recStart_kept | apply State.setReg_kept | apply State.slotRead_kept
      | apply State.tallyStart_kept | apply onlyIf_kept
      | (intro x; first | (refine kept_cut (W := W) (p := p) (v := x) ?_ (fun hx => ?_) <;> [simp only [x]; clear_value x]) | skip)
      | lift_lets | refine Kept.setBoot ?_ (hf.sub rfl) _ | refine Kept.setPins ?_ (hf.sub rfl) _
      | (refine Kept.setRecdSame ?_ (hf.sub rfl) _ ?_ ?_ ?_ <;> first | rfl | skip))

theorem State.seqBegin_kept (s : State) (kind : SeqKind) (cause : Nat) (h : Kept W p s) (hf : Frees W [.regs, .boot, .recd, .evd, .flt, .tly, .pnl, .dio, .ax, .seq, .pair, .free]) :
    Kept W p (State.seqBegin s kind cause) := by
  unfold State.seqBegin
  with_reducible repeat' (first
      | assumption | exact hf.sub rfl | apply State.abandon_kept | apply State.axFence_kept
      | apply State.dioRefreshAll_kept | apply State.lineEvent_kept | apply State.pnlStatus_kept
      | apply State.putB_kept | apply State.put_kept | apply State.setBoot_kept | apply State.setPair_kept
      | apply forEach_kept
      | (intro x; first | (refine kept_cut (W := W) (p := p) (v := x) ?_ (fun hx => ?_) <;> [simp only [x]; clear_value x]) | skip)
      | split | lift_lets | refine Kept.setPnl ?_ (hf.sub rfl) _)

theorem State.seqStep_kept (s : State) (n : Nat) (h : Kept W p s) (hf : Frees W [.boot]) :
    Kept W p (State.seqStep s n) := by
  unfold State.seqStep
  with_reducible repeat' (first
      | assumption | exact hf.sub rfl | apply State.setBoot_kept
      | (intro x; first | (refine kept_cut (W := W) (p := p) (v := x) ?_ (fun hx => ?_) <;> [simp only [x]; clear_value x]) | skip)
      | lift_lets)

theorem State.seqTail_kept (s : State) (h : Kept W p s) (hf : Frees W [.regs, .mem, .ecc, .boot, .recd, .evd, .flt, .tly, .free]) :
    Kept W p (State.seqTail s) := by
  unfold State.seqTail
  with_reducible repeat' (first
      | assumption | exact hf.sub rfl | apply State.recDrain_kept | apply State.recReceiveAll_kept
      | apply State.seqStep_kept | apply State.tlyFlush_kept | intro x)

theorem State.seqRest_kept (s : State) (h : Kept W p s) (hf : Frees W [.regs, .boot, .recd, .evd, .flt, .tly, .pnl, .free]) :
    Kept W p (State.seqRest s) := by
  unfold State.seqRest
  with_reducible repeat' (first
      | assumption | exact hf.sub rfl | apply State.restTrigger_kept | apply State.seqStep_kept | intro x)

theorem State.seqEnd_kept (s : State) (h : Kept W p s) (hf : Frees W [.regs, .boot, .pnl]) :
    Kept W p (State.seqEnd s) := by
  unfold State.seqEnd
  have h1 : Kept W p (s.setBoot { s.boot with seqDone := 7, markerStep := 7, marker := true }) :=
    State.setBoot_kept _ _ h (hf.sub rfl)
  dsimp only
  generalize s.setBoot { s.boot with seqDone := 7, markerStep := 7, marker := true } = s1 at h1 ⊢
  split
  · with_reducible repeat' (first
      | assumption | exact hf.sub rfl | apply State.pd1Off_kept | apply State.put_kept | apply State.setBoot_kept
      | (intro x; first | (refine kept_cut (W := W) (p := p) (v := x) ?_ (fun hx => ?_) <;> [simp only [x]; clear_value x]) | skip)
      | split | lift_lets)
  · split <;> with_reducible repeat' (first
      | assumption | exact hf.sub rfl | apply State.pd1Off_kept | apply State.put_kept | apply State.setBoot_kept
      | (intro x; first | (refine kept_cut (W := W) (p := p) (v := x) ?_ (fun hx => ?_) <;> [simp only [x]; clear_value x]) | skip)
      | split | lift_lets)

theorem State.imageBad_kept (s : State) (slot : Nat) (reason : Nat) (h : Kept W p s) (hf : Frees W [.regs, .recd, .evd, .flt, .tly, .free]) :
    Kept W p (State.imageBad s slot reason) := by
  unfold State.imageBad
  with_reducible repeat' (first
      | assumption | exact hf.sub rfl | apply State.put_kept | apply State.raise_kept | apply State.setFault_kept
      | intro x)

theorem State.setImage_kept (s : State) (slot : Nat) (im : Option StationImage) (h : Kept W p s) (hf : Frees W [.seq]) :
    Kept W p (State.setImage s slot im) := by
  unfold State.setImage
  with_reducible repeat' (first
      | assumption | exact hf.sub rfl
      | (intro x; first | (refine kept_cut (W := W) (p := p) (v := x) ?_ (fun hx => ?_) <;> [simp only [x]; clear_value x]) | skip)
      | lift_lets | refine Kept.setSeq ?_ (hf.sub rfl) _)

theorem State.imageCarrier_kept (s : State) (im : StationImage) (h : Kept W p s) (hf : Frees W [.regs]) :
    Kept W p (State.imageCarrier s im) := by
  unfold State.imageCarrier
  with_reducible repeat' (first
      | assumption | exact hf.sub rfl | apply State.putB_kept | apply State.put_kept | intro x | split)

theorem State.stopRole_kept (s : State) (h : Kept W p s) (hf : Frees W (Part.except [.shad, .buf, .flash, .boot, .pins, .clk, .ts, .bus, .cal, .now, .forceReq, .lastRec, .pnl, .lpe, .froze])) :
    Kept W p (State.stopRole s) := by
  unfold State.stopRole
  with_reducible repeat' (first
      | assumption | exact hf.sub rfl | apply State.becameDuty_kept | apply State.outputsFollow_kept
      | apply State.put_kept | apply State.setPair_kept | apply State.setRole_kept
      | (intro x; first | (refine kept_cut (W := W) (p := p) (v := x) ?_ (fun hx => ?_) <;> [simp only [x]; clear_value x]) | skip)
      | split | lift_lets)

theorem State.stopReached_kept (s : State) (im : StationImage) (bad : List Nat) (h : Kept W p s) (hf : Frees W (Part.except [.flash, .pins, .clk, .ts, .bus, .cal, .now, .froze])) :
    Kept W p (State.stopReached s im bad) := by
  unfold State.stopReached
  with_reducible repeat' (first
      | assumption | exact hf.sub rfl | apply State.canJoin_kept | apply State.ctrlWrite_kept
      | apply State.loadImage_kept | apply State.put_kept | apply State.raise_kept | apply State.refreshState_kept
      | apply State.restTrigger_kept | apply State.runOn_kept | apply State.stopRole_kept | apply forEach_kept
      | apply kept_foldl
      | (intro x; first | (refine kept_cut (W := W) (p := p) (v := x) ?_ (fun hx => ?_) <;> [simp only [x]; clear_value x]) | skip)
      | lift_lets | refine Kept.setBoot ?_ (hf.sub rfl) _)

theorem execSupplyValid_kept (cell : Bool) (ranOut : Bool) (s : State) (h : Kept W p s) (hf : Frees W [.regs, .shad, .buf, .boot, .flt, .cal, .now, .pnl]) :
    OutKept W p (execSupplyValid cell ranOut s) := by
  unfold execSupplyValid
  with_reducible repeat' (first
      | assumption | exact hf.sub rfl | apply State.pd0Start_kept | apply State.pd1Off_kept | apply State.put_kept
      | apply State.setBoot_kept | apply OutKept.next
      | (intro x; first | (refine kept_cut (W := W) (p := p) (v := x) ?_ (fun hx => ?_) <;> [simp only [x]; clear_value x]) | skip)
      | split | lift_lets)

theorem execSupplyInputLost_kept (b : Bool) (mv : BitVec 16) (s : State) (h : Kept W p s) (hf : Frees W [.regs, .recd, .evd, .flt, .tly, .free]) :
    OutKept W p (execSupplyInputLost b mv s) := by
  unfold execSupplyInputLost
  with_reducible repeat' (first
      | assumption | exact hf.sub rfl | apply State.cond_kept | apply State.put_kept | apply State.raise_kept
      | apply State.setFault_kept | apply OutKept.next
      | (intro x; first | (refine kept_cut (W := W) (p := p) (v := x) ?_ (fun hx => ?_) <;> [simp only [x]; clear_value x]) | skip)
      | split | lift_lets)

theorem execSupplyInputRestored_kept (b : Bool) (mv : BitVec 16) (s : State) (h : Kept W p s) (hf : Frees W [.regs, .recd, .evd, .flt, .tly, .free]) :
    OutKept W p (execSupplyInputRestored b mv s) := by
  unfold execSupplyInputRestored
  with_reducible repeat' (first
      | assumption | exact hf.sub rfl | apply State.cond_kept | apply State.put_kept | apply State.raise_kept
      | apply OutKept.next
      | (intro x; first | (refine kept_cut (W := W) (p := p) (v := x) ?_ (fun hx => ?_) <;> [simp only [x]; clear_value x]) | skip)
      | split | lift_lets)

theorem execLowInput_kept (enters : Bool) (s : State) (h : Kept W p s) (hf : Frees W [.regs, .flt]) :
    OutKept W p (execLowInput enters s) := by
  unfold execLowInput
  with_reducible repeat' (first
      | assumption | exact hf.sub rfl | apply State.cond_kept | apply State.putB_kept | apply State.setFault_kept
      | apply OutKept.next
      | (intro x; first | (refine kept_cut (W := W) (p := p) (v := x) ?_ (fun hx => ?_) <;> [simp only [x]; clear_value x]) | skip)
      | split | lift_lets)

theorem execDip_kept (s : State) (h : Kept W p s) (hf : Frees W [.regs, .recd, .evd, .flt, .tly, .free]) :
    OutKept W p (execDip s) := by
  unfold execDip
  with_reducible repeat' (first
      | assumption | exact hf.sub rfl | apply State.incSat_kept | apply State.raise_kept | apply OutKept.next
      | (intro x; first | (refine kept_cut (W := W) (p := p) (v := x) ?_ (fun hx => ?_) <;> [simp only [x]; clear_value x]) | skip)
      | split | lift_lets)

theorem execSupplyLoss_kept (s : State) (h : Kept W p s) (hf : Frees W [.regs, .boot, .recd, .evd, .flt, .tly, .pnl, .dio, .ax, .seq, .pair, .free]) :
    OutKept W p (execSupplyLoss s) := by
  unfold execSupplyLoss
  with_reducible repeat' (first
      | assumption | exact hf.sub rfl | apply State.restTrigger_kept | apply State.seqBegin_kept
      | apply State.setBoot_kept | apply OutKept.next
      | (intro x; first | (refine kept_cut (W := W) (p := p) (v := x) ?_ (fun hx => ?_) <;> [simp only [x]; clear_value x]) | skip)
      | split | lift_lets)

theorem execHoldupDomainsOff_kept (s : State) (h : Kept W p s) (hf : Frees W (Part.except [.flash, .pins, .clk, .ts, .bus, .cal, .now, .sent, .lastRec, .pnl])) :
    OutKept W p (execHoldupDomainsOff s) := by
  unfold execHoldupDomainsOff
  with_reducible repeat' (first
      | assumption | exact hf.sub rfl | apply State.domDown_kept | apply State.seqStep_kept | apply forEach_kept
      | apply OutKept.next | intro x | split)

theorem execHoldupRecorderTail_kept (s : State) (h : Kept W p s) (hf : Frees W [.regs, .mem, .ecc, .boot, .recd, .evd, .flt, .tly, .free]) :
    OutKept W p (execHoldupRecorderTail s) := by
  unfold execHoldupRecorderTail
  with_reducible repeat' (first
      | assumption | exact hf.sub rfl | apply State.raise_kept | apply State.seqTail_kept | apply onlyIf_kept
      | apply OutKept.next | intro x | split)

theorem execHoldupRestImage_kept (s : State) (h : Kept W p s) (hf : Frees W [.regs, .boot, .recd, .evd, .flt, .tly, .pnl, .free]) :
    OutKept W p (execHoldupRestImage s) := by
  unfold execHoldupRestImage
  with_reducible repeat' (first
      | assumption | exact hf.sub rfl | apply State.seqRest_kept | apply OutKept.next | intro x | split)

theorem execHoldupCompletion_kept (s : State) (h : Kept W p s) (hf : Frees W [.regs, .boot, .pnl]) :
    OutKept W p (execHoldupCompletion s) := by
  unfold execHoldupCompletion
  with_reducible repeat' (first
      | assumption | exact hf.sub rfl | apply State.seqEnd_kept | apply OutKept.next | intro x | split)

theorem execRestartAfterHoldup_kept (r : StartReading) (s : State) (h : Kept W p s) (hf : Frees W (Part.except [.flash, .now, .sent])) :
    OutKept W p (execRestartAfterHoldup r s) := by
  unfold execRestartAfterHoldup
  with_reducible repeat' (first
      | assumption | exact hf.sub rfl | apply State.pd1Start_kept | apply OutKept.next | intro x | split)

theorem State.holdupResult_kept (s : State) (t : Nat) (h : Kept W p s) (hf : Frees W [.regs, .recd, .evd, .flt, .tly, .free]) :
    Kept W p (State.holdupResult s t) := by
  unfold State.holdupResult
  with_reducible repeat' (first
      | assumption | exact hf.sub rfl | apply State.cond_kept | apply State.putB_kept | apply State.put_kept
      | apply State.raise_kept | apply State.setFault_kept
      | (intro x; first | (refine kept_cut (W := W) (p := p) (v := x) ?_ (fun hx => ?_) <;> [simp only [x]; clear_value x]) | skip)
      | split | lift_lets)

theorem execHoldupMeasure_kept (t : BitVec 16) (s : State) (h : Kept W p s) (hf : Frees W [.regs, .boot, .recd, .evd, .flt, .tly, .free]) :
    OutKept W p (execHoldupMeasure t s) := by
  unfold execHoldupMeasure
  with_reducible repeat' (first
      | assumption | exact hf.sub rfl | apply State.holdupResult_kept | apply State.put_kept | apply State.setBoot_kept
      | apply OutKept.next
      | (intro x; first | (refine kept_cut (W := W) (p := p) (v := x) ?_ (fun hx => ?_) <;> [simp only [x]; clear_value x]) | skip)
      | split | lift_lets)

theorem execCellMeasure_kept (mv : BitVec 16) (s : State) (h : Kept W p s) (hf : Frees W [.regs, .recd, .evd, .flt, .tly, .free]) :
    OutKept W p (execCellMeasure mv s) := by
  unfold execCellMeasure
  with_reducible repeat' (first
      | assumption | exact hf.sub rfl | apply State.cond_kept | apply State.putB_kept | apply State.put_kept
      | apply State.raise_kept | apply State.setFault_kept | apply OutKept.next
      | (intro x; first | (refine kept_cut (W := W) (p := p) (v := x) ?_ (fun hx => ?_) <;> [simp only [x]; clear_value x]) | skip)
      | split | lift_lets)

theorem execPd1Start_kept (r : StartReading) (s : State) (h : Kept W p s) (hf : Frees W (Part.except [.flash, .now, .sent])) :
    OutKept W p (execPd1Start r s) := by
  unfold execPd1Start
  with_reducible repeat' (first
      | assumption | exact hf.sub rfl | apply State.pd1Start_kept | apply OutKept.next | intro x | split)

theorem execSlotIdPoll_kept (raw : BitVec 6) (s : State) (h : Kept W p s) (hf : Frees W [.regs, .mem, .ecc, .pins, .recd, .evd, .flt, .tly, .forceQ, .lastRec, .dio, .ana, .lpe, .ax, .asrc, .ang, .seq, .free]) :
    OutKept W p (execSlotIdPoll raw s) := by
  unfold execSlotIdPoll
  with_reducible repeat' (first
      | assumption | exact hf.sub rfl | apply State.slotRead_kept | apply OutKept.next | intro x | split)

theorem execSlotIdDeadline_kept (a1 : BitVec 6) (s : State) (h : Kept W p s)
    (hf : Frees W [.regs, .boot, .pins, .recd, .evd, .flt, .tly, .pnl, .free]) : OutKept W p (execSlotIdDeadline a1 s) := by
  unfold execSlotIdDeadline
  apply OutKept.next
  split
  · exact h
  · exact State.startFail_kept _ (State.raise_kept _ _ _ _ _ ((h.setBoot (hf.sub rfl)
      { s.boot with idDeadline := true }).setPins (hf.sub rfl) { s.pins with slotId := a1 }) (hf.sub rfl))
      (hf.sub rfl)

theorem execSlotIdSample_kept (raw : BitVec 6) (s : State) (h : Kept W p s) (hf : Frees W [.regs, .boot, .pins, .recd, .evd, .flt, .tly, .free]) :
    OutKept W p (execSlotIdSample raw s) := by
  unfold execSlotIdSample
  with_reducible repeat' (first
      | assumption | exact hf.sub rfl | apply State.cond_kept | apply State.put_kept | apply State.raise_kept
      | apply State.setBoot_kept | apply State.setFault_kept | apply OutKept.next
      | (intro x; first | (refine kept_cut (W := W) (p := p) (v := x) ?_ (fun hx => ?_) <;> [simp only [x]; clear_value x]) | skip)
      | split | lift_lets | refine Kept.setPins ?_ (hf.sub rfl) _)

theorem execFwSlotVerify_kept (reason : Fin 10) (run : StartRun) (s : State) (h : Kept W p s) (hf : Frees W (Part.except [.flash, .pins, .clk, .ts, .bus, .cal, .now])) :
    OutKept W p (execFwSlotVerify reason run s) := by
  unfold execFwSlotVerify
  with_reducible repeat' (first
      | assumption | exact hf.sub rfl | apply State.domStart_kept | apply State.putB_kept | apply State.put_kept
      | apply State.raise_kept | apply State.setBoot_kept | apply State.setFault_kept | apply onlyIf_kept
      | apply OutKept.next
      | (intro x; first | (refine kept_cut (W := W) (p := p) (v := x) ?_ (fun hx => ?_) <;> [simp only [x]; clear_value x]) | skip)
      | split | lift_lets)

theorem execImageVerify_kept (im : StationImage) (c : ImageCheck) (s : State) (h : Kept W p s) (hf : Frees W [.regs, .boot, .recd, .evd, .flt, .tly, .pnl, .seq, .free]) :
    OutKept W p (execImageVerify im c s) := by
  unfold execImageVerify
  with_reducible repeat' (first
      | assumption | exact hf.sub rfl | apply State.imageBad_kept | apply State.imageCarrier_kept
      | apply State.put_kept | apply State.setBoot_kept | apply State.setImage_kept | apply State.startFail_kept
      | apply OutKept.next
      | (intro x; first | (refine kept_cut (W := W) (p := p) (v := x) ?_ (fun hx => ?_) <;> [simp only [x]; clear_value x]) | skip)
      | split | lift_lets)

theorem execStopReached_kept (bad : List (Fin 4096)) (s : State) (h : Kept W p s) (hf : Frees W (Part.except [.flash, .pins, .clk, .ts, .bus, .cal, .now, .froze])) :
    OutKept W p (execStopReached bad s) := by
  unfold execStopReached
  with_reducible repeat' (first
      | assumption | exact hf.sub rfl | apply State.stopReached_kept | apply OutKept.next
      | (intro x; first | (refine kept_cut (W := W) (p := p) (v := x) ?_ (fun hx => ?_) <;> [simp only [x]; clear_value x]) | skip)
      | split | lift_lets)

theorem execIdentifyPress_kept (s : State) (h : Kept W p s) (hf : Frees W [.regs, .boot, .recd, .evd, .flt, .tly, .free]) :
    OutKept W p (execIdentifyPress s) := by
  unfold execIdentifyPress
  with_reducible repeat' (first
      | assumption | exact hf.sub rfl | apply State.raise_kept | apply State.setBoot_kept | apply OutKept.next
      | (intro x; first | (refine kept_cut (W := W) (p := p) (v := x) ?_ (fun hx => ?_) <;> [simp only [x]; clear_value x]) | skip)
      | split | lift_lets)

theorem execMaintenanceStart_kept (s : State) (h : Kept W p s) (hf : Frees W [.regs, .boot, .recd, .evd, .flt, .tly, .free]) :
    OutKept W p (execMaintenanceStart s) := by
  unfold execMaintenanceStart
  with_reducible repeat' (first
      | assumption | exact hf.sub rfl | apply State.put_kept | apply State.raise_kept | apply State.setBoot_kept
      | apply OutKept.next
      | (intro x; first | (refine kept_cut (W := W) (p := p) (v := x) ?_ (fun hx => ?_) <;> [simp only [x]; clear_value x]) | skip)
      | split | lift_lets)

theorem execIdentifyRelease_kept (s : State) (h : Kept W p s) (hf : Frees W [.boot, .pins]) :
    OutKept W p (execIdentifyRelease s) :=
  (h.setBoot (hf.sub rfl) { s.boot with idWait := false }).setPins (hf.sub rfl) { s.pins with identify := false }

theorem execIdentifyEnd_kept (s : State) (h : Kept W p s) (hf : Frees W [.boot]) :
    OutKept W p (execIdentifyEnd s) := by
  unfold execIdentifyEnd
  with_reducible repeat' (first
      | assumption | exact hf.sub rfl | apply State.setBoot_kept | apply OutKept.next
      | (intro x; first | (refine kept_cut (W := W) (p := p) (v := x) ?_ (fun hx => ?_) <;> [simp only [x]; clear_value x]) | skip)
      | lift_lets)

theorem execSupWatchdogExpiry_kept (s : State) (h : Kept W p s) (hf : Frees W [.regs, .boot, .recd, .evd, .flt, .tly, .pnl, .dio, .ax, .seq, .pair, .free]) :
    OutKept W p (execSupWatchdogExpiry s) := by
  unfold execSupWatchdogExpiry
  with_reducible repeat' (first
      | assumption | exact hf.sub rfl | apply State.seqBegin_kept | apply OutKept.next | intro x | split)

theorem execSupUncorrectableError_kept (s : State) (h : Kept W p s) (hf : Frees W [.regs, .boot, .recd, .evd, .flt, .tly, .pnl, .dio, .ax, .seq, .pair, .free]) :
    OutKept W p (execSupUncorrectableError s) := by
  unfold execSupUncorrectableError
  with_reducible repeat' (first
      | assumption | exact hf.sub rfl | apply State.seqBegin_kept | apply OutKept.next | intro x | split)

theorem execTempWarn_kept (t : BitVec 16) (s : State) (h : Kept W p s) (hf : Frees W [.regs, .boot, .recd, .evd, .flt, .tly, .free]) :
    OutKept W p (execTempWarn t s) := by
  unfold execTempWarn
  with_reducible repeat' (first
      | assumption | exact hf.sub rfl | apply State.cond_kept | apply State.put_kept | apply State.raise_kept
      | apply State.setBoot_kept | apply State.setFault_kept | apply OutKept.next
      | (intro x; first | (refine kept_cut (W := W) (p := p) (v := x) ?_ (fun hx => ?_) <;> [simp only [x]; clear_value x]) | skip)
      | split | lift_lets)

theorem execOverTemperatureShutdown_kept (t : BitVec 16) (s : State) (h : Kept W p s) (hf : Frees W [.regs, .boot, .recd, .evd, .flt, .tly, .pnl, .dio, .ax, .seq, .pair, .free]) :
    OutKept W p (execOverTemperatureShutdown t s) := by
  unfold execOverTemperatureShutdown
  with_reducible repeat' (first
      | assumption | exact hf.sub rfl | apply State.put_kept | apply State.raise_kept | apply State.seqBegin_kept
      | apply State.setBoot_kept | apply OutKept.next
      | (intro x; first | (refine kept_cut (W := W) (p := p) (v := x) ?_ (fun hx => ?_) <;> [simp only [x]; clear_value x]) | skip)
      | split | lift_lets)

theorem execOverTemperatureRestart_kept (r : StartReading) (s : State) (h : Kept W p s) (hf : Frees W (Part.except [.flash, .now, .sent])) :
    OutKept W p (execOverTemperatureRestart r s) := by
  unfold execOverTemperatureRestart
  with_reducible repeat' (first
      | assumption | exact hf.sub rfl | apply State.pd1Off_kept | apply State.pd1Start_kept | apply OutKept.next
      | intro x | split)

theorem execShutdownDomainOff_kept (s : State) (h : Kept W p s) (hf : Frees W (Part.except [.flash, .pins, .clk, .ts, .bus, .cal, .now, .sent, .lastRec, .pnl])) :
    OutKept W p (execShutdownDomainOff s) := by
  unfold execShutdownDomainOff
  with_reducible repeat' (first
      | assumption | exact hf.sub rfl | apply State.domDown_kept | apply State.seqStep_kept | apply State.setBoot_kept
      | apply OutKept.next
      | (intro x; first | (refine kept_cut (W := W) (p := p) (v := x) ?_ (fun hx => ?_) <;> [simp only [x]; clear_value x]) | skip)
      | split | lift_lets)

theorem execShutdownTail_kept (part : Fin 3) (s : State) (h : Kept W p s) (hf : Frees W [.regs, .mem, .ecc, .boot, .recd, .evd, .flt, .tly, .pnl, .free]) :
    OutKept W p (execShutdownTail part s) := by
  unfold execShutdownTail
  with_reducible repeat' (first
      | assumption | exact hf.sub rfl | apply State.seqEnd_kept | apply State.seqRest_kept | apply State.seqTail_kept
      | apply OutKept.next
      | (intro x; first | (refine kept_cut (W := W) (p := p) (v := x) ?_ (fun hx => ?_) <;> [simp only [x]; clear_value x]) | skip)
      | split | lift_lets)

theorem State.clkFault_kept (s : State) (b : Nat) (h : Kept W p s) (hf : Frees W [.regs, .recd, .evd, .flt, .tly, .free]) :
    Kept W p (State.clkFault s b) := by
  unfold State.clkFault
  with_reducible repeat' (first
      | assumption | exact hf.sub rfl | apply State.cond_kept | apply State.raise_kept | apply State.setFault_kept
      | (intro x; first | (refine kept_cut (W := W) (p := p) (v := x) ?_ (fun hx => ?_) <;> [simp only [x]; clear_value x]) | skip)
      | lift_lets)

theorem execClockFault_kept (k : Fin 4) (s : State) (h : Kept W p s) (hf : Frees W [.regs, .recd, .evd, .flt, .tly, .free]) :
    OutKept W p (execClockFault k s) := by
  unfold execClockFault
  with_reducible repeat' (first
      | assumption | exact hf.sub rfl | apply State.clkFault_kept | apply State.put_kept | apply OutKept.next | intro x
      | split)

theorem execClockLockRestored_kept (k : Fin 4) (s : State) (h : Kept W p s) (hf : Frees W [.regs, .flt]) :
    OutKept W p (execClockLockRestored k s) := by
  unfold execClockLockRestored
  with_reducible repeat' (first
      | assumption | exact hf.sub rfl | apply State.cond_kept | apply State.put_kept | apply OutKept.next | intro x
      | split)

theorem execRefDrift_kept (dev : BitVec 16) (s : State) (h : Kept W p s) (hf : Frees W [.regs, .recd, .evd, .flt, .tly, .free]) :
    OutKept W p (execRefDrift dev s) := by
  unfold execRefDrift
  with_reducible repeat' (first
      | assumption | exact hf.sub rfl | apply State.clkFault_kept | apply State.cond_kept | apply State.put_kept
      | apply OutKept.next
      | (intro x; first | (refine kept_cut (W := W) (p := p) (v := x) ?_ (fun hx => ?_) <;> [simp only [x]; clear_value x]) | skip)
      | split | lift_lets)

/-! ### SupCmd -/

theorem State.supAction_kept (s : State) (off : Nat) (m : Nat) (f : State → State) (h : Kept W p s) (hf : Frees W [.regs, .boot, .recd, .evd, .flt, .tly, .free]) (hf4 : ∀ x0, Kept W p x0 → Kept W p (f x0)) :
    Kept W p (State.supAction s off m f) := by
  unfold State.supAction
  with_reducible repeat' (first
      | assumption | exact hf.sub rfl | apply State.action_kept | apply hf4 | intro x | split)

theorem State.supResult_kept (s : State) (r : Nat) (h : Kept W p s) (hf : Frees W [.regs]) :
    Kept W p (State.supResult s r) := by
  unfold State.supResult
  with_reducible repeat' (first | assumption | exact hf.sub rfl | apply State.put_kept | intro x)

theorem State.loadStart_kept (s : State) (code : Nat) (arg : Nat) (blocks : Nat) (h : Kept W p s) (hf : Frees W [.regs, .boot]) :
    Kept W p (State.loadStart s code arg blocks) := by
  unfold State.loadStart
  with_reducible repeat' (first
      | assumption | exact hf.sub rfl | apply State.put_kept | apply State.setBoot_kept | apply State.supResult_kept
      | (intro x; first | (refine kept_cut (W := W) (p := p) (v := x) ?_ (fun hx => ?_) <;> [simp only [x]; clear_value x]) | skip)
      | split | lift_lets)

theorem State.keyBit_kept (s : State) (f : Fld) (i : Nat) (h : Kept W p s) (hf : Frees W [.regs]) :
    Kept W p (State.keyBit s f i) := by
  unfold State.keyBit
  with_reducible repeat' (first | assumption | exact hf.sub rfl | apply State.put_kept | intro x)

theorem State.cmdRestart_kept (s : State) (m : Nat) (h : Kept W p s) (hf : Frees W [.regs, .boot, .recd, .evd, .flt, .tly, .pnl, .dio, .ax, .seq, .pair, .free]) :
    Kept W p (State.cmdRestart s m) := by
  unfold State.cmdRestart
  with_reducible repeat' (first
      | assumption | exact hf.sub rfl | apply State.pd1Off_kept | apply State.raise_kept | apply State.seqBegin_kept
      | apply State.supResult_kept
      | (intro x; first | (refine kept_cut (W := W) (p := p) (v := x) ?_ (fun hx => ?_) <;> [simp only [x]; clear_value x]) | skip)
      | split | lift_lets)

theorem State.cmdShutdown_kept (s : State) (m : Nat) (h : Kept W p s) (hf : Frees W [.regs, .boot, .recd, .evd, .flt, .tly, .pnl, .dio, .ax, .seq, .pair, .free]) :
    Kept W p (State.cmdShutdown s m) := by
  unfold State.cmdShutdown
  with_reducible repeat' (first
      | assumption | exact hf.sub rfl | apply State.raise_kept | apply State.seqBegin_kept | apply State.supResult_kept
      | intro x | split)

theorem State.cmdHoldupTest_kept (s : State) (h : Kept W p s) (hf : Frees W [.regs, .boot]) :
    Kept W p (State.cmdHoldupTest s) := by
  unfold State.cmdHoldupTest
  with_reducible repeat' (first
      | assumption | exact hf.sub rfl | apply State.put_kept | apply State.setBoot_kept
      | (intro x; first | (refine kept_cut (W := W) (p := p) (v := x) ?_ (fun hx => ?_) <;> [simp only [x]; clear_value x]) | skip)
      | lift_lets)

theorem State.cmdIdentify_kept (s : State) (h : Kept W p s) (hf : Frees W [.regs, .boot, .recd, .evd, .flt, .tly, .free]) :
    Kept W p (State.cmdIdentify s) := by
  unfold State.cmdIdentify
  with_reducible repeat' (first
      | assumption | exact hf.sub rfl | apply State.raise_kept | apply State.setBoot_kept | apply State.supResult_kept
      | (intro x; first | (refine kept_cut (W := W) (p := p) (v := x) ?_ (fun hx => ?_) <;> [simp only [x]; clear_value x]) | skip)
      | split | lift_lets)

theorem State.cmdRecorderClear_kept (s : State) (m : Nat) (h : Kept W p s) (hf : Frees W [.regs, .mem, .ecc, .recd, .evd, .flt, .tly, .free]) :
    Kept W p (State.cmdRecorderClear s m) := by
  unfold State.cmdRecorderClear
  with_reducible repeat' (first
      | assumption | exact hf.sub rfl | apply State.recClear_kept | apply State.supResult_kept | intro x | split)

theorem State.cmdKeyEnrol_kept (s : State) (arg : Nat) (h : Kept W p s) (hf : Frees W [.regs, .boot]) :
    Kept W p (State.cmdKeyEnrol s arg) := by
  unfold State.cmdKeyEnrol
  with_reducible repeat' (first
      | assumption | exact hf.sub rfl | apply State.keyBit_kept | apply State.setBoot_kept | apply State.supResult_kept
      | (intro x; first | (refine kept_cut (W := W) (p := p) (v := x) ?_ (fun hx => ?_) <;> [simp only [x]; clear_value x]) | skip)
      | split | lift_lets)

theorem State.cmdKeyRevoke_kept (s : State) (arg : Nat) (h : Kept W p s) (hf : Frees W [.regs]) :
    Kept W p (State.cmdKeyRevoke s arg) := by
  unfold State.cmdKeyRevoke
  with_reducible repeat' (first
      | assumption | exact hf.sub rfl | apply State.keyBit_kept | apply State.supResult_kept | intro x | split)

theorem State.cmdFwPrefer_kept (s : State) (arg : Nat) (h : Kept W p s) (hf : Frees W [.regs, .boot]) :
    Kept W p (State.cmdFwPrefer s arg) := by
  unfold State.cmdFwPrefer
  with_reducible repeat' (first
      | assumption | exact hf.sub rfl | apply State.setBoot_kept | apply State.supResult_kept
      | (intro x; first | (refine kept_cut (W := W) (p := p) (v := x) ?_ (fun hx => ?_) <;> [simp only [x]; clear_value x]) | skip)
      | split | lift_lets)

theorem State.cmdRun_kept (s : State) (m : Nat) (code : Nat) (arg : Nat) (h : Kept W p s) (hf : Frees W [.regs, .mem, .ecc, .boot, .recd, .evd, .flt, .tly, .pnl, .dio, .ax, .seq, .pair, .free]) :
    Kept W p (State.cmdRun s m code arg) := by
  unfold State.cmdRun
  with_reducible repeat' (first
      | assumption | exact hf.sub rfl | apply State.cmdFwPrefer_kept | apply State.cmdHoldupTest_kept
      | apply State.cmdIdentify_kept | apply State.cmdKeyEnrol_kept | apply State.cmdKeyRevoke_kept
      | apply State.cmdRecorderClear_kept | apply State.cmdRestart_kept | apply State.cmdShutdown_kept
      | apply State.loadStart_kept | apply State.supResult_kept | intro x | split)

theorem State.supCmd_kept (s : State) (m : Nat) (code : Nat) (arg : Nat) (h : Kept W p s) (hf : Frees W [.regs, .mem, .ecc, .boot, .recd, .evd, .flt, .tly, .pnl, .dio, .ax, .seq, .pair, .free]) :
    Kept W p (State.supCmd s m code arg) := by
  unfold State.supCmd
  with_reducible repeat' (first
      | assumption | exact hf.sub rfl | apply State.cmdRun_kept | apply State.refuseOwner_kept
      | apply State.setBoot_kept | apply State.supResult_kept | apply State.supTouch_kept
      | (intro x; first | (refine kept_cut (W := W) (p := p) (v := x) ?_ (fun hx => ?_) <;> [simp only [x]; clear_value x]) | skip)
      | split | lift_lets)

theorem State.supUnlock_kept (s : State) (m : Nat) (key : Nat) (h : Kept W p s) (hf : Frees W [.regs, .boot, .recd, .evd, .flt, .tly, .free]) :
    Kept W p (State.supUnlock s m key) := by
  unfold State.supUnlock
  with_reducible repeat' (first
      | assumption | exact hf.sub rfl | apply State.setBoot_kept | apply State.supAction_kept
      | (intro x; first | (refine kept_cut (W := W) (p := p) (v := x) ?_ (fun hx => ?_) <;> [simp only [x]; clear_value x]) | skip)
      | split | lift_lets)

theorem State.flashEnd_kept (s : State) (e : Nat) (h : Kept W p s) (hf : Frees W [.regs, .boot, .flt]) :
    Kept W p (State.flashEnd s e) := by
  unfold State.flashEnd
  with_reducible repeat' (first
      | assumption | exact hf.sub rfl | apply State.put_kept | apply State.setBoot_kept | apply State.setFault_kept
      | (intro x; first | (refine kept_cut (W := W) (p := p) (v := x) ?_ (fun hx => ?_) <;> [simp only [x]; clear_value x]) | skip)
      | split | lift_lets)

theorem State.flashCmd_kept (s : State) (m : Nat) (op : Nat) (h : Kept W p s) (hf : Frees W [.regs, .boot, .recd, .evd, .flt, .tly, .free]) :
    Kept W p (State.flashCmd s m op) := by
  unfold State.flashCmd
  with_reducible repeat' (first
      | assumption | exact hf.sub rfl | apply State.action_kept | apply State.flashEnd_kept | apply State.put_kept
      | apply State.setBoot_kept
      | (intro x; first | (refine kept_cut (W := W) (p := p) (v := x) ?_ (fun hx => ?_) <;> [simp only [x]; clear_value x]) | skip)
      | split | lift_lets)

theorem execRestart_kept (m : Fin 4) (s : State) (h : Kept W p s) (hf : Frees W [.regs, .mem, .ecc, .boot, .recd, .evd, .flt, .tly, .pnl, .dio, .ax, .seq, .pair, .free]) :
    OutKept W p (execRestart m s) := by
  unfold execRestart
  with_reducible repeat' (first
      | assumption | exact hf.sub rfl | apply State.supCmd_kept | apply OutKept.next | intro x)

theorem execShutdown_kept (m : Fin 4) (s : State) (h : Kept W p s) (hf : Frees W [.regs, .mem, .ecc, .boot, .recd, .evd, .flt, .tly, .pnl, .dio, .ax, .seq, .pair, .free]) :
    OutKept W p (execShutdown m s) := by
  unfold execShutdown
  with_reducible repeat' (first
      | assumption | exact hf.sub rfl | apply State.supCmd_kept | apply OutKept.next | intro x)

theorem execHoldupTest_kept (m : Fin 4) (s : State) (h : Kept W p s) (hf : Frees W [.regs, .mem, .ecc, .boot, .recd, .evd, .flt, .tly, .pnl, .dio, .ax, .seq, .pair, .free]) :
    OutKept W p (execHoldupTest m s) := by
  unfold execHoldupTest
  with_reducible repeat' (first
      | assumption | exact hf.sub rfl | apply State.supCmd_kept | apply OutKept.next | intro x)

theorem execIdentify_kept (m : Fin 4) (s : State) (h : Kept W p s) (hf : Frees W [.regs, .mem, .ecc, .boot, .recd, .evd, .flt, .tly, .pnl, .dio, .ax, .seq, .pair, .free]) :
    OutKept W p (execIdentify m s) := by
  unfold execIdentify
  with_reducible repeat' (first
      | assumption | exact hf.sub rfl | apply State.supCmd_kept | apply OutKept.next | intro x)

theorem execRecorderClear_kept (m : Fin 4) (s : State) (h : Kept W p s) (hf : Frees W [.regs, .mem, .ecc, .boot, .recd, .evd, .flt, .tly, .pnl, .dio, .ax, .seq, .pair, .free]) :
    OutKept W p (execRecorderClear m s) := by
  unfold execRecorderClear
  with_reducible repeat' (first
      | assumption | exact hf.sub rfl | apply State.supCmd_kept | apply OutKept.next | intro x)

theorem execKeyEnrol_kept (m : Fin 4) (arg : BitVec 16) (s : State) (h : Kept W p s) (hf : Frees W [.regs, .mem, .ecc, .boot, .recd, .evd, .flt, .tly, .pnl, .dio, .ax, .seq, .pair, .free]) :
    OutKept W p (execKeyEnrol m arg s) := by
  unfold execKeyEnrol
  with_reducible repeat' (first
      | assumption | exact hf.sub rfl | apply State.supCmd_kept | apply OutKept.next | intro x)

theorem execKeyRevoke_kept (m : Fin 4) (arg : BitVec 16) (s : State) (h : Kept W p s) (hf : Frees W [.regs, .mem, .ecc, .boot, .recd, .evd, .flt, .tly, .pnl, .dio, .ax, .seq, .pair, .free]) :
    OutKept W p (execKeyRevoke m arg s) := by
  unfold execKeyRevoke
  with_reducible repeat' (first
      | assumption | exact hf.sub rfl | apply State.supCmd_kept | apply OutKept.next | intro x)

theorem execFwSlotPrefer_kept (m : Fin 4) (arg : BitVec 16) (s : State) (h : Kept W p s) (hf : Frees W [.regs, .mem, .ecc, .boot, .recd, .evd, .flt, .tly, .pnl, .dio, .ax, .seq, .pair, .free]) :
    OutKept W p (execFwSlotPrefer m arg s) := by
  unfold execFwSlotPrefer
  with_reducible repeat' (first
      | assumption | exact hf.sub rfl | apply State.supCmd_kept | apply OutKept.next | intro x)

theorem execFwLoad_kept (m : Fin 4) (arg : BitVec 16) (s : State) (h : Kept W p s) (hf : Frees W [.regs, .mem, .ecc, .boot, .recd, .evd, .flt, .tly, .pnl, .dio, .ax, .seq, .pair, .free]) :
    OutKept W p (execFwLoad m arg s) := by
  unfold execFwLoad
  with_reducible repeat' (first
      | assumption | exact hf.sub rfl | apply State.supCmd_kept | apply OutKept.next | intro x)

theorem execImageLoad_kept (m : Fin 4) (arg : BitVec 16) (s : State) (h : Kept W p s) (hf : Frees W [.regs, .mem, .ecc, .boot, .recd, .evd, .flt, .tly, .pnl, .dio, .ax, .seq, .pair, .free]) :
    OutKept W p (execImageLoad m arg s) := by
  unfold execImageLoad
  with_reducible repeat' (first
      | assumption | exact hf.sub rfl | apply State.supCmd_kept | apply OutKept.next | intro x)

theorem State.loadEnd_kept (s : State) (r : Nat) (h : Kept W p s) (hf : Frees W [.regs, .boot]) :
    Kept W p (State.loadEnd s r) := by
  unfold State.loadEnd
  with_reducible repeat' (first
      | assumption | exact hf.sub rfl | apply State.put_kept | apply State.setBoot_kept | apply State.supResult_kept
      | (intro x; first | (refine kept_cut (W := W) (p := p) (v := x) ?_ (fun hx => ?_) <;> [simp only [x]; clear_value x]) | skip)
      | lift_lets)

theorem State.flashStore_kept (s : State) (a2 : Nat) (h : Kept W p s) (hf : Frees W [.flash]) :
    Kept W p (State.flashStore s a2) := h.setFlash hf _ (fun i => Memory.wf_copy _ _ _ _ i.flash)

theorem execFwLoadComplete_kept (flashError : Bool) (reason : Fin 10) (s : State) (h : Kept W p s) (hf : Frees W [.regs, .flash, .boot, .recd, .evd, .flt, .tly, .free]) :
    OutKept W p (execFwLoadComplete flashError reason s) := by
  unfold execFwLoadComplete
  with_reducible repeat' (first
      | assumption | exact hf.sub rfl | apply State.flashStore_kept | apply State.loadEnd_kept | apply State.raise_kept
      | apply OutKept.next
      | (intro x; first | (refine kept_cut (W := W) (p := p) (v := x) ?_ (fun hx => ?_) <;> [simp only [x]; clear_value x]) | skip)
      | split | lift_lets)

theorem execImageLoadComplete_kept (flashError : Bool) (im : StationImage) (c : ImageCheck) (s : State) (h : Kept W p s) (hf : Frees W [.regs, .flash, .boot, .recd, .evd, .flt, .tly, .seq, .free]) :
    OutKept W p (execImageLoadComplete flashError im c s) := by
  unfold execImageLoadComplete
  with_reducible repeat' (first
      | assumption | exact hf.sub rfl | apply State.flashStore_kept | apply State.imageBad_kept
      | apply State.imageCarrier_kept | apply State.loadEnd_kept | apply State.put_kept | apply State.setBoot_kept
      | apply State.setImage_kept | apply OutKept.next
      | (intro x; first | (refine kept_cut (W := W) (p := p) (v := x) ?_ (fun hx => ?_) <;> [simp only [x]; clear_value x]) | skip)
      | split | lift_lets)

theorem execUnlock_kept (m : Fin 4) (key : BitVec 32) (s : State) (h : Kept W p s) (hf : Frees W [.regs, .boot, .recd, .evd, .flt, .tly, .free]) :
    OutKept W p (execUnlock m key s) := by
  unfold execUnlock
  with_reducible repeat' (first
      | assumption | exact hf.sub rfl | apply State.supUnlock_kept | apply OutKept.next | intro x)

theorem execFlashRead_kept (m : Fin 4) (s : State) (h : Kept W p s) (hf : Frees W [.regs, .boot, .recd, .evd, .flt, .tly, .free]) :
    OutKept W p (execFlashRead m s) := by
  unfold execFlashRead
  with_reducible repeat' (first
      | assumption | exact hf.sub rfl | apply State.flashCmd_kept | apply OutKept.next | intro x)

theorem execFlashWrite_kept (m : Fin 4) (s : State) (h : Kept W p s) (hf : Frees W [.regs, .boot, .recd, .evd, .flt, .tly, .free]) :
    OutKept W p (execFlashWrite m s) := by
  unfold execFlashWrite
  with_reducible repeat' (first
      | assumption | exact hf.sub rfl | apply State.flashCmd_kept | apply OutKept.next | intro x)

theorem execFlashErase_kept (m : Fin 4) (s : State) (h : Kept W p s) (hf : Frees W [.regs, .boot, .recd, .evd, .flt, .tly, .free]) :
    OutKept W p (execFlashErase m s) := by
  unfold execFlashErase
  with_reducible repeat' (first
      | assumption | exact hf.sub rfl | apply State.flashCmd_kept | apply OutKept.next | intro x)

theorem execFlashOperationDone_kept (a1 : BitVec 16) (a2 : Bool) (s : State) (h : Kept W p s)
    (hf : Frees W [.regs, .mem, .flash, .ecc, .boot, .recd, .evd, .flt, .tly, .free]) : OutKept W p (execFlashOperationDone a1 a2 s) := by
  unfold execFlashOperationDone
  apply OutKept.next
  split
  · exact h
  · split
    · with_reducible repeat' (first
      | assumption | exact hf.sub rfl | apply State.dmaError_kept | apply State.eccClear_kept
      | apply State.flashEnd_kept | apply State.incSat_kept | apply OutKept.next
      | (intro x; first | (refine kept_cut (W := W) (p := p) (v := x) ?_ (fun hx => ?_) <;> [simp only [x]; clear_value x]) | skip)
      | split | lift_lets)
    · have h1 := State.incSat_kept s pgSUP SUP.FLASH_STATUS.CORRECTED a1.toNat 0 h (hf.sub rfl)
      dsimp only
      generalize s.incSat pgSUP SUP.FLASH_STATUS.CORRECTED a1.toNat = s1 at h1 ⊢
      split
      · with_reducible repeat' (first
      | assumption | exact hf.sub rfl | apply State.dmaError_kept | apply State.eccClear_kept
      | apply State.flashEnd_kept | apply State.incSat_kept | apply OutKept.next
      | (intro x; first | (refine kept_cut (W := W) (p := p) (v := x) ?_ (fun hx => ?_) <;> [simp only [x]; clear_value x]) | skip)
      | split | lift_lets)
      · apply State.flashEnd_kept _ _ _ (hf.sub rfl)
        split
        · exact State.memCopy_kept _ _ _ _ _ h1 (hf.sub rfl)
        · split
          · exact h1.setFlash (hf.sub rfl) _ (fun i => Memory.wf_copy _ _ _ _ i.flash)
          · exact h1.setFlash (hf.sub rfl) _ (fun i => Memory.wf_erase _ _ i.flash)

end Sys2Proof.Machine
end

