-- ==== Sys2Proof/Laws/KeptPair.lean ====
section
/-! SUPPORT. One lemma for each operation and each meaning of the pairing and the fabric: what it keeps
(`Kept`), and at most which parts it changes. -/

namespace Sys2Proof.Machine
set_option linter.all false
variable {W : Part → Bool} {p : State}

/-! ### Pair -/

theorem State.dvlReceive_kept (s : State) (l : Nat) (type : Nat) (f : List Byte) (h : Kept W p s) (hf : Frees W [.regs, .flt, .pair]) :
    Kept W p (State.dvlReceive s l type f).1 := by
  unfold State.dvlReceive
  with_reducible repeat' (first
      | assumption | exact hf.sub rfl | apply State.incMod_kept | apply State.incSat_kept | apply State.setFault_kept
      | apply State.setPair_kept
      | (intro x; first | (refine kept_cut (W := W) (p := p) (v := x) ?_ (fun hx => ?_) <;> [simp only [x]; clear_value x]) | skip)
      | split | lift_lets)

theorem State.onFrame_kept (s : State) (a2 a3 : Nat) (a4 : List Byte)
    (a5 : List Byte → State → State) (h : Kept W p s) (hf : Frees W [.regs, .flt, .pair])
    (hf5 : ∀ x0 x1, Kept W p x1 → Kept W p (a5 x0 x1)) : Kept W p (State.onFrame s a2 a3 a4 a5) := by
  unfold State.onFrame
  have h1 := State.dvlReceive_kept s a2 a3 a4 h (hf.sub rfl)
  generalize s.dvlReceive a2 a3 a4 = r at h1 ⊢
  split
  · exact hf5 _ _ h1
  · exact h1

theorem State.lineFault_kept (s : State) (p0 : Nat) (h : Kept W p s) (hf : Frees W [.regs, .recd, .evd, .flt, .tly, .free]) :
    Kept W p (State.lineFault s p0) := by
  unfold State.lineFault
  with_reducible repeat' (first
      | assumption | exact hf.sub rfl | apply State.raise_kept | apply State.setFault_kept | intro x | split)

theorem State.partnerLost_kept (s : State) (h : Kept W p s) (hf : Frees W [.regs, .recd, .evd, .flt, .tly, .pair, .free]) :
    Kept W p (State.partnerLost s) := by
  unfold State.partnerLost
  with_reducible repeat' (first
      | assumption | exact hf.sub rfl | apply State.cond_kept | apply State.put_kept | apply State.raise_kept
      | apply State.setFault_kept | apply State.setPairState_kept | apply State.setPair_kept
      | (intro x; first | (refine kept_cut (W := W) (p := p) (v := x) ?_ (fun hx => ?_) <;> [simp only [x]; clear_value x]) | skip)
      | split | lift_lets)

theorem State.claimNow_kept (s : State) (kind : Nat) (cause : Nat) (h : Kept W p s) (hf : Frees W [.regs, .pair]) :
    Kept W p (State.claimNow s kind cause) := by
  unfold State.claimNow
  with_reducible repeat' (first
      | assumption | exact hf.sub rfl | apply State.put_kept | apply State.setPair_kept
      | (intro x; first | (refine kept_cut (W := W) (p := p) (v := x) ?_ (fun hx => ?_) <;> [simp only [x]; clear_value x]) | skip)
      | lift_lets)

theorem State.dutyStopped_kept (s : State) (h : Kept W p s) (hf : Frees W [.regs, .pair]) :
    Kept W p (State.dutyStopped s) := by
  unfold State.dutyStopped
  with_reducible repeat' (first
      | assumption | exact hf.sub rfl | apply State.claimNow_kept | apply State.setPair_kept
      | (intro x; first | (refine kept_cut (W := W) (p := p) (v := x) ?_ (fun hx => ?_) <;> [simp only [x]; clear_value x]) | skip)
      | split | lift_lets)

theorem State.axResume_kept (s : State) (n : Nat) (h : Kept W p s) (hf : Frees W [.regs, .recd, .evd, .flt, .tly, .ax, .free]) :
    Kept W p (State.axResume s n) := by
  unfold State.axResume
  with_reducible repeat' (first
      | assumption | exact hf.sub rfl | apply State.axGo_kept | apply State.axMove_kept | apply State.axSetState_kept
      | apply State.putB_kept | apply State.setAxRt_kept
      | (intro x; first | (refine kept_cut (W := W) (p := p) (v := x) ?_ (fun hx => ?_) <;> [simp only [x]; clear_value x]) | skip)
      | split | lift_lets)

theorem State.claimWon_kept (s : State) (h : Kept W p s) (hf : Frees W (Part.except [.shad, .buf, .flash, .boot, .pins, .clk, .ts, .bus, .cal, .now, .forceReq, .pnl, .froze])) :
    Kept W p (State.claimWon s) := by
  unfold State.claimWon
  with_reducible repeat' (first
      | assumption | exact hf.sub rfl | apply State.axResume_kept | apply State.axesStart_kept
      | apply State.becameDuty_kept | apply State.outputsFollow_kept | apply State.partnerLost_kept
      | apply State.setPair_kept | apply State.setRole_kept | apply State.takeDuty_kept | apply forEach_kept
      | (intro x; first | (refine kept_cut (W := W) (p := p) (v := x) ?_ (fun hx => ?_) <;> [simp only [x]; clear_value x]) | skip)
      | split | lift_lets)

theorem State.handoverAsk_kept (s : State) (cause : Nat) (h : Kept W p s) (hf : Frees W [.regs, .recd, .evd, .flt, .tly, .pair, .free]) :
    Kept W p (State.handoverAsk s cause).1 := by
  unfold State.handoverAsk
  with_reducible repeat' (first
      | assumption | exact hf.sub rfl | apply State.put_kept | apply State.raise_kept | apply State.setPair_kept
      | (intro x; first | (refine kept_cut (W := W) (p := p) (v := x) ?_ (fun hx => ?_) <;> [simp only [x]; clear_value x]) | skip)
      | split | lift_lets)

theorem State.rotPostponed_kept (s : State) (why : Nat) (h : Kept W p s) (hf : Frees W [.regs, .recd, .evd, .flt, .tly, .pair, .free]) :
    Kept W p (State.rotPostponed s why) := by
  unfold State.rotPostponed
  with_reducible repeat' (first
      | assumption | exact hf.sub rfl | apply State.raise_kept | apply State.setPair_kept
      | (intro x; first | (refine kept_cut (W := W) (p := p) (v := x) ?_ (fun hx => ?_) <;> [simp only [x]; clear_value x]) | skip)
      | split | lift_lets)

theorem State.snapSend_kept (s : State) (h : Kept W p s) (hf : Frees W [.regs, .sent, .pair]) :
    Kept W p (State.snapSend s) := by
  unfold State.snapSend
  with_reducible repeat' (first
      | assumption | exact hf.sub rfl | apply State.dvlSend_kept | apply State.setPair_kept | apply forEach_kept
      | (intro x; first | (refine kept_cut (W := W) (p := p) (v := x) ?_ (fun hx => ?_) <;> [simp only [x]; clear_value x]) | skip)
      | lift_lets)

theorem State.slotLoad_kept (s : State) (n : Nat) (b : List Byte) (h : Kept W p s) (hf : Frees W [.mem, .ecc, .forceQ, .lpe]) :
    Kept W p (State.slotLoad s n b) := by
  unfold State.slotLoad
  with_reducible repeat' (first
      | assumption | exact hf.sub rfl | apply State.imgWriteWord_kept | apply State.setLoopRt_kept
      | apply State.setLw_kept | apply forEach_kept
      | (intro x; first | (refine kept_cut (W := W) (p := p) (v := x) ?_ (fun hx => ?_) <;> [simp only [x]; clear_value x]) | skip)
      | split | lift_lets)

theorem State.foldLoad_kept (s : State) (f : Nat) (b : List Byte) (h : Kept W p s) (hf : Frees W [.regs, .mem, .ecc, .forceQ]) :
    Kept W p (State.foldLoad s f b) := by
  unfold State.foldLoad
  with_reducible repeat' (first
      | assumption | exact hf.sub rfl | apply State.imgWriteWord_kept | apply State.setReg_kept | apply kept_foldl
      | (intro x; first | (refine kept_cut (W := W) (p := p) (v := x) ?_ (fun hx => ?_) <;> [simp only [x]; clear_value x]) | skip)
      | split | lift_lets)

theorem State.axLoad_kept (s : State) (n : Nat) (b : List Byte) (h : Kept W p s) (hf : Frees W [.regs, .ax, .pair]) :
    Kept W p (State.axLoad s n b) := by
  unfold State.axLoad
  with_reducible repeat' (first
      | assumption | exact hf.sub rfl | apply State.axPutPair_kept | apply State.put_kept | apply State.setAxRt_kept
      | apply State.setPair_kept
      | (intro x; first | (refine kept_cut (W := W) (p := p) (v := x) ?_ (fun hx => ?_) <;> [simp only [x]; clear_value x]) | skip)
      | split | lift_lets)

theorem State.snapLoad_kept (s : State) (t : Nat) (parts : List (Nat × List Byte)) (h : Kept W p s) (hf : Frees W [.regs, .mem, .ecc, .forceQ, .lpe, .ax, .pair]) :
    Kept W p (State.snapLoad s t parts) := by
  unfold State.snapLoad
  with_reducible repeat' (first
      | assumption | exact hf.sub rfl | apply State.axLoad_kept | apply State.foldLoad_kept | apply State.setPair_kept
      | apply State.slotLoad_kept | apply forEach_kept | apply kept_foldl | apply kept_foldl_fst
      | (intro x; first | (refine kept_cut (W := W) (p := p) (v := x) ?_ (fun hx => ?_) <;> [simp only [x]; clear_value x]) | skip)
      | split | lift_lets)

theorem State.freshness_kept (s : State) (h : Kept W p s) (hf : Frees W [.pair]) :
    Kept W p (State.freshness s) := by
  unfold State.freshness
  with_reducible repeat' (first
      | assumption | exact hf.sub rfl | apply State.setPair_kept
      | (intro x; first | (refine kept_cut (W := W) (p := p) (v := x) ?_ (fun hx => ?_) <;> [simp only [x]; clear_value x]) | skip)
      | lift_lets)

theorem State.readyNow_kept (s : State) (h : Kept W p s) (hf : Frees W [.regs, .recd, .evd, .flt, .tly, .pair, .free]) :
    Kept W p (State.readyNow s) := by
  unfold State.readyNow
  with_reducible repeat' (first
      | assumption | exact hf.sub rfl | apply State.freshness_kept | apply State.readyRefresh_kept | intro x | split)

theorem State.askFull_kept (s : State) (mask : Nat) (h : Kept W p s) (hf : Frees W [.regs, .sent, .pair]) :
    Kept W p (State.askFull s mask) := by
  unfold State.askFull
  with_reducible repeat' (first
      | assumption | exact hf.sub rfl | apply State.dvlSend_kept | apply State.setPair_kept
      | (intro x; first | (refine kept_cut (W := W) (p := p) (v := x) ?_ (fun hx => ?_) <;> [simp only [x]; clear_value x]) | skip)
      | lift_lets)

theorem State.shadowAsk_kept (s : State) (k : Nat) (h : Kept W p s) (hf : Frees W [.pair]) :
    Kept W p (State.shadowAsk s k) := by
  unfold State.shadowAsk
  with_reducible repeat' (first
      | assumption | exact hf.sub rfl | apply State.setPair_kept
      | (intro x; first | (refine kept_cut (W := W) (p := p) (v := x) ?_ (fun hx => ?_) <;> [simp only [x]; clear_value x]) | skip)
      | split | lift_lets)

theorem State.shadowOff_kept (s : State) (h : Kept W p s) (hf : Frees W [.pair]) :
    Kept W p (State.shadowOff s) := by
  unfold State.shadowOff
  with_reducible repeat' (first
      | assumption | exact hf.sub rfl | apply State.setPair_kept
      | (intro x; first | (refine kept_cut (W := W) (p := p) (v := x) ?_ (fun hx => ?_) <;> [simp only [x]; clear_value x]) | skip)
      | lift_lets)

theorem State.shadowNext_kept (s : State) (h : Kept W p s) (hf : Frees W [.pair]) :
    Kept W p (State.shadowNext s) := by
  unfold State.shadowNext
  with_reducible repeat' (first
      | assumption | exact hf.sub rfl | apply State.setPair_kept | apply State.shadowAsk_kept
      | apply State.shadowOff_kept
      | (intro x; first | (refine kept_cut (W := W) (p := p) (v := x) ?_ (fun hx => ?_) <;> [simp only [x]; clear_value x]) | skip)
      | split | lift_lets)

theorem State.shadowSkip_kept (s : State) (h : Kept W p s) (hf : Frees W [.regs, .pair]) :
    Kept W p (State.shadowSkip s) := by
  unfold State.shadowSkip
  with_reducible repeat' (first
      | assumption | exact hf.sub rfl | apply State.incMod_kept | apply State.setPair_kept | apply State.shadowAsk_kept
      | apply State.shadowNext_kept
      | (intro x; first | (refine kept_cut (W := W) (p := p) (v := x) ?_ (fun hx => ?_) <;> [simp only [x]; clear_value x]) | skip)
      | split | lift_lets)

theorem State.shadowSee_kept (s : State) (k : Nat) (cycle : Nat) (digest : Nat) (ok : Bool) (prev : Option Nat) (frozen : List (Nat × List Byte)) (h : Kept W p s) (hf : Frees W [.regs, .pair]) :
    Kept W p (State.shadowSee s k cycle digest ok prev frozen) := by
  unfold State.shadowSee
  with_reducible repeat' (first
      | assumption | exact hf.sub rfl | apply State.setPair_kept | apply State.shadowSkip_kept
      | (intro x; first | (refine kept_cut (W := W) (p := p) (v := x) ?_ (fun hx => ?_) <;> [simp only [x]; clear_value x]) | skip)
      | split | lift_lets)

theorem State.shadowShow_kept (s : State) (result : Nat) (a3 : Nat) (h : Kept W p s) (hf : Frees W [.regs]) :
    Kept W p (State.shadowShow s result a3) := by
  unfold State.shadowShow
  with_reducible repeat' (first | assumption | exact hf.sub rfl | apply State.put_kept | intro x)

theorem State.shadowState_kept (s : State) (a2 : Nat) (h : Kept W p s) (hf : Frees W [.regs, .recd, .evd, .flt, .tly, .sent, .pair, .free]) :
    Kept W p (State.shadowState s a2) := by
  unfold State.shadowState
  with_reducible repeat' (first
      | assumption | exact hf.sub rfl | apply State.askFull_kept | apply State.raise_kept | apply State.readyNow_kept
      | apply State.setFault_kept | apply State.shadowNext_kept | apply State.shadowShow_kept
      | (intro x; first | (refine kept_cut (W := W) (p := p) (v := x) ?_ (fun hx => ?_) <;> [simp only [x]; clear_value x]) | skip)
      | lift_lets)

theorem State.stnLoad_kept (s : State) (a : Nat) (b : List Byte) (h : Kept W p s) (hf : Frees W [.regs, .dwy]) :
    Kept W p (State.stnLoad s a b) := by
  unfold State.stnLoad
  with_reducible repeat' (first
      | assumption | exact hf.sub rfl | apply State.putB_kept | apply State.put_kept | apply State.setStnGen_kept
      | apply State.setStnRt_kept | apply State.stnShow_kept
      | (intro x; first | (refine kept_cut (W := W) (p := p) (v := x) ?_ (fun hx => ?_) <;> [simp only [x]; clear_value x]) | skip)
      | split | lift_lets)

theorem State.cellLoad_kept (s : State) (k : Nat) (c : Nat) (b : List Byte) (h : Kept W p s) (hf : Frees W [.regs, .seq]) :
    Kept W p (State.cellLoad s k c b) := by
  unfold State.cellLoad
  with_reducible repeat' (first
      | assumption | exact hf.sub rfl | apply State.cellKeep_kept | apply State.setCell64_kept
      | apply State.setCellWords_kept
      | (intro x; first | (refine kept_cut (W := W) (p := p) (v := x) ?_ (fun hx => ?_) <;> [simp only [x]; clear_value x]) | skip)
      | split | lift_lets)

theorem State.lineLoad_kept (s : State) (k : Nat) (region : Nat) (line : Nat) (b : List Byte) (h : Kept W p s) (hf : Frees W [.regs, .mem, .ecc, .forceQ, .dwy, .seq]) :
    Kept W p (State.lineLoad s k region line b) := by
  unfold State.lineLoad
  with_reducible repeat' (first
      | assumption | exact hf.sub rfl | apply State.areaWrite_kept | apply State.cellLoad_kept
      | apply State.setDirW_kept | apply State.stnLoad_kept | apply forEach_kept
      | (intro x; first | (refine kept_cut (W := W) (p := p) (v := x) ?_ (fun hx => ?_) <;> [simp only [x]; clear_value x]) | skip)
      | split | lift_lets)

theorem State.copyTake_kept (a1 : List Byte) (s : State) (h : Kept W p s) (hf : Frees W [.pair]) :
    Kept W p (State.copyTake a1 s) := by
  unfold State.copyTake
  with_reducible repeat' (first
      | assumption | exact hf.sub rfl | apply State.setPair_kept
      | (intro x; first | (refine kept_cut (W := W) (p := p) (v := x) ?_ (fun hx => ?_) <;> [simp only [x]; clear_value x]) | skip)
      | split | lift_lets)

theorem State.commitTake_kept (a1 : List Byte) (s : State) (h : Kept W p s) (hf : Frees W [.regs, .mem, .ecc, .recd, .evd, .flt, .tly, .sent, .forceQ, .dwy, .seq, .pair, .free]) :
    Kept W p (State.commitTake a1 s) := by
  unfold State.commitTake
  with_reducible repeat' (first
      | assumption | exact hf.sub rfl | apply State.askFull_kept | apply State.lineLoad_kept | apply State.raise_kept
      | apply State.readyNow_kept | apply State.setFault_kept | apply State.setPair_kept | apply State.shadowSee_kept
      | apply kept_foldl | apply kept_foldl_fst
      | (intro x; first | (refine kept_cut (W := W) (p := p) (v := x) ?_ (fun hx => ?_) <;> [simp only [x]; clear_value x]) | skip)
      | split | lift_lets)

theorem State.loopTake_kept (a1 : List Byte) (s : State) (h : Kept W p s) (hf : Frees W [.regs, .mem, .ecc, .recd, .evd, .flt, .tly, .forceQ, .lpe, .ax, .pair, .free]) :
    Kept W p (State.loopTake a1 s) := by
  unfold State.loopTake
  with_reducible repeat' (first
      | assumption | exact hf.sub rfl | apply State.readyNow_kept | apply State.setPair_kept
      | apply State.snapLoad_kept
      | (intro x; first | (refine kept_cut (W := W) (p := p) (v := x) ?_ (fun hx => ?_) <;> [simp only [x]; clear_value x]) | skip)
      | split | lift_lets)

theorem State.followMode_kept (s : State) (mode : Nat) (mask : Nat) (h : Kept W p s) (hf : Frees W [.regs, .recd, .evd, .flt, .tly, .seq, .free]) :
    Kept W p (State.followMode s mode mask) := by
  unfold State.followMode
  with_reducible repeat' (first
      | assumption | exact hf.sub rfl | apply State.putB_kept | apply State.put_kept | apply State.seqRefresh_kept
      | apply State.seqRunning_kept
      | (intro x; first | (refine kept_cut (W := W) (p := p) (v := x) ?_ (fun hx => ?_) <;> [simp only [x]; clear_value x]) | skip)
      | split | lift_lets)

theorem State.offsets_kept (s : State) (t1 : Nat) (t2 : Nat) (t3 : Nat) (t4 : Nat) (h : Kept W p s) (hf : Frees W [.regs, .flt, .pair]) :
    Kept W p (State.offsets s t1 t2 t3 t4) := by
  unfold State.offsets
  with_reducible repeat' (first
      | assumption | exact hf.sub rfl | apply State.cond_kept | apply State.put_kept | apply State.setPair_kept
      | (intro x; first | (refine kept_cut (W := W) (p := p) (v := x) ?_ (fun hx => ?_) <;> [simp only [x]; clear_value x]) | skip)
      | split | lift_lets)

theorem State.bothDuty_kept (s : State) (h : Kept W p s) (hf : Frees W [.regs, .recd, .evd, .flt, .tly, .sent, .dio, .ax, .seq, .pair, .free]) :
    Kept W p (State.bothDuty s) := by
  unfold State.bothDuty
  with_reducible repeat' (first
      | assumption | exact hf.sub rfl | apply State.abandon_kept | apply State.askFull_kept
      | apply State.dropCopies_kept | apply State.outputsFollow_kept | apply State.put_kept | apply State.raise_kept
      | apply State.setFault_kept | apply State.setPairState_kept | apply State.setRole_kept
      | apply State.xchgDisturb_kept | apply forEach_kept
      | (intro x; first | (refine kept_cut (W := W) (p := p) (v := x) ?_ (fun hx => ?_) <;> [simp only [x]; clear_value x]) | skip)
      | split | lift_lets)

theorem State.partnerReady_kept (s : State) (ready : Bool) (h : Kept W p s) (hf : Frees W [.regs, .recd, .evd, .flt, .tly, .sent, .dio, .ax, .sync, .seq, .pair, .free]) :
    Kept W p (State.partnerReady s ready) := by
  unfold State.partnerReady
  with_reducible repeat' (first
      | assumption | exact hf.sub rfl | apply State.putB_kept | apply State.setPairState_kept
      | apply State.yieldDuty_kept
      | (intro x; first | (refine kept_cut (W := W) (p := p) (v := x) ?_ (fun hx => ?_) <;> [simp only [x]; clear_value x]) | skip)
      | split | lift_lets)

theorem State.joinAsStandby_kept (s : State) (h : Kept W p s) (hf : Frees W [.regs, .recd, .evd, .flt, .tly, .seq, .pair, .free]) :
    Kept W p (State.joinAsStandby s) := by
  unfold State.joinAsStandby
  with_reducible repeat' (first
      | assumption | exact hf.sub rfl | apply State.dropCopies_kept | apply State.setPair_kept
      | apply State.setRole_kept
      | (intro x; first | (refine kept_cut (W := W) (p := p) (v := x) ?_ (fun hx => ?_) <;> [simp only [x]; clear_value x]) | skip)
      | lift_lets | refine Kept.setSeq ?_ (hf.sub rfl) _)

theorem State.beatTake_kept (a1 : Nat) (a2 : List Byte) (s : State) (h : Kept W p s)
    (hf : Frees W [.regs, .recd, .evd, .flt, .tly, .sent, .dio, .ax, .sync, .seq, .pair, .free]) : Kept W p (State.beatTake a1 a2 s) := by
  unfold State.beatTake
  split
  · exact h
  · extract_lets role flags t3 q s1 s2 s3 s4 s5 s6 s7
    have h1 : Kept W p s1 := State.setPair_kept _ _ h (hf.sub rfl)
    clear_value s1
    have h2 : Kept W p s2 := by
      simp only [s2]
      with_reducible repeat' (first
      | assumption | exact hf.sub rfl | apply State.bothDuty_kept | apply State.followMode_kept
      | apply State.joinAsStandby_kept | apply State.lineFault_kept | apply State.offsets_kept
      | apply State.partnerReady_kept | apply State.put_kept | apply State.raise_kept | apply State.readyNow_kept
      | apply State.setPair_kept
      | (intro x; first | (refine kept_cut (W := W) (p := p) (v := x) ?_ (fun hx => ?_) <;> [simp only [x]; clear_value x]) | skip)
      | split | lift_lets)
    clear_value s2
    have h3 : Kept W p s3 := State.offsets_kept _ _ _ _ _ h2 (hf.sub rfl)
    clear_value s3
    have h4 : Kept W p s4 := by
      simp only [s4]
      with_reducible repeat' (first
      | assumption | exact hf.sub rfl | apply State.bothDuty_kept | apply State.followMode_kept
      | apply State.joinAsStandby_kept | apply State.lineFault_kept | apply State.offsets_kept
      | apply State.partnerReady_kept | apply State.put_kept | apply State.raise_kept | apply State.readyNow_kept
      | apply State.setPair_kept
      | (intro x; first | (refine kept_cut (W := W) (p := p) (v := x) ?_ (fun hx => ?_) <;> [simp only [x]; clear_value x]) | skip)
      | split | lift_lets)
    clear_value s4
    have h5 : Kept W p s5 := by
      simp only [s5]
      with_reducible repeat' (first
      | assumption | exact hf.sub rfl | apply State.bothDuty_kept | apply State.followMode_kept
      | apply State.joinAsStandby_kept | apply State.lineFault_kept | apply State.offsets_kept
      | apply State.partnerReady_kept | apply State.put_kept | apply State.raise_kept | apply State.readyNow_kept
      | apply State.setPair_kept
      | (intro x; first | (refine kept_cut (W := W) (p := p) (v := x) ?_ (fun hx => ?_) <;> [simp only [x]; clear_value x]) | skip)
      | split | lift_lets)
    clear_value s5
    have h6 : Kept W p s6 := by
      simp only [s6]
      with_reducible repeat' (first
      | assumption | exact hf.sub rfl | apply State.bothDuty_kept | apply State.followMode_kept
      | apply State.joinAsStandby_kept | apply State.lineFault_kept | apply State.offsets_kept
      | apply State.partnerReady_kept | apply State.put_kept | apply State.raise_kept | apply State.readyNow_kept
      | apply State.setPair_kept
      | (intro x; first | (refine kept_cut (W := W) (p := p) (v := x) ?_ (fun hx => ?_) <;> [simp only [x]; clear_value x]) | skip)
      | split | lift_lets)
    clear_value s6
    have h7 : Kept W p s7 := by
      simp only [s7]
      with_reducible repeat' (first
      | assumption | exact hf.sub rfl | apply State.bothDuty_kept | apply State.followMode_kept
      | apply State.joinAsStandby_kept | apply State.lineFault_kept | apply State.offsets_kept
      | apply State.partnerReady_kept | apply State.put_kept | apply State.raise_kept | apply State.readyNow_kept
      | apply State.setPair_kept
      | (intro x; first | (refine kept_cut (W := W) (p := p) (v := x) ?_ (fun hx => ?_) <;> [simp only [x]; clear_value x]) | skip)
      | split | lift_lets)
    clear_value s7
    with_reducible repeat' (first
      | assumption | exact hf.sub rfl | apply State.bothDuty_kept | apply State.followMode_kept
      | apply State.joinAsStandby_kept | apply State.lineFault_kept | apply State.offsets_kept
      | apply State.partnerReady_kept | apply State.put_kept | apply State.raise_kept | apply State.readyNow_kept
      | apply State.setPair_kept
      | (intro x; first | (refine kept_cut (W := W) (p := p) (v := x) ?_ (fun hx => ?_) <;> [simp only [x]; clear_value x]) | skip)
      | split | lift_lets)

theorem State.pairSend_kept (s : State) (h : Kept W p s) (hf : Frees W [.regs, .sent, .pair]) :
    Kept W p (State.pairSend s) := by
  unfold State.pairSend
  with_reducible repeat' (first | assumption | exact hf.sub rfl | apply State.dvlSend_kept | intro x)

theorem State.pairNow_kept (s : State) (h : Kept W p s) (hf : Frees W [.regs, .recd, .evd, .flt, .tly, .sent, .seq, .pair, .free]) :
    Kept W p (State.pairNow s) := by
  unfold State.pairNow
  with_reducible repeat' (first
      | assumption | exact hf.sub rfl | apply State.cond_kept | apply State.dropCopies_kept
      | apply State.joinAsStandby_kept | apply State.put_kept | apply State.sendFullAll_kept
      | apply State.setPairState_kept | apply State.setPair_kept
      | (intro x; first | (refine kept_cut (W := W) (p := p) (v := x) ?_ (fun hx => ?_) <;> [simp only [x]; clear_value x]) | skip)
      | split | lift_lets)

theorem State.pairTake_kept (carrier : Nat) (a2 : List Byte) (s : State) (h : Kept W p s) (hf : Frees W [.regs, .recd, .evd, .flt, .tly, .sent, .seq, .pair, .free]) :
    Kept W p (State.pairTake carrier a2 s) := by
  unfold State.pairTake
  with_reducible repeat' (first
      | assumption | exact hf.sub rfl | apply State.pairNow_kept | apply State.pairSend_kept | apply State.putB_kept
      | apply State.put_kept | apply State.raise_kept | apply State.setFault_kept | apply State.setPairState_kept
      | apply State.setPair_kept
      | (intro x; first | (refine kept_cut (W := W) (p := p) (v := x) ?_ (fun hx => ?_) <;> [simp only [x]; clear_value x]) | skip)
      | split | lift_lets)

theorem execClaimWait_kept (s : State) (h : Kept W p s) (hf : Frees W [.regs, .pair]) :
    OutKept W p (execClaimWait s) := by
  unfold execClaimWait
  with_reducible repeat' (first
      | assumption | exact hf.sub rfl | apply State.claimNow_kept | apply State.setPair_kept | apply OutKept.next
      | (intro x; first | (refine kept_cut (W := W) (p := p) (v := x) ?_ (fun hx => ?_) <;> [simp only [x]; clear_value x]) | skip)
      | split | lift_lets)

theorem execClaimCheck_kept (s : State) (h : Kept W p s) (hf : Frees W (Part.except [.shad, .buf, .flash, .boot, .pins, .clk, .ts, .bus, .cal, .now, .forceReq, .pnl, .froze])) :
    OutKept W p (execClaimCheck s) := by
  unfold execClaimCheck
  with_reducible repeat' (first
      | assumption | exact hf.sub rfl | apply State.claimWon_kept | apply State.put_kept | apply State.raise_kept
      | apply State.setPair_kept | apply State.setRole_kept | apply OutKept.next
      | (intro x; first | (refine kept_cut (W := W) (p := p) (v := x) ?_ (fun hx => ?_) <;> [simp only [x]; clear_value x]) | skip)
      | split | lift_lets)

theorem execHeartbeatSend_kept (s : State) (h : Kept W p s) (hf : Frees W [.regs, .sent, .pair]) :
    OutKept W p (execHeartbeatSend s) := by
  unfold execHeartbeatSend
  with_reducible repeat' (first
      | assumption | exact hf.sub rfl | apply State.dvlSend_kept | apply State.setPair_kept
      | apply State.shadowNext_kept | apply State.shadowOff_kept | apply kept_foldl | apply OutKept.next
      | (intro x; first | (refine kept_cut (W := W) (p := p) (v := x) ?_ (fun hx => ?_) <;> [simp only [x]; clear_value x]) | skip)
      | split | lift_lets)

theorem execHeartbeat_kept (l : Fin 2) (f : List Byte) (mask : BitVec 32) (s : State) (h : Kept W p s) (hf : Frees W [.regs, .recd, .evd, .flt, .tly, .sent, .dio, .ax, .sync, .seq, .pair, .free]) :
    OutKept W p (execHeartbeat l f mask s) := by
  unfold execHeartbeat
  with_reducible repeat' (first
      | assumption | exact hf.sub rfl | apply State.beatTake_kept | apply State.onFrame_kept | apply OutKept.next
      | intro x)

theorem execHeartbeatLoss_kept (s : State) (h : Kept W p s) (hf : Frees W [.regs, .recd, .evd, .flt, .tly, .pair, .free]) :
    OutKept W p (execHeartbeatLoss s) := by
  unfold execHeartbeatLoss
  with_reducible repeat' (first
      | assumption | exact hf.sub rfl | apply State.dutyStopped_kept | apply State.partnerLost_kept
      | apply State.put_kept | apply State.raise_kept | apply State.readyNow_kept | apply State.setPair_kept
      | apply OutKept.next
      | (intro x; first | (refine kept_cut (W := W) (p := p) (v := x) ?_ (fun hx => ?_) <;> [simp only [x]; clear_value x]) | skip)
      | split | lift_lets)

theorem execLaneChange_kept (l : Fin 2) (up : Bool) (s : State) (h : Kept W p s) (hf : Frees W [.regs, .recd, .evd, .flt, .tly, .pair, .free]) :
    OutKept W p (execLaneChange l up s) := by
  unfold execLaneChange
  with_reducible repeat' (first
      | assumption | exact hf.sub rfl | apply State.cond_kept | apply State.putB_kept | apply State.raise_kept
      | apply State.readyNow_kept | apply State.setFault_kept | apply State.setPair_kept | apply OutKept.next
      | (intro x; first | (refine kept_cut (W := W) (p := p) (v := x) ?_ (fun hx => ?_) <;> [simp only [x]; clear_value x]) | skip)
      | split | lift_lets)

theorem execPairingSend_kept (s : State) (h : Kept W p s) (hf : Frees W [.regs, .sent, .pair]) :
    OutKept W p (execPairingSend s) := by
  unfold execPairingSend
  with_reducible repeat' (first
      | assumption | exact hf.sub rfl | apply State.pairSend_kept | apply State.setPair_kept | apply OutKept.next
      | (intro x; first | (refine kept_cut (W := W) (p := p) (v := x) ?_ (fun hx => ?_) <;> [simp only [x]; clear_value x]) | skip)
      | split | lift_lets)

theorem execPairing_kept (l : Fin 2) (f : List Byte) (carrier : Fin 8) (s : State) (h : Kept W p s) (hf : Frees W [.regs, .recd, .evd, .flt, .tly, .sent, .seq, .pair, .free]) :
    OutKept W p (execPairing l f carrier s) := by
  unfold execPairing
  with_reducible repeat' (first
      | assumption | exact hf.sub rfl | apply State.onFrame_kept | apply State.pairTake_kept | apply OutKept.next
      | intro x)

theorem execCommit_kept (l : Fin 2) (f : List Byte) (s : State) (h : Kept W p s) (hf : Frees W [.regs, .mem, .ecc, .recd, .evd, .flt, .tly, .sent, .forceQ, .dwy, .seq, .pair, .free]) :
    OutKept W p (execCommit l f s) := by
  unfold execCommit
  with_reducible repeat' (first
      | assumption | exact hf.sub rfl | apply State.commitTake_kept | apply State.onFrame_kept | apply OutKept.next
      | intro x)

theorem execCopyFrame_kept (l : Fin 2) (f : List Byte) (s : State) (h : Kept W p s) (hf : Frees W [.regs, .flt, .pair]) :
    OutKept W p (execCopyFrame l f s) := by
  unfold execCopyFrame
  with_reducible repeat' (first
      | assumption | exact hf.sub rfl | apply State.copyTake_kept | apply State.onFrame_kept | apply OutKept.next
      | intro x)

theorem execLoopSnapshot_kept (s : State) (h : Kept W p s) (hf : Frees W [.regs, .sent, .pair]) :
    OutKept W p (execLoopSnapshot s) := by
  unfold execLoopSnapshot
  with_reducible repeat' (first
      | assumption | exact hf.sub rfl | apply State.setPair_kept | apply State.snapSend_kept | apply OutKept.next
      | (intro x; first | (refine kept_cut (W := W) (p := p) (v := x) ?_ (fun hx => ?_) <;> [simp only [x]; clear_value x]) | skip)
      | split | lift_lets)

theorem execLoop_kept (l : Fin 2) (f : List Byte) (s : State) (h : Kept W p s) (hf : Frees W [.regs, .mem, .ecc, .recd, .evd, .flt, .tly, .forceQ, .lpe, .ax, .pair, .free]) :
    OutKept W p (execLoop l f s) := by
  unfold execLoop
  with_reducible repeat' (first
      | assumption | exact hf.sub rfl | apply State.loopTake_kept | apply State.onFrame_kept | apply OutKept.next
      | intro x)

theorem execHandover_kept (l : Fin 2) (f : List Byte) (s : State) (h : Kept W p s) (hf : Frees W [.regs, .flt, .pair]) :
    OutKept W p (execHandover l f s) := by
  unfold execHandover
  with_reducible repeat' (first
      | assumption | exact hf.sub rfl | apply State.onFrame_kept | apply State.setPair_kept | apply OutKept.next
      | (intro x; first | (refine kept_cut (W := W) (p := p) (v := x) ?_ (fun hx => ?_) <;> [simp only [x]; clear_value x]) | skip)
      | split | lift_lets)

theorem execPartnerDutyReleased_kept (asserted : Bool) (s : State) (h : Kept W p s) (hf : Frees W [.regs, .pair]) :
    OutKept W p (execPartnerDutyReleased asserted s) := by
  unfold execPartnerDutyReleased
  with_reducible repeat' (first
      | assumption | exact hf.sub rfl | apply State.dutyStopped_kept | apply State.putB_kept | apply State.put_kept
      | apply State.setPair_kept | apply OutKept.next
      | (intro x; first | (refine kept_cut (W := W) (p := p) (v := x) ?_ (fun hx => ?_) <;> [simp only [x]; clear_value x]) | skip)
      | split | lift_lets)

theorem execTakeIn_kept (asserted : Bool) (s : State) (h : Kept W p s) (hf : Frees W [.regs, .pair]) :
    OutKept W p (execTakeIn asserted s) := by
  unfold execTakeIn
  with_reducible repeat' (first
      | assumption | exact hf.sub rfl | apply State.claimNow_kept | apply State.putB_kept | apply State.setPair_kept
      | apply OutKept.next
      | (intro x; first | (refine kept_cut (W := W) (p := p) (v := x) ?_ (fun hx => ?_) <;> [simp only [x]; clear_value x]) | skip)
      | split | lift_lets)

theorem execSwitch_kept (m : Fin 4) (s : State) (h : Kept W p s) (hf : Frees W [.regs, .boot, .recd, .evd, .flt, .tly, .pair, .free]) :
    OutKept W p (execSwitch m s) := by
  unfold execSwitch
  with_reducible repeat' (first
      | assumption | exact hf.sub rfl | apply State.actionRes_kept | apply State.handoverAsk_kept
      | apply State.put_kept | apply OutKept.next
      | (intro x; first | (refine kept_cut (W := W) (p := p) (v := x) ?_ (fun hx => ?_) <;> [simp only [x]; clear_value x]) | skip)
      | split | lift_lets)

theorem execHandInstant_kept (s : State) (h : Kept W p s) (hf : Frees W [.regs, .recd, .evd, .flt, .tly, .sent, .dio, .ax, .sync, .seq, .pair, .free]) :
    OutKept W p (execHandInstant s) := by
  unfold execHandInstant
  with_reducible repeat' (first
      | assumption | exact hf.sub rfl | apply State.giveDuty_kept | apply State.put_kept | apply State.raise_kept
      | apply State.sendHandover_kept | apply State.snapSend_kept | apply OutKept.next
      | (intro x; first | (refine kept_cut (W := W) (p := p) (v := x) ?_ (fun hx => ?_) <;> [simp only [x]; clear_value x]) | skip)
      | split | lift_lets)

theorem execHandoverNoWindow_kept (s : State) (h : Kept W p s) (hf : Frees W [.regs, .recd, .evd, .flt, .tly, .pair, .free]) :
    OutKept W p (execHandoverNoWindow s) := by
  unfold execHandoverNoWindow
  with_reducible repeat' (first
      | assumption | exact hf.sub rfl | apply State.put_kept | apply State.raise_kept | apply State.rotPostponed_kept
      | apply State.setPair_kept | apply OutKept.next
      | (intro x; first | (refine kept_cut (W := W) (p := p) (v := x) ?_ (fun hx => ?_) <;> [simp only [x]; clear_value x]) | skip)
      | split | lift_lets)

theorem execYieldOutRelease_kept (s : State) (h : Kept W p s) (hf : Frees W [.regs]) :
    OutKept W p (execYieldOutRelease s) := by
  unfold execYieldOutRelease
  with_reducible repeat' (first
      | assumption | exact hf.sub rfl | apply State.put_kept | apply OutKept.next | intro x | split)

theorem execResync_kept (m : Fin 4) (s : State) (h : Kept W p s) (hf : Frees W [.regs, .boot, .recd, .evd, .flt, .tly, .sent, .pair, .free]) :
    OutKept W p (execResync m s) := by
  unfold execResync
  with_reducible repeat' (first
      | assumption | exact hf.sub rfl | apply State.actionRes_kept | apply State.askFull_kept | apply State.put_kept
      | apply State.readyNow_kept | apply OutKept.next | intro x | split)

theorem execPairSyncTmo_kept (s : State) (h : Kept W p s) (hf : Frees W [.regs, .recd, .evd, .flt, .tly, .sent, .pair, .free]) :
    OutKept W p (execPairSyncTmo s) := by
  unfold execPairSyncTmo
  with_reducible repeat' (first
      | assumption | exact hf.sub rfl | apply State.askFull_kept | apply State.raise_kept | apply State.setFault_kept
      | apply State.setPair_kept | apply OutKept.next
      | (intro x; first | (refine kept_cut (W := W) (p := p) (v := x) ?_ (fun hx => ?_) <;> [simp only [x]; clear_value x]) | skip)
      | split | lift_lets)

theorem execShadowCheck_kept (a1 : Fin 4) (d : BitVec 64) (s : State) (h : Kept W p s) (hf : Frees W [.regs, .recd, .evd, .flt, .tly, .sent, .pair, .free]) :
    OutKept W p (execShadowCheck a1 d s) := by
  unfold execShadowCheck
  with_reducible repeat' (first
      | assumption | exact hf.sub rfl | apply State.event_kept | apply State.incMod_kept | apply State.raise_kept
      | apply State.setFault_kept | apply State.setPair_kept | apply State.shadowNext_kept
      | apply State.shadowShow_kept | apply State.shadowState_kept | apply OutKept.next
      | (intro x; first | (refine kept_cut (W := W) (p := p) (v := x) ?_ (fun hx => ?_) <;> [simp only [x]; clear_value x]) | skip)
      | split | lift_lets)

theorem execRotation_kept (s : State) (h : Kept W p s) (hf : Frees W [.regs, .recd, .evd, .flt, .tly, .pair, .free]) :
    OutKept W p (execRotation s) := by
  unfold execRotation
  with_reducible repeat' (first
      | assumption | exact hf.sub rfl | apply State.handoverAsk_kept | apply State.rotPostponed_kept
      | apply State.setPair_kept | apply OutKept.next
      | (intro x; first | (refine kept_cut (W := W) (p := p) (v := x) ?_ (fun hx => ?_) <;> [simp only [x]; clear_value x]) | skip)
      | split | lift_lets)

theorem execSelftest_kept (dio : List (Fin 64)) (aout : List (Fin 16)) (ain : List (Fin 16)) (cores : List (Fin 4 × Fin 4)) (s : State) (h : Kept W p s) (hf : Frees W [.regs, .mem, .ecc, .recd, .evd, .flt, .tly, .sent, .eth, .can, .forceQ, .dio, .ana, .ax, .asrc, .ang, .dwy, .pair, .free]) :
    OutKept W p (execSelftest dio aout ain cores s) := by
  unfold execSelftest
  with_reducible repeat' (first
      | assumption | exact hf.sub rfl | apply State.lockstepFail_kept | apply State.put_kept | apply State.raise_kept
      | apply State.setFault_kept | apply State.setPair_kept | apply kept_foldl | apply kept_foldl_fst
      | apply OutKept.next
      | (intro x; first | (refine kept_cut (W := W) (p := p) (v := x) ?_ (fun hx => ?_) <;> [simp only [x]; clear_value x]) | skip)
      | split | lift_lets)

theorem execReadyLost_kept (s : State) (h : Kept W p s) (hf : Frees W [.regs, .recd, .evd, .flt, .tly, .pair, .free]) :
    OutKept W p (execReadyLost s) := by
  unfold execReadyLost
  with_reducible repeat' (first
      | assumption | exact hf.sub rfl | apply State.cond_kept | apply State.raise_kept | apply State.readyNow_kept
      | apply State.setFault_kept | apply OutKept.next
      | (intro x; first | (refine kept_cut (W := W) (p := p) (v := x) ?_ (fun hx => ?_) <;> [simp only [x]; clear_value x]) | skip)
      | split | lift_lets)

theorem execPartnerLineTimeout_kept (take : Bool) (s : State) (h : Kept W p s) (hf : Frees W [.regs, .recd, .evd, .flt, .tly, .free]) :
    OutKept W p (execPartnerLineTimeout take s) := by
  unfold execPartnerLineTimeout
  with_reducible repeat' (first
      | assumption | exact hf.sub rfl | apply State.lineFault_kept | apply State.setFault_kept | apply OutKept.next
      | (intro x; first | (refine kept_cut (W := W) (p := p) (v := x) ?_ (fun hx => ?_) <;> [simp only [x]; clear_value x]) | skip)
      | split | lift_lets)

/-! ### Fabric -/

theorem State.after_kept (s : State) (o : Out) (h : Kept W p s) (ho : OutKept W p o) :
    Kept W p (s.after o) := by
  cases o <;> first | exact ho | exact h

theorem State.readClear_kept (s : State) (k : Kind) (i : Nat) (page : Nat) (off : Nat) (h : Kept W p s) (hf : Frees W [.regs]) :
    Kept W p (State.readClear s k i page off) := by
  unfold State.readClear
  with_reducible repeat' (first | assumption | exact hf.sub rfl | apply State.put_kept | apply kept_foldl | intro x)

theorem State.readEffect_kept (s : State) (m : Nat) (k : Kind) (i : Nat) (page : Nat) (off : Nat) (h : Kept W p s) (hf : Frees W [.regs, .ts, .recd, .evd, .flt, .bus, .tly, .dio, .free]) :
    Kept W p (State.readEffect s m k i page off) := by
  unfold State.readEffect
  with_reducible repeat' (first
      | assumption | exact hf.sub rfl | apply State.after_kept | apply State.readClear_kept | apply State.useFree_kept
      | apply execAngleRead_kept | apply execDateRead_kept | apply execEdgeW1Read_kept | apply execStnNsRead_kept
      | apply execTsW3Read_kept | apply execValueLoRead_kept | apply execWinW0Read_kept | apply execWinW7Read_kept
      | (intro x; first | (refine kept_cut (W := W) (p := p) (v := x) ?_ (fun hx => ?_) <;> [simp only [x]; clear_value x]) | skip)
      | split | lift_lets)

theorem State.regRead_kept (s : State) (m : Nat) (own : Option Nat) (page : Nat) (off : Nat) (h : Kept W p s) (hf : Frees W [.regs, .ts, .recd, .evd, .flt, .bus, .tly, .dio, .free]) :
    Kept W p (State.regRead s m own page off).1 := by
  unfold State.regRead
  with_reducible repeat' (first
      | assumption | exact hf.sub rfl | apply State.eventTake_kept | apply State.readEffect_kept
      | (intro x; first | (refine kept_cut (W := W) (p := p) (v := x) ?_ (fun hx => ?_) <;> [simp only [x]; clear_value x]) | skip)
      | split | lift_lets)

theorem all_cons {α : Type} {P : α → Prop} {a : α} {l : List α} (h1 : P a) (h2 : ∀ c ∈ l, P c) : ∀ c ∈ a :: l, P c :=
  List.forall_mem_cons.mpr ⟨h1, h2⟩
theorem all_nil {α : Type} {P : α → Prop} : ∀ c ∈ ([] : List α), P c := fun _ h => by simp at h
theorem State.codeWrite_kept (s : State) (a2 a3 : Nat) (a4 : Fin 4) (a5 : Nat)
    (a6 : List (Nat × (State → Out))) (h : Kept W p s) (hf : Frees W [.regs, .boot, .recd, .evd, .flt, .tly, .free]) (ha : ∀ c ∈ a6, OutKept W p (c.2 s)) :
    Kept W p (s.codeWrite a2 a3 a4 a5 a6) := by
  unfold State.codeWrite
  split
  · rename_i c hc
    exact State.after_kept _ _ h (ha c (List.mem_of_find?_eq_some hc))
  · exact State.action_kept _ _ _ _ _ h (hf.sub rfl) (fun u hu => hu)

theorem State.seqPageWrite_kept (s : State) (s1 : State) (m : Fin 4) (page : Nat) (off : Nat) (v : Nat) (h : Kept W p s) (h1 : Kept W p s1) (hf : Frees W [.regs, .boot, .recd, .evd, .flt, .tly, .sent, .seq, .pair, .free]) :
    Kept W p (State.seqPageWrite s s1 m page off v) := by
  unfold State.seqPageWrite
  with_reducible repeat' (first
      | assumption | exact hf.sub rfl | (refine all_cons ?_ ?_ <;> (try dsimp only)) | apply State.after_kept
      | apply State.clearBit_kept | apply State.codeWrite_kept | apply State.refuseOwner_kept | apply execApply_kept
      | apply execCancel_kept | apply execHoldMask_kept | apply execPrepare_kept | apply execStep_kept
      | apply forEach_kept | exact all_nil | intro x | split)

theorem State.placePageWrite_kept (s : State) (s1 : State) (m : Fin 4) (page : Nat) (off : Nat) (v : Nat) (h : Kept W p s) (h1 : Kept W p s1) (hf : Frees W [.regs, .mem, .ecc, .boot, .recd, .evd, .flt, .tly, .sent, .eth, .forceReq, .lastRec, .dio, .ana, .ax, .ang, .sync, .seq, .free]) :
    Kept W p (State.placePageWrite s s1 m page off v) := by
  unfold State.placePageWrite
  with_reducible repeat' (first
      | assumption | exact hf.sub rfl | (refine all_cons ?_ ?_ <;> (try dsimp only)) | apply State.codeWrite_kept
      | apply execAbandonMoves_kept | apply execForceRelease_kept | apply execForce_kept | apply execReplace_kept
      | exact all_nil | intro x | split)

theorem State.lptPageWrite_kept (s : State) (s1 : State) (m : Fin 4) (page : Nat) (off : Nat) (v : Nat) (h : Kept W p s) (h1 : Kept W p s1) (hf : Frees W [.regs, .boot, .recd, .evd, .flt, .tly, .lpe, .free]) :
    Kept W p (State.lptPageWrite s s1 m page off v) := by
  unfold State.lptPageWrite
  with_reducible repeat' (first
      | assumption | exact hf.sub rfl | (refine all_cons ?_ ?_ <;> (try dsimp only)) | apply State.after_kept
      | apply State.codeWrite_kept | apply execArmAll_kept | apply execTraceArm_kept | apply execTraceForce_kept
      | apply execTraceStop_kept | exact all_nil
      | (intro x; first | (refine kept_cut (W := W) (p := p) (v := x) ?_ (fun hx => ?_) <;> [simp only [x]; clear_value x]) | skip)
      | split | lift_lets)

theorem State.timePageWrite_kept (s : State) (s1 : State) (m : Fin 4) (page : Nat) (off : Nat) (v : Nat) (h : Kept W p s) (h1 : Kept W p s1) (hf : Frees W [.regs, .mem, .ecc, .boot, .clk, .recd, .evd, .flt, .tly, .eth, .asrc, .ang, .free]) :
    Kept W p (State.timePageWrite s s1 m page off v) := by
  unfold State.timePageWrite
  with_reducible repeat' (first
      | assumption | exact hf.sub rfl | apply State.action_kept | apply State.after_kept | apply State.domIncWrite_kept
      | apply execDomOfs_kept | apply execFirstStn_kept | apply execFirstStp_kept | apply execStepBoth_kept
      | apply execStepStn_kept | apply execStepStp_kept | apply execStnAdj_kept | apply execStnDom_kept
      | apply execStnInc_kept | apply execStpSwitch_kept | simp only [id_eq]
      | (intro x; first | (refine kept_cut (W := W) (p := p) (v := x) ?_ (fun hx => ?_) <;> [simp only [x]; clear_value x]) | skip)
      | split | lift_lets)

theorem State.stnPageWrite_kept (s : State) (s1 : State) (m : Fin 4) (i : Nat) (page : Nat) (off : Nat) (v : Nat) (h : Kept W p s) (h1 : Kept W p s1) (hf : Frees W [.regs, .mem, .ecc, .boot, .recd, .evd, .flt, .tly, .sent, .eth, .forceQ, .dwy, .free]) :
    Kept W p (State.stnPageWrite s s1 m i page off v) := by
  unfold State.stnPageWrite
  with_reducible repeat' (first
      | assumption | exact hf.sub rfl | (refine all_cons ?_ ?_ <;> (try dsimp only)) | apply State.codeWrite_kept
      | apply execStnLeave_kept | apply execStnReadmit_kept | exact all_nil
      | (intro x; first | (refine kept_cut (W := W) (p := p) (v := x) ?_ (fun hx => ?_) <;> [simp only [x]; clear_value x]) | skip)
      | split | lift_lets)

theorem State.ethPageWrite_kept (s : State) (s1 : State) (m : Fin 4) (i : Nat) (off : Nat) (v : Nat) (h : Kept W p s) (h1 : Kept W p s1) (hf : Frees W [.regs, .boot, .recd, .evd, .flt, .tly, .eth, .free]) :
    Kept W p (State.ethPageWrite s s1 m i off v) := by
  unfold State.ethPageWrite
  with_reducible repeat' (first
      | assumption | exact hf.sub rfl | apply State.after_kept | apply execRxqTail_kept | apply execTxqTail_kept
      | intro x | split)

theorem State.canPageWrite_kept (s : State) (s1 : State) (m : Fin 4) (i : Nat) (page : Nat) (off : Nat) (v : Nat) (h : Kept W p s) (h1 : Kept W p s1) (hf : Frees W [.regs, .mem, .ecc, .boot, .recd, .evd, .flt, .tly, .can, .free]) :
    Kept W p (State.canPageWrite s s1 m i page off v) := by
  unfold State.canPageWrite
  with_reducible repeat' (first
      | assumption | exact hf.sub rfl | (refine all_cons ?_ ?_ <;> (try dsimp only)) | apply State.after_kept
      | apply State.codeWrite_kept | apply execRecover_kept | apply execRxAck_kept | apply execStartAbr_kept
      | apply execTxAbort_kept | apply execTxDone_kept | apply execTxSubmit_kept | exact all_nil
      | (intro x; first | (refine kept_cut (W := W) (p := p) (v := x) ?_ (fun hx => ?_) <;> [simp only [x]; clear_value x]) | skip)
      | split | lift_lets)

theorem State.anaPageWrite_kept (s : State) (s1 : State) (m : Fin 4) (i : Nat) (page : Nat) (off : Nat) (v : Nat) (h : Kept W p s) (h1 : Kept W p s1) (hf : Frees W [.regs, .boot, .recd, .evd, .flt, .tly, .sent, .ana, .free]) :
    Kept W p (State.anaPageWrite s s1 m i page off v) := by
  unfold State.anaPageWrite
  with_reducible repeat' (first
      | assumption | exact hf.sub rfl | (refine all_cons ?_ ?_ <;> (try dsimp only)) | apply State.codeWrite_kept
      | apply execAnaRestart_kept | apply execHartAbort_kept | apply execHartSend_kept | apply execHartTake_kept
      | exact all_nil
      | (intro x; first | (refine kept_cut (W := W) (p := p) (v := x) ?_ (fun hx => ?_) <;> [simp only [x]; clear_value x]) | skip)
      | split | lift_lets)

theorem State.pairPageWrite_kept (s : State) (s1 : State) (m : Fin 4) (page : Nat) (off : Nat) (v : Nat) (h : Kept W p s) (h1 : Kept W p s1) (hf : Frees W [.regs, .boot, .recd, .evd, .flt, .tly, .sent, .pair, .free]) :
    Kept W p (State.pairPageWrite s s1 m page off v) := by
  unfold State.pairPageWrite
  with_reducible repeat' (first
      | assumption | exact hf.sub rfl | apply State.actionRes_kept | apply State.after_kept | apply execResync_kept
      | apply execSwitch_kept | simp only [id_eq]
      | (intro x; first | (refine kept_cut (W := W) (p := p) (v := x) ?_ (fun hx => ?_) <;> [simp only [x]; clear_value x]) | skip)
      | split | lift_lets)

theorem State.fltPageWrite_kept (s : State) (s1 : State) (m : Fin 4) (off : Nat) (v : Nat) (h : Kept W p s) (h1 : Kept W p s1) (hf : Frees W [.regs, .mem, .ecc, .recd, .evd, .flt, .tly, .sent, .eth, .forceQ, .lastRec, .dio, .ana, .ax, .asrc, .ang, .sync, .dwy, .seq, .free]) :
    Kept W p (State.fltPageWrite s s1 m off v) := by
  unfold State.fltPageWrite
  with_reducible repeat' (first
      | assumption | exact hf.sub rfl | apply State.after_kept | apply execReadmitPage_kept
      | apply execReadmitTask_kept | apply execSrcClear_kept | simp only [id_eq]
      | (intro x; first | (refine kept_cut (W := W) (p := p) (v := x) ?_ (fun hx => ?_) <;> [simp only [x]; clear_value x]) | skip)
      | split | lift_lets)

theorem State.tlyPageWrite_kept (s : State) (m : Fin 4) (page : Nat) (off : Nat) (v : Nat) (h : Kept W p s) (hf : Frees W [.regs, .shad, .boot, .recd, .evd, .flt, .cal, .tly, .ang, .seq, .free]) :
    Kept W p (State.tlyPageWrite s m page off v) := by
  unfold State.tlyPageWrite
  with_reducible repeat' (first
      | assumption | exact hf.sub rfl | apply State.after_kept | apply State.fieldWrite_kept | apply State.tlyCmd_kept
      | apply State.tlyLock_kept | apply execAdd_kept | apply execFlush_kept | apply execPreset_kept
      | apply execThreshHi_kept | apply execTlyUnlock_kept
      | (intro x; first | (refine kept_cut (W := W) (p := p) (v := x) ?_ (fun hx => ?_) <;> [simp only [x]; clear_value x]) | skip)
      | split | lift_lets)

theorem State.recPageWrite_kept (s : State) (s1 : State) (m : Fin 4) (off : Nat) (v : Nat) (h : Kept W p s) (h1 : Kept W p s1) (hf : Frees W [.regs, .boot, .recd, .evd, .flt, .tly, .free]) :
    Kept W p (State.recPageWrite s s1 m off v) := by
  unfold State.recPageWrite
  with_reducible repeat' (first
      | assumption | exact hf.sub rfl | apply State.after_kept | apply execEpoch_kept | apply execLogCmd_kept
      | apply execWrapAck_kept | intro x | split)

theorem State.blockWrite_kept (s : State) (m : Fin 4) (k : Kind) (i : Nat) (page : Nat) (off : Nat) (v : Nat) (h : Kept W p s) (hf : Frees W (Part.except [.flash, .pins, .ts, .bus, .now])) :
    Kept W p (State.blockWrite s m k i page off v) := by
  unfold State.blockWrite
  with_reducible repeat' (first
      | assumption | exact hf.sub rfl | (refine all_cons ?_ ?_ <;> (try dsimp only)) | apply State.action_kept
      | apply State.after_kept | apply State.anaPageWrite_kept | apply State.canPageWrite_kept
      | apply State.codeWrite_kept | apply State.domOffWrite_kept | apply State.ethPageWrite_kept
      | apply State.fieldWrite_kept | apply State.fltPageWrite_kept | apply State.lptPageWrite_kept
      | apply State.pairPageWrite_kept | apply State.placePageWrite_kept | apply State.recPageWrite_kept
      | apply State.seqPageWrite_kept | apply State.stnPageWrite_kept | apply State.timePageWrite_kept
      | apply State.tlyPageWrite_kept | apply execDioRestart_kept | apply execFeClear_kept | apply execReq_kept
      | apply execRestCmdBlank_kept | apply execRestCmdText_kept | apply execSeekEnd_kept | apply execSeekOldest_kept
      | apply execSeekSeq_kept | apply execSlotArm_kept | apply execSlotDisarm_kept | exact all_nil | simp only [id_eq]
      | (intro x; first | (refine kept_cut (W := W) (p := p) (v := x) ?_ (fun hx => ?_) <;> [simp only [x]; clear_value x]) | skip)
      | split | lift_lets)

theorem State.regWrite_kept (s : State) (m : Fin 4) (page off v : Nat) (h : Kept W p s)
    (hf : Frees W (Part.except [.flash, .pins, .ts, .bus, .now])) : Kept W p (State.regWrite s m page off v) := by
  unfold State.regWrite
  have hs := State.supTouch_kept s h (hf.sub rfl)
  refine iteInduction (motive := Kept W p) (fun _ => State.supCmd_kept _ _ _ _ h (hf.sub rfl)) (fun _ => ?_)
  refine iteInduction (motive := Kept W p) (fun _ => State.supUnlock_kept _ _ _ h (hf.sub rfl)) (fun _ => ?_)
  refine iteInduction (motive := Kept W p) (fun _ => ?_) (fun _ => ?_)
  · exact iteInduction (motive := Kept W p) (fun _ => State.plainWrite_kept _ _ _ _ hs (hf.sub rfl)) (fun _ => h)
  refine iteInduction (motive := Kept W p) (fun _ => h) (fun _ => ?_)
  cases pageKind page with
  | none => exact h
  | some ki =>
    obtain ⟨k, i⟩ := ki
    dsimp only
    refine iteInduction (motive := Kept W p) (fun _ => State.action_kept _ _ _ _ _ h (hf.sub rfl)
      (fun u hu => State.ctrlWrite_kept _ _ _ _ hu (hf.sub rfl))) (fun _ => ?_)
    refine iteInduction (motive := Kept W p) (fun _ => State.after_kept _ _ h (execFaultClear_kept _ _ _ _ h (hf.sub rfl)))
      (fun _ => ?_)
    refine iteInduction (motive := Kept W p) (fun _ => State.action_kept _ _ _ _ _ h (hf.sub rfl)
      (fun u hu => State.faultEnWrite_kept _ _ _ hu (hf.sub rfl))) (fun _ => ?_)
    refine iteInduction (motive := Kept W p) (fun _ => State.action_kept _ _ _ _ _ h (hf.sub rfl) (fun u hu => ?_)) (fun _ => ?_)
    · exact iteInduction (motive := Kept W p) (fun _ => State.commitDiscard_kept _ _ hu (hf.sub rfl))
        (fun _ => iteInduction (motive := Kept W p) (fun _ => State.commitGo_kept _ _ hu (hf.sub rfl)) (fun _ => hu))
    refine iteInduction (motive := Kept W p) (fun _ => State.after_kept _ _ h (execOwnerWrite_kept _ _ _ _ h (hf.sub rfl))) (fun _ => ?_)
    refine iteInduction (motive := Kept W p) (fun _ => h) (fun _ => ?_)
    exact iteInduction (motive := Kept W p) (fun _ => State.flashCmd_kept _ _ _ h (hf.sub rfl))
      (fun _ => State.blockWrite_kept _ _ _ _ _ _ _ h (hf.sub rfl))

theorem State.busError_kept (s : State) (a2 : Nat) (a : Nat) (ty : Nat) (h : Kept W p s) (hf : Frees W [.regs, .recd, .evd, .flt, .bus, .tly, .free]) :
    Kept W p (State.busError s a2 a ty) := by
  unfold State.busError
  with_reducible repeat' (first
      | assumption | exact hf.sub rfl | apply State.legCapture_kept | apply State.raise_kept
      | (intro x; first | (refine kept_cut (W := W) (p := p) (v := x) ?_ (fun hx => ?_) <;> [simp only [x]; clear_value x]) | skip)
      | lift_lets | refine Kept.setBus ?_ (hf.sub rfl) _)

theorem State.privError_kept (s : State) (page : Nat) (a : Nat) (h : Kept W p s) (hf : Frees W [.regs, .recd, .evd, .flt, .bus, .tly, .free]) :
    Kept W p (State.privError s page a) := by
  unfold State.privError
  with_reducible repeat' (first
      | assumption | exact hf.sub rfl | apply State.raise_kept
      | (intro x; first | (refine kept_cut (W := W) (p := p) (v := x) ?_ (fun hx => ?_) <;> [simp only [x]; clear_value x]) | skip)
      | lift_lets | refine Kept.setBus ?_ (hf.sub rfl) _)

theorem State.alignError_kept (s : State) (page : Nat) (a : Nat) (h : Kept W p s) (hf : Frees W [.regs, .recd, .evd, .flt, .bus, .tly, .free]) :
    Kept W p (State.alignError s page a) := by
  unfold State.alignError
  with_reducible repeat' (first
      | assumption | exact hf.sub rfl | apply State.raise_kept | apply State.setFault_kept
      | (intro x; first | (refine kept_cut (W := W) (p := p) (v := x) ?_ (fun hx => ?_) <;> [simp only [x]; clear_value x]) | skip)
      | split | lift_lets | refine Kept.setBus ?_ (hf.sub rfl) _)

theorem State.eccRead_kept (s : State) (a2 : Nat) (tier : Nat) (a : Nat) (b : Nat) (n : Nat) (fetch : Bool) (bad : Bool) (corr : Bool) (h : Kept W p s) (hf : Frees W [.regs, .ecc, .recd, .evd, .flt, .tly, .free]) :
    Kept W p (State.eccRead s a2 tier a b n fetch bad corr).1 := by
  unfold State.eccRead
  with_reducible repeat' (first
      | assumption | exact hf.sub rfl | apply State.incMod_kept | apply State.raise_kept | apply State.setFault_kept
      | (intro x; first | (refine kept_cut (W := W) (p := p) (v := x) ?_ (fun hx => ?_) <;> [simp only [x]; clear_value x]) | skip)
      | split | lift_lets | refine Kept.setEcc ?_ (hf.sub rfl) _)

theorem State.done_kept (s : State) (v : Nat) (h : Kept W p s) (hf : Frees W [.bus]) :
    Kept W p (State.done s v) := by
  unfold State.done
  with_reducible repeat' (first | assumption | exact hf.sub rfl | apply State.answer_kept | intro x)

theorem State.memAccess_kept (s : State) (a2 : Nat) (tier : Nat) (a : Nat) (b : Nat) (op : CoreOp) (bad : Bool) (corr : Bool) (h : Kept W p s) (hf : Frees W [.regs, .mem, .ecc, .recd, .evd, .flt, .bus, .tly, .free]) :
    Kept W p (State.memAccess s a2 tier a b op bad corr) := by
  unfold State.memAccess
  with_reducible repeat' (first
      | assumption | exact hf.sub rfl | apply State.done_kept | apply State.eccRead_kept | apply State.memWr_kept
      | (intro x; first | (refine kept_cut (W := W) (p := p) (v := x) ?_ (fun hx => ?_) <;> [simp only [x]; clear_value x]) | skip)
      | split | lift_lets | refine Kept.setBus ?_ (hf.sub rfl) _)

theorem State.pageAccess_kept (s : State) (a2 a3 : Nat) (a4 : CoreOp) (h : Kept W p s)
    (hf : Frees W (Part.except [.flash, .pins, .now])) : Kept W p (State.pageAccess s a2 a3 a4) := by
  unfold State.pageAccess
  dsimp only
  have ha : ∀ g, Kept W p (s.alignError g a3) := fun g => State.alignError_kept _ _ _ h (hf.sub rfl)
  split
  · split
    · exact ha _
    · split
      · exact State.done_kept _ _ (State.regRead_kept _ _ _ _ _ (State.regRead_kept _ _ _ _ _ h (hf.sub rfl)) (hf.sub rfl))
          (hf.sub rfl)
      · exact State.done_kept _ _ (State.regRead_kept _ _ _ _ _ h (hf.sub rfl)) (hf.sub rfl)
  · split
    · exact ha _
    · apply State.done_kept _ _ _ (hf.sub rfl)
      split
      · exact State.regWrite_kept _ _ _ _ _ (State.regWrite_kept _ _ _ _ _ h (hf.sub rfl)) (hf.sub rfl)
      · exact State.regWrite_kept _ _ _ _ _ h (hf.sub rfl)
  · exact h

theorem State.loopAccess_kept (s : State) (a : Nat) (n : Nat) (op : CoreOp) (loopEcc : Ecc) (h : Kept W p s) (hf : Frees W [.regs, .mem, .ecc, .recd, .evd, .flt, .bus, .tly, .forceQ, .lastRec, .dio, .ana, .lpe, .ax, .seq, .free]) :
    Kept W p (State.loopAccess s a n op loopEcc) := by
  unfold State.loopAccess
  with_reducible repeat' (first
      | assumption | exact hf.sub rfl | apply State.done_kept | apply State.lAccess_kept | apply State.recordWrite_kept
      | apply kept_foldl | apply kept_foldl_fst
      | (intro x; first | (refine kept_cut (W := W) (p := p) (v := x) ?_ (fun hx => ?_) <;> [simp only [x]; clear_value x]) | skip)
      | split | lift_lets)

theorem State.dirAccess_kept (s : State) (a : Nat) (n : Nat) (op : CoreOp) (h : Kept W p s) (hf : Frees W [.regs, .mem, .ecc, .recd, .evd, .flt, .bus, .tly, .free]) :
    Kept W p (State.dirAccess s a n op) := by
  unfold State.dirAccess
  with_reducible repeat' (first
      | assumption | exact hf.sub rfl | apply State.directoryWrite_kept | apply State.done_kept | apply kept_foldl
      | apply kept_foldl_fst
      | (intro x; first | (refine kept_cut (W := W) (p := p) (v := x) ?_ (fun hx => ?_) <;> [simp only [x]; clear_value x]) | skip)
      | split | lift_lets)

theorem State.coreAccess_kept (s : State) (q a : Nat) (op : CoreOp) (priv bad corr : Bool) (e : Ecc)
    (h : Kept W p s) (hf : Frees W (Part.except [.flash, .pins, .now])) : Kept W p (State.coreAccess s q a op priv bad corr e) := by
  unfold State.coreAccess
  generalize opInfo op = ni
  obtain ⟨n, ty⟩ := ni
  dsimp only
  have hb := State.busError_kept s q a ty h (hf.sub rfl)
  have hp := fun g => State.privError_kept s g a h (hf.sub rfl)
  have hm := fun tier b bad corr => State.memAccess_kept s q tier a b op bad corr h (hf.sub rfl)
  refine iteInduction (motive := Kept W p) (fun _ => hb) (fun _ => ?_)
  cases regionOf a <;> dsimp only
  case dram => exact hm _ _ _ _
  case alias0 => exact hm _ _ _ _
  case tier0 => exact iteInduction (motive := Kept W p) (fun _ => hm _ _ _ _) (fun _ => hb)
  case tier1 => exact hm _ _ _ _
  case retain => exact iteInduction (motive := Kept W p) (fun _ => hb) (fun _ => hm _ _ _ _)
  case config => exact iteInduction (motive := Kept W p) (fun _ => hm _ _ _ _) (fun _ => hb)
  case loops => exact iteInduction (motive := Kept W p) (fun _ => hb) (fun _ => iteInduction (motive := Kept W p)
      (fun _ => hp _) (fun _ => State.loopAccess_kept _ _ _ _ _ h (hf.sub rfl)))
  case directory => exact iteInduction (motive := Kept W p) (fun _ => hb) (fun _ => iteInduction (motive := Kept W p)
      (fun _ => hp _) (fun _ => State.dirAccess_kept _ _ _ _ h (hf.sub rfl)))
  case trace => exact iteInduction (motive := Kept W p) (fun _ => hp _) (fun _ => iteInduction (motive := Kept W p)
      (fun _ => State.done_kept _ _ h (hf.sub rfl)) (fun _ => hb))
  case pages => exact iteInduction (motive := Kept W p) (fun _ => hb) (fun _ => iteInduction (motive := Kept W p)
      (fun _ => hp _) (fun _ => State.pageAccess_kept _ _ _ _ h (hf.sub rfl)))
  case none => exact hb

theorem State.supMem_kept (s : State) (a : Nat) (wr : Option Nat) (h : Kept W p s) (hf : Frees W [.mem, .ecc]) :
    Kept W p (State.supMem s a wr).1 := by
  unfold State.supMem
  with_reducible repeat' (first
      | assumption | exact hf.sub rfl | apply State.memWr_kept
      | (intro x; first | (refine kept_cut (W := W) (p := p) (v := x) ?_ (fun hx => ?_) <;> [simp only [x]; clear_value x]) | skip)
      | split | lift_lets)

theorem State.supPage_some (s : State) (m : Fin 4) (a v : Nat) : s.supPage m a (some v) =
    (s.regWrite m ((a - pageBase) / 4096) (a % 4096) v, if !s.servedTo m.val then 1 else if s.owner ((a - pageBase) / 4096) == m.val
      || !populated ((a - pageBase) / 4096) || a % 4096 == 0x020 then 0 else 6, v) := rfl
theorem State.supPage_none (s : State) (m : Fin 4) (a : Nat) : s.supPage m a none =
    ((s.regRead m.val none ((a - pageBase) / 4096) (a % 4096)).1, 0,
    (s.regRead m.val none ((a - pageBase) / 4096) (a % 4096)).2) := rfl
theorem State.supPage_kept (s : State) (m : Fin 4) (a : Nat) (wr : Option Nat) (h : Kept W p s)
    (hf : Frees W (Part.except [.flash, .pins, .now])) : Kept W p (State.supPage s m a wr).1 := by
  cases wr with
  | some v => exact kept_fst (State.supPage_some s m a v) (State.regWrite_kept s m _ _ v h (hf.sub rfl))
  | none => exact kept_fst (State.supPage_none s m a) (State.regRead_kept s m.val none _ _ h (hf.sub rfl))

theorem State.supAccess_kept (s : State) (m : Fin 4) (a : Nat) (wr : Option Nat) (h : Kept W p s)
    (hf : Frees W (Part.except [.flash, .pins, .now])) : Kept W p (State.supAccess s m a wr).1 := by
  unfold State.supAccess
  have hm := State.supMem_kept s a wr h (hf.sub rfl)
  refine iteInduction (motive := fun r : State × Nat × Nat => Kept W p r.1) (fun _ => h) (fun _ => ?_)
  have hp := State.supPage_kept s m a wr h (hf.sub rfl)
  have hl : ∀ (x y : Nat) (z : Word), Kept W p (s.recordWrite x y z Ecc.good) :=
    fun x y z => State.recordWrite_kept _ _ _ _ _ h (hf.sub rfl)
  generalize s.supMem a wr = r at hm ⊢
  cases regionOf a <;> dsimp only
  case tier0 => exact iteInduction (motive := fun r : State × Nat × Nat => Kept W p r.1) (fun _ => h) (fun _ => hm)
  case pages => exact hp
  case loops => cases wr <;> dsimp only <;> first | (with_reducible apply hl) | (with_reducible assumption)
  case config => cases wr <;> dsimp only <;> (with_reducible assumption)
  case directory =>
    cases wr with
    | none => exact hm
    | some v =>
      dsimp only
      exact State.raise_kept _ _ _ _ _ (State.setFault_kept _ _ _ h (hf.sub rfl)) (hf.sub rfl)
  case trace => cases wr <;> dsimp only <;> (with_reducible assumption)
  all_goals with_reducible assumption

theorem State.xchgFollow_kept (s : State) (h : Kept W p s) (hf : Frees W (Part.except [.flash, .boot, .pins, .clk, .ts, .bus, .cal, .now, .can, .pnl, .froze, .asrc, .pair])) :
    Kept W p (State.xchgFollow s) := by
  unfold State.xchgFollow
  with_reducible repeat' (first
      | assumption | exact hf.sub rfl | apply State.applyAt_kept | apply State.useFree_kept
      | (intro x; first | (refine kept_cut (W := W) (p := p) (v := x) ?_ (fun hx => ?_) <;> [simp only [x]; clear_value x]) | skip)
      | split | lift_lets)

theorem State.requestDo_kept (s : State) (op : Nat) (a : Nat) (v : Nat) (h : Kept W p s) (hf : Frees W (Part.except [.flash, .pins, .now])) :
    Kept W p (State.requestDo s op a v).1 := by
  unfold State.requestDo
  with_reducible repeat' (first
      | assumption | exact hf.sub rfl | apply State.after_kept | apply State.sendFull_kept | apply State.supAccess_kept
      | apply State.supCmd_kept | apply State.xchgFollow_kept | apply execApply_kept | apply execCancel_kept
      | apply execPrepare_kept | apply forEach_kept
      | (intro x; first | (refine kept_cut (W := W) (p := p) (v := x) ?_ (fun hx => ?_) <;> [simp only [x]; clear_value x]) | skip)
      | split | lift_lets)

theorem State.requestTake_kept (a1 : List Byte) (s : State) (h : Kept W p s) (hf : Frees W (Part.except [.flash, .pins, .now])) :
    Kept W p (State.requestTake a1 s) := by
  unfold State.requestTake
  with_reducible repeat' (first
      | assumption | exact hf.sub rfl | apply State.dvlSend_kept | apply State.requestDo_kept
      | (intro x; first | (refine kept_cut (W := W) (p := p) (v := x) ?_ (fun hx => ?_) <;> [simp only [x]; clear_value x]) | skip)
      | split | lift_lets)

theorem execRegisterWrite_kept (m : Fin 4) (t : WriteTarget) (v : BitVec 32) (s : State)
    (h : Kept W p s) (hf : Frees W (Part.except [.flash, .pins, .now])) : OutKept W p (execRegisterWrite m t v s) := by
  unfold execRegisterWrite
  apply OutKept.next
  cases t with
  | page q off => exact State.regWrite_kept _ _ _ _ _ h (hf.sub rfl)
  | tier0 n off =>
    have hr := State.supAccess_kept s m (tier0Base n.val + off.toNat / 4 * 4) (some v.toNat) h (hf.sub rfl)
    dsimp only
    generalize s.supAccess m (tier0Base n.val + off.toNat / 4 * 4) (some v.toNat) = r at hr ⊢
    refine iteInduction (motive := Kept W p) (fun _ => ?_) (fun _ => h)
    exact iteInduction (motive := Kept W p) (fun _ => State.put_kept _ _ _ _ _ hr (hf.sub rfl)) (fun _ => hr)

theorem execCorePairAccess_kept (a1 : Fin 4) (op : CoreOp) (a : BitVec 40) (priv : Bool) (bad : Bool) (corr : Bool) (ecc : Ecc) (task : Fin 32) (inTask : Bool) (s : State) (h : Kept W p s) (hf : Frees W (Part.except [.flash, .pins, .now])) :
    OutKept W p (execCorePairAccess a1 op a priv bad corr ecc task inTask s) := by
  unfold execCorePairAccess
  with_reducible repeat' (first
      | assumption | exact hf.sub rfl | apply State.coreAccess_kept | apply State.done_kept | apply State.lapse_kept
      | apply State.useFree_kept | apply OutKept.next
      | (intro x; first | (refine kept_cut (W := W) (p := p) (v := x) ?_ (fun hx => ?_) <;> [simp only [x]; clear_value x]) | skip)
      | split | lift_lets)

theorem execRequest_kept (l : Fin 2) (f : List Byte) (s : State) (h : Kept W p s) (hf : Frees W (Part.except [.flash, .pins, .now])) :
    OutKept W p (execRequest l f s) := by
  unfold execRequest
  with_reducible repeat' (first
      | assumption | exact hf.sub rfl | apply State.onFrame_kept | apply State.requestTake_kept | apply OutKept.next
      | intro x)

theorem execResponse_kept (l : Fin 2) (f : List Byte) (s : State) (h : Kept W p s) (hf : Frees W [.regs, .flt, .pair]) :
    OutKept W p (execResponse l f s) := by
  unfold execResponse
  with_reducible repeat' (first
      | assumption | exact hf.sub rfl | apply State.onFrame_kept | apply State.setPair_kept | apply OutKept.next
      | (intro x; first | (refine kept_cut (W := W) (p := p) (v := x) ?_ (fun hx => ?_) <;> [simp only [x]; clear_value x]) | skip)
      | split | lift_lets)

end Sys2Proof.Machine
end

