-- ==== Sys2Proof/Laws/State.lean ====
section
/-! SUPPORT. What each shared operation leaves as it was, component by component, and what a register and a field read after
a write. -/

namespace Sys2Proof.Machine

theorem testBit_bits (n hi lo i : Nat) : (bits n hi lo).testBit i = (decide (i < hi - lo + 1) && n.testBit (lo + i)) := by
  unfold bits
  rw [Nat.testBit_mod_two_pow, Nat.testBit_div_two_pow, Nat.add_comm i lo]

theorem putBits_split (n hi lo v : Nat) : putBits n hi lo v =
    2 ^ lo * (2 ^ (hi - lo + 1) * (n / 2 ^ lo / 2 ^ (hi - lo + 1)) + v % 2 ^ (hi - lo + 1)) + n % 2 ^ lo := by
  unfold putBits bits
  have h1 := Nat.div_add_mod n (2 ^ lo)
  have h2 := Nat.div_add_mod (n / 2 ^ lo) (2 ^ (hi - lo + 1))
  generalize 2 ^ (hi - lo + 1) = w at *
  generalize 2 ^ lo = l at *
  generalize n / l = q at *
  generalize q / w = a at *
  generalize v % w = v' at *
  generalize hb : q % w = b at *
  generalize hc : n % l = c at *
  subst h2
  have e : n = l * (w * a) + l * b + c := by rw [← h1]; ring
  rw [e]
  have e2 : b * l = l * b := Nat.mul_comm _ _
  rw [e2, show l * (w * a) + l * b + c = (l * (w * a) + c) + l * b by ring, Nat.add_sub_cancel]
  ring

theorem testBit_putBits (n hi lo v i : Nat) (h : lo ≤ hi) :
    (putBits n hi lo v).testBit i = if lo ≤ i ∧ i ≤ hi then v.testBit (i - lo) else n.testBit i := by
  rw [putBits_split, Nat.testBit_two_pow_mul_add _ (Nat.mod_lt _ (Nat.two_pow_pos lo)),
    Nat.testBit_two_pow_mul_add _ (Nat.mod_lt _ (Nat.two_pow_pos _))]
  by_cases h1 : i < lo
  · rw [if_pos h1, if_neg (by omega), Nat.testBit_mod_two_pow]; simp [h1]
  · rw [if_neg h1]
    by_cases h2 : i ≤ hi
    · rw [if_pos (by omega), if_pos ⟨by omega, h2⟩, Nat.testBit_mod_two_pow]
      simp; omega
    · rw [if_neg (by omega), if_neg (by omega), Nat.testBit_div_two_pow, Nat.testBit_div_two_pow]
      congr 1; omega

theorem putBits_lt {n hi lo : Nat} (v : Nat) (h : lo ≤ hi) (hh : hi < 32) (hn : n < 2 ^ 32) : putBits n hi lo v < 2 ^ 32 := by
  apply Nat.lt_pow_two_of_testBit
  intro i hi'
  rw [testBit_putBits _ _ _ _ _ h, if_neg (by omega)]
  exact Nat.testBit_lt_two_pow (lt_of_lt_of_le hn (Nat.pow_le_pow_right (by omega) hi'))

theorem bits_putBits_same (n hi lo v : Nat) (h : lo ≤ hi) : bits (putBits n hi lo v) hi lo = v % 2 ^ (hi - lo + 1) := by
  apply Nat.eq_of_testBit_eq
  intro i
  rw [testBit_bits, testBit_putBits _ _ _ _ _ h, Nat.testBit_mod_two_pow]
  by_cases hi' : i < hi - lo + 1
  · rw [if_pos (by omega)]; simp
  · simp [hi']

theorem bits_putBits_ne (n hi lo v hi' lo' : Nat) (h : lo ≤ hi) (h' : lo' ≤ hi') (hd : hi < lo' ∨ hi' < lo) :
    bits (putBits n hi lo v) hi' lo' = bits n hi' lo' := by
  apply Nat.eq_of_testBit_eq
  intro i
  rw [testBit_bits, testBit_bits, testBit_putBits _ _ _ _ _ h]
  by_cases hi' : i < hi' - lo' + 1
  · rw [if_neg (by omega)]
  · simp [hi']

theorem bits_lt (n hi lo : Nat) : bits n hi lo < 2 ^ (hi - lo + 1) := Nat.mod_lt _ (Nat.two_pow_pos _)

theorem regKey_ne {page off idx page' off' idx' : Nat} (hp : page < 512) (ho : off < 4096) (hp' : page' < 512)
    (ho' : off' < 4096) (h : ¬ (page = page' ∧ off = off' ∧ idx = idx')) : regKey page off idx ≠ regKey page' off' idx' := by
  unfold regKey; omega

namespace State

@[simp] theorem reg_setReg_same (s : State) (page off : Nat) (w : Word) (idx : Nat) :
    (s.setReg page off w idx).reg page off idx = w := Store.get_set_same _ _ _ _

theorem reg_setReg_ne (s : State) {page off idx page' off' idx' : Nat} (w : Word)
    (h : regKey page' off' idx' ≠ regKey page off idx) :
    (s.setReg page off w idx).reg page' off' idx' = s.reg page' off' idx' := Store.get_set_ne _ _ _ _ h

/-- A field that fits in a register of 32 bits. -/
theorem get_put_same (s : State) (page : Nat) (f : Fld) (v idx : Nat) (h : f.lo ≤ f.hi) (hh : f.hi < 32) :
    (s.put page f v idx).get page f idx = v % 2 ^ (f.hi - f.lo + 1) := by
  unfold get put
  rw [reg_setReg_same, BitVec.toNat_ofNat, Nat.mod_eq_of_lt (putBits_lt v h hh (BitVec.isLt _)), bits_putBits_same _ _ _ _ h]

theorem get_put_field (s : State) (page : Nat) (f g : Fld) (v idx : Nat) (h : f.lo ≤ f.hi) (hh : f.hi < 32)
    (h' : g.lo ≤ g.hi) (hg : g.off = f.off) (hd : f.hi < g.lo ∨ g.hi < f.lo) :
    (s.put page f v idx).get page g idx = s.get page g idx := by
  unfold get put
  rw [hg, reg_setReg_same, BitVec.toNat_ofNat, Nat.mod_eq_of_lt (putBits_lt v h hh (BitVec.isLt _)),
    bits_putBits_ne _ _ _ _ _ _ h h' hd]

theorem get_put_ne (s : State) {page page' : Nat} {f g : Fld} (v : Nat) {idx idx' : Nat}
    (h : regKey page' g.off idx' ≠ regKey page f.off idx) : (s.put page f v idx).get page' g idx' = s.get page' g idx' := by
  unfold get put
  rw [reg_setReg_ne _ _ h]

theorem get_setReg_ne (s : State) {page page' off : Nat} {g : Fld} (w : Word) {idx idx' : Nat}
    (h : regKey page' g.off idx' ≠ regKey page off idx) : (s.setReg page off w idx).get page' g idx' = s.get page' g idx' := by
  unfold get
  rw [reg_setReg_ne _ _ h]

theorem on_put_ne (s : State) {page page' : Nat} {f g : Fld} (v : Nat) {idx idx' : Nat}
    (h : regKey page' g.off idx' ≠ regKey page f.off idx) : (s.put page f v idx).on page' g idx' = s.on page' g idx' := by
  unfold on
  rw [get_put_ne _ _ h]

theorem on_put_field (s : State) (page : Nat) (f g : Fld) (v idx : Nat) (h : f.lo ≤ f.hi) (hh : f.hi < 32)
    (h' : g.lo ≤ g.hi) (hg : g.off = f.off) (hd : f.hi < g.lo ∨ g.hi < f.lo) :
    (s.put page f v idx).on page g idx = s.on page g idx := by
  unfold on
  rw [get_put_field _ _ _ _ _ _ h hh h' hg hd]

theorem get_incSat_same (s : State) (page : Nat) (f : Fld) (k idx : Nat) (h : f.lo ≤ f.hi) (hh : f.hi < 32) :
    (s.incSat page f k idx).get page f idx = satAdd (2 ^ (f.hi - f.lo + 1) - 1) (s.get page f idx) k := by
  unfold incSat
  rw [get_put_same _ _ _ _ _ h hh, Nat.mod_eq_of_lt]
  have : 0 < 2 ^ (f.hi - f.lo + 1) := Nat.two_pow_pos _
  unfold satAdd
  split <;> omega

theorem on_putB_same (s : State) (page : Nat) (f : Fld) (b : Bool) (idx : Nat) (h : f.lo ≤ f.hi) (hh : f.hi < 32) :
    (s.putB page f b idx).on page f idx = b := by
  unfold on putB
  rw [get_put_same _ _ _ _ _ h hh]
  cases b <;> simp [b2n]

/-! ### Components that a setter leaves -/

section Setters
variable (s : State)

@[simp] theorem setReg_shad (page off : Nat) (w : Word) (idx : Nat) : (s.setReg page off w idx).shad = s.shad := (rfl)
@[simp] theorem setReg_buf (page off : Nat) (w : Word) (idx : Nat) : (s.setReg page off w idx).buf = s.buf := (rfl)
@[simp] theorem setReg_mem (page off : Nat) (w : Word) (idx : Nat) : (s.setReg page off w idx).mem = s.mem := (rfl)
@[simp] theorem setReg_flash (page off : Nat) (w : Word) (idx : Nat) : (s.setReg page off w idx).flash = s.flash := (rfl)
@[simp] theorem setReg_ecc (page off : Nat) (w : Word) (idx : Nat) : (s.setReg page off w idx).ecc = s.ecc := (rfl)
@[simp] theorem setReg_boot (page off : Nat) (w : Word) (idx : Nat) : (s.setReg page off w idx).boot = s.boot := (rfl)
@[simp] theorem setReg_pins (page off : Nat) (w : Word) (idx : Nat) : (s.setReg page off w idx).pins = s.pins := (rfl)
@[simp] theorem setReg_clk (page off : Nat) (w : Word) (idx : Nat) : (s.setReg page off w idx).clk = s.clk := (rfl)
@[simp] theorem setReg_tsFifo (page off : Nat) (w : Word) (idx : Nat) : (s.setReg page off w idx).tsFifo = s.tsFifo := (rfl)
@[simp] theorem setReg_recd (page off : Nat) (w : Word) (idx : Nat) : (s.setReg page off w idx).recd = s.recd := (rfl)
@[simp] theorem setReg_evd (page off : Nat) (w : Word) (idx : Nat) : (s.setReg page off w idx).evd = s.evd := (rfl)
@[simp] theorem setReg_flt (page off : Nat) (w : Word) (idx : Nat) : (s.setReg page off w idx).flt = s.flt := (rfl)
@[simp] theorem setReg_bus (page off : Nat) (w : Word) (idx : Nat) : (s.setReg page off w idx).bus = s.bus := (rfl)
@[simp] theorem setReg_cal (page off : Nat) (w : Word) (idx : Nat) : (s.setReg page off w idx).cal = s.cal := (rfl)
@[simp] theorem setReg_tly (page off : Nat) (w : Word) (idx : Nat) : (s.setReg page off w idx).tly = s.tly := (rfl)
@[simp] theorem setReg_sent (page off : Nat) (w : Word) (idx : Nat) : (s.setReg page off w idx).sent = s.sent := (rfl)
@[simp] theorem setReg_eth (page off : Nat) (w : Word) (idx : Nat) : (s.setReg page off w idx).eth = s.eth := (rfl)
@[simp] theorem setReg_can (page off : Nat) (w : Word) (idx : Nat) : (s.setReg page off w idx).can = s.can := (rfl)
@[simp] theorem setReg_forceQ (page off : Nat) (w : Word) (idx : Nat) : (s.setReg page off w idx).forceQ = s.forceQ := (rfl)
@[simp] theorem setReg_forceReq (page off : Nat) (w : Word) (idx : Nat) : (s.setReg page off w idx).forceReq = s.forceReq := (rfl)
@[simp] theorem setReg_lastRec (page off : Nat) (w : Word) (idx : Nat) : (s.setReg page off w idx).lastRec = s.lastRec := (rfl)
@[simp] theorem setReg_pnl (page off : Nat) (w : Word) (idx : Nat) : (s.setReg page off w idx).pnl = s.pnl := (rfl)
@[simp] theorem setReg_dio (page off : Nat) (w : Word) (idx : Nat) : (s.setReg page off w idx).dio = s.dio := (rfl)
@[simp] theorem setReg_ana (page off : Nat) (w : Word) (idx : Nat) : (s.setReg page off w idx).ana = s.ana := (rfl)
@[simp] theorem setReg_lpe (page off : Nat) (w : Word) (idx : Nat) : (s.setReg page off w idx).lpe = s.lpe := (rfl)
@[simp] theorem setReg_frozeAt (page off : Nat) (w : Word) (idx : Nat) : (s.setReg page off w idx).frozeAt = s.frozeAt := (rfl)
@[simp] theorem setReg_ax (page off : Nat) (w : Word) (idx : Nat) : (s.setReg page off w idx).ax = s.ax := (rfl)
@[simp] theorem setReg_asrc (page off : Nat) (w : Word) (idx : Nat) : (s.setReg page off w idx).asrc = s.asrc := (rfl)
@[simp] theorem setReg_ang (page off : Nat) (w : Word) (idx : Nat) : (s.setReg page off w idx).ang = s.ang := (rfl)
@[simp] theorem setReg_sync (page off : Nat) (w : Word) (idx : Nat) : (s.setReg page off w idx).sync = s.sync := (rfl)
@[simp] theorem setReg_dwy (page off : Nat) (w : Word) (idx : Nat) : (s.setReg page off w idx).dwy = s.dwy := (rfl)
@[simp] theorem setReg_seq (page off : Nat) (w : Word) (idx : Nat) : (s.setReg page off w idx).seq = s.seq := (rfl)
@[simp] theorem setReg_pair (page off : Nat) (w : Word) (idx : Nat) : (s.setReg page off w idx).pair = s.pair := (rfl)
@[simp] theorem setReg_freeUses (page off : Nat) (w : Word) (idx : Nat) : (s.setReg page off w idx).freeUses = s.freeUses := (rfl)
@[simp] theorem setReg_pending (page off : Nat) (w : Word) (idx : Nat) : (s.setReg page off w idx).pending = s.pending := (rfl)

@[simp] theorem put_shad (page : Nat) (f : Fld) (v idx : Nat) : (s.put page f v idx).shad = s.shad := (rfl)
@[simp] theorem put_buf (page : Nat) (f : Fld) (v idx : Nat) : (s.put page f v idx).buf = s.buf := (rfl)
@[simp] theorem put_mem (page : Nat) (f : Fld) (v idx : Nat) : (s.put page f v idx).mem = s.mem := (rfl)
@[simp] theorem put_flash (page : Nat) (f : Fld) (v idx : Nat) : (s.put page f v idx).flash = s.flash := (rfl)
@[simp] theorem put_ecc (page : Nat) (f : Fld) (v idx : Nat) : (s.put page f v idx).ecc = s.ecc := (rfl)
@[simp] theorem put_boot (page : Nat) (f : Fld) (v idx : Nat) : (s.put page f v idx).boot = s.boot := (rfl)
@[simp] theorem put_pins (page : Nat) (f : Fld) (v idx : Nat) : (s.put page f v idx).pins = s.pins := (rfl)
@[simp] theorem put_clk (page : Nat) (f : Fld) (v idx : Nat) : (s.put page f v idx).clk = s.clk := (rfl)
@[simp] theorem put_tsFifo (page : Nat) (f : Fld) (v idx : Nat) : (s.put page f v idx).tsFifo = s.tsFifo := (rfl)
@[simp] theorem put_recd (page : Nat) (f : Fld) (v idx : Nat) : (s.put page f v idx).recd = s.recd := (rfl)
@[simp] theorem put_evd (page : Nat) (f : Fld) (v idx : Nat) : (s.put page f v idx).evd = s.evd := (rfl)
@[simp] theorem put_flt (page : Nat) (f : Fld) (v idx : Nat) : (s.put page f v idx).flt = s.flt := (rfl)
@[simp] theorem put_bus (page : Nat) (f : Fld) (v idx : Nat) : (s.put page f v idx).bus = s.bus := (rfl)
@[simp] theorem put_cal (page : Nat) (f : Fld) (v idx : Nat) : (s.put page f v idx).cal = s.cal := (rfl)
@[simp] theorem put_tly (page : Nat) (f : Fld) (v idx : Nat) : (s.put page f v idx).tly = s.tly := (rfl)
@[simp] theorem put_sent (page : Nat) (f : Fld) (v idx : Nat) : (s.put page f v idx).sent = s.sent := (rfl)
@[simp] theorem put_eth (page : Nat) (f : Fld) (v idx : Nat) : (s.put page f v idx).eth = s.eth := (rfl)
@[simp] theorem put_can (page : Nat) (f : Fld) (v idx : Nat) : (s.put page f v idx).can = s.can := (rfl)
@[simp] theorem put_forceQ (page : Nat) (f : Fld) (v idx : Nat) : (s.put page f v idx).forceQ = s.forceQ := (rfl)
@[simp] theorem put_forceReq (page : Nat) (f : Fld) (v idx : Nat) : (s.put page f v idx).forceReq = s.forceReq := (rfl)
@[simp] theorem put_lastRec (page : Nat) (f : Fld) (v idx : Nat) : (s.put page f v idx).lastRec = s.lastRec := (rfl)
@[simp] theorem put_pnl (page : Nat) (f : Fld) (v idx : Nat) : (s.put page f v idx).pnl = s.pnl := (rfl)
@[simp] theorem put_dio (page : Nat) (f : Fld) (v idx : Nat) : (s.put page f v idx).dio = s.dio := (rfl)
@[simp] theorem put_ana (page : Nat) (f : Fld) (v idx : Nat) : (s.put page f v idx).ana = s.ana := (rfl)
@[simp] theorem put_lpe (page : Nat) (f : Fld) (v idx : Nat) : (s.put page f v idx).lpe = s.lpe := (rfl)
@[simp] theorem put_frozeAt (page : Nat) (f : Fld) (v idx : Nat) : (s.put page f v idx).frozeAt = s.frozeAt := (rfl)
@[simp] theorem put_ax (page : Nat) (f : Fld) (v idx : Nat) : (s.put page f v idx).ax = s.ax := (rfl)
@[simp] theorem put_asrc (page : Nat) (f : Fld) (v idx : Nat) : (s.put page f v idx).asrc = s.asrc := (rfl)
@[simp] theorem put_ang (page : Nat) (f : Fld) (v idx : Nat) : (s.put page f v idx).ang = s.ang := (rfl)
@[simp] theorem put_sync (page : Nat) (f : Fld) (v idx : Nat) : (s.put page f v idx).sync = s.sync := (rfl)
@[simp] theorem put_dwy (page : Nat) (f : Fld) (v idx : Nat) : (s.put page f v idx).dwy = s.dwy := (rfl)
@[simp] theorem put_seq (page : Nat) (f : Fld) (v idx : Nat) : (s.put page f v idx).seq = s.seq := (rfl)
@[simp] theorem put_pair (page : Nat) (f : Fld) (v idx : Nat) : (s.put page f v idx).pair = s.pair := (rfl)
@[simp] theorem put_freeUses (page : Nat) (f : Fld) (v idx : Nat) : (s.put page f v idx).freeUses = s.freeUses := (rfl)
@[simp] theorem put_pending (page : Nat) (f : Fld) (v idx : Nat) : (s.put page f v idx).pending = s.pending := (rfl)

@[simp] theorem putB_shad (page : Nat) (f : Fld) (b : Bool) (idx : Nat) : (s.putB page f b idx).shad = s.shad := put_shad s page f _ idx
@[simp] theorem putB_buf (page : Nat) (f : Fld) (b : Bool) (idx : Nat) : (s.putB page f b idx).buf = s.buf := put_buf s page f _ idx
@[simp] theorem putB_mem (page : Nat) (f : Fld) (b : Bool) (idx : Nat) : (s.putB page f b idx).mem = s.mem := put_mem s page f _ idx
@[simp] theorem putB_flash (page : Nat) (f : Fld) (b : Bool) (idx : Nat) : (s.putB page f b idx).flash = s.flash := put_flash s page f _ idx
@[simp] theorem putB_ecc (page : Nat) (f : Fld) (b : Bool) (idx : Nat) : (s.putB page f b idx).ecc = s.ecc := put_ecc s page f _ idx
@[simp] theorem putB_boot (page : Nat) (f : Fld) (b : Bool) (idx : Nat) : (s.putB page f b idx).boot = s.boot := put_boot s page f _ idx
@[simp] theorem putB_pins (page : Nat) (f : Fld) (b : Bool) (idx : Nat) : (s.putB page f b idx).pins = s.pins := put_pins s page f _ idx
@[simp] theorem putB_clk (page : Nat) (f : Fld) (b : Bool) (idx : Nat) : (s.putB page f b idx).clk = s.clk := put_clk s page f _ idx
@[simp] theorem putB_tsFifo (page : Nat) (f : Fld) (b : Bool) (idx : Nat) : (s.putB page f b idx).tsFifo = s.tsFifo := put_tsFifo s page f _ idx
@[simp] theorem putB_recd (page : Nat) (f : Fld) (b : Bool) (idx : Nat) : (s.putB page f b idx).recd = s.recd := put_recd s page f _ idx
@[simp] theorem putB_evd (page : Nat) (f : Fld) (b : Bool) (idx : Nat) : (s.putB page f b idx).evd = s.evd := put_evd s page f _ idx
@[simp] theorem putB_flt (page : Nat) (f : Fld) (b : Bool) (idx : Nat) : (s.putB page f b idx).flt = s.flt := put_flt s page f _ idx
@[simp] theorem putB_bus (page : Nat) (f : Fld) (b : Bool) (idx : Nat) : (s.putB page f b idx).bus = s.bus := put_bus s page f _ idx
@[simp] theorem putB_cal (page : Nat) (f : Fld) (b : Bool) (idx : Nat) : (s.putB page f b idx).cal = s.cal := put_cal s page f _ idx
@[simp] theorem putB_tly (page : Nat) (f : Fld) (b : Bool) (idx : Nat) : (s.putB page f b idx).tly = s.tly := put_tly s page f _ idx
@[simp] theorem putB_sent (page : Nat) (f : Fld) (b : Bool) (idx : Nat) : (s.putB page f b idx).sent = s.sent := put_sent s page f _ idx
@[simp] theorem putB_eth (page : Nat) (f : Fld) (b : Bool) (idx : Nat) : (s.putB page f b idx).eth = s.eth := put_eth s page f _ idx
@[simp] theorem putB_can (page : Nat) (f : Fld) (b : Bool) (idx : Nat) : (s.putB page f b idx).can = s.can := put_can s page f _ idx
@[simp] theorem putB_forceQ (page : Nat) (f : Fld) (b : Bool) (idx : Nat) : (s.putB page f b idx).forceQ = s.forceQ := put_forceQ s page f _ idx
@[simp] theorem putB_forceReq (page : Nat) (f : Fld) (b : Bool) (idx : Nat) : (s.putB page f b idx).forceReq = s.forceReq := put_forceReq s page f _ idx
@[simp] theorem putB_lastRec (page : Nat) (f : Fld) (b : Bool) (idx : Nat) : (s.putB page f b idx).lastRec = s.lastRec := put_lastRec s page f _ idx
@[simp] theorem putB_pnl (page : Nat) (f : Fld) (b : Bool) (idx : Nat) : (s.putB page f b idx).pnl = s.pnl := put_pnl s page f _ idx
@[simp] theorem putB_dio (page : Nat) (f : Fld) (b : Bool) (idx : Nat) : (s.putB page f b idx).dio = s.dio := put_dio s page f _ idx
@[simp] theorem putB_ana (page : Nat) (f : Fld) (b : Bool) (idx : Nat) : (s.putB page f b idx).ana = s.ana := put_ana s page f _ idx
@[simp] theorem putB_lpe (page : Nat) (f : Fld) (b : Bool) (idx : Nat) : (s.putB page f b idx).lpe = s.lpe := put_lpe s page f _ idx
@[simp] theorem putB_frozeAt (page : Nat) (f : Fld) (b : Bool) (idx : Nat) : (s.putB page f b idx).frozeAt = s.frozeAt := put_frozeAt s page f _ idx
@[simp] theorem putB_ax (page : Nat) (f : Fld) (b : Bool) (idx : Nat) : (s.putB page f b idx).ax = s.ax := put_ax s page f _ idx
@[simp] theorem putB_asrc (page : Nat) (f : Fld) (b : Bool) (idx : Nat) : (s.putB page f b idx).asrc = s.asrc := put_asrc s page f _ idx
@[simp] theorem putB_ang (page : Nat) (f : Fld) (b : Bool) (idx : Nat) : (s.putB page f b idx).ang = s.ang := put_ang s page f _ idx
@[simp] theorem putB_sync (page : Nat) (f : Fld) (b : Bool) (idx : Nat) : (s.putB page f b idx).sync = s.sync := put_sync s page f _ idx
@[simp] theorem putB_dwy (page : Nat) (f : Fld) (b : Bool) (idx : Nat) : (s.putB page f b idx).dwy = s.dwy := put_dwy s page f _ idx
@[simp] theorem putB_seq (page : Nat) (f : Fld) (b : Bool) (idx : Nat) : (s.putB page f b idx).seq = s.seq := put_seq s page f _ idx
@[simp] theorem putB_pair (page : Nat) (f : Fld) (b : Bool) (idx : Nat) : (s.putB page f b idx).pair = s.pair := put_pair s page f _ idx
@[simp] theorem putB_freeUses (page : Nat) (f : Fld) (b : Bool) (idx : Nat) : (s.putB page f b idx).freeUses = s.freeUses := put_freeUses s page f _ idx
@[simp] theorem putB_pending (page : Nat) (f : Fld) (b : Bool) (idx : Nat) : (s.putB page f b idx).pending = s.pending := put_pending s page f _ idx

@[simp] theorem incSat_shad (page : Nat) (f : Fld) (k idx : Nat) : (s.incSat page f k idx).shad = s.shad := put_shad s page f _ idx
@[simp] theorem incSat_buf (page : Nat) (f : Fld) (k idx : Nat) : (s.incSat page f k idx).buf = s.buf := put_buf s page f _ idx
@[simp] theorem incSat_mem (page : Nat) (f : Fld) (k idx : Nat) : (s.incSat page f k idx).mem = s.mem := put_mem s page f _ idx
@[simp] theorem incSat_flash (page : Nat) (f : Fld) (k idx : Nat) : (s.incSat page f k idx).flash = s.flash := put_flash s page f _ idx
@[simp] theorem incSat_ecc (page : Nat) (f : Fld) (k idx : Nat) : (s.incSat page f k idx).ecc = s.ecc := put_ecc s page f _ idx
@[simp] theorem incSat_boot (page : Nat) (f : Fld) (k idx : Nat) : (s.incSat page f k idx).boot = s.boot := put_boot s page f _ idx
@[simp] theorem incSat_pins (page : Nat) (f : Fld) (k idx : Nat) : (s.incSat page f k idx).pins = s.pins := put_pins s page f _ idx
@[simp] theorem incSat_clk (page : Nat) (f : Fld) (k idx : Nat) : (s.incSat page f k idx).clk = s.clk := put_clk s page f _ idx
@[simp] theorem incSat_tsFifo (page : Nat) (f : Fld) (k idx : Nat) : (s.incSat page f k idx).tsFifo = s.tsFifo := put_tsFifo s page f _ idx
@[simp] theorem incSat_recd (page : Nat) (f : Fld) (k idx : Nat) : (s.incSat page f k idx).recd = s.recd := put_recd s page f _ idx
@[simp] theorem incSat_evd (page : Nat) (f : Fld) (k idx : Nat) : (s.incSat page f k idx).evd = s.evd := put_evd s page f _ idx
@[simp] theorem incSat_flt (page : Nat) (f : Fld) (k idx : Nat) : (s.incSat page f k idx).flt = s.flt := put_flt s page f _ idx
@[simp] theorem incSat_bus (page : Nat) (f : Fld) (k idx : Nat) : (s.incSat page f k idx).bus = s.bus := put_bus s page f _ idx
@[simp] theorem incSat_cal (page : Nat) (f : Fld) (k idx : Nat) : (s.incSat page f k idx).cal = s.cal := put_cal s page f _ idx
@[simp] theorem incSat_tly (page : Nat) (f : Fld) (k idx : Nat) : (s.incSat page f k idx).tly = s.tly := put_tly s page f _ idx
@[simp] theorem incSat_sent (page : Nat) (f : Fld) (k idx : Nat) : (s.incSat page f k idx).sent = s.sent := put_sent s page f _ idx
@[simp] theorem incSat_eth (page : Nat) (f : Fld) (k idx : Nat) : (s.incSat page f k idx).eth = s.eth := put_eth s page f _ idx
@[simp] theorem incSat_can (page : Nat) (f : Fld) (k idx : Nat) : (s.incSat page f k idx).can = s.can := put_can s page f _ idx
@[simp] theorem incSat_forceQ (page : Nat) (f : Fld) (k idx : Nat) : (s.incSat page f k idx).forceQ = s.forceQ := put_forceQ s page f _ idx
@[simp] theorem incSat_forceReq (page : Nat) (f : Fld) (k idx : Nat) : (s.incSat page f k idx).forceReq = s.forceReq := put_forceReq s page f _ idx
@[simp] theorem incSat_lastRec (page : Nat) (f : Fld) (k idx : Nat) : (s.incSat page f k idx).lastRec = s.lastRec := put_lastRec s page f _ idx
@[simp] theorem incSat_pnl (page : Nat) (f : Fld) (k idx : Nat) : (s.incSat page f k idx).pnl = s.pnl := put_pnl s page f _ idx
@[simp] theorem incSat_dio (page : Nat) (f : Fld) (k idx : Nat) : (s.incSat page f k idx).dio = s.dio := put_dio s page f _ idx
@[simp] theorem incSat_ana (page : Nat) (f : Fld) (k idx : Nat) : (s.incSat page f k idx).ana = s.ana := put_ana s page f _ idx
@[simp] theorem incSat_lpe (page : Nat) (f : Fld) (k idx : Nat) : (s.incSat page f k idx).lpe = s.lpe := put_lpe s page f _ idx
@[simp] theorem incSat_frozeAt (page : Nat) (f : Fld) (k idx : Nat) : (s.incSat page f k idx).frozeAt = s.frozeAt := put_frozeAt s page f _ idx
@[simp] theorem incSat_ax (page : Nat) (f : Fld) (k idx : Nat) : (s.incSat page f k idx).ax = s.ax := put_ax s page f _ idx
@[simp] theorem incSat_asrc (page : Nat) (f : Fld) (k idx : Nat) : (s.incSat page f k idx).asrc = s.asrc := put_asrc s page f _ idx
@[simp] theorem incSat_ang (page : Nat) (f : Fld) (k idx : Nat) : (s.incSat page f k idx).ang = s.ang := put_ang s page f _ idx
@[simp] theorem incSat_sync (page : Nat) (f : Fld) (k idx : Nat) : (s.incSat page f k idx).sync = s.sync := put_sync s page f _ idx
@[simp] theorem incSat_dwy (page : Nat) (f : Fld) (k idx : Nat) : (s.incSat page f k idx).dwy = s.dwy := put_dwy s page f _ idx
@[simp] theorem incSat_seq (page : Nat) (f : Fld) (k idx : Nat) : (s.incSat page f k idx).seq = s.seq := put_seq s page f _ idx
@[simp] theorem incSat_pair (page : Nat) (f : Fld) (k idx : Nat) : (s.incSat page f k idx).pair = s.pair := put_pair s page f _ idx
@[simp] theorem incSat_freeUses (page : Nat) (f : Fld) (k idx : Nat) : (s.incSat page f k idx).freeUses = s.freeUses := put_freeUses s page f _ idx
@[simp] theorem incSat_pending (page : Nat) (f : Fld) (k idx : Nat) : (s.incSat page f k idx).pending = s.pending := put_pending s page f _ idx

@[simp] theorem incMod_shad (page : Nat) (f : Fld) (k idx : Nat) : (s.incMod page f k idx).shad = s.shad := put_shad s page f _ idx
@[simp] theorem incMod_buf (page : Nat) (f : Fld) (k idx : Nat) : (s.incMod page f k idx).buf = s.buf := put_buf s page f _ idx
@[simp] theorem incMod_mem (page : Nat) (f : Fld) (k idx : Nat) : (s.incMod page f k idx).mem = s.mem := put_mem s page f _ idx
@[simp] theorem incMod_flash (page : Nat) (f : Fld) (k idx : Nat) : (s.incMod page f k idx).flash = s.flash := put_flash s page f _ idx
@[simp] theorem incMod_ecc (page : Nat) (f : Fld) (k idx : Nat) : (s.incMod page f k idx).ecc = s.ecc := put_ecc s page f _ idx
@[simp] theorem incMod_boot (page : Nat) (f : Fld) (k idx : Nat) : (s.incMod page f k idx).boot = s.boot := put_boot s page f _ idx
@[simp] theorem incMod_pins (page : Nat) (f : Fld) (k idx : Nat) : (s.incMod page f k idx).pins = s.pins := put_pins s page f _ idx
@[simp] theorem incMod_clk (page : Nat) (f : Fld) (k idx : Nat) : (s.incMod page f k idx).clk = s.clk := put_clk s page f _ idx
@[simp] theorem incMod_tsFifo (page : Nat) (f : Fld) (k idx : Nat) : (s.incMod page f k idx).tsFifo = s.tsFifo := put_tsFifo s page f _ idx
@[simp] theorem incMod_recd (page : Nat) (f : Fld) (k idx : Nat) : (s.incMod page f k idx).recd = s.recd := put_recd s page f _ idx
@[simp] theorem incMod_evd (page : Nat) (f : Fld) (k idx : Nat) : (s.incMod page f k idx).evd = s.evd := put_evd s page f _ idx
@[simp] theorem incMod_flt (page : Nat) (f : Fld) (k idx : Nat) : (s.incMod page f k idx).flt = s.flt := put_flt s page f _ idx
@[simp] theorem incMod_bus (page : Nat) (f : Fld) (k idx : Nat) : (s.incMod page f k idx).bus = s.bus := put_bus s page f _ idx
@[simp] theorem incMod_cal (page : Nat) (f : Fld) (k idx : Nat) : (s.incMod page f k idx).cal = s.cal := put_cal s page f _ idx
@[simp] theorem incMod_tly (page : Nat) (f : Fld) (k idx : Nat) : (s.incMod page f k idx).tly = s.tly := put_tly s page f _ idx
@[simp] theorem incMod_sent (page : Nat) (f : Fld) (k idx : Nat) : (s.incMod page f k idx).sent = s.sent := put_sent s page f _ idx
@[simp] theorem incMod_eth (page : Nat) (f : Fld) (k idx : Nat) : (s.incMod page f k idx).eth = s.eth := put_eth s page f _ idx
@[simp] theorem incMod_can (page : Nat) (f : Fld) (k idx : Nat) : (s.incMod page f k idx).can = s.can := put_can s page f _ idx
@[simp] theorem incMod_forceQ (page : Nat) (f : Fld) (k idx : Nat) : (s.incMod page f k idx).forceQ = s.forceQ := put_forceQ s page f _ idx
@[simp] theorem incMod_forceReq (page : Nat) (f : Fld) (k idx : Nat) : (s.incMod page f k idx).forceReq = s.forceReq := put_forceReq s page f _ idx
@[simp] theorem incMod_lastRec (page : Nat) (f : Fld) (k idx : Nat) : (s.incMod page f k idx).lastRec = s.lastRec := put_lastRec s page f _ idx
@[simp] theorem incMod_pnl (page : Nat) (f : Fld) (k idx : Nat) : (s.incMod page f k idx).pnl = s.pnl := put_pnl s page f _ idx
@[simp] theorem incMod_dio (page : Nat) (f : Fld) (k idx : Nat) : (s.incMod page f k idx).dio = s.dio := put_dio s page f _ idx
@[simp] theorem incMod_ana (page : Nat) (f : Fld) (k idx : Nat) : (s.incMod page f k idx).ana = s.ana := put_ana s page f _ idx
@[simp] theorem incMod_lpe (page : Nat) (f : Fld) (k idx : Nat) : (s.incMod page f k idx).lpe = s.lpe := put_lpe s page f _ idx
@[simp] theorem incMod_frozeAt (page : Nat) (f : Fld) (k idx : Nat) : (s.incMod page f k idx).frozeAt = s.frozeAt := put_frozeAt s page f _ idx
@[simp] theorem incMod_ax (page : Nat) (f : Fld) (k idx : Nat) : (s.incMod page f k idx).ax = s.ax := put_ax s page f _ idx
@[simp] theorem incMod_asrc (page : Nat) (f : Fld) (k idx : Nat) : (s.incMod page f k idx).asrc = s.asrc := put_asrc s page f _ idx
@[simp] theorem incMod_ang (page : Nat) (f : Fld) (k idx : Nat) : (s.incMod page f k idx).ang = s.ang := put_ang s page f _ idx
@[simp] theorem incMod_sync (page : Nat) (f : Fld) (k idx : Nat) : (s.incMod page f k idx).sync = s.sync := put_sync s page f _ idx
@[simp] theorem incMod_dwy (page : Nat) (f : Fld) (k idx : Nat) : (s.incMod page f k idx).dwy = s.dwy := put_dwy s page f _ idx
@[simp] theorem incMod_seq (page : Nat) (f : Fld) (k idx : Nat) : (s.incMod page f k idx).seq = s.seq := put_seq s page f _ idx
@[simp] theorem incMod_pair (page : Nat) (f : Fld) (k idx : Nat) : (s.incMod page f k idx).pair = s.pair := put_pair s page f _ idx
@[simp] theorem incMod_freeUses (page : Nat) (f : Fld) (k idx : Nat) : (s.incMod page f k idx).freeUses = s.freeUses := put_freeUses s page f _ idx
@[simp] theorem incMod_pending (page : Nat) (f : Fld) (k idx : Nat) : (s.incMod page f k idx).pending = s.pending := put_pending s page f _ idx

@[simp] theorem setDom_shad (d v : Nat) : (s.setDom d v).shad = s.shad := put_shad s pgPWR _ _ 0
@[simp] theorem setDom_buf (d v : Nat) : (s.setDom d v).buf = s.buf := put_buf s pgPWR _ _ 0
@[simp] theorem setDom_mem (d v : Nat) : (s.setDom d v).mem = s.mem := put_mem s pgPWR _ _ 0
@[simp] theorem setDom_flash (d v : Nat) : (s.setDom d v).flash = s.flash := put_flash s pgPWR _ _ 0
@[simp] theorem setDom_ecc (d v : Nat) : (s.setDom d v).ecc = s.ecc := put_ecc s pgPWR _ _ 0
@[simp] theorem setDom_boot (d v : Nat) : (s.setDom d v).boot = s.boot := put_boot s pgPWR _ _ 0
@[simp] theorem setDom_pins (d v : Nat) : (s.setDom d v).pins = s.pins := put_pins s pgPWR _ _ 0
@[simp] theorem setDom_clk (d v : Nat) : (s.setDom d v).clk = s.clk := put_clk s pgPWR _ _ 0
@[simp] theorem setDom_tsFifo (d v : Nat) : (s.setDom d v).tsFifo = s.tsFifo := put_tsFifo s pgPWR _ _ 0
@[simp] theorem setDom_recd (d v : Nat) : (s.setDom d v).recd = s.recd := put_recd s pgPWR _ _ 0
@[simp] theorem setDom_evd (d v : Nat) : (s.setDom d v).evd = s.evd := put_evd s pgPWR _ _ 0
@[simp] theorem setDom_flt (d v : Nat) : (s.setDom d v).flt = s.flt := put_flt s pgPWR _ _ 0
@[simp] theorem setDom_bus (d v : Nat) : (s.setDom d v).bus = s.bus := put_bus s pgPWR _ _ 0
@[simp] theorem setDom_cal (d v : Nat) : (s.setDom d v).cal = s.cal := put_cal s pgPWR _ _ 0
@[simp] theorem setDom_tly (d v : Nat) : (s.setDom d v).tly = s.tly := put_tly s pgPWR _ _ 0
@[simp] theorem setDom_sent (d v : Nat) : (s.setDom d v).sent = s.sent := put_sent s pgPWR _ _ 0
@[simp] theorem setDom_eth (d v : Nat) : (s.setDom d v).eth = s.eth := put_eth s pgPWR _ _ 0
@[simp] theorem setDom_can (d v : Nat) : (s.setDom d v).can = s.can := put_can s pgPWR _ _ 0
@[simp] theorem setDom_forceQ (d v : Nat) : (s.setDom d v).forceQ = s.forceQ := put_forceQ s pgPWR _ _ 0
@[simp] theorem setDom_forceReq (d v : Nat) : (s.setDom d v).forceReq = s.forceReq := put_forceReq s pgPWR _ _ 0
@[simp] theorem setDom_lastRec (d v : Nat) : (s.setDom d v).lastRec = s.lastRec := put_lastRec s pgPWR _ _ 0
@[simp] theorem setDom_pnl (d v : Nat) : (s.setDom d v).pnl = s.pnl := put_pnl s pgPWR _ _ 0
@[simp] theorem setDom_dio (d v : Nat) : (s.setDom d v).dio = s.dio := put_dio s pgPWR _ _ 0
@[simp] theorem setDom_ana (d v : Nat) : (s.setDom d v).ana = s.ana := put_ana s pgPWR _ _ 0
@[simp] theorem setDom_lpe (d v : Nat) : (s.setDom d v).lpe = s.lpe := put_lpe s pgPWR _ _ 0
@[simp] theorem setDom_frozeAt (d v : Nat) : (s.setDom d v).frozeAt = s.frozeAt := put_frozeAt s pgPWR _ _ 0
@[simp] theorem setDom_ax (d v : Nat) : (s.setDom d v).ax = s.ax := put_ax s pgPWR _ _ 0
@[simp] theorem setDom_asrc (d v : Nat) : (s.setDom d v).asrc = s.asrc := put_asrc s pgPWR _ _ 0
@[simp] theorem setDom_ang (d v : Nat) : (s.setDom d v).ang = s.ang := put_ang s pgPWR _ _ 0
@[simp] theorem setDom_sync (d v : Nat) : (s.setDom d v).sync = s.sync := put_sync s pgPWR _ _ 0
@[simp] theorem setDom_dwy (d v : Nat) : (s.setDom d v).dwy = s.dwy := put_dwy s pgPWR _ _ 0
@[simp] theorem setDom_seq (d v : Nat) : (s.setDom d v).seq = s.seq := put_seq s pgPWR _ _ 0
@[simp] theorem setDom_pair (d v : Nat) : (s.setDom d v).pair = s.pair := put_pair s pgPWR _ _ 0
@[simp] theorem setDom_freeUses (d v : Nat) : (s.setDom d v).freeUses = s.freeUses := put_freeUses s pgPWR _ _ 0
@[simp] theorem setDom_pending (d v : Nat) : (s.setDom d v).pending = s.pending := put_pending s pgPWR _ _ 0

@[simp] theorem setSt_shad (page v : Nat) : (s.setSt page v).shad = s.shad := put_shad s page _ v 0
@[simp] theorem setSt_buf (page v : Nat) : (s.setSt page v).buf = s.buf := put_buf s page _ v 0
@[simp] theorem setSt_mem (page v : Nat) : (s.setSt page v).mem = s.mem := put_mem s page _ v 0
@[simp] theorem setSt_flash (page v : Nat) : (s.setSt page v).flash = s.flash := put_flash s page _ v 0
@[simp] theorem setSt_ecc (page v : Nat) : (s.setSt page v).ecc = s.ecc := put_ecc s page _ v 0
@[simp] theorem setSt_boot (page v : Nat) : (s.setSt page v).boot = s.boot := put_boot s page _ v 0
@[simp] theorem setSt_pins (page v : Nat) : (s.setSt page v).pins = s.pins := put_pins s page _ v 0
@[simp] theorem setSt_clk (page v : Nat) : (s.setSt page v).clk = s.clk := put_clk s page _ v 0
@[simp] theorem setSt_tsFifo (page v : Nat) : (s.setSt page v).tsFifo = s.tsFifo := put_tsFifo s page _ v 0
@[simp] theorem setSt_recd (page v : Nat) : (s.setSt page v).recd = s.recd := put_recd s page _ v 0
@[simp] theorem setSt_evd (page v : Nat) : (s.setSt page v).evd = s.evd := put_evd s page _ v 0
@[simp] theorem setSt_flt (page v : Nat) : (s.setSt page v).flt = s.flt := put_flt s page _ v 0
@[simp] theorem setSt_bus (page v : Nat) : (s.setSt page v).bus = s.bus := put_bus s page _ v 0
@[simp] theorem setSt_cal (page v : Nat) : (s.setSt page v).cal = s.cal := put_cal s page _ v 0
@[simp] theorem setSt_tly (page v : Nat) : (s.setSt page v).tly = s.tly := put_tly s page _ v 0
@[simp] theorem setSt_sent (page v : Nat) : (s.setSt page v).sent = s.sent := put_sent s page _ v 0
@[simp] theorem setSt_eth (page v : Nat) : (s.setSt page v).eth = s.eth := put_eth s page _ v 0
@[simp] theorem setSt_can (page v : Nat) : (s.setSt page v).can = s.can := put_can s page _ v 0
@[simp] theorem setSt_forceQ (page v : Nat) : (s.setSt page v).forceQ = s.forceQ := put_forceQ s page _ v 0
@[simp] theorem setSt_forceReq (page v : Nat) : (s.setSt page v).forceReq = s.forceReq := put_forceReq s page _ v 0
@[simp] theorem setSt_lastRec (page v : Nat) : (s.setSt page v).lastRec = s.lastRec := put_lastRec s page _ v 0
@[simp] theorem setSt_pnl (page v : Nat) : (s.setSt page v).pnl = s.pnl := put_pnl s page _ v 0
@[simp] theorem setSt_dio (page v : Nat) : (s.setSt page v).dio = s.dio := put_dio s page _ v 0
@[simp] theorem setSt_ana (page v : Nat) : (s.setSt page v).ana = s.ana := put_ana s page _ v 0
@[simp] theorem setSt_lpe (page v : Nat) : (s.setSt page v).lpe = s.lpe := put_lpe s page _ v 0
@[simp] theorem setSt_frozeAt (page v : Nat) : (s.setSt page v).frozeAt = s.frozeAt := put_frozeAt s page _ v 0
@[simp] theorem setSt_ax (page v : Nat) : (s.setSt page v).ax = s.ax := put_ax s page _ v 0
@[simp] theorem setSt_asrc (page v : Nat) : (s.setSt page v).asrc = s.asrc := put_asrc s page _ v 0
@[simp] theorem setSt_ang (page v : Nat) : (s.setSt page v).ang = s.ang := put_ang s page _ v 0
@[simp] theorem setSt_sync (page v : Nat) : (s.setSt page v).sync = s.sync := put_sync s page _ v 0
@[simp] theorem setSt_dwy (page v : Nat) : (s.setSt page v).dwy = s.dwy := put_dwy s page _ v 0
@[simp] theorem setSt_seq (page v : Nat) : (s.setSt page v).seq = s.seq := put_seq s page _ v 0
@[simp] theorem setSt_pair (page v : Nat) : (s.setSt page v).pair = s.pair := put_pair s page _ v 0
@[simp] theorem setSt_freeUses (page v : Nat) : (s.setSt page v).freeUses = s.freeUses := put_freeUses s page _ v 0
@[simp] theorem setSt_pending (page v : Nat) : (s.setSt page v).pending = s.pending := put_pending s page _ v 0

@[simp] theorem setShadow_regs (page off : Nat) (w : Word) (idx : Nat) : (s.setShadow page off w idx).regs = s.regs := (rfl)
@[simp] theorem setShadow_buf (page off : Nat) (w : Word) (idx : Nat) : (s.setShadow page off w idx).buf = s.buf := (rfl)
@[simp] theorem setShadow_mem (page off : Nat) (w : Word) (idx : Nat) : (s.setShadow page off w idx).mem = s.mem := (rfl)
@[simp] theorem setShadow_flash (page off : Nat) (w : Word) (idx : Nat) : (s.setShadow page off w idx).flash = s.flash := (rfl)
@[simp] theorem setShadow_ecc (page off : Nat) (w : Word) (idx : Nat) : (s.setShadow page off w idx).ecc = s.ecc := (rfl)
@[simp] theorem setShadow_boot (page off : Nat) (w : Word) (idx : Nat) : (s.setShadow page off w idx).boot = s.boot := (rfl)
@[simp] theorem setShadow_pins (page off : Nat) (w : Word) (idx : Nat) : (s.setShadow page off w idx).pins = s.pins := (rfl)
@[simp] theorem setShadow_clk (page off : Nat) (w : Word) (idx : Nat) : (s.setShadow page off w idx).clk = s.clk := (rfl)
@[simp] theorem setShadow_tsFifo (page off : Nat) (w : Word) (idx : Nat) : (s.setShadow page off w idx).tsFifo = s.tsFifo := (rfl)
@[simp] theorem setShadow_recd (page off : Nat) (w : Word) (idx : Nat) : (s.setShadow page off w idx).recd = s.recd := (rfl)
@[simp] theorem setShadow_evd (page off : Nat) (w : Word) (idx : Nat) : (s.setShadow page off w idx).evd = s.evd := (rfl)
@[simp] theorem setShadow_flt (page off : Nat) (w : Word) (idx : Nat) : (s.setShadow page off w idx).flt = s.flt := (rfl)
@[simp] theorem setShadow_bus (page off : Nat) (w : Word) (idx : Nat) : (s.setShadow page off w idx).bus = s.bus := (rfl)
@[simp] theorem setShadow_cal (page off : Nat) (w : Word) (idx : Nat) : (s.setShadow page off w idx).cal = s.cal := (rfl)
@[simp] theorem setShadow_tly (page off : Nat) (w : Word) (idx : Nat) : (s.setShadow page off w idx).tly = s.tly := (rfl)
@[simp] theorem setShadow_sent (page off : Nat) (w : Word) (idx : Nat) : (s.setShadow page off w idx).sent = s.sent := (rfl)
@[simp] theorem setShadow_eth (page off : Nat) (w : Word) (idx : Nat) : (s.setShadow page off w idx).eth = s.eth := (rfl)
@[simp] theorem setShadow_can (page off : Nat) (w : Word) (idx : Nat) : (s.setShadow page off w idx).can = s.can := (rfl)
@[simp] theorem setShadow_forceQ (page off : Nat) (w : Word) (idx : Nat) : (s.setShadow page off w idx).forceQ = s.forceQ := (rfl)
@[simp] theorem setShadow_forceReq (page off : Nat) (w : Word) (idx : Nat) : (s.setShadow page off w idx).forceReq = s.forceReq := (rfl)
@[simp] theorem setShadow_lastRec (page off : Nat) (w : Word) (idx : Nat) : (s.setShadow page off w idx).lastRec = s.lastRec := (rfl)
@[simp] theorem setShadow_pnl (page off : Nat) (w : Word) (idx : Nat) : (s.setShadow page off w idx).pnl = s.pnl := (rfl)
@[simp] theorem setShadow_dio (page off : Nat) (w : Word) (idx : Nat) : (s.setShadow page off w idx).dio = s.dio := (rfl)
@[simp] theorem setShadow_ana (page off : Nat) (w : Word) (idx : Nat) : (s.setShadow page off w idx).ana = s.ana := (rfl)
@[simp] theorem setShadow_lpe (page off : Nat) (w : Word) (idx : Nat) : (s.setShadow page off w idx).lpe = s.lpe := (rfl)
@[simp] theorem setShadow_frozeAt (page off : Nat) (w : Word) (idx : Nat) : (s.setShadow page off w idx).frozeAt = s.frozeAt := (rfl)
@[simp] theorem setShadow_ax (page off : Nat) (w : Word) (idx : Nat) : (s.setShadow page off w idx).ax = s.ax := (rfl)
@[simp] theorem setShadow_asrc (page off : Nat) (w : Word) (idx : Nat) : (s.setShadow page off w idx).asrc = s.asrc := (rfl)
@[simp] theorem setShadow_ang (page off : Nat) (w : Word) (idx : Nat) : (s.setShadow page off w idx).ang = s.ang := (rfl)
@[simp] theorem setShadow_sync (page off : Nat) (w : Word) (idx : Nat) : (s.setShadow page off w idx).sync = s.sync := (rfl)
@[simp] theorem setShadow_dwy (page off : Nat) (w : Word) (idx : Nat) : (s.setShadow page off w idx).dwy = s.dwy := (rfl)
@[simp] theorem setShadow_seq (page off : Nat) (w : Word) (idx : Nat) : (s.setShadow page off w idx).seq = s.seq := (rfl)
@[simp] theorem setShadow_pair (page off : Nat) (w : Word) (idx : Nat) : (s.setShadow page off w idx).pair = s.pair := (rfl)
@[simp] theorem setShadow_freeUses (page off : Nat) (w : Word) (idx : Nat) : (s.setShadow page off w idx).freeUses = s.freeUses := (rfl)
@[simp] theorem setShadow_pending (page off : Nat) (w : Word) (idx : Nat) : (s.setShadow page off w idx).pending = s.pending := (rfl)

@[simp] theorem setBoot_regs (b : Boot) : (s.setBoot b).regs = s.regs := (rfl)
@[simp] theorem setBoot_shad (b : Boot) : (s.setBoot b).shad = s.shad := (rfl)
@[simp] theorem setBoot_buf (b : Boot) : (s.setBoot b).buf = s.buf := (rfl)
@[simp] theorem setBoot_mem (b : Boot) : (s.setBoot b).mem = s.mem := (rfl)
@[simp] theorem setBoot_flash (b : Boot) : (s.setBoot b).flash = s.flash := (rfl)
@[simp] theorem setBoot_ecc (b : Boot) : (s.setBoot b).ecc = s.ecc := (rfl)
@[simp] theorem setBoot_pins (b : Boot) : (s.setBoot b).pins = s.pins := (rfl)
@[simp] theorem setBoot_clk (b : Boot) : (s.setBoot b).clk = s.clk := (rfl)
@[simp] theorem setBoot_tsFifo (b : Boot) : (s.setBoot b).tsFifo = s.tsFifo := (rfl)
@[simp] theorem setBoot_recd (b : Boot) : (s.setBoot b).recd = s.recd := (rfl)
@[simp] theorem setBoot_evd (b : Boot) : (s.setBoot b).evd = s.evd := (rfl)
@[simp] theorem setBoot_flt (b : Boot) : (s.setBoot b).flt = s.flt := (rfl)
@[simp] theorem setBoot_bus (b : Boot) : (s.setBoot b).bus = s.bus := (rfl)
@[simp] theorem setBoot_cal (b : Boot) : (s.setBoot b).cal = s.cal := (rfl)
@[simp] theorem setBoot_tly (b : Boot) : (s.setBoot b).tly = s.tly := (rfl)
@[simp] theorem setBoot_sent (b : Boot) : (s.setBoot b).sent = s.sent := (rfl)
@[simp] theorem setBoot_eth (b : Boot) : (s.setBoot b).eth = s.eth := (rfl)
@[simp] theorem setBoot_can (b : Boot) : (s.setBoot b).can = s.can := (rfl)
@[simp] theorem setBoot_forceQ (b : Boot) : (s.setBoot b).forceQ = s.forceQ := (rfl)
@[simp] theorem setBoot_forceReq (b : Boot) : (s.setBoot b).forceReq = s.forceReq := (rfl)
@[simp] theorem setBoot_lastRec (b : Boot) : (s.setBoot b).lastRec = s.lastRec := (rfl)
@[simp] theorem setBoot_pnl (b : Boot) : (s.setBoot b).pnl = s.pnl := (rfl)
@[simp] theorem setBoot_dio (b : Boot) : (s.setBoot b).dio = s.dio := (rfl)
@[simp] theorem setBoot_ana (b : Boot) : (s.setBoot b).ana = s.ana := (rfl)
@[simp] theorem setBoot_lpe (b : Boot) : (s.setBoot b).lpe = s.lpe := (rfl)
@[simp] theorem setBoot_frozeAt (b : Boot) : (s.setBoot b).frozeAt = s.frozeAt := (rfl)
@[simp] theorem setBoot_ax (b : Boot) : (s.setBoot b).ax = s.ax := (rfl)
@[simp] theorem setBoot_asrc (b : Boot) : (s.setBoot b).asrc = s.asrc := (rfl)
@[simp] theorem setBoot_ang (b : Boot) : (s.setBoot b).ang = s.ang := (rfl)
@[simp] theorem setBoot_sync (b : Boot) : (s.setBoot b).sync = s.sync := (rfl)
@[simp] theorem setBoot_dwy (b : Boot) : (s.setBoot b).dwy = s.dwy := (rfl)
@[simp] theorem setBoot_seq (b : Boot) : (s.setBoot b).seq = s.seq := (rfl)
@[simp] theorem setBoot_pair (b : Boot) : (s.setBoot b).pair = s.pair := (rfl)
@[simp] theorem setBoot_freeUses (b : Boot) : (s.setBoot b).freeUses = s.freeUses := (rfl)
@[simp] theorem setBoot_pending (b : Boot) : (s.setBoot b).pending = s.pending := (rfl)

@[simp] theorem useFree_regs (n : Nat) : (s.useFree n).regs = s.regs := (rfl)
@[simp] theorem useFree_shad (n : Nat) : (s.useFree n).shad = s.shad := (rfl)
@[simp] theorem useFree_buf (n : Nat) : (s.useFree n).buf = s.buf := (rfl)
@[simp] theorem useFree_mem (n : Nat) : (s.useFree n).mem = s.mem := (rfl)
@[simp] theorem useFree_flash (n : Nat) : (s.useFree n).flash = s.flash := (rfl)
@[simp] theorem useFree_ecc (n : Nat) : (s.useFree n).ecc = s.ecc := (rfl)
@[simp] theorem useFree_boot (n : Nat) : (s.useFree n).boot = s.boot := (rfl)
@[simp] theorem useFree_pins (n : Nat) : (s.useFree n).pins = s.pins := (rfl)
@[simp] theorem useFree_clk (n : Nat) : (s.useFree n).clk = s.clk := (rfl)
@[simp] theorem useFree_tsFifo (n : Nat) : (s.useFree n).tsFifo = s.tsFifo := (rfl)
@[simp] theorem useFree_recd (n : Nat) : (s.useFree n).recd = s.recd := (rfl)
@[simp] theorem useFree_evd (n : Nat) : (s.useFree n).evd = s.evd := (rfl)
@[simp] theorem useFree_flt (n : Nat) : (s.useFree n).flt = s.flt := (rfl)
@[simp] theorem useFree_bus (n : Nat) : (s.useFree n).bus = s.bus := (rfl)
@[simp] theorem useFree_cal (n : Nat) : (s.useFree n).cal = s.cal := (rfl)
@[simp] theorem useFree_tly (n : Nat) : (s.useFree n).tly = s.tly := (rfl)
@[simp] theorem useFree_sent (n : Nat) : (s.useFree n).sent = s.sent := (rfl)
@[simp] theorem useFree_eth (n : Nat) : (s.useFree n).eth = s.eth := (rfl)
@[simp] theorem useFree_can (n : Nat) : (s.useFree n).can = s.can := (rfl)
@[simp] theorem useFree_forceQ (n : Nat) : (s.useFree n).forceQ = s.forceQ := (rfl)
@[simp] theorem useFree_forceReq (n : Nat) : (s.useFree n).forceReq = s.forceReq := (rfl)
@[simp] theorem useFree_lastRec (n : Nat) : (s.useFree n).lastRec = s.lastRec := (rfl)
@[simp] theorem useFree_pnl (n : Nat) : (s.useFree n).pnl = s.pnl := (rfl)
@[simp] theorem useFree_dio (n : Nat) : (s.useFree n).dio = s.dio := (rfl)
@[simp] theorem useFree_ana (n : Nat) : (s.useFree n).ana = s.ana := (rfl)
@[simp] theorem useFree_lpe (n : Nat) : (s.useFree n).lpe = s.lpe := (rfl)
@[simp] theorem useFree_frozeAt (n : Nat) : (s.useFree n).frozeAt = s.frozeAt := (rfl)
@[simp] theorem useFree_ax (n : Nat) : (s.useFree n).ax = s.ax := (rfl)
@[simp] theorem useFree_asrc (n : Nat) : (s.useFree n).asrc = s.asrc := (rfl)
@[simp] theorem useFree_ang (n : Nat) : (s.useFree n).ang = s.ang := (rfl)
@[simp] theorem useFree_sync (n : Nat) : (s.useFree n).sync = s.sync := (rfl)
@[simp] theorem useFree_dwy (n : Nat) : (s.useFree n).dwy = s.dwy := (rfl)
@[simp] theorem useFree_seq (n : Nat) : (s.useFree n).seq = s.seq := (rfl)
@[simp] theorem useFree_pair (n : Nat) : (s.useFree n).pair = s.pair := (rfl)
@[simp] theorem useFree_pending (n : Nat) : (s.useFree n).pending = s.pending := (rfl)

@[simp] theorem setTask_regs (k : Nat) (t : TaskRt) : (s.setTask k t).regs = s.regs := (rfl)
@[simp] theorem setTask_shad (k : Nat) (t : TaskRt) : (s.setTask k t).shad = s.shad := (rfl)
@[simp] theorem setTask_buf (k : Nat) (t : TaskRt) : (s.setTask k t).buf = s.buf := (rfl)
@[simp] theorem setTask_mem (k : Nat) (t : TaskRt) : (s.setTask k t).mem = s.mem := (rfl)
@[simp] theorem setTask_flash (k : Nat) (t : TaskRt) : (s.setTask k t).flash = s.flash := (rfl)
@[simp] theorem setTask_ecc (k : Nat) (t : TaskRt) : (s.setTask k t).ecc = s.ecc := (rfl)
@[simp] theorem setTask_boot (k : Nat) (t : TaskRt) : (s.setTask k t).boot = s.boot := (rfl)
@[simp] theorem setTask_pins (k : Nat) (t : TaskRt) : (s.setTask k t).pins = s.pins := (rfl)
@[simp] theorem setTask_clk (k : Nat) (t : TaskRt) : (s.setTask k t).clk = s.clk := (rfl)
@[simp] theorem setTask_tsFifo (k : Nat) (t : TaskRt) : (s.setTask k t).tsFifo = s.tsFifo := (rfl)
@[simp] theorem setTask_recd (k : Nat) (t : TaskRt) : (s.setTask k t).recd = s.recd := (rfl)
@[simp] theorem setTask_evd (k : Nat) (t : TaskRt) : (s.setTask k t).evd = s.evd := (rfl)
@[simp] theorem setTask_flt (k : Nat) (t : TaskRt) : (s.setTask k t).flt = s.flt := (rfl)
@[simp] theorem setTask_bus (k : Nat) (t : TaskRt) : (s.setTask k t).bus = s.bus := (rfl)
@[simp] theorem setTask_cal (k : Nat) (t : TaskRt) : (s.setTask k t).cal = s.cal := (rfl)
@[simp] theorem setTask_tly (k : Nat) (t : TaskRt) : (s.setTask k t).tly = s.tly := (rfl)
@[simp] theorem setTask_sent (k : Nat) (t : TaskRt) : (s.setTask k t).sent = s.sent := (rfl)
@[simp] theorem setTask_eth (k : Nat) (t : TaskRt) : (s.setTask k t).eth = s.eth := (rfl)
@[simp] theorem setTask_can (k : Nat) (t : TaskRt) : (s.setTask k t).can = s.can := (rfl)
@[simp] theorem setTask_forceQ (k : Nat) (t : TaskRt) : (s.setTask k t).forceQ = s.forceQ := (rfl)
@[simp] theorem setTask_forceReq (k : Nat) (t : TaskRt) : (s.setTask k t).forceReq = s.forceReq := (rfl)
@[simp] theorem setTask_lastRec (k : Nat) (t : TaskRt) : (s.setTask k t).lastRec = s.lastRec := (rfl)
@[simp] theorem setTask_pnl (k : Nat) (t : TaskRt) : (s.setTask k t).pnl = s.pnl := (rfl)
@[simp] theorem setTask_dio (k : Nat) (t : TaskRt) : (s.setTask k t).dio = s.dio := (rfl)
@[simp] theorem setTask_ana (k : Nat) (t : TaskRt) : (s.setTask k t).ana = s.ana := (rfl)
@[simp] theorem setTask_lpe (k : Nat) (t : TaskRt) : (s.setTask k t).lpe = s.lpe := (rfl)
@[simp] theorem setTask_frozeAt (k : Nat) (t : TaskRt) : (s.setTask k t).frozeAt = s.frozeAt := (rfl)
@[simp] theorem setTask_ax (k : Nat) (t : TaskRt) : (s.setTask k t).ax = s.ax := (rfl)
@[simp] theorem setTask_asrc (k : Nat) (t : TaskRt) : (s.setTask k t).asrc = s.asrc := (rfl)
@[simp] theorem setTask_ang (k : Nat) (t : TaskRt) : (s.setTask k t).ang = s.ang := (rfl)
@[simp] theorem setTask_sync (k : Nat) (t : TaskRt) : (s.setTask k t).sync = s.sync := (rfl)
@[simp] theorem setTask_dwy (k : Nat) (t : TaskRt) : (s.setTask k t).dwy = s.dwy := (rfl)
@[simp] theorem setTask_pair (k : Nat) (t : TaskRt) : (s.setTask k t).pair = s.pair := (rfl)
@[simp] theorem setTask_freeUses (k : Nat) (t : TaskRt) : (s.setTask k t).freeUses = s.freeUses := (rfl)
@[simp] theorem setTask_pending (k : Nat) (t : TaskRt) : (s.setTask k t).pending = s.pending := (rfl)

@[simp] theorem cond_regs (page b : Nat) (c : Bool) : (s.cond page b c).regs = s.regs := (rfl)
@[simp] theorem cond_shad (page b : Nat) (c : Bool) : (s.cond page b c).shad = s.shad := (rfl)
@[simp] theorem cond_buf (page b : Nat) (c : Bool) : (s.cond page b c).buf = s.buf := (rfl)
@[simp] theorem cond_mem (page b : Nat) (c : Bool) : (s.cond page b c).mem = s.mem := (rfl)
@[simp] theorem cond_flash (page b : Nat) (c : Bool) : (s.cond page b c).flash = s.flash := (rfl)
@[simp] theorem cond_ecc (page b : Nat) (c : Bool) : (s.cond page b c).ecc = s.ecc := (rfl)
@[simp] theorem cond_boot (page b : Nat) (c : Bool) : (s.cond page b c).boot = s.boot := (rfl)
@[simp] theorem cond_pins (page b : Nat) (c : Bool) : (s.cond page b c).pins = s.pins := (rfl)
@[simp] theorem cond_clk (page b : Nat) (c : Bool) : (s.cond page b c).clk = s.clk := (rfl)
@[simp] theorem cond_tsFifo (page b : Nat) (c : Bool) : (s.cond page b c).tsFifo = s.tsFifo := (rfl)
@[simp] theorem cond_recd (page b : Nat) (c : Bool) : (s.cond page b c).recd = s.recd := (rfl)
@[simp] theorem cond_evd (page b : Nat) (c : Bool) : (s.cond page b c).evd = s.evd := (rfl)
@[simp] theorem cond_bus (page b : Nat) (c : Bool) : (s.cond page b c).bus = s.bus := (rfl)
@[simp] theorem cond_cal (page b : Nat) (c : Bool) : (s.cond page b c).cal = s.cal := (rfl)
@[simp] theorem cond_tly (page b : Nat) (c : Bool) : (s.cond page b c).tly = s.tly := (rfl)
@[simp] theorem cond_sent (page b : Nat) (c : Bool) : (s.cond page b c).sent = s.sent := (rfl)
@[simp] theorem cond_eth (page b : Nat) (c : Bool) : (s.cond page b c).eth = s.eth := (rfl)
@[simp] theorem cond_can (page b : Nat) (c : Bool) : (s.cond page b c).can = s.can := (rfl)
@[simp] theorem cond_forceQ (page b : Nat) (c : Bool) : (s.cond page b c).forceQ = s.forceQ := (rfl)
@[simp] theorem cond_forceReq (page b : Nat) (c : Bool) : (s.cond page b c).forceReq = s.forceReq := (rfl)
@[simp] theorem cond_lastRec (page b : Nat) (c : Bool) : (s.cond page b c).lastRec = s.lastRec := (rfl)
@[simp] theorem cond_pnl (page b : Nat) (c : Bool) : (s.cond page b c).pnl = s.pnl := (rfl)
@[simp] theorem cond_dio (page b : Nat) (c : Bool) : (s.cond page b c).dio = s.dio := (rfl)
@[simp] theorem cond_ana (page b : Nat) (c : Bool) : (s.cond page b c).ana = s.ana := (rfl)
@[simp] theorem cond_lpe (page b : Nat) (c : Bool) : (s.cond page b c).lpe = s.lpe := (rfl)
@[simp] theorem cond_frozeAt (page b : Nat) (c : Bool) : (s.cond page b c).frozeAt = s.frozeAt := (rfl)
@[simp] theorem cond_ax (page b : Nat) (c : Bool) : (s.cond page b c).ax = s.ax := (rfl)
@[simp] theorem cond_asrc (page b : Nat) (c : Bool) : (s.cond page b c).asrc = s.asrc := (rfl)
@[simp] theorem cond_ang (page b : Nat) (c : Bool) : (s.cond page b c).ang = s.ang := (rfl)
@[simp] theorem cond_sync (page b : Nat) (c : Bool) : (s.cond page b c).sync = s.sync := (rfl)
@[simp] theorem cond_dwy (page b : Nat) (c : Bool) : (s.cond page b c).dwy = s.dwy := (rfl)
@[simp] theorem cond_seq (page b : Nat) (c : Bool) : (s.cond page b c).seq = s.seq := (rfl)
@[simp] theorem cond_pair (page b : Nat) (c : Bool) : (s.cond page b c).pair = s.pair := (rfl)
@[simp] theorem cond_freeUses (page b : Nat) (c : Bool) : (s.cond page b c).freeUses = s.freeUses := (rfl)
@[simp] theorem cond_pending (page b : Nat) (c : Bool) : (s.cond page b c).pending = s.pending := (rfl)

@[simp] theorem clearFault_shad (page b : Nat) : (s.clearFault page b).shad = s.shad := (rfl)
@[simp] theorem clearFault_buf (page b : Nat) : (s.clearFault page b).buf = s.buf := (rfl)
@[simp] theorem clearFault_mem (page b : Nat) : (s.clearFault page b).mem = s.mem := (rfl)
@[simp] theorem clearFault_flash (page b : Nat) : (s.clearFault page b).flash = s.flash := (rfl)
@[simp] theorem clearFault_ecc (page b : Nat) : (s.clearFault page b).ecc = s.ecc := (rfl)
@[simp] theorem clearFault_boot (page b : Nat) : (s.clearFault page b).boot = s.boot := (rfl)
@[simp] theorem clearFault_pins (page b : Nat) : (s.clearFault page b).pins = s.pins := (rfl)
@[simp] theorem clearFault_clk (page b : Nat) : (s.clearFault page b).clk = s.clk := (rfl)
@[simp] theorem clearFault_tsFifo (page b : Nat) : (s.clearFault page b).tsFifo = s.tsFifo := (rfl)
@[simp] theorem clearFault_recd (page b : Nat) : (s.clearFault page b).recd = s.recd := (rfl)
@[simp] theorem clearFault_evd (page b : Nat) : (s.clearFault page b).evd = s.evd := (rfl)
@[simp] theorem clearFault_bus (page b : Nat) : (s.clearFault page b).bus = s.bus := (rfl)
@[simp] theorem clearFault_cal (page b : Nat) : (s.clearFault page b).cal = s.cal := (rfl)
@[simp] theorem clearFault_tly (page b : Nat) : (s.clearFault page b).tly = s.tly := (rfl)
@[simp] theorem clearFault_sent (page b : Nat) : (s.clearFault page b).sent = s.sent := (rfl)
@[simp] theorem clearFault_eth (page b : Nat) : (s.clearFault page b).eth = s.eth := (rfl)
@[simp] theorem clearFault_can (page b : Nat) : (s.clearFault page b).can = s.can := (rfl)
@[simp] theorem clearFault_forceQ (page b : Nat) : (s.clearFault page b).forceQ = s.forceQ := (rfl)
@[simp] theorem clearFault_forceReq (page b : Nat) : (s.clearFault page b).forceReq = s.forceReq := (rfl)
@[simp] theorem clearFault_lastRec (page b : Nat) : (s.clearFault page b).lastRec = s.lastRec := (rfl)
@[simp] theorem clearFault_pnl (page b : Nat) : (s.clearFault page b).pnl = s.pnl := (rfl)
@[simp] theorem clearFault_dio (page b : Nat) : (s.clearFault page b).dio = s.dio := (rfl)
@[simp] theorem clearFault_ana (page b : Nat) : (s.clearFault page b).ana = s.ana := (rfl)
@[simp] theorem clearFault_lpe (page b : Nat) : (s.clearFault page b).lpe = s.lpe := (rfl)
@[simp] theorem clearFault_frozeAt (page b : Nat) : (s.clearFault page b).frozeAt = s.frozeAt := (rfl)
@[simp] theorem clearFault_ax (page b : Nat) : (s.clearFault page b).ax = s.ax := (rfl)
@[simp] theorem clearFault_asrc (page b : Nat) : (s.clearFault page b).asrc = s.asrc := (rfl)
@[simp] theorem clearFault_ang (page b : Nat) : (s.clearFault page b).ang = s.ang := (rfl)
@[simp] theorem clearFault_sync (page b : Nat) : (s.clearFault page b).sync = s.sync := (rfl)
@[simp] theorem clearFault_dwy (page b : Nat) : (s.clearFault page b).dwy = s.dwy := (rfl)
@[simp] theorem clearFault_seq (page b : Nat) : (s.clearFault page b).seq = s.seq := (rfl)
@[simp] theorem clearFault_pair (page b : Nat) : (s.clearFault page b).pair = s.pair := (rfl)
@[simp] theorem clearFault_freeUses (page b : Nat) : (s.clearFault page b).freeUses = s.freeUses := (rfl)
@[simp] theorem clearFault_pending (page b : Nat) : (s.clearFault page b).pending = s.pending := (rfl)

@[simp] theorem note_regs (page code sub : Nat) (p : List Nat) : (s.note page code sub p).regs = s.regs := (rfl)
@[simp] theorem note_shad (page code sub : Nat) (p : List Nat) : (s.note page code sub p).shad = s.shad := (rfl)
@[simp] theorem note_buf (page code sub : Nat) (p : List Nat) : (s.note page code sub p).buf = s.buf := (rfl)
@[simp] theorem note_mem (page code sub : Nat) (p : List Nat) : (s.note page code sub p).mem = s.mem := (rfl)
@[simp] theorem note_flash (page code sub : Nat) (p : List Nat) : (s.note page code sub p).flash = s.flash := (rfl)
@[simp] theorem note_ecc (page code sub : Nat) (p : List Nat) : (s.note page code sub p).ecc = s.ecc := (rfl)
@[simp] theorem note_boot (page code sub : Nat) (p : List Nat) : (s.note page code sub p).boot = s.boot := (rfl)
@[simp] theorem note_pins (page code sub : Nat) (p : List Nat) : (s.note page code sub p).pins = s.pins := (rfl)
@[simp] theorem note_clk (page code sub : Nat) (p : List Nat) : (s.note page code sub p).clk = s.clk := (rfl)
@[simp] theorem note_tsFifo (page code sub : Nat) (p : List Nat) : (s.note page code sub p).tsFifo = s.tsFifo := (rfl)
@[simp] theorem note_evd (page code sub : Nat) (p : List Nat) : (s.note page code sub p).evd = s.evd := (rfl)
@[simp] theorem note_flt (page code sub : Nat) (p : List Nat) : (s.note page code sub p).flt = s.flt := (rfl)
@[simp] theorem note_bus (page code sub : Nat) (p : List Nat) : (s.note page code sub p).bus = s.bus := (rfl)
@[simp] theorem note_cal (page code sub : Nat) (p : List Nat) : (s.note page code sub p).cal = s.cal := (rfl)
@[simp] theorem note_tly (page code sub : Nat) (p : List Nat) : (s.note page code sub p).tly = s.tly := (rfl)
@[simp] theorem note_sent (page code sub : Nat) (p : List Nat) : (s.note page code sub p).sent = s.sent := (rfl)
@[simp] theorem note_eth (page code sub : Nat) (p : List Nat) : (s.note page code sub p).eth = s.eth := (rfl)
@[simp] theorem note_can (page code sub : Nat) (p : List Nat) : (s.note page code sub p).can = s.can := (rfl)
@[simp] theorem note_forceQ (page code sub : Nat) (p : List Nat) : (s.note page code sub p).forceQ = s.forceQ := (rfl)
@[simp] theorem note_forceReq (page code sub : Nat) (p : List Nat) : (s.note page code sub p).forceReq = s.forceReq := (rfl)
@[simp] theorem note_lastRec (page code sub : Nat) (p : List Nat) : (s.note page code sub p).lastRec = s.lastRec := (rfl)
@[simp] theorem note_pnl (page code sub : Nat) (p : List Nat) : (s.note page code sub p).pnl = s.pnl := (rfl)
@[simp] theorem note_dio (page code sub : Nat) (p : List Nat) : (s.note page code sub p).dio = s.dio := (rfl)
@[simp] theorem note_ana (page code sub : Nat) (p : List Nat) : (s.note page code sub p).ana = s.ana := (rfl)
@[simp] theorem note_lpe (page code sub : Nat) (p : List Nat) : (s.note page code sub p).lpe = s.lpe := (rfl)
@[simp] theorem note_frozeAt (page code sub : Nat) (p : List Nat) : (s.note page code sub p).frozeAt = s.frozeAt := (rfl)
@[simp] theorem note_ax (page code sub : Nat) (p : List Nat) : (s.note page code sub p).ax = s.ax := (rfl)
@[simp] theorem note_asrc (page code sub : Nat) (p : List Nat) : (s.note page code sub p).asrc = s.asrc := (rfl)
@[simp] theorem note_ang (page code sub : Nat) (p : List Nat) : (s.note page code sub p).ang = s.ang := (rfl)
@[simp] theorem note_sync (page code sub : Nat) (p : List Nat) : (s.note page code sub p).sync = s.sync := (rfl)
@[simp] theorem note_dwy (page code sub : Nat) (p : List Nat) : (s.note page code sub p).dwy = s.dwy := (rfl)
@[simp] theorem note_seq (page code sub : Nat) (p : List Nat) : (s.note page code sub p).seq = s.seq := (rfl)
@[simp] theorem note_pair (page code sub : Nat) (p : List Nat) : (s.note page code sub p).pair = s.pair := (rfl)
@[simp] theorem note_pending (page code sub : Nat) (p : List Nat) : (s.note page code sub p).pending = s.pending := (rfl)

@[simp] theorem send_regs (port kind : Nat) (l : List Nat) : (s.send port kind l).regs = s.regs := (rfl)
@[simp] theorem send_shad (port kind : Nat) (l : List Nat) : (s.send port kind l).shad = s.shad := (rfl)
@[simp] theorem send_buf (port kind : Nat) (l : List Nat) : (s.send port kind l).buf = s.buf := (rfl)
@[simp] theorem send_mem (port kind : Nat) (l : List Nat) : (s.send port kind l).mem = s.mem := (rfl)
@[simp] theorem send_flash (port kind : Nat) (l : List Nat) : (s.send port kind l).flash = s.flash := (rfl)
@[simp] theorem send_ecc (port kind : Nat) (l : List Nat) : (s.send port kind l).ecc = s.ecc := (rfl)
@[simp] theorem send_boot (port kind : Nat) (l : List Nat) : (s.send port kind l).boot = s.boot := (rfl)
@[simp] theorem send_pins (port kind : Nat) (l : List Nat) : (s.send port kind l).pins = s.pins := (rfl)
@[simp] theorem send_clk (port kind : Nat) (l : List Nat) : (s.send port kind l).clk = s.clk := (rfl)
@[simp] theorem send_tsFifo (port kind : Nat) (l : List Nat) : (s.send port kind l).tsFifo = s.tsFifo := (rfl)
@[simp] theorem send_recd (port kind : Nat) (l : List Nat) : (s.send port kind l).recd = s.recd := (rfl)
@[simp] theorem send_evd (port kind : Nat) (l : List Nat) : (s.send port kind l).evd = s.evd := (rfl)
@[simp] theorem send_flt (port kind : Nat) (l : List Nat) : (s.send port kind l).flt = s.flt := (rfl)
@[simp] theorem send_bus (port kind : Nat) (l : List Nat) : (s.send port kind l).bus = s.bus := (rfl)
@[simp] theorem send_cal (port kind : Nat) (l : List Nat) : (s.send port kind l).cal = s.cal := (rfl)
@[simp] theorem send_tly (port kind : Nat) (l : List Nat) : (s.send port kind l).tly = s.tly := (rfl)
@[simp] theorem send_eth (port kind : Nat) (l : List Nat) : (s.send port kind l).eth = s.eth := (rfl)
@[simp] theorem send_can (port kind : Nat) (l : List Nat) : (s.send port kind l).can = s.can := (rfl)
@[simp] theorem send_forceQ (port kind : Nat) (l : List Nat) : (s.send port kind l).forceQ = s.forceQ := (rfl)
@[simp] theorem send_forceReq (port kind : Nat) (l : List Nat) : (s.send port kind l).forceReq = s.forceReq := (rfl)
@[simp] theorem send_lastRec (port kind : Nat) (l : List Nat) : (s.send port kind l).lastRec = s.lastRec := (rfl)
@[simp] theorem send_pnl (port kind : Nat) (l : List Nat) : (s.send port kind l).pnl = s.pnl := (rfl)
@[simp] theorem send_dio (port kind : Nat) (l : List Nat) : (s.send port kind l).dio = s.dio := (rfl)
@[simp] theorem send_ana (port kind : Nat) (l : List Nat) : (s.send port kind l).ana = s.ana := (rfl)
@[simp] theorem send_lpe (port kind : Nat) (l : List Nat) : (s.send port kind l).lpe = s.lpe := (rfl)
@[simp] theorem send_frozeAt (port kind : Nat) (l : List Nat) : (s.send port kind l).frozeAt = s.frozeAt := (rfl)
@[simp] theorem send_ax (port kind : Nat) (l : List Nat) : (s.send port kind l).ax = s.ax := (rfl)
@[simp] theorem send_asrc (port kind : Nat) (l : List Nat) : (s.send port kind l).asrc = s.asrc := (rfl)
@[simp] theorem send_ang (port kind : Nat) (l : List Nat) : (s.send port kind l).ang = s.ang := (rfl)
@[simp] theorem send_sync (port kind : Nat) (l : List Nat) : (s.send port kind l).sync = s.sync := (rfl)
@[simp] theorem send_dwy (port kind : Nat) (l : List Nat) : (s.send port kind l).dwy = s.dwy := (rfl)
@[simp] theorem send_seq (port kind : Nat) (l : List Nat) : (s.send port kind l).seq = s.seq := (rfl)
@[simp] theorem send_pair (port kind : Nat) (l : List Nat) : (s.send port kind l).pair = s.pair := (rfl)
@[simp] theorem send_freeUses (port kind : Nat) (l : List Nat) : (s.send port kind l).freeUses = s.freeUses := (rfl)
@[simp] theorem send_pending (port kind : Nat) (l : List Nat) : (s.send port kind l).pending = s.pending := (rfl)

@[simp] theorem lineEvent_regs (k : Nat) : (s.lineEvent k).regs = s.regs := (rfl)
@[simp] theorem lineEvent_shad (k : Nat) : (s.lineEvent k).shad = s.shad := (rfl)
@[simp] theorem lineEvent_buf (k : Nat) : (s.lineEvent k).buf = s.buf := (rfl)
@[simp] theorem lineEvent_mem (k : Nat) : (s.lineEvent k).mem = s.mem := (rfl)
@[simp] theorem lineEvent_flash (k : Nat) : (s.lineEvent k).flash = s.flash := (rfl)
@[simp] theorem lineEvent_ecc (k : Nat) : (s.lineEvent k).ecc = s.ecc := (rfl)
@[simp] theorem lineEvent_boot (k : Nat) : (s.lineEvent k).boot = s.boot := (rfl)
@[simp] theorem lineEvent_pins (k : Nat) : (s.lineEvent k).pins = s.pins := (rfl)
@[simp] theorem lineEvent_clk (k : Nat) : (s.lineEvent k).clk = s.clk := (rfl)
@[simp] theorem lineEvent_tsFifo (k : Nat) : (s.lineEvent k).tsFifo = s.tsFifo := (rfl)
@[simp] theorem lineEvent_recd (k : Nat) : (s.lineEvent k).recd = s.recd := (rfl)
@[simp] theorem lineEvent_flt (k : Nat) : (s.lineEvent k).flt = s.flt := (rfl)
@[simp] theorem lineEvent_bus (k : Nat) : (s.lineEvent k).bus = s.bus := (rfl)
@[simp] theorem lineEvent_cal (k : Nat) : (s.lineEvent k).cal = s.cal := (rfl)
@[simp] theorem lineEvent_tly (k : Nat) : (s.lineEvent k).tly = s.tly := (rfl)
@[simp] theorem lineEvent_sent (k : Nat) : (s.lineEvent k).sent = s.sent := (rfl)
@[simp] theorem lineEvent_eth (k : Nat) : (s.lineEvent k).eth = s.eth := (rfl)
@[simp] theorem lineEvent_can (k : Nat) : (s.lineEvent k).can = s.can := (rfl)
@[simp] theorem lineEvent_forceQ (k : Nat) : (s.lineEvent k).forceQ = s.forceQ := (rfl)
@[simp] theorem lineEvent_forceReq (k : Nat) : (s.lineEvent k).forceReq = s.forceReq := (rfl)
@[simp] theorem lineEvent_lastRec (k : Nat) : (s.lineEvent k).lastRec = s.lastRec := (rfl)
@[simp] theorem lineEvent_pnl (k : Nat) : (s.lineEvent k).pnl = s.pnl := (rfl)
@[simp] theorem lineEvent_dio (k : Nat) : (s.lineEvent k).dio = s.dio := (rfl)
@[simp] theorem lineEvent_ana (k : Nat) : (s.lineEvent k).ana = s.ana := (rfl)
@[simp] theorem lineEvent_lpe (k : Nat) : (s.lineEvent k).lpe = s.lpe := (rfl)
@[simp] theorem lineEvent_frozeAt (k : Nat) : (s.lineEvent k).frozeAt = s.frozeAt := (rfl)
@[simp] theorem lineEvent_ax (k : Nat) : (s.lineEvent k).ax = s.ax := (rfl)
@[simp] theorem lineEvent_asrc (k : Nat) : (s.lineEvent k).asrc = s.asrc := (rfl)
@[simp] theorem lineEvent_ang (k : Nat) : (s.lineEvent k).ang = s.ang := (rfl)
@[simp] theorem lineEvent_sync (k : Nat) : (s.lineEvent k).sync = s.sync := (rfl)
@[simp] theorem lineEvent_dwy (k : Nat) : (s.lineEvent k).dwy = s.dwy := (rfl)
@[simp] theorem lineEvent_seq (k : Nat) : (s.lineEvent k).seq = s.seq := (rfl)
@[simp] theorem lineEvent_pair (k : Nat) : (s.lineEvent k).pair = s.pair := (rfl)
@[simp] theorem lineEvent_freeUses (k : Nat) : (s.lineEvent k).freeUses = s.freeUses := (rfl)
@[simp] theorem lineEvent_pending (k : Nat) : (s.lineEvent k).pending = s.pending := (rfl)

@[simp] theorem setAnaRt_regs (n : Nat) (r : AnaRt) : (s.setAnaRt n r).regs = s.regs := (rfl)
@[simp] theorem setAnaRt_shad (n : Nat) (r : AnaRt) : (s.setAnaRt n r).shad = s.shad := (rfl)
@[simp] theorem setAnaRt_buf (n : Nat) (r : AnaRt) : (s.setAnaRt n r).buf = s.buf := (rfl)
@[simp] theorem setAnaRt_mem (n : Nat) (r : AnaRt) : (s.setAnaRt n r).mem = s.mem := (rfl)
@[simp] theorem setAnaRt_flash (n : Nat) (r : AnaRt) : (s.setAnaRt n r).flash = s.flash := (rfl)
@[simp] theorem setAnaRt_ecc (n : Nat) (r : AnaRt) : (s.setAnaRt n r).ecc = s.ecc := (rfl)
@[simp] theorem setAnaRt_boot (n : Nat) (r : AnaRt) : (s.setAnaRt n r).boot = s.boot := (rfl)
@[simp] theorem setAnaRt_pins (n : Nat) (r : AnaRt) : (s.setAnaRt n r).pins = s.pins := (rfl)
@[simp] theorem setAnaRt_clk (n : Nat) (r : AnaRt) : (s.setAnaRt n r).clk = s.clk := (rfl)
@[simp] theorem setAnaRt_tsFifo (n : Nat) (r : AnaRt) : (s.setAnaRt n r).tsFifo = s.tsFifo := (rfl)
@[simp] theorem setAnaRt_recd (n : Nat) (r : AnaRt) : (s.setAnaRt n r).recd = s.recd := (rfl)
@[simp] theorem setAnaRt_evd (n : Nat) (r : AnaRt) : (s.setAnaRt n r).evd = s.evd := (rfl)
@[simp] theorem setAnaRt_flt (n : Nat) (r : AnaRt) : (s.setAnaRt n r).flt = s.flt := (rfl)
@[simp] theorem setAnaRt_bus (n : Nat) (r : AnaRt) : (s.setAnaRt n r).bus = s.bus := (rfl)
@[simp] theorem setAnaRt_cal (n : Nat) (r : AnaRt) : (s.setAnaRt n r).cal = s.cal := (rfl)
@[simp] theorem setAnaRt_tly (n : Nat) (r : AnaRt) : (s.setAnaRt n r).tly = s.tly := (rfl)
@[simp] theorem setAnaRt_sent (n : Nat) (r : AnaRt) : (s.setAnaRt n r).sent = s.sent := (rfl)
@[simp] theorem setAnaRt_eth (n : Nat) (r : AnaRt) : (s.setAnaRt n r).eth = s.eth := (rfl)
@[simp] theorem setAnaRt_can (n : Nat) (r : AnaRt) : (s.setAnaRt n r).can = s.can := (rfl)
@[simp] theorem setAnaRt_forceQ (n : Nat) (r : AnaRt) : (s.setAnaRt n r).forceQ = s.forceQ := (rfl)
@[simp] theorem setAnaRt_forceReq (n : Nat) (r : AnaRt) : (s.setAnaRt n r).forceReq = s.forceReq := (rfl)
@[simp] theorem setAnaRt_lastRec (n : Nat) (r : AnaRt) : (s.setAnaRt n r).lastRec = s.lastRec := (rfl)
@[simp] theorem setAnaRt_pnl (n : Nat) (r : AnaRt) : (s.setAnaRt n r).pnl = s.pnl := (rfl)
@[simp] theorem setAnaRt_dio (n : Nat) (r : AnaRt) : (s.setAnaRt n r).dio = s.dio := (rfl)
@[simp] theorem setAnaRt_lpe (n : Nat) (r : AnaRt) : (s.setAnaRt n r).lpe = s.lpe := (rfl)
@[simp] theorem setAnaRt_frozeAt (n : Nat) (r : AnaRt) : (s.setAnaRt n r).frozeAt = s.frozeAt := (rfl)
@[simp] theorem setAnaRt_ax (n : Nat) (r : AnaRt) : (s.setAnaRt n r).ax = s.ax := (rfl)
@[simp] theorem setAnaRt_asrc (n : Nat) (r : AnaRt) : (s.setAnaRt n r).asrc = s.asrc := (rfl)
@[simp] theorem setAnaRt_ang (n : Nat) (r : AnaRt) : (s.setAnaRt n r).ang = s.ang := (rfl)
@[simp] theorem setAnaRt_sync (n : Nat) (r : AnaRt) : (s.setAnaRt n r).sync = s.sync := (rfl)
@[simp] theorem setAnaRt_dwy (n : Nat) (r : AnaRt) : (s.setAnaRt n r).dwy = s.dwy := (rfl)
@[simp] theorem setAnaRt_seq (n : Nat) (r : AnaRt) : (s.setAnaRt n r).seq = s.seq := (rfl)
@[simp] theorem setAnaRt_pair (n : Nat) (r : AnaRt) : (s.setAnaRt n r).pair = s.pair := (rfl)
@[simp] theorem setAnaRt_freeUses (n : Nat) (r : AnaRt) : (s.setAnaRt n r).freeUses = s.freeUses := (rfl)
@[simp] theorem setAnaRt_pending (n : Nat) (r : AnaRt) : (s.setAnaRt n r).pending = s.pending := (rfl)

@[simp] theorem setAsrcRt_regs (n : Nat) (r : AsrcRt) : (s.setAsrcRt n r).regs = s.regs := (rfl)
@[simp] theorem setAsrcRt_shad (n : Nat) (r : AsrcRt) : (s.setAsrcRt n r).shad = s.shad := (rfl)
@[simp] theorem setAsrcRt_buf (n : Nat) (r : AsrcRt) : (s.setAsrcRt n r).buf = s.buf := (rfl)
@[simp] theorem setAsrcRt_mem (n : Nat) (r : AsrcRt) : (s.setAsrcRt n r).mem = s.mem := (rfl)
@[simp] theorem setAsrcRt_flash (n : Nat) (r : AsrcRt) : (s.setAsrcRt n r).flash = s.flash := (rfl)
@[simp] theorem setAsrcRt_ecc (n : Nat) (r : AsrcRt) : (s.setAsrcRt n r).ecc = s.ecc := (rfl)
@[simp] theorem setAsrcRt_boot (n : Nat) (r : AsrcRt) : (s.setAsrcRt n r).boot = s.boot := (rfl)
@[simp] theorem setAsrcRt_pins (n : Nat) (r : AsrcRt) : (s.setAsrcRt n r).pins = s.pins := (rfl)
@[simp] theorem setAsrcRt_clk (n : Nat) (r : AsrcRt) : (s.setAsrcRt n r).clk = s.clk := (rfl)
@[simp] theorem setAsrcRt_tsFifo (n : Nat) (r : AsrcRt) : (s.setAsrcRt n r).tsFifo = s.tsFifo := (rfl)
@[simp] theorem setAsrcRt_recd (n : Nat) (r : AsrcRt) : (s.setAsrcRt n r).recd = s.recd := (rfl)
@[simp] theorem setAsrcRt_evd (n : Nat) (r : AsrcRt) : (s.setAsrcRt n r).evd = s.evd := (rfl)
@[simp] theorem setAsrcRt_flt (n : Nat) (r : AsrcRt) : (s.setAsrcRt n r).flt = s.flt := (rfl)
@[simp] theorem setAsrcRt_bus (n : Nat) (r : AsrcRt) : (s.setAsrcRt n r).bus = s.bus := (rfl)
@[simp] theorem setAsrcRt_cal (n : Nat) (r : AsrcRt) : (s.setAsrcRt n r).cal = s.cal := (rfl)
@[simp] theorem setAsrcRt_tly (n : Nat) (r : AsrcRt) : (s.setAsrcRt n r).tly = s.tly := (rfl)
@[simp] theorem setAsrcRt_sent (n : Nat) (r : AsrcRt) : (s.setAsrcRt n r).sent = s.sent := (rfl)
@[simp] theorem setAsrcRt_eth (n : Nat) (r : AsrcRt) : (s.setAsrcRt n r).eth = s.eth := (rfl)
@[simp] theorem setAsrcRt_can (n : Nat) (r : AsrcRt) : (s.setAsrcRt n r).can = s.can := (rfl)
@[simp] theorem setAsrcRt_forceQ (n : Nat) (r : AsrcRt) : (s.setAsrcRt n r).forceQ = s.forceQ := (rfl)
@[simp] theorem setAsrcRt_forceReq (n : Nat) (r : AsrcRt) : (s.setAsrcRt n r).forceReq = s.forceReq := (rfl)
@[simp] theorem setAsrcRt_lastRec (n : Nat) (r : AsrcRt) : (s.setAsrcRt n r).lastRec = s.lastRec := (rfl)
@[simp] theorem setAsrcRt_pnl (n : Nat) (r : AsrcRt) : (s.setAsrcRt n r).pnl = s.pnl := (rfl)
@[simp] theorem setAsrcRt_dio (n : Nat) (r : AsrcRt) : (s.setAsrcRt n r).dio = s.dio := (rfl)
@[simp] theorem setAsrcRt_ana (n : Nat) (r : AsrcRt) : (s.setAsrcRt n r).ana = s.ana := (rfl)
@[simp] theorem setAsrcRt_lpe (n : Nat) (r : AsrcRt) : (s.setAsrcRt n r).lpe = s.lpe := (rfl)
@[simp] theorem setAsrcRt_frozeAt (n : Nat) (r : AsrcRt) : (s.setAsrcRt n r).frozeAt = s.frozeAt := (rfl)
@[simp] theorem setAsrcRt_ax (n : Nat) (r : AsrcRt) : (s.setAsrcRt n r).ax = s.ax := (rfl)
@[simp] theorem setAsrcRt_ang (n : Nat) (r : AsrcRt) : (s.setAsrcRt n r).ang = s.ang := (rfl)
@[simp] theorem setAsrcRt_sync (n : Nat) (r : AsrcRt) : (s.setAsrcRt n r).sync = s.sync := (rfl)
@[simp] theorem setAsrcRt_dwy (n : Nat) (r : AsrcRt) : (s.setAsrcRt n r).dwy = s.dwy := (rfl)
@[simp] theorem setAsrcRt_seq (n : Nat) (r : AsrcRt) : (s.setAsrcRt n r).seq = s.seq := (rfl)
@[simp] theorem setAsrcRt_pair (n : Nat) (r : AsrcRt) : (s.setAsrcRt n r).pair = s.pair := (rfl)
@[simp] theorem setAsrcRt_freeUses (n : Nat) (r : AsrcRt) : (s.setAsrcRt n r).freeUses = s.freeUses := (rfl)
@[simp] theorem setAsrcRt_pending (n : Nat) (r : AsrcRt) : (s.setAsrcRt n r).pending = s.pending := (rfl)

@[simp] theorem setAxRt_regs (n : Nat) (r : AxRt) : (s.setAxRt n r).regs = s.regs := (rfl)
@[simp] theorem setAxRt_shad (n : Nat) (r : AxRt) : (s.setAxRt n r).shad = s.shad := (rfl)
@[simp] theorem setAxRt_buf (n : Nat) (r : AxRt) : (s.setAxRt n r).buf = s.buf := (rfl)
@[simp] theorem setAxRt_mem (n : Nat) (r : AxRt) : (s.setAxRt n r).mem = s.mem := (rfl)
@[simp] theorem setAxRt_flash (n : Nat) (r : AxRt) : (s.setAxRt n r).flash = s.flash := (rfl)
@[simp] theorem setAxRt_ecc (n : Nat) (r : AxRt) : (s.setAxRt n r).ecc = s.ecc := (rfl)
@[simp] theorem setAxRt_boot (n : Nat) (r : AxRt) : (s.setAxRt n r).boot = s.boot := (rfl)
@[simp] theorem setAxRt_pins (n : Nat) (r : AxRt) : (s.setAxRt n r).pins = s.pins := (rfl)
@[simp] theorem setAxRt_clk (n : Nat) (r : AxRt) : (s.setAxRt n r).clk = s.clk := (rfl)
@[simp] theorem setAxRt_tsFifo (n : Nat) (r : AxRt) : (s.setAxRt n r).tsFifo = s.tsFifo := (rfl)
@[simp] theorem setAxRt_recd (n : Nat) (r : AxRt) : (s.setAxRt n r).recd = s.recd := (rfl)
@[simp] theorem setAxRt_evd (n : Nat) (r : AxRt) : (s.setAxRt n r).evd = s.evd := (rfl)
@[simp] theorem setAxRt_flt (n : Nat) (r : AxRt) : (s.setAxRt n r).flt = s.flt := (rfl)
@[simp] theorem setAxRt_bus (n : Nat) (r : AxRt) : (s.setAxRt n r).bus = s.bus := (rfl)
@[simp] theorem setAxRt_cal (n : Nat) (r : AxRt) : (s.setAxRt n r).cal = s.cal := (rfl)
@[simp] theorem setAxRt_tly (n : Nat) (r : AxRt) : (s.setAxRt n r).tly = s.tly := (rfl)
@[simp] theorem setAxRt_sent (n : Nat) (r : AxRt) : (s.setAxRt n r).sent = s.sent := (rfl)
@[simp] theorem setAxRt_eth (n : Nat) (r : AxRt) : (s.setAxRt n r).eth = s.eth := (rfl)
@[simp] theorem setAxRt_can (n : Nat) (r : AxRt) : (s.setAxRt n r).can = s.can := (rfl)
@[simp] theorem setAxRt_forceQ (n : Nat) (r : AxRt) : (s.setAxRt n r).forceQ = s.forceQ := (rfl)
@[simp] theorem setAxRt_forceReq (n : Nat) (r : AxRt) : (s.setAxRt n r).forceReq = s.forceReq := (rfl)
@[simp] theorem setAxRt_lastRec (n : Nat) (r : AxRt) : (s.setAxRt n r).lastRec = s.lastRec := (rfl)
@[simp] theorem setAxRt_pnl (n : Nat) (r : AxRt) : (s.setAxRt n r).pnl = s.pnl := (rfl)
@[simp] theorem setAxRt_dio (n : Nat) (r : AxRt) : (s.setAxRt n r).dio = s.dio := (rfl)
@[simp] theorem setAxRt_ana (n : Nat) (r : AxRt) : (s.setAxRt n r).ana = s.ana := (rfl)
@[simp] theorem setAxRt_lpe (n : Nat) (r : AxRt) : (s.setAxRt n r).lpe = s.lpe := (rfl)
@[simp] theorem setAxRt_frozeAt (n : Nat) (r : AxRt) : (s.setAxRt n r).frozeAt = s.frozeAt := (rfl)
@[simp] theorem setAxRt_asrc (n : Nat) (r : AxRt) : (s.setAxRt n r).asrc = s.asrc := (rfl)
@[simp] theorem setAxRt_ang (n : Nat) (r : AxRt) : (s.setAxRt n r).ang = s.ang := (rfl)
@[simp] theorem setAxRt_sync (n : Nat) (r : AxRt) : (s.setAxRt n r).sync = s.sync := (rfl)
@[simp] theorem setAxRt_dwy (n : Nat) (r : AxRt) : (s.setAxRt n r).dwy = s.dwy := (rfl)
@[simp] theorem setAxRt_seq (n : Nat) (r : AxRt) : (s.setAxRt n r).seq = s.seq := (rfl)
@[simp] theorem setAxRt_pair (n : Nat) (r : AxRt) : (s.setAxRt n r).pair = s.pair := (rfl)
@[simp] theorem setAxRt_freeUses (n : Nat) (r : AxRt) : (s.setAxRt n r).freeUses = s.freeUses := (rfl)
@[simp] theorem setAxRt_pending (n : Nat) (r : AxRt) : (s.setAxRt n r).pending = s.pending := (rfl)

@[simp] theorem setCanRt_regs (n : Nat) (r : CanRt) : (s.setCanRt n r).regs = s.regs := (rfl)
@[simp] theorem setCanRt_shad (n : Nat) (r : CanRt) : (s.setCanRt n r).shad = s.shad := (rfl)
@[simp] theorem setCanRt_buf (n : Nat) (r : CanRt) : (s.setCanRt n r).buf = s.buf := (rfl)
@[simp] theorem setCanRt_mem (n : Nat) (r : CanRt) : (s.setCanRt n r).mem = s.mem := (rfl)
@[simp] theorem setCanRt_flash (n : Nat) (r : CanRt) : (s.setCanRt n r).flash = s.flash := (rfl)
@[simp] theorem setCanRt_ecc (n : Nat) (r : CanRt) : (s.setCanRt n r).ecc = s.ecc := (rfl)
@[simp] theorem setCanRt_boot (n : Nat) (r : CanRt) : (s.setCanRt n r).boot = s.boot := (rfl)
@[simp] theorem setCanRt_pins (n : Nat) (r : CanRt) : (s.setCanRt n r).pins = s.pins := (rfl)
@[simp] theorem setCanRt_clk (n : Nat) (r : CanRt) : (s.setCanRt n r).clk = s.clk := (rfl)
@[simp] theorem setCanRt_tsFifo (n : Nat) (r : CanRt) : (s.setCanRt n r).tsFifo = s.tsFifo := (rfl)
@[simp] theorem setCanRt_recd (n : Nat) (r : CanRt) : (s.setCanRt n r).recd = s.recd := (rfl)
@[simp] theorem setCanRt_evd (n : Nat) (r : CanRt) : (s.setCanRt n r).evd = s.evd := (rfl)
@[simp] theorem setCanRt_flt (n : Nat) (r : CanRt) : (s.setCanRt n r).flt = s.flt := (rfl)
@[simp] theorem setCanRt_bus (n : Nat) (r : CanRt) : (s.setCanRt n r).bus = s.bus := (rfl)
@[simp] theorem setCanRt_cal (n : Nat) (r : CanRt) : (s.setCanRt n r).cal = s.cal := (rfl)
@[simp] theorem setCanRt_tly (n : Nat) (r : CanRt) : (s.setCanRt n r).tly = s.tly := (rfl)
@[simp] theorem setCanRt_sent (n : Nat) (r : CanRt) : (s.setCanRt n r).sent = s.sent := (rfl)
@[simp] theorem setCanRt_eth (n : Nat) (r : CanRt) : (s.setCanRt n r).eth = s.eth := (rfl)
@[simp] theorem setCanRt_forceQ (n : Nat) (r : CanRt) : (s.setCanRt n r).forceQ = s.forceQ := (rfl)
@[simp] theorem setCanRt_forceReq (n : Nat) (r : CanRt) : (s.setCanRt n r).forceReq = s.forceReq := (rfl)
@[simp] theorem setCanRt_lastRec (n : Nat) (r : CanRt) : (s.setCanRt n r).lastRec = s.lastRec := (rfl)
@[simp] theorem setCanRt_pnl (n : Nat) (r : CanRt) : (s.setCanRt n r).pnl = s.pnl := (rfl)
@[simp] theorem setCanRt_dio (n : Nat) (r : CanRt) : (s.setCanRt n r).dio = s.dio := (rfl)
@[simp] theorem setCanRt_ana (n : Nat) (r : CanRt) : (s.setCanRt n r).ana = s.ana := (rfl)
@[simp] theorem setCanRt_lpe (n : Nat) (r : CanRt) : (s.setCanRt n r).lpe = s.lpe := (rfl)
@[simp] theorem setCanRt_frozeAt (n : Nat) (r : CanRt) : (s.setCanRt n r).frozeAt = s.frozeAt := (rfl)
@[simp] theorem setCanRt_ax (n : Nat) (r : CanRt) : (s.setCanRt n r).ax = s.ax := (rfl)
@[simp] theorem setCanRt_asrc (n : Nat) (r : CanRt) : (s.setCanRt n r).asrc = s.asrc := (rfl)
@[simp] theorem setCanRt_ang (n : Nat) (r : CanRt) : (s.setCanRt n r).ang = s.ang := (rfl)
@[simp] theorem setCanRt_sync (n : Nat) (r : CanRt) : (s.setCanRt n r).sync = s.sync := (rfl)
@[simp] theorem setCanRt_dwy (n : Nat) (r : CanRt) : (s.setCanRt n r).dwy = s.dwy := (rfl)
@[simp] theorem setCanRt_seq (n : Nat) (r : CanRt) : (s.setCanRt n r).seq = s.seq := (rfl)
@[simp] theorem setCanRt_pair (n : Nat) (r : CanRt) : (s.setCanRt n r).pair = s.pair := (rfl)
@[simp] theorem setCanRt_freeUses (n : Nat) (r : CanRt) : (s.setCanRt n r).freeUses = s.freeUses := (rfl)
@[simp] theorem setCanRt_pending (n : Nat) (r : CanRt) : (s.setCanRt n r).pending = s.pending := (rfl)

@[simp] theorem setDioRt_regs (n : Nat) (r : DioRt) : (s.setDioRt n r).regs = s.regs := (rfl)
@[simp] theorem setDioRt_shad (n : Nat) (r : DioRt) : (s.setDioRt n r).shad = s.shad := (rfl)
@[simp] theorem setDioRt_buf (n : Nat) (r : DioRt) : (s.setDioRt n r).buf = s.buf := (rfl)
@[simp] theorem setDioRt_mem (n : Nat) (r : DioRt) : (s.setDioRt n r).mem = s.mem := (rfl)
@[simp] theorem setDioRt_flash (n : Nat) (r : DioRt) : (s.setDioRt n r).flash = s.flash := (rfl)
@[simp] theorem setDioRt_ecc (n : Nat) (r : DioRt) : (s.setDioRt n r).ecc = s.ecc := (rfl)
@[simp] theorem setDioRt_boot (n : Nat) (r : DioRt) : (s.setDioRt n r).boot = s.boot := (rfl)
@[simp] theorem setDioRt_pins (n : Nat) (r : DioRt) : (s.setDioRt n r).pins = s.pins := (rfl)
@[simp] theorem setDioRt_clk (n : Nat) (r : DioRt) : (s.setDioRt n r).clk = s.clk := (rfl)
@[simp] theorem setDioRt_tsFifo (n : Nat) (r : DioRt) : (s.setDioRt n r).tsFifo = s.tsFifo := (rfl)
@[simp] theorem setDioRt_recd (n : Nat) (r : DioRt) : (s.setDioRt n r).recd = s.recd := (rfl)
@[simp] theorem setDioRt_evd (n : Nat) (r : DioRt) : (s.setDioRt n r).evd = s.evd := (rfl)
@[simp] theorem setDioRt_flt (n : Nat) (r : DioRt) : (s.setDioRt n r).flt = s.flt := (rfl)
@[simp] theorem setDioRt_bus (n : Nat) (r : DioRt) : (s.setDioRt n r).bus = s.bus := (rfl)
@[simp] theorem setDioRt_cal (n : Nat) (r : DioRt) : (s.setDioRt n r).cal = s.cal := (rfl)
@[simp] theorem setDioRt_tly (n : Nat) (r : DioRt) : (s.setDioRt n r).tly = s.tly := (rfl)
@[simp] theorem setDioRt_sent (n : Nat) (r : DioRt) : (s.setDioRt n r).sent = s.sent := (rfl)
@[simp] theorem setDioRt_eth (n : Nat) (r : DioRt) : (s.setDioRt n r).eth = s.eth := (rfl)
@[simp] theorem setDioRt_can (n : Nat) (r : DioRt) : (s.setDioRt n r).can = s.can := (rfl)
@[simp] theorem setDioRt_forceQ (n : Nat) (r : DioRt) : (s.setDioRt n r).forceQ = s.forceQ := (rfl)
@[simp] theorem setDioRt_forceReq (n : Nat) (r : DioRt) : (s.setDioRt n r).forceReq = s.forceReq := (rfl)
@[simp] theorem setDioRt_lastRec (n : Nat) (r : DioRt) : (s.setDioRt n r).lastRec = s.lastRec := (rfl)
@[simp] theorem setDioRt_pnl (n : Nat) (r : DioRt) : (s.setDioRt n r).pnl = s.pnl := (rfl)
@[simp] theorem setDioRt_ana (n : Nat) (r : DioRt) : (s.setDioRt n r).ana = s.ana := (rfl)
@[simp] theorem setDioRt_lpe (n : Nat) (r : DioRt) : (s.setDioRt n r).lpe = s.lpe := (rfl)
@[simp] theorem setDioRt_frozeAt (n : Nat) (r : DioRt) : (s.setDioRt n r).frozeAt = s.frozeAt := (rfl)
@[simp] theorem setDioRt_ax (n : Nat) (r : DioRt) : (s.setDioRt n r).ax = s.ax := (rfl)
@[simp] theorem setDioRt_asrc (n : Nat) (r : DioRt) : (s.setDioRt n r).asrc = s.asrc := (rfl)
@[simp] theorem setDioRt_ang (n : Nat) (r : DioRt) : (s.setDioRt n r).ang = s.ang := (rfl)
@[simp] theorem setDioRt_sync (n : Nat) (r : DioRt) : (s.setDioRt n r).sync = s.sync := (rfl)
@[simp] theorem setDioRt_dwy (n : Nat) (r : DioRt) : (s.setDioRt n r).dwy = s.dwy := (rfl)
@[simp] theorem setDioRt_seq (n : Nat) (r : DioRt) : (s.setDioRt n r).seq = s.seq := (rfl)
@[simp] theorem setDioRt_pair (n : Nat) (r : DioRt) : (s.setDioRt n r).pair = s.pair := (rfl)
@[simp] theorem setDioRt_freeUses (n : Nat) (r : DioRt) : (s.setDioRt n r).freeUses = s.freeUses := (rfl)
@[simp] theorem setDioRt_pending (n : Nat) (r : DioRt) : (s.setDioRt n r).pending = s.pending := (rfl)

@[simp] theorem setEthRt_regs (n : Nat) (r : EthRt) : (s.setEthRt n r).regs = s.regs := (rfl)
@[simp] theorem setEthRt_shad (n : Nat) (r : EthRt) : (s.setEthRt n r).shad = s.shad := (rfl)
@[simp] theorem setEthRt_buf (n : Nat) (r : EthRt) : (s.setEthRt n r).buf = s.buf := (rfl)
@[simp] theorem setEthRt_mem (n : Nat) (r : EthRt) : (s.setEthRt n r).mem = s.mem := (rfl)
@[simp] theorem setEthRt_flash (n : Nat) (r : EthRt) : (s.setEthRt n r).flash = s.flash := (rfl)
@[simp] theorem setEthRt_ecc (n : Nat) (r : EthRt) : (s.setEthRt n r).ecc = s.ecc := (rfl)
@[simp] theorem setEthRt_boot (n : Nat) (r : EthRt) : (s.setEthRt n r).boot = s.boot := (rfl)
@[simp] theorem setEthRt_pins (n : Nat) (r : EthRt) : (s.setEthRt n r).pins = s.pins := (rfl)
@[simp] theorem setEthRt_clk (n : Nat) (r : EthRt) : (s.setEthRt n r).clk = s.clk := (rfl)
@[simp] theorem setEthRt_tsFifo (n : Nat) (r : EthRt) : (s.setEthRt n r).tsFifo = s.tsFifo := (rfl)
@[simp] theorem setEthRt_recd (n : Nat) (r : EthRt) : (s.setEthRt n r).recd = s.recd := (rfl)
@[simp] theorem setEthRt_evd (n : Nat) (r : EthRt) : (s.setEthRt n r).evd = s.evd := (rfl)
@[simp] theorem setEthRt_flt (n : Nat) (r : EthRt) : (s.setEthRt n r).flt = s.flt := (rfl)
@[simp] theorem setEthRt_bus (n : Nat) (r : EthRt) : (s.setEthRt n r).bus = s.bus := (rfl)
@[simp] theorem setEthRt_cal (n : Nat) (r : EthRt) : (s.setEthRt n r).cal = s.cal := (rfl)
@[simp] theorem setEthRt_tly (n : Nat) (r : EthRt) : (s.setEthRt n r).tly = s.tly := (rfl)
@[simp] theorem setEthRt_sent (n : Nat) (r : EthRt) : (s.setEthRt n r).sent = s.sent := (rfl)
@[simp] theorem setEthRt_can (n : Nat) (r : EthRt) : (s.setEthRt n r).can = s.can := (rfl)
@[simp] theorem setEthRt_forceQ (n : Nat) (r : EthRt) : (s.setEthRt n r).forceQ = s.forceQ := (rfl)
@[simp] theorem setEthRt_forceReq (n : Nat) (r : EthRt) : (s.setEthRt n r).forceReq = s.forceReq := (rfl)
@[simp] theorem setEthRt_lastRec (n : Nat) (r : EthRt) : (s.setEthRt n r).lastRec = s.lastRec := (rfl)
@[simp] theorem setEthRt_pnl (n : Nat) (r : EthRt) : (s.setEthRt n r).pnl = s.pnl := (rfl)
@[simp] theorem setEthRt_dio (n : Nat) (r : EthRt) : (s.setEthRt n r).dio = s.dio := (rfl)
@[simp] theorem setEthRt_ana (n : Nat) (r : EthRt) : (s.setEthRt n r).ana = s.ana := (rfl)
@[simp] theorem setEthRt_lpe (n : Nat) (r : EthRt) : (s.setEthRt n r).lpe = s.lpe := (rfl)
@[simp] theorem setEthRt_frozeAt (n : Nat) (r : EthRt) : (s.setEthRt n r).frozeAt = s.frozeAt := (rfl)
@[simp] theorem setEthRt_ax (n : Nat) (r : EthRt) : (s.setEthRt n r).ax = s.ax := (rfl)
@[simp] theorem setEthRt_asrc (n : Nat) (r : EthRt) : (s.setEthRt n r).asrc = s.asrc := (rfl)
@[simp] theorem setEthRt_ang (n : Nat) (r : EthRt) : (s.setEthRt n r).ang = s.ang := (rfl)
@[simp] theorem setEthRt_sync (n : Nat) (r : EthRt) : (s.setEthRt n r).sync = s.sync := (rfl)
@[simp] theorem setEthRt_dwy (n : Nat) (r : EthRt) : (s.setEthRt n r).dwy = s.dwy := (rfl)
@[simp] theorem setEthRt_seq (n : Nat) (r : EthRt) : (s.setEthRt n r).seq = s.seq := (rfl)
@[simp] theorem setEthRt_pair (n : Nat) (r : EthRt) : (s.setEthRt n r).pair = s.pair := (rfl)
@[simp] theorem setEthRt_freeUses (n : Nat) (r : EthRt) : (s.setEthRt n r).freeUses = s.freeUses := (rfl)
@[simp] theorem setEthRt_pending (n : Nat) (r : EthRt) : (s.setEthRt n r).pending = s.pending := (rfl)

@[simp] theorem setStnRt_regs (n : Nat) (r : StnRt) : (s.setStnRt n r).regs = s.regs := (rfl)
@[simp] theorem setStnRt_shad (n : Nat) (r : StnRt) : (s.setStnRt n r).shad = s.shad := (rfl)
@[simp] theorem setStnRt_buf (n : Nat) (r : StnRt) : (s.setStnRt n r).buf = s.buf := (rfl)
@[simp] theorem setStnRt_mem (n : Nat) (r : StnRt) : (s.setStnRt n r).mem = s.mem := (rfl)
@[simp] theorem setStnRt_flash (n : Nat) (r : StnRt) : (s.setStnRt n r).flash = s.flash := (rfl)
@[simp] theorem setStnRt_ecc (n : Nat) (r : StnRt) : (s.setStnRt n r).ecc = s.ecc := (rfl)
@[simp] theorem setStnRt_boot (n : Nat) (r : StnRt) : (s.setStnRt n r).boot = s.boot := (rfl)
@[simp] theorem setStnRt_pins (n : Nat) (r : StnRt) : (s.setStnRt n r).pins = s.pins := (rfl)
@[simp] theorem setStnRt_clk (n : Nat) (r : StnRt) : (s.setStnRt n r).clk = s.clk := (rfl)
@[simp] theorem setStnRt_tsFifo (n : Nat) (r : StnRt) : (s.setStnRt n r).tsFifo = s.tsFifo := (rfl)
@[simp] theorem setStnRt_recd (n : Nat) (r : StnRt) : (s.setStnRt n r).recd = s.recd := (rfl)
@[simp] theorem setStnRt_evd (n : Nat) (r : StnRt) : (s.setStnRt n r).evd = s.evd := (rfl)
@[simp] theorem setStnRt_flt (n : Nat) (r : StnRt) : (s.setStnRt n r).flt = s.flt := (rfl)
@[simp] theorem setStnRt_bus (n : Nat) (r : StnRt) : (s.setStnRt n r).bus = s.bus := (rfl)
@[simp] theorem setStnRt_cal (n : Nat) (r : StnRt) : (s.setStnRt n r).cal = s.cal := (rfl)
@[simp] theorem setStnRt_tly (n : Nat) (r : StnRt) : (s.setStnRt n r).tly = s.tly := (rfl)
@[simp] theorem setStnRt_sent (n : Nat) (r : StnRt) : (s.setStnRt n r).sent = s.sent := (rfl)
@[simp] theorem setStnRt_eth (n : Nat) (r : StnRt) : (s.setStnRt n r).eth = s.eth := (rfl)
@[simp] theorem setStnRt_can (n : Nat) (r : StnRt) : (s.setStnRt n r).can = s.can := (rfl)
@[simp] theorem setStnRt_forceQ (n : Nat) (r : StnRt) : (s.setStnRt n r).forceQ = s.forceQ := (rfl)
@[simp] theorem setStnRt_forceReq (n : Nat) (r : StnRt) : (s.setStnRt n r).forceReq = s.forceReq := (rfl)
@[simp] theorem setStnRt_lastRec (n : Nat) (r : StnRt) : (s.setStnRt n r).lastRec = s.lastRec := (rfl)
@[simp] theorem setStnRt_pnl (n : Nat) (r : StnRt) : (s.setStnRt n r).pnl = s.pnl := (rfl)
@[simp] theorem setStnRt_dio (n : Nat) (r : StnRt) : (s.setStnRt n r).dio = s.dio := (rfl)
@[simp] theorem setStnRt_ana (n : Nat) (r : StnRt) : (s.setStnRt n r).ana = s.ana := (rfl)
@[simp] theorem setStnRt_lpe (n : Nat) (r : StnRt) : (s.setStnRt n r).lpe = s.lpe := (rfl)
@[simp] theorem setStnRt_frozeAt (n : Nat) (r : StnRt) : (s.setStnRt n r).frozeAt = s.frozeAt := (rfl)
@[simp] theorem setStnRt_ax (n : Nat) (r : StnRt) : (s.setStnRt n r).ax = s.ax := (rfl)
@[simp] theorem setStnRt_asrc (n : Nat) (r : StnRt) : (s.setStnRt n r).asrc = s.asrc := (rfl)
@[simp] theorem setStnRt_ang (n : Nat) (r : StnRt) : (s.setStnRt n r).ang = s.ang := (rfl)
@[simp] theorem setStnRt_sync (n : Nat) (r : StnRt) : (s.setStnRt n r).sync = s.sync := (rfl)
@[simp] theorem setStnRt_seq (n : Nat) (r : StnRt) : (s.setStnRt n r).seq = s.seq := (rfl)
@[simp] theorem setStnRt_pair (n : Nat) (r : StnRt) : (s.setStnRt n r).pair = s.pair := (rfl)
@[simp] theorem setStnRt_freeUses (n : Nat) (r : StnRt) : (s.setStnRt n r).freeUses = s.freeUses := (rfl)
@[simp] theorem setStnRt_pending (n : Nat) (r : StnRt) : (s.setStnRt n r).pending = s.pending := (rfl)

@[simp] theorem setLoopRt_regs (n : Nat) (r : LoopRt) : (s.setLoopRt n r).regs = s.regs := (rfl)
@[simp] theorem setLoopRt_shad (n : Nat) (r : LoopRt) : (s.setLoopRt n r).shad = s.shad := (rfl)
@[simp] theorem setLoopRt_buf (n : Nat) (r : LoopRt) : (s.setLoopRt n r).buf = s.buf := (rfl)
@[simp] theorem setLoopRt_mem (n : Nat) (r : LoopRt) : (s.setLoopRt n r).mem = s.mem := (rfl)
@[simp] theorem setLoopRt_flash (n : Nat) (r : LoopRt) : (s.setLoopRt n r).flash = s.flash := (rfl)
@[simp] theorem setLoopRt_ecc (n : Nat) (r : LoopRt) : (s.setLoopRt n r).ecc = s.ecc := (rfl)
@[simp] theorem setLoopRt_boot (n : Nat) (r : LoopRt) : (s.setLoopRt n r).boot = s.boot := (rfl)
@[simp] theorem setLoopRt_pins (n : Nat) (r : LoopRt) : (s.setLoopRt n r).pins = s.pins := (rfl)
@[simp] theorem setLoopRt_clk (n : Nat) (r : LoopRt) : (s.setLoopRt n r).clk = s.clk := (rfl)
@[simp] theorem setLoopRt_tsFifo (n : Nat) (r : LoopRt) : (s.setLoopRt n r).tsFifo = s.tsFifo := (rfl)
@[simp] theorem setLoopRt_recd (n : Nat) (r : LoopRt) : (s.setLoopRt n r).recd = s.recd := (rfl)
@[simp] theorem setLoopRt_evd (n : Nat) (r : LoopRt) : (s.setLoopRt n r).evd = s.evd := (rfl)
@[simp] theorem setLoopRt_flt (n : Nat) (r : LoopRt) : (s.setLoopRt n r).flt = s.flt := (rfl)
@[simp] theorem setLoopRt_bus (n : Nat) (r : LoopRt) : (s.setLoopRt n r).bus = s.bus := (rfl)
@[simp] theorem setLoopRt_cal (n : Nat) (r : LoopRt) : (s.setLoopRt n r).cal = s.cal := (rfl)
@[simp] theorem setLoopRt_tly (n : Nat) (r : LoopRt) : (s.setLoopRt n r).tly = s.tly := (rfl)
@[simp] theorem setLoopRt_sent (n : Nat) (r : LoopRt) : (s.setLoopRt n r).sent = s.sent := (rfl)
@[simp] theorem setLoopRt_eth (n : Nat) (r : LoopRt) : (s.setLoopRt n r).eth = s.eth := (rfl)
@[simp] theorem setLoopRt_can (n : Nat) (r : LoopRt) : (s.setLoopRt n r).can = s.can := (rfl)
@[simp] theorem setLoopRt_forceQ (n : Nat) (r : LoopRt) : (s.setLoopRt n r).forceQ = s.forceQ := (rfl)
@[simp] theorem setLoopRt_forceReq (n : Nat) (r : LoopRt) : (s.setLoopRt n r).forceReq = s.forceReq := (rfl)
@[simp] theorem setLoopRt_lastRec (n : Nat) (r : LoopRt) : (s.setLoopRt n r).lastRec = s.lastRec := (rfl)
@[simp] theorem setLoopRt_pnl (n : Nat) (r : LoopRt) : (s.setLoopRt n r).pnl = s.pnl := (rfl)
@[simp] theorem setLoopRt_dio (n : Nat) (r : LoopRt) : (s.setLoopRt n r).dio = s.dio := (rfl)
@[simp] theorem setLoopRt_ana (n : Nat) (r : LoopRt) : (s.setLoopRt n r).ana = s.ana := (rfl)
@[simp] theorem setLoopRt_frozeAt (n : Nat) (r : LoopRt) : (s.setLoopRt n r).frozeAt = s.frozeAt := (rfl)
@[simp] theorem setLoopRt_ax (n : Nat) (r : LoopRt) : (s.setLoopRt n r).ax = s.ax := (rfl)
@[simp] theorem setLoopRt_asrc (n : Nat) (r : LoopRt) : (s.setLoopRt n r).asrc = s.asrc := (rfl)
@[simp] theorem setLoopRt_ang (n : Nat) (r : LoopRt) : (s.setLoopRt n r).ang = s.ang := (rfl)
@[simp] theorem setLoopRt_sync (n : Nat) (r : LoopRt) : (s.setLoopRt n r).sync = s.sync := (rfl)
@[simp] theorem setLoopRt_dwy (n : Nat) (r : LoopRt) : (s.setLoopRt n r).dwy = s.dwy := (rfl)
@[simp] theorem setLoopRt_seq (n : Nat) (r : LoopRt) : (s.setLoopRt n r).seq = s.seq := (rfl)
@[simp] theorem setLoopRt_pair (n : Nat) (r : LoopRt) : (s.setLoopRt n r).pair = s.pair := (rfl)
@[simp] theorem setLoopRt_freeUses (n : Nat) (r : LoopRt) : (s.setLoopRt n r).freeUses = s.freeUses := (rfl)
@[simp] theorem setLoopRt_pending (n : Nat) (r : LoopRt) : (s.setLoopRt n r).pending = s.pending := (rfl)

@[simp] theorem setTraceRt_regs (n : Nat) (r : TraceRt) : (s.setTraceRt n r).regs = s.regs := (rfl)
@[simp] theorem setTraceRt_shad (n : Nat) (r : TraceRt) : (s.setTraceRt n r).shad = s.shad := (rfl)
@[simp] theorem setTraceRt_buf (n : Nat) (r : TraceRt) : (s.setTraceRt n r).buf = s.buf := (rfl)
@[simp] theorem setTraceRt_mem (n : Nat) (r : TraceRt) : (s.setTraceRt n r).mem = s.mem := (rfl)
@[simp] theorem setTraceRt_flash (n : Nat) (r : TraceRt) : (s.setTraceRt n r).flash = s.flash := (rfl)
@[simp] theorem setTraceRt_ecc (n : Nat) (r : TraceRt) : (s.setTraceRt n r).ecc = s.ecc := (rfl)
@[simp] theorem setTraceRt_boot (n : Nat) (r : TraceRt) : (s.setTraceRt n r).boot = s.boot := (rfl)
@[simp] theorem setTraceRt_pins (n : Nat) (r : TraceRt) : (s.setTraceRt n r).pins = s.pins := (rfl)
@[simp] theorem setTraceRt_clk (n : Nat) (r : TraceRt) : (s.setTraceRt n r).clk = s.clk := (rfl)
@[simp] theorem setTraceRt_tsFifo (n : Nat) (r : TraceRt) : (s.setTraceRt n r).tsFifo = s.tsFifo := (rfl)
@[simp] theorem setTraceRt_recd (n : Nat) (r : TraceRt) : (s.setTraceRt n r).recd = s.recd := (rfl)
@[simp] theorem setTraceRt_evd (n : Nat) (r : TraceRt) : (s.setTraceRt n r).evd = s.evd := (rfl)
@[simp] theorem setTraceRt_flt (n : Nat) (r : TraceRt) : (s.setTraceRt n r).flt = s.flt := (rfl)
@[simp] theorem setTraceRt_bus (n : Nat) (r : TraceRt) : (s.setTraceRt n r).bus = s.bus := (rfl)
@[simp] theorem setTraceRt_cal (n : Nat) (r : TraceRt) : (s.setTraceRt n r).cal = s.cal := (rfl)
@[simp] theorem setTraceRt_tly (n : Nat) (r : TraceRt) : (s.setTraceRt n r).tly = s.tly := (rfl)
@[simp] theorem setTraceRt_sent (n : Nat) (r : TraceRt) : (s.setTraceRt n r).sent = s.sent := (rfl)
@[simp] theorem setTraceRt_eth (n : Nat) (r : TraceRt) : (s.setTraceRt n r).eth = s.eth := (rfl)
@[simp] theorem setTraceRt_can (n : Nat) (r : TraceRt) : (s.setTraceRt n r).can = s.can := (rfl)
@[simp] theorem setTraceRt_forceQ (n : Nat) (r : TraceRt) : (s.setTraceRt n r).forceQ = s.forceQ := (rfl)
@[simp] theorem setTraceRt_forceReq (n : Nat) (r : TraceRt) : (s.setTraceRt n r).forceReq = s.forceReq := (rfl)
@[simp] theorem setTraceRt_lastRec (n : Nat) (r : TraceRt) : (s.setTraceRt n r).lastRec = s.lastRec := (rfl)
@[simp] theorem setTraceRt_pnl (n : Nat) (r : TraceRt) : (s.setTraceRt n r).pnl = s.pnl := (rfl)
@[simp] theorem setTraceRt_dio (n : Nat) (r : TraceRt) : (s.setTraceRt n r).dio = s.dio := (rfl)
@[simp] theorem setTraceRt_ana (n : Nat) (r : TraceRt) : (s.setTraceRt n r).ana = s.ana := (rfl)
@[simp] theorem setTraceRt_frozeAt (n : Nat) (r : TraceRt) : (s.setTraceRt n r).frozeAt = s.frozeAt := (rfl)
@[simp] theorem setTraceRt_ax (n : Nat) (r : TraceRt) : (s.setTraceRt n r).ax = s.ax := (rfl)
@[simp] theorem setTraceRt_asrc (n : Nat) (r : TraceRt) : (s.setTraceRt n r).asrc = s.asrc := (rfl)
@[simp] theorem setTraceRt_ang (n : Nat) (r : TraceRt) : (s.setTraceRt n r).ang = s.ang := (rfl)
@[simp] theorem setTraceRt_sync (n : Nat) (r : TraceRt) : (s.setTraceRt n r).sync = s.sync := (rfl)
@[simp] theorem setTraceRt_dwy (n : Nat) (r : TraceRt) : (s.setTraceRt n r).dwy = s.dwy := (rfl)
@[simp] theorem setTraceRt_seq (n : Nat) (r : TraceRt) : (s.setTraceRt n r).seq = s.seq := (rfl)
@[simp] theorem setTraceRt_pair (n : Nat) (r : TraceRt) : (s.setTraceRt n r).pair = s.pair := (rfl)
@[simp] theorem setTraceRt_freeUses (n : Nat) (r : TraceRt) : (s.setTraceRt n r).freeUses = s.freeUses := (rfl)
@[simp] theorem setTraceRt_pending (n : Nat) (r : TraceRt) : (s.setTraceRt n r).pending = s.pending := (rfl)

@[simp] theorem setSync_regs (r : SyncRt) : (s.setSync r).regs = s.regs := (rfl)
@[simp] theorem setSync_shad (r : SyncRt) : (s.setSync r).shad = s.shad := (rfl)
@[simp] theorem setSync_buf (r : SyncRt) : (s.setSync r).buf = s.buf := (rfl)
@[simp] theorem setSync_mem (r : SyncRt) : (s.setSync r).mem = s.mem := (rfl)
@[simp] theorem setSync_flash (r : SyncRt) : (s.setSync r).flash = s.flash := (rfl)
@[simp] theorem setSync_ecc (r : SyncRt) : (s.setSync r).ecc = s.ecc := (rfl)
@[simp] theorem setSync_boot (r : SyncRt) : (s.setSync r).boot = s.boot := (rfl)
@[simp] theorem setSync_pins (r : SyncRt) : (s.setSync r).pins = s.pins := (rfl)
@[simp] theorem setSync_clk (r : SyncRt) : (s.setSync r).clk = s.clk := (rfl)
@[simp] theorem setSync_tsFifo (r : SyncRt) : (s.setSync r).tsFifo = s.tsFifo := (rfl)
@[simp] theorem setSync_recd (r : SyncRt) : (s.setSync r).recd = s.recd := (rfl)
@[simp] theorem setSync_evd (r : SyncRt) : (s.setSync r).evd = s.evd := (rfl)
@[simp] theorem setSync_flt (r : SyncRt) : (s.setSync r).flt = s.flt := (rfl)
@[simp] theorem setSync_bus (r : SyncRt) : (s.setSync r).bus = s.bus := (rfl)
@[simp] theorem setSync_cal (r : SyncRt) : (s.setSync r).cal = s.cal := (rfl)
@[simp] theorem setSync_tly (r : SyncRt) : (s.setSync r).tly = s.tly := (rfl)
@[simp] theorem setSync_sent (r : SyncRt) : (s.setSync r).sent = s.sent := (rfl)
@[simp] theorem setSync_eth (r : SyncRt) : (s.setSync r).eth = s.eth := (rfl)
@[simp] theorem setSync_can (r : SyncRt) : (s.setSync r).can = s.can := (rfl)
@[simp] theorem setSync_forceQ (r : SyncRt) : (s.setSync r).forceQ = s.forceQ := (rfl)
@[simp] theorem setSync_forceReq (r : SyncRt) : (s.setSync r).forceReq = s.forceReq := (rfl)
@[simp] theorem setSync_lastRec (r : SyncRt) : (s.setSync r).lastRec = s.lastRec := (rfl)
@[simp] theorem setSync_pnl (r : SyncRt) : (s.setSync r).pnl = s.pnl := (rfl)
@[simp] theorem setSync_dio (r : SyncRt) : (s.setSync r).dio = s.dio := (rfl)
@[simp] theorem setSync_ana (r : SyncRt) : (s.setSync r).ana = s.ana := (rfl)
@[simp] theorem setSync_lpe (r : SyncRt) : (s.setSync r).lpe = s.lpe := (rfl)
@[simp] theorem setSync_frozeAt (r : SyncRt) : (s.setSync r).frozeAt = s.frozeAt := (rfl)
@[simp] theorem setSync_ax (r : SyncRt) : (s.setSync r).ax = s.ax := (rfl)
@[simp] theorem setSync_asrc (r : SyncRt) : (s.setSync r).asrc = s.asrc := (rfl)
@[simp] theorem setSync_ang (r : SyncRt) : (s.setSync r).ang = s.ang := (rfl)
@[simp] theorem setSync_dwy (r : SyncRt) : (s.setSync r).dwy = s.dwy := (rfl)
@[simp] theorem setSync_seq (r : SyncRt) : (s.setSync r).seq = s.seq := (rfl)
@[simp] theorem setSync_pair (r : SyncRt) : (s.setSync r).pair = s.pair := (rfl)
@[simp] theorem setSync_freeUses (r : SyncRt) : (s.setSync r).freeUses = s.freeUses := (rfl)
@[simp] theorem setSync_pending (r : SyncRt) : (s.setSync r).pending = s.pending := (rfl)

@[simp] theorem setPair_regs (r : PairRt) : (s.setPair r).regs = s.regs := (rfl)
@[simp] theorem setPair_shad (r : PairRt) : (s.setPair r).shad = s.shad := (rfl)
@[simp] theorem setPair_buf (r : PairRt) : (s.setPair r).buf = s.buf := (rfl)
@[simp] theorem setPair_mem (r : PairRt) : (s.setPair r).mem = s.mem := (rfl)
@[simp] theorem setPair_flash (r : PairRt) : (s.setPair r).flash = s.flash := (rfl)
@[simp] theorem setPair_ecc (r : PairRt) : (s.setPair r).ecc = s.ecc := (rfl)
@[simp] theorem setPair_boot (r : PairRt) : (s.setPair r).boot = s.boot := (rfl)
@[simp] theorem setPair_pins (r : PairRt) : (s.setPair r).pins = s.pins := (rfl)
@[simp] theorem setPair_clk (r : PairRt) : (s.setPair r).clk = s.clk := (rfl)
@[simp] theorem setPair_tsFifo (r : PairRt) : (s.setPair r).tsFifo = s.tsFifo := (rfl)
@[simp] theorem setPair_recd (r : PairRt) : (s.setPair r).recd = s.recd := (rfl)
@[simp] theorem setPair_evd (r : PairRt) : (s.setPair r).evd = s.evd := (rfl)
@[simp] theorem setPair_flt (r : PairRt) : (s.setPair r).flt = s.flt := (rfl)
@[simp] theorem setPair_bus (r : PairRt) : (s.setPair r).bus = s.bus := (rfl)
@[simp] theorem setPair_cal (r : PairRt) : (s.setPair r).cal = s.cal := (rfl)
@[simp] theorem setPair_tly (r : PairRt) : (s.setPair r).tly = s.tly := (rfl)
@[simp] theorem setPair_sent (r : PairRt) : (s.setPair r).sent = s.sent := (rfl)
@[simp] theorem setPair_eth (r : PairRt) : (s.setPair r).eth = s.eth := (rfl)
@[simp] theorem setPair_can (r : PairRt) : (s.setPair r).can = s.can := (rfl)
@[simp] theorem setPair_forceQ (r : PairRt) : (s.setPair r).forceQ = s.forceQ := (rfl)
@[simp] theorem setPair_forceReq (r : PairRt) : (s.setPair r).forceReq = s.forceReq := (rfl)
@[simp] theorem setPair_lastRec (r : PairRt) : (s.setPair r).lastRec = s.lastRec := (rfl)
@[simp] theorem setPair_pnl (r : PairRt) : (s.setPair r).pnl = s.pnl := (rfl)
@[simp] theorem setPair_dio (r : PairRt) : (s.setPair r).dio = s.dio := (rfl)
@[simp] theorem setPair_ana (r : PairRt) : (s.setPair r).ana = s.ana := (rfl)
@[simp] theorem setPair_lpe (r : PairRt) : (s.setPair r).lpe = s.lpe := (rfl)
@[simp] theorem setPair_frozeAt (r : PairRt) : (s.setPair r).frozeAt = s.frozeAt := (rfl)
@[simp] theorem setPair_ax (r : PairRt) : (s.setPair r).ax = s.ax := (rfl)
@[simp] theorem setPair_asrc (r : PairRt) : (s.setPair r).asrc = s.asrc := (rfl)
@[simp] theorem setPair_ang (r : PairRt) : (s.setPair r).ang = s.ang := (rfl)
@[simp] theorem setPair_sync (r : PairRt) : (s.setPair r).sync = s.sync := (rfl)
@[simp] theorem setPair_dwy (r : PairRt) : (s.setPair r).dwy = s.dwy := (rfl)
@[simp] theorem setPair_seq (r : PairRt) : (s.setPair r).seq = s.seq := (rfl)
@[simp] theorem setPair_freeUses (r : PairRt) : (s.setPair r).freeUses = s.freeUses := (rfl)
@[simp] theorem setPair_pending (r : PairRt) : (s.setPair r).pending = s.pending := (rfl)

@[simp] theorem setClk_regs (r : Clocks) : (s.setClk r).regs = s.regs := (rfl)
@[simp] theorem setClk_shad (r : Clocks) : (s.setClk r).shad = s.shad := (rfl)
@[simp] theorem setClk_buf (r : Clocks) : (s.setClk r).buf = s.buf := (rfl)
@[simp] theorem setClk_mem (r : Clocks) : (s.setClk r).mem = s.mem := (rfl)
@[simp] theorem setClk_flash (r : Clocks) : (s.setClk r).flash = s.flash := (rfl)
@[simp] theorem setClk_ecc (r : Clocks) : (s.setClk r).ecc = s.ecc := (rfl)
@[simp] theorem setClk_boot (r : Clocks) : (s.setClk r).boot = s.boot := (rfl)
@[simp] theorem setClk_pins (r : Clocks) : (s.setClk r).pins = s.pins := (rfl)
@[simp] theorem setClk_tsFifo (r : Clocks) : (s.setClk r).tsFifo = s.tsFifo := (rfl)
@[simp] theorem setClk_recd (r : Clocks) : (s.setClk r).recd = s.recd := (rfl)
@[simp] theorem setClk_evd (r : Clocks) : (s.setClk r).evd = s.evd := (rfl)
@[simp] theorem setClk_flt (r : Clocks) : (s.setClk r).flt = s.flt := (rfl)
@[simp] theorem setClk_bus (r : Clocks) : (s.setClk r).bus = s.bus := (rfl)
@[simp] theorem setClk_cal (r : Clocks) : (s.setClk r).cal = s.cal := (rfl)
@[simp] theorem setClk_tly (r : Clocks) : (s.setClk r).tly = s.tly := (rfl)
@[simp] theorem setClk_sent (r : Clocks) : (s.setClk r).sent = s.sent := (rfl)
@[simp] theorem setClk_eth (r : Clocks) : (s.setClk r).eth = s.eth := (rfl)
@[simp] theorem setClk_can (r : Clocks) : (s.setClk r).can = s.can := (rfl)
@[simp] theorem setClk_forceQ (r : Clocks) : (s.setClk r).forceQ = s.forceQ := (rfl)
@[simp] theorem setClk_forceReq (r : Clocks) : (s.setClk r).forceReq = s.forceReq := (rfl)
@[simp] theorem setClk_lastRec (r : Clocks) : (s.setClk r).lastRec = s.lastRec := (rfl)
@[simp] theorem setClk_pnl (r : Clocks) : (s.setClk r).pnl = s.pnl := (rfl)
@[simp] theorem setClk_dio (r : Clocks) : (s.setClk r).dio = s.dio := (rfl)
@[simp] theorem setClk_ana (r : Clocks) : (s.setClk r).ana = s.ana := (rfl)
@[simp] theorem setClk_lpe (r : Clocks) : (s.setClk r).lpe = s.lpe := (rfl)
@[simp] theorem setClk_frozeAt (r : Clocks) : (s.setClk r).frozeAt = s.frozeAt := (rfl)
@[simp] theorem setClk_ax (r : Clocks) : (s.setClk r).ax = s.ax := (rfl)
@[simp] theorem setClk_asrc (r : Clocks) : (s.setClk r).asrc = s.asrc := (rfl)
@[simp] theorem setClk_ang (r : Clocks) : (s.setClk r).ang = s.ang := (rfl)
@[simp] theorem setClk_sync (r : Clocks) : (s.setClk r).sync = s.sync := (rfl)
@[simp] theorem setClk_dwy (r : Clocks) : (s.setClk r).dwy = s.dwy := (rfl)
@[simp] theorem setClk_seq (r : Clocks) : (s.setClk r).seq = s.seq := (rfl)
@[simp] theorem setClk_pair (r : Clocks) : (s.setClk r).pair = s.pair := (rfl)
@[simp] theorem setClk_freeUses (r : Clocks) : (s.setClk r).freeUses = s.freeUses := (rfl)
@[simp] theorem setClk_pending (r : Clocks) : (s.setClk r).pending = s.pending := (rfl)

/-! ### What a setter sets -/

@[simp] theorem setBoot_boot (r : Boot) : (s.setBoot r).boot = r := (rfl)
@[simp] theorem setBoot_setBoot (q r : Boot) : (s.setBoot q).setBoot r = s.setBoot r := (rfl)
@[simp] theorem setSync_sync (r : SyncRt) : (s.setSync r).sync = r := (rfl)
@[simp] theorem setSync_setSync (q r : SyncRt) : (s.setSync q).setSync r = s.setSync r := (rfl)
@[simp] theorem setPair_pair (r : PairRt) : (s.setPair r).pair = r := (rfl)
@[simp] theorem setPair_setPair (q r : PairRt) : (s.setPair q).setPair r = s.setPair r := (rfl)
@[simp] theorem setClk_clk (r : Clocks) : (s.setClk r).clk = r := (rfl)
@[simp] theorem setClk_setClk (q r : Clocks) : (s.setClk q).setClk r = s.setClk r := (rfl)
@[simp] theorem setAnaRt_anaRt (n : Nat) (r : AnaRt) : (s.setAnaRt n r).anaRt n = r := Store.get_set_same _ _ _ _
@[simp] theorem setAsrcRt_asrcRt (n : Nat) (r : AsrcRt) : (s.setAsrcRt n r).asrcRt n = r := Store.get_set_same _ _ _ _
@[simp] theorem setAxRt_axRt (n : Nat) (r : AxRt) : (s.setAxRt n r).axRt n = r := Store.get_set_same _ _ _ _
@[simp] theorem setCanRt_canRt (n : Nat) (r : CanRt) : (s.setCanRt n r).canRt n = r := Store.get_set_same _ _ _ _
@[simp] theorem setDioRt_dioRt (n : Nat) (r : DioRt) : (s.setDioRt n r).dioRt n = r := Store.get_set_same _ _ _ _
@[simp] theorem setEthRt_ethRt (n : Nat) (r : EthRt) : (s.setEthRt n r).ethRt n = r := Store.get_set_same _ _ _ _
@[simp] theorem setStnRt_stnRt (n : Nat) (r : StnRt) : (s.setStnRt n r).stnRt n = r := Store.get_set_same _ _ _ _
@[simp] theorem setLoopRt_loopRt (n : Nat) (r : LoopRt) : (s.setLoopRt n r).loopRt n = r := Store.get_set_same _ _ _ _
@[simp] theorem setTraceRt_traceRt (n : Nat) (r : TraceRt) : (s.setTraceRt n r).traceRt n = r := Store.get_set_same _ _ _ _
@[simp] theorem setTask_task (n : Nat) (r : TaskRt) : (s.setTask n r).task n = r := Store.get_set_same _ _ _ _

/-- An operation that keeps everything outside the parts of a list leaves each other part as it was. -/
theorem same_of_kept {l : List Part} {s t : State} (h : ∀ W, Frees W l → Kept W s t) (q : Part) (hq : l.contains q = false) :
    q.same s t :=
  (h (fun x => x == q) (fun x hx => by
    cases he : x == q
    · exact he
    · have e : x = q := by simpa using he
      subst e
      rw [List.contains_iff_mem.mpr hx] at hq
      exact Bool.noConfusion hq)).pin q (beq_self_eq_true q)

@[simp] theorem refreshState_shad (page : Nat) : (s.refreshState page).shad = s.shad :=
  same_of_kept (fun _ hf => State.refreshState_kept s page Kept.start hf) .shad rfl
@[simp] theorem refreshState_buf (page : Nat) : (s.refreshState page).buf = s.buf :=
  same_of_kept (fun _ hf => State.refreshState_kept s page Kept.start hf) .buf rfl
@[simp] theorem refreshState_mem (page : Nat) : (s.refreshState page).mem = s.mem :=
  same_of_kept (fun _ hf => State.refreshState_kept s page Kept.start hf) .mem rfl
@[simp] theorem refreshState_flash (page : Nat) : (s.refreshState page).flash = s.flash :=
  same_of_kept (fun _ hf => State.refreshState_kept s page Kept.start hf) .flash rfl
@[simp] theorem refreshState_ecc (page : Nat) : (s.refreshState page).ecc = s.ecc :=
  same_of_kept (fun _ hf => State.refreshState_kept s page Kept.start hf) .ecc rfl
@[simp] theorem refreshState_boot (page : Nat) : (s.refreshState page).boot = s.boot :=
  same_of_kept (fun _ hf => State.refreshState_kept s page Kept.start hf) .boot rfl
@[simp] theorem refreshState_pins (page : Nat) : (s.refreshState page).pins = s.pins :=
  same_of_kept (fun _ hf => State.refreshState_kept s page Kept.start hf) .pins rfl
@[simp] theorem refreshState_clk (page : Nat) : (s.refreshState page).clk = s.clk :=
  same_of_kept (fun _ hf => State.refreshState_kept s page Kept.start hf) .clk rfl
@[simp] theorem refreshState_tsFifo (page : Nat) : (s.refreshState page).tsFifo = s.tsFifo :=
  same_of_kept (fun _ hf => State.refreshState_kept s page Kept.start hf) .ts rfl
@[simp] theorem refreshState_recd (page : Nat) : (s.refreshState page).recd = s.recd :=
  same_of_kept (fun _ hf => State.refreshState_kept s page Kept.start hf) .recd rfl
@[simp] theorem refreshState_evd (page : Nat) : (s.refreshState page).evd = s.evd :=
  same_of_kept (fun _ hf => State.refreshState_kept s page Kept.start hf) .evd rfl
@[simp] theorem refreshState_flt (page : Nat) : (s.refreshState page).flt = s.flt :=
  same_of_kept (fun _ hf => State.refreshState_kept s page Kept.start hf) .flt rfl
@[simp] theorem refreshState_bus (page : Nat) : (s.refreshState page).bus = s.bus :=
  same_of_kept (fun _ hf => State.refreshState_kept s page Kept.start hf) .bus rfl
@[simp] theorem refreshState_cal (page : Nat) : (s.refreshState page).cal = s.cal :=
  same_of_kept (fun _ hf => State.refreshState_kept s page Kept.start hf) .cal rfl
@[simp] theorem refreshState_tly (page : Nat) : (s.refreshState page).tly = s.tly :=
  same_of_kept (fun _ hf => State.refreshState_kept s page Kept.start hf) .tly rfl
@[simp] theorem refreshState_sent (page : Nat) : (s.refreshState page).sent = s.sent :=
  same_of_kept (fun _ hf => State.refreshState_kept s page Kept.start hf) .sent rfl
@[simp] theorem refreshState_eth (page : Nat) : (s.refreshState page).eth = s.eth :=
  same_of_kept (fun _ hf => State.refreshState_kept s page Kept.start hf) .eth rfl
@[simp] theorem refreshState_can (page : Nat) : (s.refreshState page).can = s.can :=
  same_of_kept (fun _ hf => State.refreshState_kept s page Kept.start hf) .can rfl
@[simp] theorem refreshState_forceQ (page : Nat) : (s.refreshState page).forceQ = s.forceQ :=
  same_of_kept (fun _ hf => State.refreshState_kept s page Kept.start hf) .forceQ rfl
@[simp] theorem refreshState_forceReq (page : Nat) : (s.refreshState page).forceReq = s.forceReq :=
  same_of_kept (fun _ hf => State.refreshState_kept s page Kept.start hf) .forceReq rfl
@[simp] theorem refreshState_lastRec (page : Nat) : (s.refreshState page).lastRec = s.lastRec :=
  same_of_kept (fun _ hf => State.refreshState_kept s page Kept.start hf) .lastRec rfl
@[simp] theorem refreshState_pnl (page : Nat) : (s.refreshState page).pnl = s.pnl :=
  same_of_kept (fun _ hf => State.refreshState_kept s page Kept.start hf) .pnl rfl
@[simp] theorem refreshState_dio (page : Nat) : (s.refreshState page).dio = s.dio :=
  same_of_kept (fun _ hf => State.refreshState_kept s page Kept.start hf) .dio rfl
@[simp] theorem refreshState_ana (page : Nat) : (s.refreshState page).ana = s.ana :=
  same_of_kept (fun _ hf => State.refreshState_kept s page Kept.start hf) .ana rfl
@[simp] theorem refreshState_lpe (page : Nat) : (s.refreshState page).lpe = s.lpe :=
  same_of_kept (fun _ hf => State.refreshState_kept s page Kept.start hf) .lpe rfl
@[simp] theorem refreshState_frozeAt (page : Nat) : (s.refreshState page).frozeAt = s.frozeAt :=
  same_of_kept (fun _ hf => State.refreshState_kept s page Kept.start hf) .froze rfl
@[simp] theorem refreshState_ax (page : Nat) : (s.refreshState page).ax = s.ax :=
  same_of_kept (fun _ hf => State.refreshState_kept s page Kept.start hf) .ax rfl
@[simp] theorem refreshState_asrc (page : Nat) : (s.refreshState page).asrc = s.asrc :=
  same_of_kept (fun _ hf => State.refreshState_kept s page Kept.start hf) .asrc rfl
@[simp] theorem refreshState_ang (page : Nat) : (s.refreshState page).ang = s.ang :=
  same_of_kept (fun _ hf => State.refreshState_kept s page Kept.start hf) .ang rfl
@[simp] theorem refreshState_sync (page : Nat) : (s.refreshState page).sync = s.sync :=
  same_of_kept (fun _ hf => State.refreshState_kept s page Kept.start hf) .sync rfl
@[simp] theorem refreshState_dwy (page : Nat) : (s.refreshState page).dwy = s.dwy :=
  same_of_kept (fun _ hf => State.refreshState_kept s page Kept.start hf) .dwy rfl
@[simp] theorem refreshState_seq (page : Nat) : (s.refreshState page).seq = s.seq :=
  same_of_kept (fun _ hf => State.refreshState_kept s page Kept.start hf) .seq rfl
@[simp] theorem refreshState_pair (page : Nat) : (s.refreshState page).pair = s.pair :=
  same_of_kept (fun _ hf => State.refreshState_kept s page Kept.start hf) .pair rfl
@[simp] theorem refreshState_freeUses (page : Nat) : (s.refreshState page).freeUses = s.freeUses :=
  same_of_kept (fun _ hf => State.refreshState_kept s page Kept.start hf) .free rfl
@[simp] theorem refreshState_pending (page : Nat) : (s.refreshState page).pending = s.pending :=
  (State.refreshState_kept (W := fun _ => false) s page Kept.start (fun _ _ => rfl)).queue

@[simp] theorem edge_shad (key : Nat) : (s.edge key).shad = s.shad :=
  same_of_kept (fun _ hf => State.edge_kept s key Kept.start hf) .shad rfl
@[simp] theorem edge_buf (key : Nat) : (s.edge key).buf = s.buf :=
  same_of_kept (fun _ hf => State.edge_kept s key Kept.start hf) .buf rfl
@[simp] theorem edge_mem (key : Nat) : (s.edge key).mem = s.mem :=
  same_of_kept (fun _ hf => State.edge_kept s key Kept.start hf) .mem rfl
@[simp] theorem edge_flash (key : Nat) : (s.edge key).flash = s.flash :=
  same_of_kept (fun _ hf => State.edge_kept s key Kept.start hf) .flash rfl
@[simp] theorem edge_ecc (key : Nat) : (s.edge key).ecc = s.ecc :=
  same_of_kept (fun _ hf => State.edge_kept s key Kept.start hf) .ecc rfl
@[simp] theorem edge_boot (key : Nat) : (s.edge key).boot = s.boot :=
  same_of_kept (fun _ hf => State.edge_kept s key Kept.start hf) .boot rfl
@[simp] theorem edge_pins (key : Nat) : (s.edge key).pins = s.pins :=
  same_of_kept (fun _ hf => State.edge_kept s key Kept.start hf) .pins rfl
@[simp] theorem edge_clk (key : Nat) : (s.edge key).clk = s.clk :=
  same_of_kept (fun _ hf => State.edge_kept s key Kept.start hf) .clk rfl
@[simp] theorem edge_tsFifo (key : Nat) : (s.edge key).tsFifo = s.tsFifo :=
  same_of_kept (fun _ hf => State.edge_kept s key Kept.start hf) .ts rfl
@[simp] theorem edge_recd (key : Nat) : (s.edge key).recd = s.recd :=
  same_of_kept (fun _ hf => State.edge_kept s key Kept.start hf) .recd rfl
@[simp] theorem edge_evd (key : Nat) : (s.edge key).evd = s.evd :=
  same_of_kept (fun _ hf => State.edge_kept s key Kept.start hf) .evd rfl
@[simp] theorem edge_bus (key : Nat) : (s.edge key).bus = s.bus :=
  same_of_kept (fun _ hf => State.edge_kept s key Kept.start hf) .bus rfl
@[simp] theorem edge_cal (key : Nat) : (s.edge key).cal = s.cal :=
  same_of_kept (fun _ hf => State.edge_kept s key Kept.start hf) .cal rfl
@[simp] theorem edge_tly (key : Nat) : (s.edge key).tly = s.tly :=
  same_of_kept (fun _ hf => State.edge_kept s key Kept.start hf) .tly rfl
@[simp] theorem edge_sent (key : Nat) : (s.edge key).sent = s.sent :=
  same_of_kept (fun _ hf => State.edge_kept s key Kept.start hf) .sent rfl
@[simp] theorem edge_eth (key : Nat) : (s.edge key).eth = s.eth :=
  same_of_kept (fun _ hf => State.edge_kept s key Kept.start hf) .eth rfl
@[simp] theorem edge_can (key : Nat) : (s.edge key).can = s.can :=
  same_of_kept (fun _ hf => State.edge_kept s key Kept.start hf) .can rfl
@[simp] theorem edge_forceQ (key : Nat) : (s.edge key).forceQ = s.forceQ :=
  same_of_kept (fun _ hf => State.edge_kept s key Kept.start hf) .forceQ rfl
@[simp] theorem edge_forceReq (key : Nat) : (s.edge key).forceReq = s.forceReq :=
  same_of_kept (fun _ hf => State.edge_kept s key Kept.start hf) .forceReq rfl
@[simp] theorem edge_lastRec (key : Nat) : (s.edge key).lastRec = s.lastRec :=
  same_of_kept (fun _ hf => State.edge_kept s key Kept.start hf) .lastRec rfl
@[simp] theorem edge_pnl (key : Nat) : (s.edge key).pnl = s.pnl :=
  same_of_kept (fun _ hf => State.edge_kept s key Kept.start hf) .pnl rfl
@[simp] theorem edge_dio (key : Nat) : (s.edge key).dio = s.dio :=
  same_of_kept (fun _ hf => State.edge_kept s key Kept.start hf) .dio rfl
@[simp] theorem edge_ana (key : Nat) : (s.edge key).ana = s.ana :=
  same_of_kept (fun _ hf => State.edge_kept s key Kept.start hf) .ana rfl
@[simp] theorem edge_lpe (key : Nat) : (s.edge key).lpe = s.lpe :=
  same_of_kept (fun _ hf => State.edge_kept s key Kept.start hf) .lpe rfl
@[simp] theorem edge_frozeAt (key : Nat) : (s.edge key).frozeAt = s.frozeAt :=
  same_of_kept (fun _ hf => State.edge_kept s key Kept.start hf) .froze rfl
@[simp] theorem edge_ax (key : Nat) : (s.edge key).ax = s.ax :=
  same_of_kept (fun _ hf => State.edge_kept s key Kept.start hf) .ax rfl
@[simp] theorem edge_asrc (key : Nat) : (s.edge key).asrc = s.asrc :=
  same_of_kept (fun _ hf => State.edge_kept s key Kept.start hf) .asrc rfl
@[simp] theorem edge_ang (key : Nat) : (s.edge key).ang = s.ang :=
  same_of_kept (fun _ hf => State.edge_kept s key Kept.start hf) .ang rfl
@[simp] theorem edge_sync (key : Nat) : (s.edge key).sync = s.sync :=
  same_of_kept (fun _ hf => State.edge_kept s key Kept.start hf) .sync rfl
@[simp] theorem edge_dwy (key : Nat) : (s.edge key).dwy = s.dwy :=
  same_of_kept (fun _ hf => State.edge_kept s key Kept.start hf) .dwy rfl
@[simp] theorem edge_seq (key : Nat) : (s.edge key).seq = s.seq :=
  same_of_kept (fun _ hf => State.edge_kept s key Kept.start hf) .seq rfl
@[simp] theorem edge_pair (key : Nat) : (s.edge key).pair = s.pair :=
  same_of_kept (fun _ hf => State.edge_kept s key Kept.start hf) .pair rfl
@[simp] theorem edge_freeUses (key : Nat) : (s.edge key).freeUses = s.freeUses :=
  same_of_kept (fun _ hf => State.edge_kept s key Kept.start hf) .free rfl
@[simp] theorem edge_pending (key : Nat) : (s.edge key).pending = s.pending :=
  (State.edge_kept (W := fun _ => false) s key Kept.start (fun _ _ => rfl)).queue

@[simp] theorem setFault_shad (page b : Nat) : (s.setFault page b).shad = s.shad :=
  same_of_kept (fun _ hf => State.setFault_kept s page b Kept.start hf) .shad rfl
@[simp] theorem setFault_buf (page b : Nat) : (s.setFault page b).buf = s.buf :=
  same_of_kept (fun _ hf => State.setFault_kept s page b Kept.start hf) .buf rfl
@[simp] theorem setFault_mem (page b : Nat) : (s.setFault page b).mem = s.mem :=
  same_of_kept (fun _ hf => State.setFault_kept s page b Kept.start hf) .mem rfl
@[simp] theorem setFault_flash (page b : Nat) : (s.setFault page b).flash = s.flash :=
  same_of_kept (fun _ hf => State.setFault_kept s page b Kept.start hf) .flash rfl
@[simp] theorem setFault_ecc (page b : Nat) : (s.setFault page b).ecc = s.ecc :=
  same_of_kept (fun _ hf => State.setFault_kept s page b Kept.start hf) .ecc rfl
@[simp] theorem setFault_boot (page b : Nat) : (s.setFault page b).boot = s.boot :=
  same_of_kept (fun _ hf => State.setFault_kept s page b Kept.start hf) .boot rfl
@[simp] theorem setFault_pins (page b : Nat) : (s.setFault page b).pins = s.pins :=
  same_of_kept (fun _ hf => State.setFault_kept s page b Kept.start hf) .pins rfl
@[simp] theorem setFault_clk (page b : Nat) : (s.setFault page b).clk = s.clk :=
  same_of_kept (fun _ hf => State.setFault_kept s page b Kept.start hf) .clk rfl
@[simp] theorem setFault_tsFifo (page b : Nat) : (s.setFault page b).tsFifo = s.tsFifo :=
  same_of_kept (fun _ hf => State.setFault_kept s page b Kept.start hf) .ts rfl
@[simp] theorem setFault_recd (page b : Nat) : (s.setFault page b).recd = s.recd :=
  same_of_kept (fun _ hf => State.setFault_kept s page b Kept.start hf) .recd rfl
@[simp] theorem setFault_evd (page b : Nat) : (s.setFault page b).evd = s.evd :=
  same_of_kept (fun _ hf => State.setFault_kept s page b Kept.start hf) .evd rfl
@[simp] theorem setFault_bus (page b : Nat) : (s.setFault page b).bus = s.bus :=
  same_of_kept (fun _ hf => State.setFault_kept s page b Kept.start hf) .bus rfl
@[simp] theorem setFault_cal (page b : Nat) : (s.setFault page b).cal = s.cal :=
  same_of_kept (fun _ hf => State.setFault_kept s page b Kept.start hf) .cal rfl
@[simp] theorem setFault_tly (page b : Nat) : (s.setFault page b).tly = s.tly :=
  same_of_kept (fun _ hf => State.setFault_kept s page b Kept.start hf) .tly rfl
@[simp] theorem setFault_sent (page b : Nat) : (s.setFault page b).sent = s.sent :=
  same_of_kept (fun _ hf => State.setFault_kept s page b Kept.start hf) .sent rfl
@[simp] theorem setFault_eth (page b : Nat) : (s.setFault page b).eth = s.eth :=
  same_of_kept (fun _ hf => State.setFault_kept s page b Kept.start hf) .eth rfl
@[simp] theorem setFault_can (page b : Nat) : (s.setFault page b).can = s.can :=
  same_of_kept (fun _ hf => State.setFault_kept s page b Kept.start hf) .can rfl
@[simp] theorem setFault_forceQ (page b : Nat) : (s.setFault page b).forceQ = s.forceQ :=
  same_of_kept (fun _ hf => State.setFault_kept s page b Kept.start hf) .forceQ rfl
@[simp] theorem setFault_forceReq (page b : Nat) : (s.setFault page b).forceReq = s.forceReq :=
  same_of_kept (fun _ hf => State.setFault_kept s page b Kept.start hf) .forceReq rfl
@[simp] theorem setFault_lastRec (page b : Nat) : (s.setFault page b).lastRec = s.lastRec :=
  same_of_kept (fun _ hf => State.setFault_kept s page b Kept.start hf) .lastRec rfl
@[simp] theorem setFault_pnl (page b : Nat) : (s.setFault page b).pnl = s.pnl :=
  same_of_kept (fun _ hf => State.setFault_kept s page b Kept.start hf) .pnl rfl
@[simp] theorem setFault_dio (page b : Nat) : (s.setFault page b).dio = s.dio :=
  same_of_kept (fun _ hf => State.setFault_kept s page b Kept.start hf) .dio rfl
@[simp] theorem setFault_ana (page b : Nat) : (s.setFault page b).ana = s.ana :=
  same_of_kept (fun _ hf => State.setFault_kept s page b Kept.start hf) .ana rfl
@[simp] theorem setFault_lpe (page b : Nat) : (s.setFault page b).lpe = s.lpe :=
  same_of_kept (fun _ hf => State.setFault_kept s page b Kept.start hf) .lpe rfl
@[simp] theorem setFault_frozeAt (page b : Nat) : (s.setFault page b).frozeAt = s.frozeAt :=
  same_of_kept (fun _ hf => State.setFault_kept s page b Kept.start hf) .froze rfl
@[simp] theorem setFault_ax (page b : Nat) : (s.setFault page b).ax = s.ax :=
  same_of_kept (fun _ hf => State.setFault_kept s page b Kept.start hf) .ax rfl
@[simp] theorem setFault_asrc (page b : Nat) : (s.setFault page b).asrc = s.asrc :=
  same_of_kept (fun _ hf => State.setFault_kept s page b Kept.start hf) .asrc rfl
@[simp] theorem setFault_ang (page b : Nat) : (s.setFault page b).ang = s.ang :=
  same_of_kept (fun _ hf => State.setFault_kept s page b Kept.start hf) .ang rfl
@[simp] theorem setFault_sync (page b : Nat) : (s.setFault page b).sync = s.sync :=
  same_of_kept (fun _ hf => State.setFault_kept s page b Kept.start hf) .sync rfl
@[simp] theorem setFault_dwy (page b : Nat) : (s.setFault page b).dwy = s.dwy :=
  same_of_kept (fun _ hf => State.setFault_kept s page b Kept.start hf) .dwy rfl
@[simp] theorem setFault_seq (page b : Nat) : (s.setFault page b).seq = s.seq :=
  same_of_kept (fun _ hf => State.setFault_kept s page b Kept.start hf) .seq rfl
@[simp] theorem setFault_pair (page b : Nat) : (s.setFault page b).pair = s.pair :=
  same_of_kept (fun _ hf => State.setFault_kept s page b Kept.start hf) .pair rfl
@[simp] theorem setFault_freeUses (page b : Nat) : (s.setFault page b).freeUses = s.freeUses :=
  same_of_kept (fun _ hf => State.setFault_kept s page b Kept.start hf) .free rfl
@[simp] theorem setFault_pending (page b : Nat) : (s.setFault page b).pending = s.pending :=
  (State.setFault_kept (W := fun _ => false) s page b Kept.start (fun _ _ => rfl)).queue

@[simp] theorem event_shad (k : Nat) : (s.event k).shad = s.shad :=
  same_of_kept (fun _ hf => State.event_kept s k Kept.start hf) .shad rfl
@[simp] theorem event_buf (k : Nat) : (s.event k).buf = s.buf :=
  same_of_kept (fun _ hf => State.event_kept s k Kept.start hf) .buf rfl
@[simp] theorem event_mem (k : Nat) : (s.event k).mem = s.mem :=
  same_of_kept (fun _ hf => State.event_kept s k Kept.start hf) .mem rfl
@[simp] theorem event_flash (k : Nat) : (s.event k).flash = s.flash :=
  same_of_kept (fun _ hf => State.event_kept s k Kept.start hf) .flash rfl
@[simp] theorem event_ecc (k : Nat) : (s.event k).ecc = s.ecc :=
  same_of_kept (fun _ hf => State.event_kept s k Kept.start hf) .ecc rfl
@[simp] theorem event_boot (k : Nat) : (s.event k).boot = s.boot :=
  same_of_kept (fun _ hf => State.event_kept s k Kept.start hf) .boot rfl
@[simp] theorem event_pins (k : Nat) : (s.event k).pins = s.pins :=
  same_of_kept (fun _ hf => State.event_kept s k Kept.start hf) .pins rfl
@[simp] theorem event_clk (k : Nat) : (s.event k).clk = s.clk :=
  same_of_kept (fun _ hf => State.event_kept s k Kept.start hf) .clk rfl
@[simp] theorem event_tsFifo (k : Nat) : (s.event k).tsFifo = s.tsFifo :=
  same_of_kept (fun _ hf => State.event_kept s k Kept.start hf) .ts rfl
@[simp] theorem event_bus (k : Nat) : (s.event k).bus = s.bus :=
  same_of_kept (fun _ hf => State.event_kept s k Kept.start hf) .bus rfl
@[simp] theorem event_cal (k : Nat) : (s.event k).cal = s.cal :=
  same_of_kept (fun _ hf => State.event_kept s k Kept.start hf) .cal rfl
@[simp] theorem event_tly (k : Nat) : (s.event k).tly = s.tly :=
  same_of_kept (fun _ hf => State.event_kept s k Kept.start hf) .tly rfl
@[simp] theorem event_sent (k : Nat) : (s.event k).sent = s.sent :=
  same_of_kept (fun _ hf => State.event_kept s k Kept.start hf) .sent rfl
@[simp] theorem event_eth (k : Nat) : (s.event k).eth = s.eth :=
  same_of_kept (fun _ hf => State.event_kept s k Kept.start hf) .eth rfl
@[simp] theorem event_can (k : Nat) : (s.event k).can = s.can :=
  same_of_kept (fun _ hf => State.event_kept s k Kept.start hf) .can rfl
@[simp] theorem event_forceQ (k : Nat) : (s.event k).forceQ = s.forceQ :=
  same_of_kept (fun _ hf => State.event_kept s k Kept.start hf) .forceQ rfl
@[simp] theorem event_forceReq (k : Nat) : (s.event k).forceReq = s.forceReq :=
  same_of_kept (fun _ hf => State.event_kept s k Kept.start hf) .forceReq rfl
@[simp] theorem event_lastRec (k : Nat) : (s.event k).lastRec = s.lastRec :=
  same_of_kept (fun _ hf => State.event_kept s k Kept.start hf) .lastRec rfl
@[simp] theorem event_pnl (k : Nat) : (s.event k).pnl = s.pnl :=
  same_of_kept (fun _ hf => State.event_kept s k Kept.start hf) .pnl rfl
@[simp] theorem event_dio (k : Nat) : (s.event k).dio = s.dio :=
  same_of_kept (fun _ hf => State.event_kept s k Kept.start hf) .dio rfl
@[simp] theorem event_ana (k : Nat) : (s.event k).ana = s.ana :=
  same_of_kept (fun _ hf => State.event_kept s k Kept.start hf) .ana rfl
@[simp] theorem event_lpe (k : Nat) : (s.event k).lpe = s.lpe :=
  same_of_kept (fun _ hf => State.event_kept s k Kept.start hf) .lpe rfl
@[simp] theorem event_frozeAt (k : Nat) : (s.event k).frozeAt = s.frozeAt :=
  same_of_kept (fun _ hf => State.event_kept s k Kept.start hf) .froze rfl
@[simp] theorem event_ax (k : Nat) : (s.event k).ax = s.ax :=
  same_of_kept (fun _ hf => State.event_kept s k Kept.start hf) .ax rfl
@[simp] theorem event_asrc (k : Nat) : (s.event k).asrc = s.asrc :=
  same_of_kept (fun _ hf => State.event_kept s k Kept.start hf) .asrc rfl
@[simp] theorem event_ang (k : Nat) : (s.event k).ang = s.ang :=
  same_of_kept (fun _ hf => State.event_kept s k Kept.start hf) .ang rfl
@[simp] theorem event_sync (k : Nat) : (s.event k).sync = s.sync :=
  same_of_kept (fun _ hf => State.event_kept s k Kept.start hf) .sync rfl
@[simp] theorem event_dwy (k : Nat) : (s.event k).dwy = s.dwy :=
  same_of_kept (fun _ hf => State.event_kept s k Kept.start hf) .dwy rfl
@[simp] theorem event_seq (k : Nat) : (s.event k).seq = s.seq :=
  same_of_kept (fun _ hf => State.event_kept s k Kept.start hf) .seq rfl
@[simp] theorem event_pair (k : Nat) : (s.event k).pair = s.pair :=
  same_of_kept (fun _ hf => State.event_kept s k Kept.start hf) .pair rfl
@[simp] theorem event_pending (k : Nat) : (s.event k).pending = s.pending :=
  (State.event_kept (W := fun _ => false) s k Kept.start (fun _ _ => rfl)).queue

@[simp] theorem tallyAdd_shad (i n : Nat) : (s.tallyAdd i n).shad = s.shad :=
  same_of_kept (fun _ hf => State.tallyAdd_kept s i n Kept.start hf) .shad rfl
@[simp] theorem tallyAdd_buf (i n : Nat) : (s.tallyAdd i n).buf = s.buf :=
  same_of_kept (fun _ hf => State.tallyAdd_kept s i n Kept.start hf) .buf rfl
@[simp] theorem tallyAdd_mem (i n : Nat) : (s.tallyAdd i n).mem = s.mem :=
  same_of_kept (fun _ hf => State.tallyAdd_kept s i n Kept.start hf) .mem rfl
@[simp] theorem tallyAdd_flash (i n : Nat) : (s.tallyAdd i n).flash = s.flash :=
  same_of_kept (fun _ hf => State.tallyAdd_kept s i n Kept.start hf) .flash rfl
@[simp] theorem tallyAdd_ecc (i n : Nat) : (s.tallyAdd i n).ecc = s.ecc :=
  same_of_kept (fun _ hf => State.tallyAdd_kept s i n Kept.start hf) .ecc rfl
@[simp] theorem tallyAdd_boot (i n : Nat) : (s.tallyAdd i n).boot = s.boot :=
  same_of_kept (fun _ hf => State.tallyAdd_kept s i n Kept.start hf) .boot rfl
@[simp] theorem tallyAdd_pins (i n : Nat) : (s.tallyAdd i n).pins = s.pins :=
  same_of_kept (fun _ hf => State.tallyAdd_kept s i n Kept.start hf) .pins rfl
@[simp] theorem tallyAdd_clk (i n : Nat) : (s.tallyAdd i n).clk = s.clk :=
  same_of_kept (fun _ hf => State.tallyAdd_kept s i n Kept.start hf) .clk rfl
@[simp] theorem tallyAdd_tsFifo (i n : Nat) : (s.tallyAdd i n).tsFifo = s.tsFifo :=
  same_of_kept (fun _ hf => State.tallyAdd_kept s i n Kept.start hf) .ts rfl
@[simp] theorem tallyAdd_bus (i n : Nat) : (s.tallyAdd i n).bus = s.bus :=
  same_of_kept (fun _ hf => State.tallyAdd_kept s i n Kept.start hf) .bus rfl
@[simp] theorem tallyAdd_cal (i n : Nat) : (s.tallyAdd i n).cal = s.cal :=
  same_of_kept (fun _ hf => State.tallyAdd_kept s i n Kept.start hf) .cal rfl
@[simp] theorem tallyAdd_sent (i n : Nat) : (s.tallyAdd i n).sent = s.sent :=
  same_of_kept (fun _ hf => State.tallyAdd_kept s i n Kept.start hf) .sent rfl
@[simp] theorem tallyAdd_eth (i n : Nat) : (s.tallyAdd i n).eth = s.eth :=
  same_of_kept (fun _ hf => State.tallyAdd_kept s i n Kept.start hf) .eth rfl
@[simp] theorem tallyAdd_can (i n : Nat) : (s.tallyAdd i n).can = s.can :=
  same_of_kept (fun _ hf => State.tallyAdd_kept s i n Kept.start hf) .can rfl
@[simp] theorem tallyAdd_forceQ (i n : Nat) : (s.tallyAdd i n).forceQ = s.forceQ :=
  same_of_kept (fun _ hf => State.tallyAdd_kept s i n Kept.start hf) .forceQ rfl
@[simp] theorem tallyAdd_forceReq (i n : Nat) : (s.tallyAdd i n).forceReq = s.forceReq :=
  same_of_kept (fun _ hf => State.tallyAdd_kept s i n Kept.start hf) .forceReq rfl
@[simp] theorem tallyAdd_lastRec (i n : Nat) : (s.tallyAdd i n).lastRec = s.lastRec :=
  same_of_kept (fun _ hf => State.tallyAdd_kept s i n Kept.start hf) .lastRec rfl
@[simp] theorem tallyAdd_pnl (i n : Nat) : (s.tallyAdd i n).pnl = s.pnl :=
  same_of_kept (fun _ hf => State.tallyAdd_kept s i n Kept.start hf) .pnl rfl
@[simp] theorem tallyAdd_dio (i n : Nat) : (s.tallyAdd i n).dio = s.dio :=
  same_of_kept (fun _ hf => State.tallyAdd_kept s i n Kept.start hf) .dio rfl
@[simp] theorem tallyAdd_ana (i n : Nat) : (s.tallyAdd i n).ana = s.ana :=
  same_of_kept (fun _ hf => State.tallyAdd_kept s i n Kept.start hf) .ana rfl
@[simp] theorem tallyAdd_lpe (i n : Nat) : (s.tallyAdd i n).lpe = s.lpe :=
  same_of_kept (fun _ hf => State.tallyAdd_kept s i n Kept.start hf) .lpe rfl
@[simp] theorem tallyAdd_frozeAt (i n : Nat) : (s.tallyAdd i n).frozeAt = s.frozeAt :=
  same_of_kept (fun _ hf => State.tallyAdd_kept s i n Kept.start hf) .froze rfl
@[simp] theorem tallyAdd_ax (i n : Nat) : (s.tallyAdd i n).ax = s.ax :=
  same_of_kept (fun _ hf => State.tallyAdd_kept s i n Kept.start hf) .ax rfl
@[simp] theorem tallyAdd_asrc (i n : Nat) : (s.tallyAdd i n).asrc = s.asrc :=
  same_of_kept (fun _ hf => State.tallyAdd_kept s i n Kept.start hf) .asrc rfl
@[simp] theorem tallyAdd_ang (i n : Nat) : (s.tallyAdd i n).ang = s.ang :=
  same_of_kept (fun _ hf => State.tallyAdd_kept s i n Kept.start hf) .ang rfl
@[simp] theorem tallyAdd_sync (i n : Nat) : (s.tallyAdd i n).sync = s.sync :=
  same_of_kept (fun _ hf => State.tallyAdd_kept s i n Kept.start hf) .sync rfl
@[simp] theorem tallyAdd_dwy (i n : Nat) : (s.tallyAdd i n).dwy = s.dwy :=
  same_of_kept (fun _ hf => State.tallyAdd_kept s i n Kept.start hf) .dwy rfl
@[simp] theorem tallyAdd_seq (i n : Nat) : (s.tallyAdd i n).seq = s.seq :=
  same_of_kept (fun _ hf => State.tallyAdd_kept s i n Kept.start hf) .seq rfl
@[simp] theorem tallyAdd_pair (i n : Nat) : (s.tallyAdd i n).pair = s.pair :=
  same_of_kept (fun _ hf => State.tallyAdd_kept s i n Kept.start hf) .pair rfl
@[simp] theorem tallyAdd_pending (i n : Nat) : (s.tallyAdd i n).pending = s.pending :=
  (State.tallyAdd_kept (W := fun _ => false) s i n Kept.start (fun _ _ => rfl)).queue

@[simp] theorem raise_shad (page code sub : Nat) (p : List Nat) : (s.raise page code sub p).shad = s.shad :=
  same_of_kept (fun _ hf => State.raise_kept s page code sub p Kept.start hf) .shad rfl
@[simp] theorem raise_buf (page code sub : Nat) (p : List Nat) : (s.raise page code sub p).buf = s.buf :=
  same_of_kept (fun _ hf => State.raise_kept s page code sub p Kept.start hf) .buf rfl
@[simp] theorem raise_mem (page code sub : Nat) (p : List Nat) : (s.raise page code sub p).mem = s.mem :=
  same_of_kept (fun _ hf => State.raise_kept s page code sub p Kept.start hf) .mem rfl
@[simp] theorem raise_flash (page code sub : Nat) (p : List Nat) : (s.raise page code sub p).flash = s.flash :=
  same_of_kept (fun _ hf => State.raise_kept s page code sub p Kept.start hf) .flash rfl
@[simp] theorem raise_ecc (page code sub : Nat) (p : List Nat) : (s.raise page code sub p).ecc = s.ecc :=
  same_of_kept (fun _ hf => State.raise_kept s page code sub p Kept.start hf) .ecc rfl
@[simp] theorem raise_boot (page code sub : Nat) (p : List Nat) : (s.raise page code sub p).boot = s.boot :=
  same_of_kept (fun _ hf => State.raise_kept s page code sub p Kept.start hf) .boot rfl
@[simp] theorem raise_pins (page code sub : Nat) (p : List Nat) : (s.raise page code sub p).pins = s.pins :=
  same_of_kept (fun _ hf => State.raise_kept s page code sub p Kept.start hf) .pins rfl
@[simp] theorem raise_clk (page code sub : Nat) (p : List Nat) : (s.raise page code sub p).clk = s.clk :=
  same_of_kept (fun _ hf => State.raise_kept s page code sub p Kept.start hf) .clk rfl
@[simp] theorem raise_tsFifo (page code sub : Nat) (p : List Nat) : (s.raise page code sub p).tsFifo = s.tsFifo :=
  same_of_kept (fun _ hf => State.raise_kept s page code sub p Kept.start hf) .ts rfl
@[simp] theorem raise_bus (page code sub : Nat) (p : List Nat) : (s.raise page code sub p).bus = s.bus :=
  same_of_kept (fun _ hf => State.raise_kept s page code sub p Kept.start hf) .bus rfl
@[simp] theorem raise_cal (page code sub : Nat) (p : List Nat) : (s.raise page code sub p).cal = s.cal :=
  same_of_kept (fun _ hf => State.raise_kept s page code sub p Kept.start hf) .cal rfl
@[simp] theorem raise_sent (page code sub : Nat) (p : List Nat) : (s.raise page code sub p).sent = s.sent :=
  same_of_kept (fun _ hf => State.raise_kept s page code sub p Kept.start hf) .sent rfl
@[simp] theorem raise_eth (page code sub : Nat) (p : List Nat) : (s.raise page code sub p).eth = s.eth :=
  same_of_kept (fun _ hf => State.raise_kept s page code sub p Kept.start hf) .eth rfl
@[simp] theorem raise_can (page code sub : Nat) (p : List Nat) : (s.raise page code sub p).can = s.can :=
  same_of_kept (fun _ hf => State.raise_kept s page code sub p Kept.start hf) .can rfl
@[simp] theorem raise_forceQ (page code sub : Nat) (p : List Nat) : (s.raise page code sub p).forceQ = s.forceQ :=
  same_of_kept (fun _ hf => State.raise_kept s page code sub p Kept.start hf) .forceQ rfl
@[simp] theorem raise_forceReq (page code sub : Nat) (p : List Nat) : (s.raise page code sub p).forceReq = s.forceReq :=
  same_of_kept (fun _ hf => State.raise_kept s page code sub p Kept.start hf) .forceReq rfl
@[simp] theorem raise_lastRec (page code sub : Nat) (p : List Nat) : (s.raise page code sub p).lastRec = s.lastRec :=
  same_of_kept (fun _ hf => State.raise_kept s page code sub p Kept.start hf) .lastRec rfl
@[simp] theorem raise_pnl (page code sub : Nat) (p : List Nat) : (s.raise page code sub p).pnl = s.pnl :=
  same_of_kept (fun _ hf => State.raise_kept s page code sub p Kept.start hf) .pnl rfl
@[simp] theorem raise_dio (page code sub : Nat) (p : List Nat) : (s.raise page code sub p).dio = s.dio :=
  same_of_kept (fun _ hf => State.raise_kept s page code sub p Kept.start hf) .dio rfl
@[simp] theorem raise_ana (page code sub : Nat) (p : List Nat) : (s.raise page code sub p).ana = s.ana :=
  same_of_kept (fun _ hf => State.raise_kept s page code sub p Kept.start hf) .ana rfl
@[simp] theorem raise_lpe (page code sub : Nat) (p : List Nat) : (s.raise page code sub p).lpe = s.lpe :=
  same_of_kept (fun _ hf => State.raise_kept s page code sub p Kept.start hf) .lpe rfl
@[simp] theorem raise_frozeAt (page code sub : Nat) (p : List Nat) : (s.raise page code sub p).frozeAt = s.frozeAt :=
  same_of_kept (fun _ hf => State.raise_kept s page code sub p Kept.start hf) .froze rfl
@[simp] theorem raise_ax (page code sub : Nat) (p : List Nat) : (s.raise page code sub p).ax = s.ax :=
  same_of_kept (fun _ hf => State.raise_kept s page code sub p Kept.start hf) .ax rfl
@[simp] theorem raise_asrc (page code sub : Nat) (p : List Nat) : (s.raise page code sub p).asrc = s.asrc :=
  same_of_kept (fun _ hf => State.raise_kept s page code sub p Kept.start hf) .asrc rfl
@[simp] theorem raise_ang (page code sub : Nat) (p : List Nat) : (s.raise page code sub p).ang = s.ang :=
  same_of_kept (fun _ hf => State.raise_kept s page code sub p Kept.start hf) .ang rfl
@[simp] theorem raise_sync (page code sub : Nat) (p : List Nat) : (s.raise page code sub p).sync = s.sync :=
  same_of_kept (fun _ hf => State.raise_kept s page code sub p Kept.start hf) .sync rfl
@[simp] theorem raise_dwy (page code sub : Nat) (p : List Nat) : (s.raise page code sub p).dwy = s.dwy :=
  same_of_kept (fun _ hf => State.raise_kept s page code sub p Kept.start hf) .dwy rfl
@[simp] theorem raise_seq (page code sub : Nat) (p : List Nat) : (s.raise page code sub p).seq = s.seq :=
  same_of_kept (fun _ hf => State.raise_kept s page code sub p Kept.start hf) .seq rfl
@[simp] theorem raise_pair (page code sub : Nat) (p : List Nat) : (s.raise page code sub p).pair = s.pair :=
  same_of_kept (fun _ hf => State.raise_kept s page code sub p Kept.start hf) .pair rfl
@[simp] theorem raise_pending (page code sub : Nat) (p : List Nat) : (s.raise page code sub p).pending = s.pending :=
  (State.raise_kept (W := fun _ => false) s page code sub p Kept.start (fun _ _ => rfl)).queue

@[simp] theorem refuseOwner_shad (page off m : Nat) : (s.refuseOwner page off m).shad = s.shad :=
  same_of_kept (fun _ hf => State.refuseOwner_kept s page off m Kept.start hf) .shad rfl
@[simp] theorem refuseOwner_buf (page off m : Nat) : (s.refuseOwner page off m).buf = s.buf :=
  same_of_kept (fun _ hf => State.refuseOwner_kept s page off m Kept.start hf) .buf rfl
@[simp] theorem refuseOwner_mem (page off m : Nat) : (s.refuseOwner page off m).mem = s.mem :=
  same_of_kept (fun _ hf => State.refuseOwner_kept s page off m Kept.start hf) .mem rfl
@[simp] theorem refuseOwner_flash (page off m : Nat) : (s.refuseOwner page off m).flash = s.flash :=
  same_of_kept (fun _ hf => State.refuseOwner_kept s page off m Kept.start hf) .flash rfl
@[simp] theorem refuseOwner_ecc (page off m : Nat) : (s.refuseOwner page off m).ecc = s.ecc :=
  same_of_kept (fun _ hf => State.refuseOwner_kept s page off m Kept.start hf) .ecc rfl
@[simp] theorem refuseOwner_boot (page off m : Nat) : (s.refuseOwner page off m).boot = s.boot :=
  same_of_kept (fun _ hf => State.refuseOwner_kept s page off m Kept.start hf) .boot rfl
@[simp] theorem refuseOwner_pins (page off m : Nat) : (s.refuseOwner page off m).pins = s.pins :=
  same_of_kept (fun _ hf => State.refuseOwner_kept s page off m Kept.start hf) .pins rfl
@[simp] theorem refuseOwner_clk (page off m : Nat) : (s.refuseOwner page off m).clk = s.clk :=
  same_of_kept (fun _ hf => State.refuseOwner_kept s page off m Kept.start hf) .clk rfl
@[simp] theorem refuseOwner_tsFifo (page off m : Nat) : (s.refuseOwner page off m).tsFifo = s.tsFifo :=
  same_of_kept (fun _ hf => State.refuseOwner_kept s page off m Kept.start hf) .ts rfl
@[simp] theorem refuseOwner_bus (page off m : Nat) : (s.refuseOwner page off m).bus = s.bus :=
  same_of_kept (fun _ hf => State.refuseOwner_kept s page off m Kept.start hf) .bus rfl
@[simp] theorem refuseOwner_cal (page off m : Nat) : (s.refuseOwner page off m).cal = s.cal :=
  same_of_kept (fun _ hf => State.refuseOwner_kept s page off m Kept.start hf) .cal rfl
@[simp] theorem refuseOwner_sent (page off m : Nat) : (s.refuseOwner page off m).sent = s.sent :=
  same_of_kept (fun _ hf => State.refuseOwner_kept s page off m Kept.start hf) .sent rfl
@[simp] theorem refuseOwner_eth (page off m : Nat) : (s.refuseOwner page off m).eth = s.eth :=
  same_of_kept (fun _ hf => State.refuseOwner_kept s page off m Kept.start hf) .eth rfl
@[simp] theorem refuseOwner_can (page off m : Nat) : (s.refuseOwner page off m).can = s.can :=
  same_of_kept (fun _ hf => State.refuseOwner_kept s page off m Kept.start hf) .can rfl
@[simp] theorem refuseOwner_forceQ (page off m : Nat) : (s.refuseOwner page off m).forceQ = s.forceQ :=
  same_of_kept (fun _ hf => State.refuseOwner_kept s page off m Kept.start hf) .forceQ rfl
@[simp] theorem refuseOwner_forceReq (page off m : Nat) : (s.refuseOwner page off m).forceReq = s.forceReq :=
  same_of_kept (fun _ hf => State.refuseOwner_kept s page off m Kept.start hf) .forceReq rfl
@[simp] theorem refuseOwner_lastRec (page off m : Nat) : (s.refuseOwner page off m).lastRec = s.lastRec :=
  same_of_kept (fun _ hf => State.refuseOwner_kept s page off m Kept.start hf) .lastRec rfl
@[simp] theorem refuseOwner_pnl (page off m : Nat) : (s.refuseOwner page off m).pnl = s.pnl :=
  same_of_kept (fun _ hf => State.refuseOwner_kept s page off m Kept.start hf) .pnl rfl
@[simp] theorem refuseOwner_dio (page off m : Nat) : (s.refuseOwner page off m).dio = s.dio :=
  same_of_kept (fun _ hf => State.refuseOwner_kept s page off m Kept.start hf) .dio rfl
@[simp] theorem refuseOwner_ana (page off m : Nat) : (s.refuseOwner page off m).ana = s.ana :=
  same_of_kept (fun _ hf => State.refuseOwner_kept s page off m Kept.start hf) .ana rfl
@[simp] theorem refuseOwner_lpe (page off m : Nat) : (s.refuseOwner page off m).lpe = s.lpe :=
  same_of_kept (fun _ hf => State.refuseOwner_kept s page off m Kept.start hf) .lpe rfl
@[simp] theorem refuseOwner_frozeAt (page off m : Nat) : (s.refuseOwner page off m).frozeAt = s.frozeAt :=
  same_of_kept (fun _ hf => State.refuseOwner_kept s page off m Kept.start hf) .froze rfl
@[simp] theorem refuseOwner_ax (page off m : Nat) : (s.refuseOwner page off m).ax = s.ax :=
  same_of_kept (fun _ hf => State.refuseOwner_kept s page off m Kept.start hf) .ax rfl
@[simp] theorem refuseOwner_asrc (page off m : Nat) : (s.refuseOwner page off m).asrc = s.asrc :=
  same_of_kept (fun _ hf => State.refuseOwner_kept s page off m Kept.start hf) .asrc rfl
@[simp] theorem refuseOwner_ang (page off m : Nat) : (s.refuseOwner page off m).ang = s.ang :=
  same_of_kept (fun _ hf => State.refuseOwner_kept s page off m Kept.start hf) .ang rfl
@[simp] theorem refuseOwner_sync (page off m : Nat) : (s.refuseOwner page off m).sync = s.sync :=
  same_of_kept (fun _ hf => State.refuseOwner_kept s page off m Kept.start hf) .sync rfl
@[simp] theorem refuseOwner_dwy (page off m : Nat) : (s.refuseOwner page off m).dwy = s.dwy :=
  same_of_kept (fun _ hf => State.refuseOwner_kept s page off m Kept.start hf) .dwy rfl
@[simp] theorem refuseOwner_seq (page off m : Nat) : (s.refuseOwner page off m).seq = s.seq :=
  same_of_kept (fun _ hf => State.refuseOwner_kept s page off m Kept.start hf) .seq rfl
@[simp] theorem refuseOwner_pair (page off m : Nat) : (s.refuseOwner page off m).pair = s.pair :=
  same_of_kept (fun _ hf => State.refuseOwner_kept s page off m Kept.start hf) .pair rfl
@[simp] theorem refuseOwner_pending (page off m : Nat) : (s.refuseOwner page off m).pending = s.pending :=
  (State.refuseOwner_kept (W := fun _ => false) s page off m Kept.start (fun _ _ => rfl)).queue

/-! ### Action registers -/

theorem servedTo_served {m : Nat} (h : s.servedTo m = true) : s.served = true := by
  simp [servedTo] at h; exact h.1

@[simp] theorem supTouch_of_ne (h : s.boot.unlock ≠ 1) : s.supTouch = s := by simp [supTouch, h]

@[simp] theorem tlyTouch_of_ne (h : s.tly.unlock ≠ 1) : s.tlyTouch = s := by simp [tlyTouch, h]

/-- Only SUP and TLY have an unlock sequence that a write to another register of theirs ends. -/
@[simp] theorem pageTouch_of_ne {page : Nat} (off : Nat) (h1 : page ≠ pgSUP) (h2 : page ≠ pgTLY) : s.pageTouch page off = s := by
  simp [pageTouch, h1, h2]

@[simp] theorem pageTouch_pgPWR (off : Nat) : s.pageTouch pgPWR off = s := s.pageTouch_of_ne off (by decide) (by decide)
@[simp] theorem pageTouch_pgCLK (off : Nat) : s.pageTouch pgCLK off = s := s.pageTouch_of_ne off (by decide) (by decide)
@[simp] theorem pageTouch_pgTIME (off : Nat) : s.pageTouch pgTIME off = s := s.pageTouch_of_ne off (by decide) (by decide)
@[simp] theorem pageTouch_pgEVD (off : Nat) : s.pageTouch pgEVD off = s := s.pageTouch_of_ne off (by decide) (by decide)
@[simp] theorem pageTouch_pgPLACE (off : Nat) : s.pageTouch pgPLACE off = s := s.pageTouch_of_ne off (by decide) (by decide)
@[simp] theorem pageTouch_pgSEQ (off : Nat) : s.pageTouch pgSEQ off = s := s.pageTouch_of_ne off (by decide) (by decide)
@[simp] theorem pageTouch_pgTMR (off : Nat) : s.pageTouch pgTMR off = s := s.pageTouch_of_ne off (by decide) (by decide)
@[simp] theorem pageTouch_pgLPE (off : Nat) : s.pageTouch pgLPE off = s := s.pageTouch_of_ne off (by decide) (by decide)
@[simp] theorem pageTouch_pgLPT (off : Nat) : s.pageTouch pgLPT off = s := s.pageTouch_of_ne off (by decide) (by decide)
@[simp] theorem pageTouch_pgANG (off : Nat) : s.pageTouch pgANG off = s := s.pageTouch_of_ne off (by decide) (by decide)
@[simp] theorem pageTouch_pgDWY (off : Nat) : s.pageTouch pgDWY off = s := s.pageTouch_of_ne off (by decide) (by decide)
@[simp] theorem pageTouch_pgDVL (off : Nat) : s.pageTouch pgDVL off = s := s.pageTouch_of_ne off (by decide) (by decide)
@[simp] theorem pageTouch_pgPAIR (off : Nat) : s.pageTouch pgPAIR off = s := s.pageTouch_of_ne off (by decide) (by decide)
@[simp] theorem pageTouch_pgFLT (off : Nat) : s.pageTouch pgFLT off = s := s.pageTouch_of_ne off (by decide) (by decide)
@[simp] theorem pageTouch_pgLEG (off : Nat) : s.pageTouch pgLEG off = s := s.pageTouch_of_ne off (by decide) (by decide)
@[simp] theorem pageTouch_pgCAL (off : Nat) : s.pageTouch pgCAL off = s := s.pageTouch_of_ne off (by decide) (by decide)
@[simp] theorem pageTouch_pgREC (off : Nat) : s.pageTouch pgREC off = s := s.pageTouch_of_ne off (by decide) (by decide)
@[simp] theorem pageTouch_pgPNL (off : Nat) : s.pageTouch pgPNL off = s := s.pageTouch_of_ne off (by decide) (by decide)
@[simp] theorem pageTouch_pgIND (off : Nat) : s.pageTouch pgIND off = s := s.pageTouch_of_ne off (by decide) (by decide)
@[simp] theorem pageTouch_pgCP (i : Fin 4) (off : Nat) : s.pageTouch (pgCP i.val) off = s :=
  s.pageTouch_of_ne off (by simp only [pgCP, pgSUP]; omega) (by simp only [pgCP, pgTLY]; omega)
@[simp] theorem pageTouch_pgASRC (i : Fin 6) (off : Nat) : s.pageTouch (pgASRC i.val) off = s :=
  s.pageTouch_of_ne off (by simp only [pgASRC, pgSUP]; omega) (by simp only [pgASRC, pgTLY]; omega)
@[simp] theorem pageTouch_pgAX (i : Fin 8) (off : Nat) : s.pageTouch (pgAX i.val) off = s :=
  s.pageTouch_of_ne off (by simp only [pgAX, pgSUP]; omega) (by simp only [pgAX, pgTLY]; omega)
@[simp] theorem pageTouch_pgETH (i : Fin 4) (off : Nat) : s.pageTouch (pgETH i.val) off = s :=
  s.pageTouch_of_ne off (by simp only [pgETH, pgSUP]; omega) (by simp only [pgETH, pgTLY]; omega)
@[simp] theorem pageTouch_pgCAN (i : Fin 4) (off : Nat) : s.pageTouch (pgCAN i.val) off = s :=
  s.pageTouch_of_ne off (by simp only [pgCAN, pgSUP]; omega) (by simp only [pgCAN, pgTLY]; omega)
@[simp] theorem pageTouch_pgDIOG (i : Fin 8) (off : Nat) : s.pageTouch (pgDIOG i.val) off = s :=
  s.pageTouch_of_ne off (by simp only [pgDIOG, pgSUP]; omega) (by simp only [pgDIOG, pgTLY]; omega)
@[simp] theorem pageTouch_pgANA (i : Fin 16) (off : Nat) : s.pageTouch (pgANA i.val) off = s :=
  s.pageTouch_of_ne off (by simp only [pgANA, pgSUP]; omega) (by simp only [pgANA, pgTLY]; omega)
@[simp] theorem pageTouch_pgRCUR (i : Fin 4) (off : Nat) : s.pageTouch (pgRCUR i.val) off = s :=
  s.pageTouch_of_ne off (by simp only [pgRCUR, pgSUP]; omega) (by simp only [pgRCUR, pgTLY]; omega)
@[simp] theorem pageTouch_pgSTN (i : Nat) (off : Nat) : s.pageTouch (pgSTN i) off = s :=
  s.pageTouch_of_ne off (by simp only [pgSTN, pgSUP]; omega) (by simp only [pgSTN, pgTLY]; omega)

@[simp] theorem pageTouch_pgSUP {off : Nat} (h : off ≠ 0x064) : s.pageTouch pgSUP off = s.supTouch := by simp [pageTouch, h]

@[simp] theorem pageTouch_pgTLY {off : Nat} (h : off ≠ 0x060) : s.pageTouch pgTLY off = s.tlyTouch := by
  simp [pageTouch, h, show pgTLY ≠ pgSUP by decide]

@[simp] theorem pageTouch_unlock : s.pageTouch pgSUP 0x064 = s := by simp [pageTouch, show pgSUP ≠ pgTLY by decide]

@[simp] theorem pageTouch_cmdKey : s.pageTouch pgTLY 0x060 = s := by simp [pageTouch, show pgTLY ≠ pgSUP by decide]

/-- An action register of a page that the master may act on acts. -/
theorem action_of_mayAct {page m : Nat} (h : s.mayAct page m) (off : Nat) (f : State → State) :
    s.action page off m f = f (s.pageTouch page off) := by
  obtain ⟨h1, h2, h3⟩ := h
  simp [action, h1, h2, h3]

theorem actionRes_of_mayAct {page m : Nat} (h : s.mayAct page m) (off : Nat) (res : Fld) (v : Nat) (f : State → State) :
    s.actionRes page off m res v f = f (s.pageTouch page off) := by
  simp [actionRes, action_of_mayAct s h, h.2.1]

end Setters
end State
end Sys2Proof.Machine
end

