-- ==== Sys2Proof/Laws/Cells.lean ====
section
/-! SUPPORT. What the start of PD1 leaves, what the timer cells compute, and where a recorder cursor lands. -/

namespace Sys2Proof.Machine

theorem State.afterStart_boot (u : State) (raw h : Nat) : ((u.calAtStart.slotRead raw).pnlRecovery h).boot = u.boot :=
  ((State.same_of_kept (fun _ hf => State.pnlRecovery_kept _ _ Kept.start hf) .boot rfl).trans
    (State.same_of_kept (fun _ hf => State.slotRead_kept _ _ Kept.start hf) .boot rfl)).trans
    (State.same_of_kept (fun _ hf => State.calAtStart_kept _ Kept.start hf) .boot rfl)

theorem State.recTallyStart_boot (u : State) (l : List Nat) : ((u.tallyStart l).recStart).boot = u.boot :=
  (State.same_of_kept (fun _ hf => State.recStart_kept _ Kept.start hf) .boot rfl).trans
    (State.same_of_kept (fun _ hf => State.tallyStart_kept _ l Kept.start hf) .boot rfl)

theorem State.calEdges_boot (u : State) : u.calEdges.boot = u.boot :=
  State.same_of_kept (fun _ hf => State.calEdges_kept _ Kept.start hf) .boot rfl

/-- What the boot state is where PD1 starts. -/
theorem State.pd1Fresh_boot (s : State) : s.pd1Fresh.boot = { phase := .rom, nextCause := s.boot.nextCause, pd0 := true, supplyValid := s.boot.supplyValid, prefFw := s.boot.prefFw, marker := s.boot.marker, markerStep := s.boot.markerStep, keyHash := s.boot.keyHash } := by
  unfold State.pd1Fresh
  extract_lets act b s1 s2
  have : ∀ u : State, (forEach (pgCAL :: pagesOf 1) (fun u p => u.refreshState p) u).boot = u.boot := fun u =>
    State.same_of_kept (l := [.regs]) (fun _ hf => forEach_kept _ _ _ Kept.start (fun x y hx => State.refreshState_kept _ _ hx hf)) .boot rfl
  rw [this]
  rfl

theorem State.pd1Start_boot (s : State) (cause : Nat) (r : StartReading) :
    (s.pd1Start cause r).boot = { s.pd1Fresh.boot with idWait := r.identify } := by
  unfold State.pd1Start
  extract_lets s0 vin s1 s2 s3 s5 b pn s6 s7 q s8 s9 s10
  have e5 : s5.boot = s0.boot := by simp [s5, s3, s2, s1, State.calEdges_boot]
  clear_value s5
  have e6 : s6.boot = { s0.boot with idWait := r.identify } := by rw [← e5]
  clear_value s6
  have e7 : s7.boot = s6.boot := State.recTallyStart_boot _ _
  clear_value s7
  have e9 : s9.boot = s7.boot := by simp [s9, s8]
  clear_value s9
  have e10 : s10.boot = s9.boot := by simp only [s10]; unfold onlyIf; split <;> simp
  clear_value s10
  rw [State.afterStart_boot, e10, e9, e7, e6]

theorem State.ton_spec (o : State.TimerCell) (t pt : Nat) (inp : Bool) :
    (inp = false → State.ton o t inp pt = { o with q := false, run := false, et := 0 }) ∧
    (inp = true → ∀ st, st = (if o.run || o.q then o.start else t) →
      (pt ≤ State.elapsed t st → (State.ton o t inp pt).q = true ∧ (State.ton o t inp pt).run = false ∧
        (State.ton o t inp pt).et = pt) ∧
      (State.elapsed t st < pt → (State.ton o t inp pt).q = o.q ∧ (State.ton o t inp pt).et = State.elapsed t st ∧
        (State.ton o t inp pt).start = st)) := by
  obtain ⟨q, run, mem, start, et⟩ := o
  refine ⟨fun h => by simp [State.ton, h], fun h st hs => ⟨fun hh => ?_, fun hh => ?_⟩⟩ <;> subst hs <;> subst h <;>
    cases q <;> cases run <;> simp [State.ton] at hh ⊢ <;> simp [hh, Nat.not_le.mpr, Nat.le_of_lt]

theorem State.tof_spec (o : State.TimerCell) (t pt : Nat) (inp : Bool) :
    (inp = true → State.tof o t inp pt = { o with q := true, run := false, et := 0 }) ∧
    (inp = false → o.q = false → State.tof o t inp pt = o) ∧
    (inp = false → o.q = true → ∀ st, st = (if o.run then o.start else t) →
      (pt ≤ State.elapsed t st → (State.tof o t inp pt).q = false ∧ (State.tof o t inp pt).run = false ∧
        (State.tof o t inp pt).et = pt) ∧
      (State.elapsed t st < pt → (State.tof o t inp pt).q = true ∧ (State.tof o t inp pt).run = true ∧
        (State.tof o t inp pt).et = State.elapsed t st)) := by
  obtain ⟨q, run, mem, start, et⟩ := o
  refine ⟨fun h => by simp [State.tof, h], fun h hq => by simp_all [State.tof], fun h hq st hs => ⟨fun hh => ?_, fun hh => ?_⟩⟩ <;>
    subst hs <;> subst h <;> simp only at hq <;> subst hq <;>
    cases run <;> simp [State.tof] at hh ⊢ <;> simp [hh, Nat.not_le.mpr, Nat.le_of_lt]

theorem State.tp_spec (o : State.TimerCell) (t pt : Nat) (inp : Bool) :
    (o.run = true ∨ (inp = true ∧ o.mem = false) → ∀ st, st = (if o.run then o.start else t) →
      (pt ≤ State.elapsed t st → (State.tp o t inp pt).q = false ∧ (State.tp o t inp pt).et = pt) ∧
      (State.elapsed t st < pt → (State.tp o t inp pt).q = true ∧ (State.tp o t inp pt).et = State.elapsed t st)) ∧
    (o.run = false → (inp = true → o.mem = true) → (State.tp o t inp pt).q = false ∧
      (State.tp o t inp pt).et = if inp then o.et else 0) := by
  obtain ⟨q, run, mem, start, et⟩ := o
  refine ⟨fun h st hs => ⟨fun hh => ?_, fun hh => ?_⟩, fun h h2 => ?_⟩
  all_goals
    first | subst hs | skip
    cases run <;> cases inp <;> cases mem <;> simp_all [State.tp, Nat.not_le.mpr, Nat.le_of_lt]

theorem receive_takes {s : State} {ev : RecEv} (h : s.queueFull = false) (h2 : s.hasTokens ev.code = true) (v : State)
    (hv : v = (s.takeTokens ev.code).put pgREC REC.CODE_STAT.SUPP 0 ev.code) : s.receive ev = { v with
      recd := { v.recd with queue := v.recd.queue ++ [{
        ev := ev, sev := s.get pgREC REC.CODE_CFG.SEV ev.code, supp := decide (0 < s.get pgREC REC.CODE_STAT.SUPP ev.code)
        count := s.get pgREC REC.CODE_STAT.SUPP ev.code }] } } := by
  subst hv; simp only [State.receive, h, h2, Bool.false_eq_true, if_false, if_true]

theorem seek_some {c m : Fin 4} {s : State} {q : Nat} (f : State → Option Nat) (ha : s.mayAct (pgRCUR c.val) m.val)
    (h : f s = some q) : seek c m f s = .next ((s.curMove c.val q).put (pgRCUR c.val) RCUR.SEEK_STATUS.RESULT 0) := by
  unfold seek
  rw [State.actionRes_of_mayAct _ ha, State.pageTouch_pgRCUR, h]

theorem seek_none {c m : Fin 4} {s : State} (f : State → Option Nat) (ha : s.mayAct (pgRCUR c.val) m.val)
    (h : f s = none) : seek c m f s = .next (s.put (pgRCUR c.val) RCUR.SEEK_STATUS.RESULT 1) := by
  unfold seek
  rw [State.actionRes_of_mayAct _ ha, State.pageTouch_pgRCUR, h]

end Sys2Proof.Machine
end

