-- ==== Sys2Proof/Laws/KeptIdle.lean ====
section
/-! SUPPORT. What a tick of the reference keeps: the invariants and most parts; the queue only grows. -/

namespace Sys2Proof.Machine
variable {W : Part → Bool} {p s t : State}

/-- `s` keeps what `Kept` says of `p`, but for commands that have joined the end of the queue. -/
def Grown (W : Part → Bool) (p s : State) : Prop := ∃ l, Kept W { p with pending := p.pending ++ l } s

theorem Grown.start : Grown W s s :=
  ⟨[], ⟨fun i => ⟨i.mem, i.flash, i.cal, i.ts, i.recq, i.held, i.ring, i.val, i.recs⟩, (List.append_nil _).symm,
    fun q _ => by cases q <;> rfl⟩⟩

theorem Grown.kept (h : Grown W p s) (hk : ∀ q, Kept W q s → Kept W q t) : Grown W p t :=
  h.imp fun _ hl => hk _ hl

theorem Grown.enqueue (h : Grown W p s) (c : Instr) : Grown W p (s.enqueue c) := by
  obtain ⟨l, hl⟩ := h
  refine ⟨l ++ [c], ⟨fun i => ?_, ?_, fun q hq => ?_⟩⟩
  · have j := hl.inv ⟨i.mem, i.flash, i.cal, i.ts, i.recq, i.held, i.ring, i.val, i.recs⟩
    exact ⟨j.mem, j.flash, j.cal, j.ts, j.recq, j.held, j.ring, j.val, j.recs⟩
  · show s.pending ++ [c] = p.pending ++ (l ++ [c])
    rw [hl.queue, List.append_assoc]
  · have := hl.pin q hq
    cases q <;> exact this

theorem Grown.enqueueIf (h : Grown W p s) (b : Bool) (c : Instr) : Grown W p (s.enqueueIf b c) := by
  unfold State.enqueueIf
  split
  · exact h.enqueue c
  · exact h

theorem Grown.onlyIf {b : Bool} {f : State → State} (h : Grown W p s) (hf : b = true → Grown W p (f s)) :
    Grown W p (Machine.onlyIf b f s) := by
  unfold Machine.onlyIf
  split
  · rename_i hb; exact hf hb
  · exact h

theorem tickCounters_grown (h : Grown W p s) (hf : Frees W [.clk]) : Grown W p s.tickCounters := by
  unfold State.tickCounters
  exact ((h.kept fun _ k => k.setClk hf _).enqueueIf _ _).enqueueIf _ _

theorem tickResiduals_grown (h : Grown W p s) : Grown W p s.tickResiduals := by
  unfold State.tickResiduals
  exact ((h.enqueueIf _ _).enqueueIf _ _).enqueueIf _ _

theorem monthLen_pos (y m : Nat) : 28 ≤ monthLen y m := by unfold monthLen; split <;> (try split) <;> omega

/-- The next second of a valid date that is not the last one of the calendar is a valid date. -/
theorem nextSecond_valid {t : CalTime} (h : t.valid = true) (hl : t.frac = 255 → t.last = false) (hf : t.frac = 255) :
    (CalTime.valid { t.nextSecond with frac := 0, presc := 0 }) = true := by
  have hl := hl hf
  have h1 := monthLen_pos t.year (t.month + 1)
  have h2 := monthLen_pos (t.year + 1) 1
  have h3 : monthLen t.year 12 = 31 := by simp [monthLen]
  have h5 := monthLen_pos t.year 1
  unfold CalTime.valid at h ⊢
  unfold CalTime.last CalTime.secOfDay at hl
  simp only [Bool.and_eq_true, decide_eq_true_eq, Bool.and_eq_false_iff, beq_eq_false_iff_ne] at h hl ⊢
  unfold CalTime.nextSecond
  by_cases ha : t.second < 59
  · simp only [ha, if_true]; simp; omega
  · by_cases hb : t.minute < 59
    · simp only [ha, hb, if_true, if_false]; simp; omega
    · by_cases hc : t.hour < 23
      · simp only [ha, hb, hc, if_true, if_false]; simp; omega
      · by_cases hd : t.day < monthLen t.year t.month
        · simp only [ha, hb, hc, hd, if_true, if_false]; simp; omega
        · by_cases he : t.month < 12
          · simp only [ha, hb, hc, hd, he, if_true, if_false]; simp; omega
          · have hm : t.month = 12 := by omega
            rw [hm, h3] at hd h
            simp only [ha, hb, hc, if_false, hm, h3, hd]; simp; omega

/-- A change of the calendar that keeps a valid date valid. -/
theorem Kept.setCalValid (h : Kept W p s) (hf : Frees W [.cal, .now]) (v : Calendar) (e : s.Inv → v.now.valid = true) :
    Kept W p ({ s with cal := v } : State) :=
  h.mono [.cal, .now] hf (fun i => ⟨i.mem, i.flash, e i, i.ts, i.recq, i.held, i.ring, i.val, i.recs⟩) rfl
    (fun q hq => by cases q <;> first | rfl | exact absurd (by simp) hq)

theorem calFrac_grown (h : Grown W p s) (hf : Frees W [.cal, .now]) : Grown W p s.calFrac := by
  unfold State.calFrac State.calCount
  dsimp only
  split
  · exact h.enqueue _
  · rename_i hl
    refine Grown.enqueueIf (Grown.enqueueIf (h.kept fun _ k => k.setCalValid hf _ fun i => ?_) _ _) _ _
    have hc := i.cal
    have hl : s.cal.now.last = false := by simpa using hl
    split
    · revert hc; unfold CalTime.valid; simp; omega
    · rename_i hf
      refine nextSecond_valid hc (fun _ => hl) ?_
      revert hc; unfold CalTime.valid; simp; omega

theorem tickCalendar_grown (h : Grown W p s) (hf : Frees W [.cal, .now]) : Grown W p s.tickCalendar := by
  unfold State.tickCalendar
  dsimp only
  have h1 : Grown W p ({ s with cal := { s.cal with phase := (s.cal.phase + 32768) % 100000000 } } : State) :=
    h.kept fun _ k => k.setCal (hf.sub rfl) _ rfl
  split
  · exact h1
  · split
    · rename_i hp
      refine h1.kept fun _ k => k.setCalValid hf _ fun i => ?_
      have := i.cal; revert this; unfold CalTime.valid; simp; omega
    · exact calFrac_grown h1 hf

theorem baseTick_kept (h : Kept W p s) (hf : Frees W tickParts) : Kept W p s.baseTick := by
  unfold State.baseTick
  have h0 := State.dioBaseTick_kept s h (hf.sub rfl)
  have h1 := onlyIf_kept (s.dioBaseTick.pageOn pgLPT) State.traceTick s.dioBaseTick h0 fun u k => State.traceTick_kept u k (hf.sub rfl)
  refine forEach_kept _ _ _ (forEach_kept _ _ _ (forEach_kept _ _ _ (forEach_kept _ _ _ (forEach_kept _ _ _ h1
    fun u x k => State.anaTake_kept _ x (State.dioTake_kept u x k (hf.sub rfl)) (hf.sub rfl))
    fun u x k => State.anaUpdate_kept u x k (hf.sub rfl)) fun u x k => State.axTake_kept u x k (hf.sub rfl))
    fun u x k => onlyIf_kept _ _ _ k fun v kv => State.canStat_kept v x kv (hf.sub rfl))
    fun u x k => State.axBaseTick_kept u x k (hf.sub rfl)

theorem tickMeasure_kept (h : Kept W p s) (hf : Frees W [.regs, .free]) : Kept W p s.tickMeasure := by
  unfold State.tickMeasure
  have h0 := onlyIf_kept (s.clk.ref % 10000 == 0) (forEach ((List.range 8).filter (fun g => s.pageOn (pgDIOG g)))
    (fun u g => (u.put (pgDIOG g) DIOG.FS_MV.MV u.freeWord.toNat).useFree)) s h fun u k => forEach_kept _ _ _ k
    fun v x kv => State.useFree_kept _ _ (State.put_kept _ _ _ _ _ kv (hf.sub rfl)) (hf.sub rfl)
  exact onlyIf_kept _ _ _ (onlyIf_kept _ _ _ h0
    fun u k => State.useFree_kept _ _ (State.setReg_kept _ _ _ _ _ k (hf.sub rfl)) (hf.sub rfl))
    fun u k => State.useFree_kept _ _ (State.put_kept _ _ _ _ _ k (hf.sub rfl)) (hf.sub rfl)

/-- A tick of the reference: the invariants and the parts outside `tickParts` stay, and the queue only grows at its end. -/
theorem idle_grown (s : State) (hf : Frees W tickParts) : Grown W s s.idle := by
  unfold State.idle
  dsimp only
  have h1 : Grown W s (onlyIf s.boot.pd0 State.tickCalendar s) :=
    Grown.start.onlyIf fun _ => tickCalendar_grown Grown.start (hf.sub rfl)
  generalize onlyIf s.boot.pd0 State.tickCalendar s = s1 at h1 ⊢
  split
  · have h2 : Grown W s s1.tickCounters.tickResiduals.takePendingStep.tickMeasure :=
      (tickResiduals_grown (tickCounters_grown h1 (hf.sub rfl))).kept fun _ k =>
        tickMeasure_kept (State.takePendingStep_kept _ k (hf.sub rfl)) (hf.sub rfl)
    generalize s1.tickCounters.tickResiduals.takePendingStep.tickMeasure = s2 at h2 ⊢
    have h3 : Grown W s (onlyIf (s2.clk.ref % 1000 == 0) State.axTick s2) :=
      h2.onlyIf fun _ => h2.kept fun _ k => State.axTick_kept s2 k (hf.sub rfl)
    exact h3.onlyIf fun _ => h3.kept fun _ k => baseTick_kept k hf
  · exact h1

end Sys2Proof.Machine
end

