-- ==== Sys2Proof/Laws/Registers.lean ====
section
/-! SUPPORT. What registers, stores, bits, events, tallies and memories read after a shared operation. -/

namespace Sys2Proof.Machine

namespace State
theorem dom_put_off (s : State) {page : Nat} {f : Fld} (v idx d : Nat)
    (h : f.off % 4096 ≠ PWR.DOM_STATE.STATE.off % 4096) : (s.put page f v idx).dom d = s.dom d := by
  unfold dom
  rw [get_put_ne]
  unfold regKey
  intro hc
  omega

theorem pageOn_put_off (s : State) {page : Nat} {f : Fld} (v idx q : Nat)
    (h : f.off % 4096 ≠ PWR.DOM_STATE.STATE.off % 4096) : (s.put page f v idx).pageOn q = s.pageOn q := by
  unfold pageOn
  rw [dom_put_off s v idx _ h]

theorem pageOn_putB_off (s : State) {page : Nat} {f : Fld} (b : Bool) (idx q : Nat)
    (h : f.off % 4096 ≠ PWR.DOM_STATE.STATE.off % 4096) : (s.putB page f b idx).pageOn q = s.pageOn q :=
  pageOn_put_off s _ idx q h
end State

/-! ### Registers under the operations on faults -/

namespace State

/-- A register that is neither FLT's statistics nor its last time stays under an edge. -/
theorem reg_edge (s : State) (key : Nat) {p o i : Nat} (hp : p < 512) (ho : o < 4096)
    (h : p ≠ pgFLT ∨ (o ≠ FLT.SRC_STAT.RAISES.off ∧ o ≠ FLT.SRC_LAST_T.off)) : (s.edge key).reg p o i = s.reg p o i := by
  unfold edge
  split
  · rfl
  · split
    · rfl
    · rename_i n _
      unfold put incSat
      rw [reg_setReg_ne _ _ (regKey_ne hp ho (by decide) (by decide) (by rintro ⟨h1, h2, -⟩; rcases h with h | h; exact h h1; exact h.2 h2))]
      unfold put
      rw [reg_setReg_ne _ _ (regKey_ne hp ho (by decide) (by decide) (by rintro ⟨h1, h2, -⟩; rcases h with h | h; exact h h1; exact h.1 h2))]
      rfl

/-- A register that is neither FAULT of the page nor FLT's statistics stays when a fault bit is set. -/
theorem reg_setFault_ne (s : State) {page b p o i : Nat} (hp : p < 512) (ho : o < 4096) (hg : page < 512)
    (h : p ≠ pgFLT ∨ (o ≠ FLT.SRC_STAT.RAISES.off ∧ o ≠ FLT.SRC_LAST_T.off)) (h2 : (p, o, i) ≠ (page, 0x010, 0)) :
    (s.setFault page b).reg p o i = s.reg p o i := by
  have hk : regKey p o i ≠ regKey page 0x010 0 := regKey_ne hp ho hg (by decide) (by rintro ⟨rfl, rfl, rfl⟩; exact h2 rfl)
  unfold setFault
  dsimp only
  split
  · rw [reg_edge _ _ hp ho h, reg_setReg_ne _ _ hk]
  · rw [reg_setReg_ne _ _ hk]

/-- FAULT of the page takes the bit. -/
theorem reg_setFault_same (s : State) {page b : Nat} (hg : page < 512) :
    (s.setFault page b).reg page 0x010 = s.reg page 0x010 ||| BitVec.ofNat 32 (2 ^ b) := by
  unfold setFault
  dsimp only
  split
  · rw [reg_edge _ _ hg (by decide) (Or.inr ⟨by decide, by decide⟩), reg_setReg_same]
  · rw [reg_setReg_same]

theorem getLsbD_two_pow (b i : Nat) (hi : i < 32) : (BitVec.ofNat 32 (2 ^ b)).getLsbD i = (i == b) := by
  simp only [BitVec.getLsbD_ofNat, hi, decide_true, Bool.true_and]
  by_cases h : i = b
  · subst h; simp
  · rw [Nat.testBit_two_pow_of_ne (Ne.symm h)]; simp [h]

theorem getLsbD_setFault (s : State) {page b : Nat} (hg : page < 512) (i : Nat) (hi : i < 32) :
    ((s.setFault page b).reg page 0x010).getLsbD i = (i == b || (s.reg page 0x010).getLsbD i) := by
  rw [reg_setFault_same _ hg, BitVec.getLsbD_or, getLsbD_two_pow _ _ hi, Bool.or_comm]

@[simp] theorem note_reg (s : State) (page code sub : Nat) (p : List Nat) (g o i : Nat) :
    (s.note page code sub p).reg g o i = s.reg g o i := rfl

@[simp] theorem cond_reg (s : State) (page b : Nat) (x : Bool) (g o i : Nat) : (s.cond page b x).reg g o i = s.reg g o i := rfl

/-- What raising a record of a code without a tally is. -/
theorem raise_of_none {code : Nat} (h : tallyOfCode code = none) (s : State) (page sub : Nat) (p : List Nat) :
    s.raise page code sub p = s.note page code sub p := by
  unfold raise; rw [h]

/-- The record that `note` appends. -/
theorem note_raised (s : State) (page code sub : Nat) (p : List Nat) :
    ∃ r, (s.note page code sub p).recd.raised = s.recd.raised ++ [r] ∧ r.code = code ∧ r.page = page ∧ r.sub = sub ∧
      r.p0 = s.param p 0 ∧ r.p1 = s.param p 1 ∧ r.p2 = s.param p 2 := ⟨_, rfl, rfl, rfl, rfl, rfl, rfl, rfl⟩

theorem param_some (s : State) {p : List Nat} {k v : Nat} (h : p[k]? = some v) : s.param p k = v % 4294967296 := by
  unfold param; rw [h]

/-- A write by a master that does not own the page is refused. -/
theorem action_refused (s : State) {page m : Nat} (hs : s.servedTo m = true) (ho : s.owner page ≠ m) (off : Nat) (f : State → State) :
    s.action page off m f = s.refuseOwner page off m := by
  unfold action; simp [hs, ho]

theorem actionRes_refused (s : State) {page m : Nat} (hs : s.servedTo m = true) (ho : s.owner page ≠ m) (off : Nat) (res : Fld)
    (v : Nat) (f : State → State) : s.actionRes page off m res v f = (s.refuseOwner page off m).put page res v := by
  unfold actionRes; simp [hs, ho]

/-- A write to a block whose domain is off does nothing. -/
theorem action_off (s : State) {page off m : Nat} (hs : s.servedTo m = true) (ho : s.owner page = m) (hf : 0x040 ≤ off)
    (hd : s.pageOn page = false) (f : State → State) : s.action page off m f = s := by
  unfold action; simp [hs, ho, hf, hd]

/-- What every pass of a loop keeps, the loop keeps. -/
theorem forEach_keeps {α : Type} (g : State → α) (f : State → Nat → State) (h : ∀ u k, g (f u k) = g u) :
    ∀ (l : List Nat) (s : State), g (forEach l f s) = g s
  | [], _ => rfl
  | k :: l, s => (forEach_keeps g f h l (f s k)).trans (h s k)

theorem reg_put_ne (s : State) {page p o i : Nat} {f : Fld} {v idx : Nat} (hp : p < 512) (ho : o < 4096) (hq : page < 512)
    (hf : f.off < 4096) (h : ¬ (p = page ∧ o = f.off)) : (s.put page f v idx).reg p o i = s.reg p o i :=
  reg_setReg_ne s _ (regKey_ne hp ho hq hf fun e => h ⟨e.1, e.2.1⟩)

@[simp] theorem setAngSlot_shad (s : State) (k : Nat) (a : AngSlot) : (s.setAngSlot k a).shad = s.shad := by
  unfold setAngSlot putB; simp only [put_shad]
@[simp] theorem setAngSlot_buf (s : State) (k : Nat) (a : AngSlot) : (s.setAngSlot k a).buf = s.buf := by
  unfold setAngSlot putB; simp only [put_buf]

/-- A slot's state shows in SLOT_STAT, SLOT_PRED and SLOT_TGT alone. -/
theorem setAngSlot_commit (s : State) (k : Nat) (a : AngSlot) : (s.setAngSlot k a).reg pgANG 0x018 = s.reg pgANG 0x018 := by
  unfold setAngSlot putB
  dsimp only
  rw [reg_put_ne _ (by decide) (by decide) (by decide) (by decide) (by decide), reg_put_ne _ (by decide) (by decide) (by decide) (by decide) (by decide),
    reg_put_ne _ (by decide) (by decide) (by decide) (by decide) (by decide), reg_put_ne _ (by decide) (by decide) (by decide) (by decide) (by decide),
    reg_put_ne _ (by decide) (by decide) (by decide) (by decide) (by decide)]
  unfold reg; rfl

theorem forEach_setAngSlot (f : State → Nat → AngSlot) (l : List Nat) (s : State) :
    (forEach l (fun u k => u.setAngSlot k (f u k)) s).shad = s.shad ∧ (forEach l (fun u k => u.setAngSlot k (f u k)) s).buf = s.buf ∧
    (forEach l (fun u k => u.setAngSlot k (f u k)) s).reg pgANG 0x018 = s.reg pgANG 0x018 :=
  ⟨forEach_keeps State.shad _ (fun u k => setAngSlot_shad u k _) l s, forEach_keeps State.buf _ (fun u k => setAngSlot_buf u k _) l s,
    forEach_keeps (fun u => u.reg pgANG 0x018) _ (fun u k => setAngSlot_commit u k _) l s⟩

/-- GO with nothing pending: PENDING is set and the buffer holds the shadows of the page; beside them only LPE's, ANG's and CAL's
own marks of the commit change. -/
theorem commitGo_does (s : State) {page : Nat} (hon : s.pageOn page = true) (hn : s.on page HDR.COMMIT.PENDING = false) :
    (s.commitGo page).reg page 0x018 = (s.put page HDR.COMMIT.PENDING 1).reg page 0x018 ∧ (s.commitGo page).shad = s.shad ∧
    (s.commitGo page).buf = (s.stagedKeys page s.shad).foldl (fun b k =>
      Store.set (keyReset k) b k (Store.get (keyReset k) s.shad k)) (s.buf.filter (fun e => keyPage e.1 != page)) := by
  unfold commitGo
  simp only [hon, hn, Bool.not_true, Bool.false_eq_true, if_false]
  generalize hv : State.put _ page HDR.COMMIT.PENDING 1 = v
  have e : v.reg page 0x018 = (s.put page HDR.COMMIT.PENDING 1).reg page 0x018 ∧ v.shad = s.shad ∧
    v.buf = (s.stagedKeys page s.shad).foldl (fun b k =>
      Store.set (keyReset k) b k (Store.get (keyReset k) s.shad k)) (s.buf.filter (fun e => keyPage e.1 != page)) := by
    subst hv; exact ⟨rfl, rfl, rfl⟩
  clear hv
  split
  · exact e
  · split
    · rename_i h; subst h
      obtain ⟨a, b, c⟩ := forEach_setAngSlot (fun u k => { u.angSlot k with pend := false, going := true })
        ((List.range 256).filter fun k => (v.angSlot k).pend) v
      exact ⟨c.trans e.1, a.trans e.2.1, b.trans e.2.2⟩
    · split
      · exact e
      · exact e

/-- DISCARD: PENDING and the buffer are gone and the shadows hold the values in effect; beside them only LPE's, ANG's and CAL's own
marks of the commit change. -/
theorem commitDiscard_does (s : State) {page : Nat} (hon : s.pageOn page = true) :
    (s.commitDiscard page).reg page 0x018 = (s.commitDrop page).reg page 0x018 ∧ (s.commitDiscard page).buf = (s.commitDrop page).buf ∧
    (s.commitDiscard page).shad = (stagedIn page (s.commitDrop page).regs).foldl (fun b k =>
      Store.set (keyReset k) b k (Store.get (keyReset k) (s.commitDrop page).regs k)) (s.shad.filter (fun e => keyPage e.1 != page)) := by
  unfold commitDiscard
  simp only [hon, Bool.not_true, Bool.false_eq_true, if_false]
  have es : (s.commitDrop page).shad = s.shad := rfl
  generalize hd : s.commitDrop page = d at es
  rw [es]
  generalize hv : List.foldl _ _ _ = b
  generalize hw : ({ d with shad := b } : State) = v
  have e : v.reg page 0x018 = d.reg page 0x018 ∧ v.buf = d.buf ∧ v.shad = b := by subst hw; exact ⟨rfl, rfl, rfl⟩
  clear hv
  split
  · rename_i h; subst h
    unfold lDiscard
    dsimp only
    refine ⟨?_, e.2⟩
    rw [← e.1]
    show (v.put pgLPE LPE.STATUS.APPLYING 0).reg pgLPE 0x018 = _
    exact reg_put_ne v (by decide) (by decide) (by decide) (by decide) (by decide)
  · split
    · rename_i h; subst h
      obtain ⟨x, y, z⟩ := forEach_setAngSlot (fun u k => { u.angSlot k with pend := false, going := false })
        ((List.range 256).filter fun k => (v.angSlot k).going || (v.angSlot k).pend) v
      exact ⟨z.trans e.1, y.trans e.2.1, x.trans e.2.2⟩
    · split
      · subst hw; exact e
      · exact e

/-- Save on ANG, GO writes no register but COMMIT. -/
theorem commitGo_reg (s : State) {page p o i : Nat} (hon : s.pageOn page = true) (hn : s.on page HDR.COMMIT.PENDING = false)
    (ha : page ≠ pgANG) (h : regKey p o i ≠ regKey page HDR.COMMIT.PENDING.off 0) : (s.commitGo page).reg p o i = s.reg p o i := by
  unfold commitGo
  simp only [hon, hn, Bool.not_true, Bool.false_eq_true, if_false, if_neg ha]
  generalize hv : State.put _ page HDR.COMMIT.PENDING 1 = v
  have e : v.reg p o i = s.reg p o i := by subst hv; exact reg_setReg_ne _ _ h
  clear hv
  split
  · exact e
  · split
    · exact e
    · exact e

/-- Save on LPE and ANG, DISCARD writes no register but COMMIT. -/
theorem commitDiscard_reg (s : State) {page p o i : Nat} (hon : s.pageOn page = true) (hl : page ≠ pgLPE)
    (ha : page ≠ pgANG) (h : regKey p o i ≠ regKey page HDR.COMMIT.PENDING.off 0) : (s.commitDiscard page).reg p o i = s.reg p o i := by
  unfold commitDiscard
  simp only [hon, Bool.not_true, Bool.false_eq_true, if_false, if_neg ha, if_neg hl]
  have e : (s.commitDrop page).reg p o i = s.reg p o i := reg_setReg_ne _ _ h
  generalize s.commitDrop page = d at e
  split
  · exact e
  · exact e

/-- A unit's refresh writes its STATE alone. -/
theorem reg_refreshUnit (s : State) {page p o i : Nat} (hp : p < 512) (ho : o < 4096) (hq : page < 512) (h : o ≠ HDR.STATUS.STATE.off) :
    (s.refreshUnit page).reg p o i = s.reg p o i := by
  have r : ∀ (u : State) (q : Nat), q < 512 → (u.refreshState q).reg p o i = u.reg p o i := by
    intro u q hq
    unfold refreshState
    dsimp only
    split <;> exact reg_put_ne _ hp ho hq (by decide) (fun e => h e.2)
  unfold refreshUnit
  split
  · rw [r _ _ (by decide), r _ _ hq]
  · exact r _ _ hq

theorem reg_fltDrop (s : State) {key p o i : Nat} (hp : p < 512) (ho : o < 4096) (hq : key / 64 < 512) (h : o ≠ HDR.STATUS.STATE.off) :
    (s.fltDrop key).reg p o i = s.reg p o i := by
  unfold fltDrop
  rw [reg_refreshUnit _ hp ho hq h]
  rfl

/-- A write of FAULT_EN leaves the value in it. -/
theorem faultEnWrite_does (s : State) {page v : Nat} (hp : page < 512) :
    (s.faultEnWrite page v).reg page 0x014 = BitVec.ofNat 32 v := by
  have hd : ∀ b, b < 32 → faultKey page b / 64 < 512 := by intro b hb; unfold faultKey; omega
  have loop : ∀ (l : List Nat) (u : State), (∀ b ∈ l, b < 32) → (forEach l (fun u b =>
      if bitOf v b && !bitOf (s.reg page 0x014).toNat b then
        (if bitOf (u.reg page 0x010).toNat b then u.edge (faultKey page b) else u)
      else if bitOf (s.reg page 0x014).toNat b && !bitOf v b then
        (if u.faultBitSet (faultKey page b) then u.fltDrop (faultKey page b) else u)
      else u) u).reg page 0x014 = u.reg page 0x014 := by
    intro l
    induction l with
    | nil => intro u _; rfl
    | cons b l ih =>
      intro u hb
      refine (ih _ fun c hc => hb c (List.mem_cons_of_mem _ hc)).trans ?_
      have := hd b (hb b List.mem_cons_self)
      dsimp only
      split
      · split
        · exact reg_edge _ _ hp (by decide) (Or.inr ⟨by decide, by decide⟩)
        · rfl
      · split
        · split
          · exact reg_fltDrop _ hp (by decide) this (by decide)
          · rfl
        · rfl
  unfold faultEnWrite
  dsimp only
  rw [loop _ _ (fun b hb => List.mem_range.mp hb), reg_setReg_same]

end State

/-! ### Stores and bits -/

theorem Store.get_unlisted {α : Type} (d : α) (m : Store α) {k : Nat} (h : k ∉ m.map (fun e => e.1)) : Store.get d m k = d := by
  induction m with
  | nil => rfl
  | cons e r ih =>
    obtain ⟨a, b⟩ := e
    simp only [List.map_cons, List.mem_cons, not_or] at h
    unfold Store.get
    rw [if_neg (Ne.symm h.1)]
    exact ih h.2

/-- What a key reads after a list of keys has been written, each with a value and a default of its own. -/
theorem Store.get_foldl_set {α : Type} [DecidableEq α] (d f : Nat → α) (keys : List Nat) (m : Store α) (k : Nat) :
    Store.get (d k) (keys.foldl (fun b j => Store.set (d j) b j (f j)) m) k = if k ∈ keys then f k else Store.get (d k) m k := by
  induction keys generalizing m with
  | nil => simp
  | cons j r ih =>
    rw [List.foldl_cons, ih]
    by_cases hr : k ∈ r
    · simp [hr]
    · rw [if_neg hr]
      by_cases hj : k = j
      · subst hj; simp
      · rw [Store.get_set_ne _ _ _ _ hj]; simp [hr, hj]

theorem keyPage_regKey {page off idx : Nat} (hp : page < 512) (ho : off < 4096) : keyPage (regKey page off idx) = page := by
  unfold keyPage regKey; omega

theorem keyOff_regKey {page off idx : Nat} (ho : off < 4096) : keyOff (regKey page off idx) = off := by
  unfold keyOff regKey; omega

theorem keyIdx_regKey {page off idx : Nat} (hp : page < 512) (ho : off < 4096) : keyIdx (regKey page off idx) = idx := by
  unfold keyIdx regKey; omega

theorem keyReset_regKey {page off idx : Nat} (hp : page < 512) (ho : off < 4096) :
    keyReset (regKey page off idx) = resetWord page off idx := by
  unfold keyReset; rw [keyPage_regKey hp ho, keyOff_regKey ho, keyIdx_regKey hp ho]

theorem bitOf_eq_testBit (n b : Nat) : bitOf n b = n.testBit b := by
  unfold bitOf
  rw [Nat.testBit_eq_decide_div_mod_eq]
  by_cases h : n / 2 ^ b % 2 = 1 <;> simp [h]

/-- Adding a power of two that is clear sets that bit and no other. -/
theorem testBit_add_clear {n b : Nat} (h : n.testBit b = false) (j : Nat) : (n + 2 ^ b).testBit j = (j == b || n.testBit j) := by
  have e : n + 2 ^ b = putBits n b b 1 := by
    unfold putBits bits
    have : n / 2 ^ b % 2 ^ (b - b + 1) = 0 := by
      rw [Nat.sub_self]
      have := (Nat.testBit_eq_decide_div_mod_eq (x := n) (i := b)).symm.trans h
      simp at this
      omega
    rw [this]; simp
  rw [e, testBit_putBits _ _ _ _ _ (le_refl b)]
  by_cases hj : j = b
  · subst hj; simp
  · rw [if_neg (by omega)]; simp [hj]

namespace State

/-- The registers of a page other than EVD and FLT stay under an event. -/
theorem reg_event (s : State) (src : Nat) {p o i : Nat} (hp : p < 512) (ho : o < 4096) (h1 : p ≠ pgEVD) (h2 : p ≠ pgFLT) :
    (s.event src).reg p o i = s.reg p o i := by
  unfold event
  split
  · split
    · rfl
    · unfold enqueueEvent
      dsimp only
      split
      · rfl
      · unfold evDrop
        rw [note_reg, reg_setFault_ne _ hp ho (by decide) (Or.inl h2) (by intro h; injection h with h; exact h1 h)]
        exact reg_setReg_ne _ _ (regKey_ne hp ho (by decide) (by decide : (0x04C : Nat) < 4096) (by rintro ⟨h, -⟩; exact h1 h))
  · rfl

/-- An event adds records at the end, if any. -/
theorem event_raised (s : State) (src : Nat) : ∃ l, (s.event src).recd.raised = s.recd.raised ++ l := by
  unfold event
  split
  · split
    · exact ⟨[], (List.append_nil _).symm⟩
    · unfold enqueueEvent
      dsimp only
      split
      · exact ⟨[], (List.append_nil _).symm⟩
      · unfold evDrop
        obtain ⟨r, h, -⟩ := note_raised ((s.put pgEVD _ (satAdd 255 (bits (s.reg pgEVD 0x04C).toNat (8 * s.get pgEVD EVD.ROUTE_DATA.PAIR src + 7) (8 * s.get pgEVD EVD.ROUTE_DATA.PAIR src)) 1)).setFault pgEVD 16) pgEVD 0x028 (s.get pgEVD EVD.ROUTE_DATA.PAIR src) [src]
        exact ⟨[r], by rw [h, setFault_recd, put_recd]⟩
  · exact ⟨[], (List.append_nil _).symm⟩

@[simp] theorem tallyCheck_tly (s : State) (i : Nat) : (s.tallyCheck i).tly = s.tly := by
  unfold tallyCheck
  dsimp only
  split
  · simp
  · rfl

/-- A counter set: its value, no other's; its threshold test; records only at the end. -/
theorem tallySet_tally (s : State) {i : Nat} (v : Nat) (hi : ¬ (120 ≤ i ∧ i ≤ 127)) (j : Nat) :
    (s.tallySet i v).tally j = if j = i then min v 18446744073709551615 else s.tally j := by
  unfold tallySet tally
  rw [if_neg hi, tallyCheck_tly]
  split
  · rename_i h; subst h; exact Store.get_set_same _ _ _ _
  · rename_i h; exact Store.get_set_ne _ _ _ _ h

theorem tallySet_raised (s : State) (i v : Nat) : ∃ l, (s.tallySet i v).recd.raised = s.recd.raised ++ l := by
  unfold tallySet
  split
  · exact ⟨[], (List.append_nil _).symm⟩
  · unfold tallyCheck
    dsimp only
    split
    · generalize hu : (({ s with tly := { s.tly with val := Store.set 0 s.tly.val i (min v 18446744073709551615) } } : State)) = u
      have hr : u.recd = s.recd := by rw [← hu]
      rw [← hr]
      generalize hx : (u.put pgTLY (TLY.WARN (i / 32)) _).setFault pgTLY 16 = x
      have hr2 : x.recd = u.recd := by rw [← hx, setFault_recd, put_recd]
      obtain ⟨l, hl⟩ := event_raised x 0x388
      obtain ⟨r, h, -⟩ := note_raised (x.event 0x388) pgTLY 0x241 0 [i, u.tally i, u.tally i / 4294967296]
      exact ⟨l ++ [r], by rw [h, hl, hr2, List.append_assoc]⟩
    · exact ⟨[], (List.append_nil _).symm⟩

end State

namespace State

@[simp] theorem setOsf_cal (s : State) : s.setOsf.cal = s.cal := by unfold setOsf calTrust; rw [put_cal, cond_cal, setFault_cal, put_cal]
@[simp] theorem setOsf_recd (s : State) : s.setOsf.recd = s.recd := by unfold setOsf calTrust; rw [put_recd, cond_recd, setFault_recd, put_recd]
@[simp] theorem setOsf_boot (s : State) : s.setOsf.boot = s.boot := by unfold setOsf calTrust; rw [put_boot, cond_boot, setFault_boot, put_boot]

end State

/-! ### The event that a pair takes -/

theorem takeFold_stays (x : EvEntry) (l : List EvEntry) (h : ∀ y ∈ l, y.prio ≤ x.prio) :
    l.foldl (fun acc q => match acc with
      | some b => if b.prio < q.prio then some q else acc
      | none => some q) (some x) = some x := by
  induction l with
  | nil => rfl
  | cons y r ih =>
    rw [List.foldl_cons]
    dsimp only
    rw [if_neg (by have := h y List.mem_cons_self; omega)]
    exact ih fun z hz => h z (List.mem_cons_of_mem _ hz)

theorem takeFold_reaches (x : EvEntry) (l1 l2 : List EvEntry) (acc : Option EvEntry) (h1 : ∀ y ∈ l1, y.prio < x.prio)
    (h2 : ∀ y ∈ l2, y.prio ≤ x.prio) (ha : ∀ b, acc = some b → b.prio < x.prio) :
    (l1 ++ x :: l2).foldl (fun acc q => match acc with
      | some b => if b.prio < q.prio then some q else acc
      | none => some q) acc = some x := by
  induction l1 generalizing acc with
  | nil =>
    rw [List.nil_append, List.foldl_cons]
    cases acc with
    | none => exact takeFold_stays x l2 h2
    | some b =>
      dsimp only
      rw [if_pos (ha b rfl)]
      exact takeFold_stays x l2 h2
  | cons y r ih =>
    rw [List.cons_append, List.foldl_cons]
    refine ih _ (fun z hz => h1 z (List.mem_cons_of_mem _ hz)) fun b hb => ?_
    have hy := h1 y List.mem_cons_self
    cases acc with
    | none => dsimp only at hb; injection hb with hb; exact hb ▸ hy
    | some c =>
      dsimp only at hb
      split at hb
      · injection hb with hb; exact hb ▸ hy
      · exact ha b hb

theorem dropFirst_append (x : EvEntry) (l1 l2 : List EvEntry) (h : x ∉ l1) : State.dropFirst x (l1 ++ x :: l2) = l1 ++ l2 := by
  induction l1 with
  | nil => simp [State.dropFirst]
  | cons y r ih =>
    simp only [List.mem_cons, not_or] at h
    simp only [List.cons_append, State.dropFirst]
    rw [if_neg (fun e => h.1 e.symm), ih h.2]

/-! ### Memories as functions of the address -/

theorem Memory.rd_lt_head {m : Memory} {a x : Nat} {v : Byte} (h : Memory.wf ((a, v) :: m) = true) (hx : x ≤ a) :
    Memory.rd m x = Config.unwrittenByte := by
  obtain ⟨hs, -⟩ := (Store.wf_iff _ _).mp h
  have hp := (List.pairwise_cons.mp hs).1
  refine Store.get_unlisted _ _ fun hm => ?_
  obtain ⟨e, he, rfl⟩ := List.mem_map.mp hm
  have := hp e he
  dsimp only at this
  omega

theorem Memory.wf_tail {m : Memory} {e : Nat × Byte} (h : Memory.wf (e :: m) = true) :
    Memory.wf m = true ∧ e.2 ≠ Config.unwrittenByte := by
  obtain ⟨hs, ha⟩ := (Store.wf_iff _ _).mp h
  refine ⟨(Store.wf_iff _ _).mpr ⟨?_, ?_⟩, ?_⟩
  · exact (List.pairwise_cons.mp hs).2
  · exact fun x hx => ha x (List.mem_cons_of_mem _ hx)
  · exact ha e List.mem_cons_self

theorem leBytes_length (v n : Nat) : (leBytes v n).length = n := by
  induction n generalizing v with
  | zero => rfl
  | succ n ih => simp [leBytes, ih]

theorem leNat_leBytes (v n : Nat) : leNat (leBytes v n) = v % 256 ^ n := by
  induction n generalizing v with
  | zero => simp [leBytes, leNat, Nat.mod_one]
  | succ n ih =>
    simp only [leBytes, leNat, ih, BitVec.toNat_ofNat]
    rw [show 256 ^ (n + 1) = 256 * 256 ^ n by ring, Nat.mod_mul]

/-- Reading the bytes of a range gives the list whose elements they are. -/
theorem Memory.bytes_eq (m : Memory) (l : List Byte) (a : Nat) (h : ∀ (i : Nat) (hi : i < l.length), Memory.rd m (a + i) = l[i]) :
    Memory.bytes m a l.length = l := by
  induction l generalizing a with
  | nil => rfl
  | cons b r ih =>
    simp only [List.length_cons, Memory.bytes]
    have h0 := h 0 (by simp)
    simp only [Nat.add_zero, List.getElem_cons_zero] at h0
    rw [h0, ih (a + 1) fun i hi => by
      have := h (i + 1) (by simpa using hi)
      simpa [Nat.add_assoc, Nat.add_comm 1 i] using this]

end Sys2Proof.Machine
end

