-- ==== Sys2Proof/Tests/Slice0.lean ====
section
/-! SUPPORT. Small tests: what `Instr.wellFormed` refuses, single commands against values that the spec states, and for every
statement with hypotheses a state and operands that meet them. -/

namespace Sys2Proof.Tests
open Sys2Proof Sys2Proof.Machine

-- One theorem after the other: many `decide +kernel` at once need a thread and its stack each.
set_option Elab.async false

/-! ### WellFormed refuses an ill-formed command, check by check -/

theorem test_wf_image_task_twice : Instr.wellFormed (.imageVerify { tasks := [{ task := 1 }, { task := 1 }] } {}) = false := by decide
theorem test_wf_image_entry_twice : Instr.wellFormed (.imageLoadComplete false { entries := [{ index := 7 }, { index := 7 }] } {}) = false := by
  decide
theorem test_wf_image_shed_order : Instr.wellFormed (.imageVerify { shedOrder := List.replicate 33 0 } {}) = false := by decide
theorem test_wf_image_init (l : List Byte) (h : l.length = 8185) :
    StationImage.wellFormed { entries := [{ index := 7, init := l }] } = false := by
  simp [StationImage.wellFormed, h]
theorem test_wf_image_instance_twice : StationImage.wellFormed
    { instances := [⟨7, 1, .task 0⟩, ⟨7, 2, .cell 5⟩] } = false := by decide
theorem test_wf_frame_short : Instr.wellFormed (.frameReceive 0 true (List.replicate 13 0)) = false := by decide
theorem test_wf_frame_long (f : List Byte) (h : f.length = 1523) : Instr.wellFormed (.join f) = false := by
  simp [Instr.wellFormed, ethLen, h]
theorem test_wf_can_length : Instr.wellFormed (.canReceive 0 0 false 0 false false 9 (List.replicate 9 0)) = false := by decide
theorem test_wf_hart_long (f : List Byte) (h : f.length = 257) : Instr.wellFormed (.hartBurst 0 f) = false := by
  simp [Instr.wellFormed, h]
theorem test_wf_dervor_short : Instr.wellFormed (.commit 0 (List.replicate 11 0)) = false := by decide
theorem test_wf_dervor_long (f : List Byte) (h : f.length = 1053) : Instr.wellFormed (.heartbeat 0 f 0) = false := by
  simp [Instr.wellFormed, dervorLen, h]
theorem test_wf_write_wide : Instr.wellFormed (.corePairAccess 0 (.write 0 256) 0 true false false .good 0 false) = false := by decide
theorem test_wf_line_length : Instr.wellFormed (.taskExecutionEnd 0 0 [] [(0, List.replicate 63 0)]) = false := by decide
theorem test_wf_output_twice : Instr.wellFormed (.taskExecutionEnd 0 0 [(3, 0, []), (3, 1, [])] []) = false := by decide
theorem test_wf_retry_twice : Instr.wellFormed (.domainRetry [(3, ⟨0, true⟩), (3, ⟨0, false⟩)]) = false := by decide
theorem test_wf_selftest_twice : Instr.wellFormed (.selftest [4, 4] [] [] []) = false := by decide
theorem test_wf_tec : Instr.wellFormed (.canBusError 0 257 0 0 0) = false := by decide
theorem test_wf_accepts : Instr.wellFormed (.canReceive 0 0 false 0 false false 9 (List.replicate 12 0)) = true := by decide

/-! ### Hypotheses that can be met

One theorem for each statement with hypotheses: states and operands that meet the hypotheses of each of its clauses, at boundary
values of their ranges. A hypothesis that only names a value (`u = …`) is met by that value and is put in its place. -/

/-- The module after its start: firmware runs, every domain is on, master 0 owns every page. -/
def live : State := { State.reset with
  boot := { State.reset.boot with phase := .firmware, pd0 := true }
  regs := [(regKey pgPWR PWR.DOM_STATE.STATE.off 0, 0xAAAAAA#32)] }

/-- The last instant of 2199. -/
def lastInstant : CalTime := { year := 2199, month := 12, day := 31, hour := 23, minute := 59, second := 59, frac := 255 }

/-- `live` with fields at other values. -/
def liveWith (l : List (Nat × Fld × Nat)) : State := l.foldl (fun s x => s.put x.1 x.2.1 x.2.2) live

/-- `live` with another boot state. -/
def liveBoot (f : Boot → Boot) : State := { live with boot := f live.boot }

theorem witness_SupplyMonitoring :
    live.pd1 = true ∧ live.on pgSUP SUP.SUPPLY.SUPA_OK = false ∧ live.on pgSUP SUP.SUPPLY.SUPB_OK = false ∧
    (liveWith [(pgSUP, SUP.SUPPLY.SUPA_OK, 1)]).on pgSUP SUP.SUPPLY.SUPA_OK = true ∧
    (liveWith [(pgSUP, SUP.SUPPLY.SUPB_OK, 1)]).on pgSUP SUP.SUPPLY.SUPB_OK = true ∧
    live.on pgSUP SUP.SUPPLY.VIN_LOW = false ∧
    (live.boot.busyCmd = 0 ∧ (199#16).toNat < 200) ∧
    ((liveBoot ({ · with busyCmd := 4 })).pd1 = true ∧ (liveBoot ({ · with busyCmd := 4 })).boot.busyCmd = 4 ∧
      200 ≤ (200#16).toNat) ∧
    (2699#16).toNat < 2700 ∧ 2700 ≤ (2700#16).toNat := by decide

theorem witness_StartOfTheModule :
    ((liveBoot ({ · with phase := .unpowered })).boot.phase = .unpowered ∧
      (liveBoot ({ · with phase := .unpowered })).boot.pd0 = true) ∧
    ((liveBoot ({ · with phase := .supplied, nextCause := 3 })).boot.phase = .supplied ∧
      (liveBoot ({ · with phase := .supplied, nextCause := 3 })).boot.nextCause = 3) ∧
    ((liveBoot ({ · with phase := .parked, overTemp := true })).boot.phase = .parked ∧
      (liveBoot ({ · with phase := .parked, overTemp := true })).boot.overTemp = true) ∧
    (live.pd1 = true ∧ live.on pgSUP SUP.SLOT_ID.VALID = false ∧ live.boot.idDeadline = false ∧
      State.slotValid (4#6).toNat = true ∧ live.inSequence = false) ∧
    ((liveWith [(pgSUP, SUP.SLOT_ID.VALID, 1)]).pd1 = true ∧
      (liveWith [(pgSUP, SUP.SLOT_ID.VALID, 1)]).on pgSUP SUP.SLOT_ID.VALID = true ∧
      (liveWith [(pgSUP, SUP.SLOT_ID.VALID, 1)]).boot.idEpisode = false ∧
      (63#6).toNat ≠ (liveWith [(pgSUP, SUP.SLOT_ID.VALID, 1)]).get pgSUP SUP.SLOT_ID.RAW) ∧
    ((liveBoot ({ · with phase := .rom })).boot.phase = .rom ∧ (liveBoot ({ · with phase := .rom })).boot.fwFailed = [] ∧
      (9 : Fin 10).val ≠ 0) := by decide

theorem witness_ClocksAndTemperature :
    live.pd1 = true ∧
    live.get pgCLK CLK.REF_DEV_LIMIT.LIMIT < (0x8000#16).toInt.natAbs ∧
    ¬ live.get pgCLK CLK.REF_DEV_LIMIT.LIMIT < (0#16).toInt.natAbs ∧
    (live.boot.warm = false ∧ signed 16 (live.get pgSUP SUP.TEMP_WARN.CASE_WARN) < (0x7FFF#16).toInt) ∧
    ((liveBoot ({ · with warm := true })).pd1 = true ∧ (liveBoot ({ · with warm := true })).boot.warm = true ∧
      (0x8000#16).toInt ≤ signed 16 ((liveBoot ({ · with warm := true })).get pgSUP SUP.TEMP_WARN.CASE_WARN) - 16) ∧
    (live.boot.overTemp = false ∧ live.inSequence = false ∧ live.boot.phase ≠ .parked ∧ 1040 ≤ (1040#16).toInt) := by decide

theorem witness_HoldupAndShutdownSequences :
    (live.pd1 = true ∧ live.boot.phase ≠ .sequence ∧ live.inSequence = false) ∧
    (∀ n ∈ [3, 4, 5, 6], (liveBoot ({ · with seqKind := .supplyLoss, seqDone := n })).fastKind = true ∧
      (liveBoot ({ · with seqKind := .supplyLoss, seqDone := n })).boot.seqKind = .supplyLoss ∧
      (liveBoot ({ · with seqKind := .supplyLoss, seqDone := n })).boot.seqDone = n) ∧
    (∀ n ∈ [3, 4, 5, 6], (liveBoot ({ · with seqKind := .shutdown, seqDone := n, shutPos := 8 })).slowKind = true ∧
      (liveBoot ({ · with seqKind := .shutdown, seqDone := n, shutPos := 8 })).boot.seqDone = n ∧
      (liveBoot ({ · with seqKind := .shutdown, seqDone := n, shutPos := 8 })).boot.shutPos < 9 ∧
      (liveBoot ({ · with seqKind := .shutdown, seqDone := n, shutPos := 8 })).dom (shutOrder.getD 8 2) ≠ 0) := by decide

/-- Identity known, start complete, image verified. -/
def verified : State :=
  liveWith [(pgSUP, SUP.SLOT_ID.VALID, 1), (pgPWR, PWR.SEQ.DONE, 1), (pgSUP, SUP.IMAGE_STATUS.VERIFIED, 1)]

theorem witness_IdentifyAndStop :
    (live.pd1 = true ∧ live.fastKind = false) ∧
    ((liveBoot ({ · with idWait := true })).pd1 = true ∧ (liveBoot ({ · with idWait := true })).inSequence = false ∧
      (liveBoot ({ · with idWait := true })).boot.idWait = true) ∧
    (verified.boot.phase = .firmware ∧ verified.on pgSUP SUP.SLOT_ID.VALID = true ∧ verified.boot.reachedStop = false ∧
      ({} : ImageCheck).readable = true ∧ ({} : ImageCheck).held = true) ∧
    ((verified.setImage 0 (some {})).boot.phase = .firmware ∧ (verified.setImage 0 (some {})).on pgPWR PWR.SEQ.DONE = true ∧
      (verified.setImage 0 (some {})).on pgSUP SUP.IMAGE_STATUS.VERIFIED = true ∧
      (verified.setImage 0 (some {})).boot.maint = false ∧ (verified.setImage 0 (some {})).boot.idWait = false ∧
      (verified.setImage 0 (some {})).boot.startFailed = false ∧ (verified.setImage 0 (some {})).boot.reachedStop = false ∧
      (verified.setImage 0 (some {})).dom 2 = 2 ∧ (verified.setImage 0 (some {})).dom 7 = 2 ∧
      Store.get none (verified.setImage 0 (some {})).seq.images
        ((verified.setImage 0 (some {})).get pgSUP SUP.IMAGE_STATUS.ACTIVE_SLOT) = some {}) := by decide

/-- Start complete, CMD unlocked, `n` blocks at address 0. -/
def unlocked (n : Nat) : State := { liveWith [(pgPWR, PWR.SEQ.DONE, 1), (pgSUP, SUP.CMD_LEN.BLOCKS, n)] with
  boot := { live.boot with unlock := 2 } }

theorem witness_SupervisorCommands :
    (∀ n ∈ [1, 65536, 262144], (unlocked n).pd1 = true ∧ (unlocked n).boot.phase ≠ .romRecovery ∧ (unlocked n).boot.maint = false ∧
      (unlocked n).owner pgSUP = 0 ∧ (unlocked n).on pgSUP SUP.CMD_STATUS.BUSY = false ∧ (unlocked n).boot.unlock = 2 ∧
      ((unlocked n).setBoot { (unlocked n).boot with unlock := 0 }).mayStop = true ∧
      ((unlocked n).setBoot { (unlocked n).boot with unlock := 0 }).fastKind = false ∧
      ((unlocked n).setBoot { (unlocked n).boot with unlock := 0 }).inSequence = false ∧
      ((unlocked n).setBoot { (unlocked n).boot with unlock := 0 }).cmdAddr % 4096 = 0 ∧
      ((unlocked n).setBoot { (unlocked n).boot with unlock := 0 }).get pgSUP SUP.CMD_LEN.BLOCKS = n) ∧
    ((7#16).toNat ≤ 7 ∧ (1#16).toNat ≤ 1) ∧
    (∀ n ∈ [0, 1], (liveBoot ({ · with unlock := n })).mayAct pgSUP 0 ∧
      (liveBoot ({ · with unlock := n })).boot.unlock = n) ∧
    ({ live with boot := { live.boot with unlock := 1 }, clk := { live.clk with ref := 100000 } } : State).clk.ref ≤
      ({ live with boot := { live.boot with unlock := 1 }, clk := { live.clk with ref := 100000 } } : State).boot.unlockAt
        + 100000 := by
  unfold State.mayAct
  decide

/-- The last writable flash block is addressed. -/
def lastBlock : State := liveWith [(pgSUP, SUP.FLASH_BLOCK.BLOCK, 0x19FFFF), (pgSUP, SUP.FLASH_COUNT.COUNT, 1)]

/-- Flash operation `op` on one block, with memory at the end of tier 1; or the load `c` in progress, key slot 0 enrolled. -/
def flashing (op c : Nat) : State := { liveWith [(pgSUP, SUP.KEYS.IMG_ENROLLED, 1)] with
  boot := { live.boot with flashOp := op, flashCount := 1, flashDma := tier1Base + 0x7FF000, busyCmd := c } }

/-- What a load of the image `im` leaves in flash. -/
def loaded (s : State) (im : StationImage) : State := (s.flashStore (imageBase s.imageTarget)).setImage s.imageTarget (some im)

theorem witness_FlashAndLoads :
    (lastBlock.mayAct pgSUP 0 ∧ lastBlock.supTouch.on pgSUP SUP.FLASH_STATUS.BUSY = false ∧
      lastBlock.supTouch.get pgSUP SUP.FLASH_COUNT.COUNT ≠ 0 ∧
      flashRegion (lastBlock.supTouch.get pgSUP SUP.FLASH_BLOCK.BLOCK) = some (0x19FFFF, true) ∧
      lastBlock.supTouch.get pgSUP SUP.FLASH_BLOCK.BLOCK + lastBlock.supTouch.get pgSUP SUP.FLASH_COUNT.COUNT - 1 ≤ 0x19FFFF) ∧
    (∀ op ∈ [1, 2, 3], (flashing op 0).pd1 = true ∧ (flashing op 0).boot.flashOp = op ∧
      inTier12 (flashing op 0).boot.flashDma ((flashing op 0).boot.flashCount * 4096) = true) ∧
    (let s := (flashing 2 0).setBoot { (flashing 2 0).boot with flashDma := traceBase }
     s.pd1 = true ∧ s.boot.flashOp = 2 ∧ inTrace s.boot.flashDma (s.boot.flashCount * 4096) = true) ∧
    (∀ c ∈ [0x14, 0x15], (flashing 0 c).boot.busyCmd = c ∧ (flashing 0 c).pd1 = true) ∧
    ((loaded (flashing 0 0x15) {}).imageReason {} {} = 0 ∧ ((loaded (flashing 0 0x15) {}).loadEnd 0).boot.imageFailed = false) ∧
    (let s := (flashing 0 0x15).setBoot { (flashing 0 0x15).boot with imageFailed := true }
     (loaded s {}).imageReason {} {} = 0 ∧ ((loaded s {}).loadEnd 0).boot.imageFailed = true) ∧
    (loaded (flashing 0 0x15) {}).imageReason {} { format := false } ≠ 0 := by
  unfold State.mayAct
  decide +kernel

/-- The last start step of the power sequence is still to come. -/
def starting (step : Nat) : State := liveWith [(pgPWR, PWR.SEQ.STEP, step)]

/-- Domain 11 in state `d` with its DOM_OFF bit at `off`, the start order complete. -/
def island (d off : Nat) : State := liveWith [(pgPWR, PWR.SEQ.STEP, 11), (pgPWR, PWR.SEQ.DONE, 1), (pgPWR, ⟨0x04C, 11, 11⟩, off),
  (pgPWR, ⟨PWR.DOM_STATE.STATE.off, 23, 22⟩, d)]

theorem witness_PowerDomains :
    ((starting 10).boot.phase = .firmware ∧ (starting 10).get pgPWR PWR.SEQ.STEP < 11 ∧ (starting 10).on pgPWR PWR.SEQ.DONE = false ∧
      ((starting 10).domTimeout.put pgPWR PWR.SEQ.STEP ((starting 10).get pgPWR PWR.SEQ.STEP + 1)).domOffBit
        (startOrder.getD ((starting 10).get pgPWR PWR.SEQ.STEP + 1) 2) = false) ∧
    ((island 1 0).boot.phase = .firmware ∧ (island 1 0).dom 11 = 1) ∧
    ((starting 11).boot.phase = .firmware ∧ (starting 11).get pgPWR PWR.SEQ.STEP = 11 ∧ (starting 11).on pgPWR PWR.SEQ.DONE = false) ∧
    (live.pd1 = true ∧ live.inSequence = false ∧ live.dom 2 = 2 ∧ live.dom 11 = 2) ∧
    ((island 2 0).mayAct pgPWR 0 ∧ State.switchable 11 = true ∧ (island 2 0).domOffBit 11 = false ∧
      (pagesOf 11).all (fun p => (island 2 0).st p == 0 || (island 2 0).st p == 2 || (island 2 0).st p == 5) = true) ∧
    ((island 0 1).mayAct pgPWR 0 ∧ (island 0 1).domOffBit 11 = true ∧ ((island 0 1).setDomOff 11 false).inSequence = false ∧
      startOrder.findIdx (fun x => x == 11) ≤ ((island 0 1).setDomOff 11 false).get pgPWR PWR.SEQ.STEP) ∧
    ((7 : Fin 64).val < 8 ∧ (15 : Fin 64).val < 16) := by
  unfold State.mayAct
  decide +kernel

/-- COMMIT of `page` is pending. -/
def committing (page : Nat) : State := liveWith [(page, HDR.COMMIT.PENDING, 1)]

theorem witness_RegisterAccess :
    (populated (0x1F9#9).toNat = true ∧ live.mayAct (0x1F9#9).toNat 0 ∧ live.servedTo 0 = true ∧
      (live.pageTouch (0x1F9#9).toNat 0x018).pageOn (0x1F9#9).toNat = true ∧
      (live.pageTouch (0x1F9#9).toNat 0x018).on (0x1F9#9).toNat HDR.COMMIT.PENDING = false) ∧
    (live.servedTo 2 = true ∧ State.rank ((live.pageTouch (0x1F9#9).toNat 0x020).owner (0x1F9#9).toNat) < State.rank 2 ∧
      (live.pageTouch (0x1F9#9).toNat 0x020).inRun = false ∧ (live.pageTouch (0x1F9#9).toNat 0x020).owner (0x1F9#9).toNat ≠ 2 ∧
      live.owner (0x1F9#9).toNat = 0) ∧
    ((committing (pgAX 7)).pd1 = true ∧ populated (BitVec.ofNat 9 (pgAX 7)).toNat = true ∧ pgAX 7 ≠ pgCAL ∧ pgAX 7 ≠ pgSEQ ∧
      pgAX 7 ≠ pgLPE ∧ (committing (pgAX 7)).pageOn (pgAX 7) = true ∧ (committing (pgAX 7)).on (pgAX 7) HDR.COMMIT.PENDING = true ∧
      State.rangeReject ((committing (pgAX 7)).withBuffer (pgAX 7) ((committing (pgAX 7)).stagedKeys (pgAX 7) (committing (pgAX 7)).buf))
        (pgAX 7) ((committing (pgAX 7)).stagedKeys (pgAX 7) (committing (pgAX 7)).buf) = none ∧
      (committing (pgAX 7)).blockReject ((committing (pgAX 7)).withBuffer (pgAX 7)
        ((committing (pgAX 7)).stagedKeys (pgAX 7) (committing (pgAX 7)).buf)) (pgAX 7)
        ((committing (pgAX 7)).stagedKeys (pgAX 7) (committing (pgAX 7)).buf) = none) ∧
    (∀ p ∈ [pgSEQ, pgLPE], (committing p).pd1 = true ∧ (committing p).pageOn p = true ∧ (committing p).on p HDR.COMMIT.PENDING = true ∧
      (committing p).on pgLPE LPE.STATUS.APPLYING = false) ∧
    (live.mayAct pgCLK 0 ∧ live.mayAct pgDWY 0 ∧ live.boot.phase ≠ .romRecovery) ∧
    ((0x1F9#9).toNat ≠ pgSUP ∧ (0x1F9#9).toNat ≠ pgTLY ∧ (3 : Fin 4).val ≠ 2) := by
  unfold State.mayAct
  decide +kernel

/-- Page `p` with its fields `l`. -/
def pageSet (p : Nat) (l : List (Fld × Nat)) : State := liveWith (l.map (fun x => (p, x.1, x.2)))

/-- The block of page `p`, configured so that it accepts RUN. -/
def startable (p : Nat) : State := pageSet p (
  if p = pgCAN 3 then [(CAN.NBT.BRP, 1), (CAN.NBT.TSEG1, 61), (CAN.NBT.TSEG2, 18), (CAN.NBT.SJW, 18), (CAN.DBT.BRP, 1),
    (CAN.DBT.TSEG1, 13), (CAN.DBT.TSEG2, 6), (CAN.DBT.SJW, 6)]
  else if p = pgASRC 5 then [(ASRC.CFG.MODE, 4)]
  else if p = pgETH 3 then [(ETH.CFG.ADV, 1)] else [])

theorem witness_RunHold :
    (∀ x ∈ [(pgETH 3, Kind.eth, 3), (pgCAN 3, .can, 3), (pgASRC 5, .asrc, 5), (pgAX 7, .ax, 7), (pgANA 15, .ana, 15),
        (pgDIOG 7, .diog, 7), (pgDVL, .dvl, 0), (pgLPT, .lpt, 0), (pgCP 3, .cp, 3), (pgDWY, .dwy, 0), (pgANG, .ang, 0)],
      pageKind x.1 = some (x.2.1, x.2.2) ∧ (startable x.1).mayAct x.1 0 ∧ (startable x.1).isFenced x.1 = false ∧
      (startable x.1).on x.1 HDR.CTRL.RUN = false) ∧
    ((startable (pgETH 3)).ethReject 3 = none ∧ (startable (pgCAN 3)).canReject 3 = none ∧ (startable (pgASRC 5)).asrcReject 5 = none ∧
      (startable (pgAX 7)).axReject 7 = none ∧
      (((startable (pgAX 7)).put (pgAX 7) HDR.CTRL.RUN 1).refreshState (pgAX 7)).axState 7 = 0 ∧
      (((pageSet (pgAX 7) [(AX.STATUS.AX_STATE, 1)]).put (pgAX 7) HDR.CTRL.RUN 1).refreshState (pgAX 7)).axState 7 = 1 ∧
      (startable (pgANA 15)).anaType 15 ≤ 4 ∧ ((startable (pgANA 15)).setRun (pgANA 15) true).anaOut 15 = false ∧
      ∀ c < 8, (startable (pgDIOG 7)).get (pgDIOG 7) (DIOG.CH_CFG.MODE c) ≤ 4) ∧
    (∀ p ∈ [pgETH 3, pgCAN 3, pgASRC 5, pgAX 7, pgANA 15, pgDIOG 7, pgDVL, pgLPT, pgCP 3, pgDWY],
      (pageSet p [(HDR.CTRL.RUN, 1)]).mayAct p 0 ∧ (pageSet p [(HDR.CTRL.RUN, 1)]).isFenced p = false ∧
      (pageSet p [(HDR.CTRL.RUN, 1)]).on p HDR.CTRL.RUN = true) ∧
    (pageSet (pgAX 7) [(HDR.CTRL.RUN, 1)]).axState 7 ≠ 6 ∧
    (pageKind 0x1F9 = some (.stn, 249) ∧ live.mayAct 0x1F9 0 ∧ runAlwaysOne .stn = true ∧ State.hasHold 0x1F9 = false) ∧
    (({ live with flt := { live.flt with fenced := [pgANG] } } : State).isFenced pgANG = true ∧
      ({ live with flt := { live.flt with fenced := [pgANG] } } : State).mayAct pgANG 0 ∧ runAlwaysOne .ang = false) ∧
    (pageKind pgSEQ = some (.seq, 0) ∧ live.mayAct pgSEQ 0 ∧ (live.setWriter 0 false).pageOn pgSEQ = true) ∧
    ((pageSet (pgCP 3) [(HDR.CTRL.RUN, 1)]).hostsTask 3 = false ∧
      ((pageSet (pgCP 3) [(HDR.CTRL.RUN, 1)]).setTask 31 { host := some 3 }).mayAct (pgCP 3) 0 ∧
      ((pageSet (pgCP 3) [(HDR.CTRL.RUN, 1)]).setTask 31 { host := some 3 }).on (pgCP 3) HDR.CTRL.RUN = true ∧
      ((pageSet (pgCP 3) [(HDR.CTRL.RUN, 1)]).setTask 31 { host := some 3 }).hostsTask 3 = true ∧
      ((pageSet (pgCP 3) [(HDR.CTRL.RUN, 1)]).setTask 31 { host := some 3 }).pageOn pgPLACE = true) := by
  unfold State.mayAct
  decide +kernel

/-- An event waits for pair 3. -/
def oneEvent : State := { live with evd := { live.evd with queue := [⟨3, 1023, 15, 7, 5, false⟩] } }

theorem witness_Cores :
    (live.served = true ∧ live.pairLives 3 = true ∧ live.nextEvent 3 = none ∧ CoreOp.read 0 ≠ .fpMode ∧ CoreOp.read 0 ≠ .time) ∧
    (∀ x ∈ [(0, Region.dram), (0x7FFFFFF8, .dram), (0x0110000000, .tier1), (0x01107FFFF8, .tier1), (0x0100400000, .tier0 3)],
      regionOf (BitVec.ofNat 40 x.1).toNat = x.2 ∧ regionOf ((BitVec.ofNat 40 x.1).toNat + 2 ^ (3 : Fin 4).val - 1) = x.2 ∧
      (State.wordsOf (BitVec.ofNat 40 x.1).toNat (2 ^ (3 : Fin 4).val)).any (fun w => live.ecc.contains w) = false) ∧
    (oneEvent.served = true ∧ oneEvent.pairLives 3 = true ∧ oneEvent.nextEvent 3 = some ⟨3, 1023, 15, 7, 5, false⟩) ∧
    (live.pageOn (pgCP 3) = true ∧ live.on pgFLT FLT.CMD_STATUS.BUSY = false ∧ live.isFenced (pgCP 3) = false ∧
      live.on (pgCP 3) HDR.CTRL.RUN = false) ∧
    ((liveWith [(pgFLT, FLT.CMD_STATUS.BUSY, 1), (pgFLT, FLT.READMIT.ID, pgCP 3)]).pageOn (pgCP 3) = true ∧
      (liveWith [(pgFLT, FLT.CMD_STATUS.BUSY, 1), (pgFLT, FLT.READMIT.ID, pgCP 3)]).on pgFLT FLT.CMD_STATUS.BUSY = true ∧
      (liveWith [(pgFLT, FLT.CMD_STATUS.BUSY, 1), (pgFLT, FLT.READMIT.ID, pgCP 3)]).get pgFLT FLT.READMIT.ID = pgCP 3) := by
  decide +kernel

/-- SEQ runs, task 31 is enabled and redundant, placed on pair 3 with the cycle `c`, its outputs live; ROLE is `role`; `l` are
further fields; station time is `e`. -/
def running (role : Nat) (c : Option TaskCycle) (l : List (Nat × Fld × Nat)) (e : Nat) : State :=
  let s := liveWith ([(pgSEQ, SEQ.ATTR.ENABLE 31, 1), (pgSEQ, SEQ.ATTR.REDUNDANT 31, 1), (pgSEQ, SEQ.PERIOD.TICKS 31, 40),
    (pgSEQ, SEQ.PUB.OFS 31, 5), (pgPAIR, PAIR.STATUS.ROLE, role)] ++ l)
  ({ s with seq := { s.seq with running := true }, clk := { s.clk with stn := BitVec.ofNat 56 (e * 2 ^ 24) } } : State).setTask 31
    { cur := c, live := true, host := some 3 }

theorem witness_Tasks :
    (∀ r ∈ [1, 2], (running r none [] 0).pageOn pgSEQ = true ∧ (running r none [] 0).inSequence = false ∧
      (running r none [] 0).seq.running = true ∧ (running r none [] 0).on pgSEQ SEQ.STATUS.STOP_PENDING = false ∧
      (running r none [] 0).taskOn 31 = true ∧ (running r none [] 0).atFreeze 31 = some (0, 0) ∧ (running r none [] 0).role = r ∧
      (running r none [] 0).taskRed 31 = true) ∧
    (let u := (running 1 none [] 0).dwyEvaluateAt 31 0 0
     (u.task 31).cur = none ∧ u.taskShed 31 = false ∧ u.wantsHold 31 = false ∧ u.taskHeld 31 = false ∧ (u.task 31).host.isSome = true) ∧
    (let s := running 1 none [(pgSEQ, HDR.CTRL.HOLD, 1), (pgSEQ, SEQ.HOLD_MASK, 2 ^ 31), (pgSEQ, SEQ.HELD, 2 ^ 31)] 0
     let u := s.dwyEvaluateAt 31 0 0
     s.atFreeze 31 = some (0, 0) ∧ (u.task 31).cur = none ∧ u.taskShed 31 = false ∧ u.wantsHold 31 = true ∧
      (u.task 31).step = false ∧ u.taskHeld 31 = true) ∧
    (((running 1 (some {}) [] 0).task 31).cur = some {} ∧ ({} : TaskCycle).done = false ∧ ({} : TaskCycle).lost = none ∧
      ({} : TaskCycle).ready = true ∧ ({} : TaskCycle).takeover = false) ∧
    (∀ d ∈ [true, false], ((running 1 (some { done := d }) [] 50000).task 31).cur = some { done := d } ∧
      (running 1 (some { done := d }) [] 50000).taskOn 31 = true ∧ (running 1 (some { done := d }) [] 50000).role ≠ 2 ∧
      (running 1 (some { done := d }) [] 50000).atPublish 31 = some (0, 50000)) ∧
    ((running 1 none [] 0).taskShed 31 = false ∧ ((running 1 none [] 0).task 31).live = true ∧
      ((running 1 none [] 0).atFreeze 31).isSome = true) ∧
    (let s := running 1 none [(pgSEQ, SEQ.SHED, 2 ^ 31)] 0
     s.pageOn pgSEQ = true ∧ s.inSequence = false ∧ s.seq.running = true ∧ (s.atFreeze 31).isSome = true ∧
      s.taskShed 31 = true) := by decide +kernel

/-- Duty and in Stop, an image loaded: SEQ may run. Local firmware has not written; `o` owns SEQ. -/
def mayRun (o : Nat) : State := { liveWith [(pgSUP, SUP.IMAGE_STATUS.LOADED, 1), (pgPAIR, PAIR.STATUS.ROLE, 1), (pgSEQ, SEQ.CFG.AUTORUN, 1),
    (pgSEQ, HDR.OWNER, o)] with
  boot := { live.boot with reachedStop := true } }

theorem witness_SeqMode :
    live.mayAct pgSEQ 0 ∧ (mayRun 0).mayAct pgSEQ 0 ∧
    (((mayRun 0).setWriter 0 true).isFenced pgSEQ = false ∧ ((mayRun 0).setWriter 0 true).pageOn pgSEQ = true ∧
      ((mayRun 0).setWriter 0 true).on pgSEQ HDR.CTRL.RUN = false ∧ ((mayRun 0).setWriter 0 true).runReason = 0) ∧
    ((live.setWriter 0 true).isFenced pgSEQ = false ∧ (live.setWriter 0 true).pageOn pgSEQ = true ∧
      (live.setWriter 0 true).on pgSEQ HDR.CTRL.RUN = false ∧ (live.setWriter 0 true).runReason ≠ 0) ∧
    ((liveWith [(pgSEQ, SEQ.STATUS.RUN_PENDING, 1)]).mayAct pgSEQ 0 ∧
      (((liveWith [(pgSEQ, SEQ.STATUS.RUN_PENDING, 1)]).setWriter 0 true).put pgSEQ HDR.CTRL.RUN 0).on pgSEQ
        SEQ.STATUS.RUN_PENDING = true) ∧
    ((running 1 none [] 0).mayAct pgSEQ 0 ∧
      (((running 1 none [] 0).setWriter 0 true).put pgSEQ HDR.CTRL.RUN 0).on pgSEQ SEQ.STATUS.RUN_PENDING = false ∧
      (((running 1 none [] 0).setWriter 0 true).put pgSEQ HDR.CTRL.RUN 0).seq.running = true) ∧
    (live.setWriter 0 false).pageOn pgSEQ = true ∧
    ((liveWith [(pgSEQ, SEQ.STATUS.RUN_PENDING, 1)]).on pgSEQ SEQ.STATUS.RUN_PENDING = true ∧
      (liveWith [(pgSEQ, SEQ.STATUS.RUN_PENDING, 1)]).pageOn pgSEQ = true ∧
      (liveWith [(pgSEQ, SEQ.STATUS.RUN_PENDING, 1)]).inSequence = false) ∧
    (∀ o ∈ [0, 1], (mayRun o).on pgSEQ SEQ.CFG.AUTORUN = true ∧ (mayRun o).seq.touched = false ∧ (mayRun o).duty = true ∧
      (mayRun o).boot.reachedStop = true ∧ (mayRun o).boot.maint = false) ∧
    (let u := (mayRun 0).setWriter (mayRun 0).seq.writer true
     u.mayAct pgSEQ 0 ∧ (u.setWriter 0 true).isFenced pgSEQ = false ∧ (u.setWriter 0 true).pageOn pgSEQ = true ∧
      (u.setWriter 0 true).on pgSEQ HDR.CTRL.RUN = false ∧ (u.setWriter 0 true).runReason = 0) ∧
    (((mayRun 1).setWriter (mayRun 1).seq.writer true).servedTo 0 = true ∧
      ((mayRun 1).setWriter (mayRun 1).seq.writer true).owner pgSEQ ≠ 0) ∧
    ((liveWith [(pgSEQ, SEQ.STATUS.STOP_PENDING, 1)]).on pgSEQ SEQ.STATUS.STOP_PENDING = true ∧
      ∀ k ∈ State.allTasks, ((liveWith [(pgSEQ, SEQ.STATUS.STOP_PENDING, 1)]).task k).cur = none) := by
  unfold State.mayAct
  decide +kernel

/-- An exchange in state `st`, with the image `im` in the inactive slot and a preparation. -/
def exchanging (st : Nat) (im : StationImage) : State :=
  let s := liveWith [(pgSEQ, SEQ.XCHG_STATUS.STATE, st)]
  { s with seq := { s.seq with images := [(1, some im)], prep := some (im, State.instanceMap [] [], {}) } }

theorem witness_Exchange :
    (∀ st ∈ [0, 1, 2, 3], (exchanging st {}).mayAct pgSEQ 0 ∧ (exchanging st {}).xchgState = st ∧
      Store.get none (exchanging st {}).seq.images (exchanging st {}).inactiveSlot = some {} ∧
      (exchanging st {}).seq.prep = some ({}, State.instanceMap [] [], {}) ∧ (exchanging st {}).xchgBlocked = false ∧
      (exchanging st {}).role ≠ 1 ∧ (exchanging st {}).role ≠ 2) ∧
    (let s := { exchanging 0 {} with seq := { (exchanging 0 {}).seq with prep := none } }
     s.xchgBlocked = false ∧ Store.get none s.seq.images s.inactiveSlot = some {}) ∧
    (State.needsTooMuch {} = false ∧
      (let p := ((exchanging 1 {}).exchanged {} (State.instanceMap [] [])).runPlan 3 none
       p.left = [] ∧ p.shed = [] ∧ p.full = [])) ∧
    State.needsTooMuch { needs := { cells := 4097 } } = true ∧
    (let im : StationImage := { tasks := [{ task := 31 }], regs := [⟨0x011#9, 0x4F0#12, 0, 0x8000⟩] }
     Store.get none (exchanging 1 im).seq.images (exchanging 1 im).inactiveSlot = some im ∧ State.needsTooMuch im = false ∧
      (let p := ((exchanging 1 im).exchanged im (State.instanceMap [] [])).runPlan 3 none
       ¬ (p.left = [] ∧ p.shed = [] ∧ p.full = []))) ∧
    ((exchanging 3 {}).isWindow = true ∧ (exchanging 3 {}).e ≤ (exchanging 3 {}).seq.searchAt + 2000000000) := by
  unfold State.mayAct
  decide +kernel

/-- Task 31 is under way at task time 10 and cell 4095 is its cell of type `ty`, with Q at `q` and RUN at `r`; DIO channel 63 is a
fast input. -/
def timing (ty : Nat) (q r : Bool) : State :=
  let s := (((live.setCellF 4095 31 28 ty).setCellF 4095 27 23 31).setCellB 4095 19 q).setCellB 4095 18 r
  (s.put (State.dioPg 63) (DIOG.CH_CFG.MODE 7) 2).setTask 31 { cur := some { tau := 10, cells := [(4095, [])] } }

theorem witness_Timers :
    (∀ ty ∈ [1, 2, 3, 4, 5, 6, 7, 8, 9], ((timing ty false false).task 31).cur = some { tau := 10, cells := [(4095, [])] } ∧
      (timing ty false false).pageOn pgTMR = true ∧ (timing ty false false).cellTask 4095 = 31 ∧
      (timing ty false false).cellType 4095 = ty) ∧
    (timing 7 false false).dioMode 63 = 2 ∧
    (∀ x ∈ [(2, true, false), (3, false, true), (3, false, false)],
      let s := timing x.1 x.2.1 x.2.2
      let o := (s.setTask 31 { s.task 31 with cur := some { tau := 10, cells := [(4095, [])] } }).timerOf 4095
      (s.task 31).cur = some { tau := 10, cells := [(4095, [])] } ∧ s.cellTask 4095 = 31 ∧ s.cellType 4095 = x.1 ∧
        o.q = x.2.1 ∧ o.run = x.2.2 ∧ o.mem = false) ∧
    (0#64).toNat ≤ State.elapsed 10 10 ∧ State.elapsed 10 10 < (1#64).toNat := by decide +kernel

/-- An image is loaded and the last placement run was at time 0; station time is `e`. -/
def placed (l : List (Nat × Fld × Nat)) (e : Nat) : State :=
  let s := liveWith l
  { s with seq := { s.seq with image := some {}, lastRun := 1 }, clk := { s.clk with stnHi := BitVec.ofNat 32 (e / 2 ^ 32)
                                                                                     stn := BitVec.ofNat 56 (e % 2 ^ 32 * 2 ^ 24) } }

/-- Directory entry 0 holds `n` bytes. -/
def oneEntry (n : Nat) : State := live.memWr (dirBase + 4) 4 (2 * 2 ^ 26 + n * 2 ^ 16)

theorem witness_Placement :
    (live.mayAct pgPLACE 0 ∧ live.on pgPLACE PLACE.CMD_STATUS.BUSY = false ∧ live.seq.image = none ∧ live.seq.lastRun = 0) ∧
    ((placed [] 9999999999).seq.image ≠ none ∧ (placed [] 9999999999).seq.lastRun ≠ 0 ∧
      (placed [] 9999999999).e < (placed [] 9999999999).seq.lastRun - 1 + 10000000000) ∧
    (placed [] 10000000000).seq.lastRun - 1 + 10000000000 ≤ (placed [] 10000000000).e ∧
    (placed [] 10000000000).mayAct pgPLACE 0 ∧ (placed [] 10000000000).on pgSEQ SEQ.STATUS.XCHG_ACTIVE = false ∧
    (placed [] 10000000000).on pgPLACE PLACE.STATUS.MOVING = false ∧
    (placed [(pgSEQ, SEQ.STATUS.XCHG_ACTIVE, 1)] 10000000000).on pgSEQ SEQ.STATUS.XCHG_ACTIVE = true ∧
    (placed [(pgPLACE, PLACE.STATUS.MOVING, 1)] 10000000000).on pgPLACE PLACE.STATUS.MOVING = true ∧
    (live.dirType 0 = 0 ∧ live.pageOn pgPLACE = true ∧ live.st pgSEQ ≠ 2 ∧ (2 : Fin 4).val < 3 ∧
      (liveWith [(pgSEQ, HDR.STATUS.STATE, 2)]).st pgSEQ = 2 ∧ (liveWith [(pgSEQ, HDR.STATUS.STATE, 2)]).pageOn pgPLACE = true) ∧
    (∀ n ∈ [1, 16, 17], (oneEntry n).mayAct pgPLACE 0 ∧ (oneEntry n).get pgPLACE PLACE.FORCE_INDEX.INDEX = 0 ∧
      (oneEntry n).dirType 0 ≠ 0 ∧ (oneEntry n).dirSize 0 = n) ∧
    ((State.allTasks.filter (fun k => (live.task k).goal.isSome)).length = 0 ∧
      (State.allTasks.filter (fun k => ((live.setTask 31 { goal := some 3 }).task k).goal.isSome)).length ≠ 0 ∧
      (live.setTask 31 { goal := some 3 }).mayAct pgPLACE 0) ∧
    ((live.setTask 31 { fill := true }).task 31).fill = true ∧
    ((placed [(pgCP 3, HDR.STATUS.STATE, 5)] 0).pageOn pgPLACE = true ∧ (placed [(pgCP 3, HDR.STATUS.STATE, 5)] 0).st (pgCP 3) = 5 ∧
      (placed [(pgCP 3, HDR.STATUS.STATE, 5)] 0).seq.image ≠ none ∧
      ∀ k ∈ State.allTasks, ((placed [(pgCP 3, HDR.STATUS.STATE, 5)] 0).task k).cur = none) := by
  unfold State.mayAct
  decide +kernel

/-- The loop engine runs; slot 1023 has the record word `w` at `off`; the commit of slot 1023 applies where `a` is 1; station time
is `e`. -/
def loops (off w a e : Nat) : State :=
  let s := liveWith [(pgLPE, HDR.STATUS.STATE, 3), (pgLPE, LPE.STATUS.APPLYING, a)]
  let s := s.put pgLPE LPE.FOLD_CFG.ENABLE 1 127
  { s with lpe := { s.lpe with recs := [(64 * 1023 + off / 4, BitVec.ofNat 32 w)], taking := [1023] }
           clk := { s.clk with stn := BitVec.ofNat 56 (e * 2 ^ 24) } }

/-- Slot 1022 is the leader of fold 127. -/
def folded : State :=
  { loops 0 0 0 0 with lpe := { (loops 0 0 0 0).lpe with recs := [(64 * 1022, 0x80000000#32), (64 * 1022 + 13, 0x407F0000#32)] } }

theorem witness_Loops :
    (live.mayAct pgLPE 0 ∧ live.on pgLPE HDR.CTRL.RUN = false ∧ (liveWith [(pgLPE, HDR.CTRL.RUN, 1)]).mayAct pgLPE 0 ∧
      (liveWith [(pgLPE, HDR.CTRL.RUN, 1)]).on pgLPE HDR.CTRL.RUN = true) ∧
    (∀ a ∈ [0, 1], let s := loops 0 0x80000000 a 0
      s.lpeSamples = true ∧ s.lEnabled 1023 = true ∧ s.lFoldEn 1023 = false ∧ s.lTriggered 1023 = true ∧
        (s.lTakeDue 1023).lEnabled 1023 = (a == 0) ∧ (s.lTakeDue 1023).lFoldEn 1023 = false ∧
        ((s.lTakeDue 1023).lAccess 1023 .good).2 = true) ∧
    (let s := loops 0 0 1 1000000000
     s.active pgLPE = true ∧ s.pageOn pgLPE = true ∧ s.lpe.checked + 1000000000 ≤ s.e ∧ s.lEnabled 1023 = false ∧
      s.lFoldEn 1023 = false ∧ s.on pgLPE LPE.STATUS.APPLYING = true ∧ s.lpe.taking.contains 1023 = true) ∧
    (let s := (loops 0x014 0x80000007 0 0).setLoopRt 1023 { write := some { value := 0, qual := 0 } }
     s.lpeSamples = true ∧ s.lFoldEn 1023 = false ∧ (s.loopRt 1023).write = some { value := 0, qual := 0 } ∧ s.e = 0 ∧
      s.lBind 1023 0x014 = some 7 ∧ s.lBind 1023 0x030 = none) ∧
    ((loops 0x034 0x40000000 0 0).lpeSamples = true ∧ (loops 0x034 0x40000000 0 0).lFoldEn 1023 = true) ∧
    ((39 : Fin 64).val < 40 ∧ (42 : Fin 64).val < 43 ∧ (59 : Fin 64).val < 60 ∧ live.pageOn pgLPE = true ∧ live.st pgLPE ≠ 2 ∧
      live.lw 1023 (4 * 44) ≠ 1#32 &&& State.lMask 44 ∧ (liveWith [(pgLPE, HDR.STATUS.STATE, 2)]).st pgLPE = 2) ∧
    (folded.lpeSamples = true ∧ folded.foldDue 127 = true ∧ ((folded.foldTakes 127).foldMembers 127).contains 1023 = false ∧
      (let v := forEach ((folded.foldMembers 127).filter (fun k => (folded.foldTakes 127).lEnabled k &&
          !(folded.foldTakes 127).lFoldEn k)) (fun u k => u.loopSample k) (folded.foldTakes 127)
       v.foldOn 127 = true ∧ v.foldMembers 127 ≠ [])) := by
  unfold State.mayAct
  decide +kernel

theorem witness_TraceCapture : live.mayAct pgLPT 0 := by
  unfold State.mayAct
  decide

/-- Angle source `n` runs, in state `st` and mode 1, its reference pulse in use; source 5 takes mains input 1. -/
def source (n st : Nat) : State := liveWith [(pgASRC n, HDR.STATUS.STATE, 3), (pgASRC n, ASRC.STATUS.SRC_STATE, st),
  (pgASRC n, ASRC.CFG.MODE, 1), (pgASRC n, ASRC.CFG.Z_EN, 1), (pgASRC 5, ASRC.MAINS.INPUT, 1)]

/-- The mains source 4, found, after a crossing with volts and speed 0, as the statement gives it. -/
def crossed : State :=
  let s := source 4 1
  let u := ((((((s.setAsrcRt 4 { s.asrcRt 4 with
    t := s.e, x := (s.asrcRt 4).x / 4294967296 * 4294967296 + ((0 + s.get (pgASRC 4) ASRC.PHASE_OFS) % 4294967296 : Nat), w := 0, a := 0
    pdt := s.e - (s.asrcRt 4).t, hist := 1, lock := 0, bad := 0 }).put (pgASRC 4) ASRC.EDGE_ANGLE
      ((0 + s.get (pgASRC 4) ASRC.PHASE_OFS) % 4294967296)).put (pgASRC 4) ASRC.EDGE_T s.e).setReg (pgASRC 4) ASRC.SPEED.off
      (wordOf64 (State.srcPerS 0))).setReg (pgASRC 4) ASRC.ACCEL.off (wordOf64 (fmt64.mul (State.srcPerS 0) (f64Of 1000000000)))).setReg
      (pgASRC 4) ASRC.VRMS.off 0x43660000#32)
  let v := if u.srcState 4 = 1 then u.setSrcState 4 2 else u
  let w := v.srcSpeedOut 4 (wordOf64 (State.srcPerS 0)) 0
  ((w.slotsRefine 4).closeRefine 4).syncWatch

theorem witness_AngleSources :
    (∀ n ∈ [0, 3], (source n 3).srcRuns n = true ∧ (source n 3).srcMode n = 1 ∧ (source n 3).on (pgASRC n) ASRC.CFG.Z_EN = true ∧
      (source n 3).srcState n = 3 ∧
      (let s := { source n 3 with clk := { live.clk with stnHi := 0xFFFFFFFF#32 } }
       s.srcRuns n = true ∧ s.srcState n = 3 ∧ (s.asrcRt n).t + s.get (pgASRC n) ASRC.STALL.STALL_MS * 1000000 ≤ s.e)) ∧
    (∀ n ∈ [4, 5], ∀ st ∈ [2, 3], (source n st).srcRuns n = true ∧ (source n st).srcState n = st) ∧
    ((source 4 1).srcRuns 4 = true ∧ (source 4 1).get (pgASRC 4) ASRC.MAINS.INPUT = 0 ∧ crossed.srcState 4 = 2 ∧
      crossed.get (pgASRC 5) ASRC.MAINS.INPUT ≠ 0) ∧
    ((source 5 1).srcRuns 5 = true ∧ (source 5 1).get (pgASRC 4) ASRC.MAINS.INPUT ≠ 1 ∧
      (source 5 1).get (pgASRC 5) ASRC.MAINS.INPUT = 1) ∧
    (live.served = true ∧ live.pageOn (pgASRC 5) = true) := by decide +kernel

/-- ANG runs and slot 255 is enabled on source 0, which turns; with `pred` it is armed, aimed and scheduled; station time is `e`. -/
def slotted (pred : Option Nat) (e : Nat) : State :=
  let s := liveWith [(pgANG, HDR.STATUS.STATE, 3), (pgANG, ANG.SLOT_INDEX.SLOT, 255), (pgASRC 0, ASRC.STATUS.SRC_STATE, 3)]
  { s.setReg pgANG (ANG.SLOT_W 0).off 0x80000000#32 255 with
    ang := [(255, { armed := true, tgt := some 7, pred := pred })], clk := { s.clk with stn := BitVec.ofNat 56 (e * 2 ^ 24) } }

theorem witness_AngleSlots :
    ((slotted none 0).mayAct pgANG 0 ∧ (slotted none 0).get pgANG ANG.SLOT_INDEX.SLOT = 255 ∧ (slotted none 0).slotAct 255 ≠ 7 ∧
      (slotted none 0).active pgANG = true ∧ (slotted none 0).slotEn 255 = true) ∧
    (∀ e ∈ [100, 110], (slotted (some 100) e).active pgANG = true ∧ ((slotted (some 100) e).angSlot 255).pred = some 100 ∧
      ((slotted (some 100) e).angSlot 255).tgt = some 7 ∧ (slotted (some 100) e).slotDue 255 100 = true ∧
      100 ≤ (slotted (some 100) e).e ∧ (slotted (some 100) e).sync.issued ≠ (slotted (some 100) e).e + 1 ∧
      ∀ j < 255, (slotted (some 100) e).slotDue j 100 = false) := by
  unfold State.mayAct
  decide +kernel

/-- ANG runs with a synchroniser in state `st` and feedback `fb`; the request entry 0 reads true. -/
def syncing (st fb : Nat) : State :=
  let s := liveWith [(pgANG, HDR.STATUS.STATE, 3), (pgANG, ANG.SYNC_CFG.EN, 1), (pgANG, ANG.SYNC_CFG.FB_VALID, fb),
    (pgANG, ANG.SYNC_STATE.STATE, st), (pgANG, ANG.SYNC_REQ.VALID, 1), (pgASRC 4, ASRC.STATUS.SRC_STATE, 3),
    (pgASRC 5, ASRC.STATUS.SRC_STATE, 3), (pgSEQ, HDR.STATUS.STATE, 3), (State.dioPg 0, State.levelF 0 0, 1)]
  (s.memWr (s.dirAddr 0) 1 1).setSync { pulse := true }

theorem witness_Synchroniser :
    (∀ fb ∈ [0, 1], (syncing 0 fb).active pgANG = true ∧ (syncing 0 fb).on pgANG ANG.SYNC_CFG.EN = true ∧
      (syncing 0 fb).syncState = 0 ∧ (syncing 0 fb).syncReq = true ∧ (syncing 0 fb).get pgPAIR PAIR.STATUS.ROLE ≠ 2) ∧
    ((syncing 0 1).on pgANG ANG.SYNC_CFG.FB_VALID = true ∧
      (syncing 0 1).dioLevel ((syncing 0 1).get pgANG ANG.SYNC_CFG.FB_CH) = true) ∧
    (syncing 0 0).on pgANG ANG.SYNC_CFG.FB_VALID = false ∧
    (∀ st ∈ [2, 3], (syncing st 0).syncWatch.active pgANG = true ∧ (syncing st 0).syncWatch.syncState = st ∧
      (syncing st 0).syncWatch.sync.ti ≤ (syncing st 0).syncWatch.e) ∧
    ((syncing 4 1).syncState = 4 ∧ (syncing 4 1).on pgANG ANG.SYNC_CFG.FB_VALID = true ∧ (syncing 4 1).sync.pulse = true) ∧
    ((syncing 1 0).syncState = 1 ∧ (syncing 2 0).syncState = 2) := by decide +kernel

/-- Axis 7 waits for the command `c` with target `t`, in state `st`, RUN at `run`, ready for every command. -/
def axisAsked (c t st run : Nat) : State :=
  (liveWith [(pgAX 7, AX.BIND_CMD, 0x80000000), (pgAX 7, AX.STATUS.AX_STATE, st), (pgAX 7, HDR.CTRL.RUN, run),
    (pgAX 7, AX.PROF_VMAX 0, 1000), (pgAX 7, AX.PROF_ACC 0, 1000), (pgAX 7, AX.PROF_DEC 0, 1000), (pgAX 7, AX.HOME_CFG.MODE, 2),
    (pgAX 7, AX.SW_CH.RF_VALID, 1), (pgASRC 0, ASRC.STATUS.SRC_STATE, 3)]).setAxRt 7 { cmd := 256 + c, tgtIn := t }

theorem witness_AxisCommands :
    (∀ x ∈ [(1, 5), (2, 5), (3, 0), (3, 5), (4, 0), (5, 0), (6, 0), (7, 0), (8, 0)],
      let s := axisAsked x.1 x.2 1 1
      s.pageOn (pgAX 7) = true ∧ s.axWaiting 7 = some (x.1, 0, s.put (pgAX 7) AX.HOME_INFO.ACK_SEQ 1) ∧
        (s.put (pgAX 7) AX.HOME_INFO.ACK_SEQ 1).axReason 7 x.1 0 x.2 = none ∧ s.axPos 7 + (s.axRt 7).tgtIn = x.2) ∧
    (∀ c ∈ [1, 2, 3, 4, 5, 6, 7, 8], let s := axisAsked c 0 1 0
      s.pageOn (pgAX 7) = true ∧ s.axWaiting 7 = some (c, 0, s.put (pgAX 7) AX.HOME_INFO.ACK_SEQ 1) ∧
        (s.put (pgAX 7) AX.HOME_INFO.ACK_SEQ 1).axReason 7 c 0 0 = some 1) := by decide +kernel

/-- Axis 3 in state `st` with the runtime `r` and further fields `l`, its switches wired. -/
def axis (st : Nat) (r : AxRt) (l : List (Fld × Nat)) : State := ((pageSet (pgAX 3) ([(AX.STATUS.AX_STATE, st), (AX.SW_CH.LN_VALID, 1),
  (AX.SW_CH.LP_VALID, 1), (AX.SW_CH.RF_VALID, 1), (AX.HOME_CFG.MODE, 2), (AX.CURRENT.I_HOLD, 100)] ++ l)).setAxRt 3 r)

/-- Switch `sw` of an axis whose samples have stood at `lv` long enough. -/
def stood (sw : Nat) (lv : Bool) : Store AxSwitch := [(sw, { raw := some lv, last := lv, count := 15, cand := some 4 })]

theorem witness_AxisEvents :
    (∀ st ∈ [2, 4], ((axis st { plan := 1 } []).axRt 3).plan = 1 ∧ (axis st { plan := 1 } []).axOnTarget 3 = true ∧
      (axis st { plan := 1 } []).axState 3 = st) ∧
    (∀ r ∈ [({ gwait := true, gat := some 5 } : AxRt), { gnew := some (1, 2), gat := some 5 }], let s := axis 5 r []
      s.axState 3 = 5 ∧ ((s.axSeeBell 3).axRt 3).gat = some 5 ∧
        (((s.axSeeBell 3).axRt 3).gwait && (s.axSeeBell 3).get (pgAX 3) AX.GEAR_CFG.FOLLOW == 2) = false) ∧
    (let s := axis 5 { gwait := true, gat := some 5 } [(AX.GEAR_CFG.FOLLOW, 2)]
     s.axState 3 = 5 ∧ ((s.axSeeBell 3).axRt 3).gat = some 5 ∧
      (((s.axSeeBell 3).axRt 3).gwait && (s.axSeeBell 3).get (pgAX 3) AX.GEAR_CFG.FOLLOW == 2) = true) ∧
    (let s := axis 5 {} [(AX.LAG, 5), (AX.GEAR_CFG.LAG_MAX, 4)]
     s.axState 3 = 5 ∧ s.get (pgAX 3) AX.GEAR_CFG.LAG_MAX < (signed 32 (s.get (pgAX 3) AX.LAG)).natAbs ∧
      s.mayRecord (0x0E700 + 3) = true ∧ (s.markRecord (0x0E700 + 3)).axState 3 = 5 ∧
      (s.markRecord (0x0E700 + 3)).mayRecord (0x0E700 + 3) = false ∧ s.axBellOk 3 = false) ∧
    (∀ sw ∈ [0, 1, 2], (axis 1 { sw := stood sw false } []).pageOn (pgAX 3) = true ∧
      (axis 1 { sw := stood sw false } []).axQualifies 3 sw = true ∧
      ((axis 1 { sw := stood sw false } []).axSwitch 3 sw).last = (axis 1 { sw := stood sw false } []).on (pgAX 3) (State.axSwPol sw) ∧
      (axis 1 { sw := stood sw true } [(State.axSwF sw, 1)]).axQualifies 3 sw = true ∧
      ((axis 1 { sw := stood sw true } [(State.axSwF sw, 1)]).axSwitch 3 sw).last ≠
        (axis 1 { sw := stood sw true } [(State.axSwF sw, 1)]).on (pgAX 3) (State.axSwPol sw)) ∧
    (let s := axis 6 { home := 1, sw := stood 2 false } []
     s.pageOn (pgAX 3) = true ∧ s.axQualifies 3 2 = true ∧ (s.axSwitch 3 2).last = s.on (pgAX 3) (State.axSwPol 2) ∧
      s.axState 3 = 6 ∧ (s.axRt 3).home = 1 ∧ s.axHomeSw 3 = 2) ∧
    ((axis 2 { v := -1, sw := stood 0 false } []).axState 3 ≠ 6 ∧ ((axis 2 { v := -1, sw := stood 0 false } []).axRt 3).v < 0 ∧
      (axis 2 { v := -1, sw := stood 0 false } []).axQualifies 3 0 = true ∧
      (axis 2 { v := 1, sw := stood 1 false } []).axState 3 ≠ 6 ∧ 0 < ((axis 2 { v := 1, sw := stood 1 false } []).axRt 3).v ∧
      (axis 2 { v := 1, sw := stood 1 false } []).axQualifies 3 1 = true) ∧
    (let u := (axis 6 { home := 3, plan := 1 } []).axShift 3
     u.axState 3 = 6 ∧ (u.axRt 3).home = 3 ∧ (u.axRt 3).plan = 1 ∧ u.axOnTarget 3 = true ∧ u.axHomeSw 3 = 2) ∧
    (∀ c ∈ [none, some 4], let s := axis 1 { sw := [(2, { raw := some true, cand := c })] } []
      s.pageOn (pgAX 3) = true ∧ s.on (pgAX 3) (State.axSwValid 2) = true ∧ (s.axSwitch 3 2).raw ≠ some false ∧
        false ≠ s.axSwLevel 3 2 ∧ (s.axSwitch 3 2).cand = c) ∧
    (((axis 1 { coils := 1 } []).axRt 3).coils = 1 ∧ ((axis 1 { coils := 1 } []).axRt 3).v = 0 ∧
      ((axis 1 { coils := 1 } []).axRt 3).plan = 0 ∧ (axis 1 { coils := 1 } []).axState 3 = 1) := by decide +kernel

theorem witness_AxisFaults :
    (live.pageOn (pgAX 0) = true ∧ live.flt.conds.contains (faultKey (pgAX 0) 16) = false ∧ live.vmotZone = 0 ∧
      (17999#16).toNat < 18000 ∧ 52800 < (52801#16).toNat ∧ 18500 ≤ (18500#16).toNat ∧ (21599#16).toNat < 21600 ∧
      21600 ≤ (21600#16).toNat ∧ (52800#16).toNat ≤ 52800) ∧
    ((pageSet (pgAX 0) [(AX.STATUS.VMOT_OK, 1)]).vmotZone = 3 ∧ (pageSet (pgAX 0) [(AX.STATUS.VMOT_OK, 1)]).pageOn (pgAX 0) = true ∧
      (({ pageSet (pgAX 0) [(AX.BRIDGE.VMOT_MV, 60000)] with flt := { live.flt with conds := [faultKey (pgAX 0) 16] } } :
        State)).vmotZone = 2) ∧
    (axis 1 { coils := 1 } []).pageOn (pgAX 3) = true ∧
    100 ≤ (axis 1 { coils := 1 } []).get (pgAX 3) AX.CURRENT.I_HOLD ∧ ((axis 1 { coils := 1 } []).axRt 3).coils ≠ 0 ∧
    ((axis 1 { coils := 1 } []).axRt 3).v = 0 ∧ 1080 < signed 16 (1081#16).toNat ∧ 1200 < signed 16 (1201#16).toNat := by
  decide +kernel

/-- Both domains enabled, stamp and station time in state `st`, the reference at `ref`. -/
def timed (st ref : Nat) : State := { liveWith [(pgTIME, TIME.DOM_CFG.EN 0, 1), (pgTIME, TIME.DOM_CFG.EN 1, 1),
  (pgTIME, TIME.STATUS.STP_STATE, st), (pgTIME, TIME.STATUS.STN_STATE, st), (pgTIME, TIME.STATUS.STP_FAR, 1),
  (pgTIME, TIME.STATUS.STN_FAR, 1), (pgTIME, TIME.STEP_LO, 1)] with clk := { live.clk with ref := ref } }

/-- The timestamp FIFO holds `n` entries, and the next overflow has been counted. -/
def stamped (n : Nat) : State := { live with tsFifo := List.replicate n ⟨0, 0, 0⟩ }

theorem witness_TimeCounters :
    ((stamped 63).tsFifo.length < 64 ∧ 64 ≤ (stamped 64).tsFifo.length) ∧
    (((stamped 64).incMod pgTIME TIME.TS_OVF).setFault pgTIME 25).mayRecord 0x1500 = true ∧
    ((((stamped 64).markRecord 0x1500).incMod pgTIME TIME.TS_OVF).setFault pgTIME 25).mayRecord 0x1500 = false ∧
    live.served = true ∧
    (∀ x ∈ [0, 1], (timed 2 (2 ^ 40)).domLost x = false ∧ (timed 2 (2 ^ 40)).syncOver x = true ∧ (timed 2 (2 ^ 40)).estOver x = true) ∧
    (timed 2 0).stpState = 2 ∧ (timed 2 0).on pgTIME TIME.STATUS.STP_FAR = true ∧ (timed 2 0).on pgTIME TIME.STATUS.STN_FAR = true := by
  decide

theorem witness_TimeCommands :
    (∀ st ∈ [1, 2, 3], (timed st 0).mayAct pgTIME 0 ∧ (timed st 0).stepOfs ≠ 0 ∧ (timed st 0).clk.stnStepped = false ∧
      (timed st 0).clk.stpStepped = false ∧ (timed st 0).inRun = false ∧ (timed st 0).stnState = st ∧
      (timed st 0).on pgTIME TIME.STATUS.STEP_PENDING = false) ∧
    (((timed 1 0).put pgSEQ HDR.STATUS.STATE 3).mayAct pgTIME 0 ∧ ((timed 1 0).put pgSEQ HDR.STATUS.STATE 3).inRun = true ∧
      ((timed 1 0).put pgSEQ HDR.STATUS.STATE 3).stepOfs ≠ 0 ∧ ((timed 1 0).put pgSEQ HDR.STATUS.STATE 3).clk.stnStepped = false) ∧
    (0x09FD70A4 ≤ (0x09FD70A4#32).toNat ∧ (0x0A028F5C#32).toNat ≤ 0x0A028F5C) ∧
    (∀ st ∈ [1, 2, 3], let u := (((timed st 0).put pgTIME (TIME.DOM_OFS 0) 7).putB pgTIME (State.estOkF 0) true).estMark 0
      u.stpState = st ∧ u.stpDom = 0 ∧ u.eligible 0 = true) ∧
    ((timed 1 0).stnDom = 0 ∧ (timed 1 0).stnDom ≠ 1) ∧
    (∀ st ∈ [1, 2], ((timed st 0).putB pgTIME (State.estOkF 1) true).mayAct pgTIME 0 ∧
      ((timed st 0).putB pgTIME (State.estOkF 1) true).stpState = st ∧
      ((timed st 0).putB pgTIME (State.estOkF 1) true).eligible (1 - ((timed st 0).putB pgTIME (State.estOkF 1) true).stpDom) = true) := by
  unfold State.mayAct
  decide

/-- Port 1 runs with its link up, queue 7 holds one descriptor with words 1 and 2 at `w1` and `w2` of a frame at address 256, receive
queue 0 the same descriptor; the wire is busy up to `busy`. -/
def frameOut (lt late w1 w2 busy : Nat) : State :=
  (((((liveWith [(pgETH 1, HDR.STATUS.STATE, 3), (pgETH 1, ETH.STATUS.LINK, 1), (pgTIME, TIME.LT_CFG.LT_EN 15, lt),
    (pgTIME, TIME.LT_CFG.LATE_SEND 15, late), (pgETH 1, ETH.RXQ_SIZE.SIZE, 1), (pgETH 1, ETH.RXQ_TAIL.TAIL, 1)]).put (pgETH 1)
      ETH.TXQ_SIZE.SIZE 1 7).put (pgETH 1) ETH.TXQ_TAIL.TAIL 1 7).setEthRt 1 { busy := busy }).memWr 0 4 256).memWr 4 8 (w1 + w2 * 2 ^ 32)

/-- Word 1 of a good descriptor of 14 bytes. -/
def goodW1 : Nat := 0x800E0000

/-- Word 1 of a descriptor of too short a frame. -/
def shortW1 : Nat := 0x800D0000

theorem witness_Ethernet :
    (live.mayAct (pgETH 3) 0 ∧ ((liveWith [(pgETH 3, ETH.TXQ_INDEX.QUEUE, 7)]).mayAct (pgETH 3) 0 ∧
      (liveWith [(pgETH 3, ETH.TXQ_INDEX.QUEUE, 7)]).get (pgETH 3) ETH.TXQ_INDEX.QUEUE = 7) ∧
      live.get (pgETH 3) ETH.TXQ_INDEX.QUEUE ≠ 7) ∧
    (∀ w ∈ [0, goodW1, shortW1], (frameOut 0 0 w 0 0).ethRuns 1 = true ∧ (frameOut 0 0 w 0 0).inSequence = false ∧
      txNext (frameOut 0 0 w 0 0) 1 = some 7) ∧
    bitOf ((frameOut 0 0 0 0 0).memRd ((frameOut 0 0 0 0 0).txDesc 1 7 + 4) 4) 31 = false ∧
    (∀ w ∈ [goodW1, shortW1], bitOf ((frameOut 0 0 w 0 0).memRd ((frameOut 0 0 w 0 0).txDesc 1 7 + 4) 4) 31 = true ∧
      (frameOut 0 0 w 0 0).badDesc 1 7 = (w == shortW1)) ∧
    (frameOut 0 0 goodW1 0 0).on (pgETH 1) ETH.STATUS.LINK = true ∧
    (∀ x ∈ [(0, 0, 0), (1000, 0, 0), (1000, 0, 1000), (1001, 0, 0), (1001, 1, 0), (2 ^ 31 - 1, 0, 0), (2 ^ 32 - 1000000001, 0, 0)],
      let s := frameOut 1 x.2.1 goodW1 ((2 ^ 32 - x.1) % 2 ^ 32) x.2.2
      s.ethRuns 1 = true ∧ s.inSequence = false ∧ s.ltEn 1 7 = true ∧ s.txReady 1 7 = true ∧
        bitOf (s.memRd (s.txDesc 1 7 + 4) 4) 31 = true ∧ s.badDesc 1 7 = false ∧ s.on (pgETH 1) ETH.STATUS.LINK = true ∧
        s.get pgTIME (TIME.LT_CFG.LATE_SEND (1 * 8 + 7)) = x.2.1 ∧ (s.ethRt 1).held.contains 7 = false ∧
        s.wireBusy 1 = (x.2.2 == 1000) ∧ s.ltWaits 1 7 (s.memRd (s.txDesc 1 7 + 8) 4) = false ∧
        (s.stnNs + 2 ^ 32 - s.memRd (s.txDesc 1 7 + 8) 4) % 2 ^ 32 = x.1) ∧
    (2 ^ 31 < 2 ^ 32 - 1000000001 ∧ 1000000000 < 2 ^ 32 - (2 ^ 32 - 1000000001)) ∧
    live.pageOn (pgETH 3) = true ∧
    (let s := frameOut 0 0 goodW1 0 0
     let f := List.replicate 14 0#8
     let u := s.stormRefill 1
     s.prp = false ∧ s.ethRuns 1 = true ∧ s.pageOn (pgETH 1) = true ∧ 14 ≤ f.length ∧ f.length ≤ rxLimit s 1 f ∧
      s.ruleOf 1 (parseFrame f) = none ∧ s.on (pgETH 1) ETH.CFG.DEF_DROP = false ∧
      s.get (pgETH 1) (ETH.STORM.RATE (if (parseFrame f).da = 2 ^ 48 - 1 then 0 else if (parseFrame f).da / 2 ^ 40 % 2 = 1 then 1 else 2)) = 0 ∧
      (if (parseFrame f).tagged then (parseFrame f).pcp else 0) = 0 ∧
      ¬ (u.get (pgETH 1) ETH.RXQ_SIZE.SIZE 0 = 0 ∨ u.get (pgETH 1) ETH.RXQ_HEAD.HEAD 0 = u.get (pgETH 1) ETH.RXQ_TAIL.TAIL 0 ∨
        bitOf (u.memRd (u.rxqBase 1 0 + u.get (pgETH 1) ETH.RXQ_HEAD.HEAD 0 * 16 + 4) 4) 31 = false) ∧
      inTier12 (u.memRd (u.rxqBase 1 0 + u.get (pgETH 1) ETH.RXQ_HEAD.HEAD 0 * 16) 4 +
        bits (u.memRd (u.rxqBase 1 0 + u.get (pgETH 1) ETH.RXQ_HEAD.HEAD 0 * 16 + 8) 4) 7 0 * 2 ^ 32) f.length = true) ∧
    (∀ p ∈ [1, 3], (3 : Fin 4).val ≠ (liveWith [(pgETH p, ETH.CFG.ADV, 7)]).get (pgETH p) ETH.STATUS.SPEED ∧
      bitOf ((liveWith [(pgETH p, ETH.CFG.ADV, 7)]).get (pgETH p) ETH.CFG.ADV) ((3 : Fin 4).val - 1) = true) ∧
    (∀ sp ∈ [0, 1], let s := liveWith [(pgETH 2, ETH.STATUS.SPEED, sp), (pgETH 3, ETH.CFG.ADV, 7)]
      let t := (((s.put (pgETH 3) ETH.STATUS.SPEED 1).putB (pgETH 3) ETH.STATUS.LINK true).raise (pgETH 3) 0x180 1 [10]).event (0x34C + 3)
      let w := (t.cond (pgETH 3) 16 false).putB pgDWY DWY.STATUS.RATE_1G ((t.cond (pgETH 3) 16 false).ringByteNs == 8)
      (1 : Fin 4).val ≠ s.get (pgETH 3) ETH.STATUS.SPEED ∧ bitOf (s.get (pgETH 3) ETH.CFG.ADV) ((1 : Fin 4).val - 1) = true ∧
        w.get (pgETH 2) ETH.STATUS.SPEED = sp ∧ w.get (pgETH 3) ETH.STATUS.SPEED = 1) ∧
    (let s := { liveWith [(pgETH 0, ETH.CFG.PRP, 1)] with clk := { live.clk with ref := 2 ^ 40 } }
     s.prp = true ∧ (s.ethRt 1).lanLost = false ∧ s.pageOn (pgETH 1) = true ∧
      (s.ethRt 1).lanAt + 100000 * s.get (pgETH 0) ETH.CFG.LAN_TMO ≤ s.clk.ref) := by
  unfold State.mayAct
  decide +kernel

/-- A frame of type 0x892F from MAC 1, with its E2E code started from `init`. -/
def dwyOf (type station gen cycle flags init : Nat) (payload : List Byte) : List Byte :=
  let all := beBytes 0x10 1 ++ beBytes type 1 ++ beBytes station 1 ++ beBytes gen 1 ++ beBytes cycle 4
    ++ beBytes payload.length 2 ++ beBytes flags 2 ++ payload
  List.replicate 6 0 ++ beBytes 1 6 ++ List.replicate 17 0 ++ all ++ beBytes (crc32c (BitVec.ofNat 32 init) all).toNat 4

/-- The payload of a join of MAC 1: protocol 1.0 to 1.1, 64 bytes at most, method and capability bits set. -/
def joinPay : List Byte :=
  beBytes 1 6 ++ beBytes 0 6 ++ [0x10, 0x11, 3, 3] ++ beBytes 64 2 ++ beBytes 0 4 ++ beBytes 0 2 ++ beBytes 0 2 ++ beBytes 0 2
    ++ [0, 0] ++ beBytes 0xFFFF 2

/-- DWY runs on duty over a closed 1 Gbit/s ring; station 249 is of MAC 1, in state `st`, and task 31 runs it. -/
def field (st cfg : Nat) : State :=
  let s := liveWith [(pgDWY, HDR.STATUS.STATE, 3), (pgPAIR, PAIR.STATUS.ROLE, 1), (pgSTN 249, STN.STATUS.ST_STATE, st),
    (pgSTN 249, STN.ST_MAC_LO, 1), (pgSTN 249, STN.CFG.ENABLE, cfg), (pgSTN 249, STN.CFG.ANY, cfg),
    (pgSTN 249, STN.CFG.TASK, 31), (pgSTN 249, STN.CFG.METHODS, 3), (pgSTN 249, STN.HOLD.HOLD_T, 0),
    (pgSEQ, SEQ.ATTR.ENABLE 31, 1), (pgSEQ, SEQ.PERIOD.TICKS 31, 40), (pgSEQ, SEQ.PHASE.TICKS 31, 1), (pgSEQ, SEQ.LIN 31, 0xFF),
    (pgETH 2, ETH.STATUS.SPEED, 3), (pgETH 3, ETH.STATUS.SPEED, 3), (pgDWY, DWY.MAX_PAYLOAD.BYTES, 64)]
  { s with dwy := { s.dwy with trips := [0], gen := [(249, 1)] } }

theorem witness_Droveway :
    ((field 0 0).dwyRuns = true ∧ (field 0 0).duty = true ∧ (field 0 0).on pgDWY DWY.STATUS.RING_OPEN = false ∧
      (field 0 0).dwy.annAt = 0 ∧ (field 0 0).dwy.trips = [0] ∧ (max 0 (0#16).toNat :: []).foldl max 0 ≤ (field 0 0).get pgDWY DWY.T_RING.MAX_US) ∧
    (parseDwy (dwyOf 2 249 1 0 0 0 joinPay)).ok allOnes = false ∧
    ((parseDwy (dwyOf 2 249 1 0 0 allOnes joinPay)).ok allOnes = true ∧ (parseDwy (dwyOf 2 249 1 0 0 allOnes joinPay)).type = 2 ∧
      (parseDwy (dwyOf 2 249 1 0 0 allOnes joinPay)).payload.length = 32 ∧
      bitOf (parseDwy (dwyOf 2 249 1 0 0 allOnes joinPay)).flags 11 = false ∧ (field 0 0).joinOpen = true) ∧
    (({ field 0 0 with dwy := { (field 0 0).dwy with joins := 16 } } : State).dwyRuns = true ∧
      ({ field 0 0 with dwy := { (field 0 0).dwy with joins := 16 } } : State).joinOpen = false) ∧
    ((parseDwy (dwyOf 2 249 1 0 2048 allOnes joinPay)).ok allOnes = true ∧
      bitOf (parseDwy (dwyOf 2 249 1 0 2048 allOnes joinPay)).flags 11 = true ∧
      (parseDwy (dwyOf 2 249 1 0 2048 allOnes joinPay)).station = 249 ∧ (field 2 0).dwyRuns = true ∧ (field 2 0).duty = true ∧
      (field 2 0).stState 249 = 2 ∧ (field 2 0).stnMac 249 = (parseDwy (dwyOf 2 249 1 0 2048 allOnes joinPay)).num 0 6 ∧
      (field 2 0).stnGen 249 = (parseDwy (dwyOf 2 249 1 0 2048 allOnes joinPay)).gen ∧ (field 2 0).offerOver 249 = false) ∧
    (let f := parseDwy (dwyOf 2 249 1 0 0 allOnes joinPay)
     let u := (field 1 1).joinTake
     (field 1 1).dwyRuns = true ∧ (field 1 1).joinOpen = true ∧ u.joinMatch (f.num 6 2) (f.num 8 4) = (some 249, 0) ∧
      u.stnHeld 249 = false ∧ u.stnBound 249 = false ∧ u.stnMayStart 249 = true ∧
      u.joinReason 249 f (u.pickSlot 249 (f.num 22 2)) = 0) ∧
    ((parseDwy (dwyOf 5 249 2 0 0 allOnes [])).type = 5 ∧ (parseDwy (dwyOf 5 249 2 0 0 allOnes [])).station < 250 ∧
      (parseDwy (dwyOf 5 249 2 0 0 allOnes [])).gen ≠ (field 3 0).stnGen 249) ∧
    ((field 3 0).stnBound 249 = true ∧ (parseDwy (dwyOf 5 249 1 0 0 allOnes (List.replicate 8 0))).gen = (field 3 0).stnGen 249 ∧
      (parseDwy (dwyOf 5 249 1 0 0 allOnes (List.replicate 8 0))).sa = (field 3 0).stnMac 249 ∧ (field 3 0).stnSafe 249 = false ∧
      (parseDwy (dwyOf 5 249 1 0 0 allOnes (List.replicate 8 0))).ok allOnes = true ∧
      8 ≤ (parseDwy (dwyOf 5 249 1 0 0 allOnes (List.replicate 8 0))).payload.length ∧
      (parseDwy (dwyOf 5 249 1 0 0 0 (List.replicate 8 0))).ok allOnes = false) ∧
    (field 3 0).inWindow 249 (parseDwy (dwyOf 5 249 1 0 0 allOnes (List.replicate 8 0))).cycle = some 0 ∧
    ((field 3 0).stnRt 249).acc = none ∧
    (let s := { field 2 0 with clk := { live.clk with ref := 2 ^ 40 } }
     s.stState 249 = 2 ∧ s.offerOver 249 = true) ∧
    (let s := { field 3 0 with clk := { live.clk with stn := 250000 * 2 ^ 24 } }
     s.dwyRuns = true ∧ s.atFreeze 31 = some (0, 250000) ∧ Store.get 0 s.dwy.evalAt 31 ≠ 250000 + 1) := by decide +kernel

theorem witness_Stations :
    (live.mayAct (pgSTN 249) 0 ∧ (field 3 1).mayAct (pgSTN 249) 0 ∧ (field 3 1).stnBound 249 = true ∧
      (field 2 1).mayAct (pgSTN 249) 0 ∧ (field 2 1).stState 249 = 2) ∧ (field 5 1).dwyRuns = true ∧
    (parseDwy (dwyOf 8 249 0 0 0 0 joinPay)).ok allOnes = false ∧
    ((parseDwy (dwyOf 2 249 0 0 0 allOnes joinPay)).ok allOnes = true ∧ (parseDwy (dwyOf 2 249 0 0 0 allOnes joinPay)).type ≠ 8) ∧
    ((parseDwy (dwyOf 8 249 0 0 0 allOnes joinPay)).ok allOnes = true ∧ (parseDwy (dwyOf 8 249 0 0 0 allOnes joinPay)).type = 8 ∧
      (parseDwy (dwyOf 8 249 0 0 0 allOnes joinPay)).payload.length = 32 ∧
      (parseDwy (dwyOf 8 249 0 0 0 allOnes joinPay)).station = 249) ∧
    ((field 5 0).joinOpen = true ∧ (field 5 0).joinTake.stnEn 249 = false) ∧
    (let f := parseDwy (dwyOf 8 249 0 0 0 allOnes joinPay)
     let s := (field 5 1).setStnRt 249 { mac := 1, cfg := (field 5 1).stnKey 249 }
     s.dwyRuns = true ∧ s.joinOpen = true ∧ (s.stnRt 249).mac = f.num 0 6 ∧ s.stnEn 249 = true ∧ (s.stnRt 249).cfg = s.stnKey 249 ∧
      s.stState 249 = 5 ∧ (f.gen + 1) % 256 = s.stnGen 249 ∧ s.stnBound 249 = false ∧ s.stnMayStart 249 = true ∧
      s.joinTake.joinReason 249 f (s.joinTake.pickSlot 249 (f.num 22 2)) = 0) ∧
    ((parseDwy (dwyOf 9 249 0 0 0 allOnes [4])).type = 9 ∧ (parseDwy (dwyOf 9 249 0 0 0 allOnes [4])).station < 250 ∧
      (parseDwy (dwyOf 9 249 0 0 0 allOnes [4])).gen ≠ (field 3 1).stnGen 249) ∧
    ((parseDwy (dwyOf 9 249 1 0 0 allOnes [4])).gen = (field 3 1).stnGen 249 ∧ (field 3 1).dwyRuns = true ∧
      (field 3 1).stnBound 249 = true ∧ (parseDwy (dwyOf 9 249 1 0 0 allOnes [4])).sa = (field 3 1).stnMac 249 ∧
      (parseDwy (dwyOf 9 249 1 0 0 allOnes [4])).ok allOnes = true ∧ (parseDwy (dwyOf 9 249 1 0 0 0 [4])).ok allOnes = false) := by
  unfold State.mayAct
  decide +kernel

/-- CAN 3 is on the bus with the pending entries `l`, of which `on` is on the bus; `set` are further fields. -/
def canBus (l : List CanTx) (on : Option Nat) (set : List (Nat × Fld × Nat)) : State :=
  (liveWith ((pgCAN 3, CAN.STATUS.ON_BUS, 1) :: set)).setCanRt 3 { pend := l, onBus := on }

/-- A pending transmit entry 63. -/
def waits63 : CanTx := { entry := 63, w0 := 0, w1 := 0, data := [], order := 0 }

theorem witness_CanTransmit :
    ((liveWith [(pgCAN 3, CAN.TX_PEND_HI, 2 ^ 31)]).mayAct (pgCAN 3) 0 ∧
      bitOf ((liveWith [(pgCAN 3, CAN.TX_PEND_HI, 2 ^ 31)]).canPendMask 3) 63 = true) ∧
    (live.mayAct (pgCAN 3) 0 ∧ bitOf (live.canPendMask 3) 63 = false ∧ bitOf (live.canDoneMask 3) 63 = false ∧
      bitOf (live.memRd (live.canTxBase 3 + 63 * 80) 4) 29 = false ∧
      bitOf (live.memRd (live.canTxBase 3 + 63 * 80 + 4) 4) 28 = false) ∧
    (∀ on ∈ [none, some 63], (canBus [waits63] on []).mayAct (pgCAN 3) 0 ∧
      ((canBus [waits63] on []).canRt 3).pend.find? (fun t => t.entry == 63) = some waits63 ∧
      ((canBus [waits63] on []).canRt 3).onBus = on ∧ (canBus [waits63] on []).on (pgCAN 3) CAN.STATUS.ON_BUS = true ∧
      (canBus [waits63] on []).on (pgCAN 3) CAN.CFG.LISTEN = false ∧
      (canBus [waits63] on []).get (pgCAN 3) CAN.STATUS.ERR_STATE ≠ 2 ∧
      arbWinner ((canBus [waits63] on []).canRt 3).pend = some waits63) := by
  unfold State.mayAct
  decide

/-- CAN 3 on the bus with a filter rule that takes every standard frame, and rejects it where `rej` is 1. -/
def canRule (rej : Nat) : State :=
  canBus [] none [(pgCAN 3, CAN.RULE_W0.VALID, 1), (pgCAN 3, CAN.RULE_W0.REJECT, rej), (pgCAN 3, CAN.CFG.PEX, 1)]

theorem witness_CanReceive :
    (∀ g ∈ [0, 1], ((liveWith [(pgCAN 3, CAN.STATUS.ABR_ACTIVE, 1)]).setCanRt 3 { abrGood := g }).on (pgCAN 3)
        CAN.STATUS.ABR_ACTIVE = true ∧ bitOf (0#32).toNat 29 = false ∧
      (((liveWith [(pgCAN 3, CAN.STATUS.ABR_ACTIVE, 1)]).setCanRt 3 { abrGood := g }).canRt 3).abrGood = g) ∧
    (∀ r ∈ [0, 1], let s := canRule r
      let u := s.canCounters 3 (s.get (pgCAN 3) CAN.ERR.TEC) (if 127 < s.get (pgCAN 3) CAN.ERR.REC then 127 else s.get (pgCAN 3) CAN.ERR.REC - 1)
      s.on (pgCAN 3) CAN.STATUS.ABR_ACTIVE = false ∧ s.on (pgCAN 3) CAN.STATUS.ON_BUS = true ∧
        s.get (pgCAN 3) CAN.STATUS.ERR_STATE ≠ 2 ∧ s.on (pgCAN 3) CAN.CFG.PEX = true ∧
        s.on (pgCAN 3) CAN.CFG.LISTEN = false ∧ canRuleOf u 3 (0#32).toNat false = some 0 ∧
        u.get (pgCAN 3) CAN.RULE_W0.REJECT 0 = r ∧ (u.canRt 3).filled < 128) ∧
    bitOf (0x20000000#32).toNat 29 = true ∧
    (live.mayAct (pgCAN 3) 0 ∧ (0#8).toNat ≤ (live.canRt 3).filled ∧ (live.canRt 3).filled < (1#8).toNat ∧
      live.get (pgCAN 3) CAN.STATUS.ERR_STATE ≠ 2) ∧
    (let s := liveWith [(pgCAN 3, CAN.STATUS.ERR_STATE, 2), (pgCAN 3, CAN.STATUS.RECOVERING, 1), (pgCAN 3, CAN.CFG.LISTEN, 1)]
     s.mayAct (pgCAN 3) 0 ∧ s.get (pgCAN 3) CAN.STATUS.ERR_STATE = 2 ∧ s.get (pgCAN 3) CAN.STATUS.RECOVERING ≠ 0 ∧
      s.on (pgCAN 3) CAN.CFG.LISTEN = true) ∧
    (let s := { liveWith [(pgCAN 3, CAN.STATUS.ABR_ACTIVE, 1)] with clk := { live.clk with stnHi := 0xFFFFFFFF#32 } }
     s.on (pgCAN 3) CAN.STATUS.ABR_ACTIVE = true ∧ (s.canRt 3).abrAt + s.get (pgCAN 3) CAN.ABR.TMO * 1000000000 ≤ s.e) := by
  unfold State.mayAct
  decide +kernel

/-- Channel 63 in mode `mode`, its group in Stop duty, with further fields of its group; the reference at `2^40`. -/
def channel (mode : Nat) (set : List (Fld × Nat)) : State :=
  let s := liveWith ([(pgDIOG 7, HDR.STATUS.STATE, 3), (pgDIOG 7, DIOG.CH_CFG.MODE 7, mode), (pgPAIR, PAIR.STATUS.ROLE, 1)]
    ++ set.map (fun x => (pgDIOG 7, x.1, x.2)))
  { s with boot := { s.boot with reachedStop := true }, clk := { s.clk with ref := 2 ^ 40 } }

theorem witness_DigitalChannels :
    (∀ a ∈ [true, false], let s := (channel 1 []).setDioRt 63 { accepted := a }
      s.active (State.dioPg 63) = true ∧ s.fsMissing (63 / 8) = false ∧ s.dioIsIn 63 = true ∧
        s.dioFiltered 63 (0#32).toNat = true ∧ (s.dioRt 63).accepted = a ∧ s.dioLevel 63 = !(true != s.dioInv 63)) ∧
    ((channel 3 []).active (State.dioPg 63) = true ∧ (channel 3 []).fsMissing (63 / 8) = false ∧ (channel 3 []).dioIsIn 63 = false ∧
      (channel 3 []).dioIsOut 63 = true) ∧
    (700 ≤ (700#16).toNat ∧ ∀ l ∈ [0, 1], let s := channel 3 [(State.levelF 16 63, 1), (DIOG.CH_STAT.IN_LIMIT 7, l)]
      s.dioCmd 63 = true ∧ s.dioStood 63 5 = true ∧
        (s.put (State.dioPg 63) (DIOG.CH_STAT.MA (63 % 8)) 700).get (State.dioPg 63) (DIOG.CH_STAT.IN_LIMIT (63 % 8)) = l) ∧
    (let s := channel 3 [(State.levelF 16 63, 1), (DIOG.CH_CFG.OL_EN 7, 1)]
     s.dioCmd 63 = true ∧ s.on (State.dioPg 63) (DIOG.CH_CFG.OL_EN (63 % 8)) = true ∧ s.dioStood 63 100 = true) ∧
    ((channel 3 []).pageOn (State.dioPg 63) = true ∧ (channel 3 []).dioIsOut 63 = true ∧
      (channel 3 []).on (State.dioPg 63) (DIOG.CH_STAT.THERMAL_OFF (63 % 8)) = false) ∧
    (let s := channel 3 [(DIOG.CH_CFG.TP_EN 7, 1), (DIOG.GCFG.TP_PERIOD, 1)]
     s.mayDrive (State.dioPg 63) = true ∧ s.active (State.dioPg 63) = true ∧ s.dioIsOut 63 = true ∧ s.dioPulseDue 63 = true) ∧
    (let s := channel 3 [(DIOG.CH_CFG.RB_EN 7, 1), (State.levelF 0 63, 1)]
     s.mayDrive (State.dioPg 63) = true ∧ s.active (State.dioPg 63) = true ∧ s.dioIsOut 63 = true ∧
      s.on (State.dioPg 63) (DIOG.CH_CFG.RB_EN (63 % 8)) = true ∧ (s.dioLevel 63 != s.dioCmd 63) = true ∧ s.dioStood 63 12 = true ∧
      s.on (State.dioPg 63) (DIOG.CH_STAT.READBACK_ERR (63 % 8)) = false) ∧
    (let s := channel 3 [(DIOG.CH_STAT.COOL 7, 1), (DIOG.CH_STAT.THERMAL_OFF 7, 1)]
     s.mayAct (pgDIOG 7) 0 ∧ s.on (State.dioPg 63) (DIOG.CH_STAT.COOL (63 % 8)) = true ∧
      s.on (State.dioPg 63) (DIOG.CH_STAT.THERMAL_OFF (63 % 8)) = true) ∧
    (live.mayAct (pgDIOG 7) 0 ∧ live.served = true ∧ live.pageOn (pgDIOG 7) = true ∧ live.get (pgDIOG 7) DIOG.EDGE_SEL.CH = 0 ∧
      (live.dioRt (8 * 7 + 0)).edges = []) ∧
    ((live.setDioRt 56 { edges := [⟨1, 0, true, false, false⟩] }).served = true ∧
      (live.setDioRt 56 { edges := [⟨1, 0, true, false, false⟩] }).pageOn (pgDIOG 7) = true ∧
      ((live.setDioRt 56 { edges := [⟨1, 0, true, false, false⟩] }).dioRt (8 * 7 + 0)).edges =
        [⟨1, 0, true, false, false⟩]) := by
  unfold State.mayAct
  decide +kernel

/-- Group 7 with the field supply flags given and `mv` measured. -/
def supply (missing low mv : Nat) : State :=
  liveWith [(pgDIOG 7, DIOG.STATUS.FS_MISSING, missing), (pgDIOG 7, DIOG.STATUS.FS_LOW, low), (pgDIOG 7, DIOG.FS_MV.MV, mv)]

theorem witness_FieldSupply :
    (∀ mi ∈ [0, 1], ∀ lo ∈ [0, 1], ∀ mv ∈ [8999, 9000, 10000, 19199, 19200, 19699, 19700], (supply mi lo mv).pageOn (pgDIOG 7) = true ∧
      (supply mi lo mv).fsMissing 7 = (mi == 1) ∧ (supply mi lo mv).fsLow 7 = (lo == 1)) ∧
    ((8999#16).toNat < 9000 ∧ 9000 ≤ (9000#16).toNat ∧ (19199#16).toNat < 19200 ∧ 19200 ≤ (19200#16).toNat) ∧
    10000 ≤ (10000#16).toNat ∧ (19699#16).toNat < 19700 ∧ 19700 ≤ (19700#16).toNat := by decide

/-- Analogue channel 3 of type `ty` runs, with further fields. -/
def analogue (ty : Nat) (set : List (Fld × Nat)) : State :=
  pageSet (pgANA 3) ([(HDR.STATUS.STATE, 3), (ANA.CFG.TYPE, ty)] ++ set)

/-- What a due conversion to `i` leaves before its value is written. -/
def converted (ty : Nat) (set : List (Fld × Nat)) (i : Word) : State :=
  let s := analogue ty set
  let p := s.anaConvMs 3 * 1000000
  ((((s.setAnaRt 3 { s.anaRt 3 with convAt := some (s.e - s.e % p) }).setReg (pgANA 3) ANA.MA.off i).put (pgANA 3) ANA.SUPPLY_MV.MV
    (s.anaSupply 3 24000)).put (pgANA 3) ANA.TEMP.T 0).useFree

/-- The limits of an input. -/
def limits : List (Fld × Nat) := [(ANA.LIM_LO, 0x40800000), (ANA.LIM_HI, 0x41A00000), (ANA.BAD_HI, 0x41A80000), (ANA.BAD_LO, 0x3F800000)]

theorem witness_AnalogueChannels :
    (∀ ty ∈ [1, 3], (analogue ty []).active (pgANA 3) = true ∧ (analogue ty []).anaType 3 ≠ 0 ∧ (analogue ty []).anaDue 3 = true ∧
      (converted ty [] 0).anaIn 3 = (ty == 1)) ∧
    ((analogue 1 [(ANA.STATUS.MISWIRE, 1)]).anaDue 3 = true ∧ (converted 1 [(ANA.STATUS.MISWIRE, 1)] 0).anaIn 3 = true ∧
      ((converted 1 [(ANA.STATUS.MISWIRE, 1)] 0).anaRange 3 0).anaBroken 3 = true) ∧
    (let v := (converted 1 limits 0x3F800000#32).anaRange 3 0x3F800000#32
     v.anaBroken 3 = false ∧ (v.anaRt 3).range = 0 ∧ F32.lt 0x3F800000#32 (v.anaW 3 ANA.LIM_LO) = true) ∧
    (let v := (converted 1 limits 0x40800000#32).anaRange 3 0x40800000#32
     v.anaBroken 3 = false ∧ (v.anaRt 3).range = 0 ∧ F32.lt 0x40800000#32 (v.anaW 3 ANA.LIM_LO) = false ∧
      F32.lt (v.anaW 3 ANA.LIM_HI) 0x40800000#32 = false) ∧
    (let s := { (analogue 4 []).setAnaRt 3 { devAt := some 0 } with clk := { live.clk with ref := 10000000 } }
     s.active (pgANA 3) = true ∧ s.anaOut 3 = true ∧ s.on (pgANA 3) ANA.STATUS.COMPLIANCE = false ∧ (s.anaRt 3).boost = false ∧
      (s.anaRt 3).rbErr = false ∧ (s.anaRt 3).devAt = some 0 ∧ 0 + 10000000 ≤ s.clk.ref) ∧
    ((analogue 4 []).pageOn (pgANA 3) = true ∧
      (analogue 4 []).anaType 3 = 4 ∧ (analogue 4 []).on (pgANA 3) ANA.STATUS.NO_LOOP = false ∧
      (analogue 4 [(ANA.STATUS.NO_LOOP, 1)]).pageOn (pgANA 3) = true ∧ (analogue 4 [(ANA.STATUS.NO_LOOP, 1)]).anaType 3 = 4 ∧
      (analogue 4 [(ANA.STATUS.NO_LOOP, 1)]).on (pgANA 3) ANA.STATUS.NO_LOOP = true) ∧
    ((analogue 1 []).on (pgANA 3) ANA.STATUS.THERMAL = false ∧ (3 : Fin 16).val < 4 ∧
      (analogue 1 []).on (pgANA 3) ANA.STATUS.MISWIRE = false ∧ ∀ k : Fin 3, ((analogue 1 []).anaRt 3).island ≠ k.val + 1) ∧
    (∀ c ∈ [true, false], ((analogue 1 [(ANA.STATUS.THERMAL, 1)]).setAnaRt 3 { cool := c }).mayAct (pgANA 3) 0 ∧
      ((analogue 1 [(ANA.STATUS.THERMAL, 1)]).setAnaRt 3 { cool := c }).on (pgANA 3) ANA.STATUS.THERMAL = true ∧
      (((analogue 1 [(ANA.STATUS.THERMAL, 1)]).setAnaRt 3 { cool := c }).anaRt 3).cool = c) ∧
    (let s := { analogue 1 [(ANA.STATUS.MISWIRE, 1)] with clk := { live.clk with ref := 100000000 } }
     s.on (pgANA 3) ANA.STATUS.MISWIRE = true ∧ (s.anaRt 3).testAt + 100000000 ≤ s.clk.ref) ∧
    (((analogue 1 []).setAnaRt 3 { island := 3 }).anaRt 3).island ≠ 0 := by
  unfold State.mayAct
  decide +kernel

/-- HART is enabled on channel 3 of type `ty`, RUN on, two bytes to send; a transaction runs or not; the clock steps at `clk`. -/
def hartOf (ty clk : Nat) (busy : Bool) (taken : Nat) : State :=
  (analogue ty [(ANA.CFG.HART_EN, 1), (HDR.CTRL.RUN, 1), (ANA.HART_LEN.TX_LEN, 2), (ANA.HART_STATUS.TAKEN, taken),
    (ANA.STATUS.CLK_STEP, clk)]).setAnaRt 3 { hart := busy }

theorem witness_Hart :
    (∀ b ∈ [true, false], ∀ t ∈ [0, 1], (hartOf 1 0 b t).mayAct (pgANA 3) 0 ∧ (hartOf 1 0 b t).on (pgANA 3) ANA.CFG.HART_EN = true ∧
      ((hartOf 1 0 b t).anaRt 3).hart = b ∧ (hartOf 1 0 b t).get (pgANA 3) ANA.HART_STATUS.TAKEN = t ∧
      (hartOf 1 0 b t).active (pgANA 3) = true) ∧
    (∀ x ∈ [(1, 0), (4, 1)], let s := hartOf x.1 x.2 false 0
      s.mayAct (pgANA 3) 0 ∧ s.on (pgANA 3) HDR.CTRL.RUN = true ∧ s.on (pgANA 3) ANA.STATUS.MISWIRE = false ∧
        s.on (pgANA 3) ANA.STATUS.NO_LOOP = false ∧ (s.anaType 3 ≠ 4 ∨ s.get (pgANA 3) ANA.STATUS.CLK_STEP ≠ 0) ∧
        (wordsBytes ((List.range 64).map (fun i => s.reg (pgANA 3) (ANA.HART_TX i).off))).take
          (s.get (pgANA 3) ANA.HART_LEN.TX_LEN) = [0, 0]) := by
  unfold State.mayAct
  decide +kernel

/-- DVL runs on lane 1; ROLE is `role` and PAIR_STATE is `ps`. -/
def paired (role ps : Nat) (set : List (Nat × Fld × Nat)) : State := liveWith ([(pgDVL, HDR.STATUS.STATE, 3),
  (pgDVL, DVL.CFG.LANE_EN, 2), (pgPAIR, PAIR.STATUS.ROLE, role), (pgPAIR, PAIR.STATUS.PAIR_STATE, ps)] ++ set)

/-- What the first frame of type `ty` with the payload `p` leaves, and what it gives. -/
def got (s : State) (ty : Nat) (p : List Byte) : State × Option (List Byte) := s.dvlReceive 1 ty (State.dvlFrame ty 1 0 p)

/-- A copy of one dirty line, the last of its 16, of region 5 of task 31. -/
def copyPay : List Byte := [31, 5, 0, 0] ++ List.replicate 8 0 ++ beBytes 32768 2 ++ List.replicate 64 7

/-- The last part of the snapshot 0. -/
def loopPay : List Byte := [0, 0, 0, 0, 66] ++ List.replicate (11 + 512) 0

/-- A pairing of the same protocol and image hash at slot position 1, carrier 0, RESULT 0. -/
def pairPay (s : State) : List Byte :=
  beBytes (s.get pgDVL DVL.PROTO.VER_MIN) 1 ++ beBytes (s.get pgDVL DVL.PROTO.VER_MAX) 1 ++ [1, 0] ++ List.replicate 44 0 ++
    beBytes s.ownHash 32

set_option maxRecDepth 20000 in
theorem witness_PairLink :
    (∀ ty ∈ [1, 2, 3, 4, 5, 6, 7, 8], (got (paired 2 4 []) ty (List.replicate 16 7)).2 = some (List.replicate 16 7) ∧
      (got (paired 2 4 []) ty (List.replicate 16 7)).1.role = 2) ∧ (List.replicate 16 7#8).length = 16 ∧
    ((got (paired 2 4 []) 1 copyPay).2 = some copyPay ∧ (got (paired 2 4 []) 1 copyPay).1.role = 2 ∧ payNat copyPay 0 1 < 32 ∧
      payNat copyPay 1 1 < 6 ∧
      copyPay.length = 14 + 64 * ((List.range 16).filter (fun j => bitOf (payNat copyPay 12 2) j)).length) ∧
    (let p : List Byte := 31 :: List.replicate 43 0
     let u := (got (paired 2 4 []) 2 p).1
     (got (paired 2 4 []) 2 p).2 = some p ∧ u.role = 2 ∧ payNat p 0 1 < 32 ∧ p.length = 44 ∧
      ((u.pair.frames.find? (fun e => e.1 == 31 && e.2.1 == payNat p 4 4)).map (fun e => e.2.2)).getD 0 = payNat p 8 4) ∧
    ((got (paired 2 4 []) 4 (List.replicate 48 0)).2 = some (List.replicate 48 0) ∧ (List.replicate 48 0#8).length = 48) := by decide +kernel

set_option maxRecDepth 20000 in
theorem witness_PairLink_pairing :
    (∀ ps ∈ [2, 3], let p := pairPay (paired 0 ps [])
      let u := (got (paired 0 ps []) 5 p).1
      (got (paired 0 ps []) 5 p).2 = some p ∧ p.length = 80 ∧ u.pairState = ps ∧
        max (payNat p 0 1) (u.get pgDVL DVL.PROTO.VER_MIN) ≤ min (payNat p 1 1) (u.get pgDVL DVL.PROTO.VER_MAX) ∧
        payNat p 48 32 = u.ownHash ∧ payNat p 2 1 ≠ u.get pgSUP SUP.SLOT_ID.POSITION ∧ payNat p 2 1 ≠ 2 ∧
        u.get pgSUP SUP.SLOT_ID.POSITION ≠ 2 ∧ 0 = u.get pgSUP SUP.SLOT_ID.CARRIER ∧ payNat p 3 1 = 0) := by decide +kernel

set_option maxRecDepth 20000 in
theorem witness_PairLink_loop :
    (∀ n ∈ [0, 66], let s := (paired 2 4 []).setPair { parts := (List.range n).map (fun i => (i, [])) }
      let u := (got s 3 loopPay).1
      (got s 3 loopPay).2 = some loopPay ∧ u.role = 2 ∧ payNat loopPay 4 1 = 66 ∧ loopPay.length = 16 + 512 ∧
        u.pair.snapIn = payNat loopPay 0 4 ∧ u.pair.snapT = payNat loopPay 8 8 ∧
        (u.pair.parts.filter (fun (e : Nat × List Byte) => e.1 != 66) ++ [(66, loopPay.drop 16)]).length = n + 1) := by decide +kernel

theorem witness_PairLink_sends :
    (let s := { (paired 2 4 []).setPair { laneAt := [(1, some 0)] } with clk := { live.clk with ref := 30000 } }
     s.dvlRuns = true ∧ (Store.get none s.pair.laneAt 1).any (fun t => decide (s.clk.ref ≤ t + 30000)) = true ∧
      s.on pgDVL DVL.STATUS.LANE1_UP = !true) ∧
    ((paired 2 4 [(pgDVL, DVL.STATUS.LANE0_UP, 1)]).dvlRuns = true ∧
      (paired 2 4 [(pgDVL, DVL.STATUS.LANE0_UP, 1)]).on pgDVL DVL.STATUS.LANE0_UP = !false) ∧
    ((paired 0 2 []).pairState = 2 ∧ (paired 0 3 []).pairState = 3 ∧
      (paired 0 2 []).pair.pairingAt.all (fun t => decide (t + 1000000 ≤ (paired 0 2 []).clk.ref)) = true) ∧
    (∀ ps ∈ [4, 5, 6], (paired 1 ps []).role = 1 ∧ (paired 1 ps []).paired = true ∧ (paired 1 ps []).dvlRuns = true ∧
      (paired 1 ps []).e < 0 + 60000 ∧ (paired 1 ps []).e / 1000000 * 1000000 = 0 ∧ (paired 1 ps []).pair.snapSent ≠ some 0) ∧
    (let s := { paired 2 4 [(pgDVL, DVL.STATUS.HB_OK, 1)] with clk := { live.clk with ref := 2 ^ 40 } }
     s.on pgDVL DVL.STATUS.HB_OK = true ∧ s.pair.rxAt + s.get pgDVL DVL.CFG.HB_MISS * 10000 + 5000 ≤ s.clk.ref ∧
      s.on pgPAIR PAIR.STATUS.DUTY_IN = false) ∧
    (2 ≤ (paired 0 2 []).pairState ∧ (paired 0 2 []).dvlRuns = true ∧ (paired 0 2 []).shadowRuns = false ∧
      (paired 0 2 []).pair.shTask = 255 ∧
      (paired 0 2 []).pair.hbAt.all (fun t => decide (t + 9900 ≤ (paired 0 2 []).clk.ref)) = true) := by decide +kernel

/-- A module that claims duty, with DUTY_IN at `duty`, TAKE_IN at `take` and its slot position `pos`; the reference at `2^40`. -/
def claiming (duty take pos : Nat) : State :=
  { (paired 0 4 [(pgPAIR, PAIR.STATUS.DUTY_OUT, 1), (pgPAIR, PAIR.STATUS.DUTY_IN, duty), (pgPAIR, PAIR.STATUS.TAKE_IN, take),
    (pgSUP, SUP.SLOT_ID.POSITION, pos)]).setPair { claim := 1, waiting := true } with clk := { live.clk with ref := 2 ^ 40 } }

/-- A duty module with a ready standby, a handover asked for at `E` 0, extended station time `e`. -/
def handing (ho e : Nat) : State :=
  { paired 1 5 [(pgPAIR, PAIR.STATUS.READY, 1), (pgPAIR, PAIR.STATUS.HANDOVER, ho), (pgPAIR, PAIR.CFG.ROT_H, 1),
      (pgSUP, SUP.SLOT_ID.VALID, 1)] with
    clk := { live.clk with stn := BitVec.ofNat 56 (e * 2 ^ 24), ref := 360000000000 } }

theorem witness_PairDuty :
    (let s := claiming 0 0 0
     s.pair.waiting = true ∧ s.role = 0 ∧ s.on pgPAIR PAIR.STATUS.DUTY_IN = false ∧ s.inSequence = false ∧
      s.pair.waitAt + s.get pgPAIR PAIR.CFG.CLAIM_WAIT * 10000000 ≤ s.clk.ref ∧
      s.pair.claim ≠ 0 ∧ s.on pgPAIR PAIR.STATUS.DUTY_OUT = true ∧ s.pair.claimAt + 2000 ≤ s.clk.ref ∧ s.pd1 = true) ∧
    (∀ p ∈ [0, 1], let s := claiming 1 0 p
      s.pair.claim ≠ 0 ∧ s.on pgPAIR PAIR.STATUS.DUTY_OUT = true ∧ s.inSequence = false ∧ s.pair.claimAt + 2000 ≤ s.clk.ref ∧
        s.on pgPAIR PAIR.STATUS.DUTY_IN = true ∧ s.on pgPAIR PAIR.STATUS.TAKE_IN = false ∧ s.slotB = (p == 1) ∧ s.pd1 = true ∧
        s.pair.yieldAt + 1000000 ≤ s.clk.ref) ∧
    (∀ x ∈ [0, 1], let s := paired 2 4 [(pgPAIR, PAIR.STATUS.TAKE_IN, x)]
      let u := (if s.on pgPAIR PAIR.STATUS.TAKE_IN then s else s.setPair { s.pair with takeAt := s.clk.ref }).putB pgPAIR
        PAIR.STATUS.TAKE_IN true
      s.pd1 = true ∧ u.role = 2 ∧ u.pair.claim = 0 ∧ u.inSequence = false) := by
  decide +kernel

theorem witness_PairDuty_commands :
    ((handing 0 0).mayAct pgPAIR 0 ∧ (handing 0 0).role = 1 ∧ (handing 0 0).paired = true ∧
      (handing 0 0).on pgPAIR PAIR.STATUS.READY = true ∧ (handing 0 0).on pgPAIR PAIR.STATUS.HANDOVER = false ∧
      ((handing 0 0).handoverAsk 3).2 = 0) ∧
    ((handing 1 0).mayAct pgPAIR 0 ∧ ((handing 1 0).handoverAsk 3).2 ≠ 0) ∧
    ((paired 2 4 []).mayAct pgPAIR 0 ∧ (paired 2 4 []).role = 2 ∧ (paired 2 4 []).pairState = 4 ∧
      (let s := { paired 2 4 [] with clk := { live.clk with ref := 1000000000 } }
       s.role = 2 ∧ s.pairState = 4 ∧ s.pair.pairedAt + 1000000000 ≤ s.clk.ref)) ∧
    (live.mayAct pgPAIR 0 ∧ live.role ≠ 2) ∧
    (let s := handing 1 2000000
     s.role = 1 ∧ s.on pgPAIR PAIR.STATUS.HANDOVER = true ∧ s.paired = true ∧ s.on pgPAIR PAIR.STATUS.READY = true ∧
      s.inSequence = false ∧ s.e = s.e / 1000000 * 1000000 ∧ s.pair.hoAt + 2000000 ≤ s.e ∧
      s.handOk (s.e / 1000000 * 1000000) = true) ∧
    ((handing 1 2000000000).role = 1 ∧ (handing 1 2000000000).on pgPAIR PAIR.STATUS.HANDOVER = true ∧
      (handing 1 2000000000).pair.hoAt + 2000000000 ≤ (handing 1 2000000000).e) ∧
    (∀ ho ∈ [0, 1], let s := handing ho 0
      s.role = 1 ∧ s.pairSlot = true ∧ s.get pgPAIR PAIR.CFG.ROT_H ≠ 0 ∧
        s.pair.dutyAt + s.get pgPAIR PAIR.CFG.ROT_H * 360000000000 ≤ s.clk.ref ∧
        s.pair.rotAt.all (fun t => decide (t + 6000000000 ≤ s.clk.ref)) = true ∧
        (decide (((s.setPair { s.pair with rotAt := some s.clk.ref }).handoverAsk 4).2 = 0) = (ho == 0))) := by
  unfold State.mayAct
  decide +kernel

/-- A standby with the shadow check on and a digest of 5 to compare, a first mismatch of pair `q` or none; pair 3 is healthy. -/
def shadowing (q : Option Nat) : State :=
  (paired 2 5 [(pgPAIR, PAIR.CFG.SHADOW_EN, 1), (pgPLACE, PLACE.DET.BUILT, 1), (pgCP 3, HDR.STATUS.STATE, 3)]).setPair
    { shDigest := some 5, shPair := q, shTask := 3 }

/-- A module on a live link, its partner's role 1 and its TAKE_IN and DUTY_OUT up; the reference at `2^40`. -/
def linked (role : Nat) : State :=
  { (paired role 5 [(pgDVL, DVL.STATUS.LINK_OK, 1), (pgDVL, DVL.STATUS.HB_OK, 1), (pgPAIR, PAIR.STATUS.TAKE_IN, 1),
    (pgPAIR, PAIR.STATUS.DUTY_OUT, 1)]).setPair { pRole := 1 } with clk := { live.clk with ref := 2 ^ 40 } }

theorem witness_PairTests :
    (∀ q ∈ [none, some 2], (shadowing q).pair.shDigest = some 5 ∧ (shadowing q).shadowRuns = true ∧
      (shadowing q).pair.shPair ≠ some 3 ∧ (shadowing q).pairHealthy 3 = true ∧ (shadowing q).pair.shPair = q) ∧
    ((5#64).toNat = 5 ∧ (6#64).toNat ≠ 5) ∧
    ((paired 2 5 []).role = 2 ∧ (paired 2 5 []).readyNow.pair.ofsBad = false ∧
      (paired 2 5 []).pair.testAt.all (fun t => decide (t + (paired 2 5 []).get pgPAIR PAIR.SELFTEST_CFG.PERIOD_S * 100000000 ≤
        (paired 2 5 []).clk.ref)) = true) ∧
    (let s := { (paired 2 5 [(pgDVL, DVL.STATUS.HB_OK, 1), (pgDVL, DVL.PEER_OFS_HI, 1)]).setPair { ofsBad := true, ofsAt := 1 } with
        clk := { live.clk with ref := 10000000 } }
     s.role = 2 ∧ s.readyNow.pair.ofsBad = true ∧ s.readyNow.pair.ofsAt + 10000000 ≤ s.readyNow.clk.ref + 1) ∧
    ((linked 2).role = 2 ∧ (linked 2).on pgDVL DVL.STATUS.LINK_OK = true ∧ (linked 2).on pgDVL DVL.STATUS.HB_OK = true ∧
      (linked 2).on pgPAIR PAIR.STATUS.TAKE_IN = true ∧ bitOf (linked 2).pair.pFlags 1 = false ∧ (linked 2).pair.pRole = 1 ∧
      (linked 2).on pgPAIR PAIR.STATUS.DUTY_IN = false ∧ (linked 2).pair.takeAt + 100000 ≤ (linked 2).clk.ref ∧
      (linked 2).pair.freeAt + 500000 ≤ (linked 2).clk.ref + 1 ∧ (linked 2).on pgPAIR PAIR.FAULT.LINE = false) ∧
    ((linked 1).role = 1 ∧ (linked 1).on pgDVL DVL.STATUS.LINK_OK = true ∧ (linked 1).on pgDVL DVL.STATUS.HB_OK = true ∧
      (linked 1).on pgPAIR PAIR.STATUS.DUTY_OUT = true ∧ bitOf (linked 1).pair.pFlags 2 = false) := by decide +kernel

/-- FLT has fenced `page`, and SEQ has shed task 31. -/
def fencedPage (page : Nat) : State :=
  { liveWith [(pgSEQ, SEQ.SHED, 2 ^ 31)] with flt := { live.flt with fenced := [page] } }

/-- FLT holds bit 16 of DIO group 7, set or not, and addresses its source. -/
def heldSource (set : Nat) : State :=
  { liveWith [(pgDIOG 7, ⟨0x010, 16, 16⟩, set), (pgFLT, FLT.SRC_INDEX.SOURCE, State.keySrc (faultKey (pgDIOG 7) 16))] with
    flt := { live.flt with held := [faultKey (pgDIOG 7) 16] } }

theorem witness_FaultRegister :
    (populated (0x1F9#9).toNat = true ∧ live.pd1 = true ∧ live.servedTo 0 = true ∧ live.owner pgFLT = 0 ∧
      live.on pgFLT FLT.CMD_STATUS.BUSY = false ∧ live.mayAct pgLEG 0) ∧
    (∀ x ∈ [0, 1], let s := heldSource x
      let k := faultKey (pgDIOG 7) 16
      s.servedTo 0 = true ∧
        (s.flt.held ++ s.flt.edges).filter (fun j => State.keySrc j == s.get pgFLT FLT.SRC_INDEX.SOURCE) = [k] ∧
        State.keyTask k = none ∧ s.flt.held.contains k = true ∧ s.faultBitSet k = (x == 1) ∧ s.flt.conds.contains k = false ∧
        s.flt.edges.contains k = false) ∧
    ((fencedPage (pgSTN 249)).servedTo 0 = true ∧ (fencedPage (pgSTN 249)).on pgFLT FLT.CMD_STATUS.BUSY = false ∧
      (fencedPage (pgSTN 249)).owner pgFLT = 0 ∧ (fencedPage (pgSTN 249)).readmitPageReason (0x1F9#9).toNat = 0 ∧
      pageKind (0x1F9#9).toNat = some (.stn, 249) ∧ Kind.stn ≠ .cp) ∧
    ((fencedPage (pgCP 3)).servedTo 0 = true ∧ (fencedPage (pgCP 3)).on pgFLT FLT.CMD_STATUS.BUSY = false ∧
      (fencedPage (pgCP 3)).owner pgFLT = 0 ∧ (fencedPage (pgCP 3)).readmitPageReason (0x00B#9).toNat = 0 ∧
      pageKind (0x00B#9).toNat = some (.cp, 3)) ∧
    (live.readmitPageReason (0x00B#9).toNat ≠ 0 ∧ (fencedPage 0).readmitTaskReason (31#9).toNat = 0 ∧
      live.readmitTaskReason (32#9).toNat ≠ 0) := by
  unfold State.mayAct
  decide +kernel

/-- Tally counter `i` is addressed and the unlock stands at `lock`. -/
def counting (i lock : Nat) : State :=
  { liveWith [(pgTLY, TLY.INDEX.COUNTER, i)] with tly := { live.tly with unlock := lock, thr := [(i, 1)] } }

theorem witness_TallyCounters :
    (∀ x ∈ [(128, 0), (255, 0), (13, 2), (92, 2), (13, 0), (92, 0), (12, 0), (93, 0), (127, 0)], (counting x.1 x.2).mayAct pgTLY 0 ∧
      (counting x.1 x.2).get pgTLY TLY.INDEX.COUNTER = x.1 ∧ (counting x.1 x.2).tly.unlock = x.2) ∧
    (∀ i ∈ [0, 119, 128, 255], (counting i 0).tlyTouch.get pgTLY TLY.INDEX.COUNTER = i ∧ (i < 120 ∨ 127 < i) ∧
      (counting i 0).tlyTouch.tly.thrHeld.getD (Store.get 0 (counting i 0).tlyTouch.tly.thr i % 4294967296) = 1 ∧
      (counting i 0).tlyTouch.tally i < 1) ∧
    (∀ n ∈ [0, 1], (counting 0 n).tly.unlock ≠ 2 ∧ (counting 0 n).tly.unlock = n ∧
      (counting 0 n).clk.ref ≤ (counting 0 n).tly.unlockAt + 100000) ∧
    (let s := { live with clk := { live.clk with ref := 6000000000 } }
     s.pd1 = true ∧ s.tly.flushes < s.clk.ref / 6000000000 ∧ s.tly.secs < s.clk.ref / 100000000) ∧
    live.served = true ∧
    (0 ≤ live.tly.thrHeld.getD (Store.get 0 live.tly.thr 0 % 4294967296) ∧ (0#32).toNat * 4294967296 ≤ live.tally 0) := by
  unfold State.mayAct
  decide +kernel

/-- A record of page `page`. -/
def recOf (page : Nat) : RecEv :=
  { code := 0x400, page := page, sub := 0, p0 := 0, p1 := 0, p2 := 0, ns := 0, wrap := 0, late := false, at_ := 0 }

/-- The recorder is ready with one record in its queue and two raised, its tokens full; `full` records were lost. -/
def recording (full : Nat) : State :=
  let s := liveWith [(pgREC, REC.PEND, 1)]
  { s with
    recd := { s.recd with ready := true, raised := [recOf 3, recOf 1], queue := [{ ev := recOf 2 }], fullCount := full, held := 1
                          nextSeq := 1 } }

/-- Code 0xFFF has suppressed records, a rate and a full bucket. -/
def suppressing : State := ((live.put pgREC REC.CODE_STAT.SUPP 1 4095).put pgREC REC.CODE_CFG.RATE 1 4095).put pgREC
  REC.CODE_CFG.BURST 2 4095

theorem witness_RecorderCommands :
    (State.nextRaised (recording 0).recd.raised = some (recOf 1, [recOf 3]) ∧
      (let u := { recording 0 with recd := { (recording 0).recd with raised := [recOf 3] } }
       u.queueFull = false ∧ u.hasTokens (recOf 1).code = true)) ∧
    (∀ n ∈ [0, 1], (recording n).recd.ready = true ∧ (recording n).recd.queue = [{ ev := recOf 2 }] ∧
      (recording n).recd.fullCount = n) ∧
    (suppressing.get pgREC REC.CODE_STAT.SUPP 4095 ≠ 0 ∧ suppressing.get pgREC REC.CODE_CFG.RATE 4095 ≠ 0 ∧
      suppressing.get pgREC REC.CODE_CFG.BURST 4095 * token ≤ suppressing.codeBucket 4095 ∧ suppressing.queueFull = false) ∧
    (live.mayAct pgREC 0 ∧ (0x3FF#12).toNat < 0x400 ∧ 0x400 ≤ (0x400#12).toNat ∧ live.queueFull = false ∧
      live.hasTokens 0x400 = true) ∧
    ((recording 0).mayAct pgREC 0 ∧ (1#2).toNat ≤ (recording 0).get pgREC REC.PEND ∧ (recording 0).get pgREC REC.PEND < (2#2).toNat) ∧
    (live.served = true ∧ (liveWith [(pgRCUR 3, RCUR.WIN_STATUS.VALID, 1)]).served = true ∧
      (liveWith [(pgRCUR 3, RCUR.WIN_STATUS.VALID, 1)]).on (pgRCUR 3) RCUR.WIN_STATUS.VALID = true ∧ (2 : Fin 4) ≠ 3) ∧
    ((recording 0).mayAct (pgRCUR 3) 0 ∧ (recording 0).seqHeld ((recording 0).get (pgRCUR 3) RCUR.SEEK_SEQ) = true ∧
      live.mayAct (pgRCUR 3) 0 ∧ live.seqHeld (live.get (pgRCUR 3) RCUR.SEEK_SEQ) = false) := by
  unfold State.mayAct
  decide +kernel

/-- A region update of two commons, waiting or in drive for 400 µs. -/
def drawing (busy : Bool) : State :=
  let j : PanelJob := { kind := 1, rows := [(0, 5), (1, 6)], total := 2 }
  { live with clk := { live.clk with ref := 40000 }
              pnl := { live.pnl with job := if busy then some j else none, updates := if busy then [] else [j]
                                     marker := if busy then some (0, 0, 1) else none } }

/-- In Stop; indicator 11 shows full blue by its CFG. -/
def lit : State := { liveWith [(pgIND, IND.CFG.SRC 11, 1), (pgIND, IND.CFG.B 11, 255), (pgIND, IND.GAMMA_B.CODE 63, 1023)] with
  boot := { live.boot with reachedStop := true } }

theorem witness_PanelCommands :
    (live.mayAct pgPNL 0 ∧ (liveWith [(pgPNL, PNL.REGION.EN 7, 1)]).mayAct pgPNL 0 ∧
      (liveWith [(pgPNL, PNL.REGION.EN 7, 1)]).on pgPNL (PNL.REGION.EN 7) = true ∧ live.pnl.tempOut = false) ∧
    ((drawing false).pnl.job = none ∧ (drawing false).pnl.updates = [{ kind := 1, rows := [(0, 5), (1, 6)], total := 2 }] ∧
      (drawing false).pd1 = true ∧ (drawing false).pnl.tempOut = false ∧
      (drawing false).gapPassed { kind := 1, rows := [(0, 5), (1, 6)], total := 2 } = true) ∧
    ((drawing true).pnl.job = some { kind := 1, rows := [(0, 5), (1, 6)], total := 2 } ∧ (drawing true).pnl.marker = some (0, 0, 1) ∧
      (drawing true).pnl.driveAt + 40000 ≤ (drawing true).clk.ref ∧
      (drawing true).pnl.stopAfter = false ∧ 1 < [((0 : Nat), (5 : Nat)), (1, 6)].length) ∧
    (live.pd1 = true ∧ (live.put pgPNL PNL.TEMP.T 0).pnl.tempOut = false ∧ 680 < (681#16).toInt ∧
      (BitVec.ofInt 16 (-241)).toInt < -240 ∧ -240 ≤ (BitVec.ofInt 16 (-240)).toInt ∧ (680#16).toInt ≤ 680) ∧
    (lit.pd1 = true ∧ 50 ≤ lit.emitterDriven 11 2 ∧ 1 ≤ lit.emitterDriven 11 2) := by
  unfold State.mayAct
  decide +kernel

/-- The calendar's set group is committed with 2199-12-31; the alarm and the wake time are armed and reached. -/
def dated : State :=
  let s := liveWith [(pgCAL, HDR.COMMIT.PENDING, 1), (pgCAL, CAL.ALARM_TIME.EN, 1), (pgCAL, CAL.WAKE.EN, 1)]
  { s with cal := { s.cal with gSet := true, alarmAt := true, wakeAt := true }
           buf := [(regKey pgCAL 0x050 0, BitVec.ofNat 32 (2199 * 2 ^ 16 + 12 * 2 ^ 8 + 31))] }

theorem witness_CalendarCommands :
    live.served = true ∧ live.on pgCAL HDR.COMMIT.PENDING = false ∧
    (dated.on pgCAL HDR.COMMIT.PENDING = true ∧ dated.cal.gSet = true ∧ dated.cal.gAlarm = false ∧ dated.cal.gWake = false ∧
      dateReason (dated.calBuf 0x050) = 0 ∧ timeReason (dated.calBuf 0x054) = 0) ∧
    (dated.boot.pd0 = true ∧ dated.alarmDue = true ∧ dated.wakeDue = true ∧ dated.boot.supplyValid = false) ∧
    ({ live with cal := { live.cal with now := lastInstant } } : State).cal.now.last = true := by decide +kernel

theorem witness_EmptyQueueTicks :
    State.reset.pending = [] ∧ State.reset.boot.pd0 = false ∧ State.reset.pd1 = false := by decide

theorem witness_ResetState : populated (0x1F9#9).toNat = true ∧ populated (0#9).toNat = true := by decide

theorem witness_StepKeepsInvariant :
    ({ live with pending := [.identifyEnd] } : State).Inv ∧ ∃ t, step { live with pending := [.identifyEnd] } = .next t :=
  ⟨⟨by decide, by decide, by decide, by decide, by decide, by decide, by decide, fun _ => Nat.two_pow_pos 64, fun _ => Nat.two_pow_pos 96⟩, _, rfl⟩

theorem witness_CommandFrame :
    (∃ t, exec (.flashOperationDone 0 false) { flashing 3 0 with flash := [(0, 5)] } = .next t ∧ t.flash ≠ [(0, 5)]) ∧
    ∃ t, exec .yearWrap { live with cal := { live.cal with now := lastInstant } } = .next t ∧ t.cal.now ≠ lastInstant :=
  ⟨⟨_, rfl, by decide +kernel⟩, _, rfl, by decide +kernel⟩

theorem witness_RefusedWrites :
    (live.servedTo 3 = true ∧ live.servedTo 1 = true ∧ actionAccess (.hartTake 3 15) = some (pgANA 15, 0x0A4, 3) ∧
      live.owner (pgANA 15) ≠ 3 ∧ actionAccess (.run 3 0x1F9) = some (0x1F9, 0x00C, 3)) ∧
    (live.owner pgPAIR ≠ 1 ∧ live.owner pgREC ≠ 1 ∧ live.owner pgFLT ≠ 1) ∧
    (populated (0x1F9#9).toNat = true ∧ live.owner (0x1F9#9).toNat ≠ 1 ∧ (1 : Fin 4).val ≠ 0 ∧ pgANA 15 < 512) ∧
    ((pgANA 14, 0x010, 0) : Nat × Nat × Nat) ≠ (pgANA 15, 0x010, 0) := by decide

/-- The firmware runs with every power domain in state `d`, 0 off or 3 failed. -/
def powered (d : Nat) : State := { live with regs := [(regKey pgPWR PWR.DOM_STATE.STATE.off 0, BitVec.ofNat 32 (d * 0x555555))] }

theorem witness_SwitchedOffBlocks :
    (powered 0).dom (domainOf 0x1F9) = 0 ∧ (powered 3).dom (domainOf 0x1F9) = 3 ∧
    (∀ d ∈ [0, 3], (powered d).servedTo 0 = true ∧ actionAccess (.hartTake 0 15) = some (pgANA 15, 0x0A4, 0) ∧
      (powered d).owner (pgANA 15) = 0 ∧ 0x040 ≤ 0x0A4 ∧ (powered d).pageOn (pgANA 15) = false ∧
      (powered d).owner (0x1F9#9).toNat = 0 ∧
      ((powered d).pageTouch (0x1F9#9).toNat 0x018).pageOn (0x1F9#9).toNat = false) ∧ populated (0x1F9#9).toNat = true := by
  decide

theorem witness_FieldReadBack :
    (0x1FF < 512 ∧ (⟨0xFFC, 31, 31⟩ : Fld).off < 4096 ∧ (⟨0xFFC, 31, 31⟩ : Fld).lo ≤ (⟨0xFFC, 31, 31⟩ : Fld).hi ∧
      (⟨0xFFC, 31, 31⟩ : Fld).hi < 32) ∧
    ((⟨0xFFC, 30, 0⟩ : Fld).off = (⟨0xFFC, 31, 31⟩ : Fld).off ∧ (⟨0xFFC, 30, 0⟩ : Fld).hi < (⟨0xFFC, 31, 31⟩ : Fld).lo) ∧
    ((0x1FF, 0xFFC, 1) : Nat × Nat × Nat) ≠ (0x1FF, 0xFFC, 0) := by decide

theorem witness_FaultBits :
    (0x1F9 < 512 ∧ bitOf ((liveWith [(0x1F9, ⟨0x014, 31, 0⟩, 2 ^ 16)]).reg 0x1F9 0x014).toNat 31 = false) ∧
    (let s := liveWith [(0x1F9, ⟨0x014, 31, 0⟩, 2 ^ 16)]
     bitOf (s.reg 0x1F9 0x014).toNat 16 = true ∧ s.pd1 = true ∧ faultKey 0x1F9 16 ∉ s.flt.held ∧ faultKey 0x1F9 16 ∉ s.flt.edges ∧
      (srcNum 0x1F9 16).isSome = true) ∧
    faultKey 0x1F9 31 ∈ ({ live with flt := { live.flt with held := [faultKey 0x1F9 31] } } : State).flt.held ∧
    faultKey 0x1F9 0 ∈ ({ live with flt := { live.flt with edges := [faultKey 0x1F9 0] } } : State).flt.edges := by decide

theorem witness_RecordsAndTallies :
    State.tallyOfCode 0x024 = none ∧ State.tallyOfCode 0x002 = some 12 ∧ ([7, 8, 9] : List Nat)[2]? = some 9 ∧
    (120 ≤ 127 ∧ 127 ≤ 127) := by decide

/-- Source 1023 is routed to pair 0, where `n` events wait. -/
def routed (n : Nat) (moving : List Nat) : State :=
  { live.put pgEVD EVD.ROUTE_DATA.EN 1 1023 with evd := { live.evd with queue := List.replicate n ⟨0, 1, 0, 0, 0, false⟩, moving := moving } }

theorem witness_EventQueue :
    live.on pgEVD EVD.ROUTE_DATA.EN 1023 = false ∧
    ((routed 0 [1023]).on pgEVD EVD.ROUTE_DATA.EN 1023 = true ∧ 1023 ∈ (routed 0 [1023]).evd.moving) ∧
    (∀ n ∈ [255, 256], (routed n []).on pgEVD EVD.ROUTE_DATA.EN 1023 = true ∧ 1023 ∉ (routed n []).evd.moving ∧
      (routed n []).evDepth ((routed n []).get pgEVD EVD.ROUTE_DATA.PAIR 1023) = n) ∧
    (live.served = true ∧ live.pairLives 3 = true ∧ ∀ x ∈ live.evd.queue, x.pair = 3 → live.sourceIdle x.src = true) ∧
    (let s := { live with evd := { live.evd with queue := [⟨3, 5, 14, 7, 4, false⟩, ⟨3, 1023, 15, 7, 5, false⟩, ⟨3, 6, 15, 7, 6, false⟩] } }
     s.served = true ∧ s.pairLives 3 = true ∧ s.sourceIdle 1023 = false ∧ s.sourceIdle 5 = false ∧
      s.evd.queue = [⟨3, 5, 14, 7, 4, false⟩] ++ (⟨3, 1023, 15, 7, 5, false⟩ : EvEntry) :: [⟨3, 6, 15, 7, 6, false⟩]) := by
  decide +kernel

theorem witness_CommitRoundTrip :
    (pgSEQ < 512 ∧ live.pageOn pgSEQ = true ∧ live.on pgSEQ HDR.COMMIT.PENDING = false ∧ pgSEQ ≠ pgLPE ∧ pgSEQ ≠ pgANG ∧
      stagedMask pgSEQ (SEQ.PERIOD.TICKS 31).off ≠ 0 ∧ (SEQ.PERIOD.TICKS 31).off ≠ 0x018) ∧
    ((liveWith [(pgSEQ, HDR.COMMIT.PENDING, 1)]).pageOn pgSEQ = true ∧
      (liveWith [(pgSEQ, HDR.COMMIT.PENDING, 1)]).on pgSEQ HDR.COMMIT.PENDING = true) := by decide

theorem witness_MemoryLaws :
    Memory.wf [(0, 1), (5, 255)] = true ∧ (∀ x ∈ [0, 6], x < 1 ∨ 1 + 4 ≤ x) := by decide

theorem witness_ThresholdWarning :
    (∀ i ∈ [0, 119, 128, 255], i < 256 ∧ ¬ (120 ≤ i ∧ i ≤ 127) ∧ Store.get 0 (counting i 0).tly.thr i ≠ 0 ∧
      Store.get 0 (counting i 0).tly.thr i ≤ min 1 18446744073709551615 ∧
      bitOf ((counting i 0).get pgTLY (TLY.WARN (i / 32))) (i % 32) = false ∧ min 0 18446744073709551615 < Store.get 0 (counting i 0).tly.thr i ∧
      (counting i 0).mayAct pgTLY 0 ∧ (counting i 0).get pgTLY TLY.INDEX.COUNTER = i ∧ (counting i 0).tally i < 1 ∧
      (counting i 0).tly.thrHeld.getD (Store.get 0 (counting i 0).tly.thr i % 4294967296) = 1) ∧
    (counting 114 0).tally 114 + 1 < (1#32).toNat * 4294967296 := by
  unfold State.mayAct
  decide

theorem witness_YearWrap :
    ({ live with cal := { live.cal with now := lastInstant } } : State).cal.now.last = true ∧
    ({ live with cal := { live.cal with now := lastInstant } } : State).boot.pd0 = true ∧
    ({ live with cal := { live.cal with now := lastInstant } } : State).pd1 = true := by decide

/-! ### Single commands and functions against values that the spec states -/

/-- What a command answers, read by `f`. -/
def after (c : Instr) (s : State) (f : State → Nat) : Option Nat :=
  match exec c s with
  | .next t => some (f t)
  | .fault .. => none
  | .refused .. => none

/-- The two codes of the example after R23: carrier 3, slot A and slot B. -/
theorem test_slot_identity :
    after (.slotIdPoll 0x2C) live (fun t => t.get pgSUP SUP.SLOT_ID.CARRIER * 4 + t.get pgSUP SUP.SLOT_ID.POSITION) = some 12 ∧
    after (.slotIdPoll 0x0D) live (fun t => t.get pgSUP SUP.SLOT_ID.CARRIER * 4 + t.get pgSUP SUP.SLOT_ID.POSITION) = some 13 := by
  decide +kernel

/-- The example of the calendar: 2030-02-29 is refused with P2 = 2, and 12:00:03 is a time. -/
theorem test_calendar_example : dateReason 0x07EE021D = 2 ∧ timeReason 0x000C0003 = 0 := by decide

/-- The example under R368: the square root of 0.5 is 0x3F3504F3. -/
theorem test_square_root : F32.sqrt 0x3F000000#32 = 0x3F3504F3#32 := by decide +kernel

/-- R73: a write of RUN by master 2 on a page of master 0 sets OWNER_REFUSED and records code 0x020 with offset, writer and owner. -/
theorem test_owner_refused :
    after (.run 2 0x018) live (fun t => (t.reg 0x018 0x010).toNat % 4) = some 2 ∧
    after (.run 2 0x018) live (fun t => (t.recd.raised.map (fun r => (r.code, r.page, r.p0, r.p1, r.p2)) ==
      [(0x020, 0x018, 0x00C, 2, 0)]).toNat) = some 1 := by decide +kernel

/-- The example after R271: a receive stamp of 20,000 ns seen from 4,293,837,328 lies 1,149,968 ns later. -/
theorem test_stamp_distance : unsigned 32 ((20000 : Int) - 4293837328) = 1149968 := by decide

/-- A command in front of the queue runs, and the rest of the queue stays. -/
theorem test_step_takes_front : step { live with pending := [.identifyEnd, .dip] } =
    exec .identifyEnd { live with pending := [.dip] } := rfl

end Sys2Proof.Tests
end

/-! The registers of the machine after reset, and what a field write changes. -/

namespace Sys2Proof.Proofs
open Sys2Proof.Machine

/-! ### The state after reset -/

@[simp] theorem reg_reset (page off idx : Nat) : State.reset.reg page off idx = resetWord page off idx := rfl

@[simp] theorem shadow_reset (page off idx : Nat) : State.reset.shadow page off idx = resetWord page off idx := rfl

/-- DOM_STATE's two bits of each domain read 0, which is off (R32). -/
theorem dom_reset (d : Nat) : State.reset.dom d = 0 := by
  have states : State.reset.get pgPWR PWR.DOM_STATE.STATE = 0 := by decide
  simp [State.dom, states, bits]

theorem st_reset (page : Nat) : State.reset.st page = 0 := by
  simp [State.st, dom_reset]

theorem pageOn_reset (page : Nat) : State.reset.pageOn page = false := by
  simp [State.pageOn, dom_reset]

/-- No kind of block gives OWNER a reset value other than 0 (R65, R75). -/
theorem ownerFields_reset (k : Kind) : ((rowsAt k HDR.OWNER.off).map fun r => r.reset * 2 ^ r.lo).foldl (· + ·) 0 = 0 := by
  cases k <;> rfl

/-- The words that `resetWord` adds to the Reset column, for some kinds of block, all lie outside OWNER. -/
theorem resetWord_owner (page : Nat) : resetWord page HDR.OWNER.off 0 = 0 := by
  unfold resetWord
  split
  case h_1 => rfl
  case h_2 k i _ =>
    rw [ownerFields_reset k]
    cases k <;> rfl

theorem owner_reset (page : Nat) : State.reset.owner page = 0 := by
  simp [State.owner, State.get, resetWord_owner, bits]

/-- Settles O3: an unlisted register reads its reset word, and from PWR's and OWNER's reset words every domain is off and
local firmware owns every page. -/
theorem resetState : Obligations.ResetState :=
  ⟨fun page off idx => ⟨reg_reset page off idx, shadow_reset page off idx⟩,
    fun page => ⟨st_reset page, pageOn_reset page⟩, fun page _ => owner_reset page.toNat,
    rfl, rfl, rfl, rfl, rfl, rfl, rfl, rfl, rfl, rfl, rfl⟩

/-! ### A field write -/

/-- A window's other indices are other registers, beside those `State.reg_put_ne` speaks of. -/
theorem reg_put_of_ne (s : State) {page p o i v idx : Nat} {f : Fld} (hq : page < 512) (hf : f.off < 4096) (hp : p < 512)
    (ho : o < 4096) (h : (p, o, i) ≠ (page, f.off, idx)) : (s.put page f v idx).reg p o i = s.reg p o i :=
  State.reg_setReg_ne s _ (regKey_ne hp ho hq hf fun ⟨e₁, e₂, e₃⟩ => h (by rw [e₁, e₂, e₃]))

theorem shadow_put (s : State) (page : Nat) (f : Fld) (v idx p o i : Nat) :
    (s.put page f v idx).shadow p o i = s.shadow p o i := by
  simp [State.shadow]

/-- Settles O10: the rules of a read after a field write, for the same field, another field of the register, another
register, and a shadow. -/
theorem fieldReadBack : Obligations.FieldReadBack := by
  intro s page f v idx hpage hoff hle hhi
  refine ⟨State.get_put_same s page f v idx hle hhi, ?_, ?_, shadow_put s page f v idx⟩
  · intro g sameReg hg disjoint
    exact State.get_put_field s page f g v idx hle hhi hg sameReg disjoint
  · intro p o i hp ho other
    exact reg_put_of_ne s hpage hoff hp ho other

end Sys2Proof.Proofs

/-! What a command leaves as it was: the frame of every command, put together from the lemmas of their meanings. -/

namespace Sys2Proof.Proofs
open Sys2Proof.Machine

/-- A command keeps the invariants and every part but its own, by the lemma of its meaning. -/
theorem exec_kept {W : Part → Bool} {p s : State} (c : Instr) (h : Kept W p s) (hf : Frees W (commandParts c)) :
    OutKept W p (exec c s) := by
  cases c with
  | supplyValid => exact execSupplyValid_kept _ _ s h hf
  | pd1Start => exact execPd1Start_kept _ s h hf
  | slotIdPoll => exact execSlotIdPoll_kept _ s h hf
  | slotIdDeadline => exact execSlotIdDeadline_kept _ s h hf
  | slotIdSample => exact execSlotIdSample_kept _ s h hf
  | fwSlotVerify => exact execFwSlotVerify_kept _ _ s h hf
  | domainStart => exact execDomainStart_kept _ s h hf
  | domainStartFault => exact execDomainStartFault_kept _ s h hf
  | domainRetry => exact execDomainRetry_kept _ s h hf
  | powerGoodLost => exact execPowerGoodLost_kept _ s h hf
  | domOff => exact execDomOff_kept _ _ s h hf
  | domOn => exact execDomOn_kept _ _ _ s h hf
  | supplyInputLost => exact execSupplyInputLost_kept _ _ s h hf
  | supplyInputRestored => exact execSupplyInputRestored_kept _ _ s h hf
  | lowInput => exact execLowInput_kept _ s h hf
  | restartAfterHoldup => exact execRestartAfterHoldup_kept _ s h hf
  | holdupMeasure => exact execHoldupMeasure_kept _ s h hf
  | holdupTest => exact execHoldupTest_kept _ s h hf
  | cellMeasure => exact execCellMeasure_kept _ s h hf
  | imageVerify => exact execImageVerify_kept _ _ s h hf
  | stopReached => exact execStopReached_kept _ s h hf
  | tempWarn => exact execTempWarn_kept _ s h hf
  | overTemperatureShutdown => exact execOverTemperatureShutdown_kept _ s h hf
  | overTemperatureRestart => exact execOverTemperatureRestart_kept _ s h hf
  | restart => exact execRestart_kept _ s h hf
  | shutdown => exact execShutdown_kept _ s h hf
  | shutdownTail => exact execShutdownTail_kept _ s h hf
  | identify => exact execIdentify_kept _ s h hf
  | recorderClear => exact execRecorderClear_kept _ s h hf
  | keyEnrol => exact execKeyEnrol_kept _ _ s h hf
  | keyRevoke => exact execKeyRevoke_kept _ _ s h hf
  | fwSlotPrefer => exact execFwSlotPrefer_kept _ _ s h hf
  | fwLoad => exact execFwLoad_kept _ _ s h hf
  | fwLoadComplete => exact execFwLoadComplete_kept _ _ s h hf
  | imageLoad => exact execImageLoad_kept _ _ s h hf
  | imageLoadComplete => exact execImageLoadComplete_kept _ _ _ s h hf
  | unlock => exact execUnlock_kept _ _ s h hf
  | flashRead => exact execFlashRead_kept _ s h hf
  | flashWrite => exact execFlashWrite_kept _ s h hf
  | flashErase => exact execFlashErase_kept _ s h hf
  | flashOperationDone => exact execFlashOperationDone_kept _ _ s h hf
  | clockFault => exact execClockFault_kept _ s h hf
  | refDrift => exact execRefDrift_kept _ s h hf
  | registerWrite => exact execRegisterWrite_kept _ _ _ s h hf
  | commitGo => exact execCommitGo_kept _ _ s h hf
  | discard => exact execDiscard_kept _ _ s h hf
  | commitApply => exact execCommitApply_kept _ _ s h hf
  | ownerWrite => exact execOwnerWrite_kept _ _ _ s h hf
  | faultEnWrite => exact execFaultEnWrite_kept _ _ _ s h hf
  | faultClear => exact execFaultClear_kept _ _ _ s h hf
  | run => exact execRun_kept _ _ s h hf
  | runClear => exact execRunClear_kept _ _ s h hf
  | hold => exact execHold_kept _ _ s h hf
  | holdClear => exact execHoldClear_kept _ _ s h hf
  | corePairAccess => exact execCorePairAccess_kept _ _ _ _ _ _ _ _ _ s h hf
  | lockstepMismatch => exact execLockstepMismatch_kept _ _ s h hf
  | lockstepSelftest => exact execLockstepSelftest_kept _ _ s h hf
  | corePairRunOff => exact execCorePairRunOff_kept _ _ s h hf
  | corePairRunOn => exact execCorePairRunOn_kept _ _ s h hf
  | eventTake => exact execEventTake_kept _ s h hf
  | taskFreeze => exact execTaskFreeze_kept _ s h hf
  | taskExecutionEnd => exact execTaskExecutionEnd_kept _ _ _ _ s h hf
  | taskPublish => exact execTaskPublish_kept _ _ s h hf
  | taskApply => exact execTaskApply_kept _ s h hf
  | seqRun => exact execSeqRun_kept _ s h hf
  | seqStop => exact execSeqStop_kept _ s h hf
  | seqHold => exact execSeqHold_kept _ s h hf
  | seqRelease => exact execSeqRelease_kept _ s h hf
  | holdMask => exact execHoldMask_kept _ _ s h hf
  | step => exact execStep_kept _ _ s h hf
  | ton => exact execTon_kept _ _ _ _ s h hf
  | tof => exact execTof_kept _ _ _ _ s h hf
  | tp => exact execTp_kept _ _ _ _ s h hf
  | ctu => exact execCtu_kept _ _ _ _ _ s h hf
  | ctd => exact execCtd_kept _ _ _ _ _ s h hf
  | ctud => exact execCtud_kept _ _ _ _ _ _ _ s h hf
  | rTrig => exact execRTrig_kept _ _ _ s h hf
  | fTrig => exact execFTrig_kept _ _ _ s h hf
  | fast => exact execFast_kept _ _ _ s h hf
  | fastEdge => exact execFastEdge_kept _ _ s h hf
  | prepare => exact execPrepare_kept _ s h hf
  | exchangePrepared => exact execExchangePrepared_kept _ _ s h hf
  | apply => exact execApply_kept _ _ s h hf
  | exchangeWindow => exact execExchangeWindow_kept _ s h hf
  | cancel => exact execCancel_kept _ s h hf
  | replace => exact execReplace_kept _ s h hf
  | abandonMoves => exact execAbandonMoves_kept _ s h hf
  | placementRunFence => exact execPlacementRunFence_kept _ _ s h hf
  | tier0FillDone => exact execTier0FillDone_kept _ s h hf
  | directoryWrite => exact execDirectoryWrite_kept _ _ _ s h hf
  | force => exact execForce_kept _ s h hf
  | forceRelease => exact execForceRelease_kept _ s h hf
  | lpeRunOn => exact execLpeRunOn_kept _ s h hf
  | lpeRunOff => exact execLpeRunOff_kept _ s h hf
  | loopSample => exact execLoopSample_kept _ _ s h hf
  | slotCommitTimeout => exact execSlotCommitTimeout_kept _ s h hf
  | loopOutputWrite => exact execLoopOutputWrite_kept _ _ _ s h hf
  | loopRecordWrite => exact execLoopRecordWrite_kept _ _ _ _ s h hf
  | foldSample => exact execFoldSample_kept _ _ _ s h hf
  | traceArm => exact execTraceArm_kept _ _ s h hf
  | armAll => exact execArmAll_kept _ _ s h hf
  | traceForce => exact execTraceForce_kept _ _ s h hf
  | traceStop => exact execTraceStop_kept _ _ s h hf
  | encoderCount => exact execEncoderCount_kept _ _ _ s h hf
  | wire => exact execWire_kept _ _ s h hf
  | standstill => exact execStandstill_kept _ s h hf
  | mainsCrossing => exact execMainsCrossing_kept _ _ _ _ _ _ s h hf
  | mainsSignalLost => exact execMainsSignalLost_kept _ s h hf
  | angleRead => exact execAngleRead_kept _ s h hf
  | slotArm => exact execSlotArm_kept _ s h hf
  | slotDisarm => exact execSlotDisarm_kept _ s h hf
  | actionIssue => exact execActionIssue_kept _ _ s h hf
  | moveAbs => exact execMoveAbs_kept _ s h hf
  | moveRel => exact execMoveRel_kept _ s h hf
  | velocity => exact execVelocity_kept _ s h hf
  | axisStop => exact execAxisStop_kept _ s h hf
  | quickStop => exact execQuickStop_kept _ s h hf
  | home => exact execHome_kept _ s h hf
  | gearIn => exact execGearIn_kept _ s h hf
  | gearOut => exact execGearOut_kept _ s h hf
  | moveDone => exact execMoveDone_kept _ s h hf
  | gearRatioApplied => exact execGearRatioApplied_kept _ s h hf
  | gearLag => exact execGearLag_kept _ s h hf
  | gearSrc => exact execGearSrc_kept _ s h hf
  | switchQualified => exact execSwitchQualified_kept _ _ _ _ s h hf
  | homingComplete => exact execHomingComplete_kept _ s h hf
  | chatter => exact execChatter_kept _ _ _ s h hf
  | vmotMissing => exact execVmotMissing_kept _ s h hf
  | vmotLow => exact execVmotLow_kept _ s h hf
  | vmotOver => exact execVmotOver_kept _ s h hf
  | vmotRestored => exact execVmotRestored_kept _ s h hf
  | overcurrent => exact execOvercurrent_kept _ _ s h hf
  | openCoil => exact execOpenCoil_kept _ _ s h hf
  | thermalWarning => exact execThermalWarning_kept _ _ _ s h hf
  | thermalShutdown => exact execThermalShutdown_kept _ _ _ s h hf
  | holdDelay => exact execHoldDelay_kept _ s h hf
  | ptpTimestamp => exact execPtpTimestamp_kept _ _ _ _ _ s h hf
  | syncAccepted => exact execSyncAccepted_kept _ _ _ _ s h hf
  | domainLost => exact execDomainLost_kept _ s h hf
  | firstStn => exact execFirstStn_kept _ s h hf
  | firstStp => exact execFirstStp_kept _ s h hf
  | stepStn => exact execStepStn_kept _ s h hf
  | stepStp => exact execStepStp_kept _ s h hf
  | stepBoth => exact execStepBoth_kept _ s h hf
  | stnAdj => exact execStnAdj_kept _ _ s h hf
  | stnInc => exact execStnInc_kept _ _ s h hf
  | domOfs => exact execDomOfs_kept _ _ _ s h hf
  | stnDom => exact execStnDom_kept _ _ s h hf
  | stpSwitch => exact execStpSwitch_kept _ s h hf
  | frameLaunch => exact execFrameLaunch_kept _ _ s h hf
  | announceReturn => exact execAnnounceReturn_kept _ _ s h hf
  | join => exact execJoin_kept _ s h hf
  | accept => exact execAccept_kept _ s h hf
  | offerLapse => exact execOfferLapse_kept _ s h hf
  | cycleIn => exact execCycleIn_kept _ s h hf
  | evaluateStations => exact execEvaluateStations_kept _ s h hf
  | stnReadmit => exact execStnReadmit_kept _ _ s h hf
  | stnLeave => exact execStnLeave_kept _ _ s h hf
  | rejoin => exact execRejoin_kept _ s h hf
  | leave => exact execLeave_kept _ s h hf
  | linkChange => exact execLinkChange_kept _ _ s h hf
  | txqTail => exact execTxqTail_kept _ _ _ s h hf
  | txWriteBack => exact execTxWriteBack_kept _ s h hf
  | frameReceive => exact execFrameReceive_kept _ _ _ s h hf
  | rxqTail => exact execRxqTail_kept _ _ _ s h hf
  | lanLost => exact execLanLost_kept _ s h hf
  | txSubmit => exact execTxSubmit_kept _ _ _ _ s h hf
  | txAbort => exact execTxAbort_kept _ _ _ s h hf
  | txDone => exact execTxDone_kept _ _ _ s h hf
  | canTxComplete => exact execCanTxComplete_kept _ _ s h hf
  | canReceive => exact execCanReceive_kept _ _ _ _ _ _ _ _ s h hf
  | rxAck => exact execRxAck_kept _ _ _ s h hf
  | canBusError => exact execCanBusError_kept _ _ _ _ _ s h hf
  | recover => exact execRecover_kept _ _ s h hf
  | recoveryDone => exact execRecoveryDone_kept _ s h hf
  | startAbr => exact execStartAbr_kept _ _ s h hf
  | abrFail => exact execAbrFail_kept _ s h hf
  | dioLevelAccepted => exact execDioLevelAccepted_kept _ _ _ s h hf
  | overload => exact execOverload_kept _ _ s h hf
  | dioThermal => exact execDioThermal_kept _ s h hf
  | dioRestart => exact execDioRestart_kept _ _ _ s h hf
  | testPulse => exact execTestPulse_kept _ _ s h hf
  | openLoad => exact execOpenLoad_kept _ _ s h hf
  | readback => exact execReadback_kept _ s h hf
  | fsMissing => exact execFsMissing_kept _ _ s h hf
  | fsLow => exact execFsLow_kept _ _ s h hf
  | fsRestored => exact execFsRestored_kept _ _ s h hf
  | analogueConversion => exact execAnalogueConversion_kept _ _ _ s h hf
  | analogueReadback => exact execAnalogueReadback_kept _ _ s h hf
  | noLoop => exact execNoLoop_kept _ _ s h hf
  | islandThermal => exact execIslandThermal_kept _ s h hf
  | anaRestart => exact execAnaRestart_kept _ _ s h hf
  | miswire => exact execMiswire_kept _ _ s h hf
  | miswireRetest => exact execMiswireRetest_kept _ _ _ s h hf
  | island => exact execIsland_kept _ _ s h hf
  | hartSend => exact execHartSend_kept _ _ s h hf
  | hartAbort => exact execHartAbort_kept _ _ s h hf
  | hartTake => exact execHartTake_kept _ _ s h hf
  | hartTransactionEnd => exact execHartTransactionEnd_kept _ _ _ _ s h hf
  | hartBurst => exact execHartBurst_kept _ _ s h hf
  | heartbeat => exact execHeartbeat_kept _ _ _ s h hf
  | laneChange => exact execLaneChange_kept _ _ s h hf
  | pairing => exact execPairing_kept _ _ _ s h hf
  | commit => exact execCommit_kept _ _ s h hf
  | copyFrame => exact execCopyFrame_kept _ _ s h hf
  | loop => exact execLoop_kept _ _ s h hf
  | handover => exact execHandover_kept _ _ s h hf
  | request => exact execRequest_kept _ _ s h hf
  | response => exact execResponse_kept _ _ s h hf
  | partnerDutyReleased => exact execPartnerDutyReleased_kept _ s h hf
  | takeIn => exact execTakeIn_kept _ s h hf
  | switch => exact execSwitch_kept _ s h hf
  | resync => exact execResync_kept _ s h hf
  | shadowCheck => exact execShadowCheck_kept _ _ s h hf
  | selftest => exact execSelftest_kept _ _ _ _ s h hf
  | faultSourceRise => exact execFaultSourceRise_kept _ s h hf
  | srcClear => exact execSrcClear_kept _ s h hf
  | readmitPage => exact execReadmitPage_kept _ _ s h hf
  | readmitTask => exact execReadmitTask_kept _ _ _ s h hf
  | feClear => exact execFeClear_kept _ s h hf
  | preset => exact execPreset_kept _ s h hf
  | add => exact execAdd_kept _ s h hf
  | flush => exact execFlush_kept _ s h hf
  | threshHi => exact execThreshHi_kept _ _ s h hf
  | tlyUnlock => exact execTlyUnlock_kept _ _ s h hf
  | recordWrite => exact execRecordWrite_kept _ s h hf
  | summaryRecord => exact execSummaryRecord_kept _ s h hf
  | logCmd => exact execLogCmd_kept _ _ _ s h hf
  | wrapAck => exact execWrapAck_kept _ _ s h hf
  | epoch => exact execEpoch_kept _ _ s h hf
  | winW0Read => exact execWinW0Read_kept _ _ s h hf
  | winW7Read => exact execWinW7Read_kept _ _ s h hf
  | seekOldest => exact execSeekOldest_kept _ _ s h hf
  | seekEnd => exact execSeekEnd_kept _ _ s h hf
  | seekSeq => exact execSeekSeq_kept _ _ s h hf
  | req => exact execReq_kept _ _ s h hf
  | commonDriveDone => exact execCommonDriveDone_kept _ _ s h hf
  | restCmdText => exact execRestCmdText_kept _ s h hf
  | restCmdBlank => exact execRestCmdBlank_kept _ s h hf
  | tempRange => exact execTempRange_kept _ s h hf
  | estimateExpired => exact execEstimateExpired_kept _ s h hf
  | farCleared => exact execFarCleared_kept _ s h hf
  | partnerLineTimeout => exact execPartnerLineTimeout_kept _ s h hf
  | edgeW1Read => exact execEdgeW1Read_kept _ s h hf
  | stnNsRead => exact execStnNsRead_kept _ s h hf
  | emitterFault => exact execEmitterFault_kept _ _ _ s h hf
  | islandLinkRestored => exact execIslandLinkRestored_kept _ s h hf
  | clockLockRestored => exact execClockLockRestored_kept _ s h hf
  | powerStageCooled => exact execPowerStageCooled_kept _ _ s h hf
  | islandReady => exact execIslandReady_kept _ _ s h hf
  | tallyTimeCount => exact execTallyTimeCount_kept _ s h hf
  | dip => exact execDip_kept s h hf
  | supplyLoss => exact execSupplyLoss_kept s h hf
  | holdupDomainsOff => exact execHoldupDomainsOff_kept s h hf
  | holdupRecorderTail => exact execHoldupRecorderTail_kept s h hf
  | holdupRestImage => exact execHoldupRestImage_kept s h hf
  | holdupCompletion => exact execHoldupCompletion_kept s h hf
  | supWatchdogExpiry => exact execSupWatchdogExpiry_kept s h hf
  | supUncorrectableError => exact execSupUncorrectableError_kept s h hf
  | identifyPress => exact execIdentifyPress_kept s h hf
  | maintenanceStart => exact execMaintenanceStart_kept s h hf
  | identifyRelease => exact execIdentifyRelease_kept s h hf
  | identifyEnd => exact execIdentifyEnd_kept s h hf
  | shutdownDomainOff => exact execShutdownDomainOff_kept s h hf
  | runEntry => exact execRunEntry_kept s h hf
  | autorun => exact execAutorun_kept s h hf
  | stopComplete => exact execStopComplete_kept s h hf
  | exchangeSearchTimeout => exact execExchangeSearchTimeout_kept s h hf
  | moveStalled => exact execMoveStalled_kept s h hf
  | forceTakeEffect => exact execForceTakeEffect_kept s h hf
  | syncRequest => exact execSyncRequest_kept s h hf
  | syncFreeze => exact execSyncFreeze_kept s h hf
  | syncClose => exact execSyncClose_kept s h hf
  | syncFeedback => exact execSyncFeedback_kept s h hf
  | syncPulseEnd => exact execSyncPulseEnd_kept s h hf
  | cbNoClose => exact execCbNoClose_kept s h hf
  | syncTmo => exact execSyncTmo_kept s h hf
  | stationTimeWrap => exact execStationTimeWrap_kept s h hf
  | stampTimeWrap => exact execStampTimeWrap_kept s h hf
  | tsW3Read => exact execTsW3Read_kept s h hf
  | residualCleared => exact execResidualCleared_kept s h hf
  | announce => exact execAnnounce_kept s h hf
  | claimWait => exact execClaimWait_kept s h hf
  | claimCheck => exact execClaimCheck_kept s h hf
  | heartbeatSend => exact execHeartbeatSend_kept s h hf
  | heartbeatLoss => exact execHeartbeatLoss_kept s h hf
  | pairingSend => exact execPairingSend_kept s h hf
  | loopSnapshot => exact execLoopSnapshot_kept s h hf
  | handInstant => exact execHandInstant_kept s h hf
  | handoverNoWindow => exact execHandoverNoWindow_kept s h hf
  | yieldOutRelease => exact execYieldOutRelease_kept s h hf
  | pairSyncTmo => exact execPairSyncTmo_kept s h hf
  | rotation => exact execRotation_kept s h hf
  | dateRead => exact execDateRead_kept s h hf
  | calCommitApply => exact execCalCommitApply_kept s h hf
  | alarmFire => exact execAlarmFire_kept s h hf
  | wake => exact execWake_kept s h hf
  | oscillatorStop => exact execOscillatorStop_kept s h hf
  | lbf => exact execLbf_kept s h hf
  | yearWrap => exact execYearWrap_kept s h hf
  | tallyFlush => exact execTallyFlush_kept s h hf
  | recordReceive => exact execRecordReceive_kept s h hf
  | regionUpdateStart => exact execRegionUpdateStart_kept s h hf
  | readyLost => exact execReadyLost_kept s h hf
  | valueLoRead => exact execValueLoRead_kept s h hf

/-- The parts that a list leaves out. -/
def outside (l : List Part) (q : Part) : Bool := !l.contains q

theorem outside_iff {l : List Part} {q : Part} : outside l q = true ↔ q ∉ l := by simp [outside]

theorem frees_outside (l : List Part) : Frees (outside l) l := fun q hq => by simp [outside, hq]

theorem kept_of_exec {c : Instr} {s t : State} (h : exec c s = .next t) : Kept (outside (commandParts c)) s t := by
  have keeps := exec_kept c (Kept.start (s := s)) (frees_outside _)
  rwa [h] at keeps

theorem exec_same {c : Instr} {s t : State} (h : exec c s = .next t) {q : Part} (hq : q ∉ commandParts c) : q.same s t :=
  (kept_of_exec h).pin q (outside_iff.2 hq)

theorem flash_mem_commandParts {c : Instr} (h : Part.flash ∈ commandParts c) :
    (∃ k f, c = .flashOperationDone k f) ∨ (∃ f r, c = .fwLoadComplete f r) ∨ ∃ f im k, c = .imageLoadComplete f im k := by
  have listed : (commandParts c).contains .flash = true := by simpa using h
  cases c with
  | flashOperationDone k f => exact .inl ⟨k, f, rfl⟩
  | fwLoadComplete f r => exact .inr (.inl ⟨f, r, rfl⟩)
  | imageLoadComplete f im k => exact .inr (.inr ⟨f, im, k, rfl⟩)
  | _ => exact absurd listed Bool.false_ne_true

theorem now_mem_commandParts {c : Instr} (h : Part.now ∈ commandParts c) :
    (∃ a b, c = .supplyValid a b) ∨ (∃ p u, c = .commitApply p u) ∨ c = .calCommitApply ∨ c = .yearWrap := by
  have listed : (commandParts c).contains .now = true := by simpa using h
  cases c with
  | supplyValid a b => exact .inl ⟨a, b, rfl⟩
  | commitApply p u => exact .inr (.inl ⟨p, u, rfl⟩)
  | calCommitApply => exact .inr (.inr (.inl rfl))
  | yearWrap => exact .inr (.inr (.inr rfl))
  | _ => exact absurd listed Bool.false_ne_true

/-- Settles O6: a command keeps the queue and every part that is not listed for it; flash is listed for three commands, the
calendar's instant for four. -/
theorem commandFrame : Obligations.CommandFrame := by
  refine ⟨fun c s t h => ⟨(kept_of_exec h).queue, fun q hq => exec_same h hq⟩, fun c s t h changed => ?_,
    fun c s t h changed => ?_⟩
  · exact flash_mem_commandParts (not_not.1 fun unlisted => changed (exec_same h unlisted))
  · exact now_mem_commandParts (not_not.1 fun unlisted => changed (exec_same h unlisted))

end Sys2Proof.Proofs

/-! The module from its supply to Stop and back: supplies, start, clocks and temperature, the sequences, IDENTIFY. -/

namespace Sys2Proof.Proofs
open Sys2Proof.Machine

/-! ### Supplies -/

/-- An input's voltage is no part of SUPPLY, where its OK bit stands. -/
theorem inputOk_put_vin (s : State) (b : Bool) (mv : Nat) :
    (s.put pgSUP (if b then SUP.VIN.VIN_B else SUP.VIN.VIN_A) mv).on pgSUP
      (if b then SUP.SUPPLY.SUPB_OK else SUP.SUPPLY.SUPA_OK) =
    s.on pgSUP (if b then SUP.SUPPLY.SUPB_OK else SUP.SUPPLY.SUPA_OK) :=
  State.on_put_ne s mv (by cases b <;> decide)

theorem holdupResult_of_short (s : State) {t : Nat} (short : t < 200) : s.holdupResult t =
    ((((s.put pgSUP SUP.HOLDUP.HOLDUP_T t).putB pgSUP SUP.SUPPLY.HOLDUP_OK false).cond pgSUP 19 true).setFault pgSUP
      19).raise pgSUP 0x00D 0 [t] := by
  have notEnough : decide (200 ≤ t) = false := by simpa using short
  simp [State.holdupResult, notEnough]

theorem holdupResult_of_long (s : State) {t : Nat} (long : 200 ≤ t) : s.holdupResult t =
    ((s.put pgSUP SUP.HOLDUP.HOLDUP_T t).putB pgSUP SUP.SUPPLY.HOLDUP_OK true).cond pgSUP 19 false := by
  simp [State.holdupResult, long]

/-- Settles O18: the branch of each monitoring command; an input's OK bit and the dip counter read after the write before. -/
theorem supplyMonitoring : Obligations.SupplyMonitoring := by
  intro s powered
  refine ⟨fun b mv ok => ?_, fun b mv lost => ?_, fun above => ?_, ?_, ?_, fun t free short => ?_, fun t test long => ?_,
    fun mv low => ?_, fun mv enough => ?_⟩
  · show execSupplyInputLost b mv s = _
    simp [execSupplyInputLost, powered, inputOk_put_vin, ok]
  · show execSupplyInputRestored b mv s = _
    simp [execSupplyInputRestored, powered, inputOk_put_vin, lost]
  · show execLowInput true s = _
    simp [execLowInput, powered, above]
  · show execLowInput false s = _
    simp [execLowInput, powered]
  · show execDip s = _
    have count := State.get_incSat_same s pgSUP SUP.DIP_COUNT.COUNT 1 0 (by decide) (by decide)
    simp only [execDip, powered, count]
    rfl
  · show execHoldupMeasure t s = _
    simp [execHoldupMeasure, powered, holdupResult_of_short _ short, free]
  · show execHoldupMeasure t s = _
    simp [execHoldupMeasure, powered, holdupResult_of_long _ long, test]
  · show execCellMeasure mv s = _
    simp [execCellMeasure, powered, low]
  · show execCellMeasure mv s = _
    simp [execCellMeasure, powered, enough.not_gt]

/-! ### The start -/

/-- PD1_START leaves flash and the calendar's instant, which are not among its parts; the boot state is that of
`State.pd1Start_boot`. -/
theorem pd1Start_leaves {s t : State} {r : StartReading} (runs : exec (.pd1Start r) s = .next t) :
    t.flash = s.flash ∧ t.cal.now = s.cal.now :=
  ⟨exec_same runs (q := .flash) (show Part.flash ∉ Part.except [.flash, .now, .sent] by decide),
    exec_same runs (q := .now) (show Part.now ∉ Part.except [.flash, .now, .sent] by decide)⟩

/-- Settles O19: the branch of each command of the start; what PD1's start leaves comes from the frame and from its boot
state. -/
theorem startOfTheModule : Obligations.StartOfTheModule := by
  refine ⟨fun s unpowered pd0 => ?_, fun s r supplied => ?_, fun s r supplied cause => ?_, fun s r parked hot => ?_,
    fun s raw powered unlatched valid => ⟨_, rfl, ?_⟩, fun s raw powered idle unlatched first => ?_,
    fun s raw powered latched first differs => ?_, fun s ma good rom fresh => ?_, fun s reason ma good rom bad fresh => ?_⟩
  · show execSupplyValid true false s = _
    simp [execSupplyValid, unpowered, pd0]
  · have runs : execPd1Start r s = .next (s.pd1Start s.boot.nextCause r) := by simp [execPd1Start, supplied]
    have boot := s.pd1Start_boot s.boot.nextCause r
    rw [State.pd1Fresh_boot] at boot
    obtain ⟨flash, now⟩ := pd1Start_leaves runs
    exact ⟨_, runs, rfl, by rw [boot], by rw [boot], by rw [boot], by rw [boot], by rw [boot], flash, now⟩
  · show execRestartAfterHoldup r s = _
    simp [execRestartAfterHoldup, supplied, cause]
  · show execOverTemperatureRestart r s = _
    simp [execOverTemperatureRestart, parked, hot]
  · show execSlotIdPoll raw s = _
    have unlatched' : ({ s with pins := { s.pins with slotId := raw } } : State).on pgSUP SUP.SLOT_ID.VALID = false := unlatched
    simp [execSlotIdPoll, State.slotRead, powered, unlatched', valid]
  · show execSlotIdDeadline raw s = _
    simp [execSlotIdDeadline, powered, idle, unlatched, first]
  · show execSlotIdSample raw s = _
    have differs' : (raw.toNat != s.get pgSUP SUP.SLOT_ID.RAW) = true := bne_iff_ne.2 differs
    simp [execSlotIdSample, powered, latched, first, differs']
  · show execFwSlotVerify 0 ⟨ma, good⟩ s = _
    simp [execFwSlotVerify, onlyIf, rom, fresh]
  · show execFwSlotVerify reason ⟨ma, good⟩ s = _
    simp [execFwSlotVerify, rom, bad, fresh]

/-! ### Clocks and temperature -/

/-- Settles O20: the branch of each command, on one or the other side of its limit. -/
theorem clocksAndTemperature : Obligations.ClocksAndTemperature := by
  intro s powered
  refine ⟨fun k => ?_, fun k => ?_, fun dev above => ?_, fun dev within => ?_, fun t cool above => ?_, fun t warm below => ?_,
    fun t u first hot hu => ?_⟩
  · show execClockFault k s = _
    simp [execClockFault, powered]
  · show execClockLockRestored k s = _
    simp [execClockLockRestored, powered]
  · show execRefDrift dev s = _
    simp [execRefDrift, powered, above]
  · show execRefDrift dev s = _
    simp [execRefDrift, powered, within]
  · show execTempWarn t s = _
    simp [execTempWarn, powered, cool, above]
  · show execTempWarn t s = _
    simp [execTempWarn, powered, warm, below]
  · show execOverTemperatureShutdown t s = _
    simp [execOverTemperatureShutdown, powered, first, hot, hu]

/-! ### The sequences -/

theorem phase_of_pd1 {s : State} (powered : s.pd1 = true) : s.boot.phase ≠ .unpowered ∧ s.boot.phase ≠ .supplied := by
  simpa [State.pd1] using powered

/-- A supply loss begins the hold-up sequence in every phase in which PD1 is on but the one of a sequence. -/
theorem supplyLoss_begins {s : State} (powered : s.pd1 = true) (idle : s.boot.phase ≠ .sequence) : exec .supplyLoss s =
    .next ((s.setBoot { s.boot with supplyValid := false }).seqBegin .supplyLoss 1) := by
  obtain ⟨notUnpowered, notSupplied⟩ := phase_of_pd1 powered
  show execSupplyLoss s = _
  unfold execSupplyLoss
  split
  · contradiction
  · contradiction
  · contradiction
  · rfl

/-- Settles O21: each row runs where the sequence is of its kind and stands at the row before. -/
theorem holdupAndShutdownSequences : Obligations.HoldupAndShutdownSequences := by
  intro s
  refine ⟨supplyLoss_begins, fun powered idle => ?_, fun powered idle => ?_, fun fast row => ?_, fun loss row => ?_,
    fun fast row => ?_, fun fast row => ?_, fun slow row more on => ⟨_, rfl, ?_⟩, fun slow row => ?_, fun slow row => ?_,
    fun slow row => ?_⟩
  · show execSupWatchdogExpiry s = _
    simp [execSupWatchdogExpiry, powered, idle]
  · show execSupUncorrectableError s = _
    simp [execSupUncorrectableError, powered, idle]
  · show execHoldupDomainsOff s = _
    simp [execHoldupDomainsOff, fast, row]
  · show execHoldupRecorderTail s = _
    have fast : s.fastKind = true := by simp [State.fastKind, loss]
    simp [execHoldupRecorderTail, fast, onlyIf, loss, row]
  · show execHoldupRestImage s = _
    simp [execHoldupRestImage, fast, row]
  · show execHoldupCompletion s = _
    simp [execHoldupCompletion, fast, row]
  · show execShutdownDomainOff s = _
    simp only [execShutdownDomainOff, slow, row, on, more.ne]
    rfl
  · show execShutdownTail 0 s = _
    simp [execShutdownTail, slow, row]
  · show execShutdownTail 1 s = _
    simp [execShutdownTail, slow, row]
  · show execShutdownTail 2 s = _
    simp [execShutdownTail, slow, row]

/-! ### IDENTIFY, the image check and Stop -/

/-- Settles O22: the branch of each command; the image check splits on its reason. -/
theorem identifyAndStop : Obligations.IdentifyAndStop := by
  intro s
  refine ⟨fun powered noHoldup => ?_, fun powered idle held => ?_, rfl, rfl, ?_, ?_⟩
  · show execIdentifyPress s = _
    simp [execIdentifyPress, powered, noHoldup]
  · show execMaintenanceStart s = _
    simp [execMaintenanceStart, powered, idle, held]
  · intro im c u firmware valid notStopped readable held hu
    show execImageVerify im c s = _
    simp only [execImageVerify, firmware, valid, notStopped, readable, held, ← hu]
    by_cases passes : u.imageReason im c = 0
    · simp [passes]
    · simp [passes]
  · intro im bad firmware done verified noMaint noWait noFail notStopped pd2 pd7 image
    show execStopReached bad s = _
    simp [execStopReached, firmware, done, verified, noMaint, noWait, noFail, notStopped, pd2, pd7, image]

end Sys2Proof.Proofs

/-! SUP's command register, the flash and its loads, and the power domains. -/

namespace Sys2Proof.Proofs
open Sys2Proof.Machine

/-! ### A write to SUP between the two keys of the unlock -/

theorem boot_supTouch (s : State) : s.supTouch.boot = { s.boot with unlock := s.supTouch.boot.unlock } := by
  unfold State.supTouch; split <;> rfl

theorem owner_supTouch (s : State) (page : Nat) : s.supTouch.owner page = s.owner page := by
  unfold State.supTouch; split <;> rfl

theorem on_supTouch (s : State) (page : Nat) (f : Fld) (idx : Nat) : s.supTouch.on page f idx = s.on page f idx := by
  unfold State.supTouch; split <;> rfl

theorem setBoot_supTouch (s : State) :
    s.supTouch.setBoot { s.supTouch.boot with unlock := 0 } = s.setBoot { s.boot with unlock := 0 } := by
  unfold State.supTouch; split <;> rfl

/-- It ends a sequence that has seen its first key, not the unlock itself. -/
theorem unlocked_supTouch {s : State} (h : s.boot.unlock = 2) : s.supTouch.boot.unlock = 2 := by
  rw [State.supTouch_of_ne s (by rw [h]; decide), h]

/-! ### SUP.CMD -/

/-- A write of CMD by the owner that nothing turns away takes the unlock and runs (R51). -/
theorem supCmd_accepted {s : State} {m code arg : Nat} (powered : s.pd1 = true) (notRom : s.boot.phase ≠ .romRecovery)
    (noMaint : s.boot.maint = false) (own : s.owner pgSUP = m) (ready : s.on pgSUP SUP.CMD_STATUS.BUSY = false)
    (mayRun : State.starred code = false ∨ s.boot.unlock = 2) :
    s.supCmd m code arg = (s.setBoot { s.boot with unlock := 0 }).cmdRun m code arg := by
  have phase : s.supTouch.boot.phase = s.boot.phase := by rw [boot_supTouch]
  have maint : s.supTouch.boot.maint = false := by rw [boot_supTouch]; exact noMaint
  have powered' : s.supTouch.pd1 = true := by rw [← powered, State.pd1, State.pd1, phase]
  have notLocked : (State.starred code && !(s.supTouch.boot.unlock == 2)) = false := by
    rcases mayRun with free | unlocked
    · simp [free]
    · simp [unlocked_supTouch unlocked]
  rw [← setBoot_supTouch]
  simp [State.supCmd, powered', phase, notRom, maint, owner_supTouch, own, on_supTouch, ready, notLocked]

/-- Settles O23: an accepted CMD runs its command, whose own condition holds; the keys of UNLOCK act as on every action
register. -/
theorem supervisorCommands : Obligations.SupervisorCommands := by
  intro s u m powered notRom noMaint own ready hu
  have runs {code arg : Nat} (mayRun : State.starred code = false ∨ s.boot.unlock = 2) :
      (.next (s.supCmd m.val code arg) : Out) = .next (u.cmdRun m.val code arg) := by
    rw [hu, supCmd_accepted powered notRom noMaint own ready mayRun]
  have notRom' : u.boot.phase ≠ .romRecovery := by rw [hu]; exact notRom
  refine ⟨fun may => ?_, fun may => ?_, runs (.inl rfl), fun noHoldup => ?_, fun unlocked => ⟨fun idle => ?_,
    fun arg slot aligned => ?_, fun arg slot => ?_, fun arg slot => ?_, fun aligned blocks fit => ?_,
    fun aligned blocks fit => ?_⟩, fun act locked => ?_, fun act first inTime => ?_⟩
  · refine (runs (.inl rfl)).trans ?_
    simp [State.cmdRun, State.cmdRestart, may, notRom', State.supResult]
  · refine (runs (.inl rfl)).trans ?_
    simp [State.cmdRun, State.cmdShutdown, may, notRom']
  · refine (runs (.inl rfl)).trans ?_
    simp [State.cmdRun, State.cmdIdentify, noHoldup]
  · refine (runs (.inr unlocked)).trans ?_
    simp [State.cmdRun, State.cmdRecorderClear, idle]
  · refine (runs (.inr unlocked)).trans ?_
    simp [State.cmdRun, State.cmdKeyEnrol, slot.not_gt, aligned]
  · refine (runs (.inr unlocked)).trans ?_
    simp [State.cmdRun, State.cmdKeyRevoke, slot.not_gt]
  · refine (runs (.inr unlocked)).trans ?_
    simp [State.cmdRun, State.cmdFwPrefer, slot.not_gt]
  · refine (runs (.inr unlocked)).trans ?_
    simp [State.cmdRun, State.loadStart, fwBlocks, aligned, blocks, fit.not_gt]
  · refine (runs (.inr unlocked)).trans ?_
    simp [State.cmdRun, State.loadStart, imageBlocks, aligned, blocks, fit.not_gt]
  · show execUnlock m 0x5EC7#32 s = _
    simp [execUnlock, State.supUnlock, State.supAction, notRom, State.action_of_mayAct _ act, locked]
  · show execUnlock m 0xA17B#32 s = _
    simp [execUnlock, State.supUnlock, State.supAction, notRom, State.action_of_mayAct _ act, first, inTime]

/-! ### The flash and the loads -/

/-- A flash operation that FLASH_CMD accepts (R49): its block, count and DMA address are taken and FLASH is busy. -/
theorem flashCmd_accepted {s : State} {m op last : Nat} {w : Bool} (act : s.mayAct pgSUP m)
    (ready : s.supTouch.on pgSUP SUP.FLASH_STATUS.BUSY = false) (blocks : s.supTouch.get pgSUP SUP.FLASH_COUNT.COUNT ≠ 0)
    (region : flashRegion (s.supTouch.get pgSUP SUP.FLASH_BLOCK.BLOCK) = some (last, w))
    (inside : s.supTouch.get pgSUP SUP.FLASH_BLOCK.BLOCK + s.supTouch.get pgSUP SUP.FLASH_COUNT.COUNT - 1 ≤ last)
    (op0 : op ≠ 0) (allowed : op = 1 ∨ w = true) :
    s.flashCmd m op = (s.supTouch.setBoot { s.supTouch.boot with
      flashOp := op, flashBlock := s.supTouch.get pgSUP SUP.FLASH_BLOCK.BLOCK
      flashCount := s.supTouch.get pgSUP SUP.FLASH_COUNT.COUNT, flashDma := s.supTouch.flashDma }).put pgSUP
        SUP.FLASH_STATUS.BUSY 1 := by
  have notForbidden : ¬ (op ≠ 1 ∧ w = false) := by simpa [or_iff_not_imp_left] using allowed
  rw [State.flashCmd, State.action_of_mayAct _ act, State.pageTouch_pgSUP _ (by decide)]
  simp only [op0, ready, blocks, region, notForbidden, inside.not_gt]
  simp

/-- Settles O24: an accepted operation starts; the end of each kind, at an address that is permitted to it, takes the branch of
its success or its error. -/
theorem flashAndLoads : Obligations.FlashAndLoads := by
  intro s
  refine ⟨fun m last w u act hu ready blocks region inside t ht => ?_, fun c u powered hu => ⟨fun read inMem => ?_,
    fun write readable => ?_, fun erase => ?_⟩, fun busy powered r u hu => ?_, fun busy powered im c u hu => ?_⟩
  · subst hu ht
    have starts {op : Nat} (op0 : op ≠ 0) (allowed : op = 1 ∨ w = true) :=
      flashCmd_accepted act ready blocks region inside op0 allowed
    exact ⟨congrArg _ (starts (by decide) (.inl rfl)), fun writable => congrArg _ (starts (by decide) (.inr writable)),
      fun writable => congrArg _ (starts (by decide) (.inr writable))⟩
  · constructor
    · show execFlashOperationDone c false s = _
      simp [execFlashOperationDone, powered, read, inMem, ← hu, State.memCopy]
    · show execFlashOperationDone c true s = _
      simp [execFlashOperationDone, powered, read, inMem, ← hu]
  · have permitted : ¬ (inTier12 s.boot.flashDma (s.boot.flashCount * 4096) = false ∧
        inTrace s.boot.flashDma (s.boot.flashCount * 4096) = false) := by
      rcases readable with h | h <;> simp [h]
    constructor
    · show execFlashOperationDone c false s = _
      simp [execFlashOperationDone, powered, write, permitted, ← hu]
    · show execFlashOperationDone c true s = _
      simp [execFlashOperationDone, powered, write, permitted, ← hu]
  · constructor
    · show execFlashOperationDone c false s = _
      simp [execFlashOperationDone, powered, erase, ← hu]
    · show execFlashOperationDone c true s = _
      simp [execFlashOperationDone, powered, erase, ← hu]
  · refine ⟨fun passes => ?_, fun fails => ?_, ?_⟩
    · show execFwLoadComplete false r s = _
      simp [execFwLoadComplete, busy, powered, passes, hu]
    · show execFwLoadComplete false r s = _
      simp [execFwLoadComplete, busy, powered, fails, hu]
    · show execFwLoadComplete true r s = _
      simp [execFwLoadComplete, busy, powered]
  · have stored : (if (c.readable && c.held) = true then
          (s.flashStore (imageBase s.imageTarget)).setImage s.imageTarget (some im)
        else (s.flashStore (imageBase s.imageTarget)).setImage s.imageTarget none) = u := by
      rw [hu, apply_ite (State.setImage _ _)]
    refine ⟨fun passes inUse => ?_, fun v hv passes awaited => ?_, fun fails => ?_, ?_⟩
    · show execImageLoadComplete false im c s = _
      simp only [execImageLoadComplete, stored]
      simp [powered, busy, passes, inUse]
    · show execImageLoadComplete false im c s = _
      simp only [execImageLoadComplete, stored, ← hv]
      simp [powered, busy, passes, awaited]
    · show execImageLoadComplete false im c s = _
      simp only [execImageLoadComplete, stored]
      simp [powered, busy, fails]
    · show execImageLoadComplete true im c s = _
      simp [execImageLoadComplete, powered, busy]

/-! ### Power domains -/

/-- Settles O25: the branch of each command; DOM_OFF's bits act as on every action register. -/
theorem powerDomains : Obligations.PowerDomains := by
  intro s
  refine ⟨fun ma good firmware more going u d hd hu notOff => ?_, fun d inr firmware starting => ?_,
    fun tries firmware last going => ⟨_, _, rfl, rfl, ?_⟩, fun d powered idle above on => ?_,
    fun m act d named => ⟨fun notOff stopped => ?_, fun ma good u off hu idle due => ?_⟩, fun n ma on => ?_,
    fun n => ⟨rfl, fun isAxis => ?_, fun isIsland => ?_⟩⟩
  · show execDomainStart ⟨ma, good⟩ s = _
    have inOrder : ¬ 11 < s.get pgPWR PWR.SEQ.STEP + 1 := by omega
    simp only [execDomainStart, ← hd, ← hu]
    simp [firmware, inOrder, going, notOff, State.domStart]
  · show execDomainStartFault ⟨d, inr⟩ s = _
    simp [execDomainStartFault, firmware, starting]
  · show execDomainRetry tries s = _
    simp [execDomainRetry, firmware, last, going]
  · show execPowerGoodLost d s = _
    simp [execPowerGoodLost, powered, idle, above.not_gt, on]
  · show execDomOff m d s = _
    simp only [execDomOff, State.action_of_mayAct s act, State.pageTouch_pgPWR, named, State.domOff, notOff, stopped]
    rfl
  · show execDomOn m d ⟨ma, good⟩ s = _
    simp only [execDomOn, State.action_of_mayAct s act, State.pageTouch_pgPWR, named, State.domOn, off, ← hu, idle]
    simp [due.not_gt]
  · show execIslandReady n ma s = _
    simp [execIslandReady, on]
  · show execPowerStageCooled 1 n s = _
    simp [execPowerStageCooled, isAxis]
  · show execPowerStageCooled 2 n s = _
    simp [execPowerStageCooled, isIsland]

end Sys2Proof.Proofs

/-! Every step: it keeps the invariant, it answers a next state; and the laws of the memories. -/

namespace Sys2Proof.Proofs
open Sys2Proof.Machine

/-! ### The invariant -/

/-- The queue of commands is no part of the invariant. -/
theorem inv_pending {s : State} (q : List Instr) (h : s.Inv) : ({ s with pending := q } : State).Inv :=
  ⟨h.mem, h.flash, h.cal, h.ts, h.recq, h.held, h.ring, h.val, h.recs⟩

theorem inv_idle {s : State} (h : s.Inv) : s.idle.Inv := by
  obtain ⟨l, kept⟩ := idle_grown (W := fun _ => false) s fun _ _ => rfl
  exact kept.inv (inv_pending _ h)

theorem inv_exec {c : Instr} {s t : State} (h : s.Inv) (runs : exec c s = .next t) : t.Inv :=
  (kept_of_exec runs).inv h

/-- Settles O5: a tick keeps the invariant, and a command keeps that of the state with the rest of the queue. -/
theorem stepKeepsInvariant : Obligations.StepKeepsInvariant := by
  intro s t inv steps
  unfold step at steps
  split at steps
  next =>
    cases steps
    exact inv_idle inv
  next c rest _ => exact inv_exec (inv_pending rest inv) steps

/-- Settles O4: the calendar's date at reset exists, and everything else that the invariant bounds is empty. -/
theorem resetInvariant : Obligations.ResetInvariant where
  mem := Memory.wf_nil
  flash := Memory.wf_nil
  cal := rfl
  ts := Nat.zero_le _
  recq := Nat.zero_le _
  held := Nat.zero_le _
  ring := by decide
  val _ := Nat.two_pow_pos 64
  recs _ := Nat.two_pow_pos 96

/-! ### Every command completes -/

/-- The outcome is a next state. -/
def Answers (o : Out) : Prop := ∃ t, o = .next t

theorem Answers.next {t : State} : Answers (.next t) := ⟨t, rfl⟩

theorem Answers.ite {c : Prop} [Decidable c] {a b : Out} (ha : Answers a) (hb : Answers b) :
    Answers (if c then a else b) := by
  split
  · exact ha
  · exact hb

theorem Answers.ifNext {c : Prop} [Decidable c] {t : State} {b : Out} (hb : Answers b) :
    Answers (if c then .next t else b) :=
  .ite .next hb

theorem frameLaunch_answers (port : Fin 4) (queue : Fin 8) (s : State) : Answers (execFrameLaunch port queue s) :=
  .ifNext (.ifNext (.ifNext (.ifNext (.ite (.ifNext (.ifNext .next)) (.ifNext .next)))))

theorem canReceive_answers (can : Fin 4) (took : BitVec 32) (resRecessive : Bool) (w0 : BitVec 32) (brs esi : Bool)
    (dlc : Fin 16) (data : List Byte) (s : State) :
    Answers (execCanReceive can took resRecessive w0 brs esi dlc data s) :=
  .ite (.ifNext (.ifNext .next)) (.ifNext (.ite (.ifNext (.ifNext .next)) .next))

theorem dioLevelAccepted_answers (ch : Fin 64) (level : Bool) (age : BitVec 32) (s : State) :
    Answers (execDioLevelAccepted ch level age s) :=
  .ifNext (.ite (.ifNext .next) (.ifNext .next))

theorem farCleared_answers (stp : Bool) (s : State) : Answers (execFarCleared stp s) :=
  .ite (.ifNext .next) (.ifNext .next)

theorem txWriteBack_answers (port : Fin 4) (s : State) : Answers (execTxWriteBack port s) := by
  unfold execTxWriteBack
  refine .ifNext ?_
  split
  · exact .next
  · exact .ifNext (.ifNext (.ifNext .next))

theorem frameReceive_answers (port : Fin 4) (fcsOk : Bool) (frame : List Byte) (s : State) :
    Answers (execFrameReceive port fcsOk frame s) := by
  unfold execFrameReceive
  refine .ifNext (.ifNext (.ite (.ifNext ?_) ?_))
  · split
    · exact .next
    · exact .ifNext .next
  · split
    · exact .ifNext .next
    · exact .ifNext (.ifNext (.ifNext (.ifNext .next)))

theorem canTxComplete_answers (can : Fin 4) (ending : CanEnd) (s : State) : Answers (execCanTxComplete can ending s) := by
  unfold execCanTxComplete
  refine .ifNext ?_
  dsimp only
  split
  · exact .next
  · exact .next

theorem recordWrite_answers (ok : Bool) (s : State) : Answers (execRecordWrite ok s) := by
  unfold execRecordWrite
  refine .ifNext ?_
  split
  · exact .next
  · exact .next

theorem recordReceive_answers (s : State) : Answers (execRecordReceive s) := by
  unfold execRecordReceive
  split
  · exact .next
  · exact .next

theorem commonDriveDone_answers (markerOk : Bool) (driveErr : Fin 3) (s : State) :
    Answers (execCommonDriveDone markerOk driveErr s) := by
  unfold execCommonDriveDone
  split
  · exact .ifNext .next
  · exact .next

theorem edgeW1Read_answers (g : Fin 8) (s : State) : Answers (execEdgeW1Read g s) := by
  unfold execEdgeW1Read
  refine .ifNext (.ifNext ?_)
  dsimp only
  split
  · exact .next
  · exact .next

theorem regionUpdateStart_answers (s : State) : Answers (execRegionUpdateStart s) := by
  unfold execRegionUpdateStart
  split
  · exact .ifNext .next
  · exact .next

/-- Most meanings are one next state; the others decide between several. -/
theorem exec_answers (c : Instr) (s : State) : Answers (exec c s) := by
  cases c with
  | frameLaunch => exact frameLaunch_answers _ _ s
  | frameReceive => exact frameReceive_answers _ _ _ s
  | txWriteBack => exact txWriteBack_answers _ s
  | canTxComplete => exact canTxComplete_answers _ _ s
  | canReceive => exact canReceive_answers _ _ _ _ _ _ _ _ s
  | dioLevelAccepted => exact dioLevelAccepted_answers _ _ _ s
  | recordWrite => exact recordWrite_answers _ s
  | recordReceive => exact recordReceive_answers s
  | commonDriveDone => exact commonDriveDone_answers _ _ s
  | farCleared => exact farCleared_answers _ s
  | edgeW1Read => exact edgeW1Read_answers _ s
  | regionUpdateStart => exact regionUpdateStart_answers s
  | canBusError | tempRange => exact .ifNext (.ifNext (.ifNext .next))
  | fsMissing | fsLow | analogueConversion | noLoop | miswireRetest | hartBurst | summaryRecord | stnNsRead =>
    exact .ifNext (.ifNext .next)
  | commitApply | ptpTimestamp | domainLost | lanLost | recoveryDone | abrFail | overload | dioThermal | testPulse | openLoad
  | readback | fsRestored | analogueReadback | islandThermal | miswire | island | hartTransactionEnd | winW0Read | winW7Read
  | emitterFault | islandLinkRestored | tallyTimeCount | residualCleared | dateRead | oscillatorStop | lbf | yearWrap
  | tallyFlush | valueLoRead => exact .ifNext .next
  | _ => exact .next

/-- Settles O7: a step is a tick, which is a next state, or the command at the front. -/
theorem noCommandStops : Obligations.NoCommandStops := by
  refine ⟨exec_answers, fun s => ?_⟩
  unfold step
  split
  · exact Answers.next
  · exact exec_answers _ _

/-! ### Memories -/

theorem rdLE_wrLE (m : Memory) (a n v : Nat) : Memory.rdLE (Memory.wrLE m a n v) a n = v % 256 ^ n := by
  have stored : Memory.bytes (Memory.wrLE m a n v) a n = leBytes v n := by
    have whole := Memory.bytes_eq (Memory.wrLE m a n v) (leBytes v n) a (Memory.rd_put_inside _ _ _)
    rwa [leBytes_length] at whole
  rw [Memory.rdLE, stored, leNat_leBytes]

/-- The first listed byte of a canonical memory is not the unwritten one, so a memory that reads as it there lists a byte at or
below it. -/
theorem head_le_of_rd_eq {m k : Memory} {a b : Nat} {v w : Byte} (hm : Memory.wf ((a, v) :: m) = true)
    (hk : Memory.wf ((b, w) :: k) = true) (agree : Memory.rd ((a, v) :: m) a = Memory.rd ((b, w) :: k) a) : b ≤ a := by
  by_contra below
  have written : v ≠ Config.unwrittenByte := (Memory.wf_tail hm).2
  have beyond : Memory.rd k a = Config.unwrittenByte := Memory.rd_lt_head hk (by omega)
  have notHead : b ≠ a := by omega
  refine written ?_
  calc v = Memory.rd ((b, w) :: k) a := by simpa [Memory.rd, Store.get] using agree
    _ = Memory.rd k a := by simp [Memory.rd, Store.get, notHead]
    _ = Config.unwrittenByte := beyond

/-- Canonical memories that read alike are equal: their first entries agree, and so do the rests. -/
theorem memory_ext {m k : Memory} (hm : Memory.wf m = true) (hk : Memory.wf k = true)
    (agree : ∀ a, Memory.rd m a = Memory.rd k a) : m = k := by
  induction m generalizing k with
  | nil =>
    cases k with
    | nil => rfl
    | cons e k => exact absurd (by simpa [Memory.rd, Store.get] using (agree e.1).symm) (Memory.wf_tail hk).2
  | cons e m ih =>
    obtain ⟨a, v⟩ := e
    cases k with
    | nil => exact absurd (by simpa [Memory.rd, Store.get] using agree a) (Memory.wf_tail hm).2
    | cons e k =>
      obtain ⟨b, w⟩ := e
      obtain rfl : a = b := le_antisymm (head_le_of_rd_eq hk hm (agree b).symm) (head_le_of_rd_eq hm hk (agree a))
      obtain rfl : v = w := by simpa [Memory.rd, Store.get] using agree a
      have rests (x : Nat) : Memory.rd m x = Memory.rd k x := by
        rcases le_or_gt x a with low | high
        · rw [Memory.rd_lt_head hm low, Memory.rd_lt_head hk low]
        · simpa [Memory.rd, Store.get, high.ne] using agree x
      rw [ih (Memory.wf_tail hm).1 (Memory.wf_tail hk).1 rests]

/-- Settles O15: the bytes stored are read, the others stay, and the canonical form is kept and unique. -/
theorem memoryLaws : Obligations.MemoryLaws :=
  ⟨rdLE_wrLE, fun m a n v x outside => Memory.rd_put_outside _ _ _ _ (by rwa [leBytes_length]),
    fun _ a n v wf => Memory.wf_wrLE a n v wf, fun _ _ => memory_ext⟩

end Sys2Proof.Proofs

/-! Writes to action registers: refused where the page is another's, without effect where the block is off. -/

namespace Sys2Proof.Proofs
open Sys2Proof.Machine

/-- A command that writes an action register is `State.action` there, with an effect of its own. -/
theorem exec_of_actionAccess {c : Instr} {page off m : Nat} (h : actionAccess c = some (page, off, m)) :
    ∃ f : State → State, ∀ s, exec c s = .next (s.action page off m f) := by
  cases c with
  | run _ p | runClear _ p | hold _ p | holdClear _ p | faultEnWrite _ p | commitGo _ p | discard _ p =>
    by_cases present : populated p.toNat = true
    · simp only [actionAccess, present, if_true] at h
      cases h
      exact ⟨_, fun s => congrArg _ (if_pos present)⟩
    · simp only [actionAccess, present] at h
      cases h
  | corePairRunOn | corePairRunOff | domOff | domOn | flashRead | flashWrite | flashErase | seqRun | seqStop | seqHold
  | seqRelease | holdMask | step | prepare | apply | cancel | lpeRunOn | lpeRunOff | traceArm | traceForce | traceStop
  | armAll | slotArm | slotDisarm | firstStn | firstStp | stepStn | stepStp | stepBoth | stnAdj | stnInc | domOfs
  | stnDom | stpSwitch | stnReadmit | stnLeave | txqTail | rxqTail | txSubmit | txAbort | txDone | rxAck | recover
  | startAbr | dioRestart | anaRestart | hartSend | hartAbort | hartTake | feClear | threshHi | tlyUnlock | wrapAck
  | epoch | req | restCmdText | restCmdBlank =>
    cases h
    exact ⟨_, fun _ => rfl⟩
  | _ => exact absurd h nofun

/-- No tally counts code 0x020, so a refusal sets the fault bit and records, and nothing else. -/
theorem refuseOwner_eq_note (s : State) (page off m : Nat) :
    s.refuseOwner page off m = (s.setFault page 1).note page 0x020 0 [off, m, s.owner page] :=
  State.raise_of_none rfl _ _ _ _

theorem refuseOwner_same (s : State) (page off m : Nat) {q : Part} (hq : [Part.regs, .recd, .flt, .free].contains q = false) :
    q.same s (s.refuseOwner page off m) := by
  rw [refuseOwner_eq_note]
  exact State.same_of_kept (fun _ hf => State.note_kept _ _ _ _ _
    (State.setFault_kept s page 1 Kept.start (hf.sub rfl)) (hf.sub rfl)) q hq

/-- Settles O8: each of the commands stands before an owner check, which refuses; and what the refusal does, by the rules of
setting a fault bit and of recording. -/
theorem refusedWrites : Obligations.RefusedWrites := by
  refine ⟨fun s c page off m served access foreign => ?_, fun s m served foreign => ⟨?_, ?_⟩,
    fun s m code sub served foreign => ?_, fun s m page mask served present foreign notFirmware => ?_,
    fun s m served foreign notFirmware => ?_, fun s page off m hpage => ⟨?_, ?_, fun p o i hp ho notFlt other => ?_,
      fun q notRegs notRecd notFlt notFree => ?_⟩⟩
  · obtain ⟨f, acts⟩ := exec_of_actionAccess access
    rw [acts, State.action_refused s served foreign]
  · exact congrArg _ (State.actionRes_refused s served foreign _ _ _ _)
  · exact congrArg _ (State.actionRes_refused s served foreign _ _ _ _)
  · exact congrArg _ (State.actionRes_refused s served foreign _ _ _ _)
  · show execFaultClear m page mask s = _
    simp [execFaultClear, present, served, foreign, notFirmware]
  · show execSrcClear m s = _
    simp [execSrcClear, served, foreign, notFirmware]
  · rw [refuseOwner_eq_note, State.note_reg, State.reg_setFault_same _ hpage]
    rfl
  · obtain ⟨r, raised, code, onPage, sub, p0, p1, p2⟩ :=
      State.note_raised (s.setFault page 1) page 0x020 0 [off, m, s.owner page]
    refine ⟨r, ?_, code, onPage, sub, p0, p1, p2⟩
    rw [refuseOwner_eq_note, raised, State.setFault_recd]
  · rw [refuseOwner_eq_note, State.note_reg, State.reg_setFault_ne s hp ho hpage (.inl notFlt) other]
  · exact refuseOwner_same s page off m (by simp [notRegs, notRecd, notFlt, notFree])

/-- Settles O9: STATE reads the domain; an action register's block-specific effect, GO and DISCARD are guarded by it. -/
theorem switchedOffBlocks : Obligations.SwitchedOffBlocks := by
  refine ⟨fun s page => ⟨fun off => ?_, fun failed => ?_⟩, fun s c page off m served access own block isOff => ?_,
    fun s m page served present own isOff => ?_⟩
  · simp [State.st, off]
  · simp [State.st, failed]
  · obtain ⟨f, acts⟩ := exec_of_actionAccess access
    rw [acts, State.action_off s served own block isOff]
  · have acts (f : State → State) : s.action page.toNat 0x018 m.val f = f (s.pageTouch page.toNat 0x018) := by
      simp [State.action, served, own]
    constructor
    · show execCommitGo m page s = _
      simp [execCommitGo, present, acts, State.commitGo, isOff]
    · show execDiscard m page s = _
      simp [execDiscard, present, acts, State.commitDiscard, isOff]

end Sys2Proof.Proofs

/-! Fault bits and FLT. -/

namespace Sys2Proof.Proofs
open Sys2Proof.Machine

/-! ### Fault bits -/

theorem faultKey_div (page : Nat) {b : Nat} (hb : b < 32) : faultKey page b / 64 = page := by
  unfold faultKey; omega

theorem faultKey_mod (page : Nat) {b : Nat} (hb : b < 32) : faultKey page b % 64 = b := by
  unfold faultKey; omega

theorem flt_setFault_of_disabled {s : State} {page b : Nat} (disabled : bitOf (s.reg page 0x014).toNat b = false) :
    (s.setFault page b).flt = s.flt := by
  simp only [State.setFault, disabled]
  rfl

theorem flt_setFault_of_enabled {s : State} {page b : Nat} (enabled : bitOf (s.reg page 0x014).toNat b = true) :
    (s.setFault page b).flt =
      ((s.setReg page 0x010 (s.reg page 0x010 ||| BitVec.ofNat 32 (2 ^ b))).edge (faultKey page b)).flt := by
  simp only [State.setFault, enabled, if_true]

/-- An edge that FLT holds or has queued is no new one (R420). -/
theorem flt_edge_of_seen {s : State} {key : Nat} (seen : key ∈ s.flt.held ∨ key ∈ s.flt.edges) :
    (s.edge key).flt = s.flt := by
  rw [State.edge, if_pos]
  rcases seen with held | queued
  · simp [held]
  · simp [queued]

/-- A new edge of a bit that names a source joins the queue. -/
theorem flt_edge_of_new {s : State} {key n : Nat} (powered : s.pd1 = true) (notHeld : key ∉ s.flt.held)
    (notQueued : key ∉ s.flt.edges) (source : srcNum (key / 64) (key % 64) = some n) :
    (s.edge key).flt = { s.flt with edges := s.flt.edges ++ [key] } := by
  simp only [State.edge, powered, source]
  simp [notHeld, notQueued, State.incSat]

theorem getLsbD_clearFault (s : State) (page b : Nat) {i : Nat} (hi : i < 32) :
    ((s.clearFault page b).reg page 0x010).getLsbD i = (i != b && (s.reg page 0x010).getLsbD i) := by
  show ((s.setReg page 0x010 (s.reg page 0x010 &&& ~~~ BitVec.ofNat 32 (2 ^ b))).reg page 0x010).getLsbD i = _
  rw [State.reg_setReg_same, BitVec.getLsbD_and, BitVec.getLsbD_not, State.getLsbD_two_pow b i hi, Bool.and_comm]
  simp [hi, bne]

/-- Settles O11: `setFault` and `clearFault` write one bit of FAULT; the collector takes the edge of an enabled bit where it is
new. -/
theorem faultBits : Obligations.FaultBits := by
  intro s page b hpage hb
  refine ⟨State.getLsbD_setFault s hpage, ?_, flt_setFault_of_disabled, fun enabled powered notHeld notQueued source => ?_,
    fun seen => ?_, fun i => getLsbD_clearFault s page b, ?_, ?_⟩
  · exact State.reg_setFault_ne s hpage (by decide) hpage (.inr ⟨by decide, by decide⟩) (by simp)
  · obtain ⟨n, hn⟩ := Option.isSome_iff_exists.1 source
    rw [flt_setFault_of_enabled enabled]
    refine flt_edge_of_new powered notHeld notQueued (n := n) ?_
    rw [faultKey_div page hb, faultKey_mod page hb, hn]
  · cases enabled : bitOf (s.reg page 0x014).toNat b with
    | false => exact flt_setFault_of_disabled enabled
    | true =>
      rw [flt_setFault_of_enabled enabled]
      exact flt_edge_of_seen (s := s.setReg page 0x010 _) seen
  · simp [State.clearFault, delNum]
  · simp [State.clearFault]

/-! ### FLT and LEG -/

/-- A clear of a bit of a page's FAULT that nothing keeps back (R412). -/
theorem clearBit_of_free {s : State} {k : Nat} (noTask : State.keyTask k = none)
    (stands : s.faultBitSet k = true ∨ s.flt.held.contains k = true) (noCond : s.flt.conds.contains k = false)
    (noEdge : s.flt.edges.contains k = false) {u : State}
    (hu : u = s.setReg (k / 64) 0x010 (s.reg (k / 64) 0x010 &&& ~~~ BitVec.ofNat 32 (2 ^ (k % 64)))) :
    s.clearBit k = (if k = faultKey pgPLACE 16 then u.budgetCleared else u).fltDrop k := by
  have seen : (!s.faultBitSet k && !s.flt.held.contains k) = false := by
    rcases stands with bit | held
    · rw [bit]; rfl
    · rw [held, Bool.not_true, Bool.and_false]
  simp only [State.clearBit, seen, noCond, noEdge, noTask, ← hu, Bool.or_false, Bool.false_eq_true, if_false]

/-- SRC_CLEAR by FLT's owner or local firmware (R412). -/
theorem srcClear_of_may {s : State} {m : Fin 4} (served : s.servedTo m.val = true) (may : s.owner pgFLT = m.val ∨ m.val = 0) :
    exec (.srcClear m) s = .next (forEach ((s.flt.held ++ s.flt.edges).filter
      (fun k => State.keySrc k == s.get pgFLT FLT.SRC_INDEX.SOURCE)) (fun u k => u.clearBit k) s) := by
  have notForeign : (s.owner pgFLT != m.val && m.val != 0) = false := by
    rcases may with own | firmware
    · simp [own]
    · simp [firmware]
  show execSrcClear m s = _
  simp only [execSrcClear, served, notForeign, Bool.not_true, Bool.false_eq_true, if_false]

/-- READMIT by FLT's owner, with none running, acts. -/
theorem readmit_of_own {s : State} {m : Nat} (served : s.servedTo m = true) (ready : s.on pgFLT FLT.CMD_STATUS.BUSY = false)
    (own : s.owner pgFLT = m) (kind id : Nat) (f : State → State) : s.readmit m kind id f = f s := by
  simp [State.readmit, served, ready, own]

theorem readmitTask_of_own {s : State} {m : Fin 4} (served : s.servedTo m.val = true)
    (ready : s.on pgFLT FLT.CMD_STATUS.BUSY = false) (own : s.owner pgFLT = m.val) (id : BitVec 9) :
    exec (.readmitTask m 0 id) s = .next (if s.readmitTaskReason id.toNat ≠ 0
    then s.readmitEnd 1 id.toNat (s.readmitTaskReason id.toNat)
    else (s.readmitTask id.toNat).readmitEnd 1 id.toNat 0) := by
  show execReadmitTask m 0 id s = _
  rw [execReadmitTask, readmit_of_own served ready own]
  rfl

/-- Settles O56: the commands of FLT's owner act, and READMIT divides by the reason that keeps the page or the task back. -/
theorem faultRegister : Obligations.FaultRegister := by
  intro s
  refine ⟨rfl, fun p off present powered u hu => ?_, fun m n served may hn => ?_,
    fun m served ready own => ⟨fun id free => ⟨fun k i kind notCp => ?_, fun i kind => ?_⟩, fun id kept => ?_,
      fun id free => ?_, fun id kept => ?_⟩, fun m act => ?_⟩
  · show execFaultSourceRise (some (p, off)) s = _
    simp [execFaultSourceRise, present, powered, ← hu]
  · have clears := srcClear_of_may served may
    rw [← hn] at clears
    refine ⟨clears, fun k u only noTask stands noCond noEdge hu => ?_⟩
    rw [clears, only]
    exact congrArg _ (clearBit_of_free noTask stands noCond noEdge hu)
  · show execReadmitPage m id s = _
    rw [execReadmitPage, readmit_of_own served ready own]
    simp [free, kind, notCp]
  · show execReadmitPage m id s = _
    rw [execReadmitPage, readmit_of_own served ready own]
    simp [free, kind]
  · show execReadmitPage m id s = _
    rw [execReadmitPage, readmit_of_own served ready own]
    simp [kept]
  · rw [readmitTask_of_own served ready own]
    simp [free]
  · rw [readmitTask_of_own served ready own, if_pos kept]
  · show execFeClear m s = _
    rw [execFeClear, State.action_of_mayAct s act, State.pageTouch_pgLEG]

end Sys2Proof.Proofs

/-! The commit, and writes of RUN and HOLD. -/

namespace Sys2Proof.Proofs
open Sys2Proof.Machine

/-! ### The commit -/

/-- A Staged register that `m` does not list among those of its page reads its reset word there. -/
theorem get_reset_of_unstaged {page off idx : Nat} {m : Store Word} (hp : page < 512) (ho : off < 4096)
    (staged : stagedMask page off ≠ 0) (unlisted : regKey page off idx ∉ State.stagedIn page m) :
    Store.get (resetWord page off idx) m (regKey page off idx) = resetWord page off idx := by
  refine Store.get_unlisted _ _ fun listed => unlisted (List.mem_filter.2 ⟨listed, ?_⟩)
  simp [keyPage_regKey hp ho, keyOff_regKey ho, staged]

/-- Where the entries of a page are dropped, its registers read what an unlisted one reads. -/
theorem get_without_page {page off idx : Nat} (m : Store Word) (hp : page < 512) (ho : off < 4096) (d : Word) :
    Store.get d (m.filter fun e => keyPage e.1 != page) (regKey page off idx) = d := by
  refine Store.get_unlisted _ _ fun listed => ?_
  obtain ⟨e, he, key⟩ := List.mem_map.1 listed
  have other := (List.mem_filter.1 he).2
  simp [key, keyPage_regKey hp ho] at other

/-- What a Staged register of a page reads in a store from which the page's entries were dropped and into which the registers
listed in `keys` were copied from `m`: what it reads in `m`, if `keys` names every register of the page that `m` lists. -/
theorem get_copied {page off idx : Nat} {keys : List Nat} {m : Store Word} (c : Store Word) (hp : page < 512) (ho : off < 4096)
    (staged : stagedMask page off ≠ 0) (all : State.stagedIn page m ⊆ keys) :
    Store.get (resetWord page off idx) (keys.foldl (fun b k => Store.set (keyReset k) b k (Store.get (keyReset k) m k))
      (c.filter fun e => keyPage e.1 != page)) (regKey page off idx) =
      Store.get (resetWord page off idx) m (regKey page off idx) := by
  have copied := Store.get_foldl_set keyReset (fun k => Store.get (keyReset k) m k) keys
    (c.filter fun e => keyPage e.1 != page) (regKey page off idx)
  rw [keyReset_regKey hp ho] at copied
  rw [copied]
  split
  · rfl
  next absent =>
    rw [get_without_page c hp ho, get_reset_of_unstaged hp ho staged fun listed => absent (all listed)]

theorem stagedIn_subset_stagedKeys (s : State) (page : Nat) (m : Store Word) :
    State.stagedIn page m ⊆ s.stagedKeys page m :=
  fun _ listed => List.mem_dedup.2 (List.mem_append_left _ listed)

theorem regKey_ne_commit {page p o i : Nat} (hpage : page < 512) (hp : p < 512) (ho : o < 4096)
    (other : (p, o, i) ≠ (page, HDR.COMMIT.PENDING.off, 0)) : regKey p o i ≠ regKey page HDR.COMMIT.PENDING.off 0 :=
  regKey_ne hp ho hpage (by decide) fun ⟨e₁, e₂, e₃⟩ => other (by rw [e₁, e₂, e₃])

theorem pending_of_commit_eq {s t : State} {page : Nat} (h : t.reg page 0x018 = s.reg page 0x018) :
    t.on page HDR.COMMIT.PENDING = s.on page HDR.COMMIT.PENDING :=
  congrArg (fun w : Word => bits w.toNat _ _ != 0) h

theorem pending_put (s : State) (page : Nat) (b : Bool) :
    (s.put page HDR.COMMIT.PENDING (b2n b)).on page HDR.COMMIT.PENDING = b :=
  State.on_putB_same s page HDR.COMMIT.PENDING b 0 (by decide) (by decide)

/-- Settles O14: GO copies every Staged register that the shadows list, DISCARD every one that the registers list; what neither
lists stands at its reset word on both sides. -/
theorem commitRoundTrip : Obligations.CommitRoundTrip := by
  intro s page hpage on
  obtain ⟨dropped, -, reloaded⟩ := State.commitDiscard_does s on
  refine ⟨fun pending => ?_, fun clear => ?_, ?_, fun off idx ho notCommit staged => ?_,
    fun notLpe notAng p o i hp ho other => ?_⟩
  · simp [State.commitGo, on, pending]
  · obtain ⟨marked, shadows, buffered⟩ := State.commitGo_does s on clear
    refine ⟨?_, shadows, fun off idx ho staged => ?_, fun notAng p o i hp ho other => ?_⟩
    · rw [pending_of_commit_eq marked]
      exact pending_put s page true
    · rw [buffered, get_copied _ hpage ho staged (stagedIn_subset_stagedKeys s page s.shad)]
      rfl
    · exact State.commitGo_reg s on clear notAng (regKey_ne_commit hpage hp ho other)
  · rw [pending_of_commit_eq dropped]
    exact pending_put _ page false
  · have applied : (s.commitDrop page).reg page off idx = s.reg page off idx :=
      State.reg_setReg_ne _ _ (regKey_ne_commit hpage hpage ho fun e => notCommit (by injection e with _ e; injection e))
    rw [State.shadow, reloaded, get_copied _ hpage ho staged (List.Subset.refl _)]
    exact applied
  · exact State.commitDiscard_reg s on notLpe notAng (regKey_ne_commit hpage hp ho other)

theorem pageKind_pgCP (p : Fin 4) : pageKind (pgCP p.val) = some (.cp, p.val) := by
  revert p; decide

/-! ### RUN and HOLD -/

/-- SUP and TLY, whose unlock sequence a write can end, are among the blocks whose RUN always reads 1. -/
theorem pageTouch_of_ownRun {s : State} {p i : Nat} {k : Kind} (kind : pageKind p = some (k, i)) (ownRun : runAlwaysOne k = false)
    (off : Nat) : s.pageTouch p off = s := by
  refine s.pageTouch_of_ne off ?_ ?_
  · rintro rfl
    cases kind
    cases ownRun
  · rintro rfl
    cases kind
    cases ownRun

theorem populated_of_kind {p i : Nat} {k : Kind} (kind : pageKind p = some (k, i)) : populated p = true := by
  simp [populated, kind]

section Writes
variable {s : State} {m : Fin 4} {page : BitVec 9} {k : Kind} {i : Nat}

theorem run_of_mayAct (kind : pageKind page.toNat = some (k, i)) (act : s.mayAct page.toNat m.val) :
    exec (.run m page) s = .next ((s.pageTouch page.toNat 0x00C).runOn page.toNat m.val) := by
  show execRun m page s = _
  rw [execRun, if_pos (populated_of_kind kind), State.action_of_mayAct s act]

theorem runClear_of_mayAct (kind : pageKind page.toNat = some (k, i)) (act : s.mayAct page.toNat m.val) :
    exec (.runClear m page) s = .next ((s.pageTouch page.toNat 0x00C).runOff page.toNat m.val) := by
  show execRunClear m page s = _
  rw [execRunClear, if_pos (populated_of_kind kind), State.action_of_mayAct s act]

theorem hold_of_mayAct (kind : pageKind page.toNat = some (k, i)) (act : s.mayAct page.toNat m.val) :
    exec (.hold m page) s = .next ((s.pageTouch page.toNat 0x00C).holdWrite page.toNat m.val true) := by
  show execHold m page s = _
  rw [execHold, if_pos (populated_of_kind kind), State.action_of_mayAct s act]

theorem holdClear_of_mayAct (kind : pageKind page.toNat = some (k, i)) (act : s.mayAct page.toNat m.val) :
    exec (.holdClear m page) s = .next ((s.pageTouch page.toNat 0x00C).holdWrite page.toNat m.val false) := by
  show execHoldClear m page s = _
  rw [execHoldClear, if_pos (populated_of_kind kind), State.action_of_mayAct s act]

end Writes

/-- ETH and CAN have a RUN of their own and a hold, and are not SEQ (R67). -/
theorem holds_of_port {p i : Nat} {k : Kind} (kind : pageKind p = some (k, i)) (port : k = .eth ∨ k = .can) :
    runAlwaysOne k = false ∧ State.hasHold p = true ∧ p ≠ pgSEQ := by
  have notSeq : p ≠ pgSEQ := by
    rintro rfl
    cases kind
    rcases port with isEth | isCan
    · cases isEth
    · cases isCan
  rcases port with rfl | rfl
  · exact ⟨rfl, by simp [State.hasHold, kind], notSeq⟩
  · exact ⟨rfl, by simp [State.hasHold, kind], notSeq⟩

theorem holdWrite_of_on {s : State} {p : Nat} (hasHold : State.hasHold p = true) (notSeq : p ≠ pgSEQ) (on : s.pageOn p = true)
    (m : Nat) (v : Bool) : s.holdWrite p m v = (s.putB p HDR.CTRL.HOLD v).refreshState p := by
  have stillOn : (s.putB p HDR.CTRL.HOLD v).pageOn p = true := by
    rwa [State.pageOn_putB_off s v 0 p (by decide)]
  simp [State.holdWrite, hasHold, notSeq, stillOn]

theorem holdWrite_seq {s u : State} {m : Nat} (hu : u = s.setWriter m false) (on : u.pageOn pgSEQ = true) (v : Bool) :
    s.holdWrite pgSEQ m v = (u.putB pgSEQ HDR.CTRL.HOLD v).seqRefresh := by
  have stillOn : (u.putB pgSEQ HDR.CTRL.HOLD v).pageOn pgSEQ = true := by
    rwa [State.pageOn_putB_off u v 0 pgSEQ (by decide)]
  have hasHold : State.hasHold pgSEQ = true := rfl
  simp [State.holdWrite, hasHold, State.seqHold, ← hu, stillOn]

section CorePairs
variable {s : State} {m p : Fin 4}

theorem corePairRunOn_of_mayAct (act : s.mayAct (pgCP p.val) m.val) :
    exec (.corePairRunOn m p) s = .next (s.runOn (pgCP p.val) m.val) := by
  show execCorePairRunOn m p s = _
  rw [execCorePairRunOn, State.action_of_mayAct s act, State.pageTouch_pgCP]

theorem corePairRunOff_of_mayAct (act : s.mayAct (pgCP p.val) m.val) :
    exec (.corePairRunOff m p) s = .next (s.runOff (pgCP p.val) m.val) := by
  show execCorePairRunOff m p s = _
  rw [execCorePairRunOff, State.action_of_mayAct s act, State.pageTouch_pgCP]

theorem runOn_cp (on : s.pageOn (pgCP p.val) = true) (free : s.isFenced (pgCP p.val) = false)
    (stopped : s.on (pgCP p.val) HDR.CTRL.RUN = false) (m : Nat) :
    s.runOn (pgCP p.val) m = s.setRun (pgCP p.val) true := by
  simp [State.runOn, pageKind_pgCP, runAlwaysOne, on, free, stopped, State.cpRun]

theorem runOff_cp (on : s.pageOn (pgCP p.val) = true) (free : s.isFenced (pgCP p.val) = false)
    (running : s.on (pgCP p.val) HDR.CTRL.RUN = true) (m : Nat) :
    s.runOff (pgCP p.val) m = s.cpHalt p.val := by
  simp [State.runOff, pageKind_pgCP, runAlwaysOne, on, free, running]

end CorePairs

/-- No channel of a group has a reserved MODE (R376), so the group's start finds none to refuse. -/
theorem dioRun_of_modes {s : State} {g : Nat} (modes : ∀ c < 8, s.get (pgDIOG g) (DIOG.CH_CFG.MODE c) ≤ 4) {v : State}
    (hv : v = forEach (State.dioChans g) (fun u ch => u.setDioRt ch { u.dioRt ch with accepted := false })
      (s.setRun (pgDIOG g) true)) :
    s.dioRun g = if v.seq.running then v.dioRefreshGroup g
      else forEach ((State.dioChans g).filter (fun ch => v.dioIsOut ch)) (fun u ch => u.dioSafe ch) v := by
  have accepted : (List.range 8).find? (fun c => decide (4 < s.get (pgDIOG g) (DIOG.CH_CFG.MODE c))) = none := by
    refine List.find?_eq_none.2 fun c hc => ?_
    simpa using modes c (List.mem_range.1 hc)
  simp only [State.dioRun, accepted, ← hv]

/-- Settles O27: RUN and HOLD are action registers; on a page that is on and not fenced their effect is that of the block's
kind. -/
theorem runHold : Obligations.RunHold := by
  rintro s m page _ k i rfl kind act
  have ⟨_, _, on⟩ := act
  have runs {t : State} (ownRun : runAlwaysOne k = false) (h : s.runOn page.toNat m.val = t) :
      exec (.run m page) s = .next t := by
    rw [run_of_mayAct kind act, pageTouch_of_ownRun kind ownRun, h]
  have halts {t : State} (ownRun : runAlwaysOne k = false) (h : s.runOff page.toNat m.val = t) :
      exec (.runClear m page) s = .next t := by
    rw [runClear_of_mayAct kind act, pageTouch_of_ownRun kind ownRun, h]
  refine ⟨fun always => ⟨?_, ?_⟩, fun fenced ownRun notPlace notTmr notSeq => ⟨?_, ?_⟩,
    fun free stopped u hu => ⟨?_, ?_, ?_, ?_, ?_, ?_, ?_, ?_, ?_, ?_, ?_⟩,
    fun free running u hu => ⟨?_, ?_, ?_, ?_, ?_, ?_⟩, fun noHold => ⟨?_, ?_⟩, fun port => ?_, fun isSeq u hu uOn => ?_,
    fun c isCp free => ?_⟩
  · rw [run_of_mayAct kind act]
    simp [State.runOn, kind, always]
  · rw [runClear_of_mayAct kind act]
    simp [State.runOff, kind, always]
  · refine runs ownRun ?_
    simp [State.runOn, kind, ownRun, fenced]
  · refine halts ownRun ?_
    simp [State.runOff, kind, ownRun, fenced]
  · rintro rfl accepted
    exact runs rfl (by simp [State.runOn, kind, runAlwaysOne, on, free, stopped, State.ethRun, accepted])
  · rintro rfl accepted
    exact runs rfl (by simp [State.runOn, kind, runAlwaysOne, on, free, stopped, State.canRun, accepted])
  · rintro rfl accepted
    exact ⟨_, rfl, runs rfl (by simp [State.runOn, kind, runAlwaysOne, on, free, stopped, State.asrcRun, accepted])⟩
  · rintro rfl accepted
    refine ⟨_, rfl, fun off => runs rfl ?_, fun notOff notError => runs rfl ?_⟩
    · simp [State.runOn, kind, runAlwaysOne, on, free, stopped, State.axRun, accepted, off]
    · simp [State.runOn, kind, runAlwaysOne, on, free, stopped, State.axRun, accepted, notOff, notError]
  · rintro rfl accepted input
    exact runs rfl (by simp [State.runOn, kind, runAlwaysOne, on, free, stopped, State.anaRun, accepted.not_gt, input])
  · rintro rfl modes
    exact ⟨_, rfl, runs rfl (by simp [State.runOn, kind, runAlwaysOne, on, free, stopped, dioRun_of_modes modes rfl])⟩
  · rintro rfl
    exact runs rfl (by simp [State.runOn, kind, runAlwaysOne, on, free, stopped, hu])
  · rintro rfl
    exact runs rfl (by simp [State.runOn, kind, runAlwaysOne, on, free, stopped, hu])
  · rintro rfl
    exact runs rfl (by simp [State.runOn, kind, runAlwaysOne, on, free, stopped, State.cpRun])
  · rintro rfl
    exact runs rfl (by simp [State.runOn, kind, runAlwaysOne, on, free, stopped, State.dwyRun])
  · rintro rfl
    exact ⟨_, rfl, runs rfl (by simp [State.runOn, kind, runAlwaysOne, on, free, stopped, State.angRun])⟩
  · rintro (rfl | rfl | rfl | rfl)
    all_goals exact halts rfl (by simp [State.runOff, kind, runAlwaysOne, on, free, running, hu])
  · rintro rfl
    exact halts rfl (by simp [State.runOff, kind, runAlwaysOne, on, free, running, hu])
  · rintro rfl
    exact halts rfl (by simp [State.runOff, kind, runAlwaysOne, on, free, running, hu])
  · rintro rfl
    exact halts rfl (by simp [State.runOff, kind, runAlwaysOne, on, free, running, hu])
  · rintro rfl
    exact halts rfl (by simp [State.runOff, kind, runAlwaysOne, on, free, running, State.asrcHalt])
  · rintro rfl notHoming
    exact ⟨_, rfl, halts rfl (by simp [State.runOff, kind, runAlwaysOne, on, free, running, State.axHalt, notHoming])⟩
  · rw [hold_of_mayAct kind act]
    simp [State.holdWrite, noHold]
  · rw [holdClear_of_mayAct kind act]
    simp [State.holdWrite, noHold]
  · obtain ⟨ownRun, hasHold, notSeq⟩ := holds_of_port kind port
    constructor
    · rw [hold_of_mayAct kind act, pageTouch_of_ownRun kind ownRun, holdWrite_of_on hasHold notSeq on]
    · rw [holdClear_of_mayAct kind act, pageTouch_of_ownRun kind ownRun, holdWrite_of_on hasHold notSeq on]
  · constructor
    · rw [hold_of_mayAct kind act, isSeq, State.pageTouch_pgSEQ, holdWrite_seq hu uOn]
    · rw [holdClear_of_mayAct kind act, isSeq, State.pageTouch_pgSEQ, holdWrite_seq hu uOn]
  · rw [isCp] at act on free ⊢
    refine ⟨fun stopped => ?_, fun running noTask => ?_, fun running hosts placeOn => ?_⟩
    · rw [corePairRunOn_of_mayAct act, runOn_cp on free stopped]
    · rw [corePairRunOff_of_mayAct act, runOff_cp on free running]
      simp [State.cpHalt, noTask]
    · rw [corePairRunOff_of_mayAct act, runOff_cp on free running]
      simp [State.cpHalt, running, hosts, placeOn]

end Sys2Proof.Proofs

/-! Events and core pairs. -/

namespace Sys2Proof.Proofs
open Sys2Proof.Machine

/-! ### Events -/

theorem event_of_enabled {s : State} {src : Nat} (enabled : s.on pgEVD EVD.ROUTE_DATA.EN src = true)
    (settled : src ∉ s.evd.moving) : s.event src = s.enqueueEvent src s.stnNs false := by
  simp [State.event, enabled, settled]

/-- The two bits of PAIR keep a route's drop counter within its register (R84). -/
theorem routePair_lt (s : State) (src : Nat) : s.get pgEVD EVD.ROUTE_DATA.PAIR src < 4 := bits_lt _ _ _

theorem satAdd_le {m n : Nat} (k : Nat) : satAdd m n k ≤ m := by
  unfold satAdd; split <;> omega

/-- A pair's drop counter (R85) counts an event that is dropped. -/
theorem dropCount_evDrop (s : State) {pair : Nat} (hp : pair < 4) (src : Nat) :
    bits ((s.evDrop pair src).reg pgEVD 0x04C).toNat (8 * pair + 7) (8 * pair) =
      satAdd 255 (bits (s.reg pgEVD 0x04C).toNat (8 * pair + 7) (8 * pair)) 1 := by
  have width : 8 * pair + 7 - 8 * pair + 1 = 8 := by omega
  have fits : 8 * pair + 7 < 32 := by omega
  have counted := State.get_put_same s pgEVD ⟨0x04C, 8 * pair + 7, 8 * pair⟩
    (satAdd 255 (bits (s.reg pgEVD 0x04C).toNat (8 * pair + 7) (8 * pair)) 1) 0 (Nat.le_add_right _ _) fits
  rw [State.evDrop, State.note_reg, State.reg_setFault_ne _ (by decide) (by decide) (by decide) (.inl (by decide)) (by decide)]
  refine counted.trans ?_
  show _ % 2 ^ (8 * pair + 7 - 8 * pair + 1) = _
  rw [width]
  exact Nat.mod_eq_of_lt (Nat.lt_succ_of_le (satAdd_le 1))

theorem evd_evDrop (s : State) (pair src : Nat) : (s.evDrop pair src).evd = s.evd := by
  show ((State.put _ _ _ _).setFault pgEVD 16).evd = _
  simp

/-- The event that `nextEvent` finds (R81): entries of other pairs and of unplaced tasks' sources do not count. -/
theorem nextEvent_eq_some {s : State} {p : Nat} {x : EvEntry} {before after : List EvEntry}
    (queue : s.evd.queue = before ++ x :: after) (mine : x.pair = p) (placed : s.sourceIdle x.src = false)
    (lower : ∀ y ∈ before, y.pair = p → s.sourceIdle y.src = false → y.prio < x.prio)
    (notHigher : ∀ y ∈ after, y.pair = p → s.sourceIdle y.src = false → y.prio ≤ x.prio) : s.nextEvent p = some x := by
  unfold State.nextEvent
  rw [queue, List.filter_append, List.filter_cons_of_pos (by simp [mine, placed])]
  refine takeFold_reaches x _ _ none (fun y hy => ?_) (fun y hy => ?_) nofun
  · obtain ⟨listed, counts⟩ := List.mem_filter.1 hy
    simp only [Bool.and_eq_true, beq_iff_eq, Bool.not_eq_true'] at counts
    exact lower y listed counts.1 counts.2
  · obtain ⟨listed, counts⟩ := List.mem_filter.1 hy
    simp only [Bool.and_eq_true, beq_iff_eq, Bool.not_eq_true'] at counts
    exact notHigher y listed counts.1 counts.2

theorem nextEvent_eq_none {s : State} {p : Nat}
    (idle : ∀ x ∈ s.evd.queue, x.pair = p → s.sourceIdle x.src = true) : s.nextEvent p = none := by
  have nothing : s.evd.queue.filter (fun q => q.pair == p && !s.sourceIdle q.src) = [] := by
    rw [List.filter_eq_nil_iff]
    intro x hx
    simpa using idle x hx
  rw [State.nextEvent, nothing]
  rfl

theorem eventTake_of_none {s : State} {p : Fin 4} (served : s.served = true) (lives : s.pairLives p.val = true)
    (empty : s.nextEvent p.val = none) : exec (.eventTake p) s = .next (s.answer 0) := by
  show execEventTake p s = _
  simp [execEventTake, served, lives, State.eventTake, empty]

theorem eventTake_of_some {s : State} {p : Fin 4} {x : EvEntry} (served : s.served = true) (lives : s.pairLives p.val = true)
    (next : s.nextEvent p.val = some x) : exec (.eventTake p) s = .next (((({ s with evd :=
      { s.evd with queue := State.dropFirst x s.evd.queue } } : State).put (pgCP p.val) CP.EVENT_STAMP x.stamp).routeRelease
      x.src).answer (State.eventWord x)) := by
  show execEventTake p s = _
  simp [execEventTake, served, lives, State.eventTake, next]

/-- Settles O13: the branches of `event`, and for a take the fold of `nextEvent` over the pair's own entries. -/
theorem eventQueue : Obligations.EventQueue := by
  refine ⟨fun s src disabled => ?_, fun s src enabled moving => ?_, fun s src enabled settled room => ?_,
    fun s src enabled settled full => ?_, fun s p served lives idle => ?_,
    fun s p x before after served lives queue mine placed lower notHigher => ?_⟩
  · simp [State.event, disabled]
  · simp [State.event, enabled, moving]
  · rw [event_of_enabled enabled settled]
    simp [State.enqueueEvent, room]
  · have drops : s.event src = s.evDrop (s.get pgEVD EVD.ROUTE_DATA.PAIR src) src := by
      rw [event_of_enabled enabled settled]
      simp [State.enqueueEvent, full.not_gt]
    rw [drops]
    refine ⟨evd_evDrop s _ src, ?_, dropCount_evDrop s (routePair_lt s src) src, ?_⟩
    · rw [State.evDrop, State.note_reg, State.getLsbD_setFault _ (by decide) 16 (by decide)]
      rfl
    · obtain ⟨r, raised, code, page, sub, p0, -, -⟩ := State.note_raised ((s.put pgEVD _ _).setFault pgEVD 16) pgEVD 0x028
        (s.get pgEVD EVD.ROUTE_DATA.PAIR src) [src]
      exact ⟨r, by rw [State.evDrop, raised, State.setFault_recd, State.put_recd], code, page, sub, p0⟩
  · exact eventTake_of_none served lives (nextEvent_eq_none idle)
  · have first : x ∉ before := fun earlier => (lower x earlier mine placed).false
    rw [eventTake_of_some served lives (nextEvent_eq_some queue mine placed lower notHigher), queue,
      dropFirst_append x before after first]

/-! ### Core pairs -/

/-- An access of a task: outside its windows it makes the task lapse (R153). -/
theorem corePairAccess_inTask {s : State} {p : Fin 4} {op : CoreOp} (served : s.served = true) (lives : s.pairLives p.val = true)
    (notMode : op ≠ .fpMode) (notTime : op ≠ .time) (a : BitVec 40) (priv bad corr : Bool) (ecc : Ecc) (k : Fin 32) :
    exec (.corePairAccess p op a priv bad corr ecc k true) s =
      .next (if s.inWindows p.val k.val a.toNat (State.opInfo op).1 = false ∧
          (s.coreAccess p.val a.toNat op priv bad corr ecc).bus.cause = 0
        then (s.coreAccess p.val a.toNat op priv bad corr ecc).lapse k.val 1 a.toNat
        else s.coreAccess p.val a.toNat op priv bad corr ecc) := by
  show execCorePairAccess p op a priv bad corr ecc k true s = _
  cases op with
  | fpMode => contradiction
  | time => contradiction
  | read | write | fetch => simp [execCorePairAccess, served, lives]

theorem corePairAccess_outside {s : State} {p : Fin 4} {op : CoreOp} (served : s.served = true) (lives : s.pairLives p.val = true)
    (notMode : op ≠ .fpMode) (notTime : op ≠ .time) (a : BitVec 40) (priv bad corr : Bool) (ecc : Ecc) (k : Fin 32) :
    exec (.corePairAccess p op a priv bad corr ecc k false) s = .next (s.coreAccess p.val a.toNat op priv bad corr ecc) := by
  show execCorePairAccess p op a priv bad corr ecc k false s = _
  cases op with
  | fpMode => contradiction
  | time => contradiction
  | read | write | fetch => simp [execCorePairAccess, served, lives]

/-- An access that lies whole in DRAM, tier 1 or the pair's own tier 0 is one of memory (R54). -/
theorem coreAccess_memory {s : State} {p a : Nat} {op : CoreOp} {r : Region} (own : r = .dram ∨ r = .tier1 ∨ r = .tier0 p)
    (first : regionOf a = r) (last : regionOf (a + (State.opInfo op).1 - 1) = r) (priv bad corr : Bool) (ecc : Ecc) :
    ∃ tier, tier < 3 ∧ s.coreAccess p a op priv bad corr ecc = s.memAccess p tier a a op bad corr := by
  rcases own with rfl | rfl | rfl
  · exact ⟨2, by decide, by simp [State.coreAccess, first, last]⟩
  · exact ⟨1, by decide, by simp [State.coreAccess, first, last]⟩
  · exact ⟨0, by decide, by simp [State.coreAccess, first, last]⟩

/-- A read that meets no error, of words without one, gives the data and leaves everything (R56). -/
theorem eccRead_clean {s : State} {b n : Nat} (clean : (State.wordsOf b n).any (fun x => s.ecc.contains x) = false)
    (p tier a : Nat) (fetch : Bool) : s.eccRead p tier a b n fetch false false = (s, 0) := by
  rw [State.eccRead, clean]
  rfl

theorem memAccess_read {s : State} {a : Nat} {n : Fin 4}
    (clean : (State.wordsOf a (2 ^ n.val)).any (fun x => s.ecc.contains x) = false) (p tier : Nat) :
    s.memAccess p tier a a (.read n) false false = s.done (s.memRd a (2 ^ n.val)) := by
  rw [State.memAccess]
  dsimp only
  rw [eccRead_clean clean, ite_self]
  rfl

/-- A self-test that detects every injected mismatch ends the READMIT that waits for it, or starts the pair (R59, R413). -/
theorem selftest_passed {s : State} {p : Fin 4} {failed : BitVec 4} (on : s.pageOn (pgCP p.val) = true)
    (passed : (List.range 4).find? (fun i => bitOf failed.toNat i) = none) :
    exec (.lockstepSelftest p failed) s =
      .next (if s.on pgFLT FLT.CMD_STATUS.BUSY && s.get pgFLT FLT.READMIT.ID == pgCP p.val
        then (s.readmitUnit (pgCP p.val)).readmitEnd 0 (pgCP p.val) 0 else s.runOn (pgCP p.val) 0) := by
  show execLockstepSelftest p failed s = _
  simp only [execLockstepSelftest, on, passed]
  rfl

/-- A self-test that misses one fails the pair at the first that it missed. -/
theorem selftest_missed {s : State} {p : Fin 4} {failed : BitVec 4} {i : Nat} (on : s.pageOn (pgCP p.val) = true)
    (missed : (List.range 4).find? (fun i => bitOf failed.toNat i) = some i) :
    exec (.lockstepSelftest p failed) s =
      .next (if s.on pgFLT FLT.CMD_STATUS.BUSY && s.get pgFLT FLT.READMIT.ID == pgCP p.val
        then (s.lockstepFail p.val (0x11 + i)).readmitEnd 0 (pgCP p.val) 4 else s.lockstepFail p.val (0x11 + i)) := by
  show execLockstepSelftest p failed s = _
  simp only [execLockstepSelftest, on, missed]
  rfl

/-- Settles O28: an access goes to memory or by `coreAccess`, a self-test by the first compare point it missed, a take by
`nextEvent`. -/
theorem cores : Obligations.Cores := by
  intro s p
  refine ⟨fun served lives => ⟨fun a n v priv bad corr ecc k r own first last => ⟨?_, fun clean => ?_⟩,
    fun op a priv bad corr ecc k v notMode notTime hv => ⟨?_, ?_⟩, fun k a priv bad corr ecc => ⟨?_, ?_⟩,
    fun q => eventTake_of_some served lives, eventTake_of_none served lives⟩, fun lives pt => ?_,
    fun on => ⟨fun idle => ⟨fun free stopped => ?_, ?_, ?_⟩, fun busy asked => ⟨?_, ?_⟩⟩⟩
  · obtain ⟨tier, -, access⟩ := coreAccess_memory (s := s) (op := .write n v) own first last priv bad corr ecc
    rw [corePairAccess_outside (op := .write n v) served lives nofun nofun, access]
    rfl
  · obtain ⟨tier, -, access⟩ := coreAccess_memory (s := s) (op := .read n) own first last priv false false ecc
    rw [corePairAccess_outside (op := .read n) served lives nofun nofun, access, memAccess_read clean]
  · rw [hv, corePairAccess_outside served lives notMode notTime]
  · rw [hv, corePairAccess_inTask served lives notMode notTime]
  · show execCorePairAccess p .fpMode a priv bad corr ecc k true s = _
    simp [execCorePairAccess, served, lives]
  · show execCorePairAccess p .time a priv bad corr ecc k true s = _
    simp [execCorePairAccess, served, lives]
  · show execLockstepMismatch p pt s = _
    simp [execLockstepMismatch, lives]
  · rw [selftest_passed on (by decide), runOn_cp on free stopped]
    simp [idle]
  · rw [selftest_missed on (i := 0) (by decide)]
    simp [idle]
  · rw [selftest_missed on (i := 2) (by decide)]
    simp [idle]
  · rw [selftest_passed on (by decide)]
    simp [busy, asked]
  · rw [selftest_missed on (i := 3) (by decide)]
    simp [busy, asked]

end Sys2Proof.Proofs

/-! The cycle of a task: its instants, the sequencer's mode, program exchange, and the calls of TMR's cells. -/

namespace Sys2Proof.Proofs
open Sys2Proof.Machine

/-! ### The instants of a task -/

/-- A freeze instant of a running sequencer is the standby's image of a redundant task, or the duty's instant (R91, R97). -/
theorem taskFreeze_at {s : State} {k : Fin 32} {m at_ : Nat} (on : s.pageOn pgSEQ = true) (idle : s.inSequence = false)
    (running : s.seq.running = true) (noStop : s.on pgSEQ SEQ.STATUS.STOP_PENDING = false) (enabled : s.taskOn k.val = true)
    (now : s.atFreeze k.val = some (m, at_)) : exec (.taskFreeze k) s =
      .next (if s.role = 2 then
          (if s.taskRed k.val then s.setTask k.val { s.task k.val with sbFrozen := some (m, s.freezeImage k.val at_) } else s)
        else (s.dwyEvaluateAt k.val m at_).freezeInstant k.val m at_) := by
  show execTaskFreeze k s = _
  simp [execTaskFreeze, on, idle, running, noStop, enabled, now]

/-- A task that runs freezes a cycle. -/
theorem freezeInstant_of_free {u : State} {k : Nat} (noCycle : (u.task k).cur = none) (notShed : u.taskShed k = false)
    (noHold : u.wantsHold k = false) (notHeld : u.taskHeld k = false) (placed : (u.task k).host.isSome = true) (m at_ : Nat) :
    u.freezeInstant k m at_ = u.freeze k m at_ := by
  simp [State.freezeInstant, noCycle, notShed, noHold, notHeld, Option.isSome_iff_ne_none.1 placed]

/-- A task that stays held gains a period of held time, and lapses (R106). -/
theorem freezeInstant_of_held {u : State} {k : Nat} (noCycle : (u.task k).cur = none) (notShed : u.taskShed k = false)
    (hold : u.wantsHold k = true) (noStep : (u.task k).step = false) (held : u.taskHeld k = true) (m at_ : Nat) :
    u.freezeInstant k m at_ =
      ((u.setTask k { u.task k with held := (u.task k).held + (u.taskT k : Int) }).lapsed k).syncWatch := by
  simp [State.freezeInstant, noCycle, notShed, hold, noStep, held]

/-- A publish instant of an enabled task on the duty: what it does to the cycle, then the latch, the move window and
CYCLE_OUT, which repeats the last outputs unless a cycle was published. -/
theorem taskPublish_at {s : State} {k : Fin 32} {m p : Nat} (on : s.pageOn pgSEQ = true) (idle : s.inSequence = false)
    (enabled : s.taskOn k.val = true) (notStandby : s.role ≠ 2) (now : s.atPublish k.val = some (m, p))
    (hasCycle : (s.task k.val).cur.isSome = true) {late published : Bool} {t u : State}
    (does : s.publishInstant k.val m p late = (t, published)) (hu : u = t.latch k.val) : exec (.taskPublish k late) s =
      .next (((if (u.task k.val).cur.isNone then u.moveWindow k.val else u).dwyCycleOut k.val m (!published)).syncWatch) := by
  show execTaskPublish k late s = _
  simp only [execTaskPublish, on, idle, enabled, beq_false_of_ne notStandby, now, hasCycle, does, ← hu]
  rfl

theorem publishInstant_of_done {s : State} {k : Nat} {c : TaskCycle} (cycle : (s.task k).cur = some c) (kept : c.lost = none)
    (done : c.done = true) (m p : Nat) (late : Bool) : s.publishInstant k m p late = (s.publish k p c late, true) := by
  simp [State.publishInstant, cycle, kept, done]

theorem publishInstant_of_running {s : State} {k : Nat} {c : TaskCycle} (cycle : (s.task k).cur = some c) (kept : c.lost = none)
    (running : c.done = false) (own : c.takeover = false) (noStop : s.on pgSEQ SEQ.STATUS.STOP_PENDING = false) (m p : Nat)
    (late : Bool) : s.publishInstant k m p late = (s.overrun k m c, false) := by
  simp [State.publishInstant, cycle, kept, running, own, noStop]

/-- Settles O29: each instant takes the branch of what it finds of the task's cycle, its hold and its shedding. -/
theorem tasks : Obligations.Tasks := by
  intro s k on idle
  refine ⟨fun m at_ running noStop enabled now => ?_, fun c d us outs lines u cycle running kept ready own hd hu => ?_,
    fun m p late enabled notStandby now => ⟨fun c cycle kept done u hu => ?_,
      fun c cycle kept running own noStop u hu => ?_⟩, fun running now => ⟨fun shed => ?_, fun notShed live => ?_⟩⟩
  · have freezes := taskFreeze_at on idle running noStop enabled now
    refine ⟨fun notStandby u hu noCycle notShed => ?_, fun notStandby => ?_, fun standby redundant => ?_⟩
    · rw [if_neg notStandby, ← hu] at freezes
      refine ⟨fun noHold notHeld placed => ?_, fun hold noStep held => ?_⟩
      · rw [freezes, freezeInstant_of_free noCycle notShed noHold notHeld placed]
      · rw [freezes, freezeInstant_of_held noCycle notShed hold noStep held]
    · rw [freezes, if_neg notStandby]
    · rw [freezes, if_pos standby, if_pos redundant]
  · show execTaskExecutionEnd k us outs lines s = _
    simp [execTaskExecutionEnd, cycle, running, kept, ready, on, idle, own, hu, hd]
  · exact taskPublish_at (published := true) on idle enabled notStandby now (by rw [cycle]; rfl)
      (publishInstant_of_done cycle kept done m p late) hu
  · exact taskPublish_at (published := false) on idle enabled notStandby now (by rw [cycle]; rfl)
      (publishInstant_of_running cycle kept running own noStop m p late) hu
  · show execTaskApply k s = _
    simp [execTaskApply, on, idle, running, Option.isSome_iff_ne_none.1 now, shed]
  · show execTaskApply k s = _
    simp [execTaskApply, on, idle, running, Option.isSome_iff_ne_none.1 now, notShed, live]

/-! ### The sequencer's mode -/

/-- A write of an action register of SEQ by its owner has its effect. -/
theorem seq_action {s : State} {m : Nat} (act : s.mayAct pgSEQ m) (off : Nat) (f : State → State) :
    s.action pgSEQ off m f = f s := by
  rw [State.action_of_mayAct s act, State.pageTouch_pgSEQ]

/-- RUN = 1 in Stop: the reason of R101 decides. -/
theorem seqRun_of_stopped {s u : State} {m : Nat} (hu : u = s.setWriter m true) (free : u.isFenced pgSEQ = false)
    (on : u.pageOn pgSEQ = true) (stopped : u.on pgSEQ HDR.CTRL.RUN = false) : s.seqRun m =
      if u.runReason = 0 then (u.put pgSEQ HDR.CTRL.RUN 1).put pgSEQ SEQ.STATUS.RUN_PENDING 1
      else ((u.put pgSEQ SEQ.RUN_INFO.LAST_REFUSAL u.runReason).setFault pgSEQ 17).raise pgSEQ 0x048 0 [u.runReason] := by
  simp [State.seqRun, ← hu, free, on, stopped]

/-- SEQ_HOLD and SEQ_RELEASE are the writes of HOLD to SEQ's page (R67). -/
theorem seqHold_of_on {s u : State} {m : Nat} (hu : u = s.setWriter m false) (on : u.pageOn pgSEQ = true) (v : Bool) :
    s.seqHold m v = (u.putB pgSEQ HDR.CTRL.HOLD v).seqRefresh :=
  holdWrite_seq hu on v

/-- AUTORUN's write of RUN (R103), once in a start, in the name of local firmware. -/
theorem autorun_writes {s : State} (auto : s.on pgSEQ SEQ.CFG.AUTORUN = true) (untouched : s.seq.touched = false)
    (duty : s.duty = true) (reached : s.boot.reachedStop = true) (noMaint : s.boot.maint = false) : exec .autorun s =
      .next ((s.setWriter s.seq.writer true).action pgSEQ 0x00C 0 (fun s => s.seqRun 0)) := by
  show execAutorun s = _
  simp [execAutorun, auto, untouched, duty, reached, noMaint]

/-- Settles O30: SEQ's action registers act for its owner, and each command takes the branch of the mode it finds. -/
theorem seqMode : Obligations.SeqMode := by
  intro s m
  refine ⟨fun act => ⟨fun u hu free on stopped => ?_, fun u hu => ⟨fun pending => ?_, fun notPending running => ?_⟩,
    fun u hu on => ⟨?_, ?_⟩, fun v => congrArg _ (seq_action act _ _), fun v => congrArg _ (seq_action act _ _)⟩,
    fun pending on idle u hu => ?_, fun auto untouched duty reached noMaint u v hu hv => ?_, fun pending closed u hu => ?_⟩
  · have runs : exec (.seqRun m) s = .next (s.seqRun m.val) := congrArg _ (seq_action act _ _)
    rw [runs, seqRun_of_stopped hu free on stopped]
    exact ⟨fun accepted => by rw [if_pos accepted], fun refused => by rw [if_neg refused]⟩
  · refine (congrArg _ (seq_action act _ _)).trans ?_
    simp [State.seqStop, ← hu, pending]
  · refine (congrArg _ (seq_action act _ _)).trans ?_
    simp [State.seqStop, ← hu, notPending, running]
  · exact congrArg _ ((seq_action act _ _).trans (seqHold_of_on hu on true))
  · exact congrArg _ ((seq_action act _ _).trans (seqHold_of_on hu on false))
  · show execRunEntry s = _
    simp [execRunEntry, pending, on, idle, State.runEntry, ← hu]
  · rw [autorun_writes auto untouched duty reached noMaint, ← hu]
    refine ⟨fun act free on stopped noReason => ?_, fun served foreign => ?_⟩
    · rw [seq_action act, seqRun_of_stopped hv free on stopped, if_pos noReason]
    · rw [State.action_refused u served foreign]
  · show execStopComplete s = _
    have noCycle : State.allTasks.all (fun k => (s.task k).cur.isNone) = true := by simpa using closed
    simp [execStopComplete, pending, noCycle, State.stopNow, ← hu]

/-! ### Program exchange -/

/-- A module that is no paired duty, or whose partner has prepared the same image, is not kept back by it (R124). -/
theorem partner_agrees {s : State} {b : Bool} (agreed : s.role = 1 → s.paired = true → b = true) :
    (s.role == 1 && s.paired && !b) = false := by
  simpa using agreed

section Prepared
variable {s : State} {im : StationImage} {map : InstanceMap} {plan : Plan}

/-- A preparation that was built: its reasons in the order in which they are tested (R118, R123). -/
theorem exchangePrepared_built (preparing : s.xchgState = 1) (image : Store.get none s.seq.images s.inactiveSlot = some im)
    (hmap : map = State.instanceMap ((s.seq.image.map (fun o => o.instances)).getD []) im.instances)
    (hplan : plan = (s.exchanged im map).runPlan 3 none) (p : Bool) : exec (.exchangePrepared true p) s =
      .next (if State.needsTooMuch im then (s.xchgRefuse 4 0).xchgActive
        else if !plan.left.isEmpty || !plan.shed.isEmpty || !plan.full.isEmpty then (s.xchgRefuse 5 0).xchgActive
        else if s.role == 1 && s.paired && !p then (s.xchgRefuse 7 0).xchgActive
        else (((({ s with seq := { s.seq with prep := some (im, map, plan) } } : State).put pgSEQ SEQ.XCHG_MATCH.MATCHED
          map.matched).put pgSEQ SEQ.XCHG_MATCH.NEW map.fresh).put pgSEQ SEQ.XCHG_DROP.DROPPED map.dropped).setXchg 2
          |>.raise pgSEQ 0x045 0 [map.matched, map.fresh, map.dropped]) := by
  subst hmap hplan
  show execExchangePrepared true p s = _
  simp only [execExchangePrepared, if_pos preparing, image]

theorem exchangePrepared_unbuilt (preparing : s.xchgState = 1) (p : Bool) : exec (.exchangePrepared false p) s =
    .next (s.xchgRefuse 9 0).xchgActive := by
  show execExchangePrepared false p s = _
  simp only [execExchangePrepared, if_pos preparing]

/-- A plan that places every task leaves none, sheds none and overfills no pair. -/
theorem plan_places_iff : (!plan.left.isEmpty || !plan.shed.isEmpty || !plan.full.isEmpty) = false ↔
    plan.left = [] ∧ plan.shed = [] ∧ plan.full = [] := by
  simp [and_assoc]

end Prepared

/-- Settles O31: the commands are action registers of SEQ; the preparation meets its reasons in order, and the window makes
the exchange. -/
theorem exchange : Obligations.Exchange := by
  intro s m
  refine ⟨fun act => ⟨fun notPreparing notSearching u hu im image ready => ?_,
      fun b notPreparing notSearching prepared ready agreed => ?_, fun pending => ?_, fun searching u hu => ?_⟩,
    fun im p map plan preparing image hmap hplan => ?_, fun p ns prepared searching window inTime alone => ?_,
    fun searching => ?_⟩
  · refine (congrArg _ (seq_action act _ _)).trans ?_
    subst hu
    have image' : Store.get none s.seq.images s.inactiveSlot = some im := image
    have ready' : s.xchgBlocked = false := ready
    simp [notPreparing, notSearching, image', ready']
  · refine (congrArg _ (seq_action act _ _)).trans ?_
    simp only [partner_agrees agreed]
    simp [notPreparing, notSearching, prepared, ready]
  · refine (congrArg _ (seq_action act _ _)).trans ?_
    rcases pending with one | two
    · simp [one]
    · simp [two]
  · refine (congrArg _ (seq_action act _ _)).trans ?_
    simp [searching, hu]
  · have built := exchangePrepared_built preparing image hmap hplan p
    refine ⟨fun fits left shed full agreed => ?_, fun tooMuch => ?_, fun fits noPlace => ?_,
      exchangePrepared_unbuilt preparing p⟩
    · rw [built, fits, plan_places_iff.2 ⟨left, shed, full⟩, partner_agrees agreed]
      rfl
    · rw [built, if_pos tooMuch]
    · rw [built, fits, eq_true_of_ne_false (mt plan_places_iff.1 noPlace)]
      rfl
  · show execExchangeWindow ns s = _
    have isX := And.intro searching (And.intro window (And.intro inTime alone))
    simp only [execExchangeWindow, prepared, if_pos isX, State.applyAt]
  · show execExchangeSearchTimeout s = _
    rw [execExchangeSearchTimeout, if_pos searching]

/-! ### The cells of TMR -/

/-- A call of a cell by its own task as its own type, in a current cycle (R113): the cycle keeps the cell as it was, `u`. -/
theorem cellCall_of_own {s u : State} {k c ty : Nat} {cy : TaskCycle} (cycle : (s.task k).cur = some cy)
    (on : s.pageOn pgTMR = true) (type : s.cellType c = ty) (own : s.cellTask c = k) (hu : u = s.setTask k { s.task k with
      cur := some { cy with cells := if cy.cells.any (fun e => e.1 == c) then cy.cells
                            else cy.cells ++ [(c, s.cellWords c)] } })
    (f : State → Nat → State) : s.cellCall k c ty f = (f u cy.tau).cellKeep c := by
  simp [State.cellCall, cycle, on, type, own, ← hu]

theorem countUp_eq (cv : Int) (cu mem : Bool) :
    State.countUp cv cu mem = if cu = true ∧ mem = false ∧ cv < State.max64 then cv + 1 else cv := by
  simp [State.countUp, and_assoc]

theorem countDown_eq (cv : Int) (cd mem : Bool) :
    State.countDown cv cd mem = if cd = true ∧ mem = false ∧ State.min64 < cv then cv - 1 else cv := by
  simp [State.countDown, and_assoc]

/-- Settles O32: each command is a call of its cell, whose outcome the timers' specifications and the counting steps give. -/
theorem timers : Obligations.Timers := by
  intro s u k c cy tau cycle htau on own hu
  subst htau
  have calls {ty : Nat} (type : s.cellType c.val = ty) (f : State → Nat → State) :
      s.cellCall k.val c.val ty f = (f u cy.tau).cellKeep c.val := cellCall_of_own cycle on type own hu f
  refine ⟨fun stored hstored inp pt o ho => ?_, fun pv up down r ld cv up1 down1 both hcv hup hdown hboth => ?_,
    fun clk mem q => ⟨fun type hmem hq => ?_, fun type hmem hq => ?_⟩, fun type => ⟨?_, ?_⟩, fun ch rising input => ?_⟩
  · subst hstored ho
    refine ⟨fun type => ⟨_, congrArg _ (calls type _), State.ton_spec _ _ _ _⟩,
      fun type => ⟨_, congrArg _ (calls type _), State.tof_spec _ _ _ _⟩,
      fun type => ⟨_, congrArg _ (calls type _), rfl, rfl, State.tp_spec _ _ _ _⟩⟩
  · rw [← countUp_eq] at hup
    rw [← countDown_eq] at hdown hboth
    subst hcv hup hdown hboth
    refine ⟨fun type => congrArg _ (calls type _), fun type => congrArg _ (calls type _), fun type v hv => ?_⟩
    subst hv
    exact congrArg _ (calls type _)
  · subst hmem hq
    exact congrArg _ (calls type _)
  · subst hmem hq
    exact congrArg _ (calls type _)
  · exact congrArg _ (calls type _)
  · exact congrArg _ (calls type _)
  · show execFastEdge ch rising s = _
    simp only [execFastEdge, on, input]
    rfl

end Sys2Proof.Proofs

/-! LPE: its RUN, the samples and writes of its slots, their records, and the folds. -/

namespace Sys2Proof.Proofs
open Sys2Proof.Machine

/-! ### RUN of LPE -/

/-- A write of CTRL of LPE by its owner has its effect. -/
theorem lpe_action {s : State} {m : Nat} (act : s.mayAct pgLPE m) (off : Nat) (f : State → State) :
    s.action pgLPE off m f = f s := by
  rw [State.action_of_mayAct s act, State.pageTouch_pgLPE]

theorem lpeRunOn_of_mayAct {s : State} {m : Fin 4} (act : s.mayAct pgLPE m.val) :
    exec (.lpeRunOn m) s = .next s.lpeRun :=
  congrArg _ (lpe_action act _ _)

theorem lpeRunOff_of_mayAct {s : State} {m : Fin 4} (act : s.mayAct pgLPE m.val) :
    exec (.lpeRunOff m) s = .next s.lpeHalt :=
  congrArg _ (lpe_action act _ _)

/-! ### Samples and the commit of a slot -/

/-- A due slot takes its pending record; if it is then still a slot outside every fold, it samples unless its record has an
uncorrectable error (R169, R172). -/
theorem loopSample_due {s u : State} {n : Fin 1024} (samples : s.lpeSamples = true) (enabled : s.lEnabled n.val = true)
    (noFold : s.lFoldEn n.val = false) (due : s.lTriggered n.val = true) (hu : u = s.lTakeDue n.val) (ecc : Ecc) :
    exec (.loopSample n ecc) s = .next (if u.lEnabled n.val && !u.lFoldEn n.val then
      (if (u.lAccess n.val ecc).2 then (u.lAccess n.val ecc).1.loopSample n.val else (u.lAccess n.val ecc).1) else u) := by
  show execLoopSample n ecc s = _
  simp only [execLoopSample, samples, enabled, noFold, due, ← hu]
  rcases u.lAccess n.val ecc with ⟨v, _ | _⟩
  · rfl
  · rfl

theorem lTakeDue_of_taking {s : State} {n : Nat} (applying : s.on pgLPE LPE.STATUS.APPLYING = true)
    (taking : s.lpe.taking.contains n = true) : s.lTakeDue n = s.lTake n := by
  rw [State.lTakeDue, applying, taking]
  rfl

/-- A slot that does not sample takes the checked commit a second after the check (R169). -/
theorem slotCommitTimeout_of_disabled {s : State} {n : Fin 1024} (active : s.active pgLPE = true)
    (on : s.pageOn pgLPE = true) (past : s.lpe.checked + 1000000000 ≤ s.e) (disabled : s.lEnabled n.val = false)
    (noFold : s.lFoldEn n.val = false) : exec (.slotCommitTimeout n) s = .next (s.lTakeDue n.val) := by
  show execSlotCommitTimeout n s = _
  simp [execSlotCommitTimeout, active, on, past, disabled, noFold]

/-! ### The write instant -/

theorem loopDelay_onTime {s : State} {n : Nat} {w : LoopWrite} (pending : (s.loopRt n).write = some w) (now : w.at_ = s.e) :
    s.loopDelay n = 0 := by
  simp [State.loopDelay, pending, now]

/-- A value that is written at its write instant clears LATE and reaches the slot's output entry as it is (R164). -/
theorem loopWriteOut_onTime {s : State} {n i : Nat} {w : LoopWrite} (pending : (s.loopRt n).write = some w)
    (now : w.at_ = s.e) (out : s.lBind n 0x014 = some i) (noStat : s.lBind n 0x030 = none) (due : Nat) {u : State}
    (hu : u = s.setLoopRt n { s.loopRt n with write := none }) : s.loopWriteOut n due =
      (u.setLw n 0x0B0 (BitVec.ofNat 32 (putBits (u.lw n 0x0B0).toNat 12 12 0))).loopOut i w.value w.qual := by
  simp [State.loopWriteOut, pending, now, out, noStat, ← hu, b2n]

/-- A write acts at the time its command reports (R159), on the slot or on the whole of its fold. -/
theorem loopOutputWrite_at {s : State} {n : Fin 1024} {delay : BitVec 64} (samples : s.lpeSamples = true)
    (reported : delay = BitVec.ofNat 64 (s.loopDelay n.val)) (due : BitVec 16) : exec (.loopOutputWrite n delay due) s =
      .next (if s.lFoldEn n.val then (forEach (s.foldMembers (s.lFold n.val))
        (fun u k => u.loopWriteOut k due.toNat) s).foldWriteOut (s.lFold n.val) else s.loopWriteOut n.val due.toNat) := by
  show execLoopOutputWrite n delay due s = _
  simp [execLoopOutputWrite, samples, reported]

/-! ### Record writes -/

theorem loopRecordWrite_next (s : State) (n : Fin 1024) (w : Fin 64) (v : Word) (ecc : Ecc) :
    exec (.loopRecordWrite n w v ecc) s = .next (s.recordWrite n.val w.val v ecc) := rfl

section RecordWrites
variable {s : State} {w : Nat} (n : Nat) (v : Word)

/-- A configuration word goes to the shadow and makes the slot's record pending (R166, R169). -/
theorem recordWrite_staged (on : s.pageOn pgLPE = true) (config : w < 40) : s.recordWrite n w v .good =
    { s with lpe := { s.lpe with shad := Store.set 0 s.lpe.shad (64 * n + w) (v &&& State.lMask w)
                                 pend := insNum n s.lpe.pend } } := by
  simp [State.recordWrite, State.lAccess, on, config]

/-- A Live word takes its value at once (R166). -/
theorem recordWrite_live (on : s.pageOn pgLPE = true) (notConfig : 40 ≤ w) (live : w < 43) :
    s.recordWrite n w v .good = s.setLw n (4 * w) (v &&& State.lMask w) := by
  simp [State.recordWrite, State.lAccess, on, notConfig.not_gt, live]

/-- A state word takes its value in Stop; otherwise only the value that it has is accepted (R166). -/
theorem recordWrite_state (on : s.pageOn pgLPE = true) (notLive : 44 ≤ w) (state : w < 60) :
    s.recordWrite n w v .good =
      if s.st pgLPE = 2 then s.setLw n (4 * w) (v &&& State.lMask w)
      else if s.lw n (4 * w) = v &&& State.lMask w then s
      else (s.setFault pgLPE 0).raise pgLPE 0x011 := by
  have past : ¬ w < 40 ∧ ¬ w < 43 ∧ ¬ (w < 44 ∨ 60 ≤ w) := by omega
  obtain ⟨notConfig, notCommand, writable⟩ := past
  simp [State.recordWrite, State.lAccess, on, notConfig, notCommand, writable]

end RecordWrites

/-! ### Folds -/

/-- A due fold and its members take what is pending; the slots that have left the fold sample alone, and the members that it
then has are evaluated together (R185, R186, R192). -/
theorem foldSample_due {s u v : State} {f : Fin 128} {n : Fin 1024} (samples : s.lpeSamples = true)
    (due : s.foldDue f.val = true) (hu : u = s.foldTakes f.val) (other : (u.foldMembers f.val).contains n.val = false)
    (hv : v = forEach ((s.foldMembers f.val).filter (fun k => u.lEnabled k && !u.lFoldEn k)) (fun u k => u.loopSample k) u)
    (ecc : Ecc) : exec (.foldSample f n ecc) s =
      .next (if v.foldOn f.val && !(v.foldMembers f.val).isEmpty then v.foldSample f.val (v.foldMembers f.val) else v) := by
  show execFoldSample f n ecc s = _
  simp only [execFoldSample, samples, due, ← hu, other, Bool.false_eq_true, if_false, if_true, ← hv]

/-- Settles O34: RUN is an action of LPE's owner; a sample, a commit and a write act at their instants; a record word goes
where its class of R166 says. -/
theorem loops : Obligations.Loops := by
  intro s
  refine ⟨fun m act => ⟨fun stopped => ?_, fun running => ?_⟩,
    fun samples n ecc u v enabled noFold due hu => ⟨fun still stillNoFold access => ?_, fun disabled => ?_⟩,
    fun n active on past disabled noFold applying taking => ?_,
    fun samples n due => ⟨fun w i noFold pending now u hu v hv out noStat => ?_, fun fold => ?_⟩,
    fun n w v on => ⟨fun config => ?_, fun notConfig live => ?_, fun notLive state stop => ?_,
      fun notLive state notStop differs => ?_⟩,
    fun samples f n ecc u v due hu other hv foldOn members => ?_⟩
  · rw [lpeRunOn_of_mayAct act]
    simp [State.lpeRun, stopped]
  · rw [lpeRunOff_of_mayAct act]
    simp [State.lpeHalt, running]
  · refine ⟨_, _, rfl, rfl, ?_⟩
    rw [loopSample_due samples enabled noFold due hu, still, stillNoFold, access]
    rfl
  · rw [loopSample_due samples enabled noFold due hu, disabled]
    rfl
  · rw [slotCommitTimeout_of_disabled active on past disabled noFold, lTakeDue_of_taking applying taking]
  · have reported : (0 : BitVec 64) = BitVec.ofNat 64 (s.loopDelay n.val) := by
      rw [loopDelay_onTime pending now, BitVec.ofNat_eq_ofNat]
    rw [loopOutputWrite_at samples reported, noFold, if_neg Bool.false_ne_true, hv,
      loopWriteOut_onTime pending now out noStat due.toNat hu]
  · rw [loopOutputWrite_at samples rfl, fold, if_pos rfl]
  · rw [loopRecordWrite_next, recordWrite_staged n.val v on config]
  · rw [loopRecordWrite_next, recordWrite_live n.val v on notConfig live]
  · rw [loopRecordWrite_next, recordWrite_state n.val v on notLive state, if_pos stop]
  · rw [loopRecordWrite_next, recordWrite_state n.val v on notLive state, if_neg notStop, if_neg differs]
  · rw [foldSample_due samples due hu other hv]
    simp [foldOn, members]

end Sys2Proof.Proofs

/-! LPT: the commands of a trace channel wait with it (R201, R202). -/

namespace Sys2Proof.Proofs
open Sys2Proof.Machine

/-- A write of LPT by its owner has its effect. -/
theorem lpt_action {s : State} {m : Nat} (act : s.mayAct pgLPT m) (off : Nat) (f : State → State) :
    s.action pgLPT off m f = f s := by
  rw [State.action_of_mayAct s act, State.pageTouch_pgLPT]

section TraceCommands
variable {s : State} {m : Fin 4} (act : s.mayAct pgLPT m.val) (c : Fin 16)
include act

theorem traceArm_of_mayAct : exec (.traceArm c m) s = .next (s.traceCommand c.val 1) :=
  congrArg _ (lpt_action act _ _)

theorem traceForce_of_mayAct : exec (.traceForce c m) s = .next (s.traceCommand c.val 2) :=
  congrArg _ (lpt_action act _ _)

theorem traceStop_of_mayAct : exec (.traceStop c m) s = .next (s.traceCommand c.val 3) :=
  congrArg _ (lpt_action act _ _)

theorem armAll_of_mayAct (mask : BitVec 16) : exec (.armAll mask m) s =
    .next (forEach ((List.range 16).filter (fun c => mask.getLsbD c)) (fun u c => u.traceCommand c 1) s) :=
  congrArg _ (lpt_action act _ _)

end TraceCommands

/-- Settles O35: each command of LPT is an action of its owner, and its effect is that `State.traceCommand` adds its code
to the waiting commands of the channel, or with ARM_ALL of each channel of the mask. -/
theorem traceCapture : Obligations.TraceCapture := by
  intro s m act waits hwaits
  have waits_eq : waits = State.traceCommand := hwaits
  rw [waits_eq]
  exact ⟨fun c => ⟨traceArm_of_mayAct act c, traceForce_of_mayAct act c, traceStop_of_mayAct act c⟩,
    armAll_of_mayAct act⟩

end Sys2Proof.Proofs

/-! The angle sources: the events of an encoder, the wire, standstill, crossings of the mains, and the read of ANGLE. -/

namespace Sys2Proof.Proofs
open Sys2Proof.Machine

section RunningSource
variable {s : State} {n : Fin 4} (runs : s.srcRuns n.val = true)
include runs

theorem encoderCount_count (fwd : Bool) (age : Fin 21) :
    exec (.encoderCount n (.count fwd) age) s = .next (s.srcCount n.val fwd (s.e - 10 * age.val)) :=
  congrArg _ (if_pos runs)

/-- The zero mark references an encoder that uses it, and an axis that homes on it takes it (R210). -/
theorem encoderCount_zref (encoder : s.srcMode n.val = 1) (zeroMark : s.on (pgASRC n.val) ASRC.CFG.Z_EN = true)
    (age : Fin 21) : exec (.encoderCount n .zref age) s = .next (((s.srcReference n.val
      (State.srcResidue (s.srcCpr n.val) (s.asrcRt n.val).c) 0).slotsRefine n.val).axIndex n.val age.val) :=
  congrArg _ ((if_pos runs).trans (if_pos ⟨encoder, zeroMark⟩))

theorem encoderCount_quad (encoder : s.srcMode n.val = 1) (age : Fin 21) : exec (.encoderCount n .quad age) s =
    .next (((s.incMod (pgASRC n.val) ASRC.QUAD_CNT).setFault (pgASRC n.val) 19).raise (pgASRC n.val) 0x0C5 1 [n.val]) :=
  congrArg _ ((if_pos runs).trans (if_pos encoder))

theorem encoderCount_rate (age : Fin 21) : exec (.encoderCount n .rate age) s =
    .next (((s.setFault (pgASRC n.val) 20).raise (pgASRC n.val) 0x0C5 2 [n.val]).srcLost n.val) :=
  congrArg _ (if_pos runs)

theorem wire_stands : exec (.wire n true) s = .next ((((s.cond (pgASRC n.val) 18 true).setFault (pgASRC n.val) 18).raise
    (pgASRC n.val) 0x0C5 0 [n.val]).srcLost n.val) :=
  congrArg _ (if_pos runs)

theorem wire_ends : exec (.wire n false) s = .next (s.cond (pgASRC n.val) 18 false) :=
  congrArg _ (if_pos runs)

end RunningSource

/-! ### The mains sources -/

section Crossing
variable {s t : State} {inp : Fin 4} {vrms : Word} {pll4 pll5 : PllOut}

/-- Of a crossing on an input that ASRC4 reads and ASRC5 does not, only ASRC4 takes notice. -/
theorem mainsCrossing_of_first (reads4 : s.get (pgASRC 4) ASRC.MAINS.INPUT = inp.val)
    (crosses : s.srcCross 4 vrms pll4 = t) (notReads5 : t.get (pgASRC 5) ASRC.MAINS.INPUT ≠ inp.val) :
    exec (.mainsCrossing inp vrms pll4.phase pll4.w pll5.phase pll5.w) s = .next t := by
  show execMainsCrossing inp vrms pll4.phase pll4.w pll5.phase pll5.w s = _
  simp [execMainsCrossing, reads4, crosses, notReads5]

theorem mainsCrossing_of_second (notReads4 : s.get (pgASRC 4) ASRC.MAINS.INPUT ≠ inp.val)
    (reads5 : s.get (pgASRC 5) ASRC.MAINS.INPUT = inp.val) (crosses : s.srcCross 5 vrms pll5 = t) :
    exec (.mainsCrossing inp vrms pll4.phase pll4.w pll5.phase pll5.w) s = .next t := by
  show execMainsCrossing inp vrms pll4.phase pll4.w pll5.phase pll5.w s = _
  simp [execMainsCrossing, notReads4, reads5, crosses]

end Crossing

theorem mainsSignalLost_of_running {s : State} {i : Fin 2} (runs : s.srcRuns (4 + i.val) = true)
    (found : s.srcState (4 + i.val) = 2 ∨ s.srcState (4 + i.val) = 3) :
    exec (.mainsSignalLost i) s = .next (s.srcLost (4 + i.val)).syncWatch := by
  show execMainsSignalLost i s = _
  simp [execMainsSignalLost, runs, found]

/-- Settles O36: a running source takes each of its events; a crossing is `State.srcCross` of the one source that reads the
input, and every name of the statement is a step of that function. -/
theorem angleSources : Obligations.AngleSources := by
  intro s
  refine ⟨fun n runs => ⟨encoderCount_count runs, fun age encoder => ⟨fun zeroMark => encoderCount_zref runs encoder zeroMark age,
      encoderCount_quad runs encoder age⟩, encoderCount_rate runs, wire_stands runs, wire_ends runs, fun locked past => ?_⟩,
    fun i runs => ⟨?_, mainsSignalLost_of_running runs⟩, fun n served on => ?_⟩
  · exact congrArg _ (if_pos (by simp [runs, locked, past]))
  · intro inp vrms pll4 pll5 pll pg n ang dt a lock bad x1 hz volts inBand u v w x y t hn hpg hpll hhz hband hvolts hang hx1 hdt
      ha hlock hbad hu hv hw hx hy ht onFirst onSecond
    have crosses : s.srcCross n vrms pll = t := by
      subst hn hpg hhz hband hvolts hang hx1 hdt ha hlock hbad hu hv hw hx hy ht
      exact if_pos runs
    have oneOfTwo : n = 4 ∨ n = 5 := by omega
    rcases oneOfTwo with rfl | rfl
    · obtain ⟨reads4, notReads5⟩ := onFirst rfl
      obtain rfl : pll = pll4 := hpll
      exact mainsCrossing_of_first reads4 crosses notReads5
    · obtain ⟨notReads4, reads5⟩ := onSecond rfl
      obtain rfl : pll = pll5 := hpll
      exact mainsCrossing_of_second notReads4 reads5 crosses
  · exact congrArg _ (if_pos (by simp [served, on]))

end Sys2Proof.Proofs

/-! The event slots of ANG: SLOT_CMD, and the issue of an action. -/

namespace Sys2Proof.Proofs
open Sys2Proof.Machine

/-- A write of ANG by its owner has its effect. -/
theorem ang_action {s : State} {m : Nat} (act : s.mayAct pgANG m) (off : Nat) (f : State → State) :
    s.action pgANG off m f = f s := by
  rw [State.action_of_mayAct s act, State.pageTouch_pgANG]

section SlotCommand
variable {s : State} {m : Fin 4} {k : Nat} (act : s.mayAct pgANG m.val) (named : k = s.get pgANG ANG.SLOT_INDEX.SLOT)
  (notSync : s.slotAct k ≠ 7)
include act named notSync

theorem slotArm_of_mayAct (active : s.active pgANG = true) (enabled : s.slotEn k = true) :
    exec (.slotArm m) s = .next (s.slotApplied k) := by
  refine (congrArg _ (ang_action act _ _)).trans ?_
  simp [← named, notSync, active, enabled]

theorem slotDisarm_of_mayAct : exec (.slotDisarm m) s = .next (s.slotArmed k false) := by
  refine (congrArg _ (ang_action act _ _)).trans ?_
  simp [← named, notSync]

end SlotCommand

/-- An enabled slot of a running ANG is armed, and aimed from the angle of its source (R221). -/
theorem slotApplied_of_enabled {s u : State} {k : Nat} (active : s.active pgANG = true) (enabled : s.slotEn k = true)
    (notSync : s.slotAct k ≠ 7) (hu : u = s.slotArmed k true) : s.slotApplied k = u.slotAim k (u.angX (u.slotSrc k)) := by
  simp [State.slotApplied, active, enabled, notSync, hu]

/-- The lowest slot that is due issues, one in 10 ns, and is late where its instant is past (R223, R225). -/
theorem actionIssue_due {s : State} {k : Fin 256} {p : Nat} (active : s.active pgANG = true)
    (predicted : (s.angSlot k.val).pred = some p) (due : s.slotDue k.val p = true) (reached : p ≤ s.e)
    (free : s.sync.issued ≠ s.e + 1) (lowest : ∀ j < k.val, s.slotDue j p = false) :
    exec (.actionIssue k (decide (p < s.e))) s = .next (s.slotIssue k.val (if p < s.e then 1 else 0)) := by
  show execActionIssue k (decide (p < s.e)) s = _
  simpa [execActionIssue, predicted, active, due, reached, free] using fun j below isDue =>
    absurd isDue (by simp [lowest j below])

/-- What the issue of an action is, for a slot with a target and a predicted instant that has come (R220, R224). -/
theorem slotIssue_of_aimed {s v w r : State} {k p : Nat} {x : Int} (cause : Nat) (aimed : (s.angSlot k).tgt = some x)
    (predicted : (s.angSlot k).pred = some p) (reached : p ≤ s.e)
    (hv : v = ((s.put pgANG ANG.SLOT_STAT.LAST_CAUSE cause k).incMod pgANG ANG.SLOT_FIRED 1 k).incMod pgANG ANG.FIRED_TOTAL)
    (hw : w = if s.slotMerged k then v else v.slotAction k)
    (hr : r = if s.slotQuiet k then s.put pgANG ANG.SLOT_STAT.LAST_CAUSE 4 k
      else (if s.slotF k 0 19 19 = 1 then ({ w with sync := { w.sync with issued := s.e + 1 } } : State).event (0x200 + k)
        else ({ w with sync := { w.sync with issued := s.e + 1 } } : State)).slotLate k cause (s.e - p)) :
    s.slotIssue k cause = if s.slotF k 0 23 22 = 2 then r.slotArmed k false else r.slotAim k x := by
  have late : ((s.e : Int) - p).natAbs = s.e - p := by omega
  subst hr hw hv
  simp only [State.slotIssue, aimed, predicted, late]

/-- Settles O37: SLOT_CMD arms by `State.slotApplied` and disarms by `State.slotArmed`; the slot that is due issues by
`State.slotIssue`. -/
theorem angleSlots : Obligations.AngleSlots := by
  refine fun s => ⟨fun m k act named notSync => ⟨fun active enabled u hu => ?_, slotDisarm_of_mayAct act named notSync⟩, ?_⟩
  · rw [slotArm_of_mayAct act named notSync active enabled, slotApplied_of_enabled active enabled notSync hu]
  · intro k p x cause v w r active predicted aimed due reached free lowest hcause hv hw hr
    rw [actionIssue_due active predicted due reached free lowest, ← hcause,
      slotIssue_of_aimed cause aimed predicted reached hv hw hr]

end Sys2Proof.Proofs

/-! The automatic synchroniser: a request, the freeze, the close, the feedback, and the aborts by time. -/

namespace Sys2Proof.Proofs
open Sys2Proof.Machine

/-- A request that finds the breaker open starts the synchroniser; one that finds it closed aborts (R229, R233). -/
theorem syncRequest_idle {s : State} (active : s.active pgANG = true) (enabled : s.on pgANG ANG.SYNC_CFG.EN = true)
    (idle : s.syncState = 0) (asked : s.syncReq = true) (notStandby : s.get pgPAIR PAIR.STATUS.ROLE ≠ 2) :
    exec .syncRequest s = .next (if s.on pgANG ANG.SYNC_CFG.FB_VALID && s.dioLevel (s.get pgANG ANG.SYNC_CFG.FB_CH)
      then s.syncAbort 3
      else ((s.setSync { s.sync with inRun := s.seqRuns }).put pgANG ANG.SYNC_STATE.REASON 0).setSyncState 1) :=
  congrArg _ (if_pos (by simp [active, enabled, idle, asked, notStandby]))

theorem syncFreeze_near {s u : State} (hu : u = s.syncWatch) (active : u.active pgANG = true) (approaching : u.syncState = 2)
    (near : u.sync.ti ≤ u.e + 2000000) : exec .syncFreeze s = .next (u.setSyncState 3) := by
  subst hu
  exact congrArg _ (if_pos (by simp [active, approaching, near]))

theorem syncFeedback_closing {s : State} (closing : s.syncState = 4) (feedback : s.on pgANG ANG.SYNC_CFG.FB_VALID = true)
    {us phi : Nat} (hus : us = (s.e - s.sync.ti) / 1000) (hphi : phi = unsigned 32 (s.syncPhiAt s.e)) :
    exec .syncFeedback s = .next ((((s.put pgANG ANG.SYNC_TCLOSE_MEAS us).put pgANG ANG.SYNC_PHI_CONTACT phi).raise pgANG
      0x0CA 0 [us, phi, State.milli s.sync.slip]).setSyncState 5) := by
  subst hus hphi
  exact congrArg _ (if_pos ⟨closing, feedback⟩)

/-- Settles O38: each command meets its guard, after the watch of the abort conditions where its instant is an approach. -/
theorem synchroniser : Obligations.Synchroniser := by
  refine fun s => ⟨fun active enabled idle asked notStandby => ?_, fun u hu => syncFreeze_near hu,
    fun u k v w x hu active frozen reached hk hv hw hx => ?_,
    fun closing feedback => ⟨fun us phi => syncFeedback_closing closing feedback, congrArg _ (if_pos ⟨closing, feedback⟩)⟩,
    fun pulse u hu => ?_, fun early => congrArg _ (if_pos early)⟩
  · have request := syncRequest_idle active enabled idle asked notStandby
    refine ⟨fun feedback closed => ?_, fun notClosed => ?_⟩
    · rw [request, feedback, closed, Bool.and_self, if_pos rfl]
    · have isOpen : (s.on pgANG ANG.SYNC_CFG.FB_VALID && s.dioLevel (s.get pgANG ANG.SYNC_CFG.FB_CH)) = false :=
        Bool.and_eq_false_iff.2 notClosed
      rw [request, isOpen, if_neg Bool.false_ne_true]
  · subst hu hk hv hw hx
    exact congrArg _ (if_pos (by simp [active, frozen, reached]))
  · subst hu
    exact congrArg _ (if_pos pulse)

end Sys2Proof.Proofs

/-! The axes: their commands, the events of motion, gearing, switches and homing, and the faults of supply and bridges. -/

namespace Sys2Proof.Proofs
open Sys2Proof.Machine

/-! ### Commands of an axis -/

theorem axCommand_waiting {s u : State} {n code k : Nat} (on : s.pageOn (pgAX n) = true)
    (waits : s.axWaiting n = some (code, k, u)) : s.axCommand n code = u.axDo n code k := by
  simp [State.axCommand, on, waits]

/-- A command is refused for the reason that its target `t` gives, else obeyed (R242, R243). -/
theorem axDo_eq {u : State} {n code k : Nat} {t : Int}
    (ht : t = if code = 2 then (if u.axState n = 2 ∨ u.axState n = 4 then (u.axRt n).tgt else u.axPos n) + (u.axRt n).tgtIn
      else (u.axRt n).tgtIn) :
    u.axDo n code k = (u.axReason n code k t).elim (u.axObey n code k t) fun reason => u.axRefuse n reason code := by
  subst ht
  simp only [State.axDo]
  split
  next reason => rw [reason, Option.elim_some]
  next reason => rw [reason, Option.elim_none]

/-- The effect of each code (R242, R248, R255), by a split on it: applied to a literal, `axObey` would be compared with the effect by
unfolding both. -/
theorem axObey_code (u : State) (n code k : Nat) (t : Int) :
    (code = 1 ∨ code = 2 → u.axObey n code k t = u.axMove n k t 2) ∧
    (code = 3 → u.axObey n code k t = if t = 0 then u.axStop n (u.axDec n k) false
      else (u.setAxRt n { u.axRt n with plan := 2, prof := k, vneg := decide (t < 0), openAtRest := false }).axGo n 3) ∧
    (code = 4 → u.axObey n code k t = if u.axState n = 6 then u.axHomeAbort n 3
      else u.axStop n (u.axDec n (u.axRt n).prof) false) ∧
    (code = 5 → u.axObey n code k t = if u.axState n = 6 then u.axHomeAbort n 3 else u.axStop n (u.axQdec n) false) ∧
    (code = 6 → u.axObey n code k t = ((u.put (pgAX n) AX.STATUS.HOMED 0).setAxRt n { u.axRt n with
      home := 1, homeFrom := (u.axRt n).p, plan := 2, prof := u.get (pgAX n) AX.HOME_CFG.PROFILE
      vneg := u.on (pgAX n) AX.HOME_CFG.DIR, openAtRest := false }).axGo n 6) ∧
    (code = 7 → u.axObey n code k t = u.axGearIn n) ∧
    (code = 8 → u.axObey n code k t = u.axStop n (u.axDec n k) false) := by
  unfold State.axObey
  split
  case h_9 => simp_all
  all_goals simp

/-- Settles O39: each of the eight commands is `State.axCommand` of its code, which obeys or refuses the command that waits. -/
theorem axisCommands : Obligations.AxisCommands := by
  intro s u n code k t on waits ht
  refine ⟨fun accepted => ?_, fun reason r refused hr => ?_⟩
  · have obeys : ∀ {c v}, code = c → u.axObey n.val code k t = v → (.next (s.axCommand n.val c) : Out) = .next v := by
      rintro c v rfl rfl
      rw [axCommand_waiting on waits, axDo_eq ht, accepted, Option.elim_none]
    obtain ⟨moves, runs, stops, quickStops, homes, gearsIn, gearsOut⟩ := axObey_code u n.val code k t
    refine ⟨fun hc => obeys hc (moves (.inl hc)), fun hc => obeys hc (moves (.inr hc)),
      fun hc still => obeys hc ((runs hc).trans (if_pos still)), fun hc moving => obeys hc ((runs hc).trans (if_neg moving)),
      fun hc => obeys hc (stops hc), fun hc => obeys hc (quickStops hc), fun hc v hv => ?_,
      fun hc => obeys hc (gearsIn hc), fun hc => obeys hc (gearsOut hc)⟩
    subst hv
    exact obeys hc (homes hc)
  · have refuses : ∀ c, code = c → (.next (s.axCommand n.val c) : Out) = .next r := by
      rintro c rfl
      rw [axCommand_waiting on waits, axDo_eq ht, refused, Option.elim_some, hr, State.axRefuse]
    exact ⟨refuses 1, refuses 2, refuses 3, refuses 4, refuses 5, refuses 6, refuses 7, refuses 8⟩

/-! ### Gearing -/

theorem gearRatioApplied_of_crossing {s : State} {n : Fin 8} {b : Int} (geared : s.axState n.val = 5)
    (crossed : ((s.axSeeBell n.val).axRt n.val).gat = some b) :
    exec (.gearRatioApplied n) s = .next ((s.axSeeBell n.val).gearCross n.val b) := by
  show execGearRatioApplied n s = _
  simp only [execGearRatioApplied, geared, if_true, crossed]

/-- Outside an engagement of FOLLOW 2 the anchor is the coordinate of the crossing, and the path goes on (R250). -/
theorem gearCross_of_coordinate {u : State} {n : Nat} {b : Int} {q : Int × Nat}
    (hq : q = if (u.axRt n).gwait then ((u.axRt n).gnum, (u.axRt n).gden)
      else (u.axRt n).gnew.getD ((u.axRt n).gnum, (u.axRt n).gden))
    (noPath : ((u.axRt n).gwait && u.get (pgAX n) AX.GEAR_CFG.FOLLOW == 2) = false) :
    u.gearCross n b = (u.setAxRt n { u.axRt n with
      gwait := false, gnew := none, gat := none, ba := b
      pa := if (u.axRt n).gwait then u.axPos n else u.axP n b
      gnum := q.1, gden := max 1 q.2 }).raise (pgAX n) 0x0E6 n [unsigned 32 q.1, max 1 q.2, unsigned 32 b] := by
  subst hq
  simp only [State.gearCross, noPath, Bool.false_eq_true, if_false]

/-- An engagement of FOLLOW 2 starts the path at its crossing (R250, assumption 254). -/
theorem gearCross_of_path {u : State} {n : Nat} {b : Int}
    (path : ((u.axRt n).gwait && u.get (pgAX n) AX.GEAR_CFG.FOLLOW == 2) = true) :
    u.gearCross n b = (u.setAxRt n { u.axRt n with
      gwait := false, gnew := none, gat := none, ba := 0, pa := u.axPos n, gden := max 1 (u.axRt n).gden
      gpath := (u.axRt n).gpath - b }).raise (pgAX n) 0x0E6 n
        [unsigned 32 (u.axRt n).gnum, max 1 (u.axRt n).gden, unsigned 32 0] := by
  obtain ⟨waits, follows⟩ := Bool.and_eq_true_iff.1 path
  simp only [State.gearCross, waits, follows, Bool.and_self, if_true]

/-- The fault of a lag above LAG_MAX, and its record where the interval allows one (R251). -/
theorem gearLag_exceeded {s : State} {n : Fin 8} {lag : Int} (geared : s.axState n.val = 5)
    (hlag : lag = signed 32 (s.get (pgAX n.val) AX.LAG)) (exceeded : s.get (pgAX n.val) AX.GEAR_CFG.LAG_MAX < lag.natAbs) :
    exec (.gearLag n) s = .next (if s.mayRecord (0x0E700 + n.val)
      then ((s.setFault (pgAX n.val) 23).markRecord (0x0E700 + n.val)).raise (pgAX n.val) 0x0E7 n.val [unsigned 32 lag]
      else s.setFault (pgAX n.val) 23) := by
  subst hlag
  exact congrArg _ (if_pos ⟨geared, exceeded⟩)

/-! ### Switches -/

/-- A level that qualifies shows in STATUS; an active one captures, aborts homing or stops (R252, R254 to R256). -/
theorem switchQualified_of_qualified {s u : State} {n : Fin 8} {sw : Fin 3} {w : AxSwitch} {active : Bool}
    (on : s.pageOn (pgAX n.val) = true) (qualifies : s.axQualifies n.val sw.val = true) (hw : w = s.axSwitch n.val sw.val)
    (level : (w.last == s.on (pgAX n.val) (State.axSwPol sw.val)) = active)
    (hu : u = (s.putB (pgAX n.val) (State.axSwF sw.val) active).setAxSwitch n.val sw.val { w with cand := none }) :
    exec (.switchQualified n sw active (w.cand.getD (s.axPos n.val))) s = .next (if !active then u
      else if s.axState n.val = 6 then
        (if (s.axRt n.val).home = 1 ∧ s.axHomeSw n.val = sw.val then u.axCapture n.val (w.cand.getD (s.axPos n.val))
        else if sw.val < 2 ∧ s.axHomeSw n.val ≠ sw.val then u.axHomeAbort n.val 1 else u)
      else if sw.val = 0 ∧ (s.axRt n.val).v < 0 ∨ sw.val = 1 ∧ 0 < (s.axRt n.val).v then
        ((u.setFault (pgAX n.val) 20).raise (pgAX n.val) 0x0E4 n.val [sw.val]).axStop n.val (u.axQdec n.val) false
      else u) := by
  subst hu hw
  exact congrArg _ (if_pos (by simp [on, qualifies, level]))

/-- A raw edge away from the qualified level is the candidate, or chatter while one stands (R252, R253). -/
theorem chatter_of_away {s u : State} {n : Fin 8} {sw : Fin 3} {lv : Bool} {w : AxSwitch} (on : s.pageOn (pgAX n.val) = true)
    (valid : s.on (pgAX n.val) (State.axSwValid sw.val) = true) (hw : w = s.axSwitch n.val sw.val) (edge : w.raw ≠ some lv)
    (hu : u = s.setAxSwitch n.val sw.val { w with raw := some lv }) (away : lv ≠ s.axSwLevel n.val sw.val) :
    exec (.chatter n sw lv) s = .next (if w.cand.isSome
      then u.axChat n.val sw.val s.clk.ref
      else u.setAxSwitch n.val sw.val { w with raw := some lv, cand := some (s.axPosAt n.val 0), candAt := s.clk.ref }) := by
  subst hu hw
  exact congrArg _ ((if_neg (by simp [on, valid, edge])).trans (if_neg (by simpa using away)))

/-! ### Events of the axes -/

/-- Settles O40: each event meets the guard of its command; a crossing takes its branch by FOLLOW, a qualified switch by
homing and the direction of motion, a raw edge by the candidate. -/
theorem axisEvents : Obligations.AxisEvents := by
  intro s n pg hpg
  subst hpg
  refine ⟨fun moves onTarget moving => ?targetReached,
    fun geared => ⟨?ratioApplied, ?pathStarted, ?lagExceeded, ?sourceLost⟩,
    fun sw w u on qualifies hw hu => ⟨?inactive, ?active⟩,
    fun u hu homing phase plan onTarget reference w hw => ?homed,
    fun sw lv w x es u v on valid hw edge hu away => ⟨fun first => ?candidate, fun stands hx hes hv => ?chatter⟩,
    fun i coils rest noPlan idle => congrArg _ (if_pos ⟨coils, rest, noPlan, idle⟩)⟩
  case targetReached =>
    exact congrArg _ ((if_neg (by simp [moves, onTarget])).trans (if_pos moving))
  case ratioApplied =>
    rintro u b q c rfl crossed hq noPath rfl
    rw [gearRatioApplied_of_crossing geared crossed, gearCross_of_coordinate hq noPath]
  case pathStarted =>
    rintro u b rfl crossed path
    rw [gearRatioApplied_of_crossing geared crossed, gearCross_of_path path]
  case lagExceeded =>
    intro lag hlag exceeded
    rw [gearLag_exceeded geared hlag exceeded]
    exact ⟨fun due => congrArg _ (if_pos due), fun early => congrArg _ (if_neg (by simp [early]))⟩
  case sourceLost =>
    exact fun lost => congrArg _ (if_pos ⟨geared, lost⟩)
  case inactive =>
    intro level
    have inactive : (w.last == s.on (pgAX n.val) (State.axSwPol sw.val)) = false := beq_false_of_ne level
    rw [switchQualified_of_qualified on qualifies hw inactive (hu.trans (by rw [inactive]))]
    rfl
  case active =>
    intro level
    have active : (w.last == s.on (pgAX n.val) (State.axSwPol sw.val)) = true := beq_iff_eq.2 level
    rw [switchQualified_of_qualified on qualifies hw active (hu.trans (by rw [active]))]
    refine ⟨fun homing search named => ?_, fun notHoming toward => ?_⟩
    · exact congrArg _ ((if_pos homing).trans (if_pos ⟨search, named⟩))
    · exact congrArg _ ((if_neg notHoming).trans (if_pos toward))
  case homed =>
    subst hu hw
    exact congrArg _ (if_pos ⟨homing, phase, plan, onTarget, by simp [reference]⟩)
  case candidate =>
    rw [chatter_of_away on valid hw edge hu away, if_neg (by simp [first])]
  case chatter =>
    rw [chatter_of_away on valid hw edge hu away, if_pos stands, State.axChat, ← hx, ← hes, ← hv]

/-! ### Faults of the motor supply and the bridges -/

theorem axVmotFault_eq {s bad : State} {sub mv : Nat} (hbad : bad = forEach [0, 1, 2, 3] (fun u n =>
      ((((u.put (pgAX n) AX.BRIDGE.VMOT_MV mv).put (pgAX n) AX.STATUS.VMOT_OK 0).cond (pgAX n) 16 true).setFault (pgAX n)
        16).axFaulted n) s) : s.axVmotFault sub mv = bad.raise (pgAX 0) 0x0E9 sub [mv] := by
  rw [hbad, State.axVmotFault]

/-- Settles O41: each condition of the motor supply is entered by its limits from another zone, each bridge fault by its
measurement. -/
theorem axisFaults : Obligations.AxisFaults := by
  refine fun s => ⟨fun mv bad on hbad => ⟨fun below entered => ?missing, fun above entered => ?tooHigh,
    fun atLeast below entered => ?low, fun atLeast atMost entered => ?restored⟩, fun n ph on => ⟨fun driven => ?overcurrent,
      fun holds driven rest => ?openCoil, fun temp => ⟨fun warm => ?thermalWarning, fun hot => ?thermalShutdown⟩⟩⟩
  case missing =>
    have notAgain : ¬ (s.flt.conds.contains (faultKey (pgAX 0) 16) && s.vmotZone == 0) = true := by
      rcases entered with noFault | otherZone
      · rw [noFault, Bool.false_and]
        exact Bool.false_ne_true
      · simp [otherZone]
    rw [← axVmotFault_eq hbad]
    exact congrArg _ ((if_neg (by simp [on, below])).trans (if_neg notAgain))
  case tooHigh =>
    rw [← axVmotFault_eq hbad]
    exact congrArg _ ((if_neg (by simp [on, above])).trans (if_neg (by simp [entered])))
  case low =>
    have newLow : ¬ (s.vmotZone == 1 || (s.vmotZone == 0 && decide (mv.toNat < 18500))) = true := by
      rcases entered with wasTooHigh | wasInRange | ⟨wasMissing, restored⟩
      · simp [wasTooHigh]
      · simp [wasInRange]
      · simp [wasMissing, restored]
    exact congrArg _ ((if_neg (by simp [on, atLeast, below])).trans (if_neg newLow))
  case restored =>
    show execVmotRestored mv s = _
    rw [execVmotRestored, if_neg (by simp [on, atLeast, atMost]), if_neg (by simp [entered])]
  case overcurrent =>
    exact congrArg _ (if_pos (by simp [on, driven]))
  case openCoil =>
    exact congrArg _ (if_pos (by simp [on, holds, driven, rest]))
  case thermalWarning =>
    exact congrArg _ (if_pos (by simp [on, warm]))
  case thermalShutdown =>
    exact congrArg _ (if_pos (by simp [on, hot]))

end Sys2Proof.Proofs

/-! A tick of the reference, and the counters of TIME with their domains. -/

namespace Sys2Proof.Proofs
open Sys2Proof.Machine

/-! ### The tick -/

theorem step_of_empty {s : State} (empty : s.pending = []) : step s = .next s.idle := by
  rw [step, empty]

/-- The queue is no part: a state that differs in it alone agrees in every part. -/
theorem same_of_pending {q : Part} {s t : State} {l : List Instr} (h : q.same { s with pending := l } t) : q.same s t := by
  cases q <;> exact h

theorem idle_of_unpowered {s : State} (noPd0 : s.boot.pd0 = false) (noPd1 : s.pd1 = false) : s.idle = s := by
  simp [State.idle, onlyIf, noPd0, noPd1]

/-- Settles O2: the frame of a tick pins the parts that it does not list, and its queue is the old one with commands behind. -/
theorem emptyQueueTicks : Obligations.EmptyQueueTicks := by
  refine ⟨fun s => step_of_empty, fun s => ?_, fun s => idle_of_unpowered⟩
  obtain ⟨joined, kept⟩ := idle_grown (W := outside tickParts) s (frees_outside _)
  exact ⟨fun q unlisted => same_of_pending (kept.pin q (outside_iff.2 unlisted)), joined, kept.queue⟩

/-! ### The counters of TIME -/

section
variable {s : State}

theorem ptpTimestamp_of_room (room : s.tsFifo.length < 64) (port : Fin 4) (sent : Bool) (ty : BitVec 4) (d : BitVec 8)
    (sq : BitVec 16) : exec (.ptpTimestamp port sent ty d sq) s = .next (({ s with tsFifo := s.tsFifo ++ [{
      w0 := BitVec.ofNat 32 (2 ^ 31 + b2n sent * 2 ^ 30 + port.val * 2 ^ 28 + ty.toNat * 2 ^ 24 + d.toNat * 2 ^ 16 + sq.toNat)
      stn := BitVec.ofNat 32 s.stnNs, stp := BitVec.ofNat 32 s.stpNs }] } : State).event 0x322) :=
  if_pos room

theorem ptpTimestamp_of_full (full : 64 ≤ s.tsFifo.length) (port : Fin 4) (sent : Bool) (ty : BitVec 4) (d : BitVec 8)
    (sq : BitVec 16) {u : State} (hu : u = (s.incMod pgTIME TIME.TS_OVF).setFault pgTIME 25) :
    exec (.ptpTimestamp port sent ty d sq) s = .next (if u.mayRecord 0x1500 then
      (u.markRecord 0x1500).raise pgTIME 0x10C 0 [u.get pgTIME TIME.TS_OVF] else u) := by
  subst hu
  exact if_neg (Nat.not_lt.2 full)

theorem domainLost_of_over {x : Fin 2} (watched : s.domLost x.val = false) (overdue : s.syncOver x.val = true) :
    exec (.domainLost x) s = .next ((((((s.put pgTIME (State.syncOkF x.val) 0).setDomLost x.val true).setFault pgTIME
      (20 + x.val)).cond pgTIME (20 + x.val) true).raise pgTIME 0x107 0 [x.val]).domLostEffects x.val) :=
  if_neg (by simp [watched, overdue])

theorem residualCleared_of_change (changing : s.stpState = 2) : exec .residualCleared s =
    .next (((s.setStpRes 0).setStpState 1).raise pgTIME 0x105 0
      [s.stpDom, ((s.clk.ref - s.clk.changeAt) * 10 + 500) / 1000]) :=
  if_neg (not_not.2 changing)

theorem stnNsRead_of_served (served : s.served = true) (stp : Bool) : exec (.stnNsRead stp) s = .next (if stp then
      (({ s with bus := { data := BitVec.ofNat 64 s.stpNs } } : State).put pgTIME TIME.STP_SNAP_HI s.clk.stpHi.toNat)
    else (({ s with bus := { data := BitVec.ofNat 64 s.stnNs } } : State).put pgTIME TIME.STN_SNAP_HI s.clk.stnHi.toNat)) := by
  cases stp <;> exact if_neg (by simp [served])

end

/-- Settles O42: each command of TIME's counters in the branch that its conditions name. -/
theorem timeCounters : Obligations.TimeCounters := by
  intro s
  refine ⟨rfl, rfl, fun port sent ty d sq => ⟨fun room => ptpTimestamp_of_room room .., fun full u hu => ⟨?unrecorded, ?recorded⟩⟩,
    fun served => congrArg _ (if_pos served), fun port d ident sp => rfl, fun x watched overdue => domainLost_of_over watched overdue,
    fun x overdue => congrArg _ (if_pos overdue), residualCleared_of_change, fun lim r hlim => ⟨?stampFar, ?stationFar⟩,
    fun served => ⟨stnNsRead_of_served served true, stnNsRead_of_served served false⟩⟩
  case unrecorded =>
    intro limited
    rw [ptpTimestamp_of_full full port sent ty d sq hu, limited]
    rfl
  case recorded =>
    intro allowed
    rw [ptpTimestamp_of_full full port sent ty d sq hu, allowed]
    rfl
  case stampFar =>
    intro hr far
    subst hlim hr
    exact if_pos far
  case stationFar =>
    intro hr far
    subst hlim hr
    exact if_pos far

end Sys2Proof.Proofs

/-! The Ethernet ports: their queues, launched frames, transmit descriptors, reception, lost LANs and links. -/

namespace Sys2Proof.Proofs
open Sys2Proof.Machine

/-! ### Transmission -/

section
variable {s : State} {port : Fin 4}

theorem txqTail_of_mayAct {m : Fin 4} (act : s.mayAct (pgETH port.val) m.val) (tail : BitVec 10) {q : Nat}
    (hq : q = s.get (pgETH port.val) ETH.TXQ_INDEX.QUEUE) : exec (.txqTail port m tail) s = .next (
      if 2 ≤ port.val ∧ q = 7 then s.raise (pgETH port.val) 0x184 0 [q, 0xFFFF]
      else (s.put (pgETH port.val) ETH.TXQ_TAIL.TAIL tail.toNat q).setEthRt port.val
        { s.ethRt port.val with stopped := delNum q (s.ethRt port.val).stopped }) := by
  subst hq
  exact congrArg _ ((s.action_of_mayAct act _ _).trans (by rw [State.pageTouch_pgETH]))

theorem rxqTail_of_mayAct {m : Fin 4} (act : s.mayAct (pgETH port.val) m.val) (tail : BitVec 10) :
    exec (.rxqTail port m tail) s = .next (s.put (pgETH port.val) ETH.RXQ_TAIL.TAIL tail.toNat
      (s.get (pgETH port.val) ETH.RXQ_INDEX.QUEUE)) :=
  congrArg _ ((s.action_of_mayAct act _ _).trans (by rw [State.pageTouch_pgETH]))

/-- A running port looks at the descriptor at HEAD of its first ready queue. -/
theorem txWriteBack_of_ready {q : Nat} (runs : s.ethRuns port.val = true) (noSequence : s.inSequence = false)
    (first : txNext s port.val = some q) : exec (.txWriteBack port) s =
      if !bitOf (s.memRd (s.txDesc port.val q + 4) 4) 31 then
        .next (s.setEthRt port.val { s.ethRt port.val with stopped := insNum q (s.ethRt port.val).stopped })
      else if s.badDesc port.val q then .next (s.txBad port.val q)
      else if !s.on (pgETH port.val) ETH.STATUS.LINK then .next s
      else .next ((s.txWire port.val q).txReturn port.val q 1 s.stnNs) := by
  show execTxWriteBack port s = _
  rw [execTxWriteBack, runs, noSequence, first]
  rfl

/-- A good descriptor at HEAD of a launch-time queue, on a running port with its link: the frame goes by its launch instant. -/
theorem frameLaunch_of_good {q : Fin 8} {late : Nat} (runs : s.ethRuns port.val = true) (noSequence : s.inSequence = false)
    (launches : s.ltEn port.val q.val = true) (ready : s.txReady port.val q.val = true)
    (own : bitOf (s.memRd (s.txDesc port.val q.val + 4) 4) 31 = true) (good : s.badDesc port.val q.val = false)
    (link : s.on (pgETH port.val) ETH.STATUS.LINK = true)
    (hlate : late = (s.stnNs + 2 ^ 32 - s.memRd (s.txDesc port.val q.val + 8) 4) % 2 ^ 32) : exec (.frameLaunch port q) s =
      if late ≤ 2 ^ 31 then
        (if (s.ethRt port.val).held.contains q.val || decide (late ≤ 1000) then
          .next (if s.wireBusy port.val || s.ltWaits port.val q.val (s.memRd (s.txDesc port.val q.val + 8) 4) then
            s.setEthRt port.val { s.ethRt port.val with held := insNum q.val (s.ethRt port.val).held }
          else s.ltSend port.val q.val 1)
        else if s.get pgTIME (TIME.LT_CFG.LATE_SEND (port.val * 8 + q.val)) = 1 then
          .next (if s.wireBusy port.val then s else (s.ltSend port.val q.val 2).ltLate port.val q.val late 1)
        else .next ((s.txReturn port.val q.val 3 0).ltLate port.val q.val late 0))
      else if 1000000000 < 2 ^ 32 - late then .next ((s.txReturn port.val q.val 4 0).ltLate port.val q.val 0 0)
      else .next s := by
  subst hlate
  show execFrameLaunch port q s = _
  rw [execFrameLaunch, if_neg (by simp [runs, noSequence, launches, ready]), if_neg (by simp [own]), if_neg (by simp [good]),
    if_neg (by simp [link])]

theorem not_launched_now {held : Bool} {late : Nat} (notHeld : held = false) (tooLate : 1000 < late) :
    ¬ (held || decide (late ≤ 1000)) = true := by
  simp [notHeld, tooLate]

end

/-! ### Reception -/

section
variable {s : State} {port : Fin 4}

theorem lanSeen_of_single (single : s.prp = false) (p : Nat) : s.lanSeen p = s := by
  simp [State.lanSeen, single]

theorem frameReceive_of_badFcs (on : s.pageOn (pgETH port.val) = true) (f : List Byte) :
    exec (.frameReceive port false f) s = .next ((s.lanSeen port.val).dropCount port.val 24) := by
  show execFrameReceive port false f s = _
  rw [execFrameReceive, on]
  rfl

/-- On a running ship port outside a PRP pair nothing is a duplicate. -/
theorem frameReceive_of_single {f : List Byte} (on : s.pageOn (pgETH port.val) = true) (ship : port.val < 2)
    (single : s.prp = false) (runs : s.ethRuns port.val = true) (long : 14 ≤ f.length)
    (short : f.length ≤ rxLimit s port.val f) :
    exec (.frameReceive port true f) s = .next ((s.lanSeen port.val).rxAfterDup port.val false f) := by
  show execFrameReceive port true f s = _
  rw [execFrameReceive, if_neg (by simp [on]), if_neg (by simp [Nat.not_lt.2 long, Nat.not_lt.2 short]), if_pos ship,
    if_neg (by simp [runs, single]), single]
  rfl

/-- Without a rule, the port's own drop and a storm limit, a frame goes to the queue of its priority. -/
theorem rxAfterDup_of_unlimited {p q : Nat} {f : List Byte} {h : RxFrame} (single : s.prp = false) (hh : h = parseFrame f)
    (noRule : s.ruleOf p h = none) (noDrop : s.on (pgETH p) ETH.CFG.DEF_DROP = false)
    (noLimit : s.get (pgETH p) (ETH.STORM.RATE (if h.da = 2 ^ 48 - 1 then 0 else if h.da / 2 ^ 40 % 2 = 1 then 1 else 2)) = 0)
    (hq : q = if h.tagged then h.pcp else 0) :
    s.rxAfterDup p false f = (s.stormRefill p).rxDeliver p p q false 0x7FF f := by
  subst hh hq
  have noRate : (s.stormRefill p).get (pgETH p) (ETH.STORM.RATE (if (parseFrame f).da = 2 ^ 48 - 1 then 0
    else if (parseFrame f).da / 2 ^ 40 % 2 = 1 then 1 else 2)) = 0 := noLimit
  simp only [State.rxAfterDup, noRule, single, noDrop, noRate, Bool.false_and, Bool.and_false, Bool.false_eq_true, if_false,
    Option.isSome_none, Option.getD_none, ne_eq, not_true_eq_false, false_and, if_true]

/-- A free descriptor with its buffer in tiers 1 and 2 takes the frame. -/
theorem rxDeliver_of_free {p q d a : Nat} {f : List Byte} {w : State}
    (hd : d = s.rxqBase p q + s.get (pgETH p) ETH.RXQ_HEAD.HEAD q * 16)
    (ha : a = s.memRd d 4 + bits (s.memRd (d + 8) 4) 7 0 * 2 ^ 32)
    (free : ¬ (s.get (pgETH p) ETH.RXQ_SIZE.SIZE q = 0 ∨ s.get (pgETH p) ETH.RXQ_HEAD.HEAD q = s.get (pgETH p)
      ETH.RXQ_TAIL.TAIL q ∨ bitOf (s.memRd (d + 4) 4) 31 = false))
    (inside : inTier12 a f.length = true)
    (hw : w = (((((s.memPut a f).memWr (d + 4) 4 (b2n (decide (p = 0)) * 2 ^ 30 + b2n (decide (p = 1)) * 2 ^ 29 +
      f.length % 4096 * 2 ^ 16 + 0x7FF)).memWr (d + 12) 4 s.stpNs).put (pgETH p) ETH.RXQ_HEAD.HEAD
        ((s.get (pgETH p) ETH.RXQ_HEAD.HEAD q + 1) % s.get (pgETH p) ETH.RXQ_SIZE.SIZE q) q).incMod (pgETH p) ETH.RX_CNT)) :
    s.rxDeliver p p q false 0x7FF f = if s.get (pgETH p) ETH.RXQ_SIZE.EVT q = 1 then w.event (0x338 + p) else w := by
  subst hw
  dsimp only [State.rxDeliver]
  rw [← hd, ← ha, if_neg free, if_pos inside, ite_self, show b2n false * 2 ^ 28 = 0 from Nat.zero_mul _,
    Nat.add_zero (b2n (decide (p = 0)) * 2 ^ 30 + b2n (decide (p = 1)) * 2 ^ 29)]

/-! ### LANs and links -/

theorem lanLost_of_silent {lan : Fin 2} (pair : s.prp = true) (present : (s.ethRt lan.val).lanLost = false)
    (on : s.pageOn (pgETH lan.val) = true)
    (silent : (s.ethRt lan.val).lanAt + 100000 * s.get (pgETH 0) ETH.CFG.LAN_TMO ≤ s.clk.ref) :
    exec (.lanLost lan) s = .next (((((s.put (pgETH lan.val) ETH.STATUS.LAN_OK 0).setFault (pgETH lan.val) 17).cond
      (pgETH lan.val) 17 true).setEthRt lan.val { s.ethRt lan.val with lanLost := true }).raise (pgETH lan.val) 0x181 0
        [lan.val]) :=
  if_neg (by simp [pair, present, on, silent])

/-- A new speed that is none or an advertised one. -/
theorem ethLink_of_change {p v : Nat} {t : State} (new : v ≠ s.get (pgETH p) ETH.STATUS.SPEED)
    (advertised : v = 0 ∨ bitOf (s.get (pgETH p) ETH.CFG.ADV) (v - 1) = true)
    (ht : t = (((s.put (pgETH p) ETH.STATUS.SPEED v).putB (pgETH p) ETH.STATUS.LINK (decide (v ≠ 0))).raise (pgETH p) 0x180
      (if v = 0 then 0 else 1) [if v = 1 then 10 else if v = 2 then 100 else if v = 3 then 1000 else 0]).event (0x34C + p)) :
    ethLink p v s = if v = 0 then (t.setFault (pgETH p) 16).cond (pgETH p) 16 true else t.cond (pgETH p) 16 false := by
  subst ht
  refine if_neg ?_
  rintro (same | ⟨up, notAdvertised⟩)
  · exact new same
  · exact advertised.elim up fun adv => Bool.false_ne_true (notAdvertised.symm.trans adv)

theorem linkChange_of_ship {v : Fin 4} (on : s.pageOn (pgETH port.val) = true) (ship : port.val < 2) :
    exec (.linkChange port v) s = .next (ethLink port.val v.val s) :=
  congrArg _ ((if_pos on).trans (if_pos ship))

/-- On the ring Droveway's rate and capacity follow the link. -/
theorem linkChange_of_ring {v : Fin 4} {w : State} (on : s.pageOn (pgETH port.val) = true) (ring : 2 ≤ port.val)
    (hw : w = (ethLink port.val v.val s).putB pgDWY DWY.STATUS.RATE_1G ((ethLink port.val v.val s).ringByteNs == 8)) :
    exec (.linkChange port v) s = .next (if w.get (pgETH 2) ETH.STATUS.SPEED == 1 && w.get (pgETH 3) ETH.STATUS.SPEED == 1 then
      w.setFault pgDWY 17 else w.dwyCapacity) := by
  subst hw
  exact congrArg _ ((if_pos on).trans (if_neg (Nat.not_lt.2 ring)))

end

/-- Settles O44: each command of a port in the branch that its conditions name. -/
theorem ethernet : Obligations.Ethernet := by
  rintro s port _ rfl
  refine ⟨fun m act tail => ⟨fun q hq => ⟨fun plain => ?txqTail, fun ring seven => ?ringQueue⟩, rxqTail_of_mayAct act tail⟩,
    fun runs noSequence => ⟨fun q first => ⟨fun notOwn => ?stops, fun own bad => ?bad, fun own good link => ?sent⟩,
      fun q late launches ready own good link hlate => ⟨fun onTime b hb => ⟨fun waits => ?waits, fun free w hw => ?launched⟩,
        fun tooLate past notHeld => have notNow := not_launched_now notHeld tooLate; ⟨fun lateSend idle w hw => ?sentLate, fun drops => ?droppedLate⟩,
        fun ahead tooEarly => ?tooEarly⟩⟩,
    fun on => ⟨frameReceive_of_badFcs on, fun f ship single runs long short => ?received, fun v t u new advertised ht hu =>
      have linked := (ethLink_of_change new (advertised.imp_left Fin.val_eq_zero_iff.2) ht).trans hu.symm
      ⟨fun ship => ?shipLink, fun ring w hw => ⟨fun faster => ?ringLink, fun slow2 slow3 => ?slowRing⟩⟩⟩,
    fun lan pair present on silent => lanLost_of_silent pair present on silent⟩
  case txqTail =>
    rw [txqTail_of_mayAct act tail hq, if_neg (by omega)]
  case ringQueue =>
    rw [txqTail_of_mayAct act tail hq, if_pos ⟨ring, seven⟩]
  case stops =>
    rw [txWriteBack_of_ready runs noSequence first, if_pos (by simp [notOwn])]
  case bad =>
    rw [txWriteBack_of_ready runs noSequence first, if_neg (by simp [own]), if_pos bad]
  case sent =>
    rw [txWriteBack_of_ready runs noSequence first, if_neg (by simp [own]), if_neg (by simp [good]), if_neg (by simp [link])]
  case waits =>
    rw [frameLaunch_of_good runs noSequence launches ready own good link hlate, if_pos (by omega), if_pos (by simp [onTime]),
      if_pos (hb.symm.trans waits)]
  case launched =>
    rw [frameLaunch_of_good runs noSequence launches ready own good link hlate, if_pos (by omega), if_pos (by simp [onTime]),
      if_neg (by simp [← hb, free]), hw, State.ltSend]
  case sentLate =>
    rw [frameLaunch_of_good runs noSequence launches ready own good link hlate, if_pos past.le,
      if_neg notNow, if_pos lateSend, if_neg (by simp [idle]), hw, State.ltSend]
  case droppedLate =>
    rw [frameLaunch_of_good runs noSequence launches ready own good link hlate, if_pos past.le,
      if_neg notNow, if_neg drops]
  case tooEarly =>
    rw [frameLaunch_of_good runs noSequence launches ready own good link hlate, if_neg (Nat.not_le.2 ahead), if_pos tooEarly]
  case received =>
    have accepted := frameReceive_of_single on ship single runs long short
    refine ⟨accepted, fun h q u d a w hh noRule noDrop noLimit hq hu hd ha free inside hw => ?_⟩
    rw [accepted, lanSeen_of_single single, rxAfterDup_of_unlimited single hh noRule noDrop noLimit hq, ← hu,
      rxDeliver_of_free hd ha free inside hw]
  case shipLink =>
    rw [linkChange_of_ship on ship, linked]
  case ringLink =>
    rw [linkChange_of_ring on ring (linked.symm ▸ hw), if_neg (by simp [faster])]
  case slowRing =>
    rw [linkChange_of_ring on ring (linked.symm ▸ hw), if_pos (by simp [slow2, slow3])]

end Sys2Proof.Proofs

/-! CAN reception, the acknowledgement of receive entries, bus errors, recovery and automatic bit rate (R339, R346 to R349). -/

namespace Sys2Proof.Proofs
open Sys2Proof.Machine

/-! ### Reception -/

/-- A frame of bit-rate detection is a classic one: the first good one is noted, the second ends the detection. -/
theorem canReceive_of_abr {s : State} {can : Fin 4} {w0 : BitVec 32}
    (detects : s.on (pgCAN can.val) CAN.STATUS.ABR_ACTIVE = true) (classic : bitOf w0.toNat 29 = false)
    (took : BitVec 32) (rr brs esi : Bool) (dlc : Fin 16) (data : List Byte) :
    exec (.canReceive can took rr w0 brs esi dlc data) s =
      if (s.canRt can.val).abrGood = 0 then .next (s.setCanRt can.val { s.canRt can.val with abrGood := 1 })
      else .next (((((s.setReg (pgCAN can.val) 0x044 (Config.abrTiming (abrRates.getD (s.canRt can.val).abrCand 10))).put
        (pgCAN can.val) CAN.ABR.RATE (abrRates.getD (s.canRt can.val).abrCand 10)).put (pgCAN can.val)
          CAN.STATUS.ABR_ACTIVE 0).setCanRt can.val { s.canRt can.val with abrGood := 0 }).raise (pgCAN can.val) 0x1A3 0
            [abrRates.getD (s.canRt can.val).abrCand 10]) :=
  (if_pos detects).trans (if_neg (Bool.eq_false_iff.1 classic))

section OnBus
variable {s : State} {can : Fin 4} (noAbr : s.on (pgCAN can.val) CAN.STATUS.ABR_ACTIVE = false)
  (onBus : s.on (pgCAN can.val) CAN.STATUS.ON_BUS = true) (notOff : s.get (pgCAN can.val) CAN.STATUS.ERR_STATE ≠ 2)
include noAbr onBus notOff

/-- A protocol exception event: the FD frame's res bit is recessive, and PEX takes it as no error. -/
theorem canReceive_of_pex {w0 : BitVec 32} (fd : bitOf w0.toNat 29 = true) (pex : s.on (pgCAN can.val) CAN.CFG.PEX = true)
    (took : BitVec 32) (brs esi : Bool) (dlc : Fin 16) (data : List Byte) :
    exec (.canReceive can took true w0 brs esi dlc data) s = .next (s.incMod (pgCAN can.val) CAN.PEX_CNT) := by
  show execCanReceive can took true w0 brs esi dlc data s = _
  rw [execCanReceive, if_neg (by simp [noAbr]), if_neg (by simp [onBus, notOff]), if_pos (by simp [fd]), if_pos pex]

/-- A classic frame, outside listen-only mode, takes REC down and meets the rules. -/
theorem canReceive_of_classic {w0 : BitVec 32} (classic : bitOf w0.toNat 29 = false)
    (speaks : s.on (pgCAN can.val) CAN.CFG.LISTEN = false)
    (took : BitVec 32) (rr brs esi : Bool) (dlc : Fin 16) (data : List Byte) {rec0 : Nat} {u : State}
    (hrec : rec0 = s.get (pgCAN can.val) CAN.ERR.REC)
    (hu : u = s.canCounters can.val (s.get (pgCAN can.val) CAN.ERR.TEC) (if 127 < rec0 then 127 else rec0 - 1)) :
    exec (.canReceive can took rr w0 brs esi dlc data) s = .next (canOffer can.val false w0.toNat (b2n brs * 2 + b2n esi)
      dlc.val ((s.stpNs + 2 ^ 32 - took.toNat) % 2 ^ 32) data u) := by
  subst hrec hu
  show execCanReceive can took rr w0 brs esi dlc data s = _
  rw [execCanReceive, if_neg (by simp [noAbr]), if_neg (by simp [onBus, notOff]), if_neg (by simp [classic]), speaks]
  simp only [Bool.false_eq_true, if_false]

end OnBus

section Offer
variable {s : State} {n w0 i : Nat} (matched : canRuleOf s n w0 false = some i)
include matched

/-- The rule that matches a classic frame of another station accepts it. -/
theorem canOffer_of_accepted (accepts : s.on (pgCAN n) CAN.RULE_W0.REJECT i = false) (classic : bitOf w0 29 = false)
    (brsEsi dlc stamp : Nat) (data : List Byte) : canOffer n false w0 brsEsi dlc stamp data s =
      canStore n w0 0 dlc i stamp (data.take (if bitOf w0 30 then 0 else dlcBytes false dlc)) s := by
  simp [canOffer, matched, accepts, classic]

theorem canOffer_of_rejected (rejects : s.on (pgCAN n) CAN.RULE_W0.REJECT i = true) (brsEsi dlc stamp : Nat)
    (data : List Byte) : canOffer n false w0 brsEsi dlc stamp data s = s := by
  simp [canOffer, matched, rejects]

end Offer

/-- The entry of the receive ring at HEAD, `a`, takes the receive fields; the data are padded with free bytes. -/
theorem canStore_of_room {s v : State} {n head a : Nat} {d : List Byte} (room : (s.canRt n).filled < 128)
    (w0 brsEsi dlc rule stamp : Nat) (hhead : head = s.get (pgCAN n) CAN.RX_HEAD.HEAD) (ha : a = s.canRxBase n + head * 80)
    (hv : v = ((((s.memWr a 4 w0).memWr (a + 4) 4 (putBits (putBits (putBits (putBits (s.memRd (a + 4) 4) 31 30 brsEsi) 27 24
      dlc) 23 16 (s.get (pgCAN n) CAN.FILT_GEN.GEN)) 15 10 rule)).memWr (a + 12) 4 stamp).memPut (a + 16)
        (d ++ s.freeBytes (64 - d.length))).useFree (64 - d.length)) :
    canStore n w0 brsEsi dlc rule stamp d s = ((v.put (pgCAN n) CAN.RX_HEAD.HEAD ((head + 1) % 128)).setCanRt n
      { s.canRt n with filled := (s.canRt n).filled + 1 }).event (0x340 + n) := by
  subst hhead ha hv
  exact if_neg (Nat.not_le.2 room)

/-! ### The commands of the owner -/

/-- A write of a CAN page by its owner has its effect. -/
theorem can_action {s : State} {can : Fin 4} {m : Nat} (act : s.mayAct (pgCAN can.val) m) (off : Nat) (f : State → State) :
    s.action (pgCAN can.val) off m f = f s := by
  rw [State.action_of_mayAct s act, State.pageTouch_pgCAN]

section Commands
variable {s : State} {can m : Fin 4} (act : s.mayAct (pgCAN can.val) m.val)
include act

theorem rxAck_of_mayAct (c : BitVec 8) : exec (.rxAck can m c) s = .next (
    if (s.canRt can.val).filled < c.toNat then s.raise (pgCAN can.val) 0x1A2 1 [c.toNat]
    else (s.put (pgCAN can.val) CAN.RX_TAIL.TAIL ((s.get (pgCAN can.val) CAN.RX_TAIL.TAIL + c.toNat) % 128)).setCanRt can.val
      { s.canRt can.val with filled := (s.canRt can.val).filled - c.toNat }) :=
  congrArg _ (can_action act _ _)

theorem recover_of_mayAct : exec (.recover can m) s = .next (
    if s.get (pgCAN can.val) CAN.STATUS.ERR_STATE = 2 then s.put (pgCAN can.val) CAN.STATUS.RECOVERING 1 else s) :=
  congrArg _ (can_action act _ _)

theorem startAbr_of_mayAct : exec (.startAbr can m) s = .next (
    if s.on (pgCAN can.val) CAN.CFG.LISTEN then (s.put (pgCAN can.val) CAN.STATUS.ABR_ACTIVE 1).setCanRt can.val
      { s.canRt can.val with abrCand := 0, abrGood := 0, abrAt := s.e }
    else s) :=
  congrArg _ (can_action act _ _)

end Commands

/-! ### Bus errors, and the ends of recovery and of bit-rate detection -/

section Errors
variable {s : State} {can : Fin 4}

/-- An error in bit-rate detection: the next candidate is tried. -/
theorem canBusError_of_abr (detects : s.on (pgCAN can.val) CAN.STATUS.ABR_ACTIVE = true) (tec : BitVec 9) (rec : BitVec 8)
    (lec dlec : Fin 7) : exec (.canBusError can tec rec lec dlec) s = .next (s.setCanRt can.val
      { s.canRt can.val with abrGood := 0, abrCand := ((s.canRt can.val).abrCand + 1) % 9 }) :=
  if_pos detects

theorem canBusError_of_onBus (noAbr : s.on (pgCAN can.val) CAN.STATUS.ABR_ACTIVE = false)
    (onBus : s.on (pgCAN can.val) CAN.STATUS.ON_BUS = true) (speaks : s.on (pgCAN can.val) CAN.CFG.LISTEN = false)
    (notOff : s.get (pgCAN can.val) CAN.STATUS.ERR_STATE ≠ 2) (tec : BitVec 9) (rec : BitVec 8) (lec dlec : Fin 7) :
    exec (.canBusError can tec rec lec dlec) s = .next (((s.put (pgCAN can.val) CAN.ERR.LEC lec.val).put (pgCAN can.val)
      CAN.ERR.DLEC dlec.val).canCounters can.val tec.toNat rec.toNat) :=
  (if_neg (by simp [noAbr])).trans ((if_neg (by simp [onBus])).trans (if_neg (by simp [speaks, notOff])))

theorem recoveryDone_of_recovering (busOff : s.get (pgCAN can.val) CAN.STATUS.ERR_STATE = 2)
    (recovers : s.get (pgCAN can.val) CAN.STATUS.RECOVERING ≠ 0) : exec (.recoveryDone can) s =
      .next ((((((((s.put (pgCAN can.val) CAN.STATUS.ERR_STATE 0).put (pgCAN can.val) CAN.STATUS.RECOVERING 0).put
        (pgCAN can.val) CAN.ERR.TEC 0).put (pgCAN can.val) CAN.ERR.REC 0).cond (pgCAN can.val) 16 false).raise (pgCAN can.val)
          0x1A0 0 [0, 0]).event (0x348 + can.val)).canJoin can.val) :=
  if_neg (by simp [busOff, recovers])

theorem abrFail_of_overdue (detects : s.on (pgCAN can.val) CAN.STATUS.ABR_ACTIVE = true)
    (overdue : (s.canRt can.val).abrAt + s.get (pgCAN can.val) CAN.ABR.TMO * 1000000000 ≤ s.e) : exec (.abrFail can) s =
      .next (((s.put (pgCAN can.val) CAN.STATUS.ABR_ACTIVE 0).setFault (pgCAN can.val) 19).raise (pgCAN can.val) 0x1A3 1) :=
  if_pos (by simp [detects, overdue])

end Errors

/-- Settles O48: a frame takes the branch of bit-rate detection, of the protocol exception or of the rule that matches it;
the commands act for the owner, and each error and each end takes the branch of the controller's state. -/
theorem canReceive : Obligations.CanReceive := by
  rintro s can _ rfl
  refine ⟨fun took rr brs esi w0 dlc data => ⟨fun detects classic first => ?first,
      fun detects classic again rate hrate => ?second,
      fun noAbr onBus notOff => ⟨fun fd recessive pex => ?exception, fun classic speaks rec0 u hrec hu => ?filtered⟩⟩,
    fun m act => ⟨fun c => ⟨fun within => ?ack, fun beyond => ?ackBeyond⟩, fun busOff => ?recover,
      fun notOff => ?noRecovery, fun listens => ?startAbr⟩,
    fun tec rec lec dlec => ⟨fun detects => canBusError_of_abr detects tec rec lec dlec,
      fun noAbr onBus speaks notOff => canBusError_of_onBus noAbr onBus speaks notOff tec rec lec dlec⟩,
    recoveryDone_of_recovering, abrFail_of_overdue⟩
  case first =>
    rw [canReceive_of_abr detects classic, if_pos first]
  case second =>
    rw [canReceive_of_abr detects classic, if_neg again, hrate]
  case exception =>
    subst recessive
    exact canReceive_of_pex noAbr onBus notOff fd pex took brs esi dlc data
  case filtered =>
    have offered := canReceive_of_classic noAbr onBus notOff classic speaks took rr brs esi dlc data hrec hu
    refine ⟨fun i matched accepts => ?_, fun i matched rejects => ?_⟩
    · have stored := offered.trans (congrArg _ (canOffer_of_accepted matched accepts classic ..))
      refine ⟨stored, fun room head a d v hhead ha hd hv => ?_⟩
      subst hd
      rw [stored, canStore_of_room room _ _ _ _ _ hhead ha hv]
    · rw [offered, canOffer_of_rejected matched rejects]
  case ack =>
    rw [rxAck_of_mayAct act, if_neg (Nat.not_lt.2 within)]
  case ackBeyond =>
    rw [rxAck_of_mayAct act, if_pos beyond]
  case recover =>
    rw [recover_of_mayAct act, if_pos busOff]
  case noRecovery =>
    rw [recover_of_mayAct act, if_neg notOff]
  case startAbr =>
    rw [startAbr_of_mayAct act, if_pos listens]

end Sys2Proof.Proofs

/-! The DIO channels and the field supply of their groups (R354, R359 to R363, R366). -/

namespace Sys2Proof.Proofs
open Sys2Proof.Machine

/-! ### Levels -/

section Levels
variable {s : State} {ch : Fin 64} (on : s.active (State.dioPg ch.val) = true)
  (supplied : s.fsMissing (ch.val / 8) = false)
include on supplied

/-- A filtered level of an input is new where none is accepted yet or the accepted one differs; the first is no edge. -/
theorem dioLevelAccepted_of_in (isIn : s.dioIsIn ch.val = true) {lv : Bool} {age : BitVec 32}
    (filtered : s.dioFiltered ch.val age.toNat = true) {v : Bool} {u : State} (hv : v = (lv != s.dioInv ch.val))
    (hu : u = ((s.putB (State.dioPg ch.val) (State.levelF 8 ch.val) lv).putB (State.dioPg ch.val) (State.levelF 0 ch.val)
      v).setDioRt ch.val { s.dioRt ch.val with accepted := true })
    (new : (s.dioRt ch.val).accepted = true → s.dioLevel ch.val = !v) :
    exec (.dioLevelAccepted ch lv age) s = .next ((if (s.dioRt ch.val).accepted then
      u.dioEdge ch.val v (u.eStp - age.toNat) else u).dioWriteIn ch.val) := by
  have unlike : ((s.dioRt ch.val).accepted && s.dioLevel ch.val == v) = false := by
    cases first : (s.dioRt ch.val).accepted
    · rfl
    · simp [new first]
  subst hv hu
  show execDioLevelAccepted ch lv age s = _
  rw [execDioLevelAccepted, if_neg (by simp [on, supplied]), if_pos isIn, if_neg (by simp [unlike, filtered])]

/-- The terminal of an output is its read-back: its level agrees with the command, or not. -/
theorem dioLevelAccepted_of_out (noIn : s.dioIsIn ch.val = false) (isOut : s.dioIsOut ch.val = true) {lv : Bool} {u : State}
    (hu : u = (s.putB (State.dioPg ch.val) (State.levelF 8 ch.val) lv).putB (State.dioPg ch.val) (State.levelF 0 ch.val) lv)
    (age : BitVec 32) : exec (.dioLevelAccepted ch lv age) s = .next ((if lv = u.dioCmd ch.val then
      u.put (State.dioPg ch.val) (DIOG.CH_STAT.READBACK_ERR (ch.val % 8)) 0 else u).dioWriteIn ch.val) := by
  subst hu
  show execDioLevelAccepted ch lv age s = _
  rw [execDioLevelAccepted, if_neg (by simp [on, supplied]), if_neg (by simp [noIn]), if_pos isOut]

end Levels

/-! ### The current of an output, its sensor and its checks -/

section Switch
variable {s : State} {ch : Fin 64}

/-- One report for each episode: IN_LIMIT stands until the episode ends. -/
theorem overload_of_stood (closed : s.dioCmd ch.val = true) {ma : BitVec 16} (limited : 700 ≤ ma.toNat)
    (stood : s.dioStood ch.val 5 = true) {u : State}
    (hu : u = s.put (State.dioPg ch.val) (DIOG.CH_STAT.MA (ch.val % 8)) ma.toNat) :
    exec (.overload ch ma) s = .next (if u.on (State.dioPg ch.val) (DIOG.CH_STAT.IN_LIMIT (ch.val % 8)) then u
      else ((u.put (State.dioPg ch.val) (DIOG.CH_STAT.IN_LIMIT (ch.val % 8)) 1).setFault (State.dioPg ch.val) 18).raise
        (State.dioPg ch.val) 0x1C1 0 [ch.val, ma.toNat]) := by
  subst hu
  exact if_neg (by simp [closed, Nat.not_lt.2 limited, stood])

theorem openLoad_of_stood (closed : s.dioCmd ch.val = true)
    (enabled : s.on (State.dioPg ch.val) (DIOG.CH_CFG.OL_EN (ch.val % 8)) = true) (stood : s.dioStood ch.val 100 = true)
    (ma : BitVec 16) : exec (.openLoad ch ma) s = .next (((if ma.toNat < 700 then
      s.put (State.dioPg ch.val) (DIOG.CH_STAT.IN_LIMIT (ch.val % 8)) 0 else s).put (State.dioPg ch.val)
        (DIOG.CH_STAT.MA (ch.val % 8)) ma.toNat).dioLoadCheck ch.val 1 (decide (ma.toNat < 2))) :=
  if_pos (by simp [closed, enabled, stood])

theorem dioThermal_of_on (on : s.pageOn (State.dioPg ch.val) = true) (isOut : s.dioIsOut ch.val = true)
    (cold : s.on (State.dioPg ch.val) (DIOG.CH_STAT.THERMAL_OFF (ch.val % 8)) = false) :
    exec (.dioThermal ch) s = .next ((((((s.put (State.dioPg ch.val) (DIOG.CH_STAT.THERMAL_OFF (ch.val % 8)) 1).put
      (State.dioPg ch.val) (DIOG.CH_STAT.COOL (ch.val % 8)) 0).dioRefresh ch.val).setFault (State.dioPg ch.val) 19).cond
        (State.dioPg ch.val) 19 true).raise (State.dioPg ch.val) 0x1C2 0 [ch.val]) :=
  if_neg (by simp [on, isOut, cold])

theorem testPulse_of_due (due : s.dioPulseDue ch.val = true) (low : Bool) : exec (.testPulse ch low) s =
    .next ((s.setDioRt ch.val { s.dioRt ch.val with pulseAt := some s.clk.ref }).dioLoadCheck ch.val 0 low) :=
  if_pos due

theorem readback_of_mismatch (drives : s.mayDrive (State.dioPg ch.val) = true) (on : s.active (State.dioPg ch.val) = true)
    (isOut : s.dioIsOut ch.val = true) (enabled : s.on (State.dioPg ch.val) (DIOG.CH_CFG.RB_EN (ch.val % 8)) = true)
    (differs : (s.dioLevel ch.val != s.dioCmd ch.val) = true) (stood : s.dioStood ch.val 12 = true)
    (unseen : s.on (State.dioPg ch.val) (DIOG.CH_STAT.READBACK_ERR (ch.val % 8)) = false) :
    exec (.readback ch) s = .next (((s.put (State.dioPg ch.val) (DIOG.CH_STAT.READBACK_ERR (ch.val % 8)) 1).setFault
      (State.dioPg ch.val) 21).raise (State.dioPg ch.val) 0x1C4 0 [ch.val, b2n (s.dioCmd ch.val)]) :=
  if_pos (by simp only [drives, on, isOut, enabled, differs, stood, unseen, Bool.and_self, Bool.not_false])

end Switch

/-! ### RESTART -/

theorem dioRestart_of_mayAct {s : State} {m : Fin 4} {g : Fin 8} (act : s.mayAct (pgDIOG g.val) m.val) (mask : BitVec 8) :
    exec (.dioRestart m g mask) s =
      .next (forEach ((State.dioChans g.val).filter (fun c => bitOf mask.toNat (c % 8))) (fun u c => u.dioRestart c) s) :=
  congrArg _ ((s.action_of_mayAct act _ _).trans (by rw [State.pageTouch_pgDIOG]))

/-- Bit `k` of the mask names channel `k` of the group alone. -/
theorem dioChans_of_bit (g k : Fin 8) :
    (State.dioChans g.val).filter (fun c => bitOf (1#8 <<< k.val).toNat (c % 8)) = [8 * g.val + k.val] := by
  revert g k
  decide

theorem dioRestart_of_cooled {s : State} {n : Nat} (cool : s.on (State.dioPg n) (DIOG.CH_STAT.COOL (n % 8)) = true)
    (off : s.on (State.dioPg n) (DIOG.CH_STAT.THERMAL_OFF (n % 8)) = true) :
    s.dioRestart n = ((s.put (State.dioPg n) (DIOG.CH_STAT.THERMAL_OFF (n % 8)) 0).raise (State.dioPg n) 0x1C2 1
      [n]).setDioRt n { s.dioRt n with held := true } :=
  (if_neg (by simp [cool])).trans (if_pos off)

/-! ### The edge queue -/

section EdgeQueue
variable {s : State} {g : Fin 8} (served : s.served = true) (on : s.pageOn (pgDIOG g.val) = true) {c : Nat}
  (hc : c = s.get (pgDIOG g.val) DIOG.EDGE_SEL.CH)
include served on hc

theorem edgeW1Read_of_empty (empty : (s.dioRt (8 * g.val + c)).edges = []) :
    exec (.edgeW1Read g) s = .next (s.answer 0) := by
  subst hc
  show execEdgeW1Read g s = _
  simp only [execEdgeW1Read, served, on, empty, Bool.not_true, Bool.false_eq_true, if_false]

theorem edgeW1Read_of_oldest {en : EdgeEntry} {rest : List EdgeEntry}
    (oldest : (s.dioRt (8 * g.val + c)).edges = en :: rest) : exec (.edgeW1Read g) s =
      .next (((s.setDioRt (8 * g.val + c) { s.dioRt (8 * g.val + c) with edges := rest }).put (pgDIOG g.val)
        (DIOG.CH_STAT.EDGES c) rest.length).answer (2147483648 + b2n en.level * 1073741824 + b2n en.lost * 536870912
          + b2n en.untrusted * 268435456 + en.hi)) := by
  subst hc
  show execEdgeW1Read g s = _
  simp only [execEdgeW1Read, served, on, oldest, Bool.not_true, Bool.false_eq_true, if_false]

end EdgeQueue

/-- Settles O49: a level is taken as an input's or an output's, a report of the switch where its guard holds; RESTART acts for
the owner, on the masked channels, and a read of the queue finds it empty or takes its head. -/
theorem digitalChannels : Obligations.DigitalChannels := by
  rintro s ch _ rfl
  refine ⟨fun lv age on supplied => ⟨fun isIn filtered v u hv hu => ⟨fun first => ?first, fun again differs => ?edge⟩,
      fun noIn isOut u hu => dioLevelAccepted_of_out on supplied noIn isOut hu age⟩,
    fun ma closed => ⟨fun limited stood u hu => ⟨fun known => ?limited, fun unknown => ?limit⟩,
      fun enabled stood => openLoad_of_stood closed enabled stood ma⟩,
    dioThermal_of_on,
    fun drives on isOut => ⟨fun low due => testPulse_of_due due low, readback_of_mismatch drives on isOut⟩,
    fun g => ⟨fun m mask act => dioRestart_of_mayAct act mask, ?restart,
      fun served on c hc => ⟨edgeW1Read_of_empty served on hc, fun en rest => edgeW1Read_of_oldest served on hc⟩⟩⟩
  case first =>
    rw [dioLevelAccepted_of_in on supplied isIn filtered hv hu (by simp [first]), first, if_neg Bool.false_ne_true]
  case edge =>
    rw [dioLevelAccepted_of_in on supplied isIn filtered hv hu (fun _ => differs), if_pos again]
  case limited =>
    rw [overload_of_stood closed limited stood hu, if_pos known]
  case limit =>
    rw [overload_of_stood closed limited stood hu, if_neg (by simp [unknown])]
  case restart =>
    rintro m k _ rfl act cool off
    rw [dioRestart_of_mayAct act, dioChans_of_bit]
    exact congrArg _ (dioRestart_of_cooled cool off)

/-! ### The field supply -/

section Supply
variable {s u : State} {g : Fin 8} {mv : BitVec 16} (on : s.pageOn (pgDIOG g.val) = true)
  (hu : u = s.put (pgDIOG g.val) DIOG.FS_MV.MV mv.toNat)
include on hu

theorem fsMissing_of_on : exec (.fsMissing g mv) s = .next (if u.fsMissing g.val || decide (9000 ≤ mv.toNat) then u
    else ((forEach (State.dioChans g.val) (fun v c => v.setDioRt c { v.dioRt c with accepted := false })
      (((((u.put (pgDIOG g.val) DIOG.STATUS.FS_MISSING 1).setFault (pgDIOG g.val) 16).cond (pgDIOG g.val) 16 true).raise
        (pgDIOG g.val) 0x1C0 0 [g.val, mv.toNat]).ownDegrade (pgDIOG g.val) true)).dioRefreshGroup g.val).dioWriteGroup
          g.val) := by
  subst hu
  exact (if_neg (by simp [on])).trans (apply_ite Host.Outcome.next _ _ _).symm

theorem fsLow_of_on : exec (.fsLow g mv) s = .next (if u.fsLow g.val || decide (19200 ≤ mv.toNat) then u
    else ((((u.put (pgDIOG g.val) DIOG.STATUS.FS_LOW 1).setFault (pgDIOG g.val) 17).cond (pgDIOG g.val) 17 true).raise
      (pgDIOG g.val) 0x1C0 1 [g.val, mv.toNat]).dioWriteGroup g.val) := by
  subst hu
  exact (if_neg (by simp [on])).trans (apply_ite Host.Outcome.next _ _ _).symm

/-- The end of Missing comes before the end of Low, which a supply of 19.7 V reaches in the same command. -/
theorem fsRestored_of_on {t w v : State} (ht : t = ((((u.put (pgDIOG g.val) DIOG.STATUS.FS_MISSING 0).cond (pgDIOG g.val) 16
      false).raise (pgDIOG g.val) 0x1C0 2 [g.val, mv.toNat]).ownDegrade (pgDIOG g.val) false).dioHoldGroup g.val)
    (hw : w = if u.fsMissing g.val && decide (10000 ≤ mv.toNat) then
      forEach ((State.dioChans g.val).filter (fun c => t.dioIsOut c)) (fun v c => v.dioWriteIn c) t else u)
    (hv : v = ((w.put (pgDIOG g.val) DIOG.STATUS.FS_LOW 0).cond (pgDIOG g.val) 17 false).raise (pgDIOG g.val) 0x1C0 2
      [g.val, mv.toNat]) : exec (.fsRestored g mv) s = .next (if w.fsLow g.val && decide (19700 ≤ mv.toNat) then
        forEach ((State.dioChans g.val).filter (fun c => (v.dioRt c).accepted || v.dioIsOut c)) (fun v c => v.dioWriteIn c) v
      else w) := by
  subst hv hw ht hu
  exact if_neg (by simp [on])

end Supply

/-- Settles O50: each command takes the side of its threshold, and of the state that it would enter or leave. -/
theorem fieldSupply : Obligations.FieldSupply := by
  rintro s u g mv _ rfl on hu
  refine ⟨fun stays => ?noMissing, fun present below => ?missing, fun stays => ?noLow, fun high below => ?low,
    fun present high => ?full, fun missing above t w ht hw below => ?endMissing,
    fun present low above w hw => ?endLow⟩
  case noMissing =>
    rw [fsMissing_of_on on hu, if_pos (by simpa using stays)]
  case missing =>
    rw [fsMissing_of_on on hu, if_neg (by simp [present, below])]
  case noLow =>
    rw [fsLow_of_on on hu, if_pos (by simpa using stays)]
  case low =>
    rw [fsLow_of_on on hu, if_neg (by simp [high, below])]
  case full =>
    rw [fsRestored_of_on on hu rfl (if_neg (by simp [present])).symm rfl, if_neg (by simp [high])]
  case endMissing =>
    rw [fsRestored_of_on on hu ht (hw.trans (if_pos (by simp [missing, above])).symm) rfl,
      if_neg (by simp [Nat.not_le.2 below])]
  case endLow =>
    rw [fsRestored_of_on on hu rfl (if_neg (by simp [present])).symm hw, if_pos (by simp [low, above])]

end Sys2Proof.Proofs

/-! The analogue channels and their HART modems (R368 to R374, R412). -/

namespace Sys2Proof.Proofs
open Sys2Proof.Machine

/-! ### Conversions and the read-back -/

/-- The state in which an island's conversion to `i` finds its value: its instant, its current, its supply and its temperature
are written. -/
def anaConverted (s : State) (n : Nat) (i : BitVec 32) (mv : BitVec 16) : State :=
  ((((s.setAnaRt n { s.anaRt n with convAt := some (s.e - s.e % (s.anaConvMs n * 1000000)) }).setReg (pgANA n) ANA.MA.off i).put
    (pgANA n) ANA.SUPPLY_MV.MV (s.anaSupply n mv.toNat)).put (pgANA n) ANA.TEMP.T s.freeWord.toNat).useFree

/-- The state in which the read-back of an output is written: a deviation keeps the instant of its begin, and its end clears a
report of it. -/
def anaDeviation (s : State) (n : Nat) (i : BitVec 32) : State :=
  s.setAnaRt n { s.anaRt n with
    rbErr := (s.anaRt n).rbErr && s.anaDeviates n i
    devAt := if s.anaDeviates n i then some ((s.anaRt n).devAt.getD s.clk.ref) else none }

section Conversion
variable {s : State} {n : Fin 16} (on : s.active (pgANA n.val) = true) (used : s.anaType n.val ≠ 0)
  (due : s.anaDue n.val = true) (i : BitVec 32) (mv : BitVec 16)
include on used due

/-- The quality of an input: BAD where something breaks it or its range is left, UNCERTAIN beyond its limits. -/
theorem analogueConversion_of_in {v : State} (isIn : (anaConverted s n.val i mv).anaIn n.val = true)
    (hv : v = (anaConverted s n.val i mv).anaRange n.val i) :
    exec (.analogueConversion n i mv) s = .next (v.anaWriteIn n.val (v.aiValue n.val i)
      (if v.anaBroken n.val || (v.anaRt n.val).range != 0 then qBAD
        else if F32.lt i (v.anaW n.val ANA.LIM_LO) || F32.lt (v.anaW n.val ANA.LIM_HI) i then qUNCERTAIN else 0)) := by
  subst hv
  exact (if_neg (by simp [on, used, due])).trans (if_pos isIn)

theorem analogueConversion_of_out {v w : State} (noIn : (anaConverted s n.val i mv).anaIn n.val = false)
    (hv : v = ((anaConverted s n.val i mv).anaClock n.val).anaCompliance n.val i) (hw : w = anaDeviation v n.val i) :
    exec (.analogueConversion n i mv) s = .next (w.anaWriteIn n.val (w.aoReadback n.val i)
      (if w.anaBroken n.val || w.on (pgANA n.val) ANA.STATUS.COMPLIANCE || w.on (pgANA n.val) ANA.STATUS.NO_LOOP ||
        ((v.anaRt n.val).rbErr && v.anaDeviates n.val i) then qBAD else 0)) := by
  subst hw hv
  exact (if_neg (by simp [on, used, due])).trans (if_neg (Bool.eq_false_iff.1 noIn))

end Conversion

/-- One report for each deviation, which the compliance of the loop does not explain. -/
theorem analogueReadback_of_stood {s : State} {n : Fin 16} (on : s.active (pgANA n.val) = true)
    (isOut : s.anaOut n.val = true) (complies : s.on (pgANA n.val) ANA.STATUS.COMPLIANCE = false)
    (noBoost : (s.anaRt n.val).boost = false) (unseen : (s.anaRt n.val).rbErr = false) {at_ : Nat} {dev : BitVec 32}
    (since : (s.anaRt n.val).devAt = some at_) (stood : at_ + 10000000 ≤ s.clk.ref)
    (shown : dev.toNat = unsigned 32 (Int.ofNat (microAmp (s.anaW n.val ANA.MA)) -
      Int.ofNat (((s.anaDriven n.val).map microAmp).getD 0))) :
    exec (.analogueReadback n dev) s = .next ((((s.setAnaRt n.val { s.anaRt n.val with rbErr := true }).setFault (pgANA n.val)
      22).raise (pgANA n.val) 0x1E8 0 [n.val, dev.toNat]).anaBad n.val) := by
  have lasted : (s.anaRt n.val).devAt.any (fun t => decide (t + 10000000 ≤ s.clk.ref)) = true :=
    (Option.any_eq_true _ _).2 ⟨at_, since, decide_eq_true stood⟩
  show execAnalogueReadback n dev s = _
  simp only [execAnalogueReadback, on, isOut, complies, noBoost, unseen, lasted, ← shown, beq_self_eq_true, Bool.not_false,
    Bool.and_self, if_true]

/-! ### Loops, thermal cut-off, miswiring and islands -/

section Conditions
variable {s : State} {n : Fin 16} (on : s.pageOn (pgANA n.val) = true)
include on

theorem noLoop_of_lost (passive : s.anaType n.val = 4) (closed : s.on (pgANA n.val) ANA.STATUS.NO_LOOP = false) :
    exec (.noLoop n true) s = .next (((((s.put (pgANA n.val) ANA.STATUS.NO_LOOP 1).setFault (pgANA n.val) 20).cond
      (pgANA n.val) 20 true).raise (pgANA n.val) 0x1E5 0 [n.val]).anaBad n.val) :=
  (if_neg (by simp [on, passive, closed])).trans (if_pos rfl)

theorem noLoop_of_back (passive : s.anaType n.val = 4) (lost : s.on (pgANA n.val) ANA.STATUS.NO_LOOP = true) :
    exec (.noLoop n false) s = .next (((s.put (pgANA n.val) ANA.STATUS.NO_LOOP 0).cond (pgANA n.val) 20 false).raise
      (pgANA n.val) 0x1E5 1 [n.val]) :=
  (if_neg (by simp [on, passive, lost])).trans (if_neg Bool.false_ne_true)

theorem islandThermal_of_power (power : n.val < 4) (cold : s.on (pgANA n.val) ANA.STATUS.THERMAL = false) :
    exec (.islandThermal n) s = .next ((((((s.setAnaRt n.val { s.anaRt n.val with cool := false }).put (pgANA n.val)
      ANA.STATUS.THERMAL 1).setFault (pgANA n.val) 18).cond (pgANA n.val) 18 true).raise (pgANA n.val) 0x1E2 0
        [n.val]).anaBad n.val) :=
  if_neg (by simp [on, Nat.not_le.2 power, cold])

theorem miswire_of_new (mv : BitVec 32) (wired : s.on (pgANA n.val) ANA.STATUS.MISWIRE = false) :
    exec (.miswire n mv) s = .next ((((((s.setAnaRt n.val { s.anaRt n.val with testAt := s.clk.ref }).put (pgANA n.val)
      ANA.STATUS.MISWIRE 1).setFault (pgANA n.val) 19).cond (pgANA n.val) 19 true).raise (pgANA n.val) 0x1E3 0
        [n.val, mv.toNat]).anaBad n.val) :=
  if_neg (by simp [on, wired])

theorem island_of_new (kind : Fin 3) (new : (s.anaRt n.val).island ≠ kind.val + 1) :
    exec (.island n kind) s = .next ((((((s.setAnaRt n.val { s.anaRt n.val with island := kind.val + 1 }).put (pgANA n.val)
      ANA.STATUS.READY 0).setFault (pgANA n.val) 23).cond (pgANA n.val) 23 true).raise (pgANA n.val) 0x1E7 0
        [n.val, kind.val + 1]).anaBad n.val) :=
  if_neg (by simp [on, new])

end Conditions

section Returns
variable {s : State} {n : Fin 16}

/-- The test is due 1 s after the last one; what it finds ends the condition, or puts the next one 1 s on. -/
theorem miswireRetest_of_due (miswired : s.on (pgANA n.val) ANA.STATUS.MISWIRE = true)
    (due : (s.anaRt n.val).testAt + 100000000 ≤ s.clk.ref) (clear : Bool) (mv : BitVec 32) :
    exec (.miswireRetest n clear mv) s =
      if clear then .next (((s.put (pgANA n.val) ANA.STATUS.MISWIRE 0).cond (pgANA n.val) 19 false).raise (pgANA n.val) 0x1E3 1
        [n.val, mv.toNat])
      else .next (s.setAnaRt n.val { s.anaRt n.val with testAt := s.clk.ref }) :=
  if_neg (by simp [miswired, Nat.not_lt.2 due])

theorem islandLinkRestored_of_failed (failed : (s.anaRt n.val).island ≠ 0) : exec (.islandLinkRestored n) s =
    .next ((s.setAnaRt n.val { s.anaRt n.val with island := 0 }).cond (pgANA n.val) 23 false) :=
  if_neg failed

end Returns

/-! ### The commands of the owner -/

/-- A write of an ANA page by its owner has its effect. -/
theorem ana_action {s : State} {n : Fin 16} {m : Nat} (act : s.mayAct (pgANA n.val) m) (off : Nat) (f : State → State) :
    s.action (pgANA n.val) off m f = f s := by
  rw [State.action_of_mayAct s act, State.pageTouch_pgANA]

section Commands
variable {s : State} {n : Fin 16} {m : Fin 4} (act : s.mayAct (pgANA n.val) m.val)
include act

theorem anaRestart_of_thermal (hot : s.on (pgANA n.val) ANA.STATUS.THERMAL = true) : exec (.anaRestart m n) s = .next (
    if (s.anaRt n.val).cool then (s.put (pgANA n.val) ANA.STATUS.THERMAL 0).raise (pgANA n.val) 0x1E2 1 [n.val]
    else s.raise (pgANA n.val) 0x1E2 2 [n.val]) := by
  show execAnaRestart m n s = _
  rw [execAnaRestart, ana_action act, if_neg (by simp [hot])]

theorem hartSend_of_busy (enabled : s.on (pgANA n.val) ANA.CFG.HART_EN = true) (busy : (s.anaRt n.val).hart = true) :
    exec (.hartSend m n) s = .next (s.put (pgANA n.val) ANA.HART_STATUS.RESULT 6) := by
  show execHartSend m n s = _
  rw [execHartSend, ana_action act, if_neg (by simp [enabled]), if_pos (by simp [busy])]

/-- The loop of a passive output carries HART from clock step 1 on. -/
theorem hartSend_of_free (enabled : s.on (pgANA n.val) ANA.CFG.HART_EN = true) (free : (s.anaRt n.val).hart = false)
    (runs : s.on (pgANA n.val) HDR.CTRL.RUN = true) (wired : s.on (pgANA n.val) ANA.STATUS.MISWIRE = false)
    (closed : s.on (pgANA n.val) ANA.STATUS.NO_LOOP = false)
    (clocked : s.anaType n.val ≠ 4 ∨ s.get (pgANA n.val) ANA.STATUS.CLK_STEP ≠ 0) {d a : Byte} {rest : List Byte}
    (hraw : (wordsBytes ((List.range 64).map (fun i => s.reg (pgANA n.val) (ANA.HART_TX i).off))).take
      (s.get (pgANA n.val) ANA.HART_LEN.TX_LEN) = d :: a :: rest) {bytes : List Nat}
    (hbytes : bytes = (List.replicate (s.get (pgANA n.val) ANA.HART_CFG.PREAMBLES) 0xFF#8 ++ (d :: (a ||| 0x80#8) :: rest) ++
      [hartCheck (d :: (a ||| 0x80#8) :: rest)]).map BitVec.toNat) :
    exec (.hartSend m n) s = .next ((((s.setAnaRt n.val { s.anaRt n.val with hart := true, frame := bytes }).put
      (pgANA n.val) ANA.HART_STATUS.RESULT 1).put (pgANA n.val) ANA.HART_STATUS.TRIES 1).send (11 + n.val) 0 bytes) := by
  have steps : (s.anaType n.val == 4 && s.get (pgANA n.val) ANA.STATUS.CLK_STEP == 0) = false := by
    simpa using not_and_or.2 clocked
  show execHartSend m n s = _
  rw [execHartSend, ana_action act, if_neg (by simp [enabled]), if_neg (by simp [free, runs, wired, closed, steps])]
  simp only [hraw, hbytes]

theorem hartAbort_of_mayAct : exec (.hartAbort m n) s = .next (if (s.anaRt n.val).hart then s.hartEnd n.val 5 else s) := by
  show execHartAbort m n s = _
  rw [execHartAbort, ana_action act]

theorem hartTake_of_mayAct : exec (.hartTake m n) s = .next (s.put (pgANA n.val) ANA.HART_STATUS.TAKEN 1) := by
  show execHartTake m n s = _
  rw [execHartTake, ana_action act]

end Commands

/-- Settles O51: a due conversion writes the value of an input or the read-back of an output; each condition is entered and
left on its own side, and RESTART acts for the owner. -/
theorem analogueChannels : Obligations.AnalogueChannels := by
  rintro s n _ rfl
  refine ⟨fun on used due i mv p u hp hu => ?conversion,
    fun on isOut complies noBoost unseen _ dev => analogueReadback_of_stood on isOut complies noBoost unseen,
    fun on => ⟨noLoop_of_lost on, noLoop_of_back on, islandThermal_of_power on, miswire_of_new on, island_of_new on⟩,
    fun m act hot => ⟨fun cool => ?cool, fun warm => ?warm⟩,
    fun mv miswired due => ⟨miswireRetest_of_due miswired due true mv, miswireRetest_of_due miswired due false mv⟩,
    islandLinkRestored_of_failed⟩
  case conversion =>
    obtain rfl : u = anaConverted s n.val i mv := by rw [hu, hp]; rfl
    refine ⟨fun isIn v hv => ?_, fun noIn v w dev rb hv hdev hrb hw => ?_⟩
    · have written := analogueConversion_of_in on used due i mv isIn hv
      refine ⟨fun bad => ?_, fun whole inRange low => ?_, fun whole inRange notLow notHigh => ?_⟩
      · rw [written, if_pos (by simpa using bad)]
      · rw [written, if_neg (by simp [whole, inRange]), if_pos (by simp [low])]
      · rw [written, if_neg (by simp [whole, inRange]), if_neg (by simp [notLow, notHigh])]
    · subst hdev hrb
      exact analogueConversion_of_out on used due i mv noIn hv hw
  case cool =>
    rw [anaRestart_of_thermal act hot, if_pos cool]
  case warm =>
    rw [anaRestart_of_thermal act hot, if_neg (by simp [warm])]

/-! ### The end of a HART transaction, and bursts -/

/-- A transaction of `k` tries: TRIES is written, and the frame has gone out again for each try after the first. -/
def hartTried (s : State) (n k : Nat) : State :=
  forEach (List.range (k - 1)) (fun u _ => u.send (11 + n) 0 (s.anaRt n).frame) (s.put (pgANA n) ANA.HART_STATUS.TRIES k)

section Transaction
variable {s : State} {n : Fin 16} (busy : (s.anaRt n.val).hart = true) (tries : BitVec 8) (response : List Byte)
include busy

theorem hartTransactionEnd_of_good : exec (.hartTransactionEnd n 0 tries response) s = .next (((hartTried s n.val
    (max 1 (min (s.get (pgANA n.val) ANA.HART_CFG.RETRIES + 1) tries.toNat))).hartStore n.val response).hartEnd n.val 2) := by
  show execHartTransactionEnd n 0 tries response s = _
  simp only [execHartTransactionEnd, busy, hartTried, Fin.coe_ofNat_eq_mod, Bool.not_true, Bool.false_eq_true, if_false,
    Nat.zero_mod, Nat.zero_add, if_true]

/-- Without a good response every try is spent; the command byte stands behind the delimiter, the address and the expansion
bytes that the delimiter announces. -/
theorem hartTransactionEnd_of_silent {pos : Nat}
    (hpos : pos = (if bitOf (bits (s.get (pgANA n.val) (ANA.HART_TX 0)) 7 0) 7 then 6 else 2) +
      bits (bits (s.get (pgANA n.val) (ANA.HART_TX 0)) 7 0) 6 5) :
    exec (.hartTransactionEnd n 1 tries response) s = .next ((((hartTried s n.val
      (s.get (pgANA n.val) ANA.HART_CFG.RETRIES + 1)).hartEnd n.val 3).setFault (pgANA n.val) 21).raise (pgANA n.val) 0x1E6 3
        [n.val, bits (s.get (pgANA n.val) (ANA.HART_TX (pos / 4))) (8 * (pos % 4) + 7) (8 * (pos % 4))]) := by
  subst hpos
  show execHartTransactionEnd n 1 tries response s = _
  simp only [execHartTransactionEnd, busy, hartTried, Fin.coe_ofNat_eq_mod, Bool.not_true, Bool.false_eq_true, if_false,
    Nat.one_mod, Nat.reduceAdd, Nat.reduceEqDiff]

end Transaction

theorem hartBurst_of_idle {s : State} {n : Fin 16} (on : s.active (pgANA n.val) = true)
    (enabled : s.on (pgANA n.val) ANA.CFG.HART_EN = true) (free : (s.anaRt n.val).hart = false) (frame : List Byte) :
    exec (.hartBurst n frame) s =
      if s.on (pgANA n.val) ANA.HART_STATUS.TAKEN then
        .next (((s.hartStore n.val frame).put (pgANA n.val) ANA.HART_STATUS.RESULT 7).event (0x360 + n.val))
      else .next (s.incMod (pgANA n.val) ANA.BURST_LOST) :=
  if_neg (by simp [on, enabled, free])

/-- Settles O52: the commands act for the owner, a transaction ends by its result, and a burst finds the last one taken or
not. -/
theorem hart : Obligations.Hart := by
  rintro s n _ rfl
  refine ⟨fun m act => ⟨fun enabled => ⟨hartSend_of_busy act enabled,
        fun free runs wired closed clocked _ _ _ _ raw =>
          hartSend_of_free act enabled free runs wired closed clocked raw⟩,
      fun busy => ?abort, fun free => ?noAbort, hartTake_of_mayAct act⟩,
    fun busy tries response _ _ hmost hw => ?ends,
    fun on enabled free frame => ⟨fun taken => ?stored, fun untaken => ?lost⟩⟩
  case abort =>
    rw [hartAbort_of_mayAct act, if_pos busy]
  case noAbort =>
    rw [hartAbort_of_mayAct act, if_neg (by simp [free])]
  case ends =>
    subst hmost hw
    exact ⟨hartTransactionEnd_of_good busy tries response, fun _ => hartTransactionEnd_of_silent busy tries response⟩
  case stored =>
    rw [hartBurst_of_idle on enabled free, if_pos taken]
  case lost =>
    rw [hartBurst_of_idle on enabled free, if_neg (by simp [untaken])]

end Sys2Proof.Proofs

/-! The link to the partner module and the redundant pair (R379 to R400). -/

namespace Sys2Proof.Proofs
open Sys2Proof.Machine

/-! ### Frames of the link -/

/-- An accepted frame is taken, on the state that its reception leaves (R382, R383). -/
theorem onFrame_of_received {s u t : State} {l type : Nat} {f p : List Byte} {take : List Byte → State → State}
    (got : s.dvlReceive l type f = (u, some p)) (taken : take p u = t) :
    (.next (s.onFrame l type f take) : Out) = .next t := by
  rw [State.onFrame, got]
  exact congrArg _ taken

theorem loopTake_of_standby {u : State} {p : List Byte} {n part t : Nat} (hn : n = payNat p 0 4) (hpart : part = payNat p 4 1)
    (ht : t = payNat p 8 8) (standby : u.role = 2) (partOf : part < 67)
    (size : p.length = 16 + (if part < 66 then 1024 else 512)) {parts : List (Nat × List Byte)}
    (hparts : parts = (if u.pair.snapIn = n ∧ u.pair.snapT = t then u.pair.parts else []).filter (fun e => e.1 != part) ++
      [(part, p.drop 16)]) :
    State.loopTake p u =
      if parts.length = 67 then ((u.setPair { u.pair with snapIn := n, snapT := t }).snapLoad t parts).readyNow
      else u.setPair { u.pair with snapIn := n, snapT := t, parts := parts } := by
  subst hn hpart ht hparts
  exact if_neg (by simp [standby, size, Nat.not_le.2 partOf])

/-- A partner that no check of R386 refuses. -/
theorem pairing_not_refused {u : State} {c lo hi pos hash : Nat} (version : lo ≤ hi) (image : hash = u.ownHash)
    (other : pos ≠ u.get pgSUP SUP.SLOT_ID.POSITION) (inPair : pos ≠ 2) (ownInPair : u.get pgSUP SUP.SLOT_ID.POSITION ≠ 2)
    (carrier : c = u.get pgSUP SUP.SLOT_ID.CARRIER) :
    (if hi < lo then 1 else if hash ≠ u.ownHash then 2
      else if pos = u.get pgSUP SUP.SLOT_ID.POSITION ∨ pos = 2 ∨ u.get pgSUP SUP.SLOT_ID.POSITION = 2 then 3
      else if c ≠ u.get pgSUP SUP.SLOT_ID.CARRIER then 4 else 0) = 0 := by
  rw [if_neg version.not_gt, if_neg (not_not.2 image), if_neg (by simp [other, inPair, ownInPair]),
    if_neg (not_not.2 carrier)]

/-! ### What goes out by time -/

theorem pairingSend_of_due {s : State} (waits : s.pairState = 2 ∨ s.pairState = 3)
    (due : s.pair.pairingAt.all (fun t => decide (t + 1000000 ≤ s.clk.ref)) = true) :
    exec .pairingSend s = .next (s.pairSend.setPair { s.pairSend.pair with pairingAt := some s.clk.ref }) :=
  congrArg _ (if_pos (by rw [due]; simpa using waits))

/-- Without checks that run, and with none asked for, a heartbeat asks for no shadow check (R396). -/
theorem shadow_untouched {s : State} (noShadow : s.shadowRuns = false) (noTask : s.pair.shTask = 255) :
    (if !s.shadowRuns then (if s.pair.shTask = 255 then s else s.shadowOff)
      else if s.pair.shTask = 255 then s.shadowNext else s) = s := by
  rw [noShadow, if_pos noTask]
  rfl

/-- Settles O53: a received frame is taken by the rule of its type, and what time or a lane brings takes the branch of its
state. -/
theorem pairLink : Obligations.PairLink := by
  intro s u l f p
  refine ⟨fun got => ⟨onFrame_of_received got rfl, ?copied⟩, fun got => ⟨onFrame_of_received got rfl, ?committed⟩,
    fun got => ⟨onFrame_of_received got rfl, fun n part t parts hn hpart ht standby partOf size hparts =>
      have takes := loopTake_of_standby hn hpart ht standby partOf size hparts
      ⟨fun last => onFrame_of_received got (takes.trans (if_pos last)),
        fun more => onFrame_of_received got (takes.trans (if_neg more))⟩⟩,
    fun got mask => ⟨onFrame_of_received got rfl, ?beat⟩, fun got c => ⟨onFrame_of_received got rfl, ?paired⟩,
    fun got standby size => onFrame_of_received got (if_neg (by simp [standby, size])), ?request,
    fun got size => onFrame_of_received got (if_neg (not_not.2 size)), ?lane, pairingSend_of_due, ?snapshot, ?silent,
    ?heartbeat⟩
  case copied =>
    rintro k cycle dirty rfl rfl rfl standby task region size
    exact onFrame_of_received got (if_neg (by simp [standby, size, Nat.not_le.2 task, Nat.not_le.2 region]))
  case committed =>
    rintro k flags cycle digest mine v w rfl rfl rfl rfl standby task size rfl complete rfl rfl
    exact onFrame_of_received got
      ((if_neg (by simp [standby, size, Nat.not_le.2 task])).trans (if_neg (not_not.2 complete)))
  case beat =>
    rintro role flags v1 v2 v3 v4 v5 v6 v7 rfl rfl size rfl rfl rfl rfl rfl rfl rfl
    exact onFrame_of_received got (if_neg (not_not.2 size))
  case paired =>
    rintro hi pos fw fd cd v1 v2 v3 v4 size rfl rfl rfl version image other inPair ownInPair carrier rfl rfl rfl rfl rfl rfl
      waits accepts
    have notRefused := pairing_not_refused version image other inPair ownInPair carrier
    have isOpen : (u.pairState == 2 || u.pairState == 3) = true := by simpa using waits
    refine onFrame_of_received got ?_
    rw [State.pairTake, if_neg (not_not.2 size)]
    dsimp only
    rw [notRefused, if_neg (not_not.2 rfl), if_pos isOpen, if_pos accepts, if_neg Nat.zero_ne_one]
  case request =>
    rintro got size r rfl
    exact onFrame_of_received got (if_neg (not_not.2 size))
  case lane =>
    rintro up bit v w used isUp any one runs fresh rfl changes rfl rfl rfl rfl rfl rfl
    refine congrArg _ (if_neg ?_)
    rw [runs, changes]
    cases up
    · simp
    · simp [fresh rfl]
  case snapshot =>
    rintro duty paired runs t rfl onBase once
    exact congrArg _ (if_pos (by simp [duty, paired, runs, onBase, once]))
  case silent =>
    rintro alive overdue released v rfl w rfl
    refine congrArg _ ((if_neg (by simp [alive, Nat.not_lt.2 overdue])).trans ?_)
    rw [released]
    rfl
  case heartbeat =>
    rintro linked runs noShadow noTask due last flags v rfl rfl rfl
    refine congrArg _ ((if_neg ?_).trans ?_)
    · simp [runs, due, Nat.lt_of_lt_of_le Nat.one_lt_two linked]
    · dsimp only
      rw [shadow_untouched noShadow noTask]

/-! ### Claims and handovers -/

/-- A command that the owner writes to PAIR.CMD has its effect. -/
theorem pairCmd_of_mayAct {s : State} {m : Nat} (act : s.mayAct pgPAIR m) (off : Nat) (res : Fld) (v : Nat) (f : State → State) :
    s.actionRes pgPAIR off m res v f = f s := by
  rw [State.actionRes_of_mayAct s act, State.pageTouch_pgPAIR]

/-- A ready pair in which no handover runs is asked for one (R392). -/
theorem handoverAsk_of_ready {s : State} (duty : s.role = 1) (paired : s.paired = true)
    (ready : s.on pgPAIR PAIR.STATUS.READY = true) (idle : s.on pgPAIR PAIR.STATUS.HANDOVER = false) (cause : Nat) :
    s.handoverAsk cause = (((s.raise pgPAIR 0x206 0 [cause, 0]).put pgPAIR PAIR.STATUS.HANDOVER 1).setPair
      { (s.raise pgPAIR 0x206 0 [cause, 0]).pair with hoCause := cause, hoAt := (s.raise pgPAIR 0x206 0 [cause, 0]).e }, 0) := by
  simp [State.handoverAsk, duty, paired, ready, idle]

theorem switch_of_mayAct {s : State} {m : Fin 4} (act : s.mayAct pgPAIR m.val) : exec (.switch m) s = .next (
    if (s.handoverAsk 3).2 = 0 then ((s.handoverAsk 3).1.put pgPAIR PAIR.CMD_STATUS.BUSY 1).put pgPAIR PAIR.CMD_STATUS.RESULT 0
    else (s.handoverAsk 3).1.put pgPAIR PAIR.CMD_STATUS.RESULT (s.handoverAsk 3).2) :=
  congrArg _ (pairCmd_of_mayAct act _ _ _ _)

theorem resync_of_mayAct {s : State} {m : Fin 4} (act : s.mayAct pgPAIR m.val) : exec (.resync m) s = .next (
    if s.role = 2 then ((s.put pgPAIR PAIR.CMD_STATUS.RESULT 0).askFull s.redMask).readyNow
    else s.put pgPAIR PAIR.CMD_STATUS.RESULT 5) :=
  congrArg _ (pairCmd_of_mayAct act _ _ _ _)

/-- Settles O54: each claim, line, command and instant takes the branch that its conditions name. -/
theorem pairDuty : Obligations.PairDuty := by
  intro s
  refine ⟨?claims, fun claims out idle waited =>
      have decides : ¬ (s.pair.claim = 0 ∨ s.on pgPAIR PAIR.STATUS.DUTY_OUT = false ∨ s.inSequence = true ∨
        s.clk.ref < s.pair.claimAt + 2000) := by simp [claims, out, idle, Nat.not_lt.2 waited]
      ⟨?won, ?contested⟩,
    fun powered => ⟨?asserted, ?released, ?noTake, ?take⟩,
    fun m act => ⟨?switch, fun done => ?accepted, fun refused => ?refused, fun standby => ?resync,
      fun notStandby => ?noResync⟩,
    fun duty asked => ⟨?hand, ?noWindow⟩, ?yield, ?syncTmo, ?rotation⟩
  case claims =>
    intro waiting noRole free idle waited
    show execClaimWait s = _
    rw [execClaimWait, if_neg (by simp [Nat.not_lt.2 waited]), if_pos (by simp [waiting, noRole, free, idle]), State.claimNow]
  case won =>
    intro free
    show execClaimCheck s = _
    rw [execClaimCheck, if_neg decides, if_neg (by simp [free])]
  case contested =>
    intro taken noTake
    have both : (s.on pgPAIR PAIR.STATUS.DUTY_IN && !s.on pgPAIR PAIR.STATUS.TAKE_IN) = true := by simp [taken, noTake]
    show (_ → execClaimCheck s = _) ∧ (_ → ∀ u, _ → execClaimCheck s = _)
    rw [execClaimCheck, if_neg decides, if_pos both]
    refine ⟨fun slotA => ?_, ?_⟩
    · rw [slotA]
      rfl
    · rintro slotB u rfl
      rw [slotB]
      rfl
  case asserted =>
    rintro free u rfl
    show execPartnerDutyReleased true s = _
    rw [execPartnerDutyReleased, if_neg (by simp [powered, free])]
    rfl
  case released =>
    rintro held u rfl
    show execPartnerDutyReleased false s = _
    rw [execPartnerDutyReleased, if_neg (by simp [powered, held])]
    simp only [Bool.false_eq_true, if_false]
  case noTake =>
    show execTakeIn false s = _
    rw [execTakeIn, if_neg (by simp [powered])]
    rfl
  case take =>
    intro u hu standby noClaim idle
    have asserted : (if true && !s.on pgPAIR PAIR.STATUS.TAKE_IN then s.setPair { s.pair with takeAt := s.clk.ref } else s).putB
        pgPAIR PAIR.STATUS.TAKE_IN true = u := by
      rw [hu]
      cases s.on pgPAIR PAIR.STATUS.TAKE_IN <;> rfl
    show execTakeIn true s = _
    rw [execTakeIn, if_neg (by simp [powered])]
    dsimp only
    rw [asserted, if_pos (by simp [standby, noClaim, idle])]
  case switch =>
    rintro duty paired ready idle u rfl
    rw [switch_of_mayAct act, handoverAsk_of_ready duty paired ready idle]
    rfl
  case accepted => rw [switch_of_mayAct act, if_pos done]
  case refused => rw [switch_of_mayAct act, if_neg refused]
  case resync => rw [resync_of_mayAct act, if_pos standby]
  case noResync => rw [resync_of_mayAct act, if_neg notStandby]
  case hand =>
    rintro paired ready idle onBase waited ok c u rfl rfl
    rw [← onBase] at ok
    refine congrArg _ (if_pos ?_)
    simp only [duty, asked, paired, ready, idle, ← onBase]
    simpa using ⟨waited, ok⟩
  case noWindow =>
    rintro waited c u rfl rfl
    exact congrArg _ (if_pos (by simp [duty, asked, waited]))
  case yield =>
    intro ends
    exact congrArg _ (if_pos (by simpa using ends))
  case syncTmo =>
    intro standby syncing waited
    exact congrArg _ (if_pos ⟨standby, syncing, waited⟩)
  case rotation =>
    intro duty slot rotates due retry r hr
    have asks : exec .rotation s = .next (if r.2 = 0 then r.1 else r.1.rotPostponed r.2) := by
      subst hr
      exact congrArg _ (if_pos (by rw [duty, slot, retry]; simp [rotates, due]))
    exact ⟨fun done => by rw [asks, if_pos done], fun refused => by rw [asks, if_neg refused]⟩

/-! ### Shadow checks and line faults -/

section Check
variable {s : State} {p : Fin 4} {want : Nat} (asked : s.pair.shDigest = some want) (runs : s.shadowRuns = true)
  (healthy : s.pairHealthy p.val = true) (d : BitVec 64)
include asked runs healthy

/-- The first check of a cycle: a mismatch is checked again where another pair is healthy (R396, R397). -/
theorem shadowCheck_of_first (first : s.pair.shPair = none) {u : State}
    (hu : u = ((((s.incMod pgPAIR PAIR.SHADOW_BAD).shadowShow 2 p.val).event 0x372).raise pgPAIR 0x207 0
      [s.pair.shTask, s.pair.shCycle, p.val]).setPair { s.pair with shPair := some p.val }) :
    exec (.shadowCheck p d) s = .next (
      if d.toNat = want then ((s.incMod pgPAIR PAIR.SHADOW_OK).shadowShow 1 p.val).shadowNext
      else if (List.range 4).any (fun q => q != p.val && u.pairHealthy q) then u else u.shadowState p.val) := by
  subst hu
  show execShadowCheck p d s = _
  simp only [execShadowCheck, asked, first]
  rw [if_neg (by simp [runs, healthy])]

/-- The check on another pair tells a wrong pair from a wrong state (R397). -/
theorem shadowCheck_of_second {q : Nat} (second : s.pair.shPair = some q) (other : q ≠ p.val) :
    exec (.shadowCheck p d) s = .next (
      if d.toNat = want then ((((s.incMod pgPAIR PAIR.SHADOW_OK).shadowShow 3 q).setFault pgPAIR 20).raise pgPAIR 0x207 1
        [s.pair.shTask, s.pair.shCycle, q]).shadowNext
      else (s.incMod pgPAIR PAIR.SHADOW_BAD).shadowState p.val) := by
  show execShadowCheck p d s = _
  simp only [execShadowCheck, asked, second]
  rw [if_neg (by simp [runs, healthy, other])]

end Check

/-- LINE is set and recorded once while it stands (R400). -/
theorem lineFault_of_clear {s : State} (clear : s.on pgPAIR PAIR.FAULT.LINE = false) (p0 : Nat) :
    s.lineFault p0 = (s.setFault pgPAIR 24).raise pgPAIR 0x209 0 [p0] :=
  if_neg (Bool.eq_false_iff.1 clear)

theorem takeLineTimeout_of_linked {s : State} (link : s.on pgDVL DVL.STATUS.LINK_OK = true)
    (beats : s.on pgDVL DVL.STATUS.HB_OK = true) : exec (.partnerLineTimeout true) s = .next (
      if s.role = 2 ∧ s.on pgPAIR PAIR.STATUS.TAKE_IN = true ∧ bitOf s.pair.pFlags 1 = false ∧
        s.pair.takeAt + 100000 ≤ s.clk.ref then s.lineFault 1 else s) := by
  show execPartnerLineTimeout true s = _
  rw [execPartnerLineTimeout, link, beats]
  rfl

theorem dutyLineTimeout_of_linked {s : State} (link : s.on pgDVL DVL.STATUS.LINK_OK = true)
    (beats : s.on pgDVL DVL.STATUS.HB_OK = true) : exec (.partnerLineTimeout false) s = .next (
      if s.role = 2 ∧ s.pair.pRole = 1 ∧ s.on pgPAIR PAIR.STATUS.DUTY_IN = false ∧ s.pair.freeAt + 500000 ≤ s.clk.ref + 1 then
        s.lineFault 0
      else if s.role = 1 ∧ s.on pgPAIR PAIR.STATUS.DUTY_OUT = true ∧ bitOf s.pair.pFlags 2 = false then s.setFault pgPAIR 24
      else s) := by
  show execPartnerLineTimeout false s = _
  rw [execPartnerLineTimeout, link, beats]
  rfl

/-- READY_LOST on a standby: the offset fault that has lasted 100 ms is recorded with the offset (R387). -/
theorem readyLost_of_standby {s u : State} (standby : s.role = 2) (hu : u = s.readyNow) : exec .readyLost s = .next (
    if u.pair.ofsBad && decide (u.pair.ofsAt + 10000000 ≤ u.clk.ref + 1) then
      ((u.cond pgPAIR 19 true).setFault pgPAIR 19).raise pgPAIR 0x20E 0 [unsigned 32 (max (-2147483648) (min 2147483647
        (signed 64 (u.get pgDVL DVL.PEER_OFS_LO + u.get pgDVL DVL.PEER_OFS_HI * 4294967296))))]
    else u) := by
  subst hu
  exact congrArg _ (if_neg (not_not.2 standby))

/-- Settles O55: a digest meets the one asked for or not, after a mismatch or not; the standby's tests and lines take the branch
of what they find. -/
theorem pairTests : Obligations.PairTests := by
  intro s
  refine ⟨fun p d want asked runs fresh healthy => ⟨?first, ?second, ?suspect, ?mismatch⟩,
    fun standby => ⟨?selftest, fun u hu => ⟨?offsetGood, ?offsetBad⟩, fun link beats => ⟨?takeLine, ?dutyLine⟩⟩, ?ownLine⟩
  case first =>
    intro same first
    rw [shadowCheck_of_first asked runs healthy d first rfl, if_pos same]
  case second =>
    intro q same second
    rw [shadowCheck_of_second asked runs healthy d second fun e => fresh (e ▸ second), if_pos same]
  case suspect =>
    intro q differs second
    rw [shadowCheck_of_second asked runs healthy d second fun e => fresh (e ▸ second), if_neg differs]
  case mismatch =>
    intro differs first u hu
    rw [shadowCheck_of_first asked runs healthy d first hu, if_neg differs]
  case selftest =>
    rintro due dio aout ain cores lanes fails mask rfl rfl rfl
    exact congrArg _ (if_pos ⟨standby, due⟩)
  case offsetGood =>
    intro good
    rw [readyLost_of_standby standby hu, good]
    rfl
  case offsetBad =>
    rintro bad lasted ofs rfl
    rw [readyLost_of_standby standby hu, if_pos (by simp [bad, lasted])]
  case takeLine =>
    intro asserted unseen waited clear
    rw [takeLineTimeout_of_linked link beats, if_pos ⟨standby, asserted, unseen, waited⟩, lineFault_of_clear clear]
  case dutyLine =>
    intro claimed released waited clear
    rw [dutyLineTimeout_of_linked link beats, if_pos ⟨standby, claimed, released, waited⟩, lineFault_of_clear clear]
  case ownLine =>
    intro duty link beats out unseen
    rw [dutyLineTimeout_of_linked link beats, if_neg (by simp [duty]), if_pos ⟨duty, out, unseen⟩]

end Sys2Proof.Proofs

/-! Raised records, the tallies that count them, and TLY (R434 to R441). -/

namespace Sys2Proof.Proofs
open Sys2Proof.Machine

/-! ### Steps and records -/

/-- Settles O1: `step` matches on the queue, and the front command takes the rest as the state's queue. -/
theorem stepRunsFrontCommand : Obligations.StepRunsFrontCommand :=
  fun _ _ _ => rfl

theorem raise_of_some {code i : Nat} (counted : State.tallyOfCode code = some i) (s : State) (page sub : Nat) (p : List Nat) :
    s.raise page code sub p = (s.note page code sub p).tallyAdd i 1 := by
  rw [State.raise, counted]

/-- No code counts in a reserved tally (R434). -/
theorem not_reserved_of_tallyOfCode {code i : Nat} (counted : State.tallyOfCode code = some i) : ¬ (120 ≤ i ∧ i ≤ 127) := by
  unfold State.tallyOfCode at counted
  grind

theorem tallySet_reserved (s : State) {i : Nat} (v : Nat) (reserved : 120 ≤ i ∧ i ≤ 127) : s.tallySet i v = s :=
  if_pos reserved

/-- Counter `i` holds `v`, at most 2^64 - 1, before the test of its threshold. -/
def withTally (s : State) (i v : Nat) : State :=
  { s with tly := { s.tly with val := Store.set 0 s.tly.val i (min v 18446744073709551615) } }

theorem tally_withTally (s : State) (i v : Nat) : (withTally s i v).tally i = min v 18446744073709551615 :=
  Store.get_set_same _ _ _ _

theorem tallySet_of_not_reserved (s : State) {i : Nat} (v : Nat) (usable : ¬ (120 ≤ i ∧ i ≤ 127)) :
    s.tallySet i v = (withTally s i v).tallyCheck i :=
  if_neg usable

/-- Settles O12: `note` appends the record, and the tally of its code, where there is one, counts it afterwards. -/
theorem recordsAndTallies : Obligations.RecordsAndTallies := by
  intro s page code sub p
  refine ⟨⟨_, rfl, rfl, rfl, rfl, rfl, rfl, fun _ => State.param_some s, fun _ => State.param_some s,
    fun _ => State.param_some s⟩, fun uncounted => ?_, fun i counted => ?_, fun i n low high => tallySet_reserved s _ ⟨low, high⟩⟩
  · rw [State.raise_of_none uncounted]
    exact ⟨rfl, fun _ => rfl⟩
  · have usable := not_reserved_of_tallyOfCode counted
    rw [raise_of_some counted]
    refine ⟨?_, fun j other => ?_, State.tallySet_raised _ _ _⟩
    · exact (State.tallySet_tally _ _ usable i).trans (if_pos rfl)
    · exact (State.tallySet_tally _ _ usable j).trans (if_neg other)

/-! ### WARN bits and the test of a threshold -/

/-- The WARN bit of counter `i` (R436). -/
def tlyWarned (s : State) (i : Nat) : Bool := bitOf (s.get pgTLY (TLY.WARN (i / 32))) (i % 32)

theorem tlyWarned_eq_testBit (s : State) (i : Nat) :
    tlyWarned s i = (s.get pgTLY (TLY.WARN (i / 32))).testBit (i % 32) := bitOf_eq_testBit _ _

/-- A write of the WARN word of counter `i`: the words of the other counters stay. -/
theorem tlyWarned_put (s : State) {i j : Nat} (v : Nat) (hi : i < 256) (hj : j < 256) :
    tlyWarned (s.put pgTLY (TLY.WARN (i / 32)) v) j = if j / 32 = i / 32 then v.testBit (j % 32) else tlyWarned s j := by
  rw [tlyWarned_eq_testBit]
  split
  next sameWord =>
    rw [sameWord, State.get_put_same _ _ _ _ _ (Nat.zero_le _) (show 31 < 32 by decide)]
    show (v % 2 ^ 32).testBit (j % 32) = _
    rw [Nat.testBit_mod_two_pow, decide_eq_true (Nat.mod_lt j (by decide)), Bool.true_and]
  next otherWord =>
    rw [tlyWarned_eq_testBit, State.get_put_ne]
    refine regKey_ne (by decide) ?_ (by decide) ?_ ?_
    · show 0x080 + j / 32 * 0x4 < 4096
      omega
    · show 0x080 + i / 32 * 0x4 < 4096
      omega
    · rintro ⟨-, sameOff, -⟩
      change 0x080 + j / 32 * 0x4 = 0x080 + i / 32 * 0x4 at sameOff
      omega

/-- What a reached threshold does beside the WARN bit leaves the WARN words as they are. -/
theorem tlyWarned_reported (s : State) {j : Nat} (hj : j < 256) (p : List Nat) :
    tlyWarned (((s.setFault pgTLY 16).event 0x388).note pgTLY 0x241 0 p) j = tlyWarned s j := by
  have inPage : (TLY.WARN (j / 32)).off < 4096 := by
    show 0x080 + j / 32 * 0x4 < 4096
    omega
  have notFault : (TLY.WARN (j / 32)).off ≠ 0x010 := by
    show 0x080 + j / 32 * 0x4 ≠ 0x010
    omega
  have kept : (((s.setFault pgTLY 16).event 0x388).note pgTLY 0x241 0 p).reg pgTLY (TLY.WARN (j / 32)).off =
      s.reg pgTLY (TLY.WARN (j / 32)).off := by
    rw [State.note_reg, State.reg_event _ _ (by decide) inPage (by decide) (by decide),
      State.reg_setFault_ne _ (by decide) inPage (by decide) (.inl (by decide)) (by simpa using notFault)]
  rw [tlyWarned, tlyWarned, State.get, State.get, kept]

section Check
variable {s : State} {i : Nat}

theorem tallyCheck_of_reached (armed : Store.get 0 s.tly.thr i ≠ 0) (reached : Store.get 0 s.tly.thr i ≤ s.tally i)
    (unwarned : tlyWarned s i = false) : s.tallyCheck i =
      (((s.put pgTLY (TLY.WARN (i / 32)) (s.get pgTLY (TLY.WARN (i / 32)) + 2 ^ (i % 32))).setFault pgTLY 16).event
        0x388).note pgTLY 0x241 0 [i, s.tally i, s.tally i / 4294967296] :=
  if_pos ⟨armed, reached, unwarned⟩

theorem tallyCheck_of_quiet
    (quiet : Store.get 0 s.tly.thr i = 0 ∨ s.tally i < Store.get 0 s.tly.thr i ∨ tlyWarned s i = true) :
    s.tallyCheck i = s := by
  refine if_neg ?_
  rintro ⟨armed, reached, unwarned⟩
  rcases quiet with none | below | warned
  · exact armed none
  · exact below.not_ge reached
  · exact Bool.noConfusion (warned.symm.trans unwarned)

/-- A reached threshold sets the WARN bit of its counter and no other. -/
theorem tlyWarned_tallyCheck_of_reached (hi : i < 256) (armed : Store.get 0 s.tly.thr i ≠ 0)
    (reached : Store.get 0 s.tly.thr i ≤ s.tally i) (unwarned : tlyWarned s i = false) {j : Nat} (hj : j < 256) :
    tlyWarned (s.tallyCheck i) j = (j == i || tlyWarned s j) := by
  have clear := (tlyWarned_eq_testBit s i).symm.trans unwarned
  rw [tallyCheck_of_reached armed reached unwarned, tlyWarned_reported _ hj, tlyWarned_put s _ hi hj, testBit_add_clear clear]
  split
  next sameWord =>
    have sameBit : j % 32 = i % 32 ↔ j = i := ⟨by omega, by rintro rfl; rfl⟩
    rw [tlyWarned_eq_testBit s j, sameWord, Bool.beq_eq_decide_eq, Bool.beq_eq_decide_eq, decide_eq_decide.2 sameBit]
  next otherWord =>
    have other : (j == i) = false := beq_false_of_ne (by rintro rfl; exact otherWord rfl)
    rw [other, Bool.false_or]

theorem tlyWarned_tallyCheck_of_ne (hi : i < 256) {j : Nat} (hj : j < 256) (other : j ≠ i) :
    tlyWarned (s.tallyCheck i) j = tlyWarned s j := by
  by_cases test : Store.get 0 s.tly.thr i ≠ 0 ∧ Store.get 0 s.tly.thr i ≤ s.tally i ∧ tlyWarned s i = false
  · obtain ⟨armed, reached, unwarned⟩ := test
    rw [tlyWarned_tallyCheck_of_reached hi armed reached unwarned hj, beq_false_of_ne other, Bool.false_or]
  · rw [State.tallyCheck]
    exact congrArg (tlyWarned · j) (if_neg test)

end Check

/-! ### Writes of TLY -/

theorem tlyTouch_eq (s : State) :
    s.tlyTouch = { s with tly := { s.tly with unlock := if s.tly.unlock = 1 then 0 else s.tly.unlock } } := by
  unfold State.tlyTouch
  split
  · rfl
  · rfl

theorem tlyTouch_tlyTouch (s : State) : s.tlyTouch.tlyTouch = s.tlyTouch := by
  have ended : s.tlyTouch.tly.unlock ≠ 1 := by
    rw [tlyTouch_eq]
    show (if s.tly.unlock = 1 then 0 else s.tly.unlock) ≠ 1
    split
    · exact Nat.zero_ne_one
    · assumption
  exact if_neg ended

/-- The threshold `thr` of counter `i` is in effect. -/
def withThreshold (s : State) (i thr : Nat) : State :=
  { s with tly := { s.tly with thr := Store.set 0 s.tly.thr i thr, thrHeld := none } }

/-- A threshold above the value clears the WARN bit of its counter. -/
def thresholdArmed (w : State) (i thr : Nat) : State :=
  if w.tally i < thr then
    w.put pgTLY (TLY.WARN (i / 32)) (putBits (w.get pgTLY (TLY.WARN (i / 32))) (i % 32) (i % 32) 0)
  else w

theorem threshHi_of_mayAct {s u : State} {m : Fin 4} {v : BitVec 32} {i thr : Nat} (act : s.mayAct pgTLY m.val)
    (hu : u = s.tlyTouch) (hi : i = u.get pgTLY TLY.INDEX.COUNTER) (usable : ¬ (120 ≤ i ∧ i ≤ 127))
    (hthr : thr = v.toNat * 4294967296 + u.tly.thrHeld.getD (Store.get 0 u.tly.thr i % 4294967296)) :
    exec (.threshHi m v) s = .next (((thresholdArmed (withThreshold u i thr) i thr).tallyCheck i).tallyAdd 114 1) := by
  subst hthr hi
  show execThreshHi m v s = _
  rw [execThreshHi, State.action_of_mayAct s act, State.pageTouch_pgTLY _ (by decide), tlyTouch_tlyTouch, ← hu]
  dsimp only
  rw [if_neg usable]
  rfl

section Threshold
variable {w : State} {i thr : Nat}

theorem thresholdArmed_of_above (above : w.tally i < thr) : thresholdArmed w i thr =
    w.put pgTLY (TLY.WARN (i / 32)) (putBits (w.get pgTLY (TLY.WARN (i / 32))) (i % 32) (i % 32) 0) :=
  if_pos above

theorem tlyWarned_thresholdArmed (above : w.tally i < thr) (hi : i < 256) :
    tlyWarned (thresholdArmed w i thr) i = false := by
  rw [thresholdArmed_of_above above, tlyWarned_put w _ hi hi, if_pos rfl, testBit_putBits _ _ _ _ _ le_rfl]
  simp

@[simp] theorem thresholdArmed_tly : (thresholdArmed w i thr).tly = w.tly := by
  unfold thresholdArmed
  split
  · rfl
  · rfl

end Threshold

theorem tallySet_thr (s : State) (i v : Nat) : (s.tallySet i v).tly.thr = s.tly.thr := by
  by_cases reserved : 120 ≤ i ∧ i ≤ 127
  · rw [tallySet_reserved s v reserved]
  · rw [tallySet_of_not_reserved s v reserved, State.tallyCheck_tly]
    rfl

/-- Counting in another counter leaves a WARN bit, and so does counting below the counter's own threshold. -/
theorem tlyWarned_tallyAdd {s : State} {i j n : Nat} (hi : i < 256) (hj : j < 256)
    (below : j = i → s.tally i + n < Store.get 0 s.tly.thr i) : tlyWarned (s.tallyAdd i n) j = tlyWarned s j := by
  by_cases reserved : 120 ≤ i ∧ i ≤ 127
  · rw [State.tallyAdd, tallySet_reserved s _ reserved]
  rw [State.tallyAdd, tallySet_of_not_reserved s _ reserved]
  by_cases own : j = i
  · rw [tallyCheck_of_quiet]
    · rfl
    · refine .inr (.inl ?_)
      rw [tally_withTally]
      exact (Nat.min_le_left _ _).trans_lt (below own)
  · rw [tlyWarned_tallyCheck_of_ne hi hj own]
    rfl

/-- Settles O16: a counter that is set meets the test of its threshold; a threshold above the value clears the bit, and neither
the test nor the count of the write sets it again. -/
theorem thresholdWarning : Obligations.ThresholdWarning := by
  refine ⟨fun s i v hi usable armed reached unwarned => ?reaches, fun s i v hi usable quiet => ?quiet,
    fun s m v i thr act hi usable hthr above => ?writes⟩
  case reaches =>
    have value := tally_withTally s i v
    have reached' : Store.get 0 (withTally s i v).tly.thr i ≤ (withTally s i v).tally i := by rwa [value]
    have unwarned' : tlyWarned (withTally s i v) i = false := unwarned
    have checked := tallyCheck_of_reached (s := withTally s i v) armed reached' unwarned'
    rw [tallySet_of_not_reserved s v usable]
    refine ⟨?_, ?_, ?_⟩
    · rw [checked, value]
      rfl
    · refine (tlyWarned_tallyCheck_of_reached (s := withTally s i v) hi armed reached' unwarned' hi).trans ?_
      rw [beq_self_eq_true, Bool.true_or]
    · rw [checked, State.note_reg, State.reg_event _ _ (by decide) (by decide) (by decide) (by decide),
        State.getLsbD_setFault _ (by decide) 16 (by decide)]
      rfl
  case quiet =>
    rw [tallySet_of_not_reserved s v usable]
    rw [← tally_withTally s i v] at quiet
    exact tallyCheck_of_quiet quiet
  case writes =>
    have hi256 : i < 256 := hi ▸ bits_lt _ _ _
    have same := tlyTouch_eq s
    generalize hu : s.tlyTouch = u at same
    have writes := threshHi_of_mayAct (i := i) (thr := thr) act hu.symm (by rw [same]; exact hi.symm) usable
      (by rw [same]; exact hthr)
    have value : (withThreshold u i thr).tally i = s.tally i := by rw [same]; rfl
    have stored : Store.get 0 (withThreshold u i thr).tly.thr i = thr := Store.get_set_same _ _ _ _
    generalize withThreshold u i thr = w at writes value stored
    have above' : w.tally i < thr := by rw [value]; split at above <;> omega
    have tested : (thresholdArmed w i thr).tallyCheck i = thresholdArmed w i thr := by
      refine tallyCheck_of_quiet (.inr (.inl ?_))
      rw [State.tally, thresholdArmed_tly, stored]
      exact above'
    refine ⟨_, writes, ?_, ?_⟩
    · rw [tested, State.tallyAdd, tallySet_thr, thresholdArmed_tly, stored]
    · rw [tested]
      refine (tlyWarned_tallyAdd (by decide) hi256 ?_).trans (tlyWarned_thresholdArmed above' hi256)
      rintro rfl
      rw [State.tally, thresholdArmed_tly, stored]
      exact (congrArg (· + 1) value).trans_lt (by simpa using above)

/-! ### TLY.CMD -/

/-- A command runs on the state in which the unlock has been used. -/
theorem tlyLock_tlyTouch (s : State) : s.tlyTouch.tlyLock = s.tlyLock := by
  rw [tlyTouch_eq]
  rfl

theorem get_tlyTouch (s : State) (page : Nat) (f : Fld) : s.tlyTouch.get page f = s.get page f := by
  rw [tlyTouch_eq]
  rfl

/-- A half-given unlock ends; the unlock itself stands. -/
theorem unlocked_tlyTouch (s : State) : s.tlyTouch.tly.unlock = 2 ↔ s.tly.unlock = 2 := by
  rw [tlyTouch_eq]
  show (if s.tly.unlock = 1 then 0 else s.tly.unlock) = 2 ↔ s.tly.unlock = 2
  split <;> omega

section Commands
variable {s : State} {m : Fin 4} (act : s.mayAct pgTLY m.val)
include act

/-- A write of TLY.CMD by the owner ends a half-given unlock and runs its command. -/
theorem tlyCmd_of_mayAct (f : State → State) : s.tlyCmd m.val f = f s.tlyTouch := by
  have own : s.owner pgTLY = m.val := act.2.1
  simp [State.tlyCmd, own, State.action_of_mayAct s act]

theorem preset_of_mayAct {i : Nat} (hi : i = s.get pgTLY TLY.INDEX.COUNTER) : exec (.preset m) s = .next (
    if i < 13 ∨ (92 < i ∧ i < 128) then s.tlyLock.tlyRefuse 3
    else if i ≤ 92 ∧ s.tly.unlock ≠ 2 then s.tlyLock.tlyRefuse 1
    else (((s.tlyLock.tallySet i s.tlyLock.tlyPresetVal).raise pgTLY 0x242 0
      [i, s.tlyLock.tally i, s.tlyLock.tlyPresetVal]).tlyStore i).put pgTLY TLY.CMD_STATUS.RESULT 0) := by
  have fixed : (!(decide (13 ≤ i) && decide (i ≤ 92)) && !decide (128 ≤ i)) = true ↔ i < 13 ∨ (92 < i ∧ i < 128) := by
    simp only [Bool.and_eq_true, Bool.not_eq_true', Bool.and_eq_false_iff, decide_eq_false_iff_not]
    omega
  show execPreset m s = _
  rw [execPreset, tlyCmd_of_mayAct act]
  simp only [get_tlyTouch, ← hi, tlyLock_tlyTouch, unlocked_tlyTouch, fixed, ne_eq]

theorem add_of_mayAct {i : Nat} (hi : i = s.get pgTLY TLY.INDEX.COUNTER) : exec (.add m) s = .next (
    if i < 128 then s.tlyLock.tlyRefuse 3
    else (s.tlyLock.tallyAdd i (s.tlyLock.get pgTLY TLY.PRESET_LO)).put pgTLY TLY.CMD_STATUS.RESULT 0) := by
  show execAdd m s = _
  rw [execAdd, tlyCmd_of_mayAct act]
  simp only [get_tlyTouch, ← hi, tlyLock_tlyTouch]

theorem flush_of_mayAct : exec (.flush m) s = .next (s.tlyLock.tlyFlush.put pgTLY TLY.CMD_STATUS.RESULT 0) := by
  show execFlush m s = _
  rw [execFlush, tlyCmd_of_mayAct act, tlyLock_tlyTouch]

theorem tlyUnlock_of_locked (locked : s.tly.unlock ≠ 2) (key : BitVec 32) : exec (.tlyUnlock m key) s = .next (
    if key = 0x5EC7#32 then { s with tly := { s.tly with unlock := 1, unlockAt := s.clk.ref } }
    else if key = 0xA17B#32 ∧ s.tly.unlock = 1 ∧ s.clk.ref ≤ s.tly.unlockAt + 100000 then
      { s with tly := { s.tly with unlock := 2 } }
    else { s with tly := { s.tly with unlock := 0 } }) := by
  show execTlyUnlock m key s = _
  rw [execTlyUnlock, State.action_of_mayAct s act, State.pageTouch_cmdKey]
  exact congrArg _ (if_neg locked)

end Commands

/-- Settles O57: the owner's commands divide by the counter and the unlock; time and reads take their branch. -/
theorem tallyCounters : Obligations.TallyCounters := by
  intro s
  refine ⟨fun m act => ⟨fun i hi => ⟨fun mayPreset => ?preset, fun low high locked => ?locked, fun fixed => ?fixed,
      fun high => ?add, fun low => ?noAdd⟩, flush_of_mayAct act, fun v u w i thr hu hi usable hthr hw => ?threshold,
      fun locked => ⟨?firstKey, fun first inTime => ?secondKey, fun none => ?noFirst⟩⟩,
    fun powered => ⟨fun n hn due => ?flushes, fun c u due hu => ?second⟩, fun served v hv => ?valueRead⟩
  case preset =>
    rw [preset_of_mayAct act hi, if_neg (by omega), if_neg (by omega)]
  case locked =>
    rw [preset_of_mayAct act hi, if_neg (by omega), if_pos ⟨high, locked⟩]
  case fixed =>
    rw [preset_of_mayAct act hi, if_pos fixed]
  case add =>
    rw [add_of_mayAct act hi, if_neg high.not_gt]
  case noAdd =>
    rw [add_of_mayAct act hi, if_pos low]
  case threshold =>
    have writes := threshHi_of_mayAct act hu hi (by omega) hthr
    obtain rfl : w = withThreshold u i thr := hw
    refine ⟨fun above => ?_, fun notAbove => ?_⟩
    · rw [writes, thresholdArmed_of_above above]
    · rw [writes, thresholdArmed, if_neg notAbove.not_gt]
  case firstKey =>
    rw [tlyUnlock_of_locked act locked, if_pos rfl]
  case secondKey =>
    rw [tlyUnlock_of_locked act locked, if_neg (by decide), if_pos ⟨rfl, first, inTime⟩]
  case noFirst =>
    rw [tlyUnlock_of_locked act locked, if_neg (by decide), if_neg (by simp [none])]
  case flushes =>
    subst hn
    exact if_neg (by simp [powered, due])
  case second =>
    subst hu
    exact if_neg (by simp [powered, due])
  case valueRead =>
    subst hv
    exact if_neg (by simp [served])

end Sys2Proof.Proofs

/-! REC and its cursors (R440 to R448, R454). -/

namespace Sys2Proof.Proofs
open Sys2Proof.Machine

/-! ### Receipt and the ring -/

theorem recordReceive_of_raised {s : State} {ev : RecEv} {rest : List RecEv}
    (next : State.nextRaised s.recd.raised = some (ev, rest)) :
    exec .recordReceive s = .next (({ s with recd := { s.recd with raised := rest } } : State).receive ev) := by
  show execRecordReceive s = _
  rw [execRecordReceive, next]

theorem recordWrite_of_queued {s u : State} {ok : Bool} {r : QRec} {rest : List QRec} (ready : s.recd.ready = true)
    (queued : s.recd.queue = r :: rest)
    (hu : u = ({ s with recd := { s.recd with queue := rest } } : State).ringWrite r ok) :
    exec (.recordWrite ok) s = .next (if 0 < s.recd.fullCount then
      ({ u with recd := { u.recd with fullCount := 0 } } : State).raise pgREC 0x246 0 [s.recd.fullCount] else u) := by
  subst hu
  show execRecordWrite ok s = _
  rw [execRecordWrite, ready, queued]
  rfl

/-! ### The commands of REC's owner -/

section Commands
variable {s : State} {m : Fin 4} (act : s.mayAct pgREC m.val)
include act

/-- A firmware record of code `c` with the words of LOG_P (R454). -/
theorem logCmd_of_firmware {c : BitVec 12} (firmware : 0x400 ≤ c.toNat) {sub : BitVec 3} {ev : RecEv}
    (hev : ev = {
      code := c.toNat, page := pgREC, sub := sub.toNat, p0 := s.get pgREC (REC.LOG_P 0)
      p1 := s.get pgREC (REC.LOG_P 1), p2 := s.get pgREC (REC.LOG_P 2), ns := s.stpNs
      wrap := (s.get pgREC REC.EPOCH + s.get pgREC REC.PEND) % 4294967296
      late := !(s.on pgTIME TIME.STATUS.STP_TRUST) || s.on pgREC REC.STATUS.EPOCH_STALE, at_ := s.clk.ref }) :
    exec (.logCmd m c sub) s = .next ((s.receive ev).put pgREC REC.LOG_STATUS.RESULT
      (if !s.queueFull && s.hasTokens c.toNat then 0 else 1)) := by
  subst hev
  show execLogCmd m c sub s = _
  rw [execLogCmd, State.actionRes_of_mayAct s act, State.pageTouch_pgREC, if_neg firmware.not_gt]

theorem logCmd_of_hardware {c : BitVec 12} (hardware : c.toNat < 0x400) (sub : BitVec 3) :
    exec (.logCmd m c sub) s = .next (s.put pgREC REC.LOG_STATUS.RESULT 2) := by
  show execLogCmd m c sub s = _
  rw [execLogCmd, State.actionRes_of_mayAct s act, State.pageTouch_pgREC, if_pos hardware]

theorem wrapAck_of_mayAct (n : BitVec 2) : exec (.wrapAck m n) s = .next (
    if n.toNat ≤ s.get pgREC REC.PEND then
      (s.put pgREC REC.EPOCH (s.get pgREC REC.EPOCH + n.toNat)).put pgREC REC.PEND (s.get pgREC REC.PEND - n.toNat)
    else s) := by
  show execWrapAck m n s = _
  rw [execWrapAck, State.action_of_mayAct s act, State.pageTouch_pgREC]

theorem epoch_of_mayAct (v : BitVec 32) : exec (.epoch m v) s = .next (((((s.put pgREC REC.EPOCH v.toNat).put pgREC
    REC.PEND 0).put pgREC REC.STATUS.EPOCH_STALE 0).cond pgREC 18 false).raise pgREC 0x247 0
      [s.get pgREC REC.EPOCH, v.toNat, s.get pgREC REC.PEND]) := by
  show execEpoch m v s = _
  rw [execEpoch, State.action_of_mayAct s act, State.pageTouch_pgREC]

end Commands

/-! ### Windows of the cursors -/

section Windows
variable {s : State} (served : s.served = true) (c m : Fin 4)
include served

theorem winW0Read_of_served : exec (.winW0Read c m) s = .next (
    if m = c ∧ s.on (pgRCUR c.val) RCUR.WIN_STATUS.VALID = true then
      (s.answer (s.get (pgRCUR c.val) (RCUR.WIN_W 0))).put (pgRCUR c.val) RCUR.WIN_STATUS.LOCKED 1
    else s.answer (s.get (pgRCUR c.val) (RCUR.WIN_W 0))) :=
  if_neg (by simp [served])

theorem winW7Read_of_served : exec (.winW7Read c m) s = .next (
    if m = c then ((s.answer (s.get (pgRCUR c.val) (RCUR.WIN_W 7))).put (pgRCUR c.val) RCUR.WIN_STATUS.LOCKED 0).curAdvance c.val
    else s.answer (s.get (pgRCUR c.val) (RCUR.WIN_W 7))) :=
  if_neg (by simp [served])

end Windows

/-- Settles O58: receipt and writes follow the queue, the owner's commands act, and a cursor's window and seeks divide by its
master and by what is held. -/
theorem recorderCommands : Obligations.RecorderCommands := by
  intro s
  refine ⟨fun ev rest next => ⟨recordReceive_of_raised next, fun u v hu room tokens hv => ?queued⟩,
    fun ok r rest u ready queued hu => ⟨fun none => ?written, fun full => ?afterFull⟩, ?summary,
    fun m act => ⟨fun c sub ev => ⟨fun hardware => logCmd_of_hardware act hardware sub, fun firmware hev =>
        ⟨logCmd_of_firmware act firmware hev, fun room tokens v w hv hw => ?logged⟩⟩,
      fun n => ⟨fun within => ?acked, fun beyond => ?ignored⟩, epoch_of_mayAct act⟩,
    fun c m served => ⟨fun own valid => ?locks, fun foreign => ⟨?readsW0, ?readsW7⟩, fun own => ?advances⟩,
    fun c m act => ⟨seek_some (fun s => some s.oldestSeq) act rfl, seek_some (fun s => some s.recd.nextSeq) act rfl,
      fun q hq => ⟨fun held => ?found, fun lost => ?notFound⟩⟩⟩
  case queued =>
    subst hu
    rw [recordReceive_of_raised next, receive_takes room tokens v hv]
  case written =>
    rw [recordWrite_of_queued ready queued hu, if_neg none.not_gt]
  case afterFull =>
    rw [recordWrite_of_queued ready queued hu, if_pos full]
  case summary =>
    rintro c ev u suppressed limited refilled room rfl rfl
    refine (if_neg ?_).trans (if_neg (Bool.eq_false_iff.1 room))
    simp [suppressed, limited, Nat.not_lt.2 refilled]
  case logged =>
    have code : ev.code = c.toNat := congrArg RecEv.code hev
    rw [logCmd_of_firmware act firmware hev, receive_takes room (code ▸ tokens) v (code ▸ hv), hw, code, room, tokens]
    rfl
  case acked =>
    rw [wrapAck_of_mayAct act, if_pos within]
  case ignored =>
    rw [wrapAck_of_mayAct act, if_neg beyond.not_ge]
  case locks =>
    rw [winW0Read_of_served served, if_pos ⟨own, valid⟩]
  case readsW0 =>
    rw [winW0Read_of_served served, if_neg (by simp [foreign])]
  case readsW7 =>
    rw [winW7Read_of_served served, if_neg foreign]
  case advances =>
    rw [winW7Read_of_served served, if_pos own]
  case found =>
    subst hq
    exact seek_some _ act (if_pos held)
  case notFound =>
    subst hq
    exact seek_none _ act (if_neg (Bool.eq_false_iff.1 lost))

end Sys2Proof.Proofs

/-! The calendar (R422 to R432), and the front panel with its indicators (R456 to R471). -/

namespace Sys2Proof.Proofs
open Sys2Proof.Machine

/-! ### CAL -/

/-- A pending commit of a good setting alone: no group is refused, and none but the setting is applied (R424, R425). -/
theorem calApply_of_setting {s : State} (pending : s.on pgCAL HDR.COMMIT.PENDING = true) (setting : s.cal.gSet = true)
    (noAlarm : s.cal.gAlarm = false) (noWake : s.cal.gWake = false) (date : dateReason (s.calBuf 0x050) = 0)
    (time : timeReason (s.calBuf 0x054) = 0) :
    s.calApply = ({ (s.put pgCAL HDR.COMMIT.PENDING 0).incMod pgCAL HDR.STAGE_SEQ with
      cal := { s.cal with gSet := false, gAlarm := false, gWake := false } } : State).calSet := by
  simp only [State.calApply, pending, setting, noAlarm, noWake, date, time, Bool.not_true, Bool.not_false, Bool.true_or,
    Bool.and_true, Bool.false_eq_true, if_false, if_true, ne_eq, not_true_eq_false, false_and]

/-- Settles O60: each command in the branch of what CAL holds; the year wrap goes on with what is due at its midnight. -/
theorem calendarCommands : Obligations.CalendarCommands := by
  intro s
  refine ⟨fun served => if_neg (by simp [served]), fun none => congrArg _ (if_pos (by simp [none])),
    fun pending setting noAlarm noWake date time =>
      congrArg _ (calApply_of_setting pending setting noAlarm noWake date time),
    fun powered => ⟨fun due => ?alarm, fun due u hu => ?wake, if_neg (by simp [powered]),
      fun absent => if_neg (by simp [powered, absent]), fun last u hu => ?wrap⟩⟩
  case alarm =>
    exact congrArg _ ((if_pos powered).trans (if_pos due))
  case wake =>
    subst hu
    exact congrArg _ ((if_pos powered).trans (if_pos due))
  case wrap =>
    subst hu
    exact if_neg (by simp [powered, last])

/-! ### Requests of the panel -/

section Commands
variable {s : State} {m : Fin 4} (act : s.mayAct pgPNL m.val)
include act

theorem req_of_mayAct (mask : BitVec 8) : exec (.req m mask) s = .next (forEach
    ((List.range 8).filter (fun k => bitOf mask.toNat k)) (fun u k => u.pnlRequest k) s).pnlStatus := by
  show execReq m mask s = _
  rw [execReq, State.action_of_mayAct s act, State.pageTouch_pgPNL]

theorem restCmdText_of_mayAct : exec (.restCmdText m) s = .next (s.restTrigger 8 s.modeWord true false) := by
  show execRestCmdText m s = _
  rw [execRestCmdText, State.action_of_mayAct s act, State.pageTouch_pgPNL]

theorem restCmdBlank_of_mayAct : exec (.restCmdBlank m) s = .next (s.restTrigger 0 s.modeWord true false) := by
  show execRestCmdBlank m s = _
  rw [execRestCmdBlank, State.action_of_mayAct s act, State.pageTouch_pgPNL]

end Commands

theorem regions_of_single (k : Fin 8) : (List.range 8).filter (fun j => bitOf (1#8 <<< k.val).toNat j) = [k.val] := by
  decide +revert

/-- The update of a running drive that a rest image interrupts: the commons that it has not driven wait again (R465). -/
def updateLeft (s : State) : List PanelJob :=
  match s.pnl.job with
  | some j => if j.kind == 1 && decide (1 < j.rows.length) && !(s.pnl.updates.any (fun u => u.region == j.region))
    then [{ j with rows := j.rows.drop 1 }] else []
  | none => []

/-- A rest image of REST_CMD, whose cause repeats no shut-down: all its lines are queued (R464, R465). -/
theorem restTrigger_of_command {s : State} (inRange : s.pnl.tempOut = false) {cause : Nat} (notLoss : cause ≠ 1) (mode : String) :
    s.restTrigger cause mode true false = ({ s with pnl := { s.pnl with
      stopAfter := s.pnl.stopAfter || s.pnl.job.any (fun j => j.kind == 1), updates := updateLeft s ++ s.pnl.updates
      rests := s.pnl.rests ++ [{ kind := 2, rows := s.restRows cause mode [0, 1, 2, 3], cause := cause, all := true, quiet := false
                                 total := (s.restRows cause mode [0, 1, 2, 3]).length }] } } : State).pnlRestNext := by
  have first : (cause == 1) = false := beq_false_of_ne notLoss
  rw [State.restTrigger, if_neg (by simp [inRange])]
  simp only [updateLeft, first, Bool.false_and, Bool.not_false, Bool.and_true]
  cases s.pnl.job with
  | none => rfl
  | some j => rfl

/-! ### Drives -/

theorem regionUpdateStart_of_pending {s : State} {j : PanelJob} {rest : List PanelJob} (idle : s.pnl.job = none)
    (pending : s.pnl.updates = j :: rest) (powered : s.pd1 = true) (inRange : s.pnl.tempOut = false)
    (gap : s.gapPassed j = true) : exec .regionUpdateStart s =
      .next (({ s with pnl := { s.pnl with updates := rest } } : State).pnlBegin j) := by
  show execRegionUpdateStart s = _
  rw [execRegionUpdateStart, idle, pending]
  exact if_pos (by simp [powered, inRange, gap])

/-- A common driven for 400 µs in a drive with more rows: it holds its row, errors are recorded, the next row follows. -/
theorem commonDriveDone_of_more {s u : State} {j : PanelJob} {c pol x row : Nat} (job : s.pnl.job = some j)
    (marker : s.pnl.marker = some (c, pol, x)) (driven : s.pnl.driveAt + 40000 ≤ s.clk.ref) (goesOn : s.pnl.stopAfter = false)
    (more : 1 < j.rows.length) (hrow : row = (j.rows.headD (0, 0)).2)
    (hu : u = ({ s with pnl := { s.pnl with
      image := Store.set 0 s.pnl.image c row, polarity := Store.set 0 s.pnl.polarity c (1 - pol), marker := none
      driven := Store.set 0 s.pnl.driven c (s.clk.ref + 1), job := some { j with rows := j.rows.drop 1 }
      stopAfter := false } } : State).incMod pgPNL PNL.DRIVES) (ok : Bool) (err : Fin 3) :
    exec (.commonDriveDone ok err) s = .next (onlyIf (err.val != 0) (fun v => (v.setFault pgPNL 16).raise pgPNL 0x263 0
      [c, err.val]) (onlyIf (!ok) (fun v => (v.setFault pgPNL 19).raise pgPNL 0x265) u)).pnlNext := by
  obtain ⟨first, second, rest, rows⟩ : ∃ a b l, j.rows = a :: b :: l := by
    match h : j.rows with
    | [] => simp [h] at more
    | [_] => simp [h] at more
    | a :: b :: l => exact ⟨a, b, l, rfl⟩
  subst hrow hu
  show execCommonDriveDone ok err s = _
  simp only [execCommonDriveDone, job, marker]
  rw [if_neg driven.not_gt]
  simp only [goesOn, rows]
  rfl

/-- Settles O59: the owner's requests and rest images are queued, a drive or an update goes on by its rows and instants, and a
condition is reported where it is new. -/
theorem panelCommands : Obligations.PanelCommands := by
  intro s
  refine ⟨fun m act => ⟨req_of_mayAct act, ?request, ?rest, restCmdText_of_mayAct act, restCmdBlank_of_mayAct act⟩,
    fun j rest idle pending powered inRange gap => regionUpdateStart_of_pending idle pending powered inRange gap,
    fun j c pol x row u job marker driven goesOn more hrow hu =>
      have done := commonDriveDone_of_more job marker driven goesOn more hrow hu
      ⟨done true 0, done false 0, done true 1⟩,
    fun powered => ⟨fun t u hu => ⟨fun inRange out => ?outOfRange, fun inRange low high => ?inRange⟩, ?emitter⟩⟩
  case request =>
    rintro k j rows u enabled rfl rfl rfl
    rw [req_of_mayAct act, regions_of_single]
    show (.next (s.pnlRequest k.val).pnlStatus : Out) = _
    rw [State.pnlRequest, if_neg (by simp [enabled])]
    rfl
  case rest =>
    rintro req back run w inRange rfl rfl rfl rfl
    rw [restCmdText_of_mayAct act, restCmdBlank_of_mayAct act, restTrigger_of_command inRange (by decide),
      restTrigger_of_command inRange (by decide)]
    exact ⟨rfl, rfl⟩
  case outOfRange =>
    subst hu
    refine (if_neg (by simp [powered])).trans (if_pos ?_)
    simpa [show s.pnl.tempOut = false from inRange] using out
  case inRange =>
    subst hu
    refine (if_neg (by simp [powered])).trans ((if_neg ?_).trans (if_neg ?_))
    · simp [low, high]
    · simp [show s.pnl.tempOut = false from inRange]
  case emitter =>
    rintro i col sh b rfl driven
    refine if_neg ?_
    rw [powered, decide_eq_false (Nat.not_lt.2 driven)]
    exact Bool.false_ne_true

end Sys2Proof.Proofs
